-- ==== Sys2Proof/Word.lean ====
section
/-! DEFINITION. The words of the chip: bytes, ticks and the fixed time units of Table 0.3 (00_scope.md). -/

namespace Sys2Proof

/-- One byte, as the trunk carries it (R7). -/
abbrev Byte := BitVec 8
/-- A 64-bit tick or counter value (R4). -/
abbrev Tick := BitVec 64
/-- A 48-bit station tag (Table 8.2). -/
abbrev Tag := BitVec 48
/-- A 16-byte table entry or descriptor, byte 0 in the most significant position (R7). -/
abbrev Entry := BitVec 128

/-- Ticks in one symbol (R4). -/
abbrev symbolTicks : Nat := 9216
/-- Ticks in one trick, 64 symbols (R4). -/
abbrev trickTicks : Nat := 589824
/-- Symbols in one trick. -/
abbrev trickSymbols : Nat := 64
/-- Ticks in one second of the 3.000 GHz clock (R3). -/
abbrev secondTicks : Nat := 3000000000
/-- 256 tricks, the interval of the rate-limited events (R599). -/
abbrev rateTicks : Nat := 150994944

end Sys2Proof
end

