-- ==== Sys2Proof/Syntax.lean ====
section
/-! DEFINITION. The commands of the block: one constructor of Instr for each row of spec/opcode_table.json,
with the operands the row's rule names. The table gives no row any bits, so a command has no encoding.
Quantities that the chip measures outside itself (a voltage, a resistance, a carrier's SNR, whether a
redundant code corrected a word) are operands of the row that measures them. -/

namespace Sys2Proof

/-- A trunk port, and by the same name the pipeline that serves it: PA for TA, PB for TB (Table 1.1). -/
inductive Port where
  | ta
  | tb
  deriving DecidableEq, Repr

/-- The other port. -/
def Port.other : Port → Port
  | .ta => .tb
  | .tb => .ta

/-- The six rails the rail monitor watches (01_architecture.md, Two halves). -/
inductive Rail where
  | vcore | vsram | vio | van | vfp | vfn
  deriving DecidableEq, Repr

/-- The units and rails whose working state the tiers need (Tables 1.1, 1.4 and 1.8). -/
inductive UnitId where
  | flue
  | clock
  | port (p : Port)
  | pipe (p : Port)
  | group (g : Fin 8)
  | queueMgr
  | analogue
  | engine
  | ward
  | seatLink
  | rail (r : Rail)
  deriving DecidableEq, Repr

/-- Why a kindling attempt failed (R148): the codes of event 0x0102, byte 2. -/
inductive KindleFail where
  | pllLock
  | group0
  | selfCheck
  deriving DecidableEq, Repr

/-- A record of the key vault (Table 17.1); a repair record is named by its bank and its index. -/
inductive VKey where
  | protection
  | key (slot : Fin 20)
  | ward (hand : Fin 16)
  | trim (ch : Fin 24)
  | curve (slot : Fin 16)
  | mask
  | repair (bank : Fin 64) (idx : Fin 8)
  deriving DecidableEq, Repr

/-- A command frame as its ingress port delivers it: the header fields the engine uses (R463, R466) and the
payload of Table 15.1. -/
structure CmdFrame where
  /-- Ingress port: the fixed responder answers out of it (R479). -/
  port : Port
  /-- `AKIND` place: true; station with the chip's own tag: false (R463). -/
  byPlace : Bool
  /-- Header `HAND`. -/
  hand : Fin 16
  /-- Header `SEQ`. -/
  seq : BitVec 32
  /-- Header `SRC_TAG`. -/
  srcTag : Tag
  /-- The command payload (Table 15.1). -/
  payload : List Byte
  deriving DecidableEq, Repr

/-- What the word protection of the banks reported during an access (R342): words it corrected and words it
found poisoned, by byte address. -/
structure Ecc where
  corrected : List Nat
  poisoned : List Nat
  deriving DecidableEq, Repr

/-- One round of the strap decoder (R40 to R43): the two reference conversions and the pin conversions in
milliohm, in digest order (or the order of the named pins), and the digital samples. -/
structure StrapRound where
  ref3 : Nat
  ref12 : Nat
  /-- ALM_SEL under the pull-up, then under the pull-down. -/
  almUp : Bool
  almDown : Bool
  dbgEn : Bool
  pins : List Nat
  deriving DecidableEq, Repr

/-- One decimated conversion of an input channel on both paths (R399, R402), in the electrical unit of its
family: 4 nA, 2 uV, 1 nV/V or 10 nV/V, 0.1 mOhm (RTD) or 1 nV (thermocouple). -/
structure Conv where
  /-- Nominal instant on the counter (R114). -/
  instant : Tick
  coarse : Int
  fine : Int
  /-- A fine modulator overload fell in the filter window (R406). -/
  fineOvl : Bool
  /-- A coarse modulator overload fell in the filter window (R411). -/
  coarseOvl : Bool
  deriving DecidableEq, Repr

/-- What SAMPLE_READY observes: the conversion that enters the buffer, and what else was seen of the sample being output (R408). Both
values of the conversion are after the gain match (R407, R410). -/
structure SampleObs where
  conv : Conv
  /-- Cold-junction reading in 0.001 degC: the local Pt1000 of a CPA 9 channel, or the value converted by
  channel 23 as the node reference (R416). -/
  cj : Int
  /-- A current source at 4.5 V or a voltage source at its limit in this conversion (Table 12.9). -/
  excLimit : Bool
  /-- T0 stands more than 100 mV above bias (Table 12.9, CPA 9 and 10). -/
  tcOpen : Bool
  /-- V_23 / I in 0.1 Ohm (3-wire RTD). -/
  lead : Nat
  /-- Gain ratio against its calibrated value, in 0.01 % (R410, Table 13.8). -/
  gainDev : Int
  /-- A forward step of the counter fell inside the filter window (R425). -/
  stepInWindow : Bool
  /-- A full filter window has been collected since the front end came on. -/
  settled : Bool
  deriving DecidableEq, Repr

/-- One set of readback results of an output channel (Table 14.3): OUT.SET units before the readback correction of the trim (R453),
V_T01 judged. -/
structure Readback where
  own : Int
  total : Int
  /-- The load voltage of a voltage output. -/
  load : Int
  /-- The stage is at its limit (R442): V_T01 within 0.3 V of the maximum, or at the current limit. -/
  atLimit : Bool
  /-- The stage is at its current limit (R442, voltage outputs). -/
  atCurrentLimit : Bool
  deriving DecidableEq, Repr

/-- What a sweep region's steps found (R353). -/
structure SweepObs where
  ecc : Ecc
  /-- March found a mismatch, and Retest found it again. -/
  march : Bool
  retest : Bool
  deriving DecidableEq, Repr

/-- The commands of the block: the rows of spec/opcode_table.json in the table's order. -/
inductive Instr where
  -- Kindling, resets and the rails (05, 01, 22)
  | powerUp
  | shellRelease
  | railOutOfWindow (r : Rail)
  | vanLost
  | rstNAssert
  | rstNRelease
  | testEnHigh
  | strapRound (r : StrapRound)
  | strapReadingResolved
  | vaultLoadDone (damaged : List (VKey × Bool × Bool))
  | memoryClearDone (bad : List (Fin 64 × Fin 512))
  | kindleReadingDone
  | analogCoreStartDone (calFail : List (Fin 24))
  | kindleAttemptFail (why : KindleFail)
  | tierMoveDown (lost : List UnitId)
  | tierMoveUp (recovered : List UnitId)
  | keeperRefresh
  | keeperTimerExpiry (ch : Fin 24) (atLimit : Bool) (activity : Bool) (own total : Int)
  | keeperCheck (diffs : List (Fin 24 × Nat × Nat))
  | crosspointCheck (bad : List (Fin 24 × Fin 4))
  | strapRereadEnd
  | rereadHeldStart
  | restrapApply
  | blankmapDeferredApply
  | curveCapLift
  -- Living on the trunk (03)
  | trunkVUpdate (n : Nat)
  | trunkAbsent
  | telemetryLost
  | damperUpdate
  | flueLimStart
  | ledgerUpdate (vh vbus : Nat)
  | chargeEnable
  | chargePause
  | hearthOvervoltage
  | hearthWeak (vh : Nat)
  | vbusOvervoltage (vbus : Nat)
  | ridingEnter (vbus : Nat)
  | ridingEnd (vbus : Nat)
  | energyCheck
  | emberEntry
  | brownoutNoHearth
  | emberVsramLoss
  | emberWake
  -- One clock (04)
  | acquireStart
  | disciplineLoopUpdate (want : Int) (freqErr phaseErr : Int)
  | disciplined
  | holdoverEnter (p : Port)
  | pllLockLost
  | beaconSend
  | beaconReceive (p : Port) (body : List Byte) (a64 : Nat)
  | realignJump
  | slewEnd
  | epochChangeNoJump
  | eventRelease
  | holdingStoreDrain
  | heldClearRelease (code : BitVec 16) (local_ : Nat) (obj : Nat)
  -- Resets by command (05)
  | nodeResetApply
  | portResetApply (p : Port)
  | portQuietEnd (p : Port)
  | pipeResetApply (p : Port)
  | pipeIngressResume (p : Port)
  | chRekindleCalDone (ch : Fin 24) (calFail : Bool)
  -- The trunk line (06)
  | pilotLock (p : Port)
  | pilotsLost (p : Port)
  | linkStart (p : Port)
  | trainReqSend (p : Port)
  | trainReq (p : Port) (body : List Byte)
  | trainAck (p : Port) (body : List Byte)
  | soundingSlot (p : Port) (residualEcho : Nat)
  | delay (p : Port) (body : List Byte) (a64 : Nat)
  | soundingTableSend (p : Port) (snr : List Nat)
  | table (p : Port) (body : List Byte)
  | tableAck (p : Port) (body : List Byte)
  | tableSwitch (p : Port)
  | oldSlotRelease (p : Port)
  | tableResend (p : Port)
  | soundingStepMissed (p : Port)
  | abort (p : Port) (body : List Byte)
  | linkAdapt (p : Port) (snr : List Nat) (evm : Int) (drift : Int)
  -- The cut (07)
  | silenceTimerExpiry
  | bidSend
  | bid (p : Port) (body : List Byte)
  | clash (p : Port) (body : List Byte)
  | tally (p : Port) (body : List Byte)
  | cutMessagePassOn (p : Port)
  | cutSettle
  | cutFollowTimeout
  | dealSend
  | deal (p : Port) (body : List Byte)
  | dealerFacingChange
  | break_ (p : Port) (body : List Byte)
  | call (p : Port) (body : List Byte)
  | topologyFlush
  | reclaimPassEnd
  -- Frames (08)
  | headerDecision (p : Port) (hdr : List Byte) (ecc : Ecc)
  | transitEgress (p : Port)
  | payloadCheck (p : Port) (payload : List Byte) (pcrc : BitVec 32)
  | rxPreempt (p : Port)
  | portSymbolSchedule (p : Port)
  | placeAnnounceSend
  -- Tables (09)
  | agingScannerVisit (p : Port)
  | learnedPrefixAging
  | policerRefill
  | shaperRefill
  | epochDrained
  | commitPrepared
  | commitSwitch
  | commitWritebackDone
  | commitDefer
  | flushPortStep (handle : BitVec 16)
  -- Queues, hands and streams (10)
  | streamFrameBuild (sid : BitVec 16)
  | originEntryRemove (sid : BitVec 16)
  | outApply (ch : Fin 24)
  | responseHeldRelease
  | handResetDrain (h : Fin 16)
  -- Memory (11)
  | scrubWrite
  | sweepRegionStart (obs : SweepObs)
  | wakeScrubEnd
  -- Channels (12)
  | disconnectOpen (ft : Fin 96)
  | disconnectReclose (ft : Fin 96)
  | loopSupplyFoldback (ch : Fin 24)
  | loopSupplyRetry (ch : Fin 24) (t0Good : Bool)
  | roleChangeStart (ch : Fin 24)
  | roleChangeStep (ch : Fin 24)
  -- Conversion (13)
  | sampleReady (ch : Fin 24) (obs : SampleObs)
  | blankRise (k : Fin 4)
  | blankFall (k : Fin 4)
  | blankTooLong (k : Fin 4)
  | blankIgnoreEnd (k : Fin 4)
  | cjReferenceLossTimeout
  | curveSwitch (slot : Fin 16)
  -- Outputs (14)
  | settlingAllowanceEnd (ch : Fin 24)
  | readbackResult (ch : Fin 24) (rb : Readback)
  | trimPointReady (ch : Fin 24) (r : Int)
  | trimStepTimeout (handle : BitVec 16)
  | trimApply (ch : Fin 24)
  -- Vault, ward and command engine (15, 16, 17)
  | vaultWriteEnd (good : Bool)
  | countersignExpiry (h : Fin 16)
  | proposalLapse
  | commissionChange (high : Bool)
  | vaultClaim
  | wardLockChange (high : Bool)
  | fixedResponder (f : CmdFrame)
  | statRead (f : CmdFrame)
  | statCount (f : CmdFrame)
  | evRead (f : CmdFrame)
  | evAck (f : CmdFrame)
  | handClaim (f : CmdFrame)
  | handStations (f : CmdFrame)
  | handReset (f : CmdFrame)
  | qRead (f : CmdFrame)
  | qSet (f : CmdFrame)
  | subOpen (f : CmdFrame)
  | subClose (f : CmdFrame)
  | outSet (f : CmdFrame)
  | outAlarmdir (f : CmdFrame)
  | tblSearch (f : CmdFrame)
  | tblNext (f : CmdFrame)
  | tblAdd (f : CmdFrame)
  | tblDel (f : CmdFrame)
  | tblFlushPort (f : CmdFrame)
  | tblCommit (f : CmdFrame)
  | chRestrap (f : CmdFrame)
  | chRekindle (f : CmdFrame)
  | nodeReset (f : CmdFrame)
  | nodeRestrap (f : CmdFrame)
  | nodeAdopt (f : CmdFrame)
  | portReset (f : CmdFrame)
  | pipeReset (f : CmdFrame)
  | phySound (f : CmdFrame)
  | phyMargin (f : CmdFrame)
  | phyMask (f : CmdFrame)
  | phySnr (f : CmdFrame)
  | trimStart (f : CmdFrame)
  | trimPoint (f : CmdFrame)
  | trimCommit (f : CmdFrame)
  | curveLoad (f : CmdFrame)
  | memRepair (f : CmdFrame)
  | memSweep (f : CmdFrame)
  | twinMirror (f : CmdFrame)
  | twinRelease (f : CmdFrame)
  | wardPropose (f : CmdFrame)
  | wardCountersign (f : CmdFrame)
  | wardSet (f : CmdFrame)
  | wardRead (f : CmdFrame)
  | keySet (f : CmdFrame)
  | dbgOpen (f : CmdFrame)
  | opStatus (f : CmdFrame)
  | opSuspend (f : CmdFrame)
  | opResume (f : CmdFrame)
  | opCancel (f : CmdFrame)
  | opStart (handle : BitVec 16)
  | opSuspendTimeout (handle : BitVec 16)
  | opRecordFree (handle : BitVec 16)
  -- The twin seat (18)
  | seatFrameSend
  | seatFrameReceive (bytes : List Byte)
  | heartbeatLoss
  | pairingWindowEnd
  | leadChange
  | shuntCatch (ch : Fin 24)
  | takeoverTrip (ch : Fin 24)
  | handback
  | mirrorResend
  | seatRecordRewrite
  | releaseComplete
  -- The debug port (21)
  | tapReset
  | tapRegisterWrite (ir : Byte) (dr : BitVec 168)
  | extest (balls : BitVec 17) (drive : BitVec 17)
  | samplePreload (balls : BitVec 17) (preload : BitVec 17)
  | clamp
  | highz
  | dctrlHalt (reg : BitVec 64)
  | dctrlResume (reg : BitVec 64)
  | dctrlStep (reg : BitVec 64)
  | dctrlClose (reg : BitVec 64)
  | dctrlClearBphit (reg : BitVec 64)
  | stepEnd
  | dbrk (reg : BitVec 168)
  | breakpointFire (n : Fin 8) (quantity : BitVec 64)
  | dmemRead (reg : BitVec 104) (ecc : Ecc)
  | dmemWrite (reg : BitVec 104)
  | sessionLifetimeEnd
  -- Rows the table lists last
  | reclaimPassVisit
  | phyMaskDeferredApply (p : Port)
  | testEnLow
  deriving DecidableEq, Repr

end Sys2Proof
end

