-- ==== Sys2Proof/Config.lean ====
section
/-! DEFINITION. What the spec leaves free: constants with no body, so that no proof can lean on a value of
them. Each is named in the assumption log. -/

namespace Sys2Proof.Config

/-- The chip's random source and every other value the spec leaves open: the n-th free value the machine
draws. `State.free` counts the draws. (Seeds R264, sessions R468, bid slot and nonce R200, retry delays R170,
random eviction R276, unstated values.) -/
opaque freeValue : Nat → BitVec 64

/-- The IEC 60584-1 reference function of thermocouple curve 8 to 15 (R415, R416), in nV at a temperature in
0.001 degC. The spec names the standard and does not give the function. -/
opaque tcEmf : Nat → Int → Int

/-- The inverse of `tcEmf` as the chip evaluates it (R415), 0.001 degC at an EMF in nV. -/
opaque tcTemp : Nat → Int → Int

/-- The code an announcement carries for an ambiguous HANDS or TWIN strap (Table 8.6): the spec gives none. -/
opaque ambiguousCode : BitVec 8

/-- The calibrated shunt in micro-ohm or excitation current in pA a channel's active chip reports in `SL_CAL` (Table 18.1): what the
calibration of R133 found. -/
opaque slCal : Nat → BitVec 32

/-- Whether a report of `num / den` that is not whole is rounded up: Table 3.9 gives the units of `LEDGER` and `DAMP_L` and no
rounding. -/
opaque reportUp : Nat → Nat → Bool

end Sys2Proof.Config
end

