-- ==== Sys2Proof/Machine/State.lean ====
section
/-! DEFINITION. The state of the YM6024 as plain data: every register, FIFO, buffer, counter, mode and pin the
spec names, and the queue of waiting commands. A field's comment gives what it is, its width, the rule that
names it and its value in `State.reset`, separated by bars; `State.reset` is the unpowered chip as
manufactured, before the row POWER_UP (log entry 1). -/

namespace Sys2Proof.Machine

/-! ## Modes and small types -/

/-- The service tiers (R11, Table 1.6). -/
inductive Tier where
  | dark | banked | passThrough | measure | full
  deriving DecidableEq, Repr

/-- The kindling states of Table 5.1, with Halted (R148) and Ember (Table 3.6); `up` is Pass-through and above. -/
inductive Kindle where
  | off | rails | reading | joining | up | halted | ember
  deriving DecidableEq, Repr

/-- The clock states of Table 4.2. -/
inductive ClockState where
  | crystal | acquiring | disciplined | holdover | dealer
  deriving DecidableEq, Repr

/-- A resolved strap pin: a code 0 to 15, or ambiguous (R41). -/
inductive Code where
  | code (n : Fin 16)
  | ambiguous
  deriving DecidableEq, Repr

/-- ALM_SEL as resolved (R43, R53). -/
inductive AlmSel where
  | open_ | low | high
  deriving DecidableEq, Repr

/-- Link states of Table 6.4; `true` is the initiator of the sounding. -/
inductive LinkState where
  | off | listen | untrained | sounding (initiator : Bool) | up
  deriving DecidableEq, Repr

/-- Cut states of one chip (Table 7.2). -/
inductive CutState where
  | waiting | cut | following | dealer
  deriving DecidableEq, Repr

/-- Hand states of Table 10.3, in the order of Table 15.7. -/
inductive HandState where
  | clean | faulted | quarantined | resetting
  deriving DecidableEq, Repr

/-- Ranging states of Table 13.3. The weight of a fade is counted in fifths of the coarse weight. -/
inductive Ranging where
  | fine
  | toCoarse (weight : Nat)
  | coarse
  | toFine (weight : Nat)
  | coarseOnly
  deriving DecidableEq, Repr

/-- Compliance states of Table 14.5. -/
inductive CompState where
  | normal | compliance | substituted
  deriving DecidableEq, Repr

/-- Drive modes of Table 18.3. -/
inductive Drive where
  | sharing | carrying | out
  deriving DecidableEq, Repr

/-- Seat states of Table 18.2. -/
inductive Seat where
  | solo | unpaired | stranger | mirroring | seated | alone | released
  deriving DecidableEq, Repr

/-- States of a long operation (Table 16.1, byte 2). -/
inductive OpState where
  | queued | running | suspended | done | cancelled | failed
  deriving DecidableEq, Repr

/-- States of the hand's commit (Table 9.9, R483). -/
inductive CommitState where
  | idle | staging | preparing | switched | done
  deriving DecidableEq, Repr

/-- What a command frame or a queued frame's port has done with it (R285). -/
inductive Taken where
  | waiting | sending | taken | declined
  deriving DecidableEq, Repr

/-- What the keeper of a twin drives (R563). -/
inductive DrivePart where
  | half | whole | none
  deriving DecidableEq, Repr

/-- Output kinds of Table 14.1. -/
inductive OutKind where
  | sourcing | sinking | voltage
  deriving DecidableEq, Repr

/-- Safe values (R18). -/
inductive SafeKind where
  | alarm | holdLast | zero
  deriving DecidableEq, Repr

/-! ## Frames -/

/-- The header block of Table 8.1 without its `HCRC`. -/
structure Header where
  version : BitVec 4
  tclass : BitVec 3
  btSlot : Bool
  akind : BitVec 3
  defer : Bool
  hand : BitVec 4
  hopCount : BitVec 8
  payLen : BitVec 16
  carryB : BitVec 16
  dest : BitVec 48
  srcTag : Tag
  srcPlace : BitVec 32
  seq : BitVec 32
  originTick : Tick
  epoch : BitVec 8
  timeQ : BitVec 4
  /-- Bits 3-0 of byte 36, passed on unchanged (R226). -/
  rsv36 : BitVec 4
  srcNode : BitVec 16
  /-- Bytes 39-55, passed on unchanged (R226). -/
  rsv : List Byte
  deriving DecidableEq, Repr

/-- Where a looked-up frame goes (R239): the egress set of Table 8.7 after R240. -/
structure EgressSet where
  ta : Bool
  tb : Bool
  loc : Bool
  deriving DecidableEq, Repr

/-- The metadata captured at the header decision (R239, R286) and never read again. -/
structure Meta where
  egress : EgressSet
  /-- The class that replaces `TCLASS`, if a result carries one. -/
  cls : Option (BitVec 3)
  /-- The policer index, 0 for none. -/
  policer : BitVec 6
  /-- The table epoch of the lookup (R286). -/
  epoch : Bool
  /-- The local queue of a stream entry with `EGRESS` bit 2 (Table 9.2). -/
  queue : BitVec 16
  /-- The excess action Drop applied (R270): nothing is delivered locally. -/
  excess : Bool
  deriving DecidableEq, Repr

/-- The state of `PCRC` of a frame the chip sends (R243, R254). -/
inductive Crc where
  | unknown | good | residue
  deriving DecidableEq, Repr

/-- A frame the chip sends or holds: its header, its payload as far as known, and the check it will carry. -/
structure Frame where
  hdr : Header
  payload : List Byte
  crc : Crc
  deriving DecidableEq, Repr

/-- A frame being received on a port, from its header decision to its payload check. -/
structure RxFrame where
  hdr : Header
  meta_ : Meta
  deriving DecidableEq, Repr

/-- A frame in the transit-hold queue, queue 0, or due on an egress port (R242, R247). -/
structure Transit where
  frame : Frame
  epoch : Bool
  /-- The ingress port; the frame may still be arriving there. -/
  from_ : Port
  /-- The ingress payload check is over. -/
  complete : Bool
  /-- The tick of line time at which the preamble leaves (R242). -/
  due : Tick
  deriving DecidableEq, Repr

/-- A frame in a hardware queue (R285, R308). -/
structure QFrame where
  hdr : Header
  payload : List Byte
  /-- The first cell it holds: a free value (R308). -/
  cell : BitVec 64
  ta : Taken
  tb : Taken
  /-- The shaping credit has been debited for it (R311). -/
  debited : Bool
  /-- A stream frame's stream ID, 0 for any other frame. -/
  sid : BitVec 16
  /-- The fixed responder's: it leaves by its port without a lookup (R479). -/
  direct : Bool
  deriving DecidableEq, Repr

/-- What a port has in transmission. -/
inductive TxKind where
  | transit | hold | beacon | trump | queued (q : BitVec 16)
  deriving DecidableEq, Repr

/-- A frame in transmission: how many symbols it takes and how many have left. -/
structure TxFrame where
  kind : TxKind
  frame : Frame
  symbols : Nat
  sent : Nat
  /-- The table epoch captured by the local injection lookup or the transit lookup (R286). -/
  epoch : Bool
  /-- A queued frame's stream identifier and position are those of its queue's head. -/
  from_ : Option Port
  deriving DecidableEq, Repr

/-- Symbol kinds of Table 6.2. -/
inductive SymKind where
  | silent | preamble | header | payload | idle | watch | probe | echoTraining
  deriving DecidableEq, Repr

/-- The symbol a port last sent (R150 to R160): its kind, the levels of the 15 pilots in ascending bin order,
and for each loaded data carrier its ordinal, its bit count and its I and Q levels before normalisation. -/
structure TxSymbol where
  kind : SymKind
  pilots : List Int
  carriers : List (Nat × Nat × Int × Int)
  deriving DecidableEq, Repr

/-! ## Ports -/

/-- A bit table: 471 entries by ordinal, each 0 to 12 (R174). -/
abbrev BitTable := List Nat

/-- A table change of one direction that has not yet switched (R178, R179). -/
structure PendingTable where
  seq : BitVec 16
  slot : Bool
  /-- The whole new table, a partial change already applied to it. -/
  tbl : BitTable
  /-- The message as sent, for a repeat (R179). -/
  msg : List Byte
  /-- Line time of the last TABLE sent, or of the TABLE_ACK. -/
  at_ : Tick
  /-- `N_S` symbols of the TABLE_ACK; 0 before it. -/
  ns : Nat
  acked : Bool
  resends : Nat
  deriving DecidableEq, Repr

/-- The state of one trunk port (06_trunk_line.md, 08_frames_and_cut_through.md). -/
structure PortState where
  /-- link state | 3 bits | 06 R170, Table 6.4 | Off -/
  link : LinkState
  /-- pilot lock on the far end | 1 bit | 06 R169 | false -/
  lock : Bool
  /-- transmit tables of slots 0 and 1 | 2 x 471 entries | 06 R171, R178 | all off until Pass-through -/
  tx0 : BitTable
  tx1 : BitTable
  /-- receive tables of slots 0 and 1 | 2 x 471 entries | 06 R171, R178 | all off until Pass-through -/
  rx0 : BitTable
  rx1 : BitTable
  /-- slot the port transmits with | 1 bit | 06 R178 | 0 -/
  txSlot : Bool
  /-- active receive slot, and whether the other one has been released | 1 bit each | 06 R178 | 0, released -/
  rxSlot : Bool
  rxOtherReleased : Bool
  /-- line time of the last switch of the receive direction | 64 bits | 06 R178 | DESIGN CHOICE 0 (log entry 6) -/
  rxSwitchAt : Tick
  /-- both directions have switched to a sounded table in this sounding | 1 bit each | 06 R170 | false -/
  txSwitched : Bool
  rxSwitched : Bool
  /-- table change of the transmit direction (far end's TABLE acknowledged) | record | 06 R178 | none -/
  pendTx : Option PendingTable
  /-- table change of the receive direction (own TABLE sent) | record | 06 R179 | none -/
  pendRx : Option PendingTable
  /-- next `TBL_SEQ` | 16 bits | 06 R173 | DESIGN CHOICE 0 (log entry 6) -/
  tblSeq : BitVec 16
  /-- last acknowledged TABLE: its sequence and `N_S` reckoning | record | 06 R179 | none -/
  lastAck : Option (BitVec 16 × Tick × Nat)
  /-- target margin code (Table 6.8) | 2 bits | 06 R177 | 0b01, 6 dB -/
  margin : BitVec 2
  /-- a PHY.MARGIN waits to send its full TABLE | 1 bit | 06 R183, R179 | false -/
  marginDue : Bool
  /-- `LQ`, `EVM_Q` | 8 bits each | 06 R186 | 0; EVM_Q DESIGN CHOICE 0 (log entry 6) -/
  lq : BitVec 8
  evmQ : BitVec 8
  /-- `LINK_D` in 1/64 tick, none while invalid | 24 bits | 04 R104, 15 R484 | invalid -/
  linkD : Option (BitVec 24)
  /-- slot 0 of the sounding in progress, on line time | 64 bits | 06 R175 | DESIGN CHOICE 0 (log entry 6) -/
  slot0 : Tick
  /-- send and arrival times of the DELAY exchange: T1, A1, T2, A2 | 48 bits each | 06 R176 | DESIGN CHOICE 0 (log entry 6) -/
  t1 : BitVec 48
  a1 : BitVec 48
  t2 : BitVec 48
  a2 : BitVec 48
  /-- steps of the sounding that have arrived (DELAY 1 to 3, TABLE) | list | 06 R175 | empty -/
  steps : List Nat
  /-- a TRAIN_REQ of this port is unanswered | 1 bit | 06 R170, R187 | false -/
  reqOut : Bool
  /-- reason of the next TRAIN_REQ (Table 6.5) | 8 bits | 06 R172 | 0x00 link start -/
  reqReason : BitVec 8
  /-- line time from which the next TRAIN_REQ may go | 64 bits | 06 R170, Table 6.11 | DESIGN CHOICE 0 (log entry 6) -/
  retryAt : Tick
  /-- consecutive sounding failures, last abort reason | counters | 06 Table 6.11 | 0 -/
  failures : Nat
  lastAbort : BitVec 8
  /-- identity clash seen: no further sounding | 1 bit | 06 Table 6.11 | false -/
  idClash : Bool
  /-- link too long for its detection mode | 1 bit | 06 R165, Table 6.11 | false -/
  tooLong : Bool
  /-- SNR of each data carrier over the last trick, 0.25 dB, 255 not measured | 471 x 8 bits | 06 R181, R186 | 255 -/
  snr : List Nat
  /-- tricks each carrier's margin has stayed at least M + 4 dB | 471 counters | 06 R182 | 0 -/
  goodTricks : List Nat
  /-- tricks a header carrier has been below SNR_REQ(2) | counter | 06 R183 | 0 -/
  hdrLow : Nat
  /-- payload CRC-32 failures in this trick | counter | 06 R183 | 0 -/
  crcFails : Nat
  /-- echo-training symbols still due at the port's start | counter | 06 R170 | 0 -/
  echoStart : Nat
  /-- detection mode of the port: E mode | 1 bit | 06 R163 | C mode -/
  eMode : Bool
  /-- mask profile in use, 15 for slot 15 | 4 bits | 06 R184, R185 | 0 -/
  mask : Fin 16
  /-- a change of the mask waits for the end of a sounding | 1 bit | 06 R190 | false -/
  maskDue : Bool
  /-- the port is in the quiet trick of a port reset; the line time it ends | 64 bits | 05 R140 | none -/
  quietUntil : Option Tick
  /-- a port reset has been accepted and not yet applied | 1 bit | 05 R137, R140 | false -/
  resetDue : Bool
  /-- frame being received | record | 08 R239 | none -/
  rx : Option RxFrame
  /-- transit frame due on this egress port (R242) | record | 08 R242 | none -/
  due : Option Transit
  /-- transit-hold queue, queue 0 of the port | list, at most 64 | 08 R247, 10 R306 | empty -/
  hold : List Transit
  /-- frame in transmission | record | 08 R245 | none -/
  tx : Option TxFrame
  /-- last symbol sent | record | 06 R150 to R160 | nothing sent -/
  sym : TxSymbol
  /-- deficit round robin credits of classes 0-6 | 7 counters | 08 R246 | DESIGN CHOICE 0 (log entry 6) -/
  drr : List Nat
  /-- turn positions of classes 0-6: the next owner (16 is the node), and for each class and owner the queue last served | lists | 10 R312 | DESIGN CHOICE 0 (log entry 6) -/
  turnOwner : List Nat
  turnQueue : List Nat
  /-- originated link-local messages waiting for this port, with the line time from which each may leave | list | 06 R172, 07 R195 | empty -/
  llOut : List (Tick × List Byte)
  /-- beacon message built for this port's reserved symbols | list | 08 R235 | empty -/
  beaconOut : List Byte
  /-- neighbour's node number (`NBR_A` or `NBR_B`) | 16 bits | 07 R194 | 0xFFFF unknown -/
  nbr : BitVec 16
  /-- this port's link is blocked; held | 1 bit each | 07 R211, R212 | false -/
  blocked : Bool
  held : Bool
  /-- a DEAL of the dealer was accepted on this port in the present interval | 1 bit | 07 R207 | false -/
  dealSeen : Bool
  /-- copy of the best bid received here: its `HOPS` and `FWD_NODE` | record | 07 R201 | none -/
  bidCopy : Option (BitVec 8 × BitVec 16)
  /-- a second copy of the best bid arrived here (a MEET bit) | 1 bit | 07 R205 | false -/
  bidMeet : Bool
  deriving DecidableEq, Repr

/-! ## Clock, cut and tables -/

/-- A realignment waiting for its trick boundary (R103, R105, R118): network time is ahead of the line by
`delta` ticks. -/
structure Realign where
  delta : Int
  epoch : BitVec 8
  jump : Bool
  deriving DecidableEq, Repr

/-- The clock and timebase (04). -/
structure Clock where
  /-- tick counter | 64 bits | 04 R109, 05 Table 5.1 | 0 -/
  counter : Tick
  /-- line time: network time as the line phase counts it; it does not slew | 64 bits | 04 R103, 06 R172 | 0 -/
  line : Tick
  /-- age clock | 64 bits | 09 R271 | 0 -/
  age : Tick
  /-- clock state | enumeration | 04 R96 | Crystal -/
  state : ClockState
  /-- epoch | 8 bits | 04 R111 | 0x00 -/
  epoch : BitVec 8
  /-- slew in progress: S, and ticks of it already run | record | 04 R108 | none -/
  slew : Option (Nat × Nat)
  /-- discipline loop's correction, in 10^-7 ppm | signed | 04 R95, R98 | 0 -/
  corr : Int
  /-- synthesiser correction in force, in 0.001 ppm | signed, +-100,000 | 04 R95 | 0 -/
  synth : Int
  /-- per-trick values of the correction, newest first | up to 256 | 04 R99 | empty -/
  history : List Int
  /-- consecutive tricks within the limits of Table 4.2 | counter | 04 R96 | 0 -/
  goodTricks : Nat
  /-- dealer-facing port | record | 04 R96, 07 R206 | none -/
  facing : Option Port
  /-- hop count to the dealer, none while unknown | 7 bits | 04 R102 | unknown -/
  hops : Option Nat
  /-- realignment pending | record | 04 R118 | none -/
  realign : Option Realign
  /-- consecutive beacon jumps while disciplined | counter | 04 Table 4.8 | 0 -/
  jumps : Nat
  /-- tricks the needed correction has been back inside +-96 ppm | counter | 04 Table 4.8 | 0 -/
  rangeGood : Nat
  /-- a quiet trick runs; the line time it ends | 64 bits | 04 R105 | none -/
  quietUntil : Option Tick
  deriving DecidableEq, Repr

/-- A bid (Table 7.1, R196). -/
structure Bid where
  rank : BitVec 8
  die : BitVec 64
  node : BitVec 16
  nonce : BitVec 32
  deriving DecidableEq, Repr

/-- A TALLY the provisional dealer or dealer holds (Table 7.1). -/
structure Tally where
  node : BitVec 16
  hops : BitVec 8
  epoch : BitVec 8
  meet : BitVec 8
  nbrA : BitVec 16
  nbrB : BitVec 16
  deriving DecidableEq, Repr

/-- The cut and the dealer (07). -/
structure Cut where
  /-- cut state | enumeration | 07 Table 7.2 | Waiting -/
  state : CutState
  /-- the chip has sent its BID and holds no higher bid | 1 bit | 07 R202 | false -/
  provisional : Bool
  /-- age-clock tick at which the silence timer was last restarted | 64 bits | 07 R198 | 0 -/
  silence : Tick
  /-- age-clock tick of entry to the cut | 64 bits | 07 R200 | DESIGN CHOICE 0 (log entry 6) -/
  entered : Tick
  /-- `ROUND` | 8 bits | 07 R200 | 0 -/
  round : BitVec 8
  /-- bid slot drawn | 0-63 | 07 R200 | DESIGN CHOICE 0 (log entry 6) -/
  slot : Nat
  /-- line time of the first symbol of the bid trick | 64 bits | 07 R200 | DESIGN CHOICE 0 (log entry 6) -/
  bidTrick : Tick
  /-- own `NONCE` of the round | 32 bits | 07 R194 | DESIGN CHOICE 0 (log entry 6) -/
  nonce : BitVec 32
  /-- best bid | record | 07 R200 | none -/
  best : Option Bid
  /-- bids seen in this round, the chip's own among them | list | 07 R196, R204 | empty -/
  seen : List Bid
  /-- TALLYs held | list | 07 R202, R205 | empty -/
  tallies : List Tally
  /-- identities a CLASH has named since the last chip reset | list | 07 R197, R204 | empty -/
  ineligible : List (BitVec 64)
  /-- CLASHes passed on: identity and round | list | 07 R204 | empty -/
  clashSeen : List (BitVec 64 × BitVec 8)
  /-- CALLs passed on: identity and epoch | list | 07 R217 | empty -/
  callSeen : List (BitVec 64 × BitVec 8)
  /-- BREAKs passed on: node, epoch and the age-clock tick | list | 07 R213 | empty -/
  breakSeen : List (BitVec 16 × BitVec 8 × Tick)
  /-- present dealer's rank, identity, node | record | 07 R206 | none -/
  dealer : Option (BitVec 8 × BitVec 64 × BitVec 16)
  /-- `DEAL_SEQ` | 8 bits | 07 R206 | DESIGN CHOICE 0 (log entry 6) -/
  dealSeq : BitVec 8
  /-- last accepted DEAL message | bytes | 07 R215 | empty -/
  lastDeal : List Byte
  /-- age-clock tick of the last accepted DEAL, none while there was none | 64 bits | 07 R215 | none -/
  lastDealAt : Option Tick
  /-- `BLK_LO`, `BLK_HI` the dealer sends or the follower last accepted | 16 bits each | 07 R206, R209 | 0xFFFF -/
  blkLo : BitVec 16
  blkHi : BitVec 16
  /-- consecutive DEALs that named a blocked link other than the held one | counter | 07 R212 | 0 -/
  otherDeals : Nat
  /-- age-clock tick of the last no-dealer event, none before | 64 bits | 07 Table 7.3 | none -/
  noDealerAt : Option Tick
  /-- the chip has had a dealer since it entered Pass-through | 1 bit | 07 R199 | false -/
  hadDealer : Bool
  deriving DecidableEq, Repr

/-- A staged change of a hand (R287): table code 0x01 or 0x04, the key of R483 and the new entry, or none for a
deletion. -/
structure Change where
  hand : Fin 16
  table : Nat
  key : BitVec 64
  entry : Option Entry
  deriving DecidableEq, Repr

/-- Why the table epoch is inverted (R286), and what proceeds when the old epoch has drained. -/
inductive InvWhy where
  | commit
  | tblDel (f : CmdFrame)
  | flush (handle : BitVec 16) (stopped : Option OpState) (reason : BitVec 8)
  | topology
  | subOpen
  | originRemove (sid : BitVec 16)
  | handReset (h : Fin 16)
  deriving DecidableEq, Repr

/-- The commit in progress (R288 to R292). -/
structure Commit where
  state : CommitState
  hand : Fin 16
  /-- Apply tick A. -/
  apply : Tick
  /-- Batches not yet switched, the first being prepared. -/
  batches : List (List Change)
  prepared : Bool
  /-- Changes applied so far. -/
  applied : Nat
  /-- Switch tick and late flag of each batch switched, oldest first. -/
  switches : List (Tick × Bool)
  /-- Age-clock tick from which the 16 tricks of R291 count. -/
  since : Tick
  late : Bool
  partial_ : Bool
  deferred : Bool
  deriving DecidableEq, Repr

/-- One pipeline's learning state (09). -/
structure Pipe where
  /-- hash seed | 16 bits | 09 R264 | DESIGN CHOICE 0 (log entry 6); drawn at the shell's release -/
  seed : BitVec 16
  /-- current `GEN` | 1 bit | 09 R278 | DESIGN CHOICE 0 (log entry 6) -/
  gen : Bool
  /-- learned count | counter | 09 R269 | 0 -/
  learned : Nat
  /-- overflow store, by index | up to 1,024 x 16 bytes | 09 R257 | empty -/
  overflow : List (Nat × Entry)
  /-- next bucket of the aging scanner | 13 bits | 09 R274 | 0 -/
  scan : Nat
  /-- age-clock tick of the scanner's last visit | 64 bits | 09 R274 | 0 -/
  scanAt : Tick
  /-- a pipeline reset is running: 1 accepted, 2 ingress stopped, 3 cleared | state | 05 R141 | 0 none -/
  resetting : Nat
  /-- age-clock tick at which the ingress stopped | 64 bits | 05 R141 | DESIGN CHOICE 0 (log entry 6) -/
  resetAt : Tick
  /-- the fixed responder's command buffer | one frame | 15 R479 | empty -/
  fixedBuf : Option CmdFrame
  /-- age-clock tick of the fixed responder's last response | 64 bits | 15 R479 | none -/
  fixedAt : Option Tick
  deriving DecidableEq, Repr

/-- The forwarding tables that lie outside the SRAM banks (09, Table 9.1). -/
structure Tables where
  pa : Pipe
  pb : Pipe
  /-- prefix store: records ordered by `PREFIX`, `PLEN`, `KIND` | up to 16,384 x 16 bytes | 09 R279 | empty -/
  prefixes : List Entry
  /-- policers by index | 63 x 16 bytes | 09 R260 | empty -/
  policers : List (Nat × Entry)
  /-- staging area | up to 4,096 changes | 09 R258, R287 | empty -/
  staged : List Change
  /-- stream shadow | up to 512 entries | 09 R289 | empty -/
  shadow : List (Nat × Entry)
  /-- commit | record | 09 R292 | Idle -/
  commit : Commit
  /-- table epoch | 1 bit | 09 R286 | DESIGN CHOICE 0 (log entry 6) -/
  epoch : Bool
  /-- inversion whose old epoch drains, and the age-clock tick F | record | 09 R286 | none -/
  draining : Option (InvWhy × Tick)
  /-- inversions that wait for the drain | list | 09 R286 | empty -/
  waiting : List InvWhy
  /-- reclaim pass: next bucket | 13 bits | 09 R278 | none -/
  reclaim : Option Nat
  /-- a topology flush is due | 1 bit | 09 R277, R278 | false -/
  flushDue : Bool
  deriving DecidableEq, Repr

/-! ## Queues, hands, streams, channels -/

/-- A hand record (10 R313, R315). -/
structure Hand where
  /-- hand state | 2 bits | 10 R315 | Clean -/
  state : HandState
  /-- master station, none before HAND.CLAIM | 48 bits | 10 R313 | none -/
  master : Option Tag
  /-- observer stations | up to 3 x 48 bits | 10 R313 | empty -/
  observers : List Tag
  /-- observer stream ports: TA, TB | 2 bits | 15 Table 15.6 | none -/
  obsTa : Bool
  obsTb : Bool
  /-- tricks with quota refusals, newest first | up to 64 | 10 R315 | empty -/
  refusals : List Nat
  /-- command input queue, 16 + h | up to 8 frames | 10 R305, R306 | empty -/
  input : List CmdFrame
  /-- events in the hand's queue: oldest record's index, records held | 16 bits each | 10 R307, 20 R596 | 0 -/
  evHead : Nat
  evCount : Nat
  /-- records lost: count, first and last tick | 32 bits, 64 bits each | 20 R597 | 0 -/
  lost : Nat
  lostFirst : Tick
  lostLast : Tick
  /-- inversions of this hand's reset that have not drained | counter | 10 Table 10.5 | 0 -/
  resetInv : Nat
  deriving DecidableEq, Repr

/-- Descriptor settings of a queue (Table 10.2) that differ from their default. -/
structure QSet where
  cls : BitVec 3
  rate : BitVec 16
  paused : Bool
  /-- Shaping credit in bytes (R311). -/
  credit : Int
  deriving DecidableEq, Repr

/-- The queue and hand manager (10). -/
structure Queues where
  /-- the hand plan is set: descriptors valid | 1 bit | 10 R310, 05 Table 5.1 | false -/
  ready : Bool
  /-- descriptor settings by queue, where they differ from R310 | sparse | 10 R307 | empty -/
  settings : List (Nat × QSet)
  /-- frames in the cell queues other than 0 and 16-31 | sparse | 10 R305 | empty -/
  frames : List (Nat × List QFrame)
  /-- responses, announcements and trump frames held for want of cells | list | 10 R306 | empty -/
  heldOut : List (Nat × QFrame)
  /-- events of the node queue: oldest record's index, records held | 16 bits each | 20 R596 | 0 -/
  evHead : Nat
  evCount : Nat
  /-- node records lost: count, first and last tick | 32 bits, 64 bits each | 20 R597 | 0 -/
  lost : Nat
  lostFirst : Tick
  lostLast : Tick
  deriving DecidableEq, Repr

/-- A value and tag of a sample word (R237), and its word position in the channel's sample ring. -/
structure Sample where
  value : BitVec 24
  tag : BitVec 8
  pos : Nat
  deriving DecidableEq, Repr

/-- An open stream (R317 to R324). -/
structure Stream where
  id : BitVec 16
  hand : Fin 16
  queue : BitVec 16
  chmap : BitVec 24
  div : Nat
  phase : Nat
  period : Nat
  nsamp : Nat
  egTa : Bool
  egTb : Bool
  /-- Tick of the first instant (R322). -/
  first : Tick
  seq : BitVec 32
  /-- Instants collected so far, oldest first: the tick and the samples in channel order. -/
  rows : List (Tick × List (Nat × Sample))
  /-- Closed: no instant after this tick is taken (R324). -/
  closing : Option Tick
  deriving DecidableEq, Repr

/-- A pending OUT.SET value (R326, R567). -/
structure PendOut where
  value : Int
  at_ : Tick
  accepted : Tick
  hand : Fin 16
  deriving DecidableEq, Repr

/-- The keeper configuration in the VAN domain (R125, R387, R563). -/
structure KeeperCfg where
  kind : OutKind
  safe : SafeKind
  dirHigh : Bool
  /-- The levels and codes of Table 12.8 in OUT.SET units, and the DAC codes the trims give for them (R387). -/
  low : Int
  high : Int
  lowCode : Int
  highCode : Int
  zeroCode : Int
  /-- The substitute bit (R444). -/
  subst : Bool
  part : DrivePart
  deriving DecidableEq, Repr

/-- A value a channel repeats (R413): the value, its range path, and whether it lay in a failure band of NE 43 (R414). -/
structure Kept where
  value : BitVec 24
  path : BitVec 2
  ne43 : Bool
  deriving DecidableEq, Repr

/-- One universal channel (12, 13, 14). -/
structure Chan where
  /-- profile in force, none while its straps are unread, ambiguous or invalid | 8 bits | 02 R49, R57 | none -/
  profile : Option (BitVec 8)
  /-- reasons of the channel's cap: strap ambiguous or invalid, BLANKMAP, curve empty, crosspoint fault, coarse-path fault, strap mismatch | 6 bits | 02 R23, R24, R52; 12 R391; 13 Table 13.8; 18 R569 | clear -/
  capStrap : Bool
  capBlank : Bool
  capCurve : Bool
  capCross : Bool
  capCoarse : Bool
  capTwin : Bool
  /-- keeper configuration, none while unconfigured | record | 05 R125 | unconfigured -/
  keeper : Option KeeperCfg
  /-- profile the keeper was last configured from | 8 bits | 05 R128 | none -/
  keptProfile : Option (BitVec 8)
  /-- hold latch, an 18-bit DAC code | 18 bits | 12 R386 | DESIGN CHOICE 0 (log entry 6) -/
  latch : Int
  /-- keeper in control | 1 bit | 12 R386 | in control (bank-now while the shell is in reset, R126) -/
  inControl : Bool
  /-- bank-now from the shell; from the rail monitor | 1 bit each | 01 R18, 05 R126 | false; true -/
  bankShell : Bool
  bankMon : Bool
  /-- the weak high alarm was replaced by low until the next refresh | 1 bit | 12 R389 | false -/
  weakHigh : Bool
  /-- a twin's keeper holds the stage off because the partner's shell runs | 1 bit | 18 R564 | false -/
  yielded : Bool
  /-- age-clock tick of the last refresh of the relaxation timer | 64 bits | 01 R16 | 0 -/
  refreshed : Tick
  /-- DAC code the stage holds | 18 bits | 12 R386 | DESIGN CHOICE 0 (log entry 6), stage off -/
  dac : Int
  stageOn : Bool
  /-- an OUT.SET has been applied since the chip entered Measure | 1 bit | 01 R34 | false -/
  commanded : Bool
  /-- commanded value, in OUT.SET units | signed | 10 R327 | DESIGN CHOICE 0 (log entry 6) -/
  applied : Int
  /-- apply tick of the last applied value, none before the first | 64 bits | 10 R326 | none -/
  lastApply : Option Tick
  /-- target the output is driven to, in OUT.SET units | signed | 14 R441 | DESIGN CHOICE 0 (log entry 6) -/
  target : Int
  /-- value the output ramps from, and the age-clock tick the change began | signed, 64 bits | 14 R437 | DESIGN CHOICE 0 (log entry 6) -/
  rampFrom : Int
  rampAt : Tick
  /-- age-clock tick at which the settling allowance ends | 64 bits | 14 R437 | DESIGN CHOICE 0 (log entry 6) -/
  settleEnd : Tick
  /-- the readback checks run | 1 bit | 14 R441 | false -/
  checks : Bool
  /-- pending OUT.SETs in order of A | up to 4 | 10 R326 | empty -/
  pending : List PendOut
  /-- alarm-direction override; the one waiting for the next refresh | 2 bits each | 14 R451 | none -/
  override : Option Bool
  overrideNext : Option (Option Bool)
  /-- compliance state | 2 bits | 14 R446 | Normal -/
  comp : CompState
  /-- the compliance code is still raised while Substituted | 1 bit | 14 R445 | false -/
  compRaised : Bool
  /-- integrator frozen | 1 bit | 14 R443 | false -/
  frozen : Bool
  /-- a new target was set since Compliance began | 1 bit | 14 R456 | false -/
  retarget : Bool
  /-- Forced alarm | 1 bit | 14 R447 | false -/
  forced : Bool
  /-- age-clock ticks from which the shortfall, the weak high target, the in-range span, and the delivery and path disagreements have lasted | 64 bits each | 14 R442 to R447 | none -/
  shortSince : Option Tick
  weakSince : Option Tick
  rangeSince : Option Tick
  delSince : Option Tick
  pathSince : Option Tick
  /-- last delivery and path check beyond their thresholds | 1 bit each | 14 Table 14.4 | false -/
  delBad : Bool
  pathBad : Bool
  /-- last readback results, newest first: counter value and total or load voltage | up to 90 | 14 R440 | empty -/
  readings : List (Tick × Int)
  /-- last readback had the stage at its limit | 1 bit | 14 R442, 18 R559 | false -/
  atLimit : Bool
  /-- last readback results: own share, total or load voltage | signed | 14 R439 | DESIGN CHOICE 0 (log entry 6) -/
  rbOwn : Int
  rbTotal : Int
  /-- readback reference fault; keeper fault | 1 bit each | 14 Table 14.8; 12 R390 | false -/
  refFault : Bool
  keeperFault : Bool
  /-- a trim operation drives the channel | 1 bit | 14 R452 | false -/
  inTrim : Bool
  /-- drive mode | 2 bits | 18 R558 | Carrying (solo) -/
  drive : Drive
  /-- disconnects open, T0 to T3 | 4 bits | 12 R383, R384 | open (VAN absent) -/
  disc : List Bool
  /-- sources on; shunt closed; measuring switches closed | 1 bit each | 12 R376, R382 | off, open -/
  sources : Bool
  shunt : Bool
  switches : Bool
  /-- the chip is active for this input | 1 bit | 12 R380 | true (solo) -/
  active : Bool
  /-- a role change in progress: becoming active, and the age-clock tick of its next step | record | 12 R381 | none -/
  roleStep : Option (Bool × Tick)
  /-- active by the shunt catch, until the next change of lead | 1 bit | 18 R557 | false -/
  caught : Bool
  /-- loop supply folded back | 1 bit | 12 R377 | false -/
  folded : Bool
  /-- excitation at compliance: consecutive conversions, fault | counters | 12 Table 12.9 | 0 -/
  excBad : Nat
  excGood : Nat
  sensorOpen : Bool
  tcOpen : Bool
  leadHigh : Bool
  /-- crosspoint mismatch seen at the last trick boundary | 1 bit | 12 R391 | false -/
  crossSeen : Bool
  /-- the channel's CH.RESTRAP holds bank-now; a re-kindle runs until this age-clock tick; one is held | flags | 02 R57, 05 R142, R146 | none -/
  restrap : Bool
  rekindle : Option Tick
  rekindleHeld : Bool
  /-- sampling grid G, none while free | 0 to the channel period - 1 | 10 R321 | none -/
  grid : Option Nat
  /-- ranging state | enumeration | 13 Table 13.3 | Coarse -/
  ranging : Ranging
  /-- look-ahead buffer, oldest first | up to 4 conversions | 13 R406 | empty -/
  buffer : List Conv
  /-- settled-low flags of the last samples, newest first | up to 4 | 13 Table 13.3 | empty -/
  low : List Bool
  /-- consecutive samples with fine overload while settled low, and with coarse overload | counters | 13 Table 13.8 | 0 -/
  fineBad : Nat
  coarseBad : Nat
  /-- last good value; previous sample | 24 + 2 + 1 bits each | 13 R413, R414 | DESIGN CHOICE 0, coarse path, no alarm (log entry 6) -/
  lastGood : Kept
  prev : Kept
  /-- nominal instant of the last conversion taken | 64 bits | 13 R403 | none -/
  lastInstant : Option Tick
  /-- low-flow cut-off of curve 17 in force | 1 bit | 13 R415 | DESIGN CHOICE true (log entry 6) -/
  cutOff : Bool
  /-- CPA 9 cold-junction Pt1000 out of range | 1 bit | 13 Table 13.8 | false -/
  cjFault : Bool
  /-- spans of the counter whose instants are stale, by cause: 0 re-kindle, 1 role change, 2 open disconnect, 3 restrap, 4 halted back ends; none where the span still runs | list | 13 R413, R430; 21 Table 21.6 | empty -/
  stale : List (Nat × Tick × Option Tick)
  /-- word position of the sample ring | 15 bits | 11 Table 11.5 | 0 -/
  ringPos : Nat
  deriving DecidableEq, Repr

/-! ## Engine, operations, vault, seat, events, debug -/

/-- A key slot's session state (R465). -/
structure KeySess where
  /-- `SESSION` | 32 bits | 15 R465 | DESIGN CHOICE 0 (log entry 6); drawn at the shell's release -/
  session : BitVec 32
  /-- `LAST_SEQ` | 32 bits | 15 R465 | 0 -/
  lastSeq : BitVec 32
  /-- `MAC` and response of the last command accepted | 64 bits, frame | 15 R465 | none -/
  lastMac : Option (BitVec 64)
  lastResp : Option QFrame
  deriving DecidableEq, Repr

/-- A command awaiting its countersign (R475, R476). -/
structure Await where
  f : CmdFrame
  digest : BitVec 256
  /-- Counter value of the 0x03 response. -/
  at_ : Tick
  deriving DecidableEq, Repr

/-- A proposal (R528). -/
structure Proposal where
  warden : Fin 4
  digest : BitVec 256
  at_ : Tick
  deriving DecidableEq, Repr

/-- The object a long operation holds (Table 16.3). -/
inductive OpObject where
  | port (p : Port)
  | pipe (p : Port)
  | chan (c : Fin 24)
  | slot (n : Fin 16)
  | bank (b : Fin 64)
  | sweep
  | seat
  deriving DecidableEq, Repr

/-- A long-operation record (16). -/
structure Op where
  handle : BitVec 16
  hand : Fin 16
  opcode : BitVec 16
  state : OpState
  reason : BitVec 8
  progress : BitVec 16
  object : OpObject
  /-- The command that created it. -/
  f : CmdFrame
  suspendPending : Bool
  cancelPending : Bool
  /-- Age-clock tick from which the 60 s of a suspension or step, or the life of a terminal record, count. -/
  since : Tick
  /-- The 60 s limit is running. -/
  timing : Bool
  /-- Trim readings r1, m1, r2, m2 and the value applied before Start (Table 14.7). -/
  r1 : Int
  m1 : Int
  r2 : Int
  m2 : Int
  before : Int
  /-- The trim record Compute gives: G, H, O, P, low, high (R477's X). -/
  trim : List Int
  /-- Its gated step still has to pass the energy check; the step has begun. -/
  gated : Bool
  committing : Bool
  /-- It has started and holds its object (R502). -/
  holds : Bool
  /-- The TRIM.COMMIT that has executed and waits for the commit step. -/
  commit : Option CmdFrame
  deriving DecidableEq, Repr

/-- The command engine (15). -/
structure Engine where
  slots : Vector KeySess 20
  /-- awaiting commands, at most one per hand | list | 15 R475 | empty -/
  awaiting : List Await
  /-- proposals | up to 8 | 17 R528 | empty -/
  proposals : List Proposal
  /-- hand whose turn comes next | 4 bits | 15 R472 | DESIGN CHOICE 0 (log entry 6) -/
  turn : Nat
  /-- long-operation records, in handle order | list | 16 R495 to R497 | empty -/
  ops : List Op
  /-- next handle | 16 bits | 16 R495 | 0x0001 -/
  nextHandle : BitVec 16
  /-- hands whose next command waits for a final response (R518) | list | 17 R518 | empty -/
  writing : List (Fin 16)
  /-- response to a NODE.RESET has been queued: the reset follows | 1 bit | 05 R137 | false -/
  nodeReset : Bool
  deriving DecidableEq, Repr

/-- One copy of a vault record (R515). -/
structure VCopy where
  gen : BitVec 16
  data : List Byte
  crc : BitVec 32
  deriving DecidableEq, Repr

/-- A vault record: two copies and the writes made (R515, Table 17.1). -/
structure VRec where
  a : VCopy
  b : VCopy
  writes : Nat
  deriving DecidableEq, Repr

/-- What a programme pulse is for: what its end brings about (R518). -/
inductive PulseFor where
  | final (f : CmdFrame)
  | restrap (f : CmdFrame)
  | trim (handle : BitVec 16) (f : CmdFrame)
  | curve (handle : BitVec 16)
  | repair (handle : BitVec 16)
  | install (f : CmdFrame)
  | claim
  | firstDigest
  | mirrorWard (h : Fin 16)
  | seatRecord
  deriving DecidableEq, Repr

/-- A programme pulse, running or waiting (R515). -/
structure Pulse where
  key : VKey
  data : List Byte
  why : PulseFor
  deriving DecidableEq, Repr

/-- The ward and the key vault (17). -/
structure Vault where
  /-- vault records written so far; a record never written is absent | Table 17.1 | 17 R515 | empty (unclaimed, as manufactured, R524) -/
  recs : List (VKey × VRec)
  /-- programme pulses, the first one running | list | 17 R515 | empty -/
  pulses : List Pulse
  /-- WARD_LOCK and COMMISSION as filtered | 1 bit each | 17 R531 | DESIGN CHOICE low, the internal pull-downs (log entry 6) -/
  wardLock : Bool
  commission : Bool
  /-- warden slots written by first installation | list | 17 R525 | empty -/
  installed : List (Fin 4)
  /-- mirrored ward entries waiting for their write: judged by at once | list | 18 R567 | empty -/
  wardNext : List (Nat × List Byte)
  /-- trim records still in force until the trick boundary after a commit, empty for none | list | 14 Table 14.7 | empty -/
  trimOld : List (Nat × List Byte)
  deriving DecidableEq, Repr

/-- An event on its way to the queues (R592, R593). -/
structure Event where
  tick : Tick
  src : BitVec 24
  epoch : BitVec 8
  code : BitVec 16
  hands : BitVec 16
  timeQ : BitVec 4
  sev : BitVec 2
  clear : Bool
  rpt : Nat
  detail : List Byte
  deriving DecidableEq, Repr

/-- A latching code that is raised (R600): code, local source, object. -/
structure Latch where
  code : BitVec 16
  src : Nat
  obj : Nat
  /-- Age-clock tick of the raise. -/
  at_ : Tick
  /-- A clear is held. -/
  clearing : Bool
  /-- The detail the clear would carry, and re-entries counted. -/
  detail : List Byte
  rpt : Nat
  deriving DecidableEq, Repr

/-- Rate limit of a counting code (R599). -/
structure Rate where
  code : BitVec 16
  src : Nat
  obj : Nat
  at_ : Tick
  rpt : Nat
  deriving DecidableEq, Repr

/-- Events (20). -/
structure Events where
  /-- events not yet released, in the order of R115 | list | 20, 04 R116 | empty -/
  merge : List Event
  /-- holding store | up to 64 records | 20 R598 | empty -/
  holding : List (List Byte × BitVec 16)
  /-- records the full holding store lost: count, first and last tick | record | 20 R598 | 0 -/
  holdLost : Nat
  holdFirst : Tick
  holdLast : Tick
  /-- raised latching codes | list | 20 R600 | empty -/
  latches : List Latch
  /-- rate limits | list | 20 R599 | empty -/
  rates : List Rate
  deriving DecidableEq, Repr

/-- A channel record as the partner's seat frames show it (Table 18.1). -/
structure SeatChan where
  target : Int
  flags : BitVec 8
  cal : BitVec 32
  deriving DecidableEq, Repr

/-- The last good seat frame of the partner (Table 18.1). -/
structure Partner where
  state : BitVec 4
  seq : BitVec 8
  die : BitVec 64
  digest : BitVec 64
  tier : BitVec 3
  twin : BitVec 2
  flags : BitVec 8
  tick : Tick
  timeQ : BitVec 4
  active : BitVec 24
  carry : BitVec 24
  share : BitVec 24
  falm : BitVec 24
  mmAck : BitVec 8
  chans : List SeatChan
  deriving DecidableEq, Repr

/-- A mirror message waiting for its acknowledgement (R566). -/
structure Mirror where
  kind : BitVec 8
  seq : BitVec 8
  body : List Byte
  /-- Line time it was last sent; none before. -/
  sent : Option Tick
  deriving DecidableEq, Repr

/-- The twin seat (18). -/
structure SeatState where
  /-- seat state | 4 bits | 18 R555 | Solo -/
  state : Seat
  /-- consecutive good frames, consecutive symbols without one; locked | counters | 18 R552 | 0, false -/
  good : Nat
  bad : Nat
  locked : Bool
  /-- the link has trained since the chip reset; the pairing window is over | 1 bit each | 18 R553 | false -/
  trained : Bool
  windowOver : Bool
  /-- age-clock tick at which the chip entered Pass-through (the pairing window) | 64 bits | 18 R553 | DESIGN CHOICE 0 (log entry 6) -/
  windowAt : Tick
  /-- partner's last good frame | record | 18 R551 | none -/
  partner : Option Partner
  /-- own `SL_SEQ`, highest `MM_SEQ` received in order, next own `MM_SEQ` | 8 bits each | 18 R551, R566 | DESIGN CHOICE 0 (log entry 6) -/
  seq : BitVec 8
  mmAck : BitVec 8
  mmSeq : BitVec 8
  /-- mirror messages not yet acknowledged, oldest first | list | 18 R566 | empty -/
  out : List Mirror
  /-- last seat frame sent | 576 bytes | 18 R551 | empty -/
  frame : List Byte
  /-- lead; mirror received | 1 bit each | 18 Table 18.1 | false -/
  lead : Bool
  mirrorGot : Bool
  /-- workspace of Mirroring: blocks received, and the changes that followed them (256 and their kind), in order of arrival;
  the acknowledgement of block 41 waits for its ward writes | list, 1 bit | 18 R569 | empty, false -/
  blocks : List (Nat × List Byte)
  ackDue : Bool
  /-- blocks the partner has confirmed; line time the next one was last queued | counter, 64 bits | 18 R569 | 0, none -/
  confirmed : Nat
  mirrorAt : Option Tick
  /-- a TWIN.MIRROR has ended Done since the last chip reset (as sender or as receiver) | 1 bit | 17 R534 | false -/
  mirrored : Bool
  /-- channels whose takeover comparator is disarmed until the partner's allowance ends | list | 18 R574 | empty -/
  disarmed : List (Nat × Tick)
  /-- channels in handback, with the age-clock tick from which the share has stayed within 24 uA | list | 18 R561 | empty -/
  handback : List (Nat × Option Tick)
  /-- TWIN.RELEASE executed here, waiting for its final response | record | 18 R571 | none -/
  release : Option CmdFrame
  /-- a seat record rewrite waits for the ledger | 1 bit | 18 R570 | false -/
  rewriteDue : Bool
  deriving DecidableEq, Repr

/-- A breakpoint comparator (Table 21.7). -/
structure Cmp where
  kind : BitVec 4
  act : BitVec 2
  wher : BitVec 8
  count : Nat
  value : BitVec 64
  mask : BitVec 64
  deriving DecidableEq, Repr

/-- The debug port (21). -/
structure Debug where
  /-- instruction register | 8 bits | 21 R613 | IDCODE (Test-Logic-Reset) -/
  ir : BitVec 8
  /-- data register last captured | 168 bits | 21 R613 | DESIGN CHOICE 0 (log entry 6) -/
  dr : BitVec 168
  /-- boundary register, as preloaded or driven | 17 bits | 21 R615, R616 | DESIGN CHOICE 0 (log entry 6) -/
  boundary : BitVec 17
  /-- debug session: `DO_ALLOW`, `DO_FLAGS`, `DO_TAG`, hand and end on the age clock | record | 21 R617, R618 | none -/
  session : Option (BitVec 16 × BitVec 8 × BitVec 16 × Fin 16 × Tick)
  /-- units halted, as `DC_MASK`; for each the counter value and the age-clock tick at which it halted | 16 bits, list | 21 R619, R628 | none -/
  halted : BitVec 16
  haltedAt : List (Nat × Tick × Tick)
  /-- tier held when the halt began | tier | 01 Table 1.5 | Dark -/
  haltTier : Tier
  /-- halt or resume that takes effect at the next symbol boundary | record | 21 R621 | none -/
  haltNext : Option (BitVec 16)
  resumeNext : Option (BitVec 16 × Option (BitVec 8))
  /-- step in progress: units, kind, count left | record | 21 R622 | none -/
  step : Option (BitVec 16 × BitVec 2 × Nat)
  /-- comparators; `DS_BPHIT`; `DS_RESULT` | 8 records, 8 bits, 2 bits | 21 R623, R627 | off; 0; 0 -/
  cmps : Vector Cmp 8
  bphit : BitVec 8
  result : BitVec 2
  deriving DecidableEq, Repr

/-! ## Straps, supply, memory, and the whole state -/

/-- A re-read of straps (R55 to R61): the command, the pins by digest index, and the rounds taken. -/
structure Reread where
  f : CmdFrame
  pins : List Nat
  rounds : List StrapRound
  /-- Age-clock tick at which it started. -/
  at_ : Tick
  deriving DecidableEq, Repr

/-- The strap decoder (02). -/
structure Straps where
  /-- rounds of the kindling reading taken so far, oldest first | up to 8 | 02 R40 | empty -/
  rounds : List StrapRound
  /-- the kindling reading has resolved | 1 bit | 02 R40 | false -/
  resolved : Bool
  /-- resolved codes in digest order, the retained reading | 72 x 4 bits | 02 R41 | ambiguous until read -/
  codes : List Code
  /-- ALM_SEL and DBG_EN as latched | 2 bits, 1 bit | 02 R43 | DESIGN CHOICE open, low (log entry 6) -/
  almSel : AlmSel
  dbgEn : Bool
  /-- strap digest | 64 bits | 02 R53 | DESIGN CHOICE 0 (log entry 6) -/
  digest : BitVec 64
  /-- re-read running; commands held behind it | records | 02 R61 | none -/
  reread : Option Reread
  rereadQueue : List CmdFrame
  /-- a re-read has ended and takes effect at the next trick boundary: CH.RESTRAP's channel and old profile, or NODE.RESTRAP's function | list | 02 R57, R58 | empty -/
  dueCh : List (Fin 24 × Option (BitVec 8))
  dueFn : List Nat
  /-- codes a re-read has resolved that are not yet in force, by digest index | list | 02 R57, R58 | empty -/
  fresh : List (Nat × Code)
  /-- BLANKMAP code in force, and one waiting for an active input | 4 bits | 02 R65 | ambiguous -/
  blankmap : Code
  blankmapNext : Option Code
  /-- custom curves written since the kindling: slot, the block in force before, and the counter value from which the new one applies, none until its boundary | list | 13 R421 | empty -/
  curveUse : List (Fin 16 × List Byte × Option Tick)
  deriving DecidableEq, Repr

/-- The flue supervisor, damper, hearth controller, rails and pins (03, 05, 22). -/
structure Supply where
  /-- VBUS from the flue stage good | 1 bit | 01 Table 1.4 | false -/
  vbus : Bool
  /-- the rails the monitor counts as good | 6 bits | 23 R660 | none -/
  good : List Rail
  /-- PLL locked to the crystal | 1 bit | 04 Table 4.8 | false -/
  pll : Bool
  /-- RST_N and TEST_EN as filtered | 1 bit each | 05 R138, 22 R643 | high (pull-up), low (pull-down) -/
  rstN : Bool
  testEn : Bool
  /-- kindling state | enumeration | 05 R129 | Off -/
  kindle : Kindle
  /-- vault load, memory clear done in Reading | 1 bit each | 05 R130 | false -/
  vaultDone : Bool
  clearDone : Bool
  /-- `RESET_CAUSE`; a cause already noted for the next kindling | 8 bits | 05 R143 | DESIGN CHOICE 0x01 (log entry 6) -/
  cause : BitVec 8
  causeNext : Option (BitVec 8)
  /-- consecutive failed attempts; reason of a Halted state; reason kept for the kindled event | counters | 05 R148 | 0, none -/
  attempts : Nat
  haltReason : Option KindleFail
  /-- retention latch | 1 bit | 05 Table 5.1 | cleared -/
  retention : Bool
  /-- analogue core start done since the straps resolved | 1 bit | 05 R133 | false -/
  coreReady : Bool
  /-- age-clock tick of the start of the analogue core | 64 bits | 05 R133 | 0 -/
  coreAt : Tick
  /-- FLUE_EN high; latched low by over-voltage | 1 bit each | 03 Table 3.1, Table 3.10 | high impedance when unpowered: false, false -/
  flueEn : Bool
  flueLatched : Bool
  /-- FLUE_LIM is driven; D | 8 bits | 03 R68, R72 | static low, DESIGN CHOICE 0 (log entry 6) -/
  flueLim : Bool
  d : Nat
  /-- `TRUNK_V`, last non-zero one measured since the release, 10 mV | 16 bits each | 03 R69, R70 | 0 -/
  trunkV : Nat
  lastTrunkV : Nat
  /-- trunk-absent | 1 bit | 03 R70 | DESIGN CHOICE false (log entry 6) -/
  trunkAbsent : Bool
  /-- power limit L, in 2.5 uW, so that every target of R71 is whole | 0-12,000,000 | 03 R71 | 0 -/
  l : Nat
  /-- `VBUS_V`, 10 mV; hearth voltage, 10 mV; the ledger, in nJ (`LEDGER` reports it in 0.1 mJ) | 16, 16 bits, 0-1,774,800,000 | 03 R77, R86 | 0 -/
  vbusV : Nat
  vh : Nat
  ledger : Nat
  /-- HEARTH_CHG, HEARTH_DIS, EMBER_SET | 1 bit each | 03 Table 3.1 | low, low, released -/
  hearthChg : Bool
  hearthDis : Bool
  emberSet : Bool
  /-- latched hearth over-voltage; hearth weak | 1 bit each | 03 R92, R93 | false -/
  hearthOv : Bool
  hearthWeak : Bool
  /-- age-clock tick from which charging has run without a pause; charging stays off until | 64 bits each | 03 R73, R92 | none; 0 -/
  chargeSince : Option Tick
  chargeOffUntil : Tick
  /-- riding flag; age-clock tick it was set | 1 bit, 64 bits | 03 R80 | false; 0 -/
  riding : Bool
  ridingAt : Tick
  /-- BYP_HOLD toggling | 1 bit | 01 R22, 18 R548 | static low -/
  bypHold : Bool
  /-- BLANK inputs: active, age-clock tick of the rising edge, ignored, age-clock tick since inactive | 4 records | 13 R422 to R424 | inactive -/
  blank : Vector (Bool × Tick × Bool × Tick) 4
  /-- counter values t_r and t_f of the blanks of each input, newest first, t_f none while it lasts | lists | 13 R423 | empty -/
  blanks : Vector (List (Tick × Option Tick)) 4
  /-- node cold-junction reference: last good value in 0.001 degC, lost, age-clock tick of the loss, its samples stale | record | 13 R416, R418 | DESIGN CHOICE 0 (log entry 6), not lost -/
  cjValue : Int
  cjLost : Bool
  cjLostAt : Tick
  cjStale : Bool
  deriving DecidableEq, Repr

/-- One entry of a bank's remap table (R356): spare row, the row it replaces, persistent. -/
structure Remap where
  spare : Nat
  row : Nat
  persistent : Bool
  deriving DecidableEq, Repr

/-- The memory system (11). -/
structure Memory where
  /-- SRAM bytes by byte address, in the canonical form of `Memory.wf`; an unlisted byte is 0 | 16 MiB | 11 R339, R340; 05 R130 | empty -/
  cells : List Host.Cell
  /-- poisoned words, by byte address of the word, newest first | list | 11 R342 | empty -/
  poison : List Nat
  /-- scrub list | up to 16 addresses | 11 R344 | empty -/
  scrub : List Nat
  /-- remap tables of the banks; spares that failed | 64 x 8 entries | 11 R356, R358 | empty -/
  remap : List (Nat × Remap)
  deadSpares : List (Nat × Nat)
  /-- window descriptors set at Joining, by number | 4,096 x 8 bytes | 11 R349, R351 | none valid -/
  windows : List (Nat × BitVec 64)
  /-- next region of the background sweep; the age-clock tick its last region started | 18 bits, 64 bits | 11 R352 | 0 -/
  sweep : Nat
  sweepAt : Tick
  /-- next region of a MEM.SWEEP pass | 18 bits | 11 R360 | none -/
  fast : Option Nat
  /-- wake scrub running | 1 bit | 11 R363 | false -/
  wakeScrub : Bool
  deriving DecidableEq, Repr

/-- A unit or rail that is not working, as the tier sees it, and the caps of Table 1.5. -/
structure TierState where
  /-- service tier | 3 bits | 01 R11, R25 | Dark -/
  tier : Tier
  /-- units and rails found not working since the kindling began | list | 01 R19 | empty -/
  failed : List UnitId
  /-- caps of Table 1.5, bits 1, 2 and 3 of `TIER_CAP` | 1 bit each | 01 R25 | clear -/
  capStrap : Bool
  stranger : Bool
  capVault : Bool
  /-- trick boundaries for which the next tier's requirements have held | counter | 01 R27, 05 R132 | none -/
  upCount : Option Nat
  deriving DecidableEq, Repr

/-- Place announcements (08 R238). -/
structure Announce where
  /-- one is due on each port | 1 bit each | 08 R238 | false -/
  dueTa : Bool
  dueTb : Bool
  /-- line trick of the last periodic announcement | counter | 08 R238 | 0 -/
  lastTrick : Nat
  /-- payload last sent, for the change test | bytes | 08 R238 | empty -/
  last : List Byte
  /-- next header `SEQ` of announcements and link-local frames | 32 bits | 08 Table 8.1 | DESIGN CHOICE 0 (log entry 6) -/
  seq : BitVec 32
  deriving DecidableEq, Repr

/-- The whole chip. -/
structure State where
  /-- `DIE_ID`, fused at test | 64 bits | 17 R514 | DESIGN CHOICE 0 (log entry 6) -/
  dieId : BitVec 64
  /-- the model's own counter of free values drawn | counter | the model's | DESIGN CHOICE 0 (log entry 5) -/
  free : Nat
  supply : Supply
  tiers : TierState
  straps : Straps
  clock : Clock
  portA : PortState
  portB : PortState
  cut : Cut
  tables : Tables
  queues : Queues
  hands : Vector Hand 16
  streams : List Stream
  chans : Vector Chan 24
  mem : Memory
  engine : Engine
  vault : Vault
  seat : SeatState
  events : Events
  dbg : Debug
  announce : Announce
  /-- event and fault counters by local source, object and code, where not 0 | 32 bits each | 15 Table 15.8 | empty, all 0 -/
  counters : List (Nat × BitVec 32)
  /-- the commands that wait, first in first out | list | the block's queue | empty -/
  pending : List Instr
  deriving DecidableEq, Repr

/-- The machine never faults: no access of a command addresses anything outside the spec's address space
(R340: an address in a reserved range is never generated; a debug access there is refused in `DS_RESULT`). The
constructor is kept for the interface; nothing raises it, so it is safe. -/
inductive Fault where
  | noSuchAddress (addr : Nat)
  deriving DecidableEq, Repr

/-- Why a command has no meaning. -/
inductive Refusal where
  /-- Raised by an arm of Dispatch.lean whose command has no meaning yet; safe. -/
  | notModelled (mnemonic : String)
  deriving DecidableEq, Repr

/-! ## The chip as manufactured, before POWER_UP -/

/-- A bit table with every carrier off. -/
def offTable : BitTable := List.replicate 471 0

/-- A port of an unpowered chip. -/
def PortState.reset : PortState where
  link := .off
  lock := false
  tx0 := offTable
  tx1 := offTable
  rx0 := offTable
  rx1 := offTable
  txSlot := false
  rxSlot := false
  rxOtherReleased := true
  rxSwitchAt := 0
  txSwitched := false
  rxSwitched := false
  pendTx := none
  pendRx := none
  tblSeq := 0
  lastAck := none
  margin := 1
  marginDue := false
  lq := 0
  evmQ := 0
  linkD := none
  slot0 := 0
  t1 := 0
  a1 := 0
  t2 := 0
  a2 := 0
  steps := []
  reqOut := false
  reqReason := 0
  retryAt := 0
  failures := 0
  lastAbort := 0
  idClash := false
  tooLong := false
  snr := List.replicate 471 255
  goodTricks := List.replicate 471 0
  hdrLow := 0
  crcFails := 0
  echoStart := 0
  eMode := false
  mask := 0
  maskDue := false
  quietUntil := none
  resetDue := false
  rx := none
  due := none
  hold := []
  tx := none
  sym := { kind := .silent, pilots := [], carriers := [] }
  drr := [0, 0, 0, 0, 0, 0, 0]
  turnOwner := [0, 0, 0, 0, 0, 0, 0]
  turnQueue := List.replicate 119 0
  llOut := []
  beaconOut := []
  nbr := 0xFFFF
  blocked := false
  held := false
  dealSeen := false
  bidCopy := none
  bidMeet := false

/-- The clock of an unpowered chip (Table 5.1, Rails). -/
def Clock.reset : Clock where
  counter := 0
  line := 0
  age := 0
  state := .crystal
  epoch := 0
  slew := none
  corr := 0
  synth := 0
  history := []
  goodTricks := 0
  facing := none
  hops := none
  realign := none
  jumps := 0
  rangeGood := 0
  quietUntil := none

/-- The cut of an unpowered chip. -/
def Cut.reset : Cut where
  state := .waiting
  provisional := false
  silence := 0
  entered := 0
  round := 0
  slot := 0
  bidTrick := 0
  nonce := 0
  best := none
  seen := []
  tallies := []
  ineligible := []
  clashSeen := []
  callSeen := []
  breakSeen := []
  dealer := none
  dealSeq := 0
  lastDeal := []
  lastDealAt := none
  blkLo := 0xFFFF
  blkHi := 0xFFFF
  otherDeals := 0
  noDealerAt := none
  hadDealer := false

/-- No commit. -/
def Commit.idle : Commit where
  state := .idle
  hand := 0
  apply := 0
  batches := []
  prepared := false
  applied := 0
  switches := []
  since := 0
  late := false
  partial_ := false
  deferred := false

/-- A pipeline of an unpowered chip. -/
def Pipe.reset : Pipe where
  seed := 0
  gen := false
  learned := 0
  overflow := []
  scan := 0
  scanAt := 0
  resetting := 0
  resetAt := 0
  fixedBuf := none
  fixedAt := none

/-- Empty tables. -/
def Tables.reset : Tables where
  pa := Pipe.reset
  pb := Pipe.reset
  prefixes := []
  policers := []
  staged := []
  shadow := []
  commit := Commit.idle
  epoch := false
  draining := none
  waiting := []
  reclaim := none
  flushDue := false

/-- A hand of an unpowered chip. -/
def Hand.reset : Hand where
  state := .clean
  master := none
  observers := []
  obsTa := false
  obsTb := false
  refusals := []
  input := []
  evHead := 0
  evCount := 0
  lost := 0
  lostFirst := 0
  lostLast := 0
  resetInv := 0

/-- The queue manager of an unpowered chip. -/
def Queues.reset : Queues where
  ready := false
  settings := []
  frames := []
  heldOut := []
  evHead := 0
  evCount := 0
  lost := 0
  lostFirst := 0
  lostLast := 0

/-- A channel of an unpowered chip: disconnects open, stage off, keeper unconfigured and in control. -/
def Chan.reset : Chan where
  profile := none
  capStrap := false
  capBlank := false
  capCurve := false
  capCross := false
  capCoarse := false
  capTwin := false
  keeper := none
  keptProfile := none
  latch := 0
  inControl := true
  bankShell := false
  bankMon := true
  weakHigh := false
  yielded := false
  refreshed := 0
  dac := 0
  stageOn := false
  commanded := false
  applied := 0
  lastApply := none
  target := 0
  rampFrom := 0
  rampAt := 0
  settleEnd := 0
  checks := false
  pending := []
  override := none
  overrideNext := none
  comp := .normal
  compRaised := false
  frozen := false
  retarget := false
  forced := false
  shortSince := none
  weakSince := none
  rangeSince := none
  delSince := none
  pathSince := none
  delBad := false
  pathBad := false
  readings := []
  atLimit := false
  rbOwn := 0
  rbTotal := 0
  refFault := false
  keeperFault := false
  inTrim := false
  drive := .carrying
  disc := [true, true, true, true]
  sources := false
  shunt := false
  switches := false
  active := true
  roleStep := none
  caught := false
  folded := false
  excBad := 0
  excGood := 0
  sensorOpen := false
  tcOpen := false
  leadHigh := false
  crossSeen := false
  restrap := false
  rekindle := none
  rekindleHeld := false
  grid := none
  ranging := .coarse
  buffer := []
  low := []
  fineBad := 0
  coarseBad := 0
  lastGood := { value := 0, path := 1, ne43 := false }
  prev := { value := 0, path := 1, ne43 := false }
  lastInstant := none
  cutOff := true
  cjFault := false
  stale := []
  ringPos := 0

/-- A key slot before a session is drawn. -/
def KeySess.reset : KeySess where
  session := 0
  lastSeq := 0
  lastMac := none
  lastResp := none

/-- The command engine of an unpowered chip. -/
def Engine.reset : Engine where
  slots := Vector.replicate 20 KeySess.reset
  awaiting := []
  proposals := []
  turn := 0
  ops := []
  nextHandle := 1
  writing := []
  nodeReset := false

/-- The vault as manufactured: no record (R524). -/
def Vault.reset : Vault where
  recs := []
  pulses := []
  wardLock := false
  commission := false
  installed := []
  wardNext := []
  trimOld := []

/-- No events. -/
def Events.reset : Events where
  merge := []
  holding := []
  holdLost := 0
  holdFirst := 0
  holdLast := 0
  latches := []
  rates := []

/-- The seat of an unpowered chip. -/
def SeatState.reset : SeatState where
  state := .solo
  good := 0
  bad := 0
  locked := false
  trained := false
  windowOver := false
  windowAt := 0
  partner := none
  seq := 0
  mmAck := 0
  mmSeq := 0
  out := []
  frame := []
  lead := false
  mirrorGot := false
  blocks := []
  ackDue := false
  confirmed := 0
  mirrorAt := none
  mirrored := false
  disarmed := []
  handback := []
  release := none
  rewriteDue := false

/-- A comparator that is off. -/
def Cmp.off : Cmp where
  kind := 0
  act := 0
  wher := 0
  count := 0
  value := 0
  mask := 0

/-- The debug port in Test-Logic-Reset: IDCODE, 0x02 of Table 21.2 (R611). -/
def Debug.reset : Debug where
  ir := 0x02
  dr := 0
  boundary := 0
  session := none
  halted := 0
  haltedAt := []
  haltTier := .dark
  haltNext := none
  resumeNext := none
  step := none
  cmps := Vector.replicate 8 Cmp.off
  bphit := 0
  result := 0

/-- The strap decoder before the straps are read. -/
def Straps.reset : Straps where
  rounds := []
  resolved := false
  codes := List.replicate 72 .ambiguous
  almSel := .open_
  dbgEn := false
  digest := 0
  reread := none
  rereadQueue := []
  dueCh := []
  dueFn := []
  fresh := []
  blankmap := .ambiguous
  blankmapNext := none
  curveUse := []

/-- The supply, the pins and the kindling of an unpowered chip. -/
def Supply.reset : Supply where
  vbus := false
  good := []
  pll := false
  rstN := true
  testEn := false
  kindle := .off
  vaultDone := false
  clearDone := false
  cause := 0x01
  causeNext := none
  attempts := 0
  haltReason := none
  retention := false
  coreReady := false
  coreAt := 0
  flueEn := false
  flueLatched := false
  flueLim := false
  d := 0
  trunkV := 0
  lastTrunkV := 0
  trunkAbsent := false
  l := 0
  vbusV := 0
  vh := 0
  ledger := 0
  hearthChg := false
  hearthDis := false
  emberSet := false
  hearthOv := false
  hearthWeak := false
  chargeSince := none
  chargeOffUntil := 0
  riding := false
  ridingAt := 0
  bypHold := false
  blank := Vector.replicate 4 (false, 0, false, 0)
  blanks := Vector.replicate 4 []
  cjValue := 0
  cjLost := false
  cjLostAt := 0
  cjStale := false

/-- Memory with nothing listed. -/
def Memory.reset : Memory where
  cells := []
  poison := []
  scrub := []
  remap := []
  deadSpares := []
  windows := []
  sweep := 0
  sweepAt := 0
  fast := none
  wakeScrub := false

/-- Tier Dark, nothing capped. -/
def TierState.reset : TierState where
  tier := .dark
  failed := []
  capStrap := false
  stranger := false
  capVault := false
  upCount := none

/-- No announcement due. -/
def Announce.reset : Announce where
  dueTa := false
  dueTb := false
  lastTrick := 0
  last := []
  seq := 0

/-- The chip as manufactured and unpowered (log entry 1): state Off of Table 5.1, tier Dark. -/
def State.reset : State where
  dieId := 0
  free := 0
  supply := Supply.reset
  tiers := TierState.reset
  straps := Straps.reset
  clock := Clock.reset
  portA := PortState.reset
  portB := PortState.reset
  cut := Cut.reset
  tables := Tables.reset
  queues := Queues.reset
  hands := Vector.replicate 16 Hand.reset
  streams := []
  chans := Vector.replicate 24 Chan.reset
  mem := Memory.reset
  engine := Engine.reset
  vault := Vault.reset
  seat := SeatState.reset
  events := Events.reset
  dbg := Debug.reset
  announce := Announce.reset
  counters := []
  pending := []

end Sys2Proof.Machine
end

