-- ==== Sys2Proof/Machine/Operands.lean ====
section
/-! DEFINITION. Operands: byte strings and their big-endian fields (R7), the checks CRC-32, CRC-32C and
CRC-16-CCITT, AES-128 and its CMAC, the header block, and the command and response envelope. -/

namespace Sys2Proof.Machine

/-! ## Bytes -/

/-- The `n` low bytes of a number, most significant first (R7). -/
def beBytes : Nat → Nat → List Byte
  | 0, _ => []
  | n + 1, v => BitVec.ofNat 8 (v >>> (8 * n)) :: beBytes n v

/-- The number a byte string spells, most significant byte first (R7). -/
def beNat (bs : List Byte) : Nat := bs.foldl (fun a b => a * 256 + b.toNat) 0

/-- `len` bytes from offset `off`; bytes past the end are left out. -/
def slice (bs : List Byte) (off len : Nat) : List Byte := (bs.drop off).take len

/-- One byte as a number, 0 past the end. -/
def byteAt (bs : List Byte) (off : Nat) : Nat := (bs.getD off 0).toNat

/-- The field of `len` bytes at `off`. -/
def fieldAt (bs : List Byte) (off len : Nat) : Nat := beNat (slice bs off len)

/-- `n` zero bytes. -/
def zeros (n : Nat) : List Byte := List.replicate n 0

/-- The string cut or zero-filled to exactly `n` bytes. -/
def padTo (n : Nat) (bs : List Byte) : List Byte := bs.take n ++ zeros (n - bs.length)

/-- A byte list with the bytes `v` put in at offset `off`. -/
def putAt (bs : List Byte) (off : Nat) (v : List Byte) : List Byte :=
  bs.take off ++ v ++ bs.drop (off + v.length)

/-- A list cut into pieces of `n`; the first argument bounds the number of pieces. -/
def chunks {α : Type} (n : Nat) : Nat → List α → List (List α)
  | 0, _ => []
  | _, [] => []
  | fuel + 1, x => x.take n :: chunks n fuel (x.drop n)

/-- Whether bit `i` of a number is set. -/
def bit (v i : Nat) : Bool := (v >>> i) % 2 == 1

/-- A Bool as a number. -/
def b2n (b : Bool) : Nat := if b then 1 else 0

/-- A signed value from an unsigned field of `w` bits. -/
def signed (w v : Nat) : Int := if v < 2 ^ (w - 1) then (v : Int) else (v : Int) - (2 ^ w : Nat)

/-- The low `w` bits of a signed value as a number. -/
def unsigned (w : Nat) (v : Int) : Nat := (v % ((2 ^ w : Nat) : Int)).toNat

/-- Rounding division to nearest, a half away from zero. -/
def roundDiv (a : Int) (b : Nat) : Int :=
  if 0 ≤ a then (2 * a + b) / (2 * b) else -((2 * (-a) + b) / (2 * b))

/-- Clamp to a range. -/
def clamp (lo hi v : Int) : Int := max lo (min hi v)

/-! ## CRC -/

/-- One bit of a reflected CRC. -/
def crcBit (poly c : Nat) : Nat := if c % 2 == 1 then (c >>> 1) ^^^ poly else c >>> 1

/-- One byte of a reflected CRC of 32 bits. -/
def crcByte (poly c : Nat) (b : Byte) : Nat := Nat.repeat (crcBit poly) 8 (c ^^^ b.toNat)

/-- A reflected CRC of 32 bits with initial value and final XOR 0xFFFFFFFF. -/
def crcReflected (poly : Nat) (bs : List Byte) : BitVec 32 :=
  BitVec.ofNat 32 (bs.foldl (crcByte poly) 0xFFFFFFFF ^^^ 0xFFFFFFFF)

/-- `PCRC`: the IEEE 802.3 CRC-32 (R229). -/
def crc32 (bs : List Byte) : BitVec 32 := crcReflected 0xEDB88320 bs

/-- The CRC-32C of the hash (R263). -/
def crc32c (bs : List Byte) : BitVec 32 := crcReflected 0x82F63B78 bs

/-- One bit of the CRC-16-CCITT. -/
def crc16Bit (c : Nat) : Nat := if c < 0x8000 then 2 * c else (2 * c) % 0x10000 ^^^ 0x1021

/-- `HCRC`: CRC-16-CCITT, initial value 0xFFFF (R228). -/
def crc16 (bs : List Byte) : BitVec 16 :=
  BitVec.ofNat 16 (bs.foldl (fun c b => Nat.repeat crc16Bit 8 (c ^^^ (b.toNat * 256))) 0xFFFF)

/-! ## AES-128 and its CMAC -/

/-- The AES S-box, eight bits an entry. -/
def aesSbox (b : Nat) : Nat :=
  let t :=
    if b < 64 then 0x75b227ebe28012079a059618c323c7041531d871f1e5a534ccf73f362693fdb7c072a49cafa2d4adf04759fa7dc982ca76abd7fe2b670130c56f6bf27b777c63
    else if b < 128 then 0xd2f3ff1021dab6bcf5389d928f40a351a89f3c507f02f94585334d43fbaaefd0cf584c4a39becb6a5bb1fc20ed00d153842fe329b3d63b52a05a6e1b1a2c8309
    else if b < 192 then 0x08ae7a65eaf4566ca94ed58d6d37c8e779e4959162acd3c25c2406490a3a32e0db0b5ede14b8ee4688902a22dc4f816073195d643d7ea7c41744975fec130ccd
    else 0x16bb54b00f2d99416842e6bf0d89a18cdf2855cee9871e9b948ed9691198f8e19e1dc186b95735610ef6034866b53e708a8bbd4b1f74dde8c6b4a61c2e2578ba
  (t >>> (8 * (b % 64))) % 256

/-- The inverse of the AES S-box. -/
def aesInvSbox (b : Nat) : Nat :=
  let t :=
    if b < 64 then 0x25d18b6d49a25b76b224d92866a12e084ec3fa420b954cee3d23c2a632947b54cbe9dec444438e3487ff2f9b8239e37cfbd7f3819ea340bf38a53630d56a0952
    else if b < 128 then 0x6b8a130103bdafc1020f3fca8f1e2cd00645b3b80558e4f70ad3bc8c00abd890849d8da75746155edab9edfd5048706c92b6655dcc5ca4d41698688664f6f872
    else if b < 192 then 0xf45acd78fec0db9a2079d2c64b3e56fc1bbe18aa0e62b76f89c5291d711af1476edf751ce837f9e28535ade72274ac9673e6b4f0cecff297eadc674f4111913a
    else 0x7d0c2155631469e126d677ba7e042b17619953833cbbebc8b0f52aae4d3be0a0ef9cc9939f7ae52d0d4ab519a97f51605fec8027591012b131c7078833a8dd1f
  (t >>> (8 * (b % 64))) % 256

/-- Multiplication by x in the AES field. -/
def xtime (b : Nat) : Nat := if b < 128 then 2 * b else (2 * b) ^^^ 0x11B

/-- Byte `i` of a 16-byte block, byte 0 the most significant. -/
def blkByte (v i : Nat) : Nat := (v >>> (8 * (15 - i))) % 256

/-- A block from its 16 bytes. -/
def blkOf (f : Nat → Nat) : Nat := (List.range 16).foldl (fun a i => a * 256 + f i) 0

/-- The next round key. -/
def aesNextKey (k rcon : Nat) : Nat :=
  let w3 := k % 2 ^ 32
  let rot := (w3 % 2 ^ 24) * 256 + w3 >>> 24
  let sub := aesSbox (rot >>> 24) <<< 24 ||| aesSbox ((rot >>> 16) % 256) <<< 16
    ||| aesSbox ((rot >>> 8) % 256) <<< 8 ||| aesSbox (rot % 256)
  let w0 := (k >>> 96) ^^^ sub ^^^ (rcon <<< 24)
  let w1 := ((k >>> 64) % 2 ^ 32) ^^^ w0
  let w2 := ((k >>> 32) % 2 ^ 32) ^^^ w1
  let w3' := w3 ^^^ w2
  w0 <<< 96 ||| w1 <<< 64 ||| w2 <<< 32 ||| w3'

/-- The eleven round keys. -/
def aesKeys (k : Nat) : List Nat :=
  ([1, 2, 4, 8, 16, 32, 64, 128, 0x1B, 0x36].foldl
    (fun (acc : List Nat × Nat) r => let k' := aesNextKey acc.2 r; (acc.1 ++ [k'], k')) ([k], k)).1

/-- SubBytes and ShiftRows. -/
def aesSubShift (v : Nat) : Nat :=
  blkOf fun i => aesSbox (blkByte v ((i % 4 + 4 * ((i / 4 + i % 4) % 4))))

/-- The inverse of `aesSubShift`. -/
def aesInvSubShift (v : Nat) : Nat :=
  blkOf fun i => aesInvSbox (blkByte v ((i % 4 + 4 * ((i / 4 + 4 - i % 4) % 4))))

/-- MixColumns. -/
def aesMix (v : Nat) : Nat :=
  blkOf fun i =>
    let c := 4 * (i / 4)
    let a := blkByte v i
    let b := blkByte v (c + (i + 1) % 4)
    xtime a ^^^ xtime b ^^^ b ^^^ blkByte v (c + (i + 2) % 4) ^^^ blkByte v (c + (i + 3) % 4)

/-- The inverse of MixColumns, which has order four. -/
def aesInvMix (v : Nat) : Nat := aesMix (aesMix (aesMix v))

/-- AES-128 encryption of one block (FIPS 197). -/
def aesEnc (key blk : Nat) : Nat :=
  let ks := aesKeys key
  let s := (ks.drop 1).take 9 |>.foldl (fun s k => aesMix (aesSubShift s) ^^^ k) (blk ^^^ ks.getD 0 0)
  aesSubShift s ^^^ ks.getD 10 0

/-- AES-128 decryption of one block (KEY.SET, 17_ward_and_countersign.md). -/
def aesDec (key blk : Nat) : Nat :=
  let ks := aesKeys key
  let s := ((ks.drop 1).take 9).reverse.foldl (fun s k => aesInvMix (aesInvSubShift s ^^^ k)) (blk ^^^ ks.getD 10 0)
  aesInvSubShift s ^^^ ks.getD 0 0

/-- Doubling in the CMAC field. -/
def cmacDouble (v : Nat) : Nat :=
  let d := (2 * v) % 2 ^ 128
  if v < 2 ^ 127 then d else d ^^^ 0x87

/-- AES-128-CMAC (NIST SP 800-38B), the full 128 bits. -/
def cmac (key : Nat) (msg : List Byte) : Nat :=
  let k1 := cmacDouble (aesEnc key 0)
  let full := (msg.length != 0) && msg.length % 16 == 0
  let n := if full then msg.length / 16 - 1 else msg.length / 16
  let head := chunks 16 n (msg.take (16 * n))
  let x := head.foldl (fun x b => aesEnc key (x ^^^ beNat b)) 0
  let tail := msg.drop (16 * n)
  let last := if full then beNat tail ^^^ k1 else beNat (padTo 16 (tail ++ [0x80])) ^^^ cmacDouble k1
  aesEnc key (x ^^^ last)

/-- The most significant 64 bits of a CMAC. -/
def cmac64 (key : Nat) (msg : List Byte) : BitVec 64 := BitVec.ofNat 64 (cmac key msg >>> 64)

/-! ## The header block (Table 8.1) -/

/-- Bytes 0 to 55 of a header block. -/
def Header.body (h : Header) : List Byte :=
  beBytes 1 (h.version.toNat * 16 + h.tclass.toNat * 2 + b2n h.btSlot)
  ++ beBytes 1 (h.akind.toNat * 32 + b2n h.defer * 16 + h.hand.toNat)
  ++ beBytes 1 h.hopCount.toNat ++ beBytes 2 h.payLen.toNat ++ beBytes 2 h.carryB.toNat
  ++ beBytes 6 h.dest.toNat ++ beBytes 6 h.srcTag.toNat ++ beBytes 4 h.srcPlace.toNat ++ beBytes 4 h.seq.toNat
  ++ beBytes 8 h.originTick.toNat ++ beBytes 1 h.epoch.toNat
  ++ beBytes 1 (h.timeQ.toNat * 16 + h.rsv36.toNat) ++ beBytes 2 h.srcNode.toNat ++ padTo 17 h.rsv

/-- The 58 bytes of a header block, `HCRC` included (R228). -/
def Header.encode (h : Header) : List Byte := h.body ++ beBytes 2 (crc16 h.body).toNat

/-- The fields of a 58-byte header block. -/
def Header.decode (bs : List Byte) : Header where
  version := BitVec.ofNat 4 (byteAt bs 0 / 16)
  tclass := BitVec.ofNat 3 (byteAt bs 0 / 2)
  btSlot := bit (byteAt bs 0) 0
  akind := BitVec.ofNat 3 (byteAt bs 1 / 32)
  defer := bit (byteAt bs 1) 4
  hand := BitVec.ofNat 4 (byteAt bs 1)
  hopCount := BitVec.ofNat 8 (byteAt bs 2)
  payLen := BitVec.ofNat 16 (fieldAt bs 3 2)
  carryB := BitVec.ofNat 16 (fieldAt bs 5 2)
  dest := BitVec.ofNat 48 (fieldAt bs 7 6)
  srcTag := BitVec.ofNat 48 (fieldAt bs 13 6)
  srcPlace := BitVec.ofNat 32 (fieldAt bs 19 4)
  seq := BitVec.ofNat 32 (fieldAt bs 23 4)
  originTick := BitVec.ofNat 64 (fieldAt bs 27 8)
  epoch := BitVec.ofNat 8 (byteAt bs 35)
  timeQ := BitVec.ofNat 4 (byteAt bs 36 / 16)
  rsv36 := BitVec.ofNat 4 (byteAt bs 36)
  srcNode := BitVec.ofNat 16 (fieldAt bs 37 2)
  rsv := slice bs 39 17

/-- `HCRC` of a received header block agrees with its bytes (R228). -/
def headerCrcGood (bs : List Byte) : Bool := crc16 (bs.take 56) == BitVec.ofNat 16 (fieldAt bs 56 2)

end Sys2Proof.Machine
end

