-- ==== Sys2Proof/Machine/Codes.lean ====
section
/-! DEFINITION. What the straps say: resistor codes (02_straps_and_resistor_codes.md), the policy straps of
Table 2.3, the hand plans of Table 2.5 and the channel profiles of Tables 2.6 and 2.7. -/

namespace Sys2Proof.Machine

/-! ## Resistor codes -/

/-- Nominal resistances of codes 1 to 14, in ohm (Table 2.1). -/
def nominalOhms : List Nat :=
  [1000, 2100, 3320, 4640, 6040, 7680, 9530, 11500, 13700, 16200, 19100, 22600, 26700, 31600]

/-- Whether a resistance in milliohm lies in the window of code `n`, 1 to 14, both ends included (R38). -/
def inWindow (n r : Nat) : Bool :=
  let nom := nominalOhms.getD (n - 1) 0 * 1000
  95 * nom ≤ 100 * r && 100 * r ≤ 105 * nom

/-- The code of one conversion, none for an ambiguous one (R38). -/
def convCode (r : Nat) : Option (Fin 16) :=
  if r < 250000 then some 0
  else if 60000000 < r then some 15
  else (List.finRange 16).find? fun n => n.val != 0 && n.val != 15 && inWindow n.val r

/-- How many conversions give code `n`. -/
def agreeing (convs : List (Option (Fin 16))) (n : Fin 16) : Nat := (convs.filter (· == some n)).length

/-- A pin's code from its eight conversions: at least five agree (R41). -/
def majority (convs : List (Option (Fin 16))) : Code :=
  match (List.finRange 16).find? fun n => 5 ≤ agreeing convs n with
  | some n => .code n
  | none => .ambiguous

/-- The reference conversions of a round lie in the windows of codes 3 and 12 (R42). -/
def strapRefsGood (r : StrapRound) : Bool := inWindow 3 r.ref3 && inWindow 12 r.ref12

/-- One round's reading of ALM_SEL (R43). -/
def strapAlm (r : StrapRound) : AlmSel :=
  match r.almUp, r.almDown with
  | false, false => .low
  | true, true => .high
  | _, _ => .open_

/-- The reading on which at least five rounds agree, if any (R43). -/
def almMajority (rs : List StrapRound) : Option AlmSel :=
  [AlmSel.open_, .low, .high].find? fun a => 5 ≤ (rs.filter fun r => strapAlm r == a).length

/-- The DBG_EN reading on which at least five rounds agree, if any (R43). -/
def dbgMajority (rs : List StrapRound) : Option Bool :=
  [false, true].find? fun a => 5 ≤ (rs.filter (·.dbgEn == a)).length

/-- Conversions of pin number `i` of the read list, oldest round first. -/
def pinConvs (rs : List StrapRound) (i : Nat) : List (Option (Fin 16)) :=
  rs.map fun r => match r.pins[i]? with
    | some v => convCode v
    | none => none

/-- The byte a code is written as in the digest message (R53). -/
def Code.byte : Code → Byte
  | .code n => BitVec.ofNat 8 n.val
  | .ambiguous => 0xFF

/-- The digest message of Table 2.8. -/
def digestMessage (codes : List Code) (alm : AlmSel) (dbg : Bool) : List Byte :=
  let a := match alm with
    | .open_ => 0
    | .low => 2
    | .high => 4
  codes.map Code.byte ++ [BitVec.ofNat 8 (a + b2n dbg)]

/-- The strap digest (R53). -/
def strapDigest (codes : List Code) (alm : AlmSel) (dbg : Bool) : BitVec 64 :=
  cmac64 0 (digestMessage codes alm dbg)

/-! ## Pins by digest index (Table 2.8) -/

/-- The resolved code of the pin with digest index `i`. -/
def codeAt (codes : List Code) (i : Nat) : Code := codes.getD i .ambiguous

/-- The code's number, none when ambiguous. -/
def Code.val? : Code → Option Nat
  | .code n => some n.val
  | .ambiguous => none

/-- A pin that is ambiguous. -/
def isAmb (codes : List Code) (i : Nat) : Bool := codeAt codes i == .ambiguous

abbrev pinRank := 12
abbrev pinMask := 13
abbrev pinDetA := 14
abbrev pinDetB := 15
abbrev pinLrn := 16
abbrev pinEvict := 17
abbrev pinHands := 18
abbrev pinDraw := 19
abbrev pinHearth := 20
abbrev pinRoute := 21
abbrev pinTwin := 22
abbrev pinBlankmap := 23
abbrev pinCpa := 24
abbrev pinCpb := 48

/-- A field of `n` hexadecimal digits, the pin with the lowest index giving the least significant one. -/
def pinField (codes : List Code) (first : Nat) : Nat → Option Nat
  | 0 => some 0
  | n + 1 => match pinField codes (first + 1) n, (codeAt codes first).val? with
    | some hi, some lo => some (hi * 16 + lo)
    | _, _ => none

/-- The node number as strapped, none when ambiguous (R44). -/
def strapNode (codes : List Code) : Option Nat := pinField codes 0 4

/-- The node number is readable and valid (R44). -/
def nodeValid (codes : List Code) : Bool :=
  match strapNode codes with
  | some n => n != 0 && n != 0xFFFF
  | none => false

/-- The node number used in source numbers: 0xFFFF while ambiguous or invalid (R44). -/
def nodeNumberOf (codes : List Code) : BitVec 16 :=
  match strapNode codes with
  | some n => if n == 0 then 0xFFFF else BitVec.ofNat 16 n
  | none => 0xFFFF

/-- The place as strapped, none when ambiguous (R45). -/
def strapPlace (codes : List Code) : Option Nat := pinField codes 4 8

/-- The node's place, none while ambiguous or invalid (R45). -/
def placeOf (codes : List Code) : Option (BitVec 32) :=
  match strapPlace codes with
  | some p => if p % 64 == 0 then some (BitVec.ofNat 32 p) else none
  | none => none

/-- `RANK`: 1 to 14, or 0 for never dealer (Table 2.3). -/
def rankOf (codes : List Code) : Nat :=
  match (codeAt codes pinRank).val? with
  | some n => if n == 15 then 0 else n
  | none => 0

/-- The MASK strap: a profile 0 to 14, or 15 for the custom slot; 0 while ambiguous. -/
def maskStrap (codes : List Code) : Nat := ((codeAt codes pinMask).val?).getD 0

/-- E mode of the detection strap at pin `i`; codes 2 to 14 are reserved (Table 2.3). -/
def eModeOf (codes : List Code) (i : Nat) : Bool := codeAt codes i == .code 1

/-- Learning limit and whether the excess is flooded (Table 2.3, LRN). -/
def lrnOf (codes : List Code) : Nat × Bool :=
  let lim := fun n => [64, 256, 1024, 4096, 16384, 32768].getD n 4096
  match (codeAt codes pinLrn).val? with
  | some n => if n < 6 then (lim n, false) else if n < 12 then (lim (n - 6), true) else (4096, true)
  | none => (4096, true)

/-- Random eviction, and the aging class (Table 2.3, EVICT). -/
def evictOf (codes : List Code) : Bool × Nat :=
  match (codeAt codes pinEvict).val? with
  | some n => if n < 7 then (true, n) else if n < 14 then (false, n - 7) else (false, 3)
  | none => (false, 3)

/-- The aging limit in aging units (Table 2.4). -/
def agingLimit (codes : List Code) : Nat :=
  [6, 21, 42, 210, 419, 838, 1257].getD (evictOf codes).2 210

/-- The hand plan 0 to 14, none while HANDS is ambiguous. -/
def planOf (codes : List Code) : Option Nat :=
  match (codeAt codes pinHands).val? with
  | some n => some (if n == 15 then 0 else n)
  | none => none

/-- The draw cap in mW (Table 2.3, DRAW). -/
def drawOf (codes : List Code) : Nat :=
  match (codeAt codes pinDraw).val? with
  | some n => [3000, 4000, 5000, 6000, 8000, 10000, 12000, 15000, 18000, 22000, 26000, 30000].getD n 6000
  | none => 6000

/-- The HEARTH class 0 to 8 (Table 2.3). -/
def hearthOf (codes : List Code) : Nat :=
  match (codeAt codes pinHearth).val? with
  | some n => if n ≤ 8 then n else 0
  | none => 0

/-- The bank capacitance of a class in uF (Table 3.3). -/
def hearthCap (cls : Nat) : Nat := [0, 470, 1000, 1500, 2000, 3000, 4700, 6800, 10000].getD cls 0

/-- ROUTE 0 or 1; none while ambiguous or reserved. -/
def routeOf (codes : List Code) : Option Nat :=
  match (codeAt codes pinRoute).val? with
  | some n => if n == 15 then some 0 else if n ≤ 1 then some n else none
  | none => none

/-- The TWIN code 0 solo, 1 seat-first, 2 seat-second; none while ambiguous or reserved. -/
def twinOf (codes : List Code) : Option Nat :=
  match (codeAt codes pinTwin).val? with
  | some n => if n == 15 then some 0 else if n ≤ 2 then some n else none
  | none => none

/-- The blanking map, none while ambiguous or reserved. -/
def blankmapOf (c : Code) : Option Nat :=
  match c.val? with
  | some n => if n == 15 then some 0 else if n ≤ 5 then some n else none
  | none => none

/-- The BLANK input that covers a channel under a blanking map (Table 2.3, BLANKMAP). -/
def blankInput (map ch : Nat) : Option (Fin 4) :=
  match map with
  | 1 => some 0
  | 2 => some (if ch < 12 then 0 else 1)
  | 3 => some (Fin.ofNat 4 (ch / 6))
  | 4 => some (Fin.ofNat 4 (ch / 8))
  | 5 => some (Fin.ofNat 4 (ch % 4))
  | _ => none

/-- A strap of Table 1.5 bit 1 is ambiguous or invalid (R44, R45, R46). -/
def strapCap (codes : List Code) : Bool :=
  !nodeValid codes || (placeOf codes).isNone || (planOf codes).isNone || (twinOf codes).isNone || (routeOf codes).isNone

/-- The code a policy strap's strap-ambiguous event reports (R46). -/
def policyDefault (i : Nat) : Nat :=
  if i == pinLrn then 9 else if i == pinEvict then 10 else if i == pinDraw then 3 else 0

/-- Whether a policy strap's reading counts as ambiguous: ambiguous itself, or a reserved code (R46). -/
def policyBad (codes : List Code) (i : Nat) : Bool :=
  match (codeAt codes i).val? with
  | none => true
  | some n =>
    if i == pinDetA || i == pinDetB then 2 ≤ n && n ≤ 14
    else if i == pinLrn then 12 ≤ n && n ≤ 14
    else if i == pinEvict then n == 14
    else if i == pinDraw then 12 ≤ n && n ≤ 14
    else if i == pinHearth then 9 ≤ n && n ≤ 14
    else if i == pinRoute then 2 ≤ n && n ≤ 14
    else if i == pinTwin then 3 ≤ n && n ≤ 14
    else if i == pinBlankmap then 6 ≤ n && n ≤ 14
    else false

/-! ## Hand plans (Table 2.5) -/

/-- Queues of each hand of a plan, in hand order. -/
def planQueues (plan : Nat) : List Nat :=
  match plan with
  | 0 => [65280]
  | 1 => List.replicate 2 32640
  | 2 => List.replicate 3 21760
  | 3 => List.replicate 4 16320
  | 4 => List.replicate 5 13056
  | 5 => List.replicate 6 10880
  | 6 => List.replicate 8 8160
  | 7 => List.replicate 10 6528
  | 8 => List.replicate 12 5440
  | 9 => List.replicate 16 4080
  | 10 => 32640 :: List.replicate 8 4080
  | 11 => 48960 :: List.replicate 4 4080
  | 12 => 16320 :: 16320 :: List.replicate 8 4080
  | 13 => 57120 :: List.replicate 2 4080
  | 14 => 40800 :: 16320 :: List.replicate 2 4080
  | _ => []

/-- Buffer cells of each hand: 8 for every 17 queues (R48). -/
def planCells (plan : Nat) : List Nat := (planQueues plan).map fun q => q / 17 * 8

/-- First queue of hand `h` (R305). -/
def planFirst (plan h : Nat) : Nat := 256 + ((planQueues plan).take h).sum

/-- The hand that owns a queue of 256 or more under a plan (R305). -/
def planOwner (plan q : Nat) : Option Nat :=
  (List.range (planQueues plan).length).find? fun h =>
    planFirst plan h ≤ q && q < planFirst plan h + (planQueues plan).getD h 0

/-! ## Channel profiles (Tables 2.6 and 2.7) -/

/-- The family key CPA of a profile. -/
abbrev cpaOf (p : BitVec 8) : Nat := p.toNat / 16
/-- The key value CPB of a profile. -/
abbrev cpbOf (p : BitVec 8) : Nat := p.toNat % 16

/-- Channel period in ticks of rate index `n` (R320, Table 2.7). -/
def ratePeriod (n : Nat) : Nat :=
  [62500, 125000, 250000, 625000, 2500000, 10000000, 50000000, 300000000].getD n 62500

/-- Rate index of a profile, for outputs that of the output rate class (Tables 2.6 and 2.7). -/
def rateIndex (p : BitVec 8) : Nat :=
  let b := cpbOf p
  match cpaOf p with
  | 0 | 1 | 2 | 3 | 4 | 5 | 6 => b % 8
  | 7 => 7
  | 8 => 6
  | 9 | 10 => if bit b 3 then 6 else 7
  | 11 | 12 => if bit b 3 then 2 else 4
  | 13 => if bit b 2 then 2 else 4
  | 14 => 4
  | _ => 7

/-- Channel period of a profile in ticks. -/
def periodOf (p : BitVec 8) : Nat := ratePeriod (rateIndex p)

/-- An output profile. -/
def isOutput (p : BitVec 8) : Bool := 11 ≤ cpaOf p && cpaOf p ≤ 13

/-- An input profile that is on. -/
def isInput (p : BitVec 8) : Bool := cpaOf p ≤ 10 || cpaOf p == 14

/-- Output kind (Table 14.1). -/
def outKindOf (p : BitVec 8) : OutKind :=
  match cpaOf p with
  | 11 => .sourcing
  | 12 => .sinking
  | _ => .voltage

/-- Safe-value kind (Table 2.7, keys O and V). -/
def safeOf (p : BitVec 8) : SafeKind :=
  if cpaOf p == 13 then (if bit (cpbOf p) 1 then .holdLast else .zero)
  else match cpbOf p / 2 % 4 with
    | 0 => .alarm
    | 1 => .holdLast
    | _ => .zero

/-- Alarm direction default of a current output (key O bit 0). -/
def dirDefault (p : BitVec 8) : Bool := cpaOf p != 13 && bit (cpbOf p) 0

/-- Curve number of an input profile (Tables 2.6 and 2.7). -/
def curveOf (p : BitVec 8) : Nat :=
  let b := cpbOf p
  match cpaOf p with
  | 2 => if bit b 3 then 16 else 17
  | 7 | 8 => 1 + b % 4
  | 9 | 10 => 8 + b % 8
  | 14 => 32 + b
  | _ => 0

/-- Look-ahead combiner on (R404). -/
def lookAhead (p : BitVec 8) : Bool :=
  match cpaOf p with
  | 0 | 1 | 3 | 4 | 5 | 6 => !bit (cpbOf p) 3
  | 2 | 14 | 7 | 8 | 9 | 10 => true
  | _ => false

/-- Blanking: repeated-last (some true), omitted (some false), or ignored (Tables 2.6 and 2.7). -/
def blankMode (p : BitVec 8) : Option Bool :=
  match cpaOf p with
  | 0 | 1 | 3 | 4 | 5 | 6 => some (!bit (cpbOf p) 3)
  | 2 | 14 => some true
  | _ => none

/-- A reserved key value makes the profile invalid (R50). -/
def keyReserved (p : BitVec 8) : Bool :=
  let b := cpbOf p
  match cpaOf p with
  | 7 | 8 => b / 4 == 3
  | 11 | 12 => b / 2 % 4 == 3
  | 13 => bit b 3
  | _ => false

/-- The profile of channel `n` as strapped: CPB is ignored under CPA 15 (R23). -/
def strapProfile (codes : List Code) (n : Nat) : Option (BitVec 8) :=
  match (codeAt codes (pinCpa + n)).val?, (codeAt codes (pinCpb + n)).val? with
  | some 15, some b => some (BitVec.ofNat 8 (240 + b))
  | some 15, none => some 0xFF
  | some a, some b => some (BitVec.ofNat 8 (16 * a + b))
  | _, _ => none

/-- The profile of channel `n` is valid under the route (R50, R51). -/
def profileValid (codes : List Code) (n : Nat) (p : BitVec 8) : Bool :=
  let route1 := routeOf codes == some 1
  if route1 && n == 23 then codeAt codes (pinCpa + 23) == .code 15 && codeAt codes (pinCpb + 23) == .code 15
  else !keyReserved p && (cpaOf p != 10 || route1)

/-- The channel is capped by its straps (R23, R50, R51). -/
def chanStrapCap (codes : List Code) (n : Nat) : Bool :=
  match strapProfile codes n with
  | none => true
  | some p => !profileValid codes n p || (routeOf codes == some 1 && n == 23
      && (isAmb codes (pinCpa + 23) || isAmb codes (pinCpb + 23)))

/-- Output units per span (R434). -/
def spanOf (p : BitVec 8) : Nat := if cpaOf p == 13 then (if bit (cpbOf p) 0 then 1000000 else 2000000) else 160000

/-- OUT.SET value range (Table 14.2). -/
def outRange (p : BitVec 8) : Int × Int :=
  if cpaOf p == 13 then (if bit (cpbOf p) 0 then (0, 1000000) else (-1000000, 1000000)) else (0, 240000)

/-- The settling allowance of a change in ticks (R437). -/
def allowance (p : BitVec 8) : Nat := periodOf p + 300000

end Sys2Proof.Machine
end

