-- ==== Sys2Proof/Machine/Flags.lean ====
section
/-! DEFINITION. Status that is computed, not stored: `TIME_Q`, the tier requirements and `TIER_CAP`, the engine
mode, `PWR_FLAGS`, event severities, and the event record. -/

namespace Sys2Proof.Machine

/-! ## Access to the parts of the state -/

/-- The state of a port. -/
def State.port (s : State) : Port → PortState
  | .ta => s.portA
  | .tb => s.portB

/-- The pipeline that serves a port (Table 1.1). -/
def State.pipe (s : State) : Port → Pipe
  | .ta => s.tables.pa
  | .tb => s.tables.pb

/-- Local source of a port (Table 4.6). -/
def portSrc : Port → Nat
  | .ta => 0x20
  | .tb => 0x21

/-- Local source of a pipeline (Table 4.6). -/
def pipeSrc : Port → Nat
  | .ta => 0x50
  | .tb => 0x51

/-- 0 for TA, 1 for TB. -/
def portNum : Port → Nat
  | .ta => 0
  | .tb => 1

/-- TA for 0, TB for 1. -/
def portOf (n : Nat) : Port := if n == 0 then .ta else .tb

/-! ## Time -/

/-- Bits 2-0 of `TIME_Q` (Table 4.5). -/
def ClockState.q : ClockState → Nat
  | .crystal => 0
  | .acquiring => 1
  | .disciplined => 2
  | .holdover => 3
  | .dealer => 4

/-- `TIME_Q` (R112, Table 4.5). -/
def timeQ (s : State) : BitVec 4 :=
  BitVec.ofNat 4 (s.clock.state.q + (if s.clock.slew.isSome then 8 else 0))

/-- A tick of line time at which a trick of the line phase begins (R103). -/
def atTrick (s : State) : Bool := s.clock.line.toNat % trickTicks == 0

/-- A tick of line time at which a symbol begins. -/
def atSymbol (s : State) : Bool := s.clock.line.toNat % symbolTicks == 0

/-- The number of the current trick of the line phase. -/
def trickNo (s : State) : Nat := s.clock.line.toNat / trickTicks

/-- Ticks of the age clock since `t`. -/
def since (s : State) (t : Tick) : Nat := s.clock.age.toNat - t.toNat

/-! ## Straps in force -/

/-- The node number (R44). -/
def nodeNumber (s : State) : BitVec 16 := nodeNumberOf s.straps.codes

/-- The chip's own station tag (R233). -/
def ownTag (s : State) : Tag := BitVec.ofNat 48 (0x0E * 2 ^ 40 + s.dieId.toNat % 2 ^ 40)

/-- The number of hands of the plan, 0 while there is none. -/
def handCount (s : State) : Nat :=
  match planOf s.straps.codes with
  | some p => (planQueues p).length
  | none => 0

/-- The chip is strapped as a twin. -/
def isTwin (s : State) : Bool :=
  match twinOf s.straps.codes with
  | some 1 | some 2 => true
  | _ => false

/-- A unit of `DC_MASK` (Table 21.5) is halted, or its step has reached its count (R622): 0 PA, 1 PB, 2 queue manager, 3 command
engine, 4 sweep, 5 aging scanners and learning, 6 channel back ends. -/
def halted (s : State) (unit : Nat) : Bool :=
  s.dbg.halted.toNat.testBit unit ||
  match s.dbg.step with
  | some (m, _, 0) => m.toNat.testBit unit
  | _ => false

/-! ## Tiers -/

/-- The order of the tiers (R19). -/
def Tier.rank : Tier → Nat
  | .dark => 0
  | .banked => 1
  | .passThrough => 2
  | .measure => 3
  | .full => 4

/-- The lower of two tiers. -/
def Tier.min (a b : Tier) : Tier := if a.rank ≤ b.rank then a else b

/-- The tier above. -/
def Tier.up : Tier → Tier
  | .dark => .banked
  | .banked => .passThrough
  | .passThrough => .measure
  | _ => .full

/-- A unit counts as working while nothing has found it failed. -/
def works (s : State) (u : UnitId) : Bool := !s.tiers.failed.contains u

/-- A rail is in its good window and no fault of it is recorded. -/
def railGood (s : State) (r : Rail) : Bool := s.supply.good.contains r && works s (.rail r)

/-- Banked's requirements (Table 1.4). -/
def reqBanked (s : State) : Bool := s.supply.vbus && railGood s .van

/-- What Pass-through adds (Table 1.4). -/
def reqPass (s : State) : Bool :=
  railGood s .vcore && railGood s .vsram && railGood s .vio && s.supply.pll && works s .clock
  && works s (.port .ta) && works s (.port .tb) && works s .flue && works s (.pipe .ta) && works s (.pipe .tb)
  && works s (.group 0)

/-- What Measure adds (Table 1.4; the analogue core with its start done, R133). -/
def reqMeasure (s : State) : Bool :=
  railGood s .vfp && railGood s .vfn && works s .analogue && s.supply.coreReady && works s .queueMgr
  && (List.finRange 8).all fun g => works s (.group g)

/-- What Full adds (Table 1.4; the seat link counts by its self-checks, R554). -/
def reqFull (s : State) : Bool :=
  works s .engine && works s .ward && (!isTwin s || works s .seatLink)

/-- The highest tier whose requirements are all met (R19). -/
def reqTier (s : State) : Tier :=
  if !reqBanked s then .dark
  else if !reqPass s then .banked
  else if !reqMeasure s then .passThrough
  else if !reqFull s then .measure
  else .full

/-- The highest tier the caps of Table 1.5 allow. -/
def capTier (s : State) : Tier :=
  let c := if s.tiers.capStrap || s.tiers.stranger || s.tiers.capVault then Tier.passThrough else .full
  if s.dbg.halted == 0 then c else c.min s.dbg.haltTier

/-- The highest tier allowed (R19). -/
def allowedTier (s : State) : Tier := (reqTier s).min (capTier s)

/-- `TIER_CAP` (Table 1.5). -/
def tierCap (s : State) : Nat :=
  b2n (reqTier s != .full) + 2 * b2n s.tiers.capStrap + 4 * b2n s.tiers.stranger + 8 * b2n s.tiers.capVault
  + 16 * b2n (s.dbg.halted != 0)

/-- The engine modes (Table 15.5). -/
inductive EngineMode where
  | full | restricted | fixed
  deriving DecidableEq, Repr

/-- The shell runs: from its release until it is reset, power-gated or unpowered. -/
def shellRuns (s : State) : Bool :=
  match s.supply.kindle with
  | .reading | .joining | .up => true
  | _ => false

/-- The chip is at Pass-through or above. -/
def inService (s : State) : Bool := s.supply.kindle == .up && Tier.passThrough.rank ≤ s.tiers.tier.rank

/-- The engine mode (R478). -/
def engineMode (s : State) : EngineMode :=
  if s.tiers.tier == .full then .full
  else if inService s && tierCap s == 4 then .restricted
  else .fixed

/-! ## Supply -/

/-- The HEARTH class in force. -/
def hearthClass (s : State) : Nat := hearthOf s.straps.codes

/-- The ledger in nJ at a hearth voltage in 10 mV: C x (V_H - 10.60 V) x 10.20 V, or 0 below 10.60 V (R77). -/
def ledgerOf (cls vh : Nat) : Nat := hearthCap cls * (vh - 1060) * 102

/-- E_FULL: the ledger at 28.00 V (R77). -/
def eFull (cls : Nat) : Nat := ledgerOf cls 2800

/-- A quantity as a field reports it in units of `den`: the rounding of one that is not whole is free (Table 3.9 gives none). -/
def reportIn (num den : Nat) : Nat := num / den + (if num % den != 0 && Config.reportUp num den then 1 else 0)

/-- The field `LEDGER`, in 0.1 mJ (R77, Table 3.9). -/
def ledgerField (u : Supply) : Nat := min 65535 (reportIn u.ledger 100000)

/-- The field `DAMP_L`, in 0.125 W (Table 3.9). -/
def dampField (u : Supply) : Nat := min 240 (reportIn u.l 50000)

/-- The trunk voltage the damper uses: while trunk-absent, the last non-zero one (R70). -/
def damperVolt (u : Supply) : Nat := if u.trunkAbsent then u.lastTrunkV else u.trunkV

/-- `PWR_FLAGS` (Table 3.9); `wait` is whether an operation waits for energy. -/
def pwrFlags (s : State) : Nat :=
  let u := s.supply
  b2n u.riding + 2 * b2n u.hearthDis + 4 * b2n u.hearthChg
  + 8 * b2n (u.flueLim && damperVolt u < 2200) + 16 * b2n u.trunkAbsent + 32 * b2n u.hearthOv
  + 64 * b2n (s.engine.ops.any fun o => o.state == .queued && o.reason == 0x01)

/-! ## Events -/

/-- Severity of a code: 0 I, 1 W, 2 F, 3 T (Table 20.3). -/
def evSev (code : Nat) : Nat :=
  if code == 0x0101 then 3
  else if [0x0102, 0x0401, 0x0408, 0x0409, 0x040A, 0x0501, 0x0601, 0x0608, 0x080A, 0x0903, 0x0909, 0x0A04, 0x0D05,
    0x0F01, 0x1001, 0x1005, 0x1101, 0x1201, 0x1202, 0x1203, 0x1204, 0x1205].contains code then 0
  else if [0x0203, 0x0204, 0x0205, 0x0206, 0x0302, 0x0306, 0x0307, 0x0403, 0x0502, 0x0503, 0x0505, 0x0506, 0x0507,
    0x0603, 0x0806, 0x0901, 0x0902, 0x0908, 0x0A03, 0x0A05, 0x0B01, 0x0B02, 0x0B03, 0x0B05, 0x0B06, 0x0B07, 0x0C03,
    0x0C04, 0x0C05, 0x0D01, 0x0D02, 0x0D03, 0x0D04, 0x1002, 0x1003, 0x1004, 0x1102, 0x1104, 0x1106, 0x1107].contains code
  then 2
  else 1

/-- The codes with the suffix c (R600). -/
def evLatching (code : Nat) : Bool :=
  [0x0202, 0x0203, 0x0206, 0x0301, 0x0303, 0x0304, 0x0305, 0x0307, 0x0403, 0x0502, 0x0503, 0x0504, 0x0505, 0x0506,
    0x0B01, 0x0B02, 0x0B03, 0x0B04, 0x0B05, 0x0B07, 0x0C01, 0x0C02, 0x0C05, 0x0C06, 0x0D01, 0x0D02, 0x0D04, 0x1004,
    0x1102, 0x1103, 0x1104].contains code

/-- The codes whose hand mask is the owning or named hand alone (Table 20.2). -/
def evOwned (code : Nat) : Bool :=
  [0x0909, 0x0D05, 0x0E05, 0x0F01, 0x0805, 0x0809, 0x080A, 0x080B, 0x0901, 0x0902, 0x0903, 0x0904, 0x0905, 0x0906,
    0x0908].contains code

/-- The records of an event (R592, R593). -/
def Event.records (e : Event) : List (List Byte) :=
  let parts := chunks 14 4 e.detail
  let parts := if parts.isEmpty then [[]] else parts
  let n := parts.length
  (List.range n).map fun i =>
    let mark := if n == 1 then 0 else if i == 0 then 1 else if i + 1 == n then 3 else 2
    beBytes 8 e.tick.toNat ++ beBytes 3 e.src.toNat ++ beBytes 1 e.epoch.toNat ++ beBytes 2 e.code.toNat
    ++ beBytes 2 e.hands.toNat ++ beBytes 1 (e.timeQ.toNat * 16 + e.sev.toNat * 4 + 2 * b2n e.clear)
    ++ beBytes 1 (mark * 64 + min e.rpt 63) ++ padTo 14 (parts.getD i [])

/-- A record with another `EV_HANDS` (Table 20.1). -/
def withHands (m : BitVec 16) (r : List Byte) : List Byte := r.take 14 ++ beBytes 2 m.toNat ++ r.drop 16

/-- The order of R115: tick, then source number, then code. -/
def Event.before (a b : Event) : Bool :=
  if a.tick != b.tick then a.tick.toNat < b.tick.toNat
  else if a.src != b.src then a.src.toNat < b.src.toNat
  else a.code.toNat < b.code.toNat

/-- An event put into the merge after every event that does not come after it (R115, R603). -/
def insertEvent (e : Event) : List Event → List Event
  | [] => [e]
  | x :: xs => if e.before x then e :: x :: xs else x :: insertEvent e xs

end Sys2Proof.Machine
end

