-- ==== Sys2Proof/Machine/Ops.lean ====
section
/-! DEFINITION. The named operations every family uses: updates of one part of the state, sparse maps, free
values, memory, counters, events, the vault's live values, keepers and bank-now. -/

namespace Sys2Proof.Machine

/-- What a command answers. -/
abbrev Out := Host.Outcome State Fault Refusal

/-- A step that applies: the effect where the condition holds, the state unchanged where it does not. -/
def whenDue (c : Bool) (f : State → State) (s : State) : State := if c then f s else s

/-! ## Updates of one part -/

def State.onSupply (s : State) (f : Supply → Supply) : State := { s with supply := f s.supply }
def State.onTiers (s : State) (f : TierState → TierState) : State := { s with tiers := f s.tiers }
def State.onStraps (s : State) (f : Straps → Straps) : State := { s with straps := f s.straps }
def State.onClock (s : State) (f : Clock → Clock) : State := { s with clock := f s.clock }
def State.onCut (s : State) (f : Cut → Cut) : State := { s with cut := f s.cut }
def State.onTables (s : State) (f : Tables → Tables) : State := { s with tables := f s.tables }
def State.onQueues (s : State) (f : Queues → Queues) : State := { s with queues := f s.queues }
def State.onMem (s : State) (f : Memory → Memory) : State := { s with mem := f s.mem }
def State.onEngine (s : State) (f : Engine → Engine) : State := { s with engine := f s.engine }
def State.onVault (s : State) (f : Vault → Vault) : State := { s with vault := f s.vault }
def State.onSeat (s : State) (f : SeatState → SeatState) : State := { s with seat := f s.seat }
def State.onEvents (s : State) (f : Events → Events) : State := { s with events := f s.events }
def State.onDebug (s : State) (f : Debug → Debug) : State := { s with dbg := f s.dbg }
def State.onAnnounce (s : State) (f : Announce → Announce) : State := { s with announce := f s.announce }

/-- Update one port. -/
def State.onPort (s : State) (p : Port) (f : PortState → PortState) : State :=
  match p with
  | .ta => { s with portA := f s.portA }
  | .tb => { s with portB := f s.portB }

/-- Update one pipeline. -/
def State.onPipe (s : State) (p : Port) (f : Pipe → Pipe) : State :=
  match p with
  | .ta => s.onTables fun t => { t with pa := f t.pa }
  | .tb => s.onTables fun t => { t with pb := f t.pb }

/-- One channel. -/
def State.chan (s : State) (n : Fin 24) : Chan := s.chans[n]

/-- Update one channel. -/
def State.onChan (s : State) (n : Fin 24) (f : Chan → Chan) : State := { s with chans := s.chans.set n (f s.chans[n]) }

/-- Update every channel. -/
def State.mapChans (s : State) (f : Fin 24 → Chan → Chan) : State :=
  { s with chans := Vector.ofFn fun n => f n s.chans[n] }

/-- One hand record. -/
def State.hand (s : State) (h : Fin 16) : Hand := s.hands[h]

/-- Update one hand record. -/
def State.onHand (s : State) (h : Fin 16) (f : Hand → Hand) : State := { s with hands := s.hands.set h (f s.hands[h]) }

/-- Fold an operation over a list. -/
def State.each {α : Type} (s : State) (l : List α) (f : α → State → State) : State := l.foldl (fun s a => f a s) s

/-! ## Sparse maps, sorted by key -/

/-- The value at a key. -/
def sparseGet {α : Type} (m : List (Nat × α)) (k : Nat) : Option α := (m.find? fun e => e.1 == k).map (·.2)

/-- The map with the key set. -/
def sparseSet {α : Type} (k : Nat) (v : α) : List (Nat × α) → List (Nat × α)
  | [] => [(k, v)]
  | (k', v') :: r =>
    if k < k' then (k, v) :: (k', v') :: r
    else if k == k' then (k, v) :: r
    else (k', v') :: sparseSet k v r

/-- The map without the key. -/
def sparseDel {α : Type} (m : List (Nat × α)) (k : Nat) : List (Nat × α) := m.filter fun e => e.1 != k

/-! ## Free values -/

/-- Draw the next free value: something the spec leaves open. -/
def State.draw (s : State) : BitVec 64 × State := (Config.freeValue s.free, { s with free := s.free + 1 })

/-- Draw `n` free values. -/
def State.drawN (s : State) : Nat → List (BitVec 64) × State
  | 0 => ([], s)
  | n + 1 => let r := s.draw; let q := r.2.drawN n; (r.1 :: q.1, q.2)

/-! ## Memory (R339, R340): bytes in canonical form -/

/-- Canonical form: addresses strictly rising, inside 16 MiB, and no entry equal to what an unlisted byte reads as. -/
def cellsWf : List Host.Cell → Bool
  | [] => true
  | [c] => c.1 < 0x1000000 && c.2 != 0
  | c :: d :: r => c.1 < d.1 && c.2 != 0 && cellsWf (d :: r)

/-- The memory's canonical form. -/
def Memory.wf (m : Memory) : Bool := cellsWf m.cells

/-- One byte; an unlisted byte reads 0, as the memory clear leaves it (R130). -/
def cellsRead : List Host.Cell → Nat → Byte
  | [], _ => 0
  | c :: r, a => if c.1 == a then c.2 else cellsRead r a

/-- Write one byte, keeping the canonical form. -/
def cellsWrite (a : Nat) (v : Byte) : List Host.Cell → List Host.Cell
  | [] => if v == 0 then [] else [(a, v)]
  | c :: r =>
    if a < c.1 then (if v == 0 then c :: r else (a, v) :: c :: r)
    else if a == c.1 then (if v == 0 then r else (a, v) :: r)
    else c :: cellsWrite a v r

/-- Write a byte of SRAM; an address outside the 16 MiB of R340 is never generated and stores nothing. -/
def Memory.write (m : Memory) (a : Nat) (v : Byte) : Memory :=
  if a < 0x1000000 then { m with cells := cellsWrite a v m.cells } else m

/-- Write bytes from an address on. -/
def Memory.writeN (m : Memory) (a : Nat) : List Byte → Memory
  | [] => m
  | b :: bs => (m.write a b).writeN (a + 1) bs

/-- Read `n` bytes from an address on. -/
def Memory.readN (m : Memory) (a : Nat) : Nat → List Byte
  | 0 => []
  | n + 1 => cellsRead m.cells a :: m.readN (a + 1) n

/-- A 16-byte entry; one that holds a poisoned word reads as absent (R342). -/
def Memory.entry (m : Memory) (a : Nat) : Entry :=
  if m.poison.contains a || m.poison.contains (a + 8) then 0 else BitVec.ofNat 128 (beNat (m.readN a 16))

/-- Write a 16-byte entry; the write clears any poison. -/
def Memory.setEntry (m : Memory) (a : Nat) (e : Entry) : Memory :=
  { m.writeN a (beBytes 16 e.toNat) with poison := m.poison.filter fun w => w != a && w != a + 8 }

/-! ## The vault's live values (R515, R516) -/

/-- A copy whose CRC passes. -/
def VCopy.good (c : VCopy) : Bool := c.crc == crc32 (c.data ++ beBytes 2 c.gen.toNat)

/-- What a vault record reads as. -/
inductive VLook where
  | absent
  | unreadable
  | data (bs : List Byte)
  deriving DecidableEq, Repr

/-- The newer of two generations, modulo 65,536 (R516). -/
def genNewer (a b : BitVec 16) : Bool := (a - b).toNat < 0x8000

/-- The copy in force (R516). -/
def VRec.look (r : VRec) : VLook :=
  if r.a.good && r.b.good then .data (if genNewer r.a.gen r.b.gen then r.a.data else r.b.data)
  else if r.a.good then .data r.a.data
  else if r.b.good then .data r.b.data
  else .unreadable

/-- A vault record by its key. -/
def Vault.find (v : Vault) (k : VKey) : Option VRec := (v.recs.find? fun e => e.1 == k).map (·.2)

/-- What a record reads as; one never written is absent. -/
def Vault.look (v : Vault) (k : VKey) : VLook :=
  match v.find k with
  | some r => r.look
  | none => .absent

/-- The record after one programme pulse: the older copy takes the data (R515). -/
def VRec.program (r : VRec) (d : List Byte) : VRec :=
  let newA := r.a.good && (!r.b.good || genNewer r.a.gen r.b.gen)
  let g := (if newA then r.a.gen else r.b.gen) + 1
  let c : VCopy := { gen := g, data := d, crc := crc32 (d ++ beBytes 2 g.toNat) }
  if newA then { r with b := c, writes := r.writes + 1 } else { r with a := c, writes := r.writes + 1 }

/-- The record a first write makes: the other copy is blank and its CRC does not pass. -/
def VRec.first (d : List Byte) : VRec where
  a := { gen := 0, data := d, crc := crc32 (d ++ beBytes 2 0) }
  b := { gen := 0, data := d, crc := ~~~ crc32 (d ++ beBytes 2 0) }
  writes := 1

/-- Store a record's data at the end of a good pulse. -/
def Vault.store (v : Vault) (k : VKey) (d : List Byte) : Vault :=
  match v.find k with
  | some r => { v with recs := v.recs.map fun e => if e.1 == k then (k, r.program d) else e }
  | none => { v with recs := v.recs ++ [(k, VRec.first d)] }

/-- Writes allowed (Table 17.1). -/
def vaultLimit : VKey → Nat
  | .protection => 4096
  | .key _ => 64
  | .ward _ => 1024
  | .trim _ => 128
  | .curve _ => 256
  | .mask => 256
  | .repair _ _ => 1

/-- A further write of the record would exceed its limit (R516). -/
def Vault.worn (v : Vault) (k : VKey) : Bool :=
  match v.find k with
  | some r => vaultLimit k ≤ r.writes
  | none => false

/-- Protection record: claim state, stored digest, partner named, partner `DIE_ID` (Table 17.1; layout log entry 20). -/
def protectionBytes (claimed : Bool) (digest : BitVec 64) (partner : Option (BitVec 64)) : List Byte :=
  [BitVec.ofNat 8 (b2n claimed)] ++ beBytes 8 digest.toNat
  ++ [BitVec.ofNat 8 (b2n partner.isSome)] ++ beBytes 8 (partner.getD 0).toNat

/-- The vault is claimed, from the moment the claim writes its record (R526); an unreadable protection record counts as claimed
(R131). -/
def vaultClaimed (v : Vault) : Bool :=
  (v.pulses.any fun p => p.why == .claim) ||
  match v.look .protection with
  | .absent => false
  | .unreadable => true
  | .data bs => byteAt bs 0 == 1

/-- The stored digest, if any (R54). -/
def storedDigest (v : Vault) : Option (BitVec 64) :=
  match v.look .protection with
  | .data bs => some (BitVec.ofNat 64 (fieldAt bs 1 8))
  | _ => none

/-- The seat record's partner (R532). -/
def seatPartner (v : Vault) : Option (BitVec 64) :=
  match v.look .protection with
  | .data bs => if byteAt bs 9 == 1 then some (BitVec.ofNat 64 (fieldAt bs 10 8)) else none
  | _ => none

/-- The ward entry of a hand; a mirrored entry whose write waits judges at once (R567). -/
def wardEntry (v : Vault) (h : Nat) : List Byte :=
  match sparseGet v.wardNext h with
  | some bs => bs
  | none => match v.look (.ward (Fin.ofNat 16 h)) with
    | .data bs => bs
    | _ => zeros 16

/-- Fields of a ward entry (Table 17.2). -/
def wardGroups (e : List Byte) : Nat := fieldAt e 0 4
def wardOwn (e : List Byte) : Nat := fieldAt e 4 3
def wardRead (e : List Byte) : Nat := fieldAt e 8 3
def wardQuota (e : List Byte) : Nat := fieldAt e 12 2
def wardPerm (e : List Byte) : Nat := byteAt e 14

/-- Hand `h` owns output channel `c` (R521). -/
def ownsChan (s : State) (h c : Nat) : Bool := bit (wardOwn (wardEntry s.vault h)) c
/-- Hand `h` may read channel `c`. -/
def readsChan (s : State) (h c : Nat) : Bool := bit (wardRead (wardEntry s.vault h)) c

/-- The commissioning key K_C (R524). -/
def commissioningKey (s : State) : Nat := cmac 0 (0x03 :: beBytes 8 s.dieId.toNat)

/-- The key of a slot, none where the slot authenticates nothing (R465, R519, R524). -/
def slotKey (s : State) (slot : Fin 20) : Option Nat :=
  let none_ := if 16 ≤ slot.val && !vaultClaimed s.vault && s.vault.commission then some (commissioningKey s) else none
  match s.vault.look (.key slot) with
  | .data bs => if beNat bs == 0 then none_ else some (beNat bs)
  | .unreadable => none
  | .absent => none_

/-- A warden slot that holds an installed key. -/
def wardenInstalled (s : State) (w : Fin 4) : Bool :=
  match s.vault.look (.key (Fin.ofNat 20 (16 + w.val))) with
  | .data bs => beNat bs != 0
  | _ => false

/-- The number of warden slots that hold an installed key. -/
def wardenKeys (s : State) : Nat := ((List.finRange 4).filter fun w => wardenInstalled s w).length

/-! ## Trims (R453) -/

/-- G, H (2^-30), O, P (OUT.SET units), low and high alarm (0.1 uA) of a channel. -/
structure Trim where
  g : Int
  h : Int
  o : Int
  p : Int
  low : Int
  high : Int
  deriving DecidableEq, Repr

/-- No record: G = H = 1, O = P = 0, the alarm levels of Table 14.6. -/
def Trim.none : Trim := { g := 2 ^ 30, h := 2 ^ 30, o := 0, p := 0, low := 36000, high := 215000 }

/-- A trim record in the layout of R477. -/
def Trim.ofBytes (bs : List Byte) : Trim where
  g := fieldAt bs 0 4
  h := fieldAt bs 4 4
  o := signed 32 (fieldAt bs 8 4)
  p := signed 32 (fieldAt bs 12 4)
  low := fieldAt bs 16 4
  high := fieldAt bs 20 4

/-- The 24 bytes of R477's X; the alarm levels are zero on a voltage output. -/
def Trim.bytes (t : Trim) (voltage : Bool) : List Byte :=
  beBytes 4 (unsigned 32 t.g) ++ beBytes 4 (unsigned 32 t.h) ++ beBytes 4 (unsigned 32 t.o) ++ beBytes 4 (unsigned 32 t.p)
  ++ (if voltage then zeros 8 else beBytes 4 (unsigned 32 t.low) ++ beBytes 4 (unsigned 32 t.high))

/-- The trims in force on a channel; a committed record is used from the next trick boundary (Table 14.7). -/
def trimOf (v : Vault) (n : Fin 24) : Trim :=
  match sparseGet v.trimOld n.val with
  | some [] => Trim.none
  | some bs => Trim.ofBytes bs
  | none => match v.look (.trim n) with
    | .data bs => Trim.ofBytes bs
    | _ => Trim.none

/-- The raw code that drives a value: (v - O) / G, to nearest (R453). -/
def Trim.code (t : Trim) (v : Int) : Int := if t.g ≤ 0 then v - t.o else roundDiv ((v - t.o) * 2 ^ 30) t.g.toNat

/-- The value a raw code drives: G x code + O. -/
def Trim.value (t : Trim) (c : Int) : Int := roundDiv (t.g * c) (2 ^ 30) + t.o

/-- A readback reading corrected by H and P (R453). -/
def Trim.reading (t : Trim) (r : Int) : Int := roundDiv (t.h * r) (2 ^ 30) + t.p

/-! ## Counters (Table 15.8) -/

/-- The key of a counter: local source, hand or other object, code. -/
def counterKey (src obj code : Nat) : Nat := src * 65536 + obj * 256 + code

/-- A counter's value. -/
def counterOf (s : State) (src obj code : Nat) : BitVec 32 := (sparseGet s.counters (counterKey src obj code)).getD 0

/-- Count one: the counters are 32 bits wide and wrap (R256). -/
def bump (s : State) (src obj code : Nat) : State :=
  let v := counterOf s src obj code + 1
  { s with counters := if v == 0 then sparseDel s.counters (counterKey src obj code)
                       else sparseSet (counterKey src obj code) v s.counters }

/-- Clear the counters of one source (a port reset). -/
def clearCounters (s : State) (src : Nat) : State :=
  { s with counters := s.counters.filter fun e => e.1 / 65536 != src }

/-! ## Events (20_events_and_faults.md) -/

/-- The hands of the plan as a mask. -/
def planMask (s : State) : Nat := 2 ^ handCount s - 1

/-- The hand mask of an event (Table 20.2); never a hand beyond the plan (R595). -/
def handMask (s : State) (code src : Nat) (owner : Option Nat) : Nat :=
  if code == 0x0101 || code == 0x0102 then planMask s
  else if evOwned code then
    match owner with
    | some h => if h < handCount s then 2 ^ h else 0
    | none => 0
  else if src < 24 then
    ((List.range (handCount s)).filter fun h => ownsChan s h src || readsChan s h src).foldl (fun m h => m + 2 ^ h) 0
  else 0

/-- Deliver an event to the merge with the present counter value as its tick (R114, R116). -/
def pushEvent (s : State) (code src : Nat) (owner : Option Nat) (clear : Bool) (rpt : Nat) (detail : List Byte) : State :=
  let e : Event := {
    tick := s.clock.counter, src := BitVec.ofNat 24 ((nodeNumber s).toNat * 256 + src), epoch := s.clock.epoch,
    code := BitVec.ofNat 16 code, hands := BitVec.ofNat 16 (handMask s code src owner), timeQ := timeQ s,
    sev := BitVec.ofNat 2 (evSev code), clear := clear, rpt := rpt, detail := detail }
  s.onEvents fun v => { v with merge := insertEvent e v.merge }

/-- Raise a counting code: at most once per 256 tricks for one source and object (R599). -/
def raiseCounting (s : State) (code src obj : Nat) (owner : Option Nat) (detail : List Byte) : State :=
  let same := fun (r : Rate) => r.code.toNat == code && r.src == src && r.obj == obj
  match s.events.rates.find? same with
  | none =>
    (pushEvent s code src owner false 0 detail).onEvents fun v =>
      { v with rates := v.rates ++ [{ code := BitVec.ofNat 16 code, src := src, obj := obj, at_ := s.clock.age, rpt := 0 }] }
  | some r =>
    if since s r.at_ < rateTicks then
      s.onEvents fun v => { v with rates := v.rates.map fun x => if same x then { x with rpt := x.rpt + 1 } else x }
    else
      (pushEvent s code src owner false r.rpt detail).onEvents fun v =>
        { v with rates := v.rates.map fun x => if same x then { x with rpt := 0, at_ := s.clock.age } else x }

/-- A latch of the code, source and object. -/
def sameLatch (code src obj : Nat) (l : Latch) : Bool := l.code.toNat == code && l.src == src && l.obj == obj

/-- The latching code is raised for its source. -/
def latched (s : State) (code src obj : Nat) : Bool := s.events.latches.any (sameLatch code src obj)

/-- The condition of a latching code begins (R600). -/
def raiseLatching (s : State) (code src obj : Nat) (owner : Option Nat) (detail : List Byte) : State :=
  match s.events.latches.find? (sameLatch code src obj) with
  | none =>
    (pushEvent s code src owner false 0 detail).onEvents fun v =>
      { v with latches := v.latches ++ [{ code := BitVec.ofNat 16 code, src := src, obj := obj, at_ := s.clock.age,
                                          clearing := false, detail := [], rpt := 0 }] }
  | some l =>
    if l.clearing then
      s.onEvents fun v =>
        { v with latches := v.latches.map fun x =>
                  if sameLatch code src obj x then { x with clearing := false, rpt := x.rpt + 1 } else x }
    else s

/-- The clearing condition of a latching code is met (R600). -/
def clearLatching (s : State) (code src obj : Nat) (detail : List Byte) : State :=
  match s.events.latches.find? (sameLatch code src obj) with
  | none => s
  | some l =>
    if l.clearing then s
    else if since s l.at_ < rateTicks then
      s.onEvents fun v =>
        { v with latches := v.latches.map fun x =>
                  if sameLatch code src obj x then { x with clearing := true, detail := detail } else x }
    else
      (pushEvent s code src none true l.rpt detail).onEvents fun v =>
        { v with latches := v.latches.filter fun x => !sameLatch code src obj x }

/-- Raise an event of any code. -/
def raise (s : State) (code src : Nat) (detail : List Byte) (obj : Nat := 0) (owner : Option Nat := none) : State :=
  if evLatching code then raiseLatching s code src obj owner detail
  else if evSev code == 1 || evSev code == 2 then raiseCounting s code src obj owner detail
  else pushEvent s code src owner false 0 detail

/-- The detail of the events 0x07xx, 0x08xx and 0x0Exx: the counter code and its value. -/
def countDetail (s : State) (src obj code : Nat) : List Byte :=
  beBytes 1 code ++ beBytes 4 (counterOf s src obj code).toNat

/-- Count a frame fault of a port and raise its row's event (R256, Table 8.10). -/
def countPort (s : State) (p : Port) (code : Nat) : State :=
  let s := bump s (portSrc p) 0 code
  let row := if code ≤ 2 then 1 else code - 1
  if code ≤ 0x0B then raise s (0x0700 + row) (portSrc p) (countDetail s (portSrc p) 0 code) code else s

/-- Count in a pipeline's counter 0x10 to 0x13 and raise its event (R304). -/
def countPipe (s : State) (p : Port) (code : Nat) : State :=
  let s := bump s (pipeSrc p) 0 code
  raise s (0x0801 + (code - 0x10)) (pipeSrc p) (countDetail s (pipeSrc p) 0 code)

/-- Count a command fault 0x40 to 0x43 and raise its event (R494). -/
def countCmd (s : State) (code : Nat) : State :=
  let s := bump s 0x60 0 code
  raise s (0x0E01 + (code - 0x40)) 0x60 (countDetail s 0x60 0 code)

/-! ## Keepers and targets (R386 to R389, R437, R563) -/

/-- A current output's direction is high: the override, else ALM_SEL, else the profile (R388). -/
def alarmHigh (s : State) (n : Fin 24) : Bool :=
  match (s.chan n).override with
  | some d => d
  | none => match s.straps.almSel with
    | .low => false
    | .high => true
    | .open_ => match (s.chan n).profile with
      | some p => dirDefault p
      | none => false

/-- Drive part of a drive mode (R563). -/
def drivePart : Drive → DrivePart
  | .sharing => .half
  | .carrying => .whole
  | .out => .none

/-- The part of a value a drive part delivers. -/
def partOf (d : DrivePart) (v : Int) : Int :=
  match d with
  | .half => roundDiv v 2
  | .whole => v
  | .none => 0

/-- The keeper configuration the shell computes for a channel (R127, R387). -/
def keeperConfig (s : State) (n : Fin 24) (p : BitVec 8) : KeeperCfg :=
  let t := trimOf s.vault n
  { kind := outKindOf p, safe := safeOf p, dirHigh := alarmHigh s n, low := t.low, high := t.high,
    lowCode := t.code t.low, highCode := t.code t.high, zeroCode := t.code 0, subst := false,
    part := drivePart (s.chan n).drive }

/-- What a keeper in control drives: the target in OUT.SET units and the DAC code, or none for the stage off
(Table 12.8, R389, R444, R564). -/
def keeperDrive (t : Trim) (c : Chan) : Option (Int × Int) :=
  match c.keeper with
  | none => none
  | some k =>
    if c.yielded then none
    else match k.part with
      | .none => none
      | part =>
        match k.kind, k.safe with
        | .voltage, .holdLast => some (t.value c.latch, c.latch)
        | .voltage, _ => some (0, k.zeroCode)
        | _, .holdLast => some (match part with | .half => 2 * t.value c.latch | _ => t.value c.latch, c.latch)
        | _, .zero => none
        | _, .alarm =>
          if k.dirHigh && !k.subst && !c.weakHigh then some (k.high, partOf part k.highCode)
          else some (k.low, partOf part k.lowCode)

/-- A new target with its settling allowance; the checks restart at its end (R437, R441). -/
def setTarget (c : Chan) (now : Tick) (v : Int) : Chan :=
  let a := match c.profile with
    | some p => allowance p
    | none => 2800000
  if c.target == v && c.stageOn then c
  else { c with
    rampFrom := c.target, target := v, rampAt := now, settleEnd := now + BitVec.ofNat 64 a, checks := false,
    shortSince := none, weakSince := none, rangeSince := none, delSince := none, pathSince := none }

/-- The keeper takes control of the output stage at once (R17, R18). -/
def keeperTakes (t : Trim) (now : Tick) (c : Chan) : Chan :=
  match keeperDrive t c with
  | some (v, code) => { setTarget c now v with inControl := true, dac := code, stageOn := true }
  | none => { setTarget c now 0 with inControl := true, dac := 0, stageOn := false }

/-- The channel is an output by its profile in force or by its configured keeper. -/
def isOutChan (c : Chan) : Bool :=
  match c.profile with
  | some p => isOutput p
  | none => c.keeper.isSome

/-- Bank-now from the shell on one channel (R18). -/
def bankNow (s : State) (n : Fin 24) : State :=
  s.onChan n fun c => keeperTakes (trimOf s.vault n) s.clock.age { c with bankShell := true }

/-- Bank-now from the shell on every output channel. -/
def bankNowAll (s : State) : State :=
  s.mapChans fun n c =>
    if isOutChan c then keeperTakes (trimOf s.vault n) s.clock.age { c with bankShell := true } else { c with bankShell := true }

/-- Drive a value from the shell, shaped by R437; the share by the drive mode (R327, R558). -/
def driveValue (t : Trim) (now : Tick) (v : Int) (c : Chan) : Chan :=
  let part := drivePart c.drive
  let c' := setTarget c now v
  match part with
  | .none => { c' with inControl := false, dac := 0, stageOn := false }
  | _ => { c' with inControl := false, dac := partOf part (t.code v), stageOn := true }

/-- The channel is capped (R23, R24, R50, R52, R391, R569, Table 13.8). -/
def capped (c : Chan) : Bool :=
  c.capStrap || c.capBlank || c.capCurve || c.capCross || c.capCoarse || c.capTwin || c.profile.isNone

/-- A debug step of this kind counts one thing done by a unit (R622). -/
def stepCount (s : State) (kind : BitVec 2) (unit : Nat) : State :=
  match s.dbg.step with
  | some (m, k, n + 1) => if k == kind && m.toNat.testBit unit then s.onDebug fun d => { d with step := some (m, k, n) } else s
  | _ => s

/-! ## The idle tick -/

/-- One tick of the counter; in a slew, the first two ticks of each block of 100 advance it by one (R108). -/
def counterTick (c : Clock) : Clock :=
  match c.slew with
  | none => { c with counter := c.counter + 1 }
  | some (S, k) =>
    if S * 100 ≤ k then { c with counter := c.counter + 1 }
    else { c with counter := if k % 100 == 1 then c.counter else c.counter + 1, slew := some (S, k + 1) }

/-- Trick housekeeping of R27, R31 and R132: the count of boundaries at which the next tier's requirements hold. -/
def upCountTick (s : State) : TierState :=
  let nxt := if s.supply.kindle == .joining then Tier.passThrough else s.tiers.tier.up
  let counts := s.supply.kindle == .joining || s.supply.kindle == .up
  if counts && s.tiers.tier != .full && nxt.rank ≤ (allowedTier s).rank then
    { s.tiers with upCount := some (match s.tiers.upCount with | some n => n + 1 | none => 0) }
  else { s.tiers with upCount := none }

/-- One tick with no command (log entry 2): the clocks advance, and the trick count of the tiers. -/
def idleTick (s : State) : State :=
  if s.supply.kindle == .ember then
    s.onClock fun c => { c with counter := c.counter + 120, age := c.age + 120 }
  else if shellRuns s then
    let s := s.onClock fun c => { counterTick c with line := c.line + 1, age := c.age + 1 }
    if atTrick s then { s with tiers := upCountTick s } else s
  else s

end Sys2Proof.Machine
end

