-- ==== Sys2Proof/Machine/Tables.lean ====
section
/-! DEFINITION. Shared operations of the forwarding tables (09_tables_and_learning.md): entries, hash placement
and learning, the prefix store, policers, and the table epoch. -/

namespace Sys2Proof.Machine

/-! ## Entries -/

/-- The 16 bytes of an entry. -/
def entryBytes (e : Entry) : List Byte := beBytes 16 e.toNat

/-- An entry from its bytes. -/
def entryOf (bs : List Byte) : Entry := BitVec.ofNat 128 (beNat (padTo 16 bs))

/-- Byte `i` of an entry. -/
def entryByte (e : Entry) (i : Nat) : Nat := (e.toNat >>> (8 * (15 - i))) % 256

/-- The field of `n` bytes at `i` of an entry. -/
def entryField (e : Entry) (i n : Nat) : Nat := (e.toNat >>> (8 * (16 - i - n))) % 2 ^ (8 * n)

/-- `VALID` of a stream entry (Table 9.2). -/
def seValid (e : Entry) : Bool := bit (entryByte e 0) 7
/-- `ORIGIN` of a stream entry. -/
def seOrigin (e : Entry) : Bool := bit (entryByte e 0) 6

/-- Address of a stream entry (R340). -/
def streamAddr (sid : Nat) : Nat := 16 * sid

/-- The stream entry lookups read; from a switch to its write-back they read the shadow (R289). -/
def streamEntry (s : State) (sid : Nat) : Entry :=
  match s.tables.commit.state, sparseGet s.tables.shadow sid with
  | .switched, some e => e
  | _, _ => s.mem.entry (streamAddr sid)

/-- Write a stream entry at once (R322, R324). -/
def setStreamEntry (s : State) (sid : Nat) (e : Entry) : State :=
  (s.onMem fun m => m.setEntry (streamAddr sid) e).onTables fun t => { t with shadow := sparseDel t.shadow sid }

/-! ## Hash tables -/

/-- `TAG`, `VALID`, `STATIC`, `GEN`, owner, `TSTAMP` and `BUCKET` of a hash entry (Table 9.4). -/
def heTag (e : Entry) : Nat := entryField e 0 6
def heValid (e : Entry) : Bool := bit (entryByte e 6) 7
def heStatic (e : Entry) : Bool := bit (entryByte e 6) 6
def heGen (e : Entry) : Bool := bit (entryByte e 6) 5
def heOwner (e : Entry) : Nat := entryByte e 6 % 16
def heStamp (e : Entry) : Nat := entryField e 8 2
def heBucket (e : Entry) : Nat := entryField e 10 2 % 8192

/-- A hash entry from its fields. -/
def heMake (tag : Nat) (static gen : Bool) (owner stamp bucket : Nat) : Entry :=
  entryOf (beBytes 6 tag ++ beBytes 1 (128 + 64 * b2n static + 32 * b2n gen + owner) ++ [0] ++ beBytes 2 stamp
    ++ beBytes 2 bucket ++ zeros 4)

/-- Address of a way of a bucket (R340, Table 9.1). -/
def wayAddr (p : Port) (b w : Nat) : Nat := (match p with | .ta => 0x100000 | .tb => 0x180000) + (b * 4 + w) * 16

/-- The bucket index of a tag under a seed (R263). -/
def bucketOf (seed : BitVec 16) (tag : Nat) : Nat := (crc32c (beBytes 2 seed.toNat ++ beBytes 6 tag)).toNat % 8192

/-- The present aging unit (R271). -/
def agingUnit (s : State) : Nat := s.clock.age.toNat / 2 ^ 32 % 65536

/-- A learned entry has expired (R272, R273). -/
def heExpired (s : State) (e : Entry) : Bool :=
  !heStatic e && agingLimit s.straps.codes < (agingUnit s + 65536 - heStamp e) % 65536

/-- A place in a pipeline's hash table: a way of a bucket, or an overflow index. -/
inductive HLoc where
  | way (b w : Nat)
  | ovf (i : Nat)
  deriving DecidableEq, Repr

/-- The entry at a place. -/
def hashAt (s : State) (p : Port) : HLoc → Entry
  | .way b w => s.mem.entry (wayAddr p b w)
  | .ovf i => (sparseGet (s.pipe p).overflow i).getD 0

/-- Write the entry at a place. -/
def setHash (s : State) (p : Port) (l : HLoc) (e : Entry) : State :=
  match l with
  | .way b w => s.onMem fun m => m.setEntry (wayAddr p b w) e
  | .ovf i => s.onPipe p fun q => { q with overflow := if e == 0 then sparseDel q.overflow i else sparseSet i e q.overflow }

/-- The places a lookup of a bucket searches: its ways, then the overflow entries with its index (R265). -/
def bucketLocs (s : State) (p : Port) (b : Nat) : List HLoc :=
  (List.range 4).map (HLoc.way b)
  ++ ((s.pipe p).overflow.filter fun e => heValid e.2 && heBucket e.2 == b).map fun e => HLoc.ovf e.1

/-- An entry matches a tag in a pipeline (R265). -/
def heMatches (s : State) (p : Port) (tag : Nat) (e : Entry) : Bool :=
  heValid e && heTag e == tag && (heStatic e || (heGen e == (s.pipe p).gen && !heExpired s e))

/-- The matching place of a tag, if any (R265). -/
def hashFind (s : State) (p : Port) (tag : Nat) : Option HLoc :=
  (bucketLocs s p (bucketOf (s.pipe p).seed tag)).find? fun l => heMatches s p tag (hashAt s p l)

/-- A place R275 may take: invalid, expired, or of an old generation. -/
def hePlaceable (s : State) (p : Port) (e : Entry) : Bool :=
  !heValid e || (!heStatic e && (heGen e != (s.pipe p).gen || heExpired s e))

/-- The entry is in the learned count: learned, of the current generation (R269). -/
def heCounted (s : State) (p : Port) (e : Entry) : Bool := heValid e && !heStatic e && heGen e == (s.pipe p).gen

/-- The lowest overflow index R275 may take. -/
def ovfFree (s : State) (p : Port) : Option Nat :=
  (List.range 1024).find? fun i => hePlaceable s p ((sparseGet (s.pipe p).overflow i).getD 0)

/-- Candidates of an eviction (R276). -/
def evictCands (s : State) (p : Port) (b : Nat) : List HLoc :=
  let ok := fun l => let e := hashAt s p l; heValid e && !heStatic e
  let ways := ((List.range 4).map (HLoc.way b)).filter ok
  if ways.isEmpty then ((bucketLocs s p b).drop 4).filter ok else ways

/-- Age of a learned entry in units (R272). -/
def heAge (s : State) (e : Entry) : Nat := (agingUnit s + 65536 - heStamp e) % 65536

/-- The oldest of a list of places, ties to the first (R276). -/
def oldest (s : State) (p : Port) : List HLoc → Option HLoc
  | [] => none
  | l :: r => match oldest s p r with
    | some m => if heAge s (hashAt s p l) < heAge s (hashAt s p m) then some m else some l
    | none => some l

/-- Where an entry of bucket `b` goes: the place, and whether it evicts (R275, R276). -/
def hashPlace (s : State) (p : Port) (b : Nat) : Option (HLoc × Bool) × State :=
  match ((List.range 4).map (HLoc.way b)).find? fun l => hePlaceable s p (hashAt s p l) with
  | some l => (some (l, false), s)
  | none => match ovfFree s p with
    | some i => (some (.ovf i, false), s)
    | none =>
      let c := evictCands s p b
      if c.isEmpty then (none, s)
      else if (evictOf s.straps.codes).1 then
        match s.draw with
        | (v, s') => ((c.drop (v.toNat % c.length)).head?.map fun l => (l, true), s')
      else ((oldest s p c).map fun l => (l, true), s)

/-- Change of a learned count, never below zero. -/
def countLearned (s : State) (p : Port) (d : Int) : State :=
  s.onPipe p fun q => { q with learned := (max 0 ((q.learned : Int) + d)).toNat }

/-- The learning step of R268 for a source that passed R267. -/
def learn (s : State) (p : Port) (tag : Nat) : State :=
  let b := bucketOf (s.pipe p).seed tag
  match hashFind s p tag with
  | some l =>
    let e := hashAt s p l
    if heStatic e || heStamp e == agingUnit s then s
    else setHash s p l (heMake tag false (heGen e) 0 (agingUnit s) (heBucket e))
  | none =>
    if (lrnOf s.straps.codes).1 ≤ (s.pipe p).learned then countPipe s p 0x10
    else match hashPlace s p b with
      | (none, s) => countPipe s p 0x11
      | (some (l, evicts), s) =>
        let old := hashAt s p l
        let kept := heCounted s p old
        let s := setHash s p l (heMake tag false (s.pipe p).gen 0 (agingUnit s) b)
        let s := if kept then s else countLearned s p 1
        if evicts then countPipe s p 0x12 else s

/-! ## Prefix store (R279 to R284) -/

/-- Fields of a prefix record (Table 9.6). -/
def prPrefix (e : Entry) : Nat := entryField e 0 4
def prLen (e : Entry) : Nat := entryByte e 4 % 64
def prKind (e : Entry) : Nat := entryByte e 4 / 64
def prEgress (e : Entry) : Nat := entryByte e 5 % 8
def prPolicer (e : Entry) : Nat := entryByte e 6 % 64
def prOwner (e : Entry) : Nat := entryByte e 7 % 16
def prNode (e : Entry) : Nat := entryField e 8 2
def prStamp (e : Entry) : Nat := entryField e 10 2

/-- The order of the store: `PREFIX`, then `PLEN`, then `KIND`. -/
def prKey (e : Entry) : Nat := (prPrefix e * 64 + prLen e) * 4 + prKind e

/-- Precedence of kinds: own, static, learned (R281). -/
def prRank (e : Entry) : Nat :=
  match prKind e with
  | 0 => 2
  | 2 => 1
  | _ => 0

/-- A record put into the store in order; one of the same prefix and kind is replaced. -/
def prInsert (e : Entry) : List Entry → List Entry
  | [] => [e]
  | x :: xs =>
    if prKey e < prKey x then e :: x :: xs
    else if prKey e == prKey x then e :: xs
    else x :: prInsert e xs

/-- A record covers an address. -/
def prCovers (addr : Nat) (e : Entry) : Bool := addr >>> (32 - prLen e) == prPrefix e >>> (32 - prLen e)

/-- The better of two records for an address: the longer, then the higher precedence. -/
def prBetter (a b : Entry) : Bool :=
  prLen b < prLen a || (prLen a == prLen b && prRank b ≤ prRank a)

/-- Longest-prefix match of an address (R280, R281). -/
def lpmFind (store : List Entry) (addr : Nat) : Option Entry :=
  store.foldl (fun best e => if prCovers addr e then
    (match best with | some b => if prBetter b e then some b else some e | none => some e) else best) none

/-- Nodes stage k needs: distinct heads of the prefixes that reach it (R280). -/
def trieNodes (store : List Entry) (minLen shift : Nat) : Nat :=
  ((store.filter fun e => minLen ≤ prLen e).map fun e => prPrefix e >>> shift).dedup.length

/-- The store and every stage's nodes fit (R284, Table 9.7). -/
def trieFits (store : List Entry) : Bool :=
  store.length ≤ 16384 && trieNodes store 9 24 ≤ 256 && trieNodes store 15 18 ≤ 512
  && trieNodes store 21 12 ≤ 1024 && trieNodes store 27 6 ≤ 512

/-- Prefix and length of a change to table 0x04 (R483). -/
def changePrefix (c : Change) : Nat × Nat := (c.key.toNat / 2 ^ 16 % 2 ^ 32, c.key.toNat % 256)

/-- Trie nodes of stage k, 1 to 4, by the address bits that lead to them (Table 9.7). -/
def stageNodes (store : List Entry) (k : Nat) : List Nat :=
  ((store.filter fun e => 3 + 6 * k ≤ prLen e).map fun e => prPrefix e >>> (30 - 6 * k)).dedup

/-- Nodes of stage k that a list of changes copies or makes: those in which a prefix ends, and the parents of new nodes. Stage 0 is
one node whose slots are written at the switch. -/
def stageCopies (store : List Entry) (l : List Change) (k : Nat) : List Nat :=
  (l.filterMap fun c =>
    let p := changePrefix c
    let last := if p.2 ≤ 8 then 0 else (p.2 - 3) / 6
    let child := p.1 >>> (30 - 6 * (k + 1))
    if c.table == 4 && (last == k || (k < last && c.entry.isSome && !(stageNodes store (k + 1)).contains child)) then
      some (p.1 >>> (30 - 6 * k))
    else none).dedup

/-- The nodes to be copied do not exceed the free nodes (R289). -/
def copiesFit (store : List Entry) (l : List Change) : Bool :=
  [(1, 256), (2, 512), (3, 1024), (4, 512)].all fun e =>
    (stageCopies store l e.1).length + (stageNodes store e.1).length ≤ e.2

/-- The chip's own record (R281). -/
def ownPrefix (place : BitVec 32) : Entry :=
  entryOf (beBytes 4 place.toNat ++ [26, 4] ++ zeros 10)

/-- A learned record (R282). -/
def learnedPrefix (place node stamp : Nat) (p : Port) : Entry :=
  entryOf (beBytes 4 place ++ beBytes 1 (64 + 26) ++ beBytes 1 (portNum p + 1) ++ [0, 0] ++ beBytes 2 node
    ++ beBytes 2 stamp ++ zeros 4)

/-! ## Policers (R260, R261) -/

/-- Fields of a policer record (Table 9.3). -/
def poValid (e : Entry) : Bool := bit (entryByte e 0) 7
def poOwner (e : Entry) : Nat := entryByte e 0 % 16
def poRate (e : Entry) : Nat := entryField e 2 2
def poBurst (e : Entry) : Nat := entryField e 4 4
def poTokens (e : Entry) : Nat := entryField e 8 4
def poDrop (e : Entry) : Nat := entryField e 12 4

/-- A policer record with its tokens and drops replaced. -/
def poSet (e : Entry) (tokens drops : Nat) : Entry :=
  entryOf ((entryBytes e).take 8 ++ beBytes 4 tokens ++ beBytes 4 drops)

/-- The policer at an index; index 0 names none. -/
def policerAt (s : State) (i : Nat) : Entry := if i == 0 then 0 else (sparseGet s.tables.policers i).getD 0

/-- Charge a frame to a policer: whether it passes, and the state after (R261). -/
def policerCharge (s : State) (p : Port) (i cost : Nat) : Bool × State :=
  let e := policerAt s i
  if !poValid e then (true, s)
  else if cost ≤ poTokens e then
    (true, s.onTables fun t => { t with policers := sparseSet i (poSet e (poTokens e - cost) (poDrop e)) t.policers })
  else
    let d := (poDrop e + 1) % 2 ^ 32
    let s := s.onTables fun t => { t with policers := sparseSet i (poSet e (poTokens e) d) t.policers }
    (false, raise s 0x0805 (pipeSrc p) (beBytes 1 i ++ beBytes 4 d) i (some (poOwner e)))

/-! ## The table epoch (R286) -/

/-- Invert the epoch; while the previous inversion has not drained, the new one waits. -/
def invertEpoch (s : State) (why : InvWhy) : State :=
  s.onTables fun t => match t.draining with
    | none => { t with epoch := !t.epoch, draining := some (why, s.clock.age) }
    | some _ => { t with waiting := t.waiting ++ [why] }

/-- A frame of a port that was captured with epoch `e` is still inside (R286). -/
def insidePort (q : PortState) (e : Bool) : Bool :=
  (match q.rx with | some r => r.meta_.epoch == e | none => false)
  || (match q.due with | some d => d.epoch == e | none => false)
  || q.hold.any (fun d => d.epoch == e)
  || (match q.tx with | some x => x.sent == 0 && x.epoch == e | none => false)

/-- The old epoch has drained: the fence has passed and no frame of it is inside (R286). -/
def epochDrained (s : State) : Bool :=
  match s.tables.draining with
  | none => false
  | some (_, f) => 4096 ≤ since s f && !insidePort s.portA (!s.tables.epoch) && !insidePort s.portB (!s.tables.epoch)

/-- A change is a change of this key. -/
def changeOf (tbl : Nat) (key : BitVec 64) (c : Change) : Bool := c.table == tbl && c.key == key

/-- Changes of the running commit that are not prepared for a switch: they still lie in the staging area (R258). -/
def heldChanges (t : Tables) : List Change :=
  match t.commit.state with
  | .preparing => (if t.commit.prepared then t.commit.batches.drop 1 else t.commit.batches).flatten
  | .switched => (t.commit.batches.drop 1).flatten
  | _ => []

/-- Every batch not switched is staged again (R291, R300); a newer change of the same key stays. -/
def commitReturn (t : Tables) : Tables :=
  let back := t.commit.batches.flatten.filter fun c => !t.staged.any (changeOf c.table c.key)
  { t with staged := t.staged ++ back, commit := { t.commit with state := .staging, batches := [], prepared := false } }

/-- Discard the changes that are not prepared for a switch (R258): all of them, or on a hand's reset that hand's (R301).
A batch that is prepared or switched completes; a commit with nothing left is Idle. -/
def discardStaged (t : Tables) (mine : Fin 16 → Bool) : Tables :=
  let c := t.commit
  let kept := match c.state with
    | .switched => c.batches.take 1
    | .preparing => if c.prepared then c.batches.take 1 else []
    | _ => []
  let commit :=
    if !mine c.hand || c.state == .done || c.state == .idle then c
    else if kept.isEmpty then { Commit.idle with hand := c.hand }
    else { c with batches := kept }
  { t with staged := t.staged.filter fun x => !mine x.hand, commit := commit }

/-- A topology flush falls due (R277). -/
def topologyFlushDue (s : State) : State := s.onTables fun t => { t with flushDue := true }

end Sys2Proof.Machine
end

