-- ==== Sys2Proof/Machine/Queues.lean ====
section
/-! DEFINITION. Shared operations of the queue and hand manager (10_queues_and_hands.md): queue descriptors,
cells and quotas, frames put into queues, hand faults, streams, and the event queues. -/

namespace Sys2Proof.Machine

/-! ## Queues and descriptors -/

/-- The plan in force, none while HANDS is ambiguous. -/
def planIn (s : State) : Option Nat := planOf s.straps.codes

/-- The hand that owns a queue of 256 or more (R305). -/
def queueHand (s : State) (q : Nat) : Option Nat :=
  match planIn s with
  | some p => if 256 ≤ q then planOwner p q else none
  | none => none

/-- A queue that exists (R305, Table 10.1). -/
def queueExists (s : State) (q : Nat) : Bool :=
  if 256 ≤ q then (queueHand s q).isSome
  else if q == 0 || q == 64 || q == 65 || (66 ≤ q && q ≤ 69) then true
  else if 16 ≤ q && q < 64 then q % 16 < handCount s
  else false

/-- Default settings of a queue (R310, Table 10.1). -/
def qDefault (q : Nat) : QSet where
  cls := if 256 ≤ q then 5 else if 66 ≤ q && q ≤ 69 then 7 else 6
  rate := 0
  paused := false
  credit := 0

/-- Settings of a queue; the queues of a quarantined hand are paused (R316). -/
def qSetOf (s : State) (q : Nat) : QSet :=
  let v := (sparseGet s.queues.settings q).getD (qDefault q)
  let quarantined := match queueHand s q with
    | some h => (s.hand (Fin.ofNat 16 h)).state == .quarantined
    | none => false
  { v with paused := v.paused || quarantined }

/-- Store settings; those equal to the default are not listed. -/
def setQSet (s : State) (q : Nat) (v : QSet) : State :=
  s.onQueues fun u => { u with settings := if v == qDefault q then sparseDel u.settings q else sparseSet q v u.settings }

/-- Frames in a cell queue. -/
def qFrames (s : State) (q : Nat) : List QFrame := (sparseGet s.queues.frames q).getD []

/-- Store the frames of a cell queue; an empty queue is not listed. -/
def setQFrames (s : State) (q : Nat) (l : List QFrame) : State :=
  s.onQueues fun u => { u with frames := if l.isEmpty then sparseDel u.frames q else sparseSet q l u.frames }

/-- Cells a frame occupies (R308). -/
def cellsOf (payLen : Nat) : Nat := (payLen + 96 + 255) / 256

/-- Cells of a list of frames. -/
def cellsIn (l : List QFrame) : Nat := (l.map fun f => cellsOf f.payload.length).sum

/-- Cells a hand's queues hold. -/
def handCells (s : State) (h : Nat) : Nat :=
  ((s.queues.frames.filter fun e => queueHand s e.1 == some h).map fun e => cellsIn e.2).sum

/-- A hand's quota (Table 2.5). -/
def handQuota (s : State) (h : Nat) : Nat :=
  match planIn s with
  | some p => (planCells p).getD h 0
  | none => 0

/-- Cells of the shared pool in use: command input, responses, announcements, trump frames (R306). -/
def poolCells (s : State) : Nat :=
  ((s.queues.frames.filter fun e => e.1 < 256).map fun e => cellsIn e.2).sum
  + ((List.finRange 16).map fun h => ((s.hand h).input.map fun f => cellsOf f.payload.length).sum).sum

/-- The shared pool has room for a frame. -/
def poolHas (s : State) (payLen : Nat) : Bool := poolCells s + cellsOf payLen ≤ 256

/-! ## Hand faults (R315, R316, R338) -/

/-- Count in a hand's counter 0x20 to 0x23 and raise its event where it has one (R338). -/
def countHand (s : State) (h : Fin 16) (code : Nat) : State :=
  let s := bump s 0x52 h.val code
  let d := beBytes 1 h.val ++ countDetail s 0x52 h.val code
  match code with
  | 0x20 => raise s 0x0904 0x52 d h.val (some h.val)
  | 0x21 => raise s 0x0905 0x52 d h.val (some h.val)
  | 0x23 => raise s 0x0906 0x52 d h.val (some h.val)
  | _ => s

/-- A hand fault: a Clean hand becomes Faulted (Table 10.3). -/
def handFault (s : State) (h : Fin 16) (code : Nat) : State :=
  let s := countHand s h code
  if (s.hand h).state == .clean then
    (raise s 0x0901 0x52 (beBytes 1 h.val ++ beBytes 1 code) h.val (some h.val)).onHand h fun r => { r with state := .faulted }
  else s

/-- The trick index of the age clock, for the window of Table 10.3 (log entry 17). -/
def ageTrick (s : State) : Nat := s.clock.age.toNat / trickTicks

/-- A quota refusal: a hand fault, and quarantine after 64 distinct tricks in 4,096 (Table 10.3, R316). -/
def quotaRefusal (s : State) (h : Fin 16) : State :=
  if (s.hand h).state == .quarantined || (s.hand h).state == .resetting then s
  else
    let s := handFault s h 0x20
    let now := ageTrick s
    let rs := (s.hand h).refusals.filter fun t => now < t + 4096
    let rs := if rs.head? == some now then rs else now :: rs
    if rs.length < 64 then s.onHand h fun r => { r with refusals := rs }
    else
      let s := s.onHand h fun r => { r with state := .quarantined, refusals := [] }
      raise s 0x0902 0x52 (beBytes 1 h.val) h.val (some h.val)

/-! ## Frames the chip originates -/

/-- `SRC_PLACE`: the place, or zero while there is none (Table 8.1, R45). -/
def ownPlace (s : State) : BitVec 32 := (placeOf s.straps.codes).getD 0

/-- The header of a frame the chip originates now (Table 8.1). `CARRY_B` and `BT_SLOT` are set when a port sends it. -/
def ownHeader (s : State) (akind dest tclass hand seq payLen : Nat) : Header where
  version := 1
  tclass := BitVec.ofNat 3 tclass
  btSlot := false
  akind := BitVec.ofNat 3 akind
  defer := false
  hand := BitVec.ofNat 4 hand
  hopCount := if akind == 3 then 1 else 64
  payLen := BitVec.ofNat 16 payLen
  carryB := 0
  dest := BitVec.ofNat 48 dest
  srcTag := ownTag s
  srcPlace := ownPlace s
  seq := BitVec.ofNat 32 seq
  originTick := s.clock.counter
  epoch := s.clock.epoch
  timeQ := timeQ s
  rsv36 := 0
  srcNode := nodeNumber s
  rsv := zeros 17

/-- A queued frame of that header and payload; the first cell it takes is a free value (R308). -/
def mkQFrame (s : State) (hdr : Header) (payload : List Byte) (sid : Nat) : QFrame × State :=
  let r := s.draw
  ({ hdr := hdr, payload := payload, cell := r.1, ta := .waiting, tb := .waiting, debited := false,
     sid := BitVec.ofNat 16 sid, direct := false }, r.2)

/-- Put a frame into a hand's queue, under its quota (R309, R316). True when it is taken. -/
def enqueueHand (s : State) (q : Nat) (f : QFrame) : Bool × State :=
  match queueHand s q with
  | none => (false, s)
  | some h =>
    let hf := Fin.ofNat 16 h
    if (s.hand hf).state == .quarantined || (s.hand hf).state == .resetting then (false, s)
    else if handQuota s h < handCells s h + cellsOf f.payload.length then (false, quotaRefusal s hf)
    else (true, setQFrames s q (qFrames s q ++ [f]))

/-- Put a node frame into its queue, or hold it while the shared pool has no room (R306). Responses are also held
while their queue has 8 frames. A held announcement is replaced by a newer one. -/
def enqueueNode (s : State) (q : Nat) (f : QFrame) : State :=
  let full := 32 ≤ q && q < 48 && 8 ≤ (qFrames s q).length
  if poolHas s f.payload.length && !full && !(s.queues.heldOut.any fun e => e.1 == q) then
    setQFrames s q (qFrames s q ++ [f])
  else
    s.onQueues fun u =>
      { u with heldOut := (if q == 65 then u.heldOut.filter fun e => e.1 != 65 || e.2.ta != f.ta || e.2.tb != f.tb || e.2.direct || f.direct
                            else u.heldOut) ++ [(q, f)] }

/-- Discard every frame of a queue. -/
def flushQueue (s : State) (q : Nat) : State := setQFrames s q []

/-- A port has taken or declined a queued frame for good. -/
def Taken.settled : Taken → Bool
  | .taken | .declined => true
  | _ => false

/-- Both ports have taken or declined the frame (R285). -/
def QFrame.done (f : QFrame) : Bool := f.ta.settled && f.tb.settled

/-- What a port has done with a frame. -/
def QFrame.at_ (f : QFrame) : Port → Taken
  | .ta => f.ta
  | .tb => f.tb

/-- Set what a port has done with a frame. -/
def QFrame.mark (f : QFrame) (p : Port) (t : Taken) : QFrame :=
  match p with
  | .ta => { f with ta := t }
  | .tb => { f with tb := t }

/-- Change every queued frame; frames that both ports have taken or declined leave their queues (R285). -/
def mapFrames (s : State) (g : Nat → QFrame → QFrame) : State :=
  s.onQueues fun u =>
    { u with frames := (u.frames.map fun e => (e.1, (e.2.map (g e.1)).filter fun f => !f.done)).filter fun e => !e.2.isEmpty }

/-- A port declines every queued frame it has not taken or declined (R140, R285). -/
def declineAll (s : State) (p : Port) : State :=
  mapFrames s fun _ f => if (f.at_ p).settled then f else f.mark p .declined

/-- A frame of an opcode's response is still held or queued (R137, R329). -/
def responseOut (s : State) (hand opcode : Nat) : Bool :=
  let is := fun (f : QFrame) => fieldAt f.payload 2 2 == opcode
  (qFrames s (32 + hand)).any is || s.queues.heldOut.any fun e => e.1 == 32 + hand && is e.2

/-- `KEY_ID` as a number. -/
def keyId (f : CmdFrame) : Nat := byteAt f.payload 1

/-- The key slot of a command. -/
def keySlot (f : CmdFrame) : Fin 20 := Fin.ofNat 20 (keyId f)

/-- Check 1 without the key (R463, Table 15.2). -/
def envelopeBad (s : State) (f : CmdFrame) : Bool :=
  handCount s ≤ f.hand.val || f.payload.length < 16 || fieldAt f.payload 4 2 != f.payload.length - 16
  || byteAt f.payload 0 != 1 || 20 ≤ keyId f || (keyId f < 16 && keyId f != f.hand.val) || fieldAt f.payload 6 2 != 0

/-- The slot holds a record that cannot be read: its commands count in `CMD_AUTH` (Table 15.9). -/
def slotUnreadable (s : State) (slot : Fin 20) : Bool := s.vault.look (.key slot) == .unreadable

/-- Check 1 of Table 15.2: the envelope, or a slot that holds no key (R463, R465; log entry 122). -/
def checkOneBad (s : State) (f : CmdFrame) : Bool :=
  envelopeBad s f || (!slotUnreadable s (keySlot f) && (slotKey s (keySlot f)).isNone)

/-- A command frame for a pipeline's fixed responder: its buffer takes it while it is empty (R479). -/
def fixedTake (s : State) (p : Port) (f : CmdFrame) : State :=
  if (s.pipe p).fixedBuf.isNone then s.onPipe p fun q => { q with fixedBuf := some f } else countCmd s 0x43

/-! ## Streams (R317 to R324) -/

/-- The open stream of an ID. -/
def streamOf (s : State) (sid : Nat) : Option Stream := s.streams.find? fun x => x.id.toNat == sid

/-- Update a stream. -/
def onStream (s : State) (sid : Nat) (f : Stream → Stream) : State :=
  { s with streams := s.streams.map fun x => if x.id.toNat == sid then f x else x }

/-- The stream payload of the instants collected (Table 8.4, R237). -/
def streamPayload (x : Stream) (rows : List (Tick × List (Nat × Sample))) : List Byte :=
  let n := ((List.range 24).filter fun c => x.chmap.toNat.testBit c).length
  let first := match rows with
    | [] => 0
    | r :: _ => r.1.toNat
  beBytes 3 x.chmap.toNat ++ beBytes 1 n ++ beBytes 2 rows.length ++ beBytes 8 first ++ beBytes 4 x.period ++ [0, 0]
  ++ (rows.map fun r => (r.2.map fun w => beBytes 3 w.2.value.toNat ++ [w.2.tag]).flatten).flatten

/-- Build the frame of a stream's first `n` collected instants and queue it on its queue (R323). -/
def buildStreamFrame (s : State) (x : Stream) (n : Nat) : State :=
  let pay := streamPayload x (x.rows.take n)
  let hdr := ownHeader s 2 x.id.toNat (qSetOf s x.queue.toNat).cls.toNat x.hand.val x.seq.toNat pay.length
  let r := mkQFrame s hdr pay x.id.toNat
  let q := enqueueHand r.2 x.queue.toNat r.1
  onStream q.2 x.id.toNat fun y => { y with rows := y.rows.drop n, seq := if q.1 then y.seq + 1 else y.seq }

/-- Instants of a row are complete: every channel of the map has its sample. -/
def rowComplete (x : Stream) (row : List (Nat × Sample)) : Bool :=
  row.length == ((List.range 24).filter fun c => x.chmap.toNat.testBit c).length

/-- Close a stream: no instant after now; a frame already begun is queued with the instants it holds (R324). -/
def closeStream (s : State) (sid : Nat) : State :=
  match streamOf s sid with
  | none => s
  | some x =>
    match x.closing with
    | some _ => s
    | none =>
      let s := onStream s sid fun y => { y with closing := some s.clock.counter, rows := y.rows.filter fun r => rowComplete x r.2 }
      match streamOf s sid with
      | some y => if y.rows.isEmpty then s else buildStreamFrame s y y.rows.length
      | none => s

/-- Close a stream with its stream-closed event (code 0x0909). -/
def closeStreamEvent (s : State) (sid cause ch : Nat) : State :=
  match streamOf s sid with
  | none => s
  | some x =>
    if x.closing.isSome then s
    else
      let s := closeStream s sid
      raise s 0x0909 0x52 (beBytes 2 sid ++ beBytes 1 cause ++ beBytes 1 ch) sid (some x.hand.val)

/-- Close every open stream (R317). -/
def closeAllStreams (s : State) (cause : Nat) : State :=
  s.each (s.streams.map fun x => x.id.toNat) fun sid s => closeStreamEvent s sid cause 0xFF

/-- The streams open on a channel; a closed one no longer holds the channel. -/
def streamsOn (s : State) (n : Nat) : List Stream :=
  s.streams.filter fun x => x.closing.isNone && x.chmap.toNat.testBit n

/-- A channel whose last stream has closed has a free grid (R321). -/
def freeGrids (s : State) : State :=
  s.mapChans fun n c => if (streamsOn s n.val).isEmpty then { c with grid := none } else c

/-! ## Event queues (R595 to R598) -/

/-- Address of an event window (Table 11.5): hands 0 to 15, then 16 for the node. -/
def eventBase (k : Nat) : Nat := if k < 16 then 0x400000 + 256 * (1024 + 32 * k) else 0x400000 + 256 * 1536

/-- Records an event window holds. -/
def eventCap (k : Nat) : Nat := if k < 16 then 256 else 2048

/-- Oldest record's index and records held of a window. -/
def eventHead (s : State) (k : Nat) : Nat × Nat :=
  if k < 16 then let r := s.hand (Fin.ofNat 16 k); (r.evHead, r.evCount) else (s.queues.evHead, s.queues.evCount)

/-- Store a window's counts. -/
def setEventHead (s : State) (k head count : Nat) : State :=
  if k < 16 then s.onHand (Fin.ofNat 16 k) fun r => { r with evHead := head, evCount := count }
  else s.onQueues fun u => { u with evHead := head, evCount := count }

/-- Raise the wrap count of a window whose write position has wrapped (R350). -/
def windowWrap (m : Memory) (w : Nat) : Memory :=
  match sparseGet m.windows w with
  | some d => { m with windows := sparseSet w (d - d % 256 + (d + 1) % 256) m.windows }
  | none => m

/-- Write one record at the end of a window that has room. -/
def pushRecord (s : State) (k : Nat) (r : List Byte) : State :=
  let hc := eventHead s k
  let pos := (hc.1 + hc.2) % eventCap k
  let s := s.onMem fun m => m.writeN (eventBase k + 32 * pos) (padTo 32 r)
  let s := if pos + 1 == eventCap k then s.onMem fun m => windowWrap m (if k < 16 then k else 0x010) else s
  setEventHead s k hc.1 (hc.2 + 1)

/-- Count an event as lost for a queue: its records are lost, and `EV_LOST` rises (R596, R604). -/
def loseEvent (s : State) (k n : Nat) : State :=
  let now := s.clock.counter
  if k < 16 then
    let h := Fin.ofNat 16 k
    let s := s.onHand h fun r =>
      { r with lost := r.lost + n, lostFirst := if r.lost == 0 then now else r.lostFirst, lostLast := now }
    handFault s h 0x22
  else
    (bump s 0x52 0x10 0x22).onQueues fun u =>
      { u with lost := u.lost + n, lostFirst := if u.lost == 0 then now else u.lostFirst, lostLast := now }

/-- Put the records of one event into a window: all of them or none; the last free position is kept for an
event-lost record (R593, R596). -/
def pushEventRecords (s : State) (k : Nat) (rs : List (List Byte)) : State :=
  if (eventHead s k).2 + rs.length < eventCap k then s.each rs fun r s => pushRecord s k r
  else loseEvent s k rs.length

/-- The event-lost record of a queue (R597): 32 bytes. -/
def lostRecord (s : State) (k count : Nat) (first last : Tick) : List Byte :=
  beBytes 8 first.toNat ++ beBytes 3 ((nodeNumber s).toNat * 256 + 0x52) ++ beBytes 1 s.clock.epoch.toNat
  ++ beBytes 2 0x0907 ++ beBytes 2 (if k < 16 then 2 ^ k else 0) ++ beBytes 1 ((timeQ s).toNat * 16 + 4) ++ [0]
  ++ beBytes 2 (min count 0xFFFF) ++ beBytes 8 last.toNat ++ zeros 4

/-- Place the event-lost record of a queue that has lost records and has room (R597). -/
def placeLost (s : State) (k : Nat) : State :=
  if k < 16 then
    let h := Fin.ofNat 16 k
    let r := s.hand h
    if r.lost == 0 then s
    else (pushRecord s k (lostRecord s k r.lost r.lostFirst r.lostLast)).onHand h fun r => { r with lost := 0 }
  else
    let u := s.queues
    if u.lost == 0 then s
    else (pushRecord s k (lostRecord s k u.lost u.lostFirst u.lostLast)).onQueues fun u => { u with lost := 0 }

/-- The queues can take records: the windows are set, group 2 works, and the queue manager is not halted (R598).
The queue manager is bit 2 of `DC_MASK` (Table 21.5). -/
def queuesTake (s : State) : Bool :=
  s.queues.ready && works s (.group 2) && !halted s 2

end Sys2Proof.Machine
end

