-- ==== Sys2Proof/Machine/Links.lean ====
section
/-! DEFINITION. Shared operations of the trunk line (06_trunk_line.md): bit tables, margins, link-control messages,
and the ends of a sounding. -/

namespace Sys2Proof.Machine

/-! ## Bins and bit tables -/

/-- The 15 pilot bins (Table 6.1). -/
def isPilot (k : Nat) : Bool := k % 32 == 16

/-- The bins of the 471 data carriers, by ordinal (Table 6.1). -/
def dataBins : List Nat := ((List.range 486).map (· + 6)).filter fun k => !isPilot k

/-- The default table: 2 bits on each header carrier (R171). -/
def defaultTable : BitTable := List.replicate 232 2 ++ List.replicate 239 0

/-- B, the bits per symbol of a table (R161). -/
def tableB (t : BitTable) : Nat := t.sum

/-- The transmit table of a slot. -/
def PortState.txTable (q : PortState) (slot : Bool) : BitTable := if slot then q.tx1 else q.tx0

/-- The receive table of a slot. -/
def PortState.rxTable (q : PortState) (slot : Bool) : BitTable := if slot then q.rx1 else q.rx0

/-- Set the transmit table of a slot. -/
def PortState.setTx (q : PortState) (slot : Bool) (t : BitTable) : PortState :=
  if slot then { q with tx1 := t } else { q with tx0 := t }

/-- Set the receive table of a slot. -/
def PortState.setRx (q : PortState) (slot : Bool) (t : BitTable) : PortState :=
  if slot then { q with rx1 := t } else { q with rx0 := t }

/-- B of the active receive table, `RATE_B` (Table 6.10). -/
def rateB (q : PortState) : Nat := tableB (q.rxTable q.rxSlot)

/-- SNR_REQ(b) in 0.01 dB (Table 6.8). -/
def snrReq (b : Nat) : Nat :=
  [0, 1250, 1727, 2095, 2426, 2741, 3049, 3354, 3657, 3958, 4260, 4561, 4862].getD b 0

/-- The margin M of a `MARGIN` code in 0.01 dB (Table 6.8). -/
def marginDb (m : BitVec 2) : Nat := 300 * (m.toNat + 1)

/-- The entry R177 gives an SNR in 0.25 dB under a margin in 0.01 dB; 255 is not measured. -/
def entryFor (snr m : Nat) : Nat :=
  if snr == 255 then 0
  else ((List.range 13).filter fun b => b != 0 && snrReq b + m ≤ snr * 25).foldl max 0

/-- The table R177 gives a list of SNRs. -/
def tableFor (snr : List Nat) (m : Nat) : BitTable := snr.map fun v => entryFor v m

/-- The margin of a carrier in 0.01 dB (R181). -/
def carrierMargin (snr entry : Nat) : Int := (snr * 25 : Int) - snrReq entry

/-- The worst margin over the loaded, measured carriers. -/
def worstMargin (snr : List Nat) (t : BitTable) : Option Int :=
  (snr.zip t).foldl (fun w e =>
    if e.2 == 0 || e.1 == 255 then w
    else let m := carrierMargin e.1 e.2
         match w with
         | some v => some (min v m)
         | none => some m) none

/-- `LQ` from the worst loaded-carrier margin (Table 6.10). -/
def lqOf (w : Option Int) : BitVec 8 :=
  match w with
  | some m => if m ≤ 24 then 1 else BitVec.ofNat 8 (min 255 (m.toNat / 25))
  | none => 1

/-- The worst header carrier: its ordinal and SNR. -/
def worstHeader (snr : List Nat) : Nat × Nat :=
  ((List.range 232).map fun i => (i, snr.getD i 255)).foldl (fun w e => if e.2 < w.2 then e else w) (0, 256)

/-- A header carrier lies below SNR_REQ(2) plus `m`. -/
def headerBelow (snr : List Nat) (m : Nat) : Bool := (snr.take 232).any fun v => v != 255 && v * 25 < snrReq 2 + m

/-- D_MAX of a port in 1/64 tick (R165). -/
def dMax (q : PortState) : Nat := (if q.eMode then 6144 else 3144) * 64

/-! ## Link-local messages (Table 8.3) -/

/-- A link-local message: kind, length, body (R234). -/
def llMessage (kind : Nat) (body : List Byte) : List Byte :=
  BitVec.ofNat 8 kind :: BitVec.ofNat 8 body.length :: body

/-- Originate a link-local message on a port, to leave at a line time or later. -/
def sendLl (s : State) (p : Port) (kind : Nat) (body : List Byte) (at_ : Tick) : State :=
  s.onPort p fun q => { q with llOut := q.llOut ++ [(at_, llMessage kind body)] }

/-- Originate a link-control message now (R172). -/
def sendLc (s : State) (p : Port) (body : List Byte) : State := sendLl s p 2 body s.clock.line

/-- Discard a link-control message and count it (R172). -/
def badLc (s : State) (p : Port) : State := countPort s p 0x0D

/-- The first symbol boundary of the line at or after now. -/
def nextSymbol (s : State) : Nat := (s.clock.line.toNat + symbolTicks - 1) / symbolTicks * symbolTicks

/-- The line time of the symbol in which a one-payload-symbol message's preamble arrived, at its payload check:
three symbols and 1,536 ticks before (Table 8.8; log entry 22). -/
def arrivalSymbol (s : State) : Nat := (s.clock.line.toNat - (3 * symbolTicks + 1536)) / symbolTicks * symbolTicks

/-- A line time `n` ticks after now. -/
def lineIn (s : State) (n : Nat) : Tick := s.clock.line + BitVec.ofNat 64 n

/-! ## Operation records (R499) -/

/-- The code of a state (Table 16.1). -/
def OpState.num : OpState → Nat
  | .queued => 0
  | .running => 1
  | .suspended => 2
  | .done => 3
  | .cancelled => 4
  | .failed => 5

/-- An operation is live (R497). -/
def OpState.live : OpState → Bool
  | .queued | .running | .suspended => true
  | _ => false

/-- The operation record of a handle. -/
def opOf (s : State) (handle : Nat) : Option Op := s.engine.ops.find? fun o => o.handle.toNat == handle

/-- Update an operation record. -/
def onOp (s : State) (handle : Nat) (f : Op → Op) : State :=
  s.onEngine fun e => { e with ops := e.ops.map fun o => if o.handle.toNat == handle then f o else o }

/-- Raise the operation event of a record as it stands (R499). -/
def opEvent (s : State) (o : Op) : State :=
  raise s 0x0F01 0x60 (beBytes 2 o.handle.toNat ++ beBytes 2 o.opcode.toNat ++ beBytes 1 o.state.num
    ++ beBytes 1 o.reason.toNat ++ beBytes 2 o.progress.toNat) 0 (some o.hand.val)

/-- Enter a state that raises the operation event. -/
def opEnter (s : State) (handle : Nat) (st : OpState) (reason : Nat) : State :=
  let s := onOp s handle fun o => { o with state := st, reason := BitVec.ofNat 8 reason, since := s.clock.age,
                                            timing := st == .suspended, suspendPending := false, cancelPending := false }
  match opOf s handle with
  | some o => opEvent s o
  | none => s

/-- At most 64 terminal records are kept; a 65th frees the oldest (R497). -/
def trimOps (s : State) : State :=
  let dead := s.engine.ops.filter fun o => !o.state.live
  match dead with
  | o :: _ => if 64 < dead.length then s.onEngine fun e => { e with ops := e.ops.filter fun x => x.handle != o.handle } else s
  | [] => s

/-- End an operation without any rollback of its own. -/
def opEnd (s : State) (handle : Nat) (st : OpState) (reason : Nat) : State := trimOps (opEnter s handle st reason)

/-- The live operation of an opcode that holds an object. -/
def opHolding (s : State) (opcode : Nat) (obj : OpObject) : Option Op :=
  s.engine.ops.find? fun o => o.opcode.toNat == opcode && o.object == obj && o.state == .running

/-- End the PHY.SOUND handles running on a port, joined ones included (R190, R192). -/
def endSoundOps (s : State) (p : Port) (st : OpState) (reason : Nat) : State :=
  s.each ((s.engine.ops.filter fun o => o.opcode == 0x0C01 && o.object == .port p && o.state == .running).map fun o => o.handle.toNat)
    fun h s => opEnd (if st == .done then onOp s h fun o => { o with progress := 2 } else s) h st reason

/-! ## Ends of a sounding -/

/-- A free whole number from 0 to n - 1. -/
def drawBelow (s : State) (n : Nat) : Nat × State :=
  let r := s.draw
  (if n == 0 then 0 else r.1.toNat % n, r.2)

/-- The link goes Untrained with its tables unchanged and its pending changes dropped (Table 6.4). -/
def toUntrained (s : State) (p : Port) (retry : Tick) : State :=
  s.onPort p fun q => { q with link := .untrained, pendTx := none, pendRx := none, steps := [], reqOut := false,
                               txSwitched := false, rxSwitched := false, retryAt := retry, reqReason := 0 }

/-- A sounding missed: retry after a random 1 to 8 tricks; from 8 consecutive failures on, the event and a retry
every second (Table 6.11). -/
def soundingMissed (s : State) (p : Port) (reason : Nat) : State :=
  let n := (s.port p).failures + 1
  let r := drawBelow s 8
  let s := toUntrained r.2 p (lineIn s (if n < 8 then (r.1 + 1) * trickTicks else secondTicks))
  let s := s.onPort p fun q => { q with failures := n, lastAbort := BitVec.ofNat 8 reason }
  let s := endSoundOps s p .failed 0x26
  if 8 ≤ n then raise s 0x0506 (portSrc p) (beBytes 1 (min n 255) ++ beBytes 1 reason) else s

/-- Send ABORT (Table 6.5). -/
def sendAbort (s : State) (p : Port) (reason : Nat) : State := sendLc s p [0x06, BitVec.ofNat 8 reason]

/-- The link is sounding. -/
def isSounding (q : PortState) : Bool :=
  match q.link with
  | .sounding _ => true
  | _ => false

/-- A link leaves Up: a topology flush falls due (R277). -/
def leaveUp (s : State) (p : Port) : State := if (s.port p).link == .up then topologyFlushDue s else s

/-- End a sounding with ABORT, its tables unchanged (R180). -/
def abortSounding (s : State) (p : Port) (reason : Nat) : State :=
  if isSounding (s.port p) then toUntrained (sendAbort s p reason) p s.clock.line else s

/-- Both slots of a port go to the default table, pending updates dropped (R170). -/
def defaultSlots (q : PortState) : PortState :=
  { q with tx0 := defaultTable, tx1 := defaultTable, rx0 := defaultTable, rx1 := defaultTable,
           txSlot := false, rxSlot := false, rxOtherReleased := true, pendTx := none, pendRx := none,
           txSwitched := false, rxSwitched := false }

/-- Trigger a full re-sound of an Up link (R183). -/
def resound (s : State) (p : Port) (reason : Nat) : State :=
  if (s.port p).link == .up then
    (topologyFlushDue s).onPort p fun q =>
      { q with link := .untrained, reqReason := BitVec.ofNat 8 reason, retryAt := s.clock.line, reqOut := false, steps := [],
               txSwitched := false, rxSwitched := false, pendTx := none, pendRx := none }
  else s

/-- The 236 bytes of a full TABLE's entries: high nibble first (Table 6.6). -/
def packEntries (t : BitTable) : List Byte :=
  (chunks 2 236 (t ++ [0])).map fun pr => BitVec.ofNat 8 (pr.getD 0 0 * 16 + pr.getD 1 0)

/-- The 471 entries of a full TABLE. -/
def unpackEntries (bs : List Byte) : BitTable :=
  (bs.flatMap fun b => [b.toNat / 16, b.toNat % 16]).take 471

/-- A full TABLE message body (Table 6.6). -/
def fullTable (seq : BitVec 16) (margin : BitVec 2) (slot : Bool) (t : BitTable) : List Byte :=
  [0x04, BitVec.ofNat 8 (margin.toNat * 2 + 8 * b2n slot)] ++ beBytes 2 seq.toNat ++ packEntries t

/-- A partial TABLE message body (Table 6.6). -/
def partialTable (seq : BitVec 16) (margin : BitVec 2) (slot : Bool) (ch : List (Nat × Nat)) : List Byte :=
  [0x04, BitVec.ofNat 8 (1 + margin.toNat * 2 + 8 * b2n slot)] ++ beBytes 2 seq.toNat ++ beBytes 1 ch.length
  ++ ch.flatMap fun c => beBytes 2 (c.1 * 128 + c.2 * 8)

/-- Send a TABLE for the receive direction into the slot that is not active; both slots are held from now (R178). -/
def sendTable (s : State) (p : Port) (t : BitTable) (body : BitVec 16 → Bool → List Byte) : State :=
  let q := s.port p
  let seq := q.tblSeq + 1
  let slot := !q.rxSlot
  let b := body seq slot
  let s := s.onPort p fun q =>
    { q.setRx slot t with tblSeq := seq, rxOtherReleased := false, marginDue := false,
                          pendRx := some { seq := seq, slot := slot, tbl := t, msg := b, at_ := s.clock.line, ns := 0,
                                           acked := false, resends := 0 } }
  sendLc s p b

/-- The full TABLE a PHY.MARGIN causes (R183), when no other change is pending (R179). A table below 464 bits is never sent: the
link is sounded again. -/
def marginTable (s : State) (p : Port) : State :=
  let q := s.port p
  let t := tableFor q.snr (marginDb q.margin)
  if !q.marginDue || q.link != .up || q.pendRx.isSome then s
  else if tableB t < 464 then resound (s.onPort p fun q => { q with marginDue := false }) p 2
  else sendTable s p t fun seq slot => fullTable seq q.margin slot t

/-! ## Cut messages a lost link needs (R194, R213) -/

/-- A link carries frames: Untrained, Sounding or Up (Table 6.4), and not too long (Table 6.11). -/
def carries (q : PortState) : Bool :=
  match q.link with
  | .off | .listen => false
  | _ => !q.tooLong

/-- Originate a cut message on a port now. -/
def sendCut (s : State) (p : Port) (body : List Byte) : State :=
  if carries (s.port p) then sendLl s p 3 body s.clock.line else s

/-- The epoch of the chip's dealer: its own while it deals, else that of the last DEAL accepted. -/
def dealerEpoch (s : State) : Nat := if s.cut.state == .dealer then s.clock.epoch.toNat else byteAt s.cut.lastDeal 12

/-- The identity of the chip's dealer, zero while it has none. -/
def dealerDie (s : State) : Nat :=
  match s.cut.dealer with
  | some d => d.2.1.toNat
  | none => 0

/-- The chip follows or deals. -/
def followsOrDeals (s : State) : Bool := s.cut.state == .following || s.cut.state == .dealer

/-- What an accepted BREAK does (R213, R277): blocks and holds end; a dealer names a new block only from later reports. -/
def breakApply (s : State) : State :=
  let free := fun (q : PortState) => { q with blocked := false, held := false, bidMeet := false }
  let s := (s.onPort .ta free).onPort .tb free
  let s := s.onCut fun c =>
    { c with otherDeals := 0, blkLo := if c.state == .dealer then 0xFFFF else c.blkLo,
             blkHi := if c.state == .dealer then 0xFFFF else c.blkHi,
             tallies := c.tallies.map fun t => { t with meet := 0 } }
  topologyFlushDue s

/-- A link falls to Listen (R213): a chip that follows or deals sends BREAK on its other port and acts on it itself
(log entry 34). -/
def breakSend (s : State) (p : Port) : State :=
  if followsOrDeals s && ((s.port p).link == .untrained || (s.port p).link == .up) then
    let e := BitVec.ofNat 8 (dealerEpoch s)
    let s := sendCut s p.other ([0x06, e] ++ beBytes 8 (dealerDie s) ++ beBytes 2 (nodeNumber s).toNat)
    breakApply (s.onCut fun c => { c with breakSeen := c.breakSeen ++ [(nodeNumber s, e, s.clock.age)] })
  else s

end Sys2Proof.Machine
end

