-- ==== Sys2Proof/Machine/Phy.lean ====
section
/-! DEFINITION. What a port sends in one symbol (06_trunk_line.md R150 to R163): pilots, the preamble, the reference pattern,
scrambled bits and QAM levels. The transform, the filter and the waveform lie outside the model. -/

namespace Sys2Proof.Machine

/-! ## Bit sequences -/

/-- The next `n` bits of the scrambler after the state of its last 23 bits, the newest in bit 0 (R155). -/
def scrambleFrom : Nat → Nat → List Bool
  | 0, _ => []
  | n + 1, w => let b := (w.testBit 4) != (w.testBit 22); b :: scrambleFrom n ((w * 2 + b2n b) % 2 ^ 23)

/-- Bits s(0) to s(n - 1) of the scrambler (R155). -/
def scramble (n : Nat) : List Bool := (List.replicate 23 true ++ scrambleFrom (n - 23) (2 ^ 23 - 1)).take n

/-- The next `n` bits of the preamble sequence after its last 9 bits (R159). -/
def preambleFrom : Nat → Nat → List Bool
  | 0, _ => []
  | n + 1, w => let b := (w.testBit 3) != (w.testBit 8); b :: preambleFrom n ((w * 2 + b2n b) % 512)

/-- Bits p(0) to p(n - 1) of the preamble sequence (R159). -/
def preambleSeq (n : Nat) : List Bool := (List.replicate 9 true ++ preambleFrom (n - 9) 511).take n

/-- The bits of bytes, each most significant first (R156). -/
def bitsOf (bs : List Byte) : List Bool := bs.flatMap fun b => (List.range 8).map fun i => b.toNat.testBit (7 - i)

/-! ## Constellations -/

/-- The number whose Gray code is `l`, of `m` bits (R157). -/
def grayIndex (m l : Nat) : Nat := ((List.range (2 ^ m)).find? fun i => i ^^^ (i / 2) == l).getD 0

/-- The number a list of bits spells, the first one most significant. -/
def bitsNat (bs : List Bool) : Nat := bs.foldl (fun a b => 2 * a + b2n b) 0

/-- The level on an axis of the bits given (R157). -/
def axisLevel (bs : List Bool) : Int :=
  if bs.isEmpty then 0 else 2 * (grayIndex bs.length (bitsNat bs) : Int) - (2 ^ bs.length - 1 : Nat)

/-- I and Q levels of a carrier's bits, before normalisation (R157). -/
def qamPoint (bs : List Bool) : Int × Int :=
  let m := (bs.length + 1) / 2
  (axisLevel (bs.take m), axisLevel (bs.drop m))

/-- Load bits onto the carriers of a table in ascending ordinal order (R156). -/
def loadBits (ord : Nat) : BitTable → List Bool → List (Nat × Nat × Int × Int)
  | [], _ => []
  | b :: t, bits =>
    if b == 0 then loadBits (ord + 1) t bits
    else let q := qamPoint (bits.take b); (ord, b, q.1, q.2) :: loadBits (ord + 1) t (bits.drop b)

/-! ## Symbols -/

/-- The dealt marker is +1 (R153). -/
def dealtMarker (s : State) : Bool :=
  match s.clock.state with
  | .dealer | .disciplined | .holdover => true
  | _ => false

/-- The pilots of every symbol but preamble and echo-training symbols (Table 6.2, R153). -/
def pilotsOf (s : State) : List Int := (if dealtMarker s then 1 else -1) :: List.replicate 14 1

/-- One-bit levels of the reference pattern (R158). -/
def referenceCarriers : List (Nat × Nat × Int × Int) := loadBits 0 (List.replicate 471 1) (scramble 471)

/-- The preamble symbol (R159). -/
def preambleSymbol : TxSymbol where
  kind := .preamble
  pilots := List.replicate 15 (-1)
  carriers :=
    let p := preambleSeq 486
    loadBits 0 (List.replicate 471 1) (dataBins.map fun k => p.getD (k - 6) false)

/-- An idle symbol (Table 6.2). -/
def idleSymbol (s : State) : TxSymbol := { kind := .idle, pilots := pilotsOf s, carriers := [] }

/-- A watch symbol (R162). -/
def watchSymbol (s : State) : TxSymbol := { kind := .watch, pilots := pilotsOf s, carriers := referenceCarriers }

/-- A probe symbol. -/
def probeSymbol (s : State) : TxSymbol := { kind := .probe, pilots := pilotsOf s, carriers := referenceCarriers }

/-- An echo-training symbol: no pilots (Table 6.2). -/
def echoSymbol : TxSymbol := { kind := .echoTraining, pilots := List.replicate 15 0, carriers := referenceCarriers }

/-- The header symbol of a frame (R155, R160): the header on 232 carriers, fill on the rest. -/
def headerSymbol (s : State) (h : Header) : TxSymbol where
  kind := .header
  pilots := pilotsOf s
  carriers :=
    let bits := bitsOf h.encode ++ List.replicate 478 false
    loadBits 0 (List.replicate 471 2) ((bits.zip (scramble 942)).map fun e => e.1 != e.2)

/-- Payload symbol `k` of a frame under a table (R161, R230): `CARRY_B` data bits, fill on the rest of B, all scrambled. -/
def payloadSymbol (s : State) (carry : Nat) (t : BitTable) (data : List Bool) (k : Nat) : TxSymbol where
  kind := .payload
  pilots := pilotsOf s
  carriers :=
    let B := tableB t
    let part := (data.drop (k * carry)).take carry
    let bits := part ++ List.replicate (B - part.length) false
    loadBits 0 t ((bits.zip ((scramble (942 + (k + 1) * B)).drop (942 + k * B))).map fun e => e.1 != e.2)

/-- The bytes after the header: payload, then `PCRC`, stomped where the frame carries the residue (R229, R243). -/
def wireBytes (f : Frame) : List Byte :=
  let c := (crc32 f.payload).toNat
  f.payload ++ beBytes 4 (if f.crc == .residue then c ^^^ 0xA5A5A5A5 else c)

/-- Symbols of a frame with a payload length and `CARRY_B` (R230): preamble, header, payload. -/
def frameSymbols (payLen carry : Nat) : Nat := 2 + (8 * (payLen + 4) + carry - 1) / carry

end Sys2Proof.Machine
end

