-- ==== Sys2Proof/Machine/Sessions.lean ====
section
/-! DEFINITION. The end of a debug session (21_debug_port.md R618), which the ward, the tiers and the resets share. -/

namespace Sys2Proof.Machine

/-- The debug session ends: every comparator goes off, every halted unit resumes at the next symbol boundary, the closed event is
raised (R618, R621, R628, R630). -/
def closeSession (s : State) (cause : Nat) : State :=
  if s.dbg.session.isNone then s
  else
    let s := s.onDebug fun d =>
      { d with session := none, cmps := Vector.replicate 8 Cmp.off, haltNext := none, step := none,
               resumeNext := if d.halted == 0 then none else some (d.halted, none) }
    raise s 0x1205 0x80 (beBytes 1 cause)

/-- The session belongs to this hand. -/
def sessionOf (s : State) (h : Fin 16) : Bool :=
  match s.dbg.session with
  | some (_, _, _, k, _) => k == h
  | none => false

end Sys2Proof.Machine
end

