-- ==== Sys2Proof/Machine/Resets.lean ====
section
/-! DEFINITION. Shared operations of tiers and resets (01_architecture.md, 05_kindling_and_resets.md): what the shell drives, the
rollback of long operations (Table 16.3), moves between tiers, the chip reset, the loss of VAN, row repair and
poisoned reads, and the configuration of the channels from the straps. -/

namespace Sys2Proof.Machine

/-! ## What the shell drives on an output -/

/-- The alarm level of a channel in its configured direction, 0 V on a voltage output (R447, R449). -/
def alarmValue (s : State) (n : Fin 24) : Int :=
  match (s.chan n).profile with
  | some p =>
    if cpaOf p == 13 then 0
    else if alarmHigh s n && (s.chan n).comp != .substituted then (trimOf s.vault n).high else (trimOf s.vault n).low
  | none => (trimOf s.vault n).low

/-- The value the shell drives: the alarm in Forced alarm, the low alarm while substituted, else the commanded value
(R441, R444, R447). -/
def shellValue (s : State) (n : Fin 24) : Int :=
  let c := s.chan n
  if c.forced then alarmValue s n
  else if c.comp == .substituted then (trimOf s.vault n).low
  else c.applied

/-- Bank-now is asserted on a channel, by the shell or by the rail monitor (R18). -/
def banked (c : Chan) : Bool := c.bankShell || c.bankMon

/-- Drive what the shell drives on a commanded channel without bank-now; a channel under its keeper stays so. -/
def driveShell (s : State) (n : Fin 24) : State :=
  let c := s.chan n
  if banked c || !c.commanded || capped c then s
  else s.onChan n fun c => driveValue (trimOf s.vault n) s.clock.age (shellValue s n) c

/-! ## The input front end (Tables 12.2, 12.6, 12.7) -/

/-- Stale spans that a sample not yet ready can still fall in: Table 13.1's longest delay is below 2^31 ticks. -/
def staleRecent (now : Tick) (l : List (Nat × Tick × Option Tick)) : List (Nat × Tick × Option Tick) :=
  l.filter fun e => match e.2.2 with
    | some t => now.toNat < t.toNat + 2 ^ 31
    | none => true

/-- A cause of staleness begins on a channel (Table 13.4). -/
def staleBegin (s : State) (n : Fin 24) (cause : Nat) : State :=
  let now := s.clock.counter
  s.onChan n fun c =>
    if c.stale.any fun e => e.1 == cause && e.2.2.isNone then c else { c with stale := staleRecent now c.stale ++ [(cause, now, none)] }

/-- A cause of staleness ends. -/
def staleEnd (s : State) (n : Fin 24) (cause : Nat) : State :=
  let now := s.clock.counter
  s.onChan n fun c =>
    { c with stale := staleRecent now (c.stale.map fun e => if e.1 == cause && e.2.2.isNone then (e.1, e.2.1, some now) else e) }

/-- Sources on, shunt closed, measuring switches closed, for a profile and role in Measure and Full (Table 12.6). -/
def frontEnd (route1ch23 : Bool) (p : BitVec 8) (active : Bool) : Bool × Bool × Bool :=
  if route1ch23 then (active, false, true)
  else match cpaOf p with
    | 0 | 2 => (true, active, true)
    | 1 => (false, active, true)
    | 3 | 4 | 14 => (false, false, true)
    | 5 | 6 | 7 | 8 | 9 | 10 => (active, false, true)
    | _ => (false, false, false)

/-- During a role change (R381) both chips' shunts are closed and neither chip's excitation is on. -/
def frontChanging (p : BitVec 8) : Bool × Bool × Bool :=
  match cpaOf p with
  | 0 | 2 => (true, true, true)
  | 1 => (false, true, true)
  | _ => (false, false, (frontEnd false p true).2.2)

/-- RTD wiring of a profile: 0 2-wire, 1 3-wire, 2 4-wire (Table 2.7, key R). -/
def rtdWiring (p : BitVec 8) : Nat := cpbOf p / 4

/-- Terminals of the quad that a family uses (Tables 12.2 and 12.5); the reference of ROUTE 1 uses all four (R372). -/
def usedTerms (route1ch23 : Bool) (p : BitVec 8) : List Nat :=
  if route1ch23 then [0, 1, 2, 3]
  else match cpaOf p with
    | 0 | 2 => [0, 1, 3]
    | 1 | 3 | 14 => [1, 2, 3]
    | 4 => [1, 3]
    | 7 | 8 => match rtdWiring p with
      | 0 => [0, 3]
      | 1 => [0, 2, 3]
      | _ => [0, 1, 2, 3]
    | 10 => [0, 1]
    | 15 => []
    | _ => [0, 1, 2, 3]

/-- Terminals that carry a source or a shunt (Tables 12.2 and 12.4, R393). -/
def sourceTerms (route1ch23 : Bool) (p : BitVec 8) : List Nat :=
  if route1ch23 then [0, 3]
  else match cpaOf p with
    | 0 | 2 | 10 => [0, 1]
    | 1 => [1, 2]
    | 5 | 6 | 7 | 8 => [0, 3]
    | 9 => [0, 1, 2, 3]
    | _ => []

/-- Channel 23 is the node cold-junction reference (R51, R372). -/
def isCjRef (s : State) (n : Fin 24) : Bool := routeOf s.straps.codes == some 1 && n.val == 23

/-- One of the terminals has its disconnect open. -/
def anyOpen (c : Chan) (ts : List Nat) : Bool := ts.any fun t => c.disc.getD t false

/-- Set a channel's sources, shunt and switches for the tier, its cap, its role and its disconnects (R382, R393, R394). -/
def setFrontEnd (s : State) (n : Fin 24) : State :=
  s.onChan n fun c =>
    match c.profile with
    | some p =>
      if Tier.measure.rank ≤ s.tiers.tier.rank && !capped c && !c.restrap then
        let f := if c.roleStep.isSome then frontChanging p else frontEnd (isCjRef s n) p c.active
        let closed := !anyOpen c (sourceTerms (isCjRef s n) p)
        { c with sources := f.1 && closed, shunt := f.2.1 && closed, switches := f.2.2 }
      else { c with sources := false, shunt := false, switches := false }
    | none => { c with sources := false, shunt := false, switches := false }

/-- Set the front end of every channel. -/
def setFrontEnds (s : State) : State := s.each (List.finRange 24) setFrontEnd'
where
  /-- `setFrontEnd` with its arguments in the order of a fold. -/
  setFrontEnd' (n : Fin 24) (s : State) : State := setFrontEnd s n

/-! ## Long operations: rollback (Table 16.3) -/

/-- The operation has done work: it runs, or it holds its object. -/
def opStarted (o : Op) : Bool := o.state == .running || o.holds

/-- The end of a trim (Table 14.7, End): the output returns to the value applied before Start, shaped by R437. -/
def trimEnd (s : State) (n : Fin 24) (before : Int) : State :=
  let s := s.onChan n fun c => { c with inTrim := false, applied := before }
  if (s.chan n).commanded then driveShell s n else bankNow s n

/-- Discard the awaiting commands that `p` picks, without a final response. -/
def discardAwait (s : State) (p : Await → Bool) : State :=
  s.onEngine fun e => { e with awaiting := e.awaiting.filter fun a => !p a }

/-- The opcode of a command frame (R464). -/
def opcodeOf (f : CmdFrame) : Nat := fieldAt f.payload 2 2

/-- The body of a command frame. -/
def cmdBody (f : CmdFrame) : List Byte := slice f.payload 8 (fieldAt f.payload 4 2)

/-- What a cancel or a failure of an operation undoes, and its end in a state with a reason (Table 16.3). A flush
that has started ends when its old epoch has drained (R286). -/
def opRollback (s : State) (o : Op) (st : OpState) (reason : Nat) : State :=
  let h := o.handle.toNat
  match o.opcode.toNat, o.object with
  | 0x0705, _ =>
    if opStarted o then
      invertEpoch (onOp s h fun o => { o with suspendPending := false, cancelPending := false })
        (.flush o.handle (some st) (BitVec.ofNat 8 reason))
    else opEnd s h st reason
  | 0x0D01, .chan n =>
    let s := if opStarted o then trimEnd s n o.before else s
    let s := discardAwait s fun a => opcodeOf a.f == 0x0D03 && beNat ((cmdBody a.f).take 2) == h
    opEnd s h st reason
  | 0x0F02, _ => opEnd (s.onMem fun m => { m with fast := none }) h st reason
  | 0x1001, _ => opEnd (s.onSeat fun t => { t with confirmed := 0 }) h st reason
  | _, _ => opEnd s h st reason

/-- A flush whose stop already waits for a drain. -/
def flushStopping (s : State) (handle : BitVec 16) : Bool :=
  let is := fun (w : InvWhy) => match w with
    | .flush h _ _ => h == handle
    | _ => false
  s.tables.waiting.any is || (match s.tables.draining with | some (w, _) => is w | none => false)

/-- End the live operations that `p` picks, in handle order (R33, R509, R510). -/
def endOps (s : State) (p : Op → Bool) (st : OpState) (reason : Nat) : State :=
  s.each (s.engine.ops.filter fun o => o.state.live && p o && !flushStopping s o.handle) fun o s => opRollback s o st reason

/-- The move down from Full: every live operation fails with "tier", every awaiting command is discarded, and the debug session
ends (R33, R490, R618). -/
def leaveFull (s : State) : State :=
  (endOps (closeSession s 6) (fun _ => true) .failed 0x20).onEngine fun e => { e with awaiting := [], writing := [] }

/-- Outside Full and Restricted the proposals are discarded (R542). -/
def enterFixed (s : State) : State :=
  if engineMode s == .fixed then s.onEngine fun e => { e with proposals := [] } else s

/-! ## The chip reset (R136, R139, Table 5.4) -/

/-- Note a cause; the lowest applies (R143). -/
def noteCause (u : Supply) (c : Nat) : Supply :=
  { u with causeNext := some (BitVec.ofNat 8 (match u.causeNext with | some o => min o.toNat c | none => c)) }

/-- A channel after a chip reset: the keeper keeps its configuration and latch and is in control under the rail
monitor's bank-now (R126); the VAN domain's disconnects stay. -/
def Chan.chipReset (t : Trim) (c : Chan) : Chan :=
  keeperTakes t 0
    { Chan.reset with keeper := c.keeper, keptProfile := c.keptProfile, latch := c.latch, disc := c.disc,
                      weakHigh := c.weakHigh, yielded := c.yielded, target := c.target, dac := c.dac,
                      stageOn := c.stageOn, drive := c.drive, bankMon := true }

/-- The engine after a chip reset; the old sessions stay known until new ones are drawn (R468). -/
def Engine.chipReset (e : Engine) : Engine :=
  { Engine.reset with slots := e.slots.map fun k => { KeySess.reset with session := k.session } }

/-- The supply after a chip reset: what the always-on domain holds is kept (R136, R143, Table 5.4). -/
def Supply.chipReset (u : Supply) : Supply :=
  { Supply.reset with
    vbus := u.vbus, good := u.good, pll := u.pll, rstN := u.rstN, testEn := u.testEn, kindle := .rails,
    cause := u.cause, causeNext := u.causeNext, attempts := u.attempts, haltReason := u.haltReason,
    retention := u.retention, flueEn := u.flueEn, flueLatched := u.flueLatched }

/-- A chip reset: the Rails state of Table 5.1, bank-now by the rail monitor (R126, R139). A programme pulse in
progress completes; none that waits starts (R144). -/
def chipReset (s : State) (cause : Option Nat) : State :=
  let v := { s.vault with pulses := s.vault.pulses.take 1, installed := s.vault.installed, wardNext := [], trimOld := [] }
  { State.reset with
    dieId := s.dieId, free := s.free, pending := s.pending,
    supply := Supply.chipReset (match cause with | some c => noteCause s.supply c | none => s.supply),
    tiers := { TierState.reset with tier := .banked },
    chans := Vector.ofFn fun n => Chan.chipReset (trimOf s.vault n) s.chans[n],
    engine := Engine.chipReset s.engine,
    vault := v,
    dbg := { Debug.reset with ir := s.dbg.ir, dr := s.dbg.dr, boundary := s.dbg.boundary } }

/-- VAN is lost: everything in the VAN domain is lost, the shell is held in reset (R29, R136). -/
def vanLost (s : State) : State :=
  { State.reset with
    dieId := s.dieId, free := s.free, pending := s.pending,
    vault := { s.vault with pulses := [], wardNext := [], trimOld := [], wardLock := false, commission := false },
    supply := { Supply.reset with vbus := s.supply.vbus, good := s.supply.good.filter (· != .van), rstN := s.supply.rstN,
                                  testEn := s.supply.testEn },
    engine := Engine.chipReset s.engine }

/-! ## Moves between tiers (R26 to R34) -/

/-- Local source named for a unit (Table 4.6); a rail and the analogue core have none and count as 0x00 (log entry 26). -/
def unitSrc : UnitId → Nat
  | .flue => 0x30
  | .clock => 0x31
  | .port p => portSrc p
  | .pipe p => pipeSrc p
  | .group g => 0x40 + g.val
  | .queueMgr => 0x52
  | .analogue => 0x00
  | .engine => 0x60
  | .ward => 0x70
  | .seatLink => 0x22
  | .rail _ => 0x00

/-- The move into Pass-through from above: bank-now, streams closed, scheduled outputs discarded, front ends open
and the staged changes discarded
(Table 1.7, R21, R34, R258). -/
def enterPassThroughDown (s : State) : State :=
  let s := closeAllStreams (bankNowAll s) 3
  let s := s.mapChans fun _ c => { c with pending := [], commanded := false }
  let s := s.onTables fun t => discardStaged t fun _ => true
  setFrontEnds s

/-- The tier-change event (R30). -/
def tierEvent (s : State) (old new : Tier) (src : Nat) : State :=
  raise s 0x0101 src [BitVec.ofNat 8 old.rank, BitVec.ofNat 8 new.rank, BitVec.ofNat 8 (tierCap s)]

/-- Go straight down to the highest tier allowed, where it is lower (R26); `src` is the cause's local source. -/
def settleTier (s : State) (src : Nat) : State :=
  let old := s.tiers.tier
  let new := allowedTier s
  if s.supply.kindle != .up || old.rank ≤ new.rank then s
  else if new.rank ≤ Tier.banked.rank then chipReset s (some 0x04)
  else
    let s := if old == .full then leaveFull s else s
    let s := s.onTiers fun t => { t with tier := new, upCount := none }
    let s := if Tier.measure.rank ≤ old.rank && new == .passThrough then enterPassThroughDown s else s
    enterFixed (tierEvent s old new src)

/-- A unit or rail is found not working. -/
def unitFails (s : State) (u : UnitId) : State :=
  if s.tiers.failed.contains u then s else s.onTiers fun t => { t with failed := t.failed ++ [u] }

/-! ## Memory faults and row repair (R344, R356 to R358, Table 11.7) -/

/-- Bank and row of a byte address (Table 11.1). -/
def bankRow (a : Nat) : Nat × Nat := (a / 2 ^ 21 % 8 * 8 + a / 64 % 8, a / 4096 % 512)

/-- Group of a byte address. -/
def groupOf (a : Nat) : Nat := a / 2 ^ 21 % 8

/-- The lowest spare of a bank that is free (R356, R358). -/
def freeSpare (m : Memory) (bank : Nat) : Option Nat :=
  (List.range 8).find? fun k => !(m.remap.any fun e => e.1 == bank && e.2.spare == k) && !m.deadSpares.contains (bank, k)

/-- The remap entry of a row. -/
def remapOf (m : Memory) (bank row : Nat) : Option Remap :=
  (m.remap.find? fun e => e.1 == bank && e.2.row == row).map (·.2)

/-- Repair a row into a free spare: the spare, and the memory after the switch (R357, R358). -/
def repairRow (m : Memory) (bank row : Nat) (persistent : Bool) : Option (Nat × Memory) :=
  match freeSpare m bank with
  | none => none
  | some k =>
    let e := (bank, ({ spare := k, row := row, persistent := persistent } : Remap))
    match remapOf m bank row with
    | none => some (k, { m with remap := m.remap ++ [e] })
    | some old => some (k, { m with remap := m.remap.filter (fun x => !(x.1 == bank && x.2.row == row)) ++ [e],
                                    deadSpares := m.deadSpares ++ [(bank, old.spare)] })

/-- A read corrected a word: count it, list its scrub, raise the event (R344, Table 11.7). -/
def correctedWord (s : State) (a : Nat) : State :=
  let src := 0x40 + groupOf a
  let s := bump s src 0 0x30
  let s := s.onMem fun m => if m.scrub.length < 16 && !m.scrub.contains a then { m with scrub := m.scrub ++ [a] } else m
  raise s 0x0A01 src (beBytes 3 a ++ beBytes 4 (counterOf s src 0 0x30).toNat)

/-- Empty a queue whose descriptor is damaged and give it its defaults, with the event (Table 10.6). -/
def damagedQueue (s : State) (q : Nat) : State :=
  if !queueExists s q then s
  else
    let s := flushQueue (setQSet s q (qDefault q)) q
    let own := if 256 ≤ q then queueHand s q else if 16 ≤ q && q < 64 then some (q % 16) else none
    raise s 0x0908 0x52 (beBytes 2 q) q own

/-- Discard the queued frames that hold a damaged cell, each counted in its hand's `Q_ECC` (Table 10.6). Which cells a frame holds is
the chip's choice: its first cell is a free value (R308). -/
def damagedCell (s : State) (c : Nat) : State :=
  let hit := fun (f : QFrame) => f.cell.toNat % 32768 == c
  let hands := s.queues.frames.flatMap fun e => (e.2.filter hit).map fun f => f.hdr.hand
  let s := s.onQueues fun u =>
    { u with frames := (u.frames.map fun e => (e.1, e.2.filter fun f => !hit f)).filter fun e => !e.2.isEmpty }
  s.each hands fun h s => countHand s (Fin.ofNat 16 h.toNat) 0x23

/-- Drop a staged change whose words are damaged, with the event that names its key (R344). The change at place k of the staging area
is the k-th one staged (log entry 48). -/
def damagedStaged (s : State) (k : Nat) : State :=
  match s.tables.staged[k]? with
  | none => s
  | some c =>
    raise (s.onTables fun t => { t with staged := t.staged.eraseIdx k }) 0x080B 0x60
      (beBytes 1 c.table ++ beBytes 8 c.key.toNat) 0 (some c.hand.val)

/-- Samples of a channel at ring positions `k` and `k + 1` not yet in a frame: stale, with the last good value (Table 13.4). -/
def damagedSamples (s : State) (n : Fin 24) (k : Nat) : State :=
  let g := (s.chan n).lastGood
  let tag := BitVec.ofNat 8 (g.path.toNat * 64 + 8 * b2n g.ne43 + 4)
  let fix := fun (e : Nat × Sample) =>
    if e.1 == n.val && (e.2.pos == k || e.2.pos == k + 1) then (e.1, ({ value := g.value, tag := tag, pos := e.2.pos } : Sample)) else e
  { s with streams := s.streams.map fun x => { x with rows := x.rows.map fun r => (r.1, r.2.map fix) } }

/-- What the consumer of a poisoned word does, by its place in the memory map (R344, Table 11.2). A table entry reads as absent, an
event record as damaged (R608); a hand or operation record's layout is not given (log entry 48). -/
def poisonConsumer (s : State) (a : Nat) : State :=
  if 0x200000 ≤ a && a < 0x300000 then damagedQueue s ((a - 0x200000) / 16)
  else if 0x300000 ≤ a && a < 0x320000 then damagedStaged s ((a - 0x300000) / 32)
  else if 0x400000 ≤ a && a < 0xC00000 then damagedCell s ((a - 0x400000) / 256)
  else if 0xC00000 ≤ a && a < 0xF00000 then
    damagedSamples s (Fin.ofNat 24 ((a - 0xC00000) / 0x20000)) ((a - 0xC00000) % 0x20000 / 4)
  else s

/-- A read found a word poisoned: its consumer acts, unless the debug port read it (R634), and its row is repaired live, or its
group fails (Table 11.7). A word already known as poisoned is only counted: its row has been repaired. -/
def poisonedRead (s : State) (a : Nat) (debug : Bool) : State :=
  let g := groupOf a
  let src := 0x40 + g
  let s := bump s src 0 0x31
  if s.mem.poison.contains a then s
  else
    let s := s.onMem fun m => { m with poison := a :: m.poison }
    let s := if debug then s else poisonConsumer s a
    match repairRow s.mem (bankRow a).1 (bankRow a).2 false with
    | some (_, m) => raise { s with mem := m } 0x0A02 src (beBytes 3 a)
    | none =>
      let s := unitFails (raise s 0x0A03 src (beBytes 3 a)) (.group (Fin.ofNat 8 g))
      settleTier s src

/-- A poisoned word read by a unit of the chip. -/
def poisonedWord (s : State) (a : Nat) : State := poisonedRead s a false

/-- What the word protection reported during an access (R342). -/
def eccApply (s : State) (e : Ecc) : State :=
  let s := s.each (e.corrected.filter (· < 0x1000000)) fun a s => correctedWord s (a / 8 * 8)
  s.each (e.poisoned.filter (· < 0x1000000)) fun a s => poisonedWord s (a / 8 * 8)

/-! ## Channels from the straps (R49 to R52, R127, R128) -/

/-- A custom curve slot holds a block. -/
def curveFilled (v : Vault) (slot : Nat) : Bool :=
  match v.look (.curve (Fin.ofNat 16 slot)) with
  | .data _ => true
  | _ => false

/-- Configure the keeper of an output channel from its profile (R127, R128). -/
def configureKeeper (s : State) (n : Fin 24) (p : BitVec 8) : State :=
  let k := keeperConfig s n p
  let t := trimOf s.vault n
  s.onChan n fun c =>
    let latch := if c.keptProfile == some p then c.latch
      else match k.kind with
        | .voltage => k.zeroCode
        | _ => if k.dirHigh then k.highCode else k.lowCode
    let c := { c with keeper := some k, keptProfile := some p, latch := latch, comp := .normal, weakHigh := false }
    if c.inControl then keeperTakes t s.clock.age c else c

/-- Set a channel from its codes in force: profile, caps, keeper (R23, R24, R50 to R52). A channel whose profile is no
output has no keeper configuration (log entry 27). -/
def configureChannel (s : State) (n : Fin 24) : State :=
  let codes := s.straps.codes
  let p := strapProfile codes n.val
  let capS := chanStrapCap codes n.val
  let s := s.onChan n fun c =>
    { c with profile := p, capStrap := capS,
             capBlank := (match p with | some p => (blankMode p).isSome | none => false) && (blankmapOf s.straps.blankmap).isNone,
             capCurve := match p with | some p => cpaOf p == 14 && !curveFilled s.vault (cpbOf p) | none => false }
  match p with
  | some p =>
    if capS then s
    else if isOutput p then configureKeeper s n p
    else s.onChan n fun c => { c with keeper := none, keptProfile := none, dac := 0, stageOn := false, inControl := true }
  | none => s

/-- The curve-empty event of a channel (R52). -/
def curveEmptyEvent (s : State) (n : Fin 24) : State :=
  match (s.chan n).profile with
  | some p => if (s.chan n).capCurve then raise s 0x0206 n.val (beBytes 1 (cpbOf p)) else s
  | none => s

/-- A channel becomes capped in service: its terminals open and its output goes to its keeper (R23). -/
def capChannel (s : State) (n : Fin 24) : State :=
  let s := setFrontEnd s n
  if isOutChan (s.chan n) then (bankNow s n).onChan n fun c => { c with pending := [], commanded := false } else s

/-- Clear the latched codes of a channel's faults (Table 5.4): sources 0x00 to 0x17, codes 0x0B02 to 0x0D04. -/
def clearChannelLatches (s : State) (n : Fin 24) : State :=
  let l := s.events.latches.filter fun l => l.src == n.val && 0x0B02 ≤ l.code.toNat && l.code.toNat ≤ 0x0D04
  s.each l fun l s => clearLatching s l.code.toNat l.src l.obj []

/-- A channel as a re-kindle starts it (R142, Table 5.4): bank-now; applied and pending values, override and faults
cleared; the latch kept. -/
def Chan.rekindled (c : Chan) : Chan :=
  { c with bankShell := true, commanded := false, pending := [], override := none, overrideNext := none, comp := .normal,
           compRaised := false, frozen := false, forced := false, delBad := false, pathBad := false, readings := [],
           keeperFault := false, refFault := false, capCross := false, capCoarse := false, crossSeen := false,
           excBad := 0, excGood := 0, sensorOpen := false, tcOpen := false, leadHigh := false, folded := false,
           fineBad := 0, coarseBad := 0, buffer := [], low := [], ranging := .coarse, cjFault := false, cutOff := true,
           inTrim := false }

/-- Start a channel re-kindle (R142): the channel's trim is cancelled (Table 5.4), the keeper is reloaded, the calibration
runs for 6,000,000 ticks. -/
def startRekindle (s : State) (n : Fin 24) : State :=
  let s := endOps s (fun o => o.object == .chan n) .cancelled 0x11
  let s := staleBegin (clearChannelLatches s n) n 0
  let s := s.onChan n fun c => { Chan.rekindled c with rekindle := some (s.clock.age + 6000000), rekindleHeld := false }
  let s := match (s.chan n).profile with
    | some p => if isOutput p && !(s.chan n).capStrap then
        s.onChan n fun c => { c with keeper := some (keeperConfig s n p), keptProfile := some p }
      else s
    | none => s
  if isOutChan (s.chan n) then bankNow s n else s

/-- A channel with a new profile starts as after kindling (R57). -/
def Chan.restart (c : Chan) : Chan :=
  { Chan.reset with
    keeper := c.keeper, keptProfile := c.keptProfile, latch := c.latch, inControl := c.inControl, bankShell := true,
    bankMon := c.bankMon, yielded := c.yielded, refreshed := c.refreshed, dac := c.dac, stageOn := c.stageOn,
    target := c.target, rampFrom := c.rampFrom, rampAt := c.rampAt, settleEnd := c.settleEnd, disc := c.disc,
    drive := c.drive, active := c.active, ringPos := c.ringPos, rekindle := c.rekindle, override := none }

/-! ## Strap events (R41, R44 to R46, R50, R51) -/

/-- Local source of a strap event of the pin with a digest index (Table 4.6). -/
def strapSrc (i : Nat) : Nat :=
  if pinCpb ≤ i && i < 72 then i - pinCpb else if pinCpa ≤ i && i < 72 then i - pinCpa else 0x32

/-- The pin's reading counts as ambiguous, with the code its event reports, 0xFF where it caps (R23, R46). -/
def strapAmbiguous (codes : List Code) (i : Nat) : Option Nat :=
  if i < pinRank then (if isAmb codes i then some 0xFF else none)
  else if i < pinCpa then
    if policyBad codes i then
      some (if i == pinHands || i == pinRoute || i == pinTwin || i == pinBlankmap then 0xFF else policyDefault i)
    else none
  else if i < pinCpb then (if isAmb codes i then some 0xFF else none)
  else if isAmb codes i && (codeAt codes (i - 24) != .code 15 || (routeOf codes == some 1 && i == pinCpb + 23)) then some 0xFF
  else none

/-- The detail of a strap-invalid event of the pin, if it is the pin named (Table 20.3, code 0x0203). -/
def strapInvalid (codes : List Code) (i : Nat) : Option (List Byte) :=
  let code := ((codeAt codes i).val?).getD 0
  let det := fun (profile : Nat) (v : List Byte) => some (beBytes 1 i ++ beBytes 1 code ++ beBytes 1 profile ++ v)
  if i == 0 then
    match strapNode codes with
    | some n => if n == 0 || n == 0xFFFF then det 0xFF (beBytes 2 n ++ [0, 0]) else none
    | none => none
  else if i == 4 || i == 5 then
    match strapPlace codes with
    | some p => if p % 64 != 0 && (if i == 4 then p % 16 != 0 else p % 16 == 0) then det 0xFF (beBytes 4 p) else none
    | none => none
  else if pinCpa ≤ i && i < 72 then
    let n := strapSrc i
    match strapProfile codes n with
    | none => none
    | some p =>
      let prof := p.toNat
      if routeOf codes == some 1 && n == 23 then
        let a := codeAt codes (pinCpa + 23)
        let b := codeAt codes (pinCpb + 23)
        let wrongA := a != .code 15 && a != .ambiguous
        let wrongB := b != .code 15 && b != .ambiguous
        if (i == pinCpa + 23 && wrongA) || (i == pinCpb + 23 && wrongB && !wrongA) then det prof (zeros 4) else none
      else if i < pinCpb then
        if cpaOf p == 10 && routeOf codes != some 1 then det prof (zeros 4) else none
      else if keyReserved p then det prof (zeros 4) else none
  else none

/-- The strap events of a pin that has been read: its ambiguous and invalid codes begin or clear (Table 2.10). -/
def strapEvents (s : State) (codes : List Code) (i : Nat) : State :=
  let src := strapSrc i
  let s := match strapAmbiguous codes i with
    | some c => raise s 0x0202 src (beBytes 1 i ++ beBytes 1 c) i
    | none => clearLatching s 0x0202 src i (beBytes 1 i ++ beBytes 1 (((codeAt codes i).val?).getD 0xFF))
  match strapInvalid codes i with
  | some d => raise s 0x0203 src d i
  | none => clearLatching s 0x0203 src i (beBytes 1 i ++ beBytes 1 (((codeAt codes i).val?).getD 0xFF) ++ [0xFF])

/-- The strap-marginal event of a pin from its conversions (R41). -/
def marginalEvent (s : State) (i : Nat) (convs : List (Option (Fin 16))) : State :=
  match majority convs with
  | .code n =>
    let k := agreeing convs n
    if k < 8 then raise s 0x0201 (strapSrc i) (beBytes 1 i ++ beBytes 1 n.val ++ beBytes 1 k) i else s
  | .ambiguous => s

/-- The first round whose reference fails, with the reference (R42): round 1 to 8, 0 for code 3 and 1 for code 12. -/
def badReference (rs : List StrapRound) : Option (Nat × Nat) :=
  ((List.range rs.length).zip rs).findSome? fun e =>
    if !inWindow 3 e.2.ref3 then some (e.1 + 1, 0)
    else if !inWindow 12 e.2.ref12 then some (e.1 + 1, 1)
    else none

/-! ## Drive of every port at entry to Pass-through, and the windows -/

/-- The window descriptors of Table 11.5. -/
def windowTable : List (Nat × BitVec 64) :=
  let d := fun (mode base size : Nat) => BitVec.ofNat 64 ((128 + 32 * mode) * 2 ^ 56 + base * 2 ^ 32 + size * 2 ^ 8)
  ((List.range 16).map fun h => (h, d 1 ((0x400000 + 256 * (1024 + 32 * h)) / 64) 128))
  ++ [(0x010, d 1 ((0x400000 + 256 * 1536) / 64) 1024)]
  ++ (List.range 24).map fun n => (0x020 + n, d 0 ((0xC00000 + 0x20000 * n) / 64) 2048)

end Sys2Proof.Machine
end

