-- ==== Sys2Proof/Machine/Seat.lean ====
section
/-! DEFINITION. Shared operations of the twin seat (18_twin_seat.md): seat state codes, mirror messages and what both twins do to
pending values. -/

namespace Sys2Proof.Machine

/-- The code of a seat state (Table 18.2). -/
def Seat.code : Seat → Nat
  | .solo => 0
  | .unpaired => 1
  | .stranger => 2
  | .mirroring => 3
  | .seated => 4
  | .alone => 5
  | .released => 6

/-- The chip mirrors its changes: Seated, or with a partner in Mirroring on a locked link (R565). -/
def mirrors (s : State) : Bool :=
  s.seat.state == .seated
  || (s.seat.locked && (s.seat.state == .alone) && (match s.seat.partner with | some p => p.state == 3 | none => false))

/-- A mirror message joins those not yet acknowledged (R566). -/
def mirrorPut (s : State) (kind : Nat) (body : List Byte) : State :=
  s.onSeat fun t =>
    { t with out := t.out ++ [{ kind := BitVec.ofNat 8 kind, seq := t.mmSeq + 1, body := body, sent := none }], mmSeq := t.mmSeq + 1 }

/-- Mirror a change of Table 18.5 to the partner, where the chip mirrors (R565). -/
def mirrorMsg (s : State) (kind : Nat) (body : List Byte) : State := if mirrors s then mirrorPut s kind body else s

/-- A signed 24-bit value as three bytes. -/
def valueBytes (v : Int) : List Byte := beBytes 3 (unsigned 24 v)

/-- The OUT_VAL message of a pending value (Table 18.5). -/
def outValBody (n : Fin 24) (p : PendOut) : List Byte :=
  beBytes 1 n.val ++ valueBytes p.value ++ beBytes 8 p.at_.toNat ++ beBytes 8 p.accepted.toNat

/-- Discard the pending values of a channel that `d` picks, each mirrored as OUT_DROP. -/
def dropPending (s : State) (n : Fin 24) (d : PendOut → Bool) : State :=
  let gone := (s.chan n).pending.filter d
  let s := s.onChan n fun c => { c with pending := c.pending.filter fun p => !d p }
  s.each gone fun p s => mirrorMsg s 0x02 (beBytes 1 n.val ++ beBytes 8 p.at_.toNat)

/-- A hand's stations as HAND.STATIONS bytes 0 to 25 give them (Table 15.6). -/
def stationBytes (r : Hand) : List Byte :=
  beBytes 6 (r.master.getD 0).toNat ++ beBytes 1 r.observers.length ++ beBytes 1 (b2n r.obsTa + 2 * b2n r.obsTb)
  ++ padTo 18 (r.observers.flatMap fun t => beBytes 6 t.toNat)

/-- Mirror a hand's stations (Table 18.5, STATIONS). -/
def mirrorStations (s : State) (h : Fin 16) : State := mirrorMsg s 0x04 (beBytes 1 h.val ++ stationBytes (s.hand h))

/-! ## Values (R325 to R328, R567) -/

/-- The substitution ends (Table 14.5): the compliance clear event if its code is still raised, the integrator resumes. -/
def endSubst (s : State) (n : Fin 24) (v : Int) : State :=
  let c := s.chan n
  let s := if c.compRaised then clearLatching s 0x0D01 n.val 0 (valueBytes v ++ valueBytes c.rbTotal) else s
  let s := clearLatching s 0x0D02 n.val 0 (valueBytes v)
  s.onChan n fun c =>
    { c with comp := .normal, compRaised := false, frozen := false, keeper := c.keeper.map fun k => { k with subst := false } }

/-- A new target below 21.000 mA, or the keeper released, ends the substitution (R444, Table 14.5); during Compliance a new target
is noted (R456). -/
def targetChosen (s : State) (n : Fin 24) (v : Int) : State :=
  let c := s.chan n
  if c.comp == .substituted && (v < 210000 || c.inControl) then endSubst s n v
  else if c.comp == .compliance then s.onChan n fun c => { c with retarget := true }
  else s

/-- Apply a value to an output at apply tick `a` (R327). Bank-now of the shell ends with the first value; in a channel re-kindle
it stays until the calibration is done (log entry 47). A value that meets CH.RESTRAP's bank-now is discarded (R62). -/
def applyOut (s : State) (n : Fin 24) (v : Int) (a : Tick) : State :=
  let c := s.chan n
  if c.restrap then s
  else
    let s := targetChosen s n v
    let s := s.onChan n fun c =>
      { c with applied := v, commanded := true, lastApply := some a, bankShell := c.rekindle.isSome && c.bankShell }
    driveShell s n

/-- A pending list with a value put in, in order of A; one of equal A is replaced (R326). -/
def insertPending (p : PendOut) : List PendOut → List PendOut
  | [] => [p]
  | x :: xs =>
    if p.at_ == x.at_ then p :: xs
    else if p.at_.toNat < x.at_.toNat then p :: x :: xs
    else x :: insertPending p xs

/-! ## Seat frames (R551, Table 18.1) -/

/-- The 24 bits of the channels that `d` picks, bit n for channel n. -/
def chanMask (s : State) (d : Chan → Bool) : Nat :=
  ((List.finRange 24).filter fun n => d (s.chan n)).foldl (fun m n => m + 2 ^ n.val) 0

/-- The channel is an input by its profile in force. -/
def isInChan (c : Chan) : Bool :=
  match c.profile with
  | some p => isInput p
  | none => false

/-- A channel's calibrated shunt or excitation, for the active chip of a family that has one. -/
def slCalOf (s : State) (n : Fin 24) : BitVec 32 :=
  match (s.chan n).profile with
  | some p =>
    if (s.chan n).active && (cpaOf p ≤ 2 || (5 ≤ cpaOf p && cpaOf p ≤ 10)) then Config.slCal n.val else 0
  | none => 0

/-- Bytes 0 to 3 of a channel record. -/
def seatRecord (s : State) (n : Fin 24) : List Byte :=
  let c := s.chan n
  valueBytes c.target
  ++ beBytes 1 (b2n c.inControl + 2 * b2n (c.comp == .compliance) + 4 * b2n (c.comp == .substituted) + 8 * b2n (alarmHigh s n))

/-- A mirror message as `SL_MIRROR` carries it. -/
def mirrorBytes (m : Mirror) : List Byte := [m.kind, m.seq] ++ beBytes 1 m.body.length ++ m.body

/-- The mirror messages a frame takes: the oldest not sent, as many as fit in `room` bytes, one block at most. -/
def mirrorFit : Nat → List Mirror → List Mirror
  | _, [] => []
  | room, m :: r =>
    if m.sent.isSome then mirrorFit room r
    else if room < m.body.length + 3 then []
    else if m.kind == 6 then [m]
    else m :: mirrorFit (room - (m.body.length + 3)) r

/-- The chip's seat record names the partner it hears. -/
def namesYou (s : State) : Bool :=
  match s.seat.partner, seatPartner s.vault with
  | some p, some d => p.die == d
  | _, _ => false

/-- A tier at which a chip can lead (R556). -/
def leads (t : Nat) : Bool := Tier.measure.rank ≤ t

/-- The chip is to lead (R556). -/
def leadWanted (s : State) : Bool :=
  match s.seat.state with
  | .seated =>
    let first := twinOf s.straps.codes == some 1
    let other := match s.seat.partner with
      | some p => leads p.tier.toNat
      | none => false
    leads s.tiers.tier.rank && (first || !other)
  | .alone => true
  | _ => false

/-- `SL_FLAGS`: bit 6 shows the lead this chip takes or has. -/
def seatFlags (s : State) (banked : Bool) : Nat :=
  128 * b2n (namesYou s) + 64 * b2n (leadWanted s) + 32 * b2n s.seat.release.isSome + 16 * b2n (s.seat.state == .released)
  + 8 * b2n banked + 4 * b2n s.seat.mirrorGot

/-- Scramble bytes 4 to 575 of a frame, or descramble them (R155, R551). -/
def seatScramble (bs : List Byte) : List Byte :=
  let body := bs.drop 4
  let bits := ((bitsOf body).zip (scramble (8 * body.length))).map fun e => e.1 != e.2
  bs.take 4 ++ (chunks 8 body.length bits).map fun b => BitVec.ofNat 8 (bitsNat b)

/-- The seat frame sent now, with the mirror messages given. -/
def seatFrame (s : State) (banked : Bool) (ms : List Mirror) : List Byte :=
  let t := s.seat
  let out := fun (d : Drive) => chanMask s fun c => isOutChan c && c.drive == d
  let body : List Byte :=
    beBytes 1 (16 + t.state.code) ++ [t.seq] ++ beBytes 8 s.dieId.toNat ++ beBytes 8 s.straps.digest.toNat
    ++ beBytes 1 (s.tiers.tier.rank * 32 + (twinOf s.straps.codes).getD 0) ++ beBytes 1 (seatFlags s banked)
    ++ beBytes 8 s.clock.counter.toNat ++ [s.clock.epoch] ++ beBytes 1 ((timeQ s).toNat * 16)
    ++ beBytes 3 (chanMask s fun c => isInChan c && c.active) ++ beBytes 3 (out .carrying) ++ beBytes 3 (out .sharing)
    ++ beBytes 3 (chanMask s fun c => c.forced) ++ [t.mmAck] ++ [0]
    ++ (List.finRange 24).flatMap (fun n => seatRecord s n ++ beBytes 4 (slCalOf s n).toNat)
    ++ padTo 320 (ms.flatMap mirrorBytes) ++ zeros 12
  seatScramble (beBytes 4 0x3A5C96F1 ++ body ++ beBytes 4 (crc32 body).toNat)

/-! ## Seat states and drive modes (R555, R558) -/

/-- Give an output a drive mode: the shell drives its part at once, a keeper in control takes it at its next refresh (R563). -/
def setDrive (s : State) (n : Fin 24) (d : Drive) : State :=
  let s := s.onChan n fun c => { c with drive := d }
  let c := s.chan n
  if !isOutChan c || c.inControl then s
  else s.onChan n fun c => driveValue (trimOf s.vault n) s.clock.age c.target c

/-- A current output. -/
def isCurrent (c : Chan) : Bool :=
  match c.profile with
  | some p => cpaOf p == 11 || cpaOf p == 12
  | none => false

/-- The partner's frames show an output in Sharing; in Carrying. -/
def partnerShares (s : State) (n : Fin 24) : Bool :=
  match s.seat.partner with
  | some p => p.share.toNat.testBit n.val
  | none => false
def partnerCarries (s : State) (n : Fin 24) : Bool :=
  match s.seat.partner with
  | some p => p.carry.toNat.testBit n.val
  | none => false

/-- During a handback a Carrying output's share is watched: from when it has stayed within 24 uA of target / 2 (R561). -/
def handbackTrack (s : State) (n : Fin 24) (own : Int) : State :=
  let c := s.chan n
  if s.seat.state == .seated && isCurrent c && c.drive == .carrying && partnerShares s n then
    let near := (own - roundDiv c.target 2).natAbs ≤ 240
    let old := (sparseGet s.seat.handback n.val).getD none
    s.onSeat fun t => { t with handback := sparseSet n.val (if near then some (old.getD s.clock.age) else none) t.handback }
  else s

/-- Every output to Out and every input to listener (R556, R558). -/
def seatWithdrawn (s : State) : State :=
  s.each (List.finRange 24) fun n s => setFrontEnd ((setDrive s n .out).onChan n fun c => { c with active := false, roleStep := none }) n

/-- Enter a seat state, with its event (R555), and the drive modes of the state (R558): Alone carries its current outputs and keeps
its voltage outputs; a seated chip changes modes by handback; every other state is Out. -/
def seatEnter (s : State) (new : Seat) : State :=
  let old := s.seat.state
  let s := raise (s.onSeat fun t => { t with state := new, handback := [] }) 0x1101 0x22 (beBytes 1 old.code ++ beBytes 1 new.code)
  match new with
  | .solo | .seated => s
  | .alone => s.each (List.finRange 24) fun n s => if isCurrent (s.chan n) then setDrive s n .carrying else s
  | _ => (seatWithdrawn s).onSeat fun t => { t with lead := false }

end Sys2Proof.Machine
end

