-- ==== Sys2Proof/Machine/ClockTime.lean ====
section
/-! DEFINITION. One clock, network time and the order of events (04_one_clock_and_time.md), with the release of events into
the queues (R116, 20_events_and_faults.md R598, R600). -/

namespace Sys2Proof.Machine

/-! ## Discipline -/

/-- ACQUIRE_START (Table 4.2): pilots and a valid beacon on the dealer-facing port, from Crystal or Holdover. -/
def execAcquireStart (s : State) : Out :=
  let k := s.clock.state
  let lock := match s.clock.facing with
    | some p => (s.port p).lock
    | none => false
  .next <| whenDue ((k == .crystal || k == .holdover) && lock && s.clock.hops.isSome) (fun s =>
    s.onClock fun (c : Clock) => { c with state := .acquiring, goodTricks := 0, jumps := 0 }) s

/-- The greatest correction, 100 ppm, and its greatest change per trick, 50 ppm per second, in 10^-7 ppm (R95, R98). -/
abbrev corrMax : Int := 1000000000
abbrev corrStep : Int := 98304

/-- The synthesiser's step is 0.001 ppm (R95). -/
def synthOf (corr : Int) : Int := roundDiv corr 10000

/-- DISCIPLINE_LOOP_UPDATE (R98, R96, Table 4.8): at a trick boundary, while Acquiring or Disciplined. `want` is the correction
the loop filter asks for in 10^-7 ppm, `freqErr` in 0.001 ppm, `phaseErr` in 1/64 tick. -/
def execDisciplineLoopUpdate (want freqErr phaseErr : Int) (s : State) : Out :=
  let acq := s.clock.state == .acquiring
  .next <| whenDue (atTrick s && (acq || s.clock.state == .disciplined)) (fun s =>
    let c := s.clock
    let corr := clamp (-corrMax) corrMax (c.corr + clamp (-corrStep) corrStep (want - c.corr))
    let good := acq && -50 ≤ freqErr && freqErr ≤ 50 && -16 ≤ phaseErr && phaseErr ≤ 16
    let beyond := acq && (want < -corrMax || corrMax < want)
    let back := -960000000 ≤ want && want ≤ 960000000
    let rg := if back then c.rangeGood + 1 else 0
    let s := s.onClock fun (c : Clock) =>
      { c with corr := corr, synth := synthOf corr, history := (corr :: c.history).take 256,
               goodTricks := if good then c.goodTricks + 1 else 0, rangeGood := rg }
    let d := beBytes 4 (unsigned 32 (synthOf want))
    if beyond then raise s 0x0403 0x31 d else if 64 ≤ rg then clearLatching s 0x0403 0x31 0 d else s) s

/-- `DEALER_HOPS` as reported (Table 15.7). -/
def hopsByte (s : State) : Nat := s.clock.hops.getD 0x7F

/-- The dealer-facing port as events name it: 0 TA, 1 TB. -/
def facingByte (s : State) : Nat :=
  match s.clock.facing with
  | some p => portNum p
  | none => 0

/-- DISCIPLINED (Table 4.2): 64 consecutive tricks within the limits. -/
def execDisciplined (s : State) : Out :=
  .next <| whenDue (s.clock.state == .acquiring && 64 ≤ s.clock.goodTricks) (fun s =>
    raise (s.onClock fun (c : Clock) => { c with state := .disciplined, jumps := 0 }) 0x0401 0x31
      (beBytes 1 (facingByte s) ++ beBytes 1 (hopsByte s))) s

/-- The mean of the kept per-trick corrections (R99). -/
def holdoverCorr (c : Clock) : Int :=
  match c.history with
  | [] => c.corr
  | h => roundDiv h.sum h.length

/-- Enter Holdover (R99, R121): the correction is frozen at its mean; a new epoch that waits is dropped. -/
def enterHoldover (s : State) : State :=
  let corr := holdoverCorr s.clock
  let s := s.onClock fun (c : Clock) =>
    { c with state := .holdover, corr := corr, synth := synthOf corr, goodTricks := 0,
             realign := match c.realign with | some r => if r.epoch == c.epoch then some r else none | none => none }
  raise s 0x0402 0x31 (beBytes 1 (facingByte s) ++ beBytes 4 (unsigned 32 (synthOf corr)))

/-- HOLDOVER_ENTER (R96, R99): 64 symbols without a pilot on the dealer-facing port. -/
def execHoldoverEnter (p : Port) (s : State) : Out :=
  .next <| whenDue (s.clock.facing == some p && (s.clock.state == .disciplined || s.clock.state == .acquiring)) enterHoldover s

/-- PLL_LOCK_LOST (R124): the chip moves to Banked. -/
def execPllLockLost (s : State) : Out :=
  let s := s.onSupply fun u => { u with pll := false }
  .next (if shellRuns s then chipReset s (some 0x04) else s)

/-! ## Beacons -/

/-- The body of a time beacon sent now (Table 8.3); `NET_TICK` is the line time of the preamble. -/
def beaconBody (s : State) : List Byte :=
  beBytes 8 s.clock.line.toNat ++ beBytes 1 s.clock.epoch.toNat ++ beBytes 1 ((timeQ s).toNat * 16) ++ beBytes 1 (hopsByte s)

/-- A port sends time beacons (R101). -/
def sendsBeacon (s : State) (p : Port) : Bool :=
  match s.clock.state with
  | .dealer => true
  | .disciplined => s.clock.facing != some p && s.clock.hops.isSome
  | _ => false

/-- A frame of `n` symbols from line time `t` would still be sent at the jump, or begin in the quiet trick (R105, R251). -/
def meetsJump (s : State) (t n : Nat) : Bool :=
  let quiet := match s.clock.quietUntil with
    | some u => t < u.toNat
    | none => false
  let jump := match s.clock.realign with
    | some r => r.jump && (s.clock.line.toNat / trickTicks + 1) * trickTicks < t + n * symbolTicks
    | none => false
  quiet || jump

/-- The port sends time beacons in the reserved symbols of its line (R235). -/
def inBeaconSlot (s : State) (p : Port) : Bool :=
  sendsBeacon s p && (s.port p).link == .up && s.clock.line.toNat % (16 * trickTicks) < 3 * symbolTicks

/-- Ticks free for a frame that must avoid the reserved beacon symbols, the transit frames detected and a jump (R245, R105). -/
def roomTicks (s : State) (p : Port) : Nat :=
  let now := s.clock.line.toNat
  let q := s.port p
  let beacon := if sendsBeacon s p && q.link == .up then (now / (16 * trickTicks) + 1) * (16 * trickTicks) - now else 2 ^ 64
  let due := match q.due with
    | some t => t.due.toNat - now
    | none => 2 ^ 64
  let jump := match s.clock.realign with
    | some r => if r.jump then (now / trickTicks + 1) * trickTicks - now else 2 ^ 64
    | none => 2 ^ 64
  min beacon (min due jump)

/-- From slot 31 to slot 323 of a sounding no frame begins on the port (R582). -/
def soundingSpan (s : State) (q : PortState) : Bool :=
  isSounding q && let k := (s.clock.line.toNat - q.slot0.toNat) / symbolTicks; 31 ≤ k && k ≤ 323

/-- A frame of `n` symbols may start now on a port: it ends before the reserved beacon symbols and the transit frames detected, and
it meets no jump (R105, R245), outside the training span of a sounding (R582). -/
def maySpan (s : State) (p : Port) (n : Nat) : Bool :=
  !soundingSpan s (s.port p) && !inBeaconSlot s p && n * symbolTicks ≤ roomTicks s p && !meetsJump s s.clock.line.toNat n

/-- BEACON_SEND (R101): at symbol 0 of every 16th trick. The frame leaves by the symbol schedule (R235). -/
def execBeaconSend (s : State) : Out :=
  .next <| whenDue (inService s && atTrick s && trickNo s % 16 == 0) (fun s =>
    let b := llMessage 1 (beaconBody s)
    s.each [Port.ta, .tb] fun p s =>
      if sendsBeacon s p && (s.port p).link == .up then s.onPort p fun q => { q with beaconOut := b } else s) s

/-- The offset of a beacon in 1/64 tick (R102). -/
def beaconOffset (net d a64 : Nat) : Int := (net : Int) * 64 + d - a64

/-- What an accepted beacon's offset calls for (R103, R118, Table 4.8). -/
def beaconAct (s : State) (off : Int) (epoch : BitVec 8) : State :=
  let far := off < -65536 || 65536 < off
  let delta := roundDiv off 64
  let new := epoch != s.clock.epoch
  let jump := fun s : State => s.onClock fun (c : Clock) => { c with realign := some { delta := delta, epoch := epoch, jump := true }, jumps := 0 }
  if !far then
    let s := s.onClock fun (c : Clock) => { c with jumps := 0 }
    if new then s.onClock fun (c : Clock) => { c with realign := some { delta := delta, epoch := epoch, jump := false } } else s
  else if !new && s.clock.state == .disciplined then
    let n := s.clock.jumps + 1
    let s := raise s 0x0405 0x31 (beBytes 8 (unsigned 64 delta) ++ beBytes 1 n)
    if 3 ≤ n then jump s else s.onClock fun (c : Clock) => { c with jumps := n }
  else jump s

/-- BEACON_RECEIVE (R97, R102, R103, R122, Table 4.8). `a64` is A, the line time of the preamble's arrival in 1/64 tick. A
beacon on a port without a valid `LINK_D` is not used (log entry 29). -/
def execBeaconReceive (p : Port) (body : List Byte) (a64 : Nat) (s : State) : Out :=
  let net := fieldAt body 0 8
  let epoch : BitVec 8 := BitVec.ofNat 8 (byteAt body 8)
  let q := byteAt body 9
  let hops := byteAt body 10 % 128
  if body.length != 11 then .next (countPort s p 0x0B)
  else if 5 ≤ q / 16 % 8 then .next (raise s 0x0406 0x31 (beBytes 1 (portNum p) ++ beBytes 1 q))
  else if s.clock.facing != some p then
    let judged := (s.clock.state == .dealer || (s.clock.state == .disciplined && s.clock.facing.isSome)) && s.clock.slew.isNone
    .next <| match (s.port p).linkD with
      | some d =>
        let off := beaconOffset net d.toNat a64
        if judged && (off < -768 || 768 < off) then
          raise s 0x0407 0x31 (beBytes 1 (portNum p) ++ beBytes 4 (unsigned 32 (roundDiv off 64)))
        else s
      | none => s
  else if 64 ≤ hops then .next (raise s 0x0404 0x31 (beBytes 1 (portNum p) ++ beBytes 1 hops))
  else .next <| match (s.port p).linkD with
    | none => s
    | some d => beaconAct (s.onClock fun (c : Clock) => { c with hops := some (hops + 1) }) (beaconOffset net d.toNat a64) epoch

/-! ## Realignment (R105 to R108, R118, R119) -/

/-- Line times a port holds move with the line phase. -/
def PortState.shift (q : PortState) (d : Tick) : PortState :=
  let tbl := fun (t : PendingTable) => { t with at_ := t.at_ + d }
  { q with
    rxSwitchAt := q.rxSwitchAt + d, retryAt := q.retryAt + d, slot0 := q.slot0 + d, pendTx := q.pendTx.map tbl,
    pendRx := q.pendRx.map tbl, lastAck := q.lastAck.map fun a => (a.1, a.2.1 + d, a.2.2),
    quietUntil := q.quietUntil.map (· + d), llOut := q.llOut.map fun m => (m.1 + d, m.2),
    due := q.due.map fun t => { t with due := t.due + d } }

/-- A sounding ends at a jump (R189): ABORT 0x02 and a new TRAIN_REQ after the quiet trick. -/
def jumpAbort (p : Port) (s : State) : State :=
  if isSounding (s.port p) then
    let s := endSoundOps (abortSounding s p 2) p .failed 0x26
    s.onPort p fun q => { q with retryAt := s.clock.line + BitVec.ofNat 64 trickTicks, lastAbort := 2 }
  else s

/-- The slew in progress ends with its event: the ticks slewed so far (R119). -/
def endSlew (s : State) : State :=
  match s.clock.slew with
  | none => s
  | some (S, k) => raise (s.onClock fun (c : Clock) => { c with slew := none }) 0x040A 0x31 (beBytes 8 (min S (k / 100)))

/-- REALIGN_JUMP (R105 to R108, R118, R119): at the trick boundary the line phase jumps to network time, the quiet trick
starts, the epoch changes, and the counter steps or starts to slew. -/
def execRealignJump (s : State) : Out :=
  match s.clock.realign with
  | none => .next s
  | some r => .next <| whenDue (atTrick s && r.jump) (fun s =>
      let s := jumpAbort .tb (jumpAbort .ta s)
      let d : Tick := BitVec.ofInt 64 r.delta
      let old := s.clock.epoch
      let line := s.clock.line + d
      let S : Int := (line.toNat : Int) - s.clock.counter.toNat
      let evDetail := beBytes 8 S.natAbs ++ beBytes 1 old.toNat ++ beBytes 1 r.epoch.toNat
      let s := { s with
        portA := s.portA.shift d, portB := s.portB.shift d,
        cut := { s.cut with bidTrick := s.cut.bidTrick + d },
        announce := { s.announce with lastTrick := (((s.announce.lastTrick * trickTicks : Nat) + r.delta) / (trickTicks : Nat)).toNat },
        seat := { s.seat with out := s.seat.out.map fun (m : Mirror) => { m with sent := m.sent.map (· + d) } } }
      let s := s.onClock fun (c : Clock) =>
        { c with
          line := line, realign := none, epoch := r.epoch, goodTricks := 0, jumps := 0,
          state := (if c.state == .dealer then ClockState.dealer else ClockState.acquiring),
          quietUntil := some (line + BitVec.ofNat 64 trickTicks),
          counter := (if 0 < S then line else c.counter) }
      let s := if r.epoch == old then s else topologyFlushDue s
      let s := endSlew s
      if 0 < S then raise s 0x0408 0x31 evDetail
      else if S < 0 then raise (s.onClock fun (c : Clock) => { c with slew := some (S.natAbs, 0) }) 0x0409 0x31 evDetail
      else s) s

/-- SLEW_END (R108). -/
def execSlewEnd (s : State) : Out :=
  match s.clock.slew with
  | none => .next s
  | some (S, k) => .next <| whenDue (S * 100 ≤ k) endSlew s

/-- EPOCH_CHANGE_NO_JUMP (R103, R106). -/
def execEpochChangeNoJump (s : State) : Out :=
  match s.clock.realign with
  | none => .next s
  | some r => .next <| whenDue (atTrick s && !r.jump) (fun s =>
      topologyFlushDue <| s.onClock fun (c : Clock) =>
        { c with
          epoch := r.epoch, realign := none, goodTricks := 0,
          state := if c.state == .dealer then ClockState.dealer else ClockState.acquiring }) s

/-! ## Release of events -/

/-- Records of the holding store grouped by event: a part marked single or first starts an event (Table 20.1). -/
def groupParts (l : List (List Byte × BitVec 16)) : List (List (List Byte) × BitVec 16) :=
  (l.foldl (fun (acc : List (List (List Byte) × BitVec 16)) r =>
    let mark := byteAt r.1 17 / 64
    match acc with
    | [] => [([r.1], r.2)]
    | g :: rest => if mark ≤ 1 then ([r.1], r.2) :: g :: rest else (g.1 ++ [r.1], g.2) :: rest) []).reverse

/-- Put an event's records into the node queue and the queues of its hands; the bit of a hand that is Resetting is cleared in
every record (R595, R596, R606). -/
def queueRecords (s : State) (rs : List (List Byte)) (hands : BitVec 16) : State :=
  let named := (List.range 16).filter fun h => hands.toNat.testBit h && (s.hand (Fin.ofNat 16 h)).state != .resetting
  let rs := rs.map (withHands (named.foldl (fun m h => m ||| BitVec.ofNat 16 (2 ^ h)) 0))
  s.each (16 :: named) fun h s => pushEventRecords s h rs

/-- The holding store enters the queues: the event-lost record of its losses first, then its records in order (R598). -/
def drainHolding (s : State) : State :=
  if !queuesTake s then s
  else
    let v := s.events
    let s := if v.holdLost == 0 then s else pushEventRecords s 16 [lostRecord s 16 v.holdLost v.holdFirst v.holdLast]
    let s := s.each (groupParts v.holding) fun g s => queueRecords s g.1 g.2
    s.onEvents fun v => { v with holding := [], holdLost := 0 }

/-- Put an event into the holding store: all its parts or none (R598). -/
def holdEvent (s : State) (e : Event) : State :=
  let rs := e.records
  s.onEvents fun v =>
    if v.holding.length + rs.length ≤ 64 then { v with holding := v.holding ++ rs.map fun r => (r, e.hands) }
    else { v with holdLost := v.holdLost + rs.length, holdFirst := if v.holdLost == 0 then e.tick else v.holdFirst,
                  holdLast := e.tick }

/-- EVENT_RELEASE (R116, R598): the oldest event of the merge, 4,096 ticks after its tick. -/
def execEventRelease (s : State) : Out :=
  match s.events.merge with
  | [] => .next s
  | e :: rest => .next <| whenDue (shellRuns s && e.tick.toNat + 4096 ≤ s.clock.counter.toNat) (fun s =>
      let s := s.onEvents fun v => { v with merge := rest }
      if queuesTake s then queueRecords (drainHolding s) e.records e.hands else holdEvent s e) s

/-- HOLDING_STORE_DRAIN (R598). -/
def execHoldingStoreDrain (s : State) : Out := .next <| whenDue (shellRuns s) drainHolding s

/-- HELD_CLEAR_RELEASE (R600): 256 tricks after the raise. -/
def execHeldClearRelease (code : BitVec 16) (local_ obj : Nat) (s : State) : Out :=
  match s.events.latches.find? (sameLatch code.toNat local_ obj) with
  | none => .next s
  | some l => .next <| whenDue (l.clearing && rateTicks ≤ since s l.at_) (fun s =>
      (pushEvent s code.toNat local_ none true l.rpt l.detail).onEvents fun v =>
        { v with latches := v.latches.filter fun x => !sameLatch code.toNat local_ obj x }) s

end Sys2Proof.Machine
end

