-- ==== Sys2Proof/Machine/Kindling.lean ====
section
/-! DEFINITION. Kindling, the rails and the tiers (05_kindling_and_resets.md, 01_architecture.md, 22_balls_and_package.md). -/

namespace Sys2Proof.Machine

/-! ## Power, rails, RST_N and TEST_EN -/

/-- POWER_UP (Table 5.1, Off): the always-on domain starts, FLUE_EN high unless latched low, HEARTH_DIS low, bank-now by
the rail monitor. From Off the cause is 0x01; after a brownout VBUS is only noted as good again. -/
def execPowerUp (s : State) : Out :=
  .next <|
    if s.supply.kindle == .off then
      { s with
        supply := { noteCause s.supply 0x01 with vbus := true, good := [.van], kindle := .rails,
                                                 flueEn := !s.supply.flueLatched, hearthDis := false },
        tiers := { s.tiers with tier := .banked },
        chans := Vector.ofFn fun n =>
          keeperTakes (trimOf s.vault n) s.clock.age
            { s.chans[n] with bankMon := true, disc := [false, false, false, false] } }
    else if !s.supply.vbus then
      { s with supply := { s.supply with vbus := true }, tiers := { s.tiers with tier := .banked } }
    else s

/-- A new session for a key slot: it differs from the old one (R468). -/
def newSession (v : BitVec 64) (k : KeySess) : KeySess :=
  let n : BitVec 32 := v.setWidth 32
  { KeySess.reset with session := if n == k.session then n + 1 else n }

/-- Draw a new session for one slot. -/
def redrawSession (s : State) (slot : Fin 20) : State :=
  let r := s.draw
  r.2.onEngine fun e => { e with slots := e.slots.set slot (newSession r.1 e.slots[slot]) }

/-- Draw the hash seeds at a chip reset: PB's is PA's XOR 0x9E37 (R264). -/
def drawSeeds (s : State) : State :=
  let r := s.draw
  let v : BitVec 16 := r.1.setWidth 16
  (r.2.onPipe .ta fun q => { q with seed := v }).onPipe .tb fun q => { q with seed := v ^^^ 0x9E37 }

/-- SHELL_RELEASE (Table 5.1, Rails): counter and epoch 0, clock Crystal, retention latch cleared, the shell's own
bank-now, new sessions (R468) and hash seeds (R264). -/
def execShellRelease (s : State) : Out :=
  .next <| whenDue (s.supply.kindle == .rails && s.supply.vbus && s.supply.rstN && !s.supply.testEn) (fun s =>
    let s := { s with
      supply := { s.supply with kindle := .reading, good := [.vcore, .vsram, .vio, .van, .vfp, .vfn], pll := true,
                                retention := false, vaultDone := false, clearDone := false, coreReady := false },
      clock := Clock.reset,
      straps := Straps.reset,
      dbg := if s.supply.pll then s.dbg else Debug.reset }
    let s := s.mapChans fun _ c => { c with bankMon := false, bankShell := true, refreshed := 0 }
    let s := s.each (List.finRange 20) fun k s => redrawSession s k
    drawSeeds s) s

/-- RAIL_OUT_OF_WINDOW (R660, Table 5.1, R28, R29). Before Pass-through any rail sends the chip back to Rails; in service
VCORE, VSRAM and VIO do, and VFP and VFN move the tier. -/
def execRailOutOfWindow (r : Rail) (s : State) : Out :=
  if r == .van then .next (vanLost s)
  else
    let s := s.onSupply fun u => { u with good := u.good.filter (· != r) }
    .next <| match s.supply.kindle with
      | .reading | .joining => chipReset s (some 0x04)
      | .rails => chipReset s none
      | .up => settleTier s 0x00
      | _ => s

/-- VAN_LOST (R29, Table 5.1). -/
def execVanLost (s : State) : Out := .next (vanLost s)

/-- RST_N_ASSERT (R138, R147, R148): a chip reset with cause 0x03; in ember only the retention latch is cleared. -/
def execRstNAssert (s : State) : Out :=
  let s := s.onSupply fun u => { u with rstN := false }
  .next <| match s.supply.kindle with
    | .off => s
    | .ember => s.onSupply fun u => { noteCause u 0x03 with retention := false }
    | _ => chipReset s (some 0x03)

/-- RST_N_RELEASE (R138). -/
def execRstNRelease (s : State) : Out := .next (s.onSupply fun u => { u with rstN := true })

/-- TEST_EN_HIGH (R643): the chip stays in Rails, as with RST_N low. -/
def execTestEnHigh (s : State) : Out :=
  let s := s.onSupply fun u => { u with testEn := true }
  .next (if shellRuns s then chipReset s none else s)

/-- TEST_EN_LOW (R643): kindling continues from Rails. -/
def execTestEnLow (s : State) : Out := .next (s.onSupply fun u => { u with testEn := false })

/-! ## Reading -/

/-- STRAP_ROUND (R40, R42, R43, R56): a round of the kindling reading, or of the re-read in progress. -/
def execStrapRound (r : StrapRound) (s : State) : Out :=
  .next <|
    if s.supply.kindle == .reading && !s.straps.resolved then
      whenDue (s.straps.rounds.length < 8) (fun s => s.onStraps fun t => { t with rounds := t.rounds ++ [r] }) s
    else
      match s.straps.reread with
      | some q => whenDue (q.rounds.length < 8)
          (fun s => s.onStraps fun t => { t with reread := some { q with rounds := q.rounds ++ [r] } }) s
      | none => s

/-- ALM_SEL or DBG_EN without a majority: the strap-ambiguous event of byte 72 (R43). -/
def digitalEvent (s : State) (found : Bool) : State := if found then s else raise s 0x0202 0x32 (beBytes 1 72 ++ [0]) 72

/-- STRAP_READING_RESOLVED (R41 to R46, R50, R53): codes, digital pins, events and digest; the analogue core start begins
(R133). A failed reference makes every pin ambiguous with the decoder-fault event alone. -/
def execStrapReadingResolved (s : State) : Out :=
  .next <| whenDue (s.supply.kindle == .reading && !s.straps.resolved && s.straps.rounds.length == 8) (fun s =>
    let rs := s.straps.rounds
    let alm := almMajority rs
    let dbg := dbgMajority rs
    let bad := badReference rs
    let codes := (List.range 72).map fun i => if bad.isSome then Code.ambiguous else majority (pinConvs rs i)
    let s := s.onStraps fun t =>
      { t with codes := codes, almSel := alm.getD .open_, dbgEn := dbg.getD false, resolved := true, rounds := [],
               digest := strapDigest codes (alm.getD .open_) (dbg.getD false), blankmap := codeAt codes pinBlankmap }
    let s := s.onSupply fun u => { u with coreAt := s.clock.age }
    let s := match bad with
      | some (round, ref) => raise s 0x0204 0x32 (beBytes 1 round ++ beBytes 1 ref)
      | none =>
        s.each (List.range 72) fun i s => marginalEvent (strapEvents s codes i) i (pinConvs rs i)
    digitalEvent (digitalEvent s alm.isSome) dbg.isSome) s

/-- Kind and index of a vault record in the events 0x1002 and 0x1003 (Table 20.3). -/
def vaultKind : VKey → Nat × Nat
  | .protection => (1, 0)
  | .key k => (2, k.val)
  | .ward h => (3, h.val)
  | .trim c => (4, c.val)
  | .curve k => (5, k.val)
  | .mask => (6, 0)
  | .repair b i => (7, b.val * 8 + i.val)

/-- The detail of an event that names a vault record. -/
def vaultDetail (k : VKey) : List Byte := beBytes 1 (vaultKind k).1 ++ beBytes 2 (vaultKind k).2

/-- A copy that the vault load found damaged. -/
def VCopy.damage (c : VCopy) : VCopy := { c with crc := ~~~ crc32 (c.data ++ beBytes 2 c.gen.toNat) }

/-- The vault with the copies the load found damaged. -/
def damageVault (v : Vault) (d : List (VKey × Bool × Bool)) : Vault :=
  { v with recs := v.recs.map fun e =>
      let hit := d.find? fun x => x.1 == e.1
      match hit with
      | some (_, a, b) => (e.1, { e.2 with a := if a then e.2.a.damage else e.2.a, b := if b then e.2.b.damage else e.2.b })
      | none => e }

/-- The result of the vault load for one record (R131, Table 17.4). -/
def vaultRecord (s : State) (e : VKey × VRec) : State :=
  match e.2.look with
  | .unreadable =>
    let s := raise s 0x1002 0x70 (vaultDetail e.1) ((vaultKind e.1).1 * 1024 + (vaultKind e.1).2)
    match e.1 with
    | .trim _ | .curve _ | .mask => s.onTiers fun t => { t with capVault := true }
    | .ward _ => unitFails s .ward
    | .repair b _ => raise s 0x0A07 (0x40 + b.val / 8) (beBytes 1 b.val ++ beBytes 2 (fieldAt e.2.a.data 1 2)) b.val
    | _ => s
  | .data bs =>
    match e.1 with
    | .repair b _ => s.onMem fun m =>
        { m with remap := m.remap ++ [(b.val, { spare := byteAt bs 3 % 8, row := fieldAt bs 1 2 % 512, persistent := true })] }
    | _ => s
  | .absent => s

/-- VAULT_LOAD_DONE (R130, R131, R516): the records' groups, and the persistent row repairs. -/
def execVaultLoadDone (damaged : List (VKey × Bool × Bool)) (s : State) : Out :=
  .next <| whenDue (s.supply.kindle == .reading && !s.supply.vaultDone) (fun s =>
    let s := s.onVault fun v => damageVault v damaged
    let s := s.each s.vault.recs fun e s => vaultRecord s e
    let s := if vaultClaimed s.vault && s.vault.commission then raise s 0x1006 0x70 [] else s
    s.onSupply fun u => { u with vaultDone := true }) s

/-- A row whose readback mismatched in the memory clear (11_memory_banks.md, At kindling). -/
def clearBadRow (s : State) (b : Fin 64) (r : Fin 512) : State :=
  let src := 0x40 + b.val / 8
  let d := beBytes 1 b.val ++ beBytes 2 r.val
  match repairRow s.mem b.val r.val false with
  | some (k, m) => raise { s with mem := m } 0x0A04 src (d ++ beBytes 1 k)
  | none => unitFails (raise s 0x0A05 src d) (.group (Fin.ofNat 8 (b.val / 8)))

/-- MEMORY_CLEAR_DONE (R130): every word zero, no poison; bad rows repaired where a spare is free. -/
def execMemoryClearDone (bad : List (Fin 64 × Fin 512)) (s : State) : Out :=
  .next <| whenDue (s.supply.kindle == .reading && s.supply.vaultDone && !s.supply.clearDone) (fun s =>
    let s := s.onMem fun m => { m with cells := [], poison := [], scrub := [] }
    let s := s.each bad fun e s => clearBadRow s e.1 e.2
    s.onSupply fun u => { u with clearDone := true }) s

/-- The stranger's event and cap (R532, Table 17.4): cause, recorded value, present value. -/
def makeStranger (s : State) (cause : Nat) (recorded present : BitVec 64) : State :=
  raise (s.onTiers fun t => { t with stranger := true }) 0x1004 0x70
    (beBytes 1 cause ++ beBytes 8 recorded.toNat ++ beBytes 8 present.toNat)

/-- The digest and partner judgements at kindling (R54, R131, R532). -/
def judgeStranger (s : State) : State :=
  let now := s.straps.digest
  let s := match s.vault.look .protection with
    | .absent =>
      s.onVault fun v =>
        { v with pulses := v.pulses ++ [{ key := .protection, data := protectionBytes false now none, why := .firstDigest }] }
    | .unreadable =>
      makeStranger (raise s 0x0205 0x32 (zeros 8 ++ beBytes 8 now.toNat)) 1 0 now
    | .data _ =>
      let stored := (storedDigest s.vault).getD 0
      if stored == now || !vaultClaimed s.vault then s
      else makeStranger (raise s 0x0205 0x32 (beBytes 8 stored.toNat ++ beBytes 8 now.toNat)) 1 stored now
  if isTwin s && (seatPartner s.vault).isNone && !s.tiers.stranger then makeStranger s 2 0 0 else s

/-- The seat at the end of Reading: a twin is Unpaired, listens and keeps every output Out (Table 18.2, R556). -/
def seatStart (s : State) : State :=
  if isTwin s then
    (s.onSeat fun t => { t with state := .unpaired }).mapChans fun _ c => { c with active := false, drive := .out }
  else (s.onSeat fun t => { t with state := .solo }).mapChans fun _ c => { c with active := true, drive := .carrying }

/-- The mask profile in use: strap code 15 takes the custom slot once it is loaded (Table 2.3, R185). -/
def maskInUse (s : State) : Fin 16 :=
  let m := maskStrap s.straps.codes
  if m == 15 then (match s.vault.look .mask with | .data _ => 15 | _ => 0) else Fin.ofNat 16 m

/-- KINDLE_READING_DONE (Table 5.1, Reading): digest judged, keepers configured, hand plan, windows, ports, mask and
detection set from the straps, retention latch set; FLUE_LIM and charging may start (R72, R73). -/
def execKindleReadingDone (s : State) : Out :=
  .next <| whenDue (s.supply.kindle == .reading && s.straps.resolved && s.supply.vaultDone && s.supply.clearDone) (fun s =>
    let codes := s.straps.codes
    let s := judgeStranger s
    let s := s.onTiers fun t => { t with capStrap := strapCap codes, upCount := none }
    let s := seatStart s
    let s := s.each (List.finRange 24) fun n s => curveEmptyEvent (configureChannel s n) n
    let port := fun (pin : Nat) (q : PortState) => { q with eMode := eModeOf codes pin, mask := maskInUse s }
    let s := (s.onPort .ta (port pinDetA)).onPort .tb (port pinDetB)
    let s := s.onTables fun t =>
      { t with prefixes := match placeOf codes with | some p => [ownPrefix p] | none => [] }
    let s := s.onQueues fun u => { u with ready := true }
    let s := s.onMem fun m => { m with windows := windowTable }
    s.onSupply fun u => { u with kindle := .joining, retention := true }) s

/-- The coarse-path fault: event and cap (Table 13.8). -/
def coarseFault (s : State) (n : Fin 24) (cause : Nat) : State :=
  capChannel ((raise s 0x0C04 n.val (beBytes 1 cause)).onChan n fun c => { c with capCoarse := true }) n

/-- ANALOG_CORE_START_DONE (R133): 15,000,000 ticks after its start; a channel whose calibration fails has a coarse-path
fault. -/
def execAnalogCoreStartDone (calFail : List (Fin 24)) (s : State) : Out :=
  .next <| whenDue ((s.supply.kindle == .joining || s.supply.kindle == .up) && !s.supply.coreReady
      && 15000000 ≤ since s s.supply.coreAt) (fun s =>
    let s := s.onSupply fun u => { u with coreReady := true }
    s.each calFail fun n s => coarseFault s n 2) s

/-- KINDLE_ATTEMPT_FAIL (R148): a chip reset with cause 0x06; after three in a row, Halted. -/
def execKindleAttemptFail (why : KindleFail) (s : State) : Out :=
  let k := s.supply.kindle
  .next <| whenDue (k == .rails || k == .reading || k == .joining) (fun s =>
    let n := s.supply.attempts + 1
    let s := (chipReset s (some 0x06)).onSupply fun u => { u with attempts := n }
    if 3 ≤ n then s.onSupply fun u => { u with kindle := .halted, haltReason := some why } else s) s

/-! ## Tiers -/

/-- TIER_MOVE_DOWN (R26, R28 to R34): units found not working, and the move to the highest tier allowed. -/
def execTierMoveDown (lost : List UnitId) (s : State) : Out :=
  if lost.contains (.rail .van) then .next (vanLost s)
  else
    let s := s.each lost fun u s => unitFails s u
    .next (settleTier s ((lost.map unitSrc).foldl min 0x70))

/-- The detail byte of a halt reason (Table 20.3, code 0x0102). -/
def haltCode : Option KindleFail → Nat
  | none => 0
  | some .pllLock => 1
  | some .group0 => 2
  | some .selfCheck => 3

/-- Entry into Pass-through from Joining (Table 5.1): BYP_HOLD active, silence timer started, the kindled event with
`RESET_CAUSE`, the announcements due, the sweep at region 0, the pairing window opened. -/
def enterPassThroughUp (s : State) : State :=
  let u := s.supply
  let cause := u.causeNext.getD u.cause
  let s := s.onSupply fun u => { u with kindle := .up, bypHold := true, cause := cause, causeNext := none, attempts := 0,
                                        haltReason := none }
  let s := s.onTiers fun t => { t with tier := .passThrough }
  let s := tierEvent s .banked .passThrough 0x31
  let s := raise s 0x0102 0x31 ([cause] ++ beBytes 1 u.attempts ++ beBytes 1 (haltCode u.haltReason))
  let s := s.onCut fun c => { c with state := .waiting, silence := s.clock.age, hadDealer := false, dealer := none }
  let s := s.onAnnounce fun a => { a with dueTa := true, dueTb := true }
  let s := s.onMem fun m => { m with sweepAt := s.clock.age }
  s.onSeat fun t => { t with windowAt := s.clock.age }

/-- Entry into Measure or Full, one tier up (Table 1.7, Table 12.7). -/
def enterTierUp (s : State) (new : Tier) : State :=
  let old := s.tiers.tier
  let s := s.onTiers fun t => { t with tier := new }
  let s := tierEvent s old new (if new == .measure then 0x00 else 0x60)
  if new == .measure then setFrontEnds s else s

/-- Units reported as working again; a failed memory group stays failed until a chip reset (R14). -/
def unitRecovers (s : State) (us : List UnitId) : State :=
  let ok := fun (u : UnitId) => match u with
    | .group _ => false
    | _ => true
  let rails := us.filterMap fun u => match u with
    | .rail r => some r
    | _ => none
  let s := s.onTiers fun t => { t with failed := t.failed.filter fun u => !(us.contains u && ok u) }
  s.onSupply fun u => { u with good := (u.good ++ rails).dedup }

/-- TIER_MOVE_UP (R27, R31, R132): recovered units are noted; at a trick boundary with 16 tricks counted, one tier up. The
count of the next tier starts at this boundary if its requirements hold. -/
def execTierMoveUp (recovered : List UnitId) (s : State) : Out :=
  let s := unitRecovers s recovered
  let ready := match s.tiers.upCount with
    | some n => 16 ≤ n
    | none => false
  let nxt := if s.supply.kindle == .joining then Tier.passThrough else s.tiers.tier.up
  .next <| whenDue (atTrick s && ready && (s.supply.kindle == .joining || (s.supply.kindle == .up && s.tiers.tier != .full))
      && nxt.rank ≤ (allowedTier s).rank) (fun s =>
    let s := if s.supply.kindle == .joining then enterPassThroughUp s else enterTierUp s nxt
    s.onTiers fun t => { t with upCount := if t.tier != .full && t.tier.up.rank ≤ (allowedTier s).rank then some 0 else none }) s

end Sys2Proof.Machine
end

