-- ==== Sys2Proof/Machine/Straps.lean ====
section
/-! DEFINITION. Reading straps again in service (02_straps_and_resistor_codes.md R55 to R65). -/

namespace Sys2Proof.Machine

/-- Pins of a NODE.RESTRAP function, by digest index (Table 2.9). -/
def functionPins (fn : Nat) : List Nat :=
  match fn with
  | 1 => [pinRank]
  | 2 => [pinMask]
  | 3 => [pinDetA, pinDetB]
  | 4 => [pinLrn]
  | 5 => [pinEvict]
  | 6 => [pinDraw]
  | 7 => [pinHearth]
  | 8 => [pinBlankmap]
  | _ => []

/-- The channel a CH.RESTRAP names, none for a NODE.RESTRAP. -/
def restrapChan (f : CmdFrame) : Option (Fin 24) :=
  if opcodeOf f == 0x0801 then some (Fin.ofNat 24 (byteAt (cmdBody f) 0)) else none

/-- Pins a CH.RESTRAP or NODE.RESTRAP reads (R56, R57, R58). -/
def restrapPins (f : CmdFrame) : List Nat :=
  match restrapChan f with
  | some n => [pinCpa + n.val, pinCpb + n.val]
  | none => functionPins (byteAt (cmdBody f) 0)

/-- Start a re-read (R56); CH.RESTRAP asserts bank-now and opens the quad from its start (R57, R395). -/
def startReread (s : State) (f : CmdFrame) : State :=
  let s := s.onStraps fun t => { t with reread := some { f := f, pins := restrapPins f, rounds := [], at_ := s.clock.age } }
  match restrapChan f with
  | some n =>
    let s := staleBegin s n 3
    let s := s.onChan n fun c => { c with restrap := true, sources := false, shunt := false, switches := false }
    if isOutChan (s.chan n) then bankNow s n else s
  | none => s

/-- Begin a re-read now, or hold it behind the one that runs (R61). -/
def requestReread (s : State) (f : CmdFrame) : State :=
  if s.straps.reread.isNone then startReread s f
  else s.onStraps fun t => { t with rereadQueue := t.rereadQueue ++ [f] }

/-- Codes with the fresh ones laid over. -/
def overlay (codes : List Code) (fresh : List (Nat × Code)) : List Code := fresh.foldl (fun l e => l.set e.1 e.2) codes

/-- STRAP_REREAD_END (R56, R59, R60, R146): the named pins resolve, the digest is formed and its programme pulse asked for; a
held re-kindle of the channel starts. -/
def execStrapRereadEnd (s : State) : Out :=
  match s.straps.reread with
  | none => .next s
  | some q =>
    .next <| whenDue (q.rounds.length == 8 && 55500000 + 3000 * q.pins.length ≤ since s q.at_) (fun s =>
      let bad := badReference q.rounds
      let new := (List.range q.pins.length).map fun k =>
        (q.pins.getD k 0, if bad.isSome then Code.ambiguous else majority (pinConvs q.rounds k))
      let fresh := (s.straps.fresh.filter fun e => !q.pins.contains e.1) ++ new
      let codes := overlay s.straps.codes fresh
      let digest := strapDigest codes s.straps.almSel s.straps.dbgEn
      let s := match bad with
        | some (round, ref) => raise s 0x0204 0x32 (beBytes 1 round ++ beBytes 1 ref)
        | none => s.each (List.range q.pins.length) fun k s =>
            let i := q.pins.getD k 0
            marginalEvent (strapEvents s codes i) i (pinConvs q.rounds k)
      let s := s.onStraps fun t =>
        { t with fresh := fresh, digest := digest, reread := none,
                 dueCh := match restrapChan q.f with
                   | some n => t.dueCh ++ [(n, (s.chan n).profile)]
                   | none => t.dueCh,
                 dueFn := match restrapChan q.f with
                   | some _ => t.dueFn
                   | none => t.dueFn ++ [byteAt (cmdBody q.f) 0] }
      let s := s.onVault fun v =>
        { v with pulses := v.pulses ++ [{ key := .protection, why := .restrap q.f,
                                          data := protectionBytes (vaultClaimed v) digest (seatPartner v) }] }
      match restrapChan q.f with
      | some n => if (s.chan n).rekindleHeld && !halted s 6 then startRekindle s n else s
      | none => s) s

/-- REREAD_HELD_START (R61): the oldest held command begins its re-read. -/
def execRereadHeldStart (s : State) : Out :=
  match s.straps.rereadQueue with
  | [] => .next s
  | f :: rest => .next <| whenDue s.straps.reread.isNone (fun s =>
      startReread (s.onStraps fun t => { t with rereadQueue := rest }) f) s

/-- The change of one channel takes effect (R57): a changed profile closes its streams and starts as after kindling; an
unchanged one releases bank-now. -/
def applyChannel (e : Fin 24 × Option (BitVec 8)) (s : State) : State :=
  let n := e.1
  let p := strapProfile s.straps.codes n.val
  if p == e.2 then
    let s := staleEnd s n 3
    let s := s.onChan n fun c => { c with restrap := false,
                                          bankShell := if c.commanded && c.rekindle.isNone then false else c.bankShell }
    setFrontEnd (driveShell s n) n
  else
    let s := s.each ((streamsOn s n.val).map fun x => x.id.toNat) fun sid s => closeStreamEvent s sid 1 n.val
    let s := clearChannelLatches s n
    let s := s.onChan n fun c => keeperTakes (trimOf s.vault n) s.clock.age (Chan.restart c)
    let s := configureChannel s n
    let s := if (s.chan n).capCurve then curveEmptyEvent s n else clearLatching s 0x0206 n.val 0 [0]
    setFrontEnd (freeGrids s) n

/-- A new blanking map takes effect (R24, R65). -/
def applyBlankmap (s : State) (c : Code) : State :=
  let s := s.onStraps fun t => { t with blankmap := c, blankmapNext := none }
  let s := s.mapChans fun _ ch =>
    { ch with capBlank := (match ch.profile with | some p => (blankMode p).isSome | none => false) && (blankmapOf c).isNone }
  setFrontEnds s

/-- A BLANK input is active. -/
def anyBlank (s : State) : Bool := s.supply.blank.toList.any fun b => b.1

/-- The mask profile in use changes on a port: a re-sound follows, after a sounding that runs (R183, R190). -/
def applyMask (p : Port) (s : State) : State :=
  if isSounding (s.port p) then s.onPort p fun q => { q with maskDue := true }
  else resound (s.onPort p fun q => { q with mask := maskInUse s, maskDue := false }) p 2

/-- A change of detection on a port: a re-sound, and an end of "too long" where the mode changed (Table 6.11). -/
def applyDetection (s : State) (p : Port) (pin : Nat) : State :=
  let e := eModeOf s.straps.codes pin
  if (s.port p).eMode == e then s
  else
    let s := s.onPort p fun q => { q with eMode := e, tooLong := false, retryAt := if q.tooLong then s.clock.line else q.retryAt }
    resound (clearLatching s 0x0505 (portSrc p) 0 (zeros 3)) p 2

/-- The change of one function takes effect (R58, Table 2.9, R65, R90, Table 3.10). -/
def applyFunction (fn : Nat) (s : State) : State :=
  match fn with
  | 2 => (if (s.port .ta).mask == maskInUse s && (s.port .tb).mask == maskInUse s then s else applyMask .tb (applyMask .ta s))
  | 3 => applyDetection (applyDetection s .ta pinDetA) .tb pinDetB
  | 7 =>
    let s := clearLatching s 0x0307 0x30 0 (beBytes 2 s.supply.vh)
    s.onSupply fun u => { u with hearthWeak := false, ledger := ledgerOf (hearthOf s.straps.codes) u.vh }
  | 8 =>
    let c := codeAt s.straps.codes pinBlankmap
    if anyBlank s then s.onStraps fun t => { t with blankmapNext := some c } else applyBlankmap s c
  | _ => s

/-- RESTRAP_APPLY (R57, R58): at the trick boundary after a re-read. -/
def execRestrapApply (s : State) : Out :=
  .next <| whenDue (atTrick s && !(s.straps.dueCh.isEmpty && s.straps.dueFn.isEmpty)) (fun s =>
    let chs := s.straps.dueCh
    let fns := s.straps.dueFn
    let s := s.onStraps fun t => { t with codes := overlay t.codes t.fresh, fresh := [], dueCh := [], dueFn := [] }
    s.each fns applyFunction |>.each chs applyChannel) s

/-- BLANKMAP_DEFERRED_APPLY (R65): at the first trick boundary with no active BLANK input. -/
def execBlankmapDeferredApply (s : State) : Out :=
  match s.straps.blankmapNext with
  | none => .next s
  | some c => .next <| whenDue (atTrick s && !anyBlank s) (fun s => applyBlankmap s c) s

/-- CURVE_CAP_LIFT (R52): at the trick boundary after CURVE.LOAD filled the slot. -/
def execCurveCapLift (s : State) : Out :=
  .next <| whenDue (atTrick s) (fun s =>
    s.each (List.finRange 24) fun n s =>
      match (s.chan n).profile with
      | some p =>
        if (s.chan n).capCurve && curveFilled s.vault (cpbOf p) then
          let s := clearLatching s 0x0206 n.val 0 (beBytes 1 (cpbOf p))
          setFrontEnd (s.onChan n fun c => { c with capCurve := false }) n
        else s
      | none => s) s

/-- PHY_MASK_DEFERRED_APPLY (R190): at the first trick boundary after the sounding, with a re-sound. -/
def execPhyMaskDeferredApply (p : Port) (s : State) : Out :=
  .next <| whenDue (atTrick s && (s.port p).maskDue && !isSounding (s.port p)) (applyMask p) s

end Sys2Proof.Machine
end

