-- ==== Sys2Proof/Machine/Supplies.lean ====
section
/-! DEFINITION. Living on the trunk (03_flue_hearth_ember.md): trunk voltage, damper, hearth, ledger, riding and ember. -/

namespace Sys2Proof.Machine

/-! ## Trunk voltage and damper -/

/-- `TRUNK_V` from a count of N ticks over 16 periods, 10 mV, to nearest (R69). -/
def trunkVolt (n : Nat) : Nat := min 65535 ((2 * 4800000000 + n) / (2 * n))

/-- TRUNK_V_UPDATE (R69, R92): edges are back, and the measured value is judged. -/
def execTrunkVUpdate (n : Nat) (s : State) : Out :=
  .next <| whenDue (shellRuns s && n != 0) (fun s =>
    let v := trunkVolt n
    let s := s.onSupply fun u => { u with trunkV := v, lastTrunkV := if v == 0 then u.lastTrunkV else v, trunkAbsent := false }
    let d := beBytes 2 v
    let s := clearLatching s 0x0303 0x30 0 []
    let s := if v < 2200 then raise s 0x0304 0x30 d else if 2250 ≤ v then clearLatching s 0x0304 0x30 0 d else s
    if 6200 < v then raise s 0x0305 0x30 d else if v ≤ 6100 then clearLatching s 0x0305 0x30 0 d else s) s

/-- TRUNK_ABSENT (R70). -/
def execTrunkAbsent (s : State) : Out :=
  .next <| whenDue (shellRuns s) (fun s => s.onSupply fun u => { u with trunkV := 0, trunkAbsent := true }) s

/-- TELEMETRY_LOST (Table 3.10). -/
def execTelemetryLost (s : State) : Out :=
  .next <| whenDue (shellRuns s && s.supply.trunkAbsent && 1185 ≤ s.supply.vbusV) (fun s => raise s 0x0303 0x30 []) s

/-- The damper's target in 2.5 uW for a cap in mW and a voltage in 10 mV (R71). -/
def damperTarget (cap v : Nat) : Nat :=
  if 2200 ≤ v then cap * 400 else if v < 1800 then 0 else cap * (v - 1800)

/-- D = floor(L / (V x 5 mA)), clamped to 1 to 255 (R71); L in 2.5 uW and V in 10 mV. -/
def damperD (l v : Nat) : Nat := if v == 0 then 255 else max 1 (min 255 (l / (20 * v)))

/-- One trick of the slew of L: at most 0.25 W either way (R71). -/
def damperSlew (l target : Nat) : Nat := if l ≤ target then min target (l + 100000) else max target (l - 100000)

/-- DAMPER_UPDATE (R71): each trick while FLUE_LIM is driven. -/
def execDamperUpdate (s : State) : Out :=
  .next <| whenDue (atTrick s && shellRuns s && s.supply.flueLim) (fun s =>
    s.onSupply fun u =>
      let v := damperVolt u
      let l := damperSlew u.l (damperTarget (drawOf s.straps.codes) v)
      { u with l := l, d := damperD l v }) s

/-- FLUE_LIM_START (R72): at the first trick boundary with the straps read and a `TRUNK_V` measured; L at the target. -/
def execFlueLimStart (s : State) : Out :=
  let k := s.supply.kindle
  .next <| whenDue (atTrick s && (k == .joining || k == .up) && !s.supply.flueLim && s.supply.lastTrunkV != 0) (fun s =>
    s.onSupply fun u =>
      let v := damperVolt u
      let l := damperTarget (drawOf s.straps.codes) v
      { u with flueLim := true, l := l, d := damperD l v }) s

/-! ## Hearth and ledger -/

/-- HEARTH_DIS for a ledger in nJ (R76): high from the reserve plus 5 % of E_FULL, low at the reserve. -/
def hearthDisNext (cls ledger : Nat) (weak was : Bool) : Bool :=
  if cls == 0 || weak then false
  else if 11 * eFull cls ≤ 20 * ledger then true
  else if 2 * ledger ≤ eFull cls then false
  else was

/-- LEDGER_UPDATE (R76, R77): every 30,000 ticks; voltages in 10 mV. -/
def execLedgerUpdate (vh vbus : Nat) (s : State) : Out :=
  .next <| whenDue (shellRuns s) (fun s =>
    let cls := hearthClass s
    let e := ledgerOf cls vh
    s.onSupply fun u => { u with vh := vh, vbusV := vbus, ledger := e, hearthDis := hearthDisNext cls e u.hearthWeak u.hearthDis }) s

/-- CHARGE_ENABLE (R73). -/
def execChargeEnable (s : State) : Out :=
  let u := s.supply
  let k := u.kindle
  .next <| whenDue (atTrick s && (k == .joining || k == .up) && hearthClass s != 0 && !u.hearthOv && 1185 ≤ u.vbusV
      && u.chargeOffUntil.toNat ≤ s.clock.age.toNat && !u.hearthChg) (fun s =>
    s.onSupply fun u => { u with hearthChg := true, chargeSince := some s.clock.age }) s

/-- CHARGE_PAUSE (R73): charging stays off for at least one trick. -/
def execChargePause (s : State) : Out :=
  .next <| whenDue (shellRuns s) (fun s =>
    s.onSupply fun u => { u with hearthChg := false, chargeSince := none,
                                 chargeOffUntil := s.clock.age + BitVec.ofNat 64 trickTicks }) s

/-- HEARTH_OVERVOLTAGE (Table 3.10): HEARTH_CHG latched low. -/
def execHearthOvervoltage (s : State) : Out :=
  .next <| whenDue (shellRuns s) (fun s =>
    raise (s.onSupply fun u => { u with hearthOv := true, hearthChg := false, chargeSince := none }) 0x0306 0x30 []) s

/-- HEARTH_WEAK (Table 3.10, R93): after 10 s of charging without a pause below 27.00 V. -/
def execHearthWeak (vh : Nat) (s : State) : Out :=
  let long := match s.supply.chargeSince with
    | some t => 30000000000 ≤ since s t
    | none => false
  .next <| whenDue (shellRuns s && long && vh < 2700) (fun s =>
    raise (s.onSupply fun u => { u with hearthWeak := true, hearthDis := false }) 0x0307 0x30 (beBytes 2 vh)) s

/-- VBUS_OVERVOLTAGE (Table 3.10): the event, then FLUE_EN latched low in the always-on domain. -/
def execVbusOvervoltage (vbus : Nat) (s : State) : Out :=
  .next <| whenDue (s.supply.kindle != .off && !s.supply.flueLatched) (fun s =>
    let s := if shellRuns s then raise s 0x0302 0x30 (beBytes 2 vbus) else s
    s.onSupply fun u => { u with flueEn := false, flueLatched := true }) s

/-! ## Riding -/

/-- RIDING_ENTER (Table 3.6): judged at a trick boundary. -/
def execRidingEnter (vbus : Nat) (s : State) : Out :=
  let k := s.supply.kindle
  .next <| whenDue (atTrick s && (k == .joining || k == .up) && !s.supply.riding && vbus < 1170) (fun s =>
    raise (s.onSupply fun u => { u with riding := true, ridingAt := s.clock.age, vbusV := vbus }) 0x0301 0x30
      (beBytes 2 vbus ++ beBytes 2 (ledgerField s.supply))) s

/-- RIDING_END (Table 3.6): the end event carries the duration in tricks. -/
def execRidingEnd (vbus : Nat) (s : State) : Out :=
  .next <| whenDue (s.supply.riding && 1185 ≤ vbus) (fun s =>
    let d := beBytes 4 (since s s.supply.ridingAt / trickTicks)
    clearLatching (s.onSupply fun u => { u with riding := false, vbusV := vbus }) 0x0301 0x30 0 d) s

/-! ## Ember -/

/-- A channel at ember entry: its keeper takes control; what the shell held for it is lost (Tables 3.7, 3.8). -/
def Chan.enterEmber (t : Trim) (now : Tick) (c : Chan) : Chan :=
  let k : Chan := keeperTakes t now { c with bankMon := true }
  { k with
    commanded := false, pending := [], sources := false, shunt := false, switches := false, roleStep := none, inTrim := false,
    restrap := false, rekindle := none, rekindleHeld := false, grid := none, buffer := [], low := [], comp := .normal,
    compRaised := false, frozen := false, forced := false, stale := [] }

/-- A port across ember: the link is to be trained again; mode, mask, margin and `LINK_D` are kept (Table 3.8;
04_one_clock_and_time.md, At kindling). -/
def PortState.enterEmber (q : PortState) : PortState :=
  { PortState.reset with margin := q.margin, eMode := q.eMode, mask := q.mask, linkD := q.linkD, tblSeq := q.tblSeq }

/-- The clock at ember entry (R123): a slew ends without an event, the correction is kept; Crystal at wake. -/
def Clock.enterEmber (c : Clock) : Clock :=
  { c with state := .crystal, slew := none, realign := none, quietUntil := none, facing := none, hops := none, goodTricks := 0,
           jumps := 0, rangeGood := 0 }

/-- The engine at ember entry: awaiting commands and proposals are discarded (R542). -/
def Engine.enterEmber (e : Engine) : Engine := { e with awaiting := [], proposals := [], writing := [], nodeReset := false }

/-- A stream that has closed: the instants it had are gone with the cells (R324). -/
def closedRows (x : Stream) : Stream := { x with rows := [] }

/-- EMBER_ENTRY (R81, Table 3.7): VBUS below 10.50 V with a usable hearth and the retention latch set. Bank-now, bypass released,
links stopped, operations failed, cells freed, the shell power-gated. -/
def execEmberEntry (s : State) : Out :=
  let k := s.supply.kindle
  .next <| whenDue ((k == .joining || k == .up) && s.supply.retention && hearthClass s != 0 && !s.supply.hearthOv) (fun s =>
    let s := leaveFull (closeSession s 7)
    let s := closeAllStreams s 4
    let s := s.onTiers fun t => { t with tier := .banked, upCount := none }
    let s := { s with
      chans := Vector.ofFn fun n => Chan.enterEmber (trimOf s.vault n) s.clock.age s.chans[n],
      portA := PortState.enterEmber s.portA,
      portB := PortState.enterEmber s.portB,
      clock := Clock.enterEmber s.clock,
      cut := { Cut.reset with ineligible := s.cut.ineligible, dealSeq := s.cut.dealSeq },
      engine := Engine.enterEmber s.engine,
      vault := { s.vault with pulses := s.vault.pulses.take 1, wardNext := [] },
      hands := s.hands.map fun (h : Hand) => { h with input := [], evHead := 0, evCount := 0 },
      queues := { s.queues with frames := [], heldOut := [], evHead := 0, evCount := 0 },
      streams := s.streams.map closedRows,
      mem := { s.mem with scrub := [], fast := none, wakeScrub := false },
      dbg := Debug.reset,
      straps := { s.straps with reread := none, rereadQueue := [] },
      events := { s.events with latches := [], rates := [] },
      seat := { s.seat with locked := false, good := 0, bad := 0, lead := false, out := [],
                            frame := if isTwin s then seatFrame s true [] else [] } }
    let s := if s.seat.state == .seated then s.mapChans fun _ c => { c with drive := .out } else s
    let s := s.onTables fun (t : Tables) =>
      let t := if t.commit.state == CommitState.preparing then commitReturn t else t
      { t with pa := { t.pa with fixedBuf := none }, pb := { t.pb with fixedBuf := none } }
    s.onSupply fun u =>
      { u with kindle := .ember, bypHold := false, emberSet := true, flueLim := false, hearthChg := false, hearthDis := false,
               chargeSince := none, riding := false, pll := false, coreReady := false }) s

/-- BROWNOUT_NO_HEARTH (Table 3.6, Table 5.1): VBUS below 10.50 V with no usable hearth, or before the retention latch is set;
a chip reset with cause 0x05. Kindling goes on when VBUS is back. -/
def execBrownoutNoHearth (s : State) : Out :=
  let k := s.supply.kindle
  let usable := hearthClass s != 0 && !s.supply.hearthOv && s.supply.retention && (k == .joining || k == .up)
  .next <| whenDue (k != .off && k != .ember && !usable) (fun s =>
    (chipReset s (if shellRuns s then some 0x05 else none)).onSupply fun u =>
      { u with vbus := false, kindle := if k == .halted then .halted else .rails }) s

/-- EMBER_VSRAM_LOSS (R84, R147). -/
def execEmberVsramLoss (s : State) : Out :=
  .next <| whenDue (s.supply.kindle == .ember) (fun s => s.onSupply fun u => { noteCause u 0x02 with retention := false }) s

/-- EMBER_WAKE (R85, R135, R84): with the latch set, Joining with the retained state; with it cleared, a cold kindling. -/
def execEmberWake (s : State) : Out :=
  .next <| whenDue (s.supply.kindle == .ember) (fun s =>
    if s.supply.retention then
      let s := s.onSupply fun u =>
        { noteCause u 0x08 with
          kindle := .joining, emberSet := false, pll := true, good := [.vcore, .vsram, .vio, .van, .vfp, .vfn], coreAt := s.clock.age,
          trunkV := 0, lastTrunkV := 0, trunkAbsent := false, ledger := 0, l := 0, chargeOffUntil := s.clock.age }
      let s := s.mapChans fun _ c => { c with bankMon := false, bankShell := true, refreshed := s.clock.age }
      s.onMem fun m => { m with wakeScrub := true }
    else chipReset s none) s

end Sys2Proof.Machine
end

