-- ==== Sys2Proof/Machine/Engine.lean ====
section
/-! DEFINITION. The command engine (15_command_set.md): the envelope and its checks, responses, the fixed responder, awaiting
commands and proposals, the energy check, the creation of long operations (16_long_operations.md), and the one way every command
row runs. -/

namespace Sys2Proof.Machine

/-! ## The envelope (R463, R464) -/

/-- The command is under a warden key. -/
def underWarden (f : CmdFrame) : Bool := 16 ≤ keyId f

/-- The warden of a command under a warden key. -/
def wardenOf (f : CmdFrame) : Fin 4 := Fin.ofNat 4 (keyId f - 16)

/-- The envelope without its `MAC`. -/
def envelopeOf (f : CmdFrame) : List Byte := f.payload.take (8 + fieldAt f.payload 4 2)

/-- The `MAC` a command carries. -/
def macField (f : CmdFrame) : BitVec 64 := BitVec.ofNat 64 (fieldAt f.payload (8 + fieldAt f.payload 4 2) 8)

/-- A byte of the body. -/
def bodyByte (f : CmdFrame) (i : Nat) : Nat := byteAt (cmdBody f) i

/-- A field of the body. -/
def bodyField (f : CmdFrame) (i n : Nat) : Nat := fieldAt (cmdBody f) i n

/-! ## Authentication (R466) -/

/-- The message a `MAC` covers. -/
def macMessage (s : State) (f : CmdFrame) (dir : Byte) (env : List Byte) : List Byte :=
  [dir] ++ beBytes 8 s.dieId.toNat ++ beBytes 4 s.engine.slots[keySlot f].session.toNat ++ beBytes 1 f.hand.val
  ++ beBytes 4 f.seq.toNat ++ beBytes 6 f.srcTag.toNat ++ env

/-- The `MAC` under the command's slot; zero under a slot that holds no key. -/
def slotMac (s : State) (f : CmdFrame) (dir : Byte) (env : List Byte) : BitVec 64 :=
  match slotKey s (keySlot f) with
  | some k => cmac64 k (macMessage s f dir env)
  | none => 0

/-- Check 3 passes. -/
def macGood (s : State) (f : CmdFrame) : Bool :=
  (slotKey s (keySlot f)).isSome && slotMac s f 0 (envelopeOf f) == macField f

/-! ## Responses (R470) -/

/-- A response envelope with its body and `MAC`. -/
def responsePayload (s : State) (f : CmdFrame) (status flags : Nat) (body : List Byte) (auth : Bool) : List Byte :=
  let env := [1] ++ slice f.payload 1 1 ++ beBytes 2 (opcodeOf f) ++ beBytes 2 body.length ++ beBytes 1 status ++ beBytes 1 flags ++ body
  env ++ (if auth then beBytes 8 (slotMac s f 1 env).toNat else zeros 8)

/-- The frame of a response. -/
def responseFrame (s : State) (f : CmdFrame) (payload : List Byte) : QFrame × State :=
  mkQFrame s (ownHeader s 0 f.srcTag.toNat 6 f.hand.val f.seq.toNat payload.length) payload 0

/-- Queue an authenticated response and store it for a duplicate (R465, R467). A final response replaces the stored one only
while its command is the slot's last (log entry 44). -/
def respond (s : State) (f : CmdFrame) (status flags : Nat) (body : List Byte) : State :=
  let r := responseFrame s f (responsePayload s f status flags body true)
  let s := stepCount (enqueueNode r.2 (32 + f.hand.val) r.1) 3 3
  s.onEngine fun e =>
    let k := e.slots[keySlot f]
    if k.lastSeq == f.seq then { e with slots := e.slots.set (keySlot f) { k with lastResp := some r.1 } } else e

/-- Queue an unauthenticated response (R471). -/
def respondPlain (s : State) (f : CmdFrame) (status : Nat) (body : List Byte) : State :=
  let r := responseFrame s f (responsePayload s f status 4 body false)
  enqueueNode r.2 (32 + f.hand.val) r.1

/-- Send a stored response again with the duplicate flag (R467). -/
def resendStored (s : State) (f : CmdFrame) (q : QFrame) : State :=
  let flags := byteAt q.payload 7 ||| 8
  let body := slice q.payload 8 (fieldAt q.payload 4 2)
  let r := responseFrame s f (responsePayload s f (byteAt q.payload 6) flags body true)
  enqueueNode r.2 (32 + f.hand.val) r.1

/-- The response of this command is still in the response queue or held (R488). -/
def responseQueued (s : State) (f : CmdFrame) : Bool :=
  let is := fun (q : QFrame) => q.hdr.seq == f.seq && byteAt q.payload 1 == keyId f
  (qFrames s (32 + f.hand.val)).any is || s.queues.heldOut.any fun e => e.1 == 32 + f.hand.val && is e.2

/-! ## The status block (R484) -/

/-- `LINK_ST` (Table 6.10). -/
def linkSt (q : PortState) : Nat :=
  match q.link with
  | .off => 0
  | .listen => 1
  | .untrained => 2
  | .sounding _ => 3
  | .up => 4

/-- The eight bytes of a port in the status block. -/
def statPort (q : PortState) : List Byte :=
  beBytes 1 (linkSt q) ++ [q.lq, q.evmQ] ++ beBytes 2 (rateB q) ++ beBytes 3 ((q.linkD.getD 0xFFFFFF).toNat)

/-- Live operations of a hand. -/
def liveOps (s : State) (h : Fin 16) : Nat := (s.engine.ops.filter fun o => o.state.live && o.hand == h).length

/-- The code of a hand state (Table 15.7). -/
def HandState.num : HandState → Nat
  | .clean => 0
  | .faulted => 1
  | .quarantined => 2
  | .resetting => 3

/-- The status block (Table 15.7) for a command. -/
def statBlock (s : State) (f : CmdFrame) : List Byte :=
  let u := s.supply
  beBytes 8 s.clock.counter.toNat ++ beBytes 1 (s.tiers.tier.rank * 32) ++ beBytes 1 (tierCap s)
  ++ beBytes 1 ((timeQ s).toNat * 16) ++ [s.clock.epoch, u.cause] ++ beBytes 1 (hopsByte s)
  ++ beBytes 2 (nodeNumber s).toNat ++ beBytes 8 s.dieId.toNat ++ beBytes 8 s.straps.digest.toNat
  ++ beBytes 2 u.trunkV ++ beBytes 2 u.vbusV ++ beBytes 2 (ledgerField u) ++ beBytes 1 (dampField u) ++ beBytes 1 (pwrFlags s)
  ++ statPort s.portA ++ statPort s.portB
  ++ beBytes 1 ((s.hand f.hand).state.num * 16 + f.hand.val) ++ beBytes 1 (liveOps s f.hand)
  ++ [match planOf s.straps.codes with | some n => BitVec.ofNat 8 n | none => Config.ambiguousCode]
  ++ [match twinOf s.straps.codes with | some n => BitVec.ofNat 8 n | none => Config.ambiguousCode]
  ++ beBytes 4 s.engine.slots[keySlot f].session.toNat

/-! ## The fixed responder (R479) -/

/-- The fixed responder answers out of the command's ingress port: the status for STAT.READ, 0x10 for any other command. It
enters queue 65 with the other port declined (log entry 45). -/
def fixedAnswer (s : State) (f : CmdFrame) : State :=
  let stat := opcodeOf f == 0x0101
  let r := responseFrame s f
    (responsePayload s f (if stat then 0 else 0x10) 4 (if stat then statBlock s f else []) false)
  let q := { r.1 with direct := true, ta := if f.port == .ta then Taken.waiting else .declined,
                      tb := if f.port == .tb then Taken.waiting else .declined }
  let s := enqueueNode r.2 65 q
  if stat then s else countCmd s 0x43

/-! ## Opcodes (Table 15.6) -/

/-- Every opcode, with whether a hand key and a warden key may send it. -/
def opcodes : List (Nat × Bool × Bool) :=
  [(0x0101, true, true), (0x0102, true, false), (0x0201, true, true), (0x0202, true, true), (0x0301, true, false),
   (0x0302, true, false), (0x0303, true, false), (0x0401, true, false), (0x0402, true, false), (0x0501, true, false),
   (0x0502, true, false), (0x0601, true, false), (0x0602, true, false), (0x0701, true, false), (0x0702, true, false),
   (0x0703, true, false), (0x0704, true, false), (0x0705, true, false), (0x0706, true, false), (0x0801, true, false),
   (0x0802, true, false), (0x0901, true, false), (0x0902, true, false), (0x0903, false, true), (0x0A01, true, false),
   (0x0B01, true, false), (0x0C01, true, false), (0x0C02, true, false), (0x0C03, true, false), (0x0C04, true, false)]
  ++ [(0x0D01, true, false), (0x0D02, true, false), (0x0D03, true, false), (0x0E01, true, false), (0x0F01, true, false),
   (0x0F02, true, false), (0x1001, true, false), (0x1002, true, false), (0x1101, false, true), (0x1102, false, true),
   (0x1103, false, true), (0x1104, true, true), (0x1201, false, true), (0x1301, true, false), (0x1401, true, false),
   (0x1402, true, false), (0x1403, true, false), (0x1404, true, false)]

/-- The key kinds of an opcode, none for an unknown one. -/
def opKeys (op : Nat) : Option (Bool × Bool) := (opcodes.find? fun e => e.1 == op).map (·.2)

/-- A known opcode. -/
def opKnown (op : Nat) : Bool := (opKeys op).isSome

/-- Commands an observer may send (R313). -/
def observerOps : List Nat := [0x0101, 0x0102, 0x0201, 0x0401, 0x0701, 0x0702, 0x1401, 0x1104, 0x0501]

/-- Commands of Restricted mode (Table 15.5). -/
def restrictedOps : List Nat := [0x0101, 0x0201, 0x0202, 0x1101, 0x1102, 0x1201, 0x0903]

/-- Commands of Table 17.3, with WARD.PROPOSE and WARD.COUNTERSIGN, that WARD_LOCK refuses (R531). -/
def lockedOp (f : CmdFrame) : Bool :=
  [0x1201, 0x1103, 0x0903, 0x0801, 0x0902, 0x0D03, 0x0E01, 0x0C03, 0x1002, 0x1301, 0x1101, 0x1102].contains (opcodeOf f)
  || (opcodeOf f == 0x0F01 && bit (bodyByte f 4) 0)

/-! ## The checks of Table 15.2, orders 5 to 9 -/

/-- Check 5: the station (R313). -/
def checkStation (s : State) (f : CmdFrame) : Option Nat :=
  let r := s.hand f.hand
  if underWarden f || r.master == some f.srcTag then none
  else if opcodeOf f == 0x0301 then (if r.master.isNone then none else some 0x12)
  else if r.observers.contains f.srcTag && observerOps.contains (opcodeOf f) then none
  else some 0x12

/-- Check 6: a quarantined hand (R316). -/
def checkHand (s : State) (f : CmdFrame) : Option Nat :=
  let g := opcodeOf f / 256
  if underWarden f || (s.hand f.hand).state != .quarantined || g == 1 || g == 2 || opcodeOf f == 0x0303 then none else some 0x25

/-- Check 7: the opcode and the key kind. -/
def checkOpcode (f : CmdFrame) : Option Nat :=
  match opKeys (opcodeOf f) with
  | none => some 0x15
  | some k => if (if underWarden f then k.2 else k.1) then none else some 0x13

/-- Check 8: Restricted mode. -/
def checkMode (s : State) (f : CmdFrame) : Option Nat :=
  if engineMode s == .restricted && !restrictedOps.contains (opcodeOf f) then some 0x2A else none

/-- The group permission of a hand key (R480): STAT, EV, OP, HAND.CLAIM, HAND.STATIONS and HAND.RESET need no bit of the mask
(HAND.RESET of another hand: R523). -/
def groupAllowed (s : State) (f : CmdFrame) : Bool :=
  let op := opcodeOf f
  let g := op / 256
  let mask := wardGroups (wardEntry s.vault f.hand.val)
  if underWarden f || g == 1 || g == 2 || g == 0x14 || op == 0x0301 || op == 0x0302 then true
  else if op == 0x0303 then bodyByte f 0 == f.hand.val || bit mask 3
  else bit mask g

/-- Check 9 before the command's own permissions: WARD_LOCK, then the group (R480, R531). -/
def checkWard (s : State) (f : CmdFrame) : Option Nat :=
  if s.vault.wardLock && lockedOp f then some 0x23
  else if groupAllowed s f then none
  else some 0x13

/-- The first check that fails. -/
def firstFail : List (Option Nat) → Option Nat
  | [] => none
  | some c :: _ => some c
  | none :: r => firstFail r

/-- A body whose length or reserved bytes are wrong: `used` lists the bytes Table 15.6 gives the command. -/
def bodyMalformed (f : CmdFrame) (len : Nat) (used : List Nat) : Bool :=
  (cmdBody f).length != len || (List.range len).any fun i => !used.contains i && bodyByte f i != 0

/-- The channel a body byte names, none beyond 23 or past the end. -/
def bodyChan (f : CmdFrame) (i : Nat) : Option (Fin 24) :=
  if h : bodyByte f i < 24 then (if i < (cmdBody f).length then some ⟨bodyByte f i, h⟩ else none) else none

/-- The channel rules of R481: ownership of an output (0x26); for an input named by CH.RESTRAP or CH.REKINDLE, read permission and
streams of the hand alone (0x13). A channel with no profile counts as an input (log entry 46). -/
def checkChan (s : State) (f : CmdFrame) (c : Fin 24) (input : Bool) : Option Nat :=
  let out := match (s.chan c).profile with
    | some p => isOutput p
    | none => false
  if out then (if ownsChan s f.hand.val c.val then none else some 0x26)
  else if !input then none
  else if readsChan s f.hand.val c.val && (streamsOn s c.val).all fun x => x.hand == f.hand then none
  else some 0x13

/-! ## The energy check (R78, R79, Table 3.4) -/

/-- The gating of R78 is off: HEARTH class 0 or hearth-weak (R79). -/
def ungated (s : State) : Bool := hearthClass s == 0 || s.supply.hearthWeak

/-- An operation of Table 3.4 runs. -/
def gatedBusy (s : State) : Bool :=
  !s.vault.pulses.isEmpty || s.straps.reread.isSome || !s.straps.rereadQueue.isEmpty
  || s.engine.ops.any fun o => o.state == .running && o.committing

/-- The ledger passes for E_OP in mJ, never while riding: E_REQ = min(E_RES + E_OP, 0.95 E_FULL), with E_RES half of E_FULL. -/
def energyOk (s : State) (eop : Nat) : Bool :=
  let full := eFull (hearthClass s)
  if s.supply.riding then false
  else ungated s || min (50 * full + 100000000 * eop) (95 * full) ≤ 100 * s.supply.ledger

/-- The check of a short command at its execution (R78, R79): 0x17 energy short, 0x18 while an ungated chip runs another. -/
def shortEnergy (s : State) : Option Nat :=
  if !energyOk s 15 then some 0x17
  else if ungated s && gatedBusy s then some 0x18
  else none

/-! ## Digest, awaiting commands and proposals (R475 to R477, R528) -/

/-- The change digest D = C1, C2 of R477. -/
def changeDigest (s : State) (f : CmdFrame) (x : List Byte) : BitVec 256 :=
  let m := beBytes 8 s.dieId.toNat ++ beBytes 2 (opcodeOf f) ++ cmdBody f ++ x
  BitVec.ofNat 256 (cmac 0 (0x01 :: m) * 2 ^ 128 + cmac 0 (0x02 :: m))

/-- Proposals that have not lapsed at the counter's present value (R528, R537). -/
def liveProposals (s : State) : List Proposal :=
  s.engine.proposals.filter fun p => s.clock.counter.toNat ≤ p.at_.toNat + 15000000000

/-- Record a proposal; the same warden's of the same digest is replaced. -/
def propose (s : State) (w : Fin 4) (d : BitVec 256) : State :=
  s.onEngine fun e =>
    { e with proposals := (liveProposals s).filter (fun p => !(p.warden == w && p.digest == d))
                            ++ [{ warden := w, digest := d, at_ := s.clock.counter }] }

/-- There is room for a proposal (R528). -/
def proposalRoom (s : State) (w : Fin 4) (d : BitVec 256) : Bool :=
  ((liveProposals s).filter fun p => !(p.warden == w && p.digest == d)).length < 8

/-- The command cannot become awaiting: the hand's one place, the digest, or the proposals are taken (R475, R528). -/
def awaitBusy (s : State) (f : CmdFrame) (d : BitVec 256) : Bool :=
  s.engine.awaiting.any (fun a => a.f.hand == f.hand || a.digest == d) || (underWarden f && !proposalRoom s (wardenOf f) d)

/-- A command becomes awaiting: the 0x03 response, and its own proposal under a warden key. -/
def becomeAwaiting (s : State) (f : CmdFrame) (x : List Byte) : State :=
  let d := changeDigest s f x
  if awaitBusy s f d then respond s f 0x18 0 []
  else
    let s := if underWarden f then propose s (wardenOf f) d else s
    let s := s.onEngine fun e => { e with awaiting := e.awaiting ++ [{ f := f, digest := d, at_ := s.clock.counter }] }
    respond s f 0x03 0 (beBytes 32 d.toNat ++ x)

/-- The final response of a countersigned command; its proposals lapse (R476, R528). -/
def finalResponse (s : State) (f : CmdFrame) (digest : Option (BitVec 256)) (status : Nat) (body : List Byte) : State :=
  let s := respond s f status 2 body
  s.onEngine fun e => match digest with
    | some d => { e with proposals := e.proposals.filter fun p => p.digest != d }
    | none => e

/-- End every awaiting command with a final response (R489). -/
def endAwaiting (s : State) (status : Nat) : State :=
  let l := s.engine.awaiting
  let s := s.onEngine fun e => { e with awaiting := [] }
  s.each l fun a s => finalResponse s a.f (some a.digest) status []

/-! ## Long operations: creation (R495 to R497) -/

/-- The first handle from `h` on that is not zero and has no record. -/
def freeHandle (s : State) (h : BitVec 16) : Nat → BitVec 16
  | 0 => h
  | n + 1 => if h == 0 || s.engine.ops.any (fun o => o.handle == h) then freeHandle s (h + 1) n else h

/-- The limits of R497: 4 live operations per hand, 16 per chip. -/
def opLimit (s : State) (h : Fin 16) : Option Nat :=
  if 4 ≤ liveOps s h || 16 ≤ (s.engine.ops.filter fun o => o.state.live).length then some 0x18 else none

/-- E_OP of an operation's gated step in mJ (Table 3.4). -/
def opEnergy (o : Op) : Nat :=
  match o.opcode.toNat with
  | 0x0C01 => 30
  | 0x0F02 => 40
  | 0x1001 => 60
  | _ => 15

/-- Another live operation holds the object (R502, R511). -/
def objectHeld (s : State) (o : Op) : Bool :=
  s.engine.ops.any fun x => x.handle != o.handle && x.object == o.object && x.state.live && x.holds

/-- The energy check of the operation's next step: a gated step that starts, or one that goes on where the steps run one at a time
(R78, R79, R501). -/
def energyPass (s : State) (o : Op) : Bool :=
  (!o.gated || energyOk s (opEnergy o)) && !((o.gated || o.committing) && ungated s && gatedBusy s)

/-- The operations before one in handle order that wait Queued. -/
def earlierQueued (s : State) (o : Op) : List Op :=
  (s.engine.ops.takeWhile fun x => x.handle != o.handle).filter fun x => x.state == .queued

/-- What a Queued operation waits for (Table 16.1): 2 its object, 1 energy, 0 only the trick boundary. The object is judged first,
and each wait is left in handle order (R502). -/
def opReason (s : State) (o : Op) : Nat :=
  let l := earlierQueued s o
  if objectHeld s o || l.any (fun x => x.object == o.object) then 2
  else if (o.gated || o.committing) && (!energyPass s o || l.any fun x => x.gated && !objectHeld s x) then 1
  else 0

/-- Create an operation, Queued: its handle, and the state. -/
def createOp (s : State) (f : CmdFrame) (obj : OpObject) (gated : Bool) : BitVec 16 × State :=
  let h := freeHandle s s.engine.nextHandle 128
  let o : Op := { handle := h, hand := f.hand, opcode := BitVec.ofNat 16 (opcodeOf f), state := .queued, reason := 0, progress := 0,
                  object := obj, f := f, suspendPending := false, cancelPending := false, since := s.clock.age, timing := false,
                  r1 := 0, m1 := 0, r2 := 0, m2 := 0, before := 0, trim := [], gated := gated, committing := false,
                  holds := false, commit := none }
  let o := { o with reason := BitVec.ofNat 8 (opReason s o) }
  (h, s.onEngine fun e => { e with ops := e.ops ++ [o], nextHandle := h + 1 })

/-! ## The one way a command runs -/

/-- What the execution of a command answers: a response now, or one that follows at the end of a later step. -/
inductive Reply where
  | now (status flags : Nat) (body : List Byte)
  | later
  deriving DecidableEq, Repr

/-- A command of Table 15.6: whether it needs a countersign, its own permissions (check 9), its body (check 10), its own conditions
(check 11), the digest's X, and its execution. -/
structure Cmd where
  op : Nat
  cs : CmdFrame → State → Bool
  ward : CmdFrame → State → Option Nat
  body : CmdFrame → State → Option Nat
  own : CmdFrame → State → Option Nat
  x : CmdFrame → State → List Byte
  run : CmdFrame → State → Reply × State

/-- The parts most commands do not have. -/
def never (_ : CmdFrame) (_ : State) : Bool := false
/-- No further condition. -/
def passes (_ : CmdFrame) (_ : State) : Option Nat := none
/-- No X. -/
def noX (_ : CmdFrame) (_ : State) : List Byte := []

/-- A hand whose next command may be taken: its response queue has room, none of its responses is held, it does not wait for a
final response, and it is not Resetting (R473, R518, Table 10.5). -/
def handTurn (s : State) (h : Fin 16) : Bool :=
  (qFrames s (32 + h.val)).length < 8 && !(s.queues.heldOut.any fun e => e.1 == 32 + h.val) && !s.engine.writing.contains h
  && (s.hand h).state != .resetting

/-- The hand the engine takes next from the input queues (R472). -/
def nextHand (s : State) : Option (Fin 16) :=
  ((List.range 16).map fun i => (Fin.ofNat 16 (s.engine.turn + i))).find? fun h => !(s.hand h).input.isEmpty && handTurn s h

/-- The engine takes this frame now: it runs, and the frame is the one whose turn it is, or comes to it directly. -/
def engineTakes (s : State) (f : CmdFrame) : Bool :=
  inService s && !halted s 3 && handTurn s f.hand
  && (if (s.hand f.hand).input.head? == some f then nextHand s == some f.hand else !(s.hand f.hand).input.contains f)

/-- The frame leaves its input queue, and the turn passes on. -/
def takeInput (s : State) (f : CmdFrame) : State :=
  let s := s.onHand f.hand fun r => { r with input := if r.input.head? == some f then r.input.tail else r.input }
  s.onEngine fun e => { e with turn := (f.hand.val + 1) % 16 }

/-- The result of checks 1 to 4 (R463, R467, R469, R478). -/
inductive Auth where
  | bad | fixed | unauth | stale | duplicate (q : QFrame) | again | ok
  deriving DecidableEq, Repr

/-- Checks 1 to 4. -/
def authenticate (s : State) (f : CmdFrame) : Auth :=
  let k := s.engine.slots[keySlot f]
  if checkOneBad s f then .bad
  else if engineMode s == .fixed then .fixed
  else if !macGood s f then .unauth
  else if k.lastSeq.toNat < f.seq.toNat then .ok
  else if f.seq == k.lastSeq && k.lastMac == some (macField f) then
    (if responseQueued s f then .again
     else match k.lastResp with
       | some q => .duplicate q
       | none => .stale)
  else .stale

/-- Note an accepted sequence number and its `MAC` (R467). -/
def acceptSeq (s : State) (f : CmdFrame) : State :=
  s.onEngine fun e =>
    let k : KeySess := { e.slots[keySlot f] with lastSeq := f.seq, lastMac := some (macField f), lastResp := none }
    { e with slots := e.slots.set (keySlot f) k }

/-- Checks 5 to 11 of a command: the first status that fails. -/
def checksOf (c : Cmd) (f : CmdFrame) (s : State) : Option Nat :=
  firstFail [checkStation s f, checkHand s f, checkOpcode f, checkMode s f, checkWard s f, c.ward f s, c.body f s, c.own f s]

/-- Execute a command that has passed its checks. -/
def execute (c : Cmd) (f : CmdFrame) (s : State) : State :=
  if c.cs f s then becomeAwaiting s f (c.x f s)
  else match c.run f s with
    | (.now st fl body, s) => respond s f st fl body
    | (.later, s) => s

/-- One command row: checks 1 to 11, then the execution (R469, R472). A frame of another known opcode is left to its own row. -/
def runCommand (c : Cmd) (f : CmdFrame) (s : State) : State :=
  if !engineTakes s f || (opcodeOf f != c.op && opKnown (opcodeOf f)) then s
  else
    let s := takeInput s f
    match authenticate s f with
    | .bad => countCmd s 0x40
    | .fixed => fixedTake s f.port f
    | .unauth =>
      let s := countCmd s 0x41
      if opcodeOf f == 0x0101 then fixedTake s f.port f else s
    | .stale => countCmd (respondPlain s f 0x11 []) 0x42
    | .again => s
    | .duplicate q => resendStored s f q
    | .ok =>
      let s := acceptSeq s f
      match checksOf c f s with
      | some code => respond s f code 0 []
      | none => execute c f s

/-- FIXED_RESPONDER (R479): a command frame below Full and Restricted, or a STAT.READ that failed check 3, is answered: at most one
response per pipeline per trick. -/
def execFixedResponder (f : CmdFrame) (s : State) : Out :=
  let q := s.pipe f.port
  let free := match q.fixedAt with
    | some t => trickTicks ≤ since s t
    | none => true
  .next <|
    if !inService s then s
    else if q.fixedBuf == some f then
      whenDue free (fun s =>
        let s := s.onPipe f.port fun q => { q with fixedBuf := none, fixedAt := some s.clock.age }
        fixedAnswer s f) s
    else if engineMode s == .fixed then
      if checkOneBad s f then countCmd s 0x40
      else if q.fixedBuf.isSome || !free then countCmd s 0x43
      else fixedAnswer (s.onPipe f.port fun q => { q with fixedAt := some s.clock.age }) f
    else s

end Sys2Proof.Machine
end

