-- ==== Sys2Proof/Machine/ResetRows.lean ====
section
/-! DEFINITION. Resets by command as they take effect (05_kindling_and_resets.md, R136 to R146). -/

namespace Sys2Proof.Machine

/-- NODE_RESET_APPLY (R137, R139): at the first trick boundary after the response has left. -/
def execNodeResetApply (s : State) : Out :=
  let out := (List.range 16).any fun h => responseOut s h 0x0901
  .next <| whenDue (atTrick s && s.engine.nodeReset && !out) (fun s => chipReset s (some 0x07)) s

/-- A port after a port reset (R140, Table 5.4): what the straps and the cut gave it stays. -/
def PortState.afterReset (q : PortState) (quiet : Tick) : PortState :=
  { PortState.reset with
    eMode := q.eMode, mask := q.mask, maskDue := q.maskDue, tblSeq := q.tblSeq, nbr := q.nbr, blocked := q.blocked, held := q.held,
    dealSeen := q.dealSeen, bidCopy := q.bidCopy, bidMeet := q.bidMeet, idClash := q.idClash,
    drr := q.drr, turnOwner := q.turnOwner, turnQueue := q.turnQueue, quietUntil := some quiet }

/-- An ingress that stops mid-frame: its egress copies carry the residue (R254). -/
def stompCopies (s : State) (from_ : Port) : State :=
  let t := fun (x : Transit) => if x.from_ == from_ && !x.complete then
    { x with complete := true, frame := { x.frame with crc := .residue } } else x
  s.onPort from_.other fun q =>
    { q with due := q.due.map t, hold := q.hold.map t,
             tx := q.tx.map fun (x : TxFrame) => if x.from_ == some from_ && x.frame.crc == .unknown then
               { x with frame := { x.frame with crc := .residue } } else x }

/-- An ABORT 0x04 of this reset has not left yet: it is a frame the port still sends. -/
def abortWaits (q : PortState) : Bool := q.llOut.any fun m => m.2 == [2, 2, 6, 4]

/-- PORT_RESET_APPLY (R140, R145, Table 5.4): at the first symbol boundary with no frame in transmission. -/
def execPortResetApply (p : Port) (s : State) : Out :=
  .next <| whenDue (atSymbol s && (s.port p).resetDue && (s.port p).tx.isNone && !abortWaits (s.port p)) (fun s =>
    let s := declineAll s p
    let s := if s.clock.facing == some p && (s.clock.state == .disciplined || s.clock.state == .acquiring)
      then enterHoldover s else s
    let s := endOps s (fun o => o.object == .port p) .cancelled 0x11
    let s := stompCopies (leaveUp s p) p
    clearCounters (s.onPort p fun q => q.afterReset (lineIn s trickTicks)) (portSrc p)) s

/-- PORT_QUIET_END (R140): the port restarts from Off and sounds its link (Table 6.4, Off). -/
def execPortQuietEnd (p : Port) (s : State) : Out :=
  let ended := match (s.port p).quietUntil with
    | some t => t.toNat ≤ s.clock.line.toNat
    | none => false
  .next <| whenDue ended (fun s =>
    s.onPort p fun q =>
      let q := { q with quietUntil := none }
      if inService s then { defaultSlots q with link := .listen, echoStart := 32, lock := false } else q) s

/-- Discard what a pipeline holds of a frame being received (R141): frames not past lookup. -/
def stopIngress (s : State) (p : Port) : State := s.onPipe p fun q => { q with resetting := 2, resetAt := s.clock.age }

/-- Clear a pipeline's hash table, overflow store, learned count and seed (R141, R264, R302). -/
def clearPipe (s : State) (p : Port) : State :=
  let r := s.draw
  let v : BitVec 16 := r.1.setWidth 16
  let other := (s.pipe p.other).seed
  let s := r.2.onPipe p fun q =>
    { q with seed := if v == other then other ^^^ 0x9E37 else v, learned := 0, overflow := [], resetting := 3 }
  let lo := wayAddr p 0 0
  let hi := lo + 0x80000
  s.onMem fun m => { m with cells := m.cells.filter fun c => !(lo ≤ c.1 && c.1 < hi),
                            poison := m.poison.filter fun a => !(lo ≤ a && a < hi) }

/-- PIPE_RESET_APPLY (R141, R632): a first one stops ingress at a symbol boundary, a halted pipeline's after its resume; the next, after the drain fence, clears. -/
def execPipeResetApply (p : Port) (s : State) : Out :=
  let q := s.pipe p
  .next <|
    if q.resetting == 1 then
      whenDue (atSymbol s && !halted s (portNum p)) (fun s => stopIngress (endOps s (fun o => o.object == .pipe p) .cancelled 0x11) p) s
    else if q.resetting == 2 then whenDue (4096 ≤ since s q.resetAt) (fun s => clearPipe s p) s
    else s

/-- PIPE_INGRESS_RESUME (R141, R145): at the next trick boundary; beside a port reset on the same side, at the later of their
ends. -/
def execPipeIngressResume (p : Port) (s : State) : Out :=
  .next <| whenDue (atTrick s && (s.pipe p).resetting == 3 && (s.port p).quietUntil.isNone) (fun s =>
    s.onPipe p fun q => { q with resetting := 0 }) s

/-- CH_REKINDLE_CAL_DONE (R142): 6,000,000 ticks after the start; bank-now is then released by the next value applied, or now
by one applied during the calibration (log entry 47). -/
def execChRekindleCalDone (ch : Fin 24) (calFail : Bool) (s : State) : Out :=
  let ended := match (s.chan ch).rekindle with
    | some t => t.toNat ≤ s.clock.age.toNat
    | none => false
  .next <| whenDue ended (fun s =>
    let s := staleEnd s ch 0
    let s := s.onChan ch fun c => { c with rekindle := none, bankShell := !(c.commanded && !c.restrap) && c.bankShell }
    let s := setFrontEnd (driveShell s ch) ch
    if calFail then coarseFault s ch 2 else s) s

end Sys2Proof.Machine
end

