-- ==== Sys2Proof/Machine/Frames.lean ====
section
/-! DEFINITION. Frames and cut-through forwarding (08_frames_and_cut_through.md): the header decision, transit egress, the payload
check, preemption, the choice of a symbol, and place announcements; with the lookups of R285. -/

namespace Sys2Proof.Machine

/-! ## The header decision (R226, R239, R240) -/

/-- `DEST` breaks Table 8.2. -/
def destBad (h : Header) : Bool :=
  let d := h.dest.toNat
  match h.akind.toNat with
  | 0 => false
  | 1 => 2 ^ 32 ≤ d
  | 2 => 2 ^ 16 ≤ d || d == 0
  | _ => d != 0

/-- A group tag: bit 0 of its first byte (R232). -/
def isGroup (tag : Tag) : Bool := tag.toNat.testBit 40

/-- The header checks of R226 after `HCRC`; `b` is the B of the slot it names. -/
def headerBad (h : Header) (b : Nat) : Bool :=
  h.version != 1 || 5 ≤ h.akind.toNat || h.hopCount == 0 || 64 < h.hopCount.toNat || 4096 < h.payLen.toNat
  || h.carryB.toNat < 464 || b < h.carryB.toNat || destBad h || isGroup h.srcTag
  || (h.akind == 3 && (h.tclass != 7 || h.hopCount != 1))

/-- An egress set from its bits: 1 TA, 2 TB, 4 local. -/
def egressOf (n : Nat) : EgressSet := { ta := n.testBit 0, tb := n.testBit 1, loc := n.testBit 2 }

/-- The other port alone. -/
def otherPort (p : Port) : EgressSet := { ta := p == .tb, tb := p == .ta, loc := false }

/-- Whether a set holds a port. -/
def EgressSet.has (e : EgressSet) : Port → Bool
  | .ta => e.ta
  | .tb => e.tb

/-- A set with a port put in or taken out. -/
def EgressSet.put (e : EgressSet) (p : Port) (b : Bool) : EgressSet :=
  match p with
  | .ta => { e with ta := b }
  | .tb => { e with tb := b }

/-- The forwarding decision of Table 8.7: set, class, policer, local queue. -/
def decide8 (s : State) (p : Port) (h : Header) : EgressSet × Option (BitVec 3) × Nat × Nat :=
  let d := h.dest.toNat
  match h.akind.toNat with
  | 0 =>
    if h.dest == ownTag s then ({ ta := false, tb := false, loc := true }, none, 0, 0)
    else if d == 2 ^ 48 - 1 then ({ otherPort p with loc := true }, none, 0, 0)
    else if isGroup h.dest then (otherPort p, none, 0, 0)
    else if (hashFind s p d).isSome then (egressOf 0, none, 0, 0)
    else (otherPort p, none, 0, 0)
  | 1 => match lpmFind s.tables.prefixes d with
    | some e => (egressOf (prEgress e), if bit (entryByte e 5) 4 then some (BitVec.ofNat 3 (entryByte e 5 / 32)) else none, prPolicer e, 0)
    | none => (otherPort p, none, 0, 0)
  | 2 =>
    let e := streamEntry s d
    if seValid e then
      (egressOf (entryByte e 0 % 8), if bit (entryByte e 0) 5 then some (BitVec.ofNat 3 (entryByte e 1 / 32)) else none,
       entryByte e 2 % 64, entryField e 4 2)
    else (otherPort p, none, 0, 0)
  | 3 => (egressOf 0, none, 0, 0)
  | _ => ({ otherPort p with loc := true }, none, 0, 0)

/-- The excess action (R270): the source lookup misses while the learned count is at its limit. -/
def excessSet (s : State) (p : Port) (h : Header) (e : EgressSet) : EgressSet × Bool :=
  let lrn := lrnOf s.straps.codes
  if h.akind == 3 || (hashFind s p h.srcTag.toNat).isSome || (s.pipe p).learned < lrn.1 then (e, false)
  else if !lrn.2 then (egressOf 0, true)
  else if h.akind == 0 && h.dest != ownTag s then (e.put p.other true, false)
  else (e, false)

/-- A link is blocked or held (R211, R212). -/
def linkBlocked (q : PortState) : Bool := q.blocked || q.held

/-- The ports R240 leaves in a set, and whether the hop count alone took one out. -/
def removePorts (s : State) (p : Port) (h : Header) (e : EgressSet) : EgressSet × Bool :=
  let o := p.other
  let open_ := e.has o && !linkBlocked (s.port o) && s.cut.state != .cut && inService s
  let e := (e.put p false).put o (open_ && h.hopCount != 1)
  (e, open_ && h.hopCount == 1)

/-- The line time of symbol n + 3, at the header decision of the frame (R242). -/
def egressTick (s : State) : Nat := (s.clock.line.toNat / symbolTicks + 1) * symbolTicks

/-- `CARRY_B` on egress (R231). -/
def carryOut (q : PortState) (h : Header) : Nat := min h.carryB.toNat (tableB (q.txTable q.txSlot))

/-- The egress copy of a frame (R227, R231): hop count, class, slot and `CARRY_B` rewritten. -/
def egressCopy (s : State) (o : Port) (h : Header) (cls : Option (BitVec 3)) : Frame :=
  let q := s.port o
  { hdr := { h with btSlot := q.txSlot, carryB := BitVec.ofNat 16 (carryOut q h), hopCount := h.hopCount - 1,
                    tclass := cls.getD h.tclass },
    payload := [], crc := .unknown }

/-- The pipeline takes a new frame on its port: it is not halted and not being reset (R141, Table 21.6). -/
def ingressOpen (s : State) (p : Port) : Bool := (s.pipe p).resetting < 2 && !halted s (portNum p)

/-- A header whose checks passed (R239, R240, R251, R261, R267). -/
def takeHeader (s : State) (p : Port) (h : Header) : State :=
  if h.akind != 3 && h.srcTag == ownTag s then countPipe s p 0x13
  else
    let d := decide8 s p h
    let x := excessSet s p h d.1
    let c := policerCharge s p d.2.2.1 (h.payLen.toNat + 62)
    let set := if c.1 then x.1 else egressOf 0
    let r := removePorts c.2 p h set
    let s := if r.2 then countPort c.2 p 0x06 else c.2
    let o := p.other
    let f := egressCopy s o h d.2.1
    let jump := r.1.has o && meetsJump s (egressTick s) (frameSymbols h.payLen.toNat (max 1 f.hdr.carryB.toNat))
    let s := if jump then countPort s o 0x09 else s
    let set := if jump then r.1.put o false else r.1
    let m : Meta := { egress := set, cls := d.2.1, policer := BitVec.ofNat 6 d.2.2.1, epoch := s.tables.epoch,
                      queue := BitVec.ofNat 16 d.2.2.2, excess := x.2 }
    let s := stepCount (s.onPort p fun q => { q with rx := some { hdr := h, meta_ := m } }) 2 (portNum p)
    if set.has o && carries (s.port o) then
      s.onPort o fun q =>
        { q with due := some { frame := f, epoch := s.tables.epoch, from_ := p, complete := false,
                               due := BitVec.ofNat 64 (egressTick s) } }
    else s

/-- HEADER_DECISION (R191, R226, R239 to R242). A frame still open on the port has lost its end: its copies are stomped. A frame
other than a link-local one that arrives on a blocked or held link is not taken (R211; log entry 39). -/
def execHeaderDecision (p : Port) (hdr : List Byte) (ecc : Ecc) (s : State) : Out :=
  .next <| whenDue (inService s && carries (s.port p)) (fun s =>
    let s := if (s.port p).rx.isSome then (stompCopies s p).onPort p fun q => { q with rx := none } else s
    let q := s.port p
    let h := Header.decode hdr
    let ll := h.akind == 3
    if !headerCrcGood hdr then countPort s p 0x01
    else if h.btSlot != q.rxSlot && q.rxOtherReleased then countPort s p 0x0C
    else if headerBad h (tableB (q.rxTable h.btSlot)) then countPort s p 0x02
    else if !ingressOpen s p && !(ll && (s.pipe p).resetting < 2) then countPort s p 0x08
    else if linkBlocked q && !ll then s
    else takeHeader (eccApply s ecc) p h) s

/-! ## Transit egress and the transit-hold queue (R242, R247, R248) -/

/-- Cells of the transit-hold queue in use (R308). -/
def holdCells (q : PortState) : Nat := (q.hold.map fun t => cellsOf t.frame.hdr.payLen.toNat).sum

/-- Defer a transit frame into queue 0, or drop it where queue 0 is full or the queue manager is halted (R247). -/
def deferTransit (s : State) (p : Port) (t : Transit) : State :=
  let q := s.port p
  if 64 ≤ q.hold.length || 512 < holdCells q + cellsOf t.frame.hdr.payLen.toNat || halted s 2 then countPort s p 0x08
  else
    let t := { t with frame := { t.frame with hdr := { t.frame.hdr with defer := true } } }
    countPort (s.onPort p fun q => { q with hold := q.hold ++ [t] }) p 0x07

/-- A frame begins on a port. -/
def beginFrame (s : State) (p : Port) (x : TxFrame) : State := s.onPort p fun q => { q with tx := some x }

/-- The transmission of a transit frame. -/
def transitTx (t : Transit) (kind : TxKind) : TxFrame where
  kind := kind
  frame := t.frame
  symbols := frameSymbols t.frame.hdr.payLen.toNat (max 1 t.frame.hdr.carryB.toNat)
  sent := 0
  epoch := t.epoch
  from_ := if t.complete then none else some t.from_

/-- Mark a queue's frame that a port is sending. -/
def markSending (s : State) (p : Port) (q : Nat) (t : Taken) : State :=
  mapFrames s fun k f => if k == q && f.at_ p == .sending then f.mark p t else f

/-- What is in transmission holds a transit frame back (R247): an earlier transit frame, unless its ingress was preempted
(R250), a class 7 frame, or the beacon. -/
def txHolds (x : TxFrame) : Bool :=
  match x.kind with
  | .queued _ => x.frame.hdr.tclass == 7
  | .transit | .hold => !(x.from_.isNone && x.frame.crc == .unknown)
  | _ => true

/-- The transit frame due on a port leaves, is deferred, or preempts a queued frame (R242, R247, R248, R250). -/
def transitStart (p : Port) (s : State) : State :=
  let q := s.port p
  match q.due with
  | none => s
  | some t =>
    if s.clock.line.toNat < t.due.toNat then s
    else
      let s := s.onPort p fun q => { q with due := none }
      let busy := match q.tx with
        | some x => txHolds x
        | none => false
      if !carries q then s
      else if busy || !q.hold.isEmpty || inBeaconSlot s p || soundingSpan s q then deferTransit s p t
      else
        let s := match q.tx with
          | some x => match x.kind with
            | .queued k => countPort (markSending s p k.toNat .waiting) p 0x0A
            | _ => s
          | none => s
        beginFrame s p (transitTx t .transit)

/-- TRANSIT_EGRESS (R242). -/
def execTransitEgress (p : Port) (s : State) : Out := .next <| whenDue (atSymbol s && shellRuns s) (transitStart p) s

/-! ## The payload check (R241, R243, R244) -/

/-- The egress copies of the frame a port received learn its payload and check. -/
def completeCopies (s : State) (from_ : Port) (payload : List Byte) (crc : Crc) : State :=
  let t := fun (x : Transit) => if x.from_ == from_ && !x.complete then
    { x with complete := true, frame := { x.frame with payload := payload, crc := crc } } else x
  s.onPort from_.other fun q =>
    { q with due := q.due.map t, hold := q.hold.map t,
             tx := q.tx.map fun (x : TxFrame) => if x.from_ == some from_ then
               { x with from_ := none, frame := { x.frame with payload := payload, crc := crc } } else x }

/-- Messages of a link-local payload that R234 counts: malformed ones end it, reserved kinds are skipped. -/
def llBad : Nat → List Byte → Nat
  | 0, _ => 0
  | fuel + 1, bs =>
    match bs with
    | [] => 0
    | [_] => 1
    | k :: l :: r =>
      if l == 0 || r.length < l.toNat then 1
      else (if k == 0 || 4 ≤ k.toNat then 1 else 0) + llBad fuel (r.drop l.toNat)

/-- Count `n` times. -/
def countTimes (s : State) (p : Port) (code : Nat) : Nat → State
  | 0 => s
  | n + 1 => countTimes (countPort s p code) p code n


/-- A command frame (R463, R306, R316): discarded, refused by its queue, or taken. -/
def takeCommand (s : State) (p : Port) (h : Header) (payload : List Byte) : State :=
  let f : CmdFrame := { port := p, byPlace := h.akind == 1, hand := Fin.ofNat 16 h.hand.toNat, seq := h.seq, srcTag := h.srcTag,
                        payload := payload }
  if handCount s ≤ h.hand.toNat || payload.length < 16 || fieldAt payload 4 2 != payload.length - 16 then countCmd s 0x40
  else if engineMode s == .fixed then (if checkOneBad s f then countCmd s 0x40 else fixedTake s p f)
  else
    let r := s.hand f.hand
    if r.state == .resetting then s
    else if 8 ≤ r.input.length || !poolHas s payload.length then handFault s f.hand 0x21
    else s.onHand f.hand fun r => { r with input := r.input ++ [f] }

/-- Local delivery of a good frame (R241, R259, R463). -/
def deliverLocal (s : State) (p : Port) (h : Header) (m : Meta) (payload : List Byte) : State :=
  if !m.egress.loc then s
  else if h.akind == 2 then
    let r := mkQFrame s h payload 0
    (enqueueHand r.2 m.queue.toNat r.1).2
  else if h.tclass == 6 && (h.akind == 0 || h.akind == 1) && h.dest.toNat != 2 ^ 48 - 1 then takeCommand s p h payload
  else s

/-- The check of R282 on an announcement's payload. -/
def announceOk (b : List Byte) : Bool :=
  byteAt b 4 == 26 && fieldAt b 0 4 % 64 == 0 && byteAt b 5 / 32 ≤ 4 && byteAt b 5 % 32 == 0 && byteAt b 6 < 32
  && (byteAt b 7 ≤ 64 || byteAt b 7 == 0x7F) && byteAt b 28 ≤ 14 && byteAt b 29 ≤ 2 && fieldAt b 30 2 == 0

/-- The age clock in units of 4,096 tricks (Table 9.6, `LSTAMP`). -/
def prefixUnit (s : State) : Nat := s.clock.age.toNat / 2415919104 % 65536

/-- A place announcement installs or refreshes its record (R282, R284). -/
def learnPlace (s : State) (p : Port) (b : List Byte) : State :=
  let place := fieldAt b 0 4
  let node := fieldAt b 8 2
  let src := pipeSrc p
  if placeOf s.straps.codes == some (BitVec.ofNat 32 place) then raise s 0x0806 src (beBytes 4 place ++ beBytes 2 node)
  else
    let rec_ := learnedPrefix place node (prefixUnit s) p
    let store := prInsert rec_ s.tables.prefixes
    let old := s.tables.prefixes.find? fun e => prKey e == prKey rec_
    if !trieFits store then
      let recent := s.events.rates.any fun r => r.code == 0x0808 && r.src == src && since s r.at_ < 4096 * trickTicks
      if recent then s else raise s 0x0808 src (beBytes 4 place)
    else
      let s := s.onTables fun t => { t with prefixes := store }
      match old with
      | some e => if prEgress e != prEgress rec_ then
          raise s 0x0807 src (beBytes 4 place ++ beBytes 2 node ++ beBytes 1 (portNum p)) else s
      | none => s

/-- Learning after a good check (R267, R268, R282). -/
def learnFrom (s : State) (p : Port) (h : Header) (payload : List Byte) : State :=
  if h.akind == 3 || s.cut.state == .cut || halted s 5 then s
  else
    let s := learn s p h.srcTag.toNat
    if h.akind == 4 && h.tclass == 6 && payload.length == 32 && announceOk payload then learnPlace s p payload else s

/-- PAYLOAD_CHECK (R241, R243, R244, R252, R267, R463). The messages of a link-local frame act by their own commands; here only
their form is counted (R234; log entry 42). -/
def execPayloadCheck (p : Port) (payload : List Byte) (pcrc : BitVec 32) (s : State) : Out :=
  match (s.port p).rx with
  | none => .next s
  | some r => .next <| whenDue (inService s && payload.length == r.hdr.payLen.toNat) (fun s =>
      let c := crc32 payload
      let s := s.onPort p fun q => { q with rx := none }
      if pcrc == c then
        let s := completeCopies s p payload .good
        let s := if r.hdr.akind == 3 then countTimes s p 0x0B (llBad 4096 payload) else deliverLocal s p r.hdr r.meta_ payload
        learnFrom s p r.hdr payload
      else
        let s := completeCopies s p payload .residue
        if pcrc == c ^^^ 0xA5A5A5A5 then countPort s p 0x04
        else countPort (s.onPort p fun q => { q with crcFails := q.crcFails + 1 }) p 0x03) s

/-- RX_PREEMPT (R249): the frame ends; a copy not yet begun is dropped, one in transmission ends at the next transit preamble. -/
def execRxPreempt (p : Port) (s : State) : Out :=
  .next <| whenDue (inService s && (s.port p).rx.isSome) (fun s =>
    let s := countPort (s.onPort p fun q => { q with rx := none }) p 0x05
    let live := fun (t : Transit) => !(t.from_ == p && !t.complete)
    s.onPort p.other fun q =>
      { q with due := q.due.filter live, hold := q.hold.filter live,
               tx := q.tx.map fun (x : TxFrame) => if x.from_ == some p then { x with from_ := none } else x }) s

/-! ## Lookups of frames the chip sends (R285, Table 9.8) -/

/-- The result for a port: whether it sends the frame, the class, and the policer. -/
def localLookup (s : State) (p : Port) (f : QFrame) : Bool × Option (BitVec 3) × Nat :=
  let d := f.hdr.dest.toNat
  if f.direct then (true, none, 0)
  else match f.hdr.akind.toNat with
  | 0 =>
    if d == 2 ^ 48 - 1 then (true, none, 0)
    else if f.hdr.dest == ownTag s then (false, none, 0)
    else
      let a := (hashFind s .ta d).isSome
      let b := (hashFind s .tb d).isSome
      (if a == b then true else match p with | .ta => a | .tb => b, none, 0)
  | 1 => match lpmFind s.tables.prefixes d with
    | some e => ((prEgress e).testBit (portNum p),
        if bit (entryByte e 5) 4 then some (BitVec.ofNat 3 (entryByte e 5 / 32)) else none, prPolicer e)
    | none => (true, none, 0)
  | 2 =>
    let e := streamEntry s d
    if seValid e && seOrigin e then
      ((entryByte e 0).testBit (portNum p), if bit (entryByte e 0) 5 then some (BitVec.ofNat 3 (entryByte e 1 / 32)) else none,
       entryByte e 2 % 64)
    else (true, none, 0)
  | _ => (true, none, 0)

/-- The first frame of a queue that a port has not taken or declined. -/
def headFor (s : State) (p : Port) (q : Nat) : Option QFrame := (qFrames s q).find? fun f => f.at_ p == .waiting

/-- Decline the head of each queue that the port's lookup excludes (R285). -/
def declineHeads (s : State) (p : Port) : State :=
  mapFrames s fun q f =>
    if (headFor s p q) == some f && f.at_ p == .waiting && (!(localLookup s p f).1 || linkBlocked (s.port p)) then f.mark p .declined else f

/-- On a port that carries no frames, the frames of queues that are not paused are declined, an announcement excepted
(R238, R285; log entry 41). -/
def declineDead (s : State) (p : Port) : State :=
  mapFrames s fun q f =>
    if (q != 65 || f.direct) && f.at_ p == .waiting && !(qSetOf s q).paused then f.mark p .declined else f

/-! ## The choice of a frame (R245, R246, R312) -/

/-- Symbols of a queued frame on a port. -/
def queuedSymbols (q : PortState) (payLen : Nat) : Nat := frameSymbols payLen (max 1 (tableB (q.txTable q.txSlot)))

/-- A queue's head may start on a port (R311, R312): not paused, credit, room. -/
def mayStart (s : State) (p : Port) (room q : Nat) : Option QFrame :=
  let set := qSetOf s q
  match headFor s p q with
  | some f =>
    if set.paused || (set.rate != 0 && !f.debited && set.credit < 0) then none
    else if room < queuedSymbols (s.port p) f.payload.length * symbolTicks then none
    else some f
  | none => none

/-- The class a queue's head is sent in: that of its lookup, else its queue's (R310). -/
def classFor (s : State) (p : Port) (q : Nat) (f : QFrame) : Nat := ((localLookup s p f).2.1.getD (qSetOf s q).cls).toNat

/-- The owner of a queue in the turns of R312: its hand, or 16 for the node. -/
def ownerOf (s : State) (q : Nat) : Nat :=
  if 32 ≤ q && q < 48 then 16 else (queueHand s q).getD 16

/-- Queues that may start a frame on a port: queue, class and frame, ascending. -/
def ready (s : State) (p : Port) : List (Nat × Nat × QFrame) :=
  let room := roomTicks s p
  s.queues.frames.filterMap fun e =>
    if e.1 == 0 || (16 ≤ e.1 && e.1 < 32) then none
    else (mayStart s p room e.1).map fun f => (e.1, classFor s p e.1 f, f)

/-- The queue whose turn it is in a class (R312). -/
def turnPick (q : PortState) (s : State) (cls : Nat) (l : List (Nat × Nat × QFrame)) : Option (Nat × Nat × QFrame) :=
  let l := l.filter fun e => e.2.1 == cls
  let next := q.turnOwner.getD cls 0
  let owners := (List.range 17).map fun i => (next + i) % 17
  owners.findSome? fun o =>
    let mine := l.filter fun e => ownerOf s e.1 == o
    let last := q.turnQueue.getD (cls * 17 + o) 0
    match mine.find? fun e => last < e.1 with
    | some e => some e
    | none => mine.head?

/-- Weights of classes 0 to 6 (Table 8.9). -/
def weights : List Nat := [1, 2, 4, 4, 8, 32, 8]

/-- One round of R246: each class with a frame waiting adds its weight; one with nothing waiting keeps at most its weight. -/
def drrRound (waiting : Nat → Bool) (c : List Nat) : List Nat :=
  (List.range 7).map fun k => if waiting k then c.getD k 0 + weights.getD k 0 else min (c.getD k 0) (weights.getD k 0)

/-- The class whose credit covers its frame, the higher class first; rounds are added until one does (R246). -/
def drrPick (need : Nat → Option Nat) : Nat → List Nat → Option (Nat × List Nat)
  | 0, _ => none
  | fuel + 1, c =>
    match [6, 5, 4, 3, 2, 1, 0].find? fun k => match need k with
      | some n => n ≤ c.getD k 0
      | none => false with
    | some k => some (k, c.set k (c.getD k 0 - (need k).getD 0))
    | none => drrPick need fuel (drrRound (fun k => (need k).isSome) c)

/-- Begin a queued frame (R285, R311): policer, shaping debit, header fields set on egress. -/
def beginQueued (s : State) (p : Port) (q cls : Nat) (f : QFrame) : State :=
  let c := policerCharge s p (localLookup s p f).2.2 (f.payload.length + 62)
  if !c.1 then mapFrames c.2 fun k x => if k == q && x == f then x.mark p .declined else x
  else
    let s := c.2
    let b := tableB ((s.port p).txTable (s.port p).txSlot)
    let set := qSetOf s q
    let s := if set.rate != 0 && !f.debited then setQSet s q { set with credit := set.credit - (f.payload.length + 62 : Nat) } else s
    let s := mapFrames s fun k x => if k == q && x == f then { x.mark p .sending with debited := true } else x
    let hdr := { f.hdr with tclass := BitVec.ofNat 3 cls, btSlot := (s.port p).txSlot, carryB := BitVec.ofNat 16 b }
    let x : TxFrame := {
      kind := .queued (BitVec.ofNat 16 q), frame := { hdr := hdr, payload := f.payload, crc := .good },
      symbols := queuedSymbols (s.port p) f.payload.length, sent := 0, epoch := s.tables.epoch, from_ := none }
    beginFrame (if f.direct then s else stepCount s 2 2) p x

/-- Begin the next queued frame, class 7 in queue order and then classes 6 to 0 (R245, R246, R312). With the queue manager halted
only the fixed responder's frames leave (R479). -/
def startQueued (s : State) (p : Port) : State :=
  if !s.queues.ready then s
  else
    let s := if halted s 2 then s else declineHeads s p
    let l := (ready s p).filter fun e => !halted s 2 || e.2.2.direct
    match l.find? fun e => e.2.1 == 7 with
    | some e => beginQueued s p e.1 7 e.2.2
    | none =>
      let q := s.port p
      let pick := fun k => turnPick q s k l
      let need := fun k => (pick k).map fun e => queuedSymbols q e.2.2.payload.length
      match drrPick need 80 q.drr with
      | none => s.onPort p fun q => { q with drr := drrRound (fun _ => false) q.drr }
      | some (k, credits) =>
        match pick k with
        | none => s
        | some e =>
          let o := ownerOf s e.1
          let s := s.onPort p fun q =>
            { q with drr := credits, turnOwner := q.turnOwner.set k ((o + 1) % 17), turnQueue := q.turnQueue.set (k * 17 + o) e.1 }
          beginQueued s p e.1 k e.2.2

/-- A link-local frame of the chip (R234): one message or the beacon frame. -/
def linkLocalTx (s : State) (p : Port) (kind : TxKind) (payload : List Byte) : TxFrame :=
  let q := s.port p
  let b := tableB (q.txTable q.txSlot)
  let hdr := ownHeader s 3 0 7 0 s.announce.seq.toNat payload.length
  { kind := kind, frame := { hdr := { hdr with carryB := BitVec.ofNat 16 b, btSlot := q.txSlot }, payload := payload, crc := .good },
    symbols := frameSymbols payload.length (max 1 b), sent := 0, epoch := s.tables.epoch, from_ := none }

/-- The next header `SEQ` of the chip's own link-local frames and announcements. -/
def nextSeq (s : State) : State := s.onAnnounce fun a => { a with seq := a.seq + 1 }

/-- The head of queue 0 begins (R247), not while the queue manager is halted (Table 21.6); a frame that cannot leave before a jump
waits until after the quiet trick (R251). -/
def startHold (s : State) (p : Port) : Option State :=
  match (s.port p).hold with
  | [] => none
  | t :: r =>
    let x := transitTx t .hold
    if halted s 2 || meetsJump s s.clock.line.toNat x.symbols then none
    else some (beginFrame (stepCount (s.onPort p fun q => { q with hold := r }) 2 2) p x)

/-- The first originated link-local message whose time has come. -/
def llDue (s : State) (q : PortState) : Option (Tick × List Byte) := q.llOut.find? fun m => m.1.toNat ≤ s.clock.line.toNat

/-- Choose what a free port begins at a symbol boundary (R245): beacon, link-local messages, queue 0, queued frames. -/
def startNext (s : State) (p : Port) : State :=
  let q := s.port p
  if !q.beaconOut.isEmpty then
    let pay := putAt q.beaconOut 2 (beBytes 8 s.clock.line.toNat)
    nextSeq ((beginFrame s p (linkLocalTx s p .beacon pay)).onPort p fun q => { q with beaconOut := [] })
  else if inBeaconSlot s p then s
  else match llDue s q with
    | some m =>
      let x := linkLocalTx s p .trump m.2
      if !maySpan s p x.symbols then s
      else nextSeq ((beginFrame s p x).onPort p fun q => { q with llOut := q.llOut.erase m })
    | none => match startHold s p with
      | some s => s
      | none => startQueued s p

/-! ## The symbol (R152, R162, R175, R245) -/

/-- The quiet trick after a jump runs (R105). -/
def inQuiet (s : State) : Bool :=
  match s.clock.quietUntil with
  | some t => s.clock.line.toNat < t.toNat
  | none => false

/-- The symbol of a port that sends no frame. -/
def fillSymbol (s : State) (q : PortState) : TxSymbol :=
  let k := (s.clock.line.toNat - q.slot0.toNat) / symbolTicks
  if q.echoStart != 0 then echoSymbol
  else if inQuiet s then idleSymbol s
  else match q.link with
    | .sounding init =>
      if (init && 32 ≤ k && k ≤ 47) || (!init && 50 ≤ k && k ≤ 65) then echoSymbol
      else if 68 ≤ k && k ≤ 323 then probeSymbol s
      else if 31 ≤ k && k ≤ 66 then idleSymbol s
      else if trickSymbols == s.clock.line.toNat / symbolTicks % trickSymbols + 1 then watchSymbol s else idleSymbol s
    | _ => if trickSymbols == s.clock.line.toNat / symbolTicks % trickSymbols + 1 then watchSymbol s else idleSymbol s

/-- Symbol `x.sent` of a frame. The payload bits of a frame still arriving are not known to the model: they are free values. -/
def frameSymbol (s : State) (q : PortState) (x : TxFrame) : TxSymbol × State :=
  let t := q.txTable x.frame.hdr.btSlot
  if x.sent == 0 then (preambleSymbol, s)
  else if x.sent == 1 then (headerSymbol s x.frame.hdr, s)
  else
    let carry := x.frame.hdr.carryB.toNat
    if x.frame.crc == .unknown then
      let r := s.drawN (carry / 64 + 1)
      let bits := r.1.flatMap fun v => (List.range 64).map fun i => v.toNat.testBit i
      (payloadSymbol s carry t (List.replicate ((x.sent - 2) * carry) false ++ bits.take carry) (x.sent - 2), r.2)
    else (payloadSymbol s carry t (bitsOf (wireBytes x.frame)) (x.sent - 2), s)

/-- A frame's last symbol has been sent: the queue's frame is taken (R285). -/
def endFrame (s : State) (p : Port) (x : TxFrame) : State :=
  let s := s.onPort p fun q => { q with tx := none }
  match x.kind with
  | .queued k => markSending s p k.toNat .taken
  | _ => s

/-- Send the next symbol of what is in transmission, or fill. -/
def sendSymbol (s : State) (p : Port) : State :=
  let q := s.port p
  match q.tx with
  | none => s.onPort p fun q => { q with sym := fillSymbol s q, echoStart := q.echoStart - 1 }
  | some x =>
    let r := frameSymbol s q x
    let s := r.2.onPort p fun q => { q with sym := r.1 }
    if x.symbols ≤ x.sent + 1 then endFrame s p x
    else s.onPort p fun q => { q with tx := some { x with sent := x.sent + 1 } }

/-- PORT_SYMBOL_SCHEDULE (R245, R152, R162): at each symbol boundary. -/
def execPortSymbolSchedule (p : Port) (s : State) : Out :=
  .next <| whenDue (atSymbol s && shellRuns s) (fun s =>
    let q := s.port p
    if q.link == .off then
      s.onPort p fun q => { q with sym := { kind := .silent, pilots := [], carriers := [] } }
    else
      let s := transitStart p s
      let s := if carries q then
          if (s.port p).tx.isNone && q.echoStart == 0 && !inQuiet s && !soundingSpan s q then startNext s p else s
        else declineDead s p
      sendSymbol s p) s

/-! ## Place announcements (R238) -/

/-- The payload of Table 8.6. -/
def announcePayload (s : State) : List Byte :=
  let codes := s.straps.codes
  beBytes 4 (ownPlace s).toNat ++ [26] ++ beBytes 1 (s.tiers.tier.rank * 32) ++ beBytes 1 (tierCap s) ++ beBytes 1 (hopsByte s)
  ++ beBytes 2 (nodeNumber s).toNat ++ beBytes 8 s.dieId.toNat ++ beBytes 8 s.straps.digest.toNat
  ++ [s.portA.lq, s.portB.lq]
  ++ [match planOf codes with | some n => BitVec.ofNat 8 n | none => Config.ambiguousCode]
  ++ [match twinOf codes with | some n => BitVec.ofNat 8 n | none => Config.ambiguousCode] ++ zeros 2

/-- The fields whose change calls for an announcement: all but `DEALER_HOPS`, `LQ_A` and `LQ_B`. -/
def announceKey (b : List Byte) : List Byte := b.take 7 ++ slice b 8 18 ++ b.drop 28

/-- PLACE_ANNOUNCE_SEND (R238). -/
def execPlaceAnnounceSend (s : State) : Out :=
  let pay := announcePayload s
  let a := s.announce
  let periodic := atTrick s && trickNo s % 4096 == 0 && trickNo s != a.lastTrick
  let changed := announceKey pay != announceKey a.last
  let both := periodic || changed
  .next <| whenDue (inService s && (placeOf s.straps.codes).isSome && s.cut.state != .cut && s.queues.ready
      && (both || a.dueTa || a.dueTb)) (fun s =>
    let hdr := ownHeader s 4 0 6 0 a.seq.toNat 32
    let r := mkQFrame s hdr pay 0
    let f := { r.1 with ta := if both || a.dueTa then Taken.waiting else .declined,
                        tb := if both || a.dueTb then Taken.waiting else .declined }
    let s := enqueueNode r.2 65 f
    s.onAnnounce fun x =>
      { x with dueTa := false, dueTb := false, last := pay, seq := x.seq + 1,
               lastTrick := if atTrick s && trickNo s % 4096 == 0 then trickNo s else x.lastTrick }) s

end Sys2Proof.Machine
end

