-- ==== Sys2Proof/Machine/TableRows.lean ====
section
/-! DEFINITION. The timed rows of the forwarding tables (09_tables_and_learning.md): aging, refills, the drain of the table epoch,
the steps of a commit, and the steps of a port flush. -/

namespace Sys2Proof.Machine

/-! ## Aging and refills -/

/-- Free a learned entry; one of the current generation leaves the learned count. -/
def freeHash (p : Port) (l : HLoc) (s : State) : State :=
  let kept := heCounted s p (hashAt s p l)
  let s := setHash s p l 0
  if kept then countLearned s p (-1) else s

/-- One visit of the aging scanner: the expired entries of bucket b, overflow included (R274). -/
def agingVisit (s : State) (p : Port) : State :=
  let b := (s.pipe p).scan
  let gone := (bucketLocs s p b).filter fun l => let e := hashAt s p l; heValid e && heExpired s e
  (s.each gone (freeHash p)).onPipe p fun q => { q with scan := (b + 1) % 8192, scanAt := s.clock.age }

/-- AGING_SCANNER_VISIT (R274): one visit every L x 65,536 ticks. -/
def execAgingScannerVisit (p : Port) (s : State) : Out :=
  .next <| whenDue (inService s && !halted s 5 && agingLimit s.straps.codes * 65536 ≤ since s (s.pipe p).scanAt)
    (fun s => agingVisit s p) s

/-- A learned prefix record 8 or more units old (R283). -/
def prefixOld (now : Nat) (e : Entry) : Bool := prKind e == 1 && 8 ≤ (now + 65536 - prStamp e) % 65536

/-- LEARNED_PREFIX_AGING (R283): once every 4,096 tricks. -/
def execLearnedPrefixAging (s : State) : Out :=
  .next <| whenDue (atTrick s && inService s && !halted s 5 && trickNo s % 4096 == 0) (fun s =>
    s.onTables fun t => { t with prefixes := t.prefixes.filter fun e => !prefixOld (prefixUnit s) e }) s

/-- A policer after a trick: `RATE` more tokens, up to `BURST` (R261). -/
def policerRefilled (e : Entry) : Entry :=
  if poValid e then poSet e (min (poBurst e) (poTokens e + poRate e)) (poDrop e) else e

/-- POLICER_REFILL (R261): at each trick boundary. -/
def execPolicerRefill (s : State) : Out :=
  .next <| whenDue (atTrick s && inService s) (fun s =>
    s.onTables fun t => { t with policers := t.policers.map fun e => (e.1, policerRefilled e.2) }) s

/-- A queue's settings after a trick: 64 x `QD_RATE` bytes more credit, up to 4,352 (R311). -/
def shaperRefilled (q : QSet) : QSet := if q.rate == 0 then q else { q with credit := min 4352 (q.credit + 64 * q.rate.toNat) }

/-- SHAPER_REFILL (R311): at each trick boundary. -/
def execShaperRefill (s : State) : Out :=
  .next <| whenDue (atTrick s && inService s && !halted s 2) (fun s =>
    s.onQueues fun u => { u with settings := u.settings.map fun e => (e.1, shaperRefilled e.2) }) s

/-! ## The drain (R286) -/

/-- What proceeds when an inversion has drained: a TBL.DEL responds, a flush ends, a hand reset counts one inversion less. -/
def drained (s : State) (w : InvWhy) : State :=
  match w with
  | .tblDel f => respond s f 0 0 []
  | .flush h none _ => opEnd s h.toNat .done 0
  | .flush h (some st) r => opEnd s h.toNat st r.toNat
  | .handReset h => s.onHand h fun r => { r with resetInv := r.resetInv - 1 }
  | _ => s

/-- The next waiting inversion takes place. -/
def nextInversion (s : State) : State :=
  match s.tables.waiting with
  | [] => s.onTables fun t => { t with draining := none }
  | w :: r => s.onTables fun t => { t with epoch := !t.epoch, draining := some (w, s.clock.age), waiting := r }

/-- EPOCH_DRAINED (R286): the fence has passed and no frame of the old epoch is inside. -/
def execEpochDrained (s : State) : Out :=
  match s.tables.draining with
  | none => .next s
  | some (w, _) => .next <| whenDue (epochDrained s) (fun s => nextInversion (drained s w)) s

/-! ## Commit (R288 to R292) -/

/-- Stream ID of a staged change to table 0x01 (R483). -/
def changeSid (c : Change) : Nat := c.key.toNat % 65536

/-- The static record of a prefix. -/
def isStaticOf (pl : Nat × Nat) (e : Entry) : Bool := prKind e == 2 && prPrefix e == pl.1 && prLen e == pl.2

/-- The prefix store with one change of table 0x04 in it. -/
def applyPrefix (store : List Entry) (c : Change) : List Entry :=
  if c.table == 4 then
    match c.entry with
    | some e => prInsert e store
    | none => store.filter fun e => !isStaticOf (changePrefix c) e
  else store

/-- The stream shadow of a batch: stream ID and new entry, empty for a deletion (R289). An `ORIGIN` entry is not changed by it
(R259). -/
def batchShadow (s : State) (b : List Change) : List (Nat × Entry) :=
  b.foldl (fun m c => if c.table == 1 && !seOrigin (s.mem.entry (streamAddr (changeSid c))) then
    sparseSet (changeSid c) (c.entry.getD 0) m else m) []

/-- COMMIT_PREPARED (R289): the first batch's shadow is built, within 16 tricks. -/
def execCommitPrepared (s : State) : Out :=
  let c := s.tables.commit
  match c.batches with
  | [] => .next s
  | b :: _ => .next <| whenDue (!halted s 3 && c.state == .preparing && !c.prepared && since s c.since < 16 * trickTicks && copiesFit s.tables.prefixes b) (fun s =>
      s.onTables fun t => { t with shadow := batchShadow s b, commit := { t.commit with prepared := true } }) s

/-- The tick of a batch's switch has come, and whether it is late (R289, R290): batch 1 at A, a later one at the first
trick boundary after the batch before it, late at any other (log entry 43). -/
def switchTime (s : State) : Option Bool :=
  let c := s.tables.commit
  if c.switches.isEmpty then
    (if c.apply.toNat ≤ s.clock.counter.toNat then some (decide (c.apply.toNat < s.clock.counter.toNat)) else none)
  else if atTrick s then some (decide (trickTicks < since s c.since))
  else none

/-- The switch of a batch: lookups read the new tables, the epoch is inverted (R289). -/
def commitSwitch (s : State) (b : List Change) (late : Bool) : State :=
  let s := s.onTables fun t =>
    { t with
      prefixes := b.foldl applyPrefix t.prefixes,
      commit := { t.commit with
        state := .switched, applied := t.commit.applied + b.length, late := t.commit.late || late,
        switches := t.commit.switches ++ [(s.clock.counter, late)] } }
  invertEpoch s .commit

/-- COMMIT_SWITCH (R289, R297): prepared, its time come, and the previous inversion drained. -/
def execCommitSwitch (s : State) : Out :=
  let c := s.tables.commit
  match c.batches, switchTime s with
  | b :: _, some late =>
    .next <| whenDue (c.state == .preparing && c.prepared && s.tables.draining.isNone) (fun s => commitSwitch s b late) s
  | _, _ => .next s

/-- The detail of the commit-done event (Table 20.3, code 0x080A). -/
def commitDetail (c : Commit) : List Byte :=
  let first := match c.switches with
    | [] => 0
    | e :: _ => e.1.toNat
  let lateBits := (List.range 8).foldl (fun a i => a + if (c.switches.getD i (0, false)).2 then 2 ^ i else 0) 0
  beBytes 8 first ++ beBytes 1 c.switches.length ++ beBytes 1 lateBits ++ beBytes 2 c.applied
  ++ (c.switches.drop 1).flatMap fun e => beBytes 4 ((e.1.toNat - first) % 2 ^ 32)

/-- The inversion of the last switch has not drained. -/
def commitDraining (s : State) : Bool :=
  s.tables.waiting.contains .commit || (match s.tables.draining with | some (w, _) => w == .commit | none => false)

/-- The shadow written into group 0 (R289). -/
def writeShadow (s : State) : State :=
  let s := s.each s.tables.shadow fun e s => s.onMem fun m => m.setEntry (streamAddr e.1) e.2
  s.onTables fun t => { t with shadow := [] }

/-- The batch is done: the next one is prepared, or the commit is Done with its event (Table 9.9). -/
def batchDone (s : State) : State :=
  let rest := s.tables.commit.batches.drop 1
  if rest.isEmpty then
    let s := s.onTables fun t => { t with commit := { t.commit with state := .done, batches := [], partial_ := false } }
    raise s 0x080A 0x60 (commitDetail s.tables.commit) 0 (some s.tables.commit.hand.val)
  else
    s.onTables fun t =>
      { t with commit := { t.commit with state := .preparing, batches := rest, prepared := false, since := s.clock.age } }

/-- COMMIT_WRITEBACK_DONE (R289, R290): the old epoch has drained and the shadow is written back. -/
def execCommitWritebackDone (s : State) : Out :=
  .next <| whenDue (s.tables.commit.state == .switched && !commitDraining s) (fun s => batchDone (writeShadow s)) s

/-- COMMIT_DEFER (R291): the batch is not prepared within 16 tricks; it and the later ones stay staged. -/
def execCommitDefer (s : State) : Out :=
  let c := s.tables.commit
  .next <| whenDue (c.state == .preparing && !c.prepared && 16 * trickTicks ≤ since s c.since) (fun s =>
    let s := raise s 0x0809 0x60 (beBytes 1 (c.switches.length + 1) ++ beBytes 2 c.applied) 0 (some c.hand.val)
    s.onTables fun t => let t := commitReturn t; { t with commit := { t.commit with deferred := true } }) s

/-! ## TBL.FLUSH_PORT (R295, R504) -/

/-- Entries a flush removes: learned ones, and with option bit 0 the hand's own static ones. -/
def flushTakes (o : Op) (e : Entry) : Bool :=
  heValid e && (!heStatic e || (bit (bodyByte o.f 1) 0 && heOwner e == o.hand.val))

/-- One bucket of the walk, the overflow entries of the bucket included. -/
def flushBucket (s : State) (p : Port) (o : Op) : State :=
  s.each ((bucketLocs s p o.progress.toNat).filter fun l => flushTakes o (hashAt s p l)) (freeHash p)

/-- The walk ends: the epoch is inverted, the operation drains (R286). -/
def flushDrain (s : State) (o : Op) : State :=
  invertEpoch (onOp s o.handle.toNat fun o => { o with progress := 0x2001, suspendPending := false, cancelPending := false })
    (.flush o.handle none 0)

/-- The boundary after a bucket: cancel, suspend, the next bucket, the prefix step, or the drain (Table 16.3). -/
def flushBoundary (s : State) (o : Op) : State :=
  let h := o.handle.toNat
  let s := onOp s h fun o => { o with progress := o.progress + 1 }
  if o.cancelPending then opRollback s { o with progress := o.progress + 1 } .cancelled 0x10
  else if o.suspendPending then opEnter s h .suspended 0x04
  else if o.progress.toNat + 1 < 0x2000 || bit (bodyByte o.f 1) 1 then s
  else flushDrain s o

/-- The prefix step: learned prefix records on the port. -/
def flushPrefixes (s : State) (p : Port) : State :=
  s.onTables fun t => { t with prefixes := t.prefixes.filter fun e => !(prKind e == 1 && (prEgress e).testBit (portNum p)) }

/-- FLUSH_PORT_STEP (R504): one bucket, or the prefix step after the last one. -/
def execFlushPortStep (handle : BitVec 16) (s : State) : Out :=
  match opOf s handle.toNat with
  | none => .next s
  | some o =>
    match o.object with
    | .pipe p => .next <| whenDue (!halted s 3 && o.opcode == 0x0705 && o.state == .running && o.progress.toNat ≤ 0x2000 && !flushStopping s handle)
        (fun s =>
          if o.progress.toNat < 0x2000 then flushBoundary (flushBucket s p o) o
          else flushDrain (flushPrefixes s p) o) s
    | _ => .next s

end Sys2Proof.Machine
end

