-- ==== Sys2Proof/Machine/QueueRows.lean ====
section
/-! DEFINITION. The timed rows of the queue and hand manager (10_queues_and_hands.md): stream frames, stream entries, scheduled
outputs, held frames, and the end of a hand reset. -/

namespace Sys2Proof.Machine

/-! ## Streams (R320 to R324) -/

/-- Complete instants at the front of a stream's rows that follow one another by its `PERIOD` (R323). -/
def readyRun (x : Stream) : List (Tick × List (Nat × Sample)) → Nat
  | [] => 0
  | [r] => if rowComplete x r.2 then 1 else 0
  | r :: q :: rest =>
    if !rowComplete x r.2 then 0
    else if q.1 == r.1 + BitVec.ofNat 64 x.period then 1 + readyRun x (q :: rest)
    else 1

/-- The instants the next frame takes: `SO_NSAMP` of them, or fewer where a counter step has left a gap behind them (R120). -/
def frameRows (x : Stream) : Option Nat :=
  let n := readyRun x x.rows
  if x.nsamp ≤ n then some x.nsamp
  else if n != 0 && n < x.rows.length && (match x.rows[n - 1]?, x.rows[n]? with
      | some a, some b => b.1 != a.1 + BitVec.ofNat 64 x.period
      | _, _ => false) then some n
  else none

/-- STREAM_FRAME_BUILD (R323, R309). -/
def execStreamFrameBuild (sid : BitVec 16) (s : State) : Out :=
  match streamOf s sid.toNat with
  | none => .next s
  | some x => match frameRows x with
    | none => .next s
    | some n => .next <| whenDue (inService s && !halted s 2) (fun s => buildStreamFrame s x n) s

/-- A frame of the stream is still queued. -/
def streamQueued (s : State) (sid : BitVec 16) : Bool := s.queues.frames.any fun e => e.2.any fun f => f.sid == sid

/-- ORIGIN_ENTRY_REMOVE (R324): the closed stream's last frame has left its queue; at Pass-through and above. -/
def execOriginEntryRemove (sid : BitVec 16) (s : State) : Out :=
  match streamOf s sid.toNat with
  | none => .next s
  | some x => .next <| whenDue (inService s && x.closing.isSome && x.rows.isEmpty && !streamQueued s sid) (fun s =>
      let s := setStreamEntry s sid.toNat 0
      invertEpoch { s with streams := s.streams.filter fun y => y.id != sid } (.originRemove sid)) s

/-! ## Scheduled outputs (R325 to R328) -/

/-- OUT_APPLY (R327, R120): the first pending value whose A the counter has reached, in Measure and Full. -/
def execOutApply (ch : Fin 24) (s : State) : Out :=
  match (s.chan ch).pending with
  | [] => .next s
  | p :: rest =>
    .next <| whenDue (Tier.measure.rank ≤ s.tiers.tier.rank && p.at_.toNat ≤ s.clock.counter.toNat
        && !halted s 6) (fun s =>
      applyOut (s.onChan ch fun c => { c with pending := rest }) ch p.value p.at_) s

/-! ## Held frames (R306) -/

/-- A held frame can enter its queue: the pool has room, and a response queue has fewer than 8 frames. -/
def heldFits (s : State) (e : Nat × QFrame) : Bool :=
  poolHas s e.2.payload.length && !(32 ≤ e.1 && e.1 < 48 && 8 ≤ (qFrames s e.1).length)

/-- RESPONSE_HELD_RELEASE (R306): the oldest held frame enters its queue. -/
def execResponseHeldRelease (s : State) : Out :=
  match s.queues.heldOut with
  | [] => .next s
  | e :: rest => .next <| whenDue (shellRuns s && !halted s 2 && heldFits s e) (fun s =>
      setQFrames (s.onQueues fun u => { u with heldOut := rest }) e.1 (qFrames s e.1 ++ [e.2])) s

/-! ## HAND.RESET (R329, Table 10.5) -/

/-- Stream IDs whose entry the active table may hold: those with a flags byte in memory, and those of the shadow. -/
def listedStreams (s : State) : List Nat :=
  ((s.mem.cells.filterMap fun (c : Host.Cell) => if c.1 < 0x100000 && c.1 % 16 == 0 then some (c.1 / 16) else none)
    ++ s.tables.shadow.map fun (e : Nat × Entry) => e.1).dedup

/-- Stream entries of a hand in the active table. -/
def handEntries (s : State) (h : Fin 16) : List Nat :=
  (listedStreams s).filter fun sid => let e := streamEntry s sid; seValid e && entryByte e 1 % 16 == h.val

/-- The Enter, Discard and Entries steps (Table 10.5, R301, R510). -/
def handResetStart (s : State) (h : Fin 16) : State :=
  let s := if sessionOf s h then closeSession s 5 else s
  let s := s.onHand h fun r => { r with state := .resetting, refusals := [] }
  let s := s.each (List.finRange 24) fun n s => dropPending s n fun p => p.hand == h
  let s := s.onTables fun t =>
    let c := t.commit
    discardStaged { t with commit := if c.hand == h && c.state == .preparing then { c with prepared := false } else c } fun x => x == h
  let s := endOps s (fun o => o.hand == h) .cancelled 0x11
  let sids := handEntries s h
  let s := { s with streams := s.streams.filter fun x => x.hand != h }
  let s := s.each sids fun sid s => invertEpoch (setStreamEntry s sid 0) (.handReset h)
  let s := s.onHand h fun r => { r with resetInv := sids.length }
  mirrorStations (freeGrids s) h

/-- The Drain and Reset steps and Done: queues emptied, state and descriptors reset, a new session, and hand-reset-done as the first
record of the hand's queue (Table 10.5, R468, R491, R606). -/
def handResetEnd (s : State) (h : Fin 16) : State :=
  let mine := fun (q : Nat) => q == 32 + h.val || queueHand s q == some h.val
  let s := s.onQueues fun u =>
    { u with frames := u.frames.filter fun e => !mine e.1, heldOut := u.heldOut.filter fun e => !mine e.1,
             settings := u.settings.filter fun e => !mine e.1 }
  let s := s.onHand h fun r =>
    { r with state := .clean, refusals := [], input := [], evHead := 0, evCount := 0, lost := 0, resetInv := 0 }
  let s := discardAwait s fun a => a.f.hand == h && !underWarden a.f
  let s := s.onEngine fun e => { e with writing := e.writing.filter fun x => x != h }
  let s := redrawSession s (Fin.ofNat 20 h.val)
  let bitOff := fun (m : BitVec 16) => m &&& ~~~ (BitVec.ofNat 16 (2 ^ h.val))
  let s := s.onEvents fun v =>
    { v with merge := v.merge.map fun e => { e with hands := bitOff e.hands },
             holding := v.holding.map fun r => (withHands (bitOff r.2) r.1, bitOff r.2) }
  raise s 0x0903 0x52 (beBytes 1 h.val) h.val (some h.val)

/-- HAND_RESET_DRAIN (R329, R510): the hand's inversions have drained, every rollback has ended, its response has left,
and the queue manager is not halted (R632). -/
def execHandResetDrain (h : Fin 16) (s : State) : Out :=
  .next <| whenDue (!halted s 2 && (s.hand h).state == .resetting && (s.hand h).resetInv == 0 && liveOps s h == 0 && !responseOut s h.val 0x0303)
    (fun s => handResetEnd s h) s

end Sys2Proof.Machine
end

