-- ==== Sys2Proof/Machine/HandCommands.lean ====
section
/-! DEFINITION. The commands STAT, EV, HAND and Q (15_command_set.md R482 to R486, 10_queues_and_hands.md). -/

namespace Sys2Proof.Machine

/-! ## Parts the commands share -/

/-- A command with an empty body, no further condition and an empty response. -/
def Cmd.plain (op : Nat) : Cmd where
  op := op
  cs := never
  ward := passes
  body := fun f _ => if bodyMalformed f 0 [] then some 0x14 else none
  own := passes
  x := noX
  run := fun _ s => (.now 0 0 [], s)

/-- A status where a condition holds. -/
def failIf (c : Bool) (code : Nat) : Option Nat := if c then some code else none

/-- The body is too short to name what its byte `i` names. -/
def bodyHas (f : CmdFrame) (i : Nat) : Bool := i < (cmdBody f).length

/-! ## STAT (R484, R485) -/

/-- STAT.READ. -/
def statReadCmd : Cmd := { Cmd.plain 0x0101 with run := fun f s => (.now 0 0 (statBlock s f), s) }

/-- Counter codes of a source (Table 15.8); `node` asks for the node's own. -/
def counterCodes (src : Nat) (node : Bool) : List Nat :=
  match src with
  | 0x20 | 0x21 => (List.range 14).map (· + 1)
  | 0x50 | 0x51 => [0x10, 0x11, 0x12, 0x13]
  | 0x52 => if node then [0x22] else [0x20, 0x21, 0x22, 0x23]
  | 0x60 => [0x40, 0x41, 0x42, 0x43]
  | n => if 0x40 ≤ n && n ≤ 0x47 then [0x30, 0x31, 0x32, 0x33] else []

/-- The counter codes a STAT.COUNT asks for. -/
def askedCodes (f : CmdFrame) : List Nat := (slice (cmdBody f) 3 (bodyByte f 2)).map BitVec.toNat

/-- STAT.COUNT. Queue-manager counters are kept by hand, 0x10 for the node. -/
def statCountCmd : Cmd := { Cmd.plain 0x0102 with
  ward := fun f _ => failIf (bodyHas f 1 && bodyByte f 0 == 0x52 && bodyByte f 1 < 16 && bodyByte f 1 != f.hand.val) 0x13
  body := fun f _ =>
    let n := bodyByte f 2
    firstFail [failIf ((cmdBody f).length != 3 + n) 0x14,
      failIf (n == 0 || 16 < n || 16 < bodyByte f 1
        || !(askedCodes f).all fun c => (counterCodes (bodyByte f 0) (bodyByte f 1 == 16)).contains c) 0x16]
  run := fun f s =>
    let obj := if bodyByte f 0 == 0x52 then bodyByte f 1 else 0
    (.now 0 0 ((askedCodes f).flatMap fun c => beBytes 4 (counterOf s (bodyByte f 0) obj c).toNat), s) }

/-! ## EV (R486) -/

/-- The window an EV command names: the hand's, or 16 for the node's. -/
def evWindow (f : CmdFrame) : Nat := if bodyByte f 0 == 1 then 16 else f.hand.val

/-- The body of EV.READ and EV.ACK. -/
def evBody (f : CmdFrame) (_ : State) : Option Nat :=
  firstFail [failIf (bodyMalformed f 2 [0, 1] || 1 < bodyByte f 0) 0x14, failIf (bodyByte f 1 == 0 || 32 < bodyByte f 1) 0x16]

/-- Record `i` of a window as EV.READ returns it; a damaged one has code 0xFFFF and zeros (R608). -/
def eventRecord (s : State) (k i : Nat) : List Byte :=
  let a := eventBase k + 32 * (((eventHead s k).1 + i) % eventCap k)
  if s.mem.poison.any fun w => a ≤ w && w < a + 32 then zeros 12 ++ [0xFF, 0xFF] ++ zeros 18 else s.mem.readN a 32

/-- EV.READ. The node queue needs a hand with a master. -/
def evReadCmd : Cmd := { Cmd.plain 0x0201 with
  ward := fun f s => failIf (bodyByte f 0 == 1 && (s.hand f.hand).master.isNone) 0x13
  body := evBody
  run := fun f s =>
    let n := min (bodyByte f 1) (eventHead s (evWindow f)).2
    (.now 0 0 (beBytes 1 n ++ zeros 3 ++ (List.range n).flatMap (eventRecord s (evWindow f))), s) }

/-- Remove the oldest `n` records of a window; room for an event-lost record is used at once (R597). -/
def ackEvents (s : State) (k n : Nat) : State :=
  let hc := eventHead s k
  placeLost (setEventHead s k ((hc.1 + n) % eventCap k) (hc.2 - n)) k

/-- EV.ACK. Only the master of hand 0 acknowledges node events. -/
def evAckCmd : Cmd := { Cmd.plain 0x0202 with
  ward := fun f _ => failIf (bodyByte f 0 == 1 && (underWarden f || f.hand != 0)) 0x13
  body := evBody
  own := fun f s => failIf ((eventHead s (evWindow f)).2 < bodyByte f 1) 0x16
  run := fun f s => (.now 0 0 [], ackEvents s (evWindow f) (bodyByte f 1)) }

/-! ## HAND (R313, R329) -/

/-- HAND.CLAIM: the station check has passed, so the hand has no master or the sender is it. -/
def handClaimCmd : Cmd := { Cmd.plain 0x0301 with
  run := fun f s =>
    (.now 0 0 [],
      if (s.hand f.hand).master.isSome then s
      else mirrorStations (s.onHand f.hand fun r => { r with master := some f.srcTag }) f.hand) }

/-- Observer tag `i` of a HAND.STATIONS body. -/
def observerTag (f : CmdFrame) (i : Nat) : Tag := BitVec.ofNat 48 (bodyField f (8 + 6 * i) 6)

/-- A tag no station has: zero or a group tag. -/
def tagBad (t : Tag) : Bool := t == 0 || isGroup t

/-- HAND.STATIONS. -/
def handStationsCmd : Cmd := { Cmd.plain 0x0302 with
  body := fun f _ =>
    let n := bodyByte f 6
    firstFail [
      failIf ((cmdBody f).length != 26 || 3 < bodyByte f 7
        || (n ≤ 3 && ((List.range 3).drop n).any fun i => observerTag f i != 0)) 0x14,
      failIf (3 < n || tagBad (BitVec.ofNat 48 (bodyField f 0 6)) || (List.range (min n 3)).any fun i => tagBad (observerTag f i)) 0x16]
  run := fun f s =>
    (.now 0 0 [],
      mirrorStations (s.onHand f.hand fun r =>
        { r with master := some (BitVec.ofNat 48 (bodyField f 0 6)), observers := (List.range (bodyByte f 6)).map (observerTag f),
                 obsTa := bit (bodyByte f 7) 0, obsTb := bit (bodyByte f 7) 1 }) f.hand) }

/-- HAND.RESET: the Enter, Discard and Entries steps (Table 10.5). -/
def handResetCmd : Cmd := { Cmd.plain 0x0303 with
  body := fun f s => firstFail [failIf (bodyMalformed f 1 [0]) 0x14, failIf (handCount s ≤ bodyByte f 0) 0x16]
  own := fun f s => failIf ((s.hand (Fin.ofNat 16 (bodyByte f 0))).state == .resetting) 0x28
  run := fun f s => (.now 0 0 [], handResetStart s (Fin.ofNat 16 (bodyByte f 0))) }

/-! ## Q (R307, R310, R311) -/

/-- The hand a node queue of three per hand is for. -/
def nodeQueueHand (q : Nat) : Option Nat := if 16 ≤ q && q < 64 then some (q % 16) else none

/-- The window of an event queue (Table 11.5). -/
def queueWindow (q : Nat) : Option Nat := if 48 ≤ q && q < 64 then some (q - 48) else if q == 64 then some 16 else none

/-- Frames and cells of a cell queue; `tb` picks the instance of queue 0. -/
def queueLoad (s : State) (q : Nat) (tb : Bool) : Nat × Nat :=
  if q == 0 then
    let l := (s.port (if tb then .tb else .ta)).hold
    (l.length, (l.map fun d => cellsOf d.frame.hdr.payLen.toNat).sum)
  else if 16 ≤ q && q < 32 then
    let l := (s.hand (Fin.ofNat 16 q)).input
    (l.length, (l.map fun f => cellsOf f.payload.length).sum)
  else ((qFrames s q).length, cellsIn (qFrames s q))

/-- `HEAD` and `TAIL` of a queue (Table 10.2): the first and last record of a window; the first cells of the first and last frame,
which are the chip's choice (R308). -/
def queueEnds (s : State) (q : Nat) : (Nat × Nat) × State :=
  let d := s.drawN 2
  let free := fun (i : Nat) => (d.1.getD i 0).toNat % 2 ^ 16
  match queueWindow q with
  | some k =>
    let hc := eventHead s k
    if hc.2 == 0 then ((hc.1, free 1), d.2) else ((hc.1, (hc.1 + hc.2 - 1) % eventCap k), s)
  | none =>
    match (qFrames s q).head?, (qFrames s q).getLast? with
    | some a, some b => ((a.cell.toNat % 32768, b.cell.toNat % 32768), s)
    | _, _ => ((free 0, free 1), d.2)

/-- The class byte of a descriptor: queues without a class of their own have none (Table 10.1). -/
def queueClass (s : State) (q : Nat) : Nat :=
  if q == 0 || (16 ≤ q && q < 32) || (queueWindow q).isSome then 0 else (qSetOf s q).cls.toNat * 32

/-- The descriptor of a queue (Table 10.2), and the state after the free values it took. -/
def queueDescriptor (s : State) (q : Nat) (tb : Bool) : List Byte × State :=
  let set := qSetOf s q
  let own := (queueHand s q).getD 0
  let e := queueEnds s q
  let load := match queueWindow q with
    | some k => ((eventHead s k).2, 0)
    | none => queueLoad s q tb
  (beBytes 1 (128 + 64 * b2n (queueWindow q).isSome + 32 * b2n set.paused + own) ++ beBytes 1 (queueClass s q)
    ++ beBytes 2 ((queueWindow q).getD 0) ++ beBytes 2 e.1.1 ++ beBytes 2 e.1.2 ++ beBytes 2 load.1 ++ beBytes 2 load.2
    ++ beBytes 2 set.rate.toNat ++ [0, 0], e.2)

/-- Another hand's queue, or another hand's node queue (R310). -/
def foreignQueue (s : State) (h : Fin 16) (q : Nat) : Bool :=
  (match queueHand s q with | some o => o != h.val | none => false)
  || (match nodeQueueHand q with | some o => o != h.val | none => false)

/-- Q.READ. -/
def qReadCmd : Cmd := { Cmd.plain 0x0401 with
  body := fun f s =>
    let q := bodyField f 0 2
    firstFail [failIf ((cmdBody f).length != 3 || 1 < bodyByte f 2 || (q != 0 && bodyByte f 2 != 0)) 0x14,
               failIf (!queueExists s q) 0x16]
  own := fun f s => failIf (foreignQueue s f.hand (bodyField f 0 2)) 0x26
  run := fun f s => let r := queueDescriptor s (bodyField f 0 2) (bodyByte f 2 == 1); (.now 0 0 r.1, r.2) }

/-- Settings after Q.SET: a rate raised from zero starts its credit at zero, a later change caps it (R311). -/
def qSetNew (v : QSet) (cls : Nat) (rate : BitVec 16) : QSet :=
  { v with cls := BitVec.ofNat 3 cls, rate := rate,
           credit := if v.rate == 0 || rate == 0 then 0 else if v.rate == rate then v.credit else min 4352 v.credit }

/-- Q.SET. -/
def qSetCmd : Cmd := { Cmd.plain 0x0402 with
  body := fun f s =>
    firstFail [failIf (bodyMalformed f 6 [0, 1, 2, 4, 5] || bodyByte f 2 % 32 != 0) 0x14,
               failIf (!queueExists s (bodyField f 0 2) || bodyByte f 2 / 32 == 7) 0x16]
  own := fun f s =>
    let q := bodyField f 0 2
    firstFail [failIf (q < 256) 0x13, failIf (queueHand s q != some f.hand.val) 0x26]
  run := fun f s =>
    let q := bodyField f 0 2
    (.now 0 0 [], setQSet s q (qSetNew (qSetOf s q) (bodyByte f 2 / 32) (BitVec.ofNat 16 (bodyField f 4 2)))) }

/-! ## The rows -/

/-- STAT_READ (R484). -/
def execStatRead (f : CmdFrame) (s : State) : Out := .next (runCommand statReadCmd f s)
/-- STAT_COUNT (R485). -/
def execStatCount (f : CmdFrame) (s : State) : Out := .next (runCommand statCountCmd f s)
/-- EV_READ (R486). -/
def execEvRead (f : CmdFrame) (s : State) : Out := .next (runCommand evReadCmd f s)
/-- EV_ACK (R486, R597, R605). -/
def execEvAck (f : CmdFrame) (s : State) : Out := .next (runCommand evAckCmd f s)
/-- HAND_CLAIM (R313). -/
def execHandClaim (f : CmdFrame) (s : State) : Out := .next (runCommand handClaimCmd f s)
/-- HAND_STATIONS (R313). -/
def execHandStations (f : CmdFrame) (s : State) : Out := .next (runCommand handStationsCmd f s)
/-- HAND_RESET (R329). -/
def execHandReset (f : CmdFrame) (s : State) : Out := .next (runCommand handResetCmd f s)
/-- Q_READ (R310). -/
def execQRead (f : CmdFrame) (s : State) : Out := .next (runCommand qReadCmd f s)
/-- Q_SET (R310, R311). -/
def execQSet (f : CmdFrame) (s : State) : Out := .next (runCommand qSetCmd f s)

end Sys2Proof.Machine
end

