-- ==== Sys2Proof/Machine/Channels.lean ====
section
/-! DEFINITION. The field side of the channels (12_universal_channels.md): terminal protection (R384, R392, R393), the loop
supply (R377) and role changes (R381). -/

namespace Sys2Proof.Machine

/-! ## Terminal protection -/

/-- The channel of a field terminal FT0 to FT95 (R371). -/
def termChan (ft : Fin 96) : Fin 24 := Fin.ofNat 24 (ft.val / 4)

/-- Set the disconnect of a terminal. -/
def setDisc (s : State) (ft : Fin 96) (b : Bool) : State :=
  s.onChan (termChan ft) fun c => { c with disc := c.disc.set (ft.val % 4) b }

/-- A terminal that the channel's family uses has its disconnect open. -/
def usedOpen (s : State) (n : Fin 24) : Bool :=
  match (s.chan n).profile with
  | some p => anyOpen (s.chan n) (usedTerms (isCjRef s n) p)
  | none => false

/-- The readback checks of an output start again with a new settling allowance (R441). -/
def restartChecks (s : State) (n : Fin 24) : State :=
  s.onChan n fun c =>
    let a := match c.profile with
      | some p => allowance p
      | none => 0
    { c with settleEnd := s.clock.age + BitVec.ofNat 64 a, checks := false, shortSince := none, weakSince := none,
             rangeSince := none, delSince := none, pathSince := none }

/-- DISCONNECT_OPEN (R384, R392, R393): the comparator is powered from VAN and needs no clock; the channel's sources and shunt turn
off where the terminal carries one, and its samples become stale. -/
def execDisconnectOpen (ft : Fin 96) (s : State) : Out :=
  let n := termChan ft
  .next <| whenDue (s.supply.good.contains .van && !((s.chan n).disc.getD (ft.val % 4) false)) (fun s =>
    let s := setDisc s ft true
    if !shellRuns s then s
    else
      let s := setFrontEnd s n
      let s := if usedOpen s n then staleBegin s n 2 else s
      let s := if isOutChan (s.chan n) then
          s.onChan n fun c => { c with checks := false, shortSince := none, weakSince := none, rangeSince := none,
                                       delSince := none, pathSince := none }
        else s
      raise s 0x0B01 n.val (beBytes 1 ft.val) ft.val) s

/-- DISCONNECT_RECLOSE (R384, R392, R394, R441): the disconnect closes; sources and shunt come back where every terminal that
carries one is closed, and an output's checks restart where the whole quad is closed. -/
def execDisconnectReclose (ft : Fin 96) (s : State) : Out :=
  let n := termChan ft
  .next <| whenDue (s.supply.good.contains .van && (s.chan n).disc.getD (ft.val % 4) false) (fun s =>
    let s := setDisc s ft false
    if !shellRuns s then s
    else
      let s := setFrontEnd s n
      let s := if usedOpen s n then s else staleEnd s n 2
      let s := if isOutChan (s.chan n) && !(s.chan n).disc.contains true then restartChecks s n else s
      clearLatching s 0x0B01 n.val ft.val (beBytes 1 ft.val)) s

/-! ## Loop supply -/

/-- The channel has a loop supply (Table 12.4). -/
def hasLoop (c : Chan) : Bool :=
  match c.profile with
  | some p => cpaOf p == 0 || cpaOf p == 2
  | none => false

/-- LOOP_SUPPLY_FOLDBACK (R377): the limit folds back to 3 mA. -/
def execLoopSupplyFoldback (ch : Fin 24) (s : State) : Out :=
  .next <| whenDue (hasLoop (s.chan ch) && (s.chan ch).sources && !(s.chan ch).folded) (fun s =>
    raise (s.onChan ch fun c => { c with folded := true }) 0x0B02 ch.val []) s

/-- LOOP_SUPPLY_RETRY (R377): the full limit is restored for 100 ms; the overload ends if T0 rises to 8.0 V, else the limit folds
back again. -/
def execLoopSupplyRetry (ch : Fin 24) (t0Good : Bool) (s : State) : Out :=
  .next <| whenDue ((s.chan ch).folded && t0Good) (fun s =>
    clearLatching (s.onChan ch fun c => { c with folded := false }) 0x0B02 ch.val 0 []) s

/-! ## Role changes (R381) -/

/-- How long the switchings of a role change last from its start, which is a trick boundary: the shunt overlap, the gap between
two chips' sources, or none where the family has neither. -/
def roleSpan (p : BitVec 8) : Nat :=
  match cpaOf p with
  | 0 | 1 | 2 => symbolTicks
  | 5 | 6 | 7 | 8 | 9 | 10 => trickTicks
  | _ => 0

/-- ROLE_CHANGE_START (R381, R556): at a trick boundary, on an input channel whose role is not that of the lead. -/
def execRoleChangeStart (ch : Fin 24) (s : State) : Out :=
  let c := s.chan ch
  let b := s.seat.lead
  match c.profile with
  | none => .next s
  | some p =>
    .next <| whenDue (atTrick s && isTwin s && Tier.measure.rank ≤ s.tiers.tier.rank && isInput p && c.roleStep.isNone && !c.caught
        && c.active != b) (fun s =>
      if roleSpan p == 0 then setFrontEnd (s.onChan ch fun c => { c with active := b }) ch
      else
        let s := staleBegin s ch 1
        setFrontEnd (s.onChan ch fun c => { c with roleStep := some (b, s.clock.age + BitVec.ofNat 64 (roleSpan p)) }) ch) s

/-- ROLE_CHANGE_STEP (R381, R394): the last switching of the role change. -/
def execRoleChangeStep (ch : Fin 24) (s : State) : Out :=
  match (s.chan ch).roleStep with
  | none => .next s
  | some (b, t) =>
    .next <| whenDue (t.toNat ≤ s.clock.age.toNat) (fun s =>
      staleEnd (setFrontEnd (s.onChan ch fun c => { c with active := b, roleStep := none }) ch) ch 1) s

end Sys2Proof.Machine
end

