-- ==== Sys2Proof/Machine/Conversion.lean ====
section
/-! DEFINITION. Conversion, ranging, curves and blanking (13_conversion_and_ranging.md), and the stream samples of outputs
(14_loop_output.md R440). -/

namespace Sys2Proof.Machine

/-! ## Ranging (R406 to R408, Table 13.3) -/

/-- Coarse full scale of a profile in the unit of `Conv` (Table 13.2). -/
def coarseFs (p : BitVec 8) : Int :=
  match cpaOf p with
  | 0 | 1 | 2 => 6250000
  | 5 => 5000000
  | 6 => 4000000
  | 7 | 8 => match curveOf p with
    | 2 => 22500000
    | 3 => 45000000
    | _ => 4500000
  | 9 | 10 => 80000000
  | _ => 5500000

/-- A trigger: the fine value reaches 90 % of the fine full scale, or a fine overload (R406). -/
def convTrigger (c : Conv) (fs : Int) : Bool := 9 * fs ≤ c.fine.natAbs * 320 || c.fineOvl

/-- Settled low: the coarse value is within 80 % of the fine full scale, with no fine overload (R406). -/
def convLow (c : Conv) (fs : Int) : Bool := (c.coarse.natAbs : Int) * 40 ≤ fs && !c.fineOvl

/-- Table 13.3 before a sample is output: the next state, and whether the present sample is a seam. `trig` is of the entering
sample with look-ahead on, else of the present one. -/
def Ranging.move (la trig low : Bool) : Ranging → Ranging × Bool
  | .fine => if trig then (if la then (.toCoarse 1, false) else (.coarse, true)) else (.fine, false)
  | .coarse => (if low then .toFine 4 else .coarse, false)
  | .toFine k =>
    if trig then (if la then (if 3 ≤ k then .coarse else .toCoarse (k + 2), false) else (.coarse, true)) else (.toFine k, false)
  | r => (r, false)

/-- Coarse weight of the next output, in fifths (R407). -/
def Ranging.weight : Ranging → Nat
  | .fine => 0
  | .toCoarse k => k
  | .toFine k => k
  | _ => 5

/-- After a sample has been output: a fade goes on (R407). -/
def Ranging.after : Ranging → Ranging
  | .toCoarse k => if 4 ≤ k then .coarse else .toCoarse (k + 1)
  | .toFine k => if k ≤ 1 then .fine else .toFine (k - 1)
  | r => r

/-- Range path of an output (Table 8.5). -/
def Ranging.path : Ranging → BitVec 2
  | .fine => 0
  | .toCoarse _ => 2
  | .toFine _ => 2
  | _ => 1

/-- A quotient rounded down or up: the spec does not say how the chip rounds, so the choice is free. -/
def freeRound (a : Int) (b : Nat) (r : BitVec 64) : Int :=
  if a % (b : Int) == 0 then a / b else a / b + ((r.toNat % 2 : Nat) : Int)

/-- The faded or plain value of a conversion under a coarse weight in fifths (R407). -/
def convMix (c : Conv) (w : Nat) (r : BitVec 64) : Int := freeRound (w * c.coarse + (5 - w : Int) * c.fine) 5 r

/-! ## Curves (R412, R415 to R421) -/

/-- A sample's value, or beyond its range. -/
inductive Scaled where
  | below
  | above
  | val (v : Int)
  deriving DecidableEq, Repr

/-- The greatest value from `lo` on and below `hi` that meets a rising condition, which `lo` meets. -/
def bisect (p : Int → Bool) : Nat → Int → Int → Int
  | 0, lo, _ => lo
  | k + 1, lo, hi =>
    if hi ≤ lo + 1 then lo
    else
      let mid := (lo + hi) / 2
      if p mid then bisect p k mid hi else bisect p k lo mid

/-- The resistance at `t` (0.001 degC) is at most `r` (0.1 mOhm), by the functions of curves 1 to 4 in exact integers. -/
def rtdAtMost (curve : Nat) (t r : Int) : Bool :=
  if curve == 4 then
    100 * (10 ^ 35 + 5485 * t * 10 ^ 26 + 665 * t ^ 2 * 10 ^ 21 + 2805 * t ^ 4 * 10 ^ 9 - 2 * t ^ 6) ≤ r * 10 ^ 31
  else
    let r0 : Int := if curve == 1 then 100 else if curve == 2 then 500 else 1000
    let c : Int := if t < 0 then 4183 * (t - 100000) * t ^ 3 else 0
    r0 * (10 ^ 27 + 39083 * t * 10 ^ 17 - 5775 * t ^ 2 * 10 ^ 11 - c) ≤ r * 10 ^ 23

/-- Reporting range of curves 1 to 4 and 8 to 15 in 0.001 degC (Table 13.5). -/
def tempRange (curve : Nat) : Int × Int :=
  match curve with
  | 4 => (-60000, 180000)
  | 8 => (250000, 1820000)
  | 9 => (-200000, 1000000)
  | 10 => (-210000, 1200000)
  | 11 => (-200000, 1372000)
  | 12 => (-200000, 1300000)
  | 13 | 14 => (-50000, 1768100)
  | 15 => (-200000, 400000)
  | _ => (-200000, 850000)

/-- Curves 1 to 4: within 0.002 K of the defining function; which value within that is free (R415). -/
def rtdValue (curve : Nat) (e : Int) (r : BitVec 64) : Scaled :=
  let g := tempRange curve
  if !rtdAtMost curve g.1 e then .below
  else if rtdAtMost curve g.2 e && !rtdAtMost curve g.2 (e - 1) then .val g.2
  else if rtdAtMost curve g.2 e then .above
  else
    let n := bisect (fun t => rtdAtMost curve t e) 24 g.1 g.2
    let exact := !rtdAtMost curve n (e - 1)
    .val (n + (if exact then ((r.toNat % 5 : Nat) : Int) - 2 else ((r.toNat % 4 : Nat) : Int) - 1))

/-- Curves 8 to 15 at a cold-junction temperature (R416). -/
def tcValue (curve : Nat) (e cj : Int) : Scaled :=
  let t := Config.tcTemp curve (e + Config.tcEmf curve cj)
  let g := tempRange curve
  if t < g.1 then .below else if g.2 < t then .above else .val t

/-- Curves 16 and 17: units of full flow of a current in 4 nA; the rounding of the root is free (R415). -/
def flowValue (cut : Bool) (e : Int) (r : BitVec 64) : Int :=
  if e < 1000000 || cut then 0
  else
    let x := (e - 1000000) * 2 ^ 44
    let y := bisect (fun y => y * y * 4000000 ≤ x) 24 0 (2 ^ 24)
    if y * y * 4000000 == x then y else y + ((r.toNat % 2 : Nat) : Int)

/-- Point `p` of a custom curve block (Table 13.6). -/
def curveX (blk : List Byte) (p : Nat) : Int := signed 32 (fieldAt blk (4 + 8 * p) 4)
def curveY (blk : List Byte) (p : Nat) : Int := signed 32 (fieldAt blk (8 + 8 * p) 4)

/-- A custom curve: linear between points, to nearest with ties away from zero (R421). -/
def customValue (blk : List Byte) (e : Int) : Scaled :=
  if e < curveX blk 0 then .below
  else if curveX blk 63 < e then .above
  else
    let k := ((List.range 63).filter fun p => curveX blk p ≤ e).length - 1
    let x0 := curveX blk k
    let x1 := curveX blk (k + 1)
    let y0 := curveY blk k
    .val (roundDiv (y0 * (x1 - x0) + (curveY blk (k + 1) - y0) * (e - x0)) (x1 - x0).toNat)

/-- The block of a custom curve that a sample of an instant uses (R421). -/
def curveBlock (s : State) (slot : Nat) (t : Tick) : List Byte :=
  let old := s.straps.curveUse.find? fun e => e.1.val == slot && (match e.2.2 with
    | some b => t.toNat < b.toNat
    | none => true)
  match old with
  | some e => e.2.1
  | none => match s.vault.look (.curve (Fin.ofNat 16 slot)) with
    | .data bs => bs
    | _ => []

/-- Readable range of Table 12.3 in the unit of `Conv`. -/
def readable (p : BitVec 8) : Int × Int :=
  match cpaOf p with
  | 0 | 1 | 2 => (0, 6250000)
  | 4 => (-250000, 5500000)
  | 5 => (-5000000, 5000000)
  | 6 => (-4000000, 4000000)
  | 7 | 8 => (0, coarseFs p)
  | 9 | 10 => (-20000000, 80000000)
  | _ => (-5500000, 5500000)

/-- The value of an electrical quantity through the channel's curve (Table 13.5). -/
def scale (s : State) (p : BitVec 8) (cut : Bool) (t : Tick) (cj e : Int) (r : BitVec 64) : Scaled :=
  match cpaOf p with
  | 2 => .val (flowValue cut e r)
  | 7 | 8 => rtdValue (curveOf p) e r
  | 9 | 10 => tcValue (curveOf p) e cj
  | 14 => customValue (curveBlock s (cpbOf p) t) e
  | _ => .val e

/-! ## Blanking (R422 to R424) -/

/-- The BLANK input of a channel, where its profile is blanked. -/
def blankOf (s : State) (n : Fin 24) : Option (Fin 4) :=
  match (s.chan n).profile, blankmapOf s.straps.blankmap with
  | some p, some m => if (blankMode p).isSome then blankInput m n.val else none
  | _, _ => none

/-- An instant of a channel is blanked (R423); a re-kindle or restrap ends the blank for its channel (R430). -/
def blanked (s : State) (n : Fin 24) (t : Tick) : Bool :=
  match blankOf s n with
  | none => false
  | some k => s.supply.blanks[k].any fun b =>
      b.1.toNat ≤ t.toNat && (match b.2 with | some f => t.toNat ≤ f.toNat | none => true)
      && !((s.chan n).stale.any fun e => (e.1 == 0 || e.1 == 3) && b.1.toNat ≤ e.2.1.toNat && e.2.1.toNat ≤ t.toNat)

/-- Change the record of a BLANK input and its spans; spans that no sample not yet ready can reach are dropped. -/
def setBlank (s : State) (k : Fin 4) (b : Bool × Tick × Bool × Tick) (f : List (Tick × Option Tick) → List (Tick × Option Tick)) : State :=
  let now := s.clock.counter
  let keep := fun (e : Tick × Option Tick) => match e.2 with
    | some t => now.toNat < t.toNat + 2 ^ 31
    | none => true
  s.onSupply fun u => { u with blank := u.blank.set k b, blanks := u.blanks.set k (f (u.blanks[k].filter keep)) }

/-- End the newest span at a tick. -/
def endSpan (now : Tick) : List (Tick × Option Tick) → List (Tick × Option Tick)
  | (a, none) :: r => (a, some now) :: r
  | l => l

/-- BLANK_RISE (R423): t_r is taken. -/
def execBlankRise (k : Fin 4) (s : State) : Out :=
  let b := s.supply.blank[k]
  .next <| whenDue (shellRuns s && !b.1) (fun s =>
    setBlank s k (true, s.clock.age, b.2.2.1, b.2.2.2) fun l => if b.2.2.1 then l else (s.clock.counter, none) :: l) s

/-- BLANK_FALL (R423): t_f is taken. -/
def execBlankFall (k : Fin 4) (s : State) : Out :=
  let b := s.supply.blank[k]
  .next <| whenDue (shellRuns s && b.1) (fun s =>
    setBlank s k (false, b.2.1, b.2.2.1, s.clock.age) (endSpan s.clock.counter)) s

/-- BLANK_TOO_LONG (R424, R432): 10 ms of ticks after t_r; the source is the lowest-numbered channel of the input. -/
def execBlankTooLong (k : Fin 4) (s : State) : Out :=
  let b := s.supply.blank[k]
  .next <| whenDue (shellRuns s && b.1 && !b.2.2.1 && 30000000 ≤ since s b.2.1) (fun s =>
    let s := setBlank s k (true, b.2.1, true, b.2.2.2) (endSpan s.clock.counter)
    match (List.range 24).find? fun n => (match blankmapOf s.straps.blankmap with
        | some m => blankInput m n == some k
        | none => false) with
    | some n => raise s 0x0C06 n (beBytes 1 k.val) k.val
    | none => s) s

/-- BLANK_IGNORE_END (R424): the input has been inactive for one whole trick. -/
def execBlankIgnoreEnd (k : Fin 4) (s : State) : Out :=
  let b := s.supply.blank[k]
  .next <| whenDue (shellRuns s && !b.1 && b.2.2.1 && trickTicks ≤ since s b.2.2.2) (fun s =>
    let s := setBlank s k (false, b.2.1, false, b.2.2.2) id
    s.each (List.range 24) fun n s => clearLatching s 0x0C06 n k.val (beBytes 1 k.val)) s

/-! ## The node cold-junction reference (R416, R418, Table 12.9) -/

/-- CJ_REFERENCE_LOSS_TIMEOUT (R418). -/
def execCjReferenceLossTimeout (s : State) : Out :=
  .next <| whenDue (s.supply.cjLost && !s.supply.cjStale && 30000000000 ≤ since s s.supply.cjLostAt) (fun s =>
    s.onSupply fun u => { u with cjStale := true }) s

/-- CURVE_SWITCH (R421): at the first trick boundary after the operation ended Done. -/
def execCurveSwitch (slot : Fin 16) (s : State) : Out :=
  let now := s.clock.counter
  .next <| whenDue (atTrick s && s.straps.curveUse.any fun e => e.1 == slot && e.2.2.isNone) (fun s =>
    s.onStraps fun t =>
      { t with curveUse := (t.curveUse.map fun e => if e.1 == slot && e.2.2.isNone then (e.1, e.2.1, some now) else e).filter fun e =>
          match e.2.2 with
          | some b => now.toNat < b.toNat + 2 ^ 31
          | none => true }) s

/-- A new value of the reference: lost while its excitation is at compliance for 4 conversions or the reading lies outside -50 to
+150 degC. -/
def cjReference (s : State) (n : Fin 24) (obs : SampleObs) : State :=
  let bad := if obs.excLimit then min 4 ((s.chan n).excBad + 1) else 0
  let good := if obs.excLimit then 0 else min 4 ((s.chan n).excGood + 1)
  let exc := bad == 4 || ((s.chan n).sensorOpen && good != 4)
  let s := s.onChan n fun c => { c with excBad := bad, excGood := good, sensorOpen := exc, lastInstant := some obs.conv.instant }
  if exc || obs.cj < -50000 || 150000 < obs.cj then
    if s.supply.cjLost then s
    else raise (s.onSupply fun u => { u with cjLost := true, cjLostAt := s.clock.age }) 0x0B05 0x17 []
  else
    clearLatching (s.onSupply fun u => { u with cjValue := obs.cj, cjLost := false, cjStale := false }) 0x0B05 0x17 0 []

/-! ## Samples (R413, R414) -/

/-- The tag byte (Table 8.5). -/
def tagByte (path : BitVec 2) (seam blank alarm stale dis hold : Bool) : BitVec 8 :=
  BitVec.ofNat 8 (path.toNat * 64 + 32 * b2n seam + 16 * b2n blank + 8 * b2n alarm + 4 * b2n stale + 2 * b2n dis + b2n hold)

/-- A span of staleness covers the instant. -/
def staleAt (c : Chan) (t : Tick) : Bool :=
  c.stale.any fun e => e.2.1.toNat ≤ t.toNat && (match e.2.2 with | some f => t.toNat ≤ f.toNat | none => true)

/-- Give a sample to the rows of a stream, in the order of instants and channels. -/
def addRow (t : Tick) (n : Nat) (v : Sample) : List (Tick × List (Nat × Sample)) → List (Tick × List (Nat × Sample))
  | [] => [(t, [(n, v)])]
  | r :: rs =>
    if r.1 == t then (t, sparseSet n v r.2) :: rs
    else if t.toNat < r.1.toNat then (t, [(n, v)]) :: r :: rs
    else r :: addRow t n v rs

/-- The stream takes this instant of the channel (R320, R322, R324); a quarantined or resetting hand has no instants. -/
def streamTakes (s : State) (x : Stream) (n : Fin 24) (t : Tick) : Bool :=
  x.chmap.toNat.testBit n.val && x.first.toNat ≤ t.toNat
  && ((t.toNat : Int) - (x.phase : Int)) % (x.period : Int) == 0
  && (match x.closing with | some e => t.toNat ≤ e.toNat | none => true)
  && (s.hand x.hand).state != .quarantined && (s.hand x.hand).state != .resetting

/-- A sample becomes ready: the sample ring of the channel takes it (Table 11.5), and every stream of the channel. -/
def produce (s : State) (n : Fin 24) (t : Tick) (value : BitVec 24) (tag : BitVec 8) : State :=
  let pos := (s.chan n).ringPos
  let s := s.onMem fun m => m.writeN (0xC00000 + 0x20000 * n.val + 4 * pos) (beBytes 3 value.toNat ++ [tag])
  let s := if pos + 1 == 32768 then s.onMem fun m => windowWrap m (0x020 + n.val) else s
  let s := s.onChan n fun c => { c with ringPos := (pos + 1) % 32768 }
  { s with streams := s.streams.map fun x =>
      if streamTakes s x n t then { x with rows := addRow t n.val { value := value, tag := tag, pos := pos } x.rows } else x }

/-- The alarm flag conditions of R414 other than NE 43. -/
def inputAlarm (s : State) (p : BitVec 8) (c : Chan) : Bool := c.folded || (cpaOf p == 10 && s.supply.cjLost)

/-- A stale sample: the last good value (Table 13.4). -/
def produceStale (s : State) (n : Fin 24) (p : BitVec 8) (t : Tick) : State :=
  let g := (s.chan n).lastGood
  let s := produce s n t g.value (tagByte g.path false false (g.ne43 || inputAlarm s p (s.chan n)) true false false)
  s.onChan n fun c => { c with prev := g }

/-- The front-end faults a conversion shows (Table 12.9, Table 13.8): excitation at compliance, thermocouple open, lead high,
cold-junction Pt1000. -/
def sensorChecks (s : State) (n : Fin 24) (p : BitVec 8) (obs : SampleObs) : State :=
  let a := cpaOf p
  let c := s.chan n
  let s :=
    if 5 ≤ a && a ≤ 9 && c.sources then
      let bad := if obs.excLimit then min 4 (c.excBad + 1) else 0
      let good := if obs.excLimit then 0 else min 4 (c.excGood + 1)
      let o := bad == 4 || (c.sensorOpen && good != 4)
      let s := s.onChan n fun c => { c with excBad := bad, excGood := good, sensorOpen := o }
      if o then raise s 0x0B03 n.val [1] 1 else clearLatching s 0x0B03 n.val 1 [1]
    else s
  let s :=
    if a == 9 || a == 10 then
      let s := s.onChan n fun c => { c with tcOpen := obs.tcOpen }
      if obs.tcOpen then raise s 0x0B03 n.val [2] 2 else clearLatching s 0x0B03 n.val 2 [2]
    else s
  let s :=
    if (a == 7 || a == 8) && rtdWiring p == 1 then
      if 500 < obs.lead then raise (s.onChan n fun c => { c with leadHigh := true }) 0x0B04 n.val (beBytes 2 obs.lead)
      else if obs.lead < 450 then clearLatching (s.onChan n fun c => { c with leadHigh := false }) 0x0B04 n.val 0 (beBytes 2 obs.lead)
      else s
    else s
  if a == 9 then
    let f := obs.cj < -50000 || 150000 < obs.cj
    let s := s.onChan n fun c => { c with cjFault := f }
    let d := beBytes 4 (unsigned 32 obs.cj)
    if f then raise s 0x0C05 n.val d else clearLatching s 0x0C05 n.val 0 d
  else s

/-- The path faults a conversion shows (Table 13.8). -/
def pathChecks (s : State) (n : Fin 24) (p : BitVec 8) (obs : SampleObs) (k : Conv) : State :=
  let fs := coarseFs p
  let fb := if k.fineOvl && (k.coarse.natAbs : Int) * 40 ≤ fs then (s.chan n).fineBad + 1 else 0
  let cb := if k.coarseOvl && (k.fine.natAbs : Int) * 40 < fs then (s.chan n).coarseBad + 1 else 0
  let s := s.onChan n fun c => { c with fineBad := min 64 fb, coarseBad := min 64 cb }
  let gain := 100 < obs.gainDev || obs.gainDev < -100
  let s :=
    if (gain || 64 ≤ fb) && (s.chan n).ranging != .coarseOnly then
      raise (s.onChan n fun c => { c with ranging := .coarseOnly }) 0x0C03 n.val [if gain then 1 else 2]
    else s
  if 64 ≤ cb && !(s.chan n).capCoarse then coarseFault s n 1 else s

/-- A fresh value of the present sample `k` by the ranging state: rows 4 to 7 of Table 13.4, with the events of over-range and
slew. -/
def produceFresh (s : State) (n : Fin 24) (p : BitVec 8) (k : Conv) (st : Ranging) (seam : Bool) (cj : Int) : State :=
  let d := s.draw
  let r := d.1
  let s := d.2
  let slew := k.coarseOvl
  let e := if slew || seam then k.coarse else convMix k st.weight r
  let cut := if e - 1000000 < 40000 then true else if 48000 ≤ e - 1000000 then false else (s.chan n).cutOff
  let s := if cpaOf p == 2 then s.onChan n fun c => { c with cutOff := cut } else s
  let useCut := curveOf p == 17 && cut
  let g := readable p
  let edge := if k.coarse < g.1 then Scaled.below else if g.2 < k.coarse then .above
    else match scale s p useCut k.instant cj k.coarse r with
      | .val _ => scale s p useCut k.instant cj e (r >>> 1)
      | x => x
  match edge with
  | .val v =>
    let ne43 := cpaOf p ≤ 2 && (e ≤ 900000 || 5250000 ≤ e)
    let path := if slew || seam then 1 else st.path
    let value := BitVec.ofInt 24 v
    let s := clearLatching s 0x0C01 n.val 0 [0]
    let s := if slew then raise s 0x0C02 n.val [] else clearLatching s 0x0C02 n.val 0 []
    let s := produce s n k.instant value
      (tagByte path (slew || seam) false (slew || ne43 || inputAlarm s p (s.chan n)) false false false)
    let w : Kept := { value := value, path := path, ne43 := ne43 }
    s.onChan n fun c => { c with lastGood := w, prev := w }
  | x =>
    let up := x == .above
    let value : BitVec 24 := if up then 0x7FFFFF else 0x800001
    let s := raise s 0x0C01 n.val [if up then 1 else 0]
    let s := if slew then s else clearLatching s 0x0C02 n.val 0 []
    let s := produce s n k.instant value (tagByte 1 false false true false false false)
    s.onChan n fun c => { c with prev := { value := value, path := 1, ne43 := cpaOf p ≤ 2 } }

/-- A blanked sample: omitted, or the previous sample repeated (R422). -/
def produceBlanked (s : State) (n : Fin 24) (p : BitVec 8) (t : Tick) : State :=
  let g := (s.chan n).prev
  if blankMode p == some true then
    produce s n t g.value (tagByte g.path false true (g.ne43 || inputAlarm s p (s.chan n)) false false false)
  else produce s n t 0x800000 (tagByte 0 false true (inputAlarm s p (s.chan n)) false false false)

/-- An input channel takes a conversion: the combiner ranges and fades, and one sample is output (R408, R413, R426). With
look-ahead on the sample output is the oldest of the buffer, 4 samples before the entering one. -/
def inputSample (s : State) (n : Fin 24) (p : BitVec 8) (obs : SampleObs) : State :=
  let la := lookAhead p
  let fs := coarseFs p
  let enter := obs.conv
  let old := (s.chan n).buffer
  let full := !la || old.length == 4
  let present := if la then (match old with
    | k :: _ => if full then k else { enter with instant := enter.instant - BitVec.ofNat 64 (4 * periodOf p) }
    | [] => { enter with instant := enter.instant - BitVec.ofNat 64 (4 * periodOf p) }) else enter
  let t := present.instant
  let s := s.onChan n fun c => { c with lastInstant := some enter.instant, buffer := if la then (if full then old.drop 1 else old) ++ [enter] else [] }
  let c := s.chan n
  let off := capped c || c.restrap || !c.switches || halted s 6
  let held := blanked s n t
  let frozen := held || blanked s n enter.instant
  let low := if la then full && (old ++ [enter]).all fun k => convLow k fs
    else 4 ≤ (convLow enter fs :: c.low).length && (convLow enter fs :: c.low).all id
  let mv := if frozen || off || !obs.settled then (c.ranging, false) else c.ranging.move la (convTrigger enter fs) low
  let st := mv.1
  let s := if off then s else s.onChan n fun c =>
    { c with ranging := if held then st else st.after, low := if held then c.low else (convLow enter fs :: c.low).take 3 }
  if held then produceBlanked s n p t
  else if off then produceStale s n p t
  else
    let s := pathChecks (sensorChecks s n p obs) n p obs present
    let c := s.chan n
    let st := if c.ranging == .coarseOnly then .coarseOnly else st
    let open_ := c.sensorOpen || c.tcOpen || c.cjFault
    let lost := cpaOf p == 10 && s.supply.cjStale
    if staleAt c t || usedOpen s n || open_ || lost || obs.stepInWindow || !obs.settled || !full || capped c then produceStale s n p t
    else
      let cj := if cpaOf p == 10 then s.supply.cjValue else obs.cj
      produceFresh s n p present st (mv.2 && st != .coarseOnly) cj

/-- The keeper in control drives an alarm code (Table 14.4). -/
def keeperAlarm (c : Chan) : Bool :=
  c.inControl && c.stageOn && (match c.keeper with
    | some k => k.kind != .voltage && k.safe == .alarm
    | none => false)

/-- A stream sample of an output channel (R440, Table 14.4): the mean of the readback results within half a period of the instant. -/
def outputSample (s : State) (n : Fin 24) (p : BitVec 8) (t : Tick) : State :=
  let half := periodOf p / 2
  let s := s.onChan n fun c => { c with lastInstant := some t }
  let c := s.chan n
  let rs := c.readings.filter fun e => t.toNat ≤ e.1.toNat + half && e.1.toNat ≤ t.toNat + half
  let d := s.draw
  let stale := staleAt c t || c.disc.contains true || rs.isEmpty || halted s 6 || capped c
  let v := if stale then c.lastGood.value.toInt else freeRound (rs.map (·.2)).sum rs.length d.1
  let current := cpaOf p != 13
  let alarm := (current && (v ≤ 36000 || 210000 ≤ v)) || c.comp == .compliance || c.compRaised || c.forced || keeperAlarm c
  let dis := c.delBad || c.pathBad || c.forced || c.refFault
  let hold := c.inControl || c.forced || c.comp == .substituted || c.inTrim
  let s := produce d.2 n t (BitVec.ofInt 24 v) (tagByte 0 false false alarm stale dis hold)
  if stale then s else s.onChan n fun c => { c with lastGood := { value := BitVec.ofInt 24 v, path := 0, ne43 := false } }

/-- SAMPLE_READY (R403, R408, R413, R440): in Measure and Full, at a new instant of the channel's grid whose conversion is ready. -/
def execSampleReady (ch : Fin 24) (obs : SampleObs) (s : State) : Out :=
  let c := s.chan ch
  let t := obs.conv.instant.toNat
  let new := match c.lastInstant with
    | some l => l.toNat < t
    | none => true
  match c.profile with
  | none => .next s
  | some p =>
    let cj := isCjRef s ch
    let period := if cj then 300000000 else periodOf p
    let span := if isOutput p then period else if period ≤ 2500000 then 2 * period else period / 2 * 3
    .next <| whenDue (Tier.measure.rank ≤ s.tiers.tier.rank && (isInput p || isOutput p || cj) && new
        && t % period == c.grid.getD 0 && t + span + 3000 ≤ s.clock.counter.toNat) (fun s =>
      if cj then (if halted s 6 || (s.chan ch).rekindle.isSome then s else cjReference s ch obs)
      else if isOutput p then outputSample s ch p obs.conv.instant
      else inputSample s ch p obs) s

end Sys2Proof.Machine
end

