-- ==== Sys2Proof/Machine/Outputs.lean ====
section
/-! DEFINITION. Readback, compliance, readback disagreement and the steps of the trim (14_loop_output.md). -/

namespace Sys2Proof.Machine

/-! ## Readback (R439 to R448) -/

/-- Thresholds of an output kind in OUT.SET units: of disagreement (24 uA, 10 mV) and of shortfall (50 uA, 5 mV). -/
def disThr (current : Bool) : Int := if current then 240 else 1000
def shortThr : Int := 500

/-- The stage is powered: sinking outputs from VAN alone, the others from VFP and VFN (R396, Table 12.7). -/
def stagePowered (s : State) (p : BitVec 8) : Bool := cpaOf p == 12 || (railGood s .vfp && railGood s .vfn)

/-- The checks of R441 run on this channel. -/
def checksRun (s : State) (n : Fin 24) (p : BitVec 8) : Bool :=
  let c := s.chan n
  c.checks && !c.refFault && !c.disc.contains true && stagePowered s p && c.drive != .out

/-- SETTLING_ALLOWANCE_END (R437, R441): the checks begin; what they find holds from the end of the allowance. -/
def execSettlingAllowanceEnd (ch : Fin 24) (s : State) : Out :=
  let c := s.chan ch
  .next <| whenDue (shellRuns s && isOutChan c && !c.checks && !c.disc.contains true && c.settleEnd.toNat ≤ s.clock.age.toNat) (fun s =>
    let e := some c.settleEnd
    let s := s.onSeat fun t => { t with disarmed := t.disarmed.filter fun d => d.1 != ch.val || s.clock.age.toNat < d.2.toNat }
    s.onChan ch fun c => { c with checks := true, shortSince := e, weakSince := e, rangeSince := e, delSince := e, pathSince := e }) s

/-- The tick from which a condition has lasted, as a readback result shows it. -/
def lasting (now : Tick) (cond : Bool) (old : Option Tick) : Option Tick :=
  if cond then some (old.getD now) else none

/-- A condition that holds has lasted `d` ticks. -/
def lasted (s : State) (t : Option Tick) (d : Nat) : Bool :=
  match t with
  | some t => d ≤ since s t
  | none => false

/-- Entering Compliance (R443). -/
def enterCompliance (s : State) (n : Fin 24) (target total : Int) : State :=
  let s := s.onChan n fun c => { c with comp := .compliance, compRaised := true, frozen := true, retarget := false, rangeSince := none }
  raise s 0x0D01 n.val (valueBytes target ++ valueBytes total)

/-- The substitution (R444): the low alarm is driven, by the keeper through its substitute bit while it is in control. -/
def substitute (s : State) (n : Fin 24) (target : Int) : State :=
  let s := raise s 0x0D02 n.val (valueBytes target)
  let s := s.onChan n fun c => { c with comp := .substituted, weakSince := none }
  if (s.chan n).inControl then
    s.onChan n fun c => keeperTakes (trimOf s.vault n) s.clock.age { c with keeper := c.keeper.map fun k => { k with subst := true } }
  else driveShell s n

/-- Compliance clears (R445). -/
def clearCompliance (s : State) (n : Fin 24) (target total : Int) : State :=
  let s := s.onChan n fun c =>
    { c with comp := if c.comp == .compliance then .normal else c.comp, compRaised := false, frozen := false, rangeSince := none }
  clearLatching s 0x0D01 n.val 0 (valueBytes target ++ valueBytes total)

/-- The partner drives this channel and is not itself in Forced alarm (R562). -/
def partnerDrives (s : State) (n : Fin 24) : Bool :=
  s.seat.state == .seated && (match s.seat.partner with
    | some p => (p.carry.toNat.testBit n.val || p.share.toNat.testBit n.val) && !p.falm.toNat.testBit n.val
    | none => false)

/-- A readback disagreement (R447, R448, R562): its event; Forced alarm where the shell drives, or the withdrawal of a seated
twin. -/
def disagree (s : State) (n : Fin 24) (which : Nat) (diff : Int) : State :=
  let s := raise s 0x0D03 n.val (beBytes 1 which ++ valueBytes diff)
  if (s.chan n).inControl then s.onChan n fun c => { c with delSince := none, pathSince := none }
  else
    let s := s.onChan n fun c => { c with forced := true, pending := [], delSince := none, pathSince := none }
    if partnerDrives s n then
      let s := s.onChan n fun c => driveValue (trimOf s.vault n) s.clock.age c.target { c with drive := .out }
      raise s 0x1106 0x22 (beBytes 1 n.val) n.val
    else driveShell s n

/-- The share of the target that the path check compares with (R441, Table 18.3): the carrying chip of a twin is commanded the total
less what its partner delivers. -/
def shareTarget (s : State) (c : Chan) (own total : Int) : Int :=
  match c.drive with
  | .sharing => roundDiv c.target 2
  | _ => if isTwin s then c.target - (total - own) else c.target

/-- The checks of one readback result, in the order compliance, substitution, clearing, disagreement. -/
def readbackChecks (s : State) (n : Fin 24) (p : BitVec 8) (own total : Int) (rb : Readback) : State :=
  let now := s.clock.age
  let c := s.chan n
  let current := cpaOf p != 13
  let t := c.target
  let lim := if current then rb.atLimit else rb.atCurrentLimit
  let gap := if 0 ≤ t then t - total else total - t
  let short := shortThr < gap && lim && c.comp == .normal
  let weak := current && 210000 ≤ t && rb.atLimit && total < 210000 && c.comp != .substituted
  let range := (t - total).natAbs ≤ shortThr && !rb.atLimit && c.compRaised
  let path := own - shareTarget s c own total
  let del : Bool := disThr current < ((total - t).natAbs : Int)
  let pth := current && disThr current < (path.natAbs : Int)
  let judged := !rb.atLimit && !c.forced && !c.inTrim
  let s := s.onChan n fun c =>
    { c with shortSince := lasting now short c.shortSince, weakSince := lasting now weak c.weakSince,
             rangeSince := lasting now range c.rangeSince, delSince := lasting now (del && judged) c.delSince,
             pathSince := lasting now (pth && judged) c.pathSince,
             delBad := del && !c.inTrim, pathBad := pth && !c.inTrim,
             frozen := c.frozen && !(c.retarget && !rb.atLimit) }
  let c := s.chan n
  let s := if short && lasted s c.shortSince 6000000 then enterCompliance s n t total else s
  let s := if weak && lasted s c.weakSince 6000000 then substitute s n t else s
  let s := if range && lasted s c.rangeSince 150000000 then clearCompliance s n t total else s
  if del && judged && lasted s c.delSince 15000000 then disagree s n 0 (total - t)
  else if pth && judged && lasted s c.pathSince 15000000 then disagree s n 1 path
  else s

/-- READBACK_RESULT (R439, R441 to R448): one result of an output channel while the shell runs. -/
def execReadbackResult (ch : Fin 24) (rb : Readback) (s : State) : Out :=
  let c := s.chan ch
  match c.profile with
  | none => .next s
  | some p =>
    let fresh := match c.readings with
      | e :: _ => e.1.toNat < s.clock.counter.toNat
      | [] => true
    .next <| whenDue (shellRuns s && isOutput p && c.keeper.isSome && fresh && !halted s 6) (fun s =>
      let tr := trimOf s.vault ch
      let own := tr.reading rb.own
      let total := tr.reading (if cpaOf p == 13 then rb.load else rb.total)
      let s := s.onChan ch fun c =>
        { c with readings := ((s.clock.counter, total) :: c.readings).take 90, rbOwn := own, rbTotal := total, atLimit := rb.atLimit }
      let s := handbackTrack s ch own
      if checksRun s ch p then readbackChecks s ch p own total rb
      else s.onChan ch fun c => { c with delBad := false, pathBad := false }) s

/-! ## The two-point trim (R452 to R454) -/

/-- Point k of a trim: 4 mA and 20 mA, or 1 V and 9 V. -/
def trimPoint (voltage : Bool) (k : Nat) : Int :=
  if voltage then (if k == 1 then 100000 else 900000) else (if k == 1 then 40000 else 200000)

/-- Drive a point: the trim drives the channel. -/
def drivePoint (s : State) (n : Fin 24) (v : Int) : State :=
  s.onChan n fun c => driveValue (trimOf s.vault n) s.clock.age v { c with inTrim := true, bankShell := false }

/-- The channel is a voltage output. -/
def isVoltage (c : Chan) : Bool :=
  match c.profile with
  | some p => cpaOf p == 13
  | none => false

/-- The live trim of a channel. -/
def trimOn (s : State) (n : Fin 24) : Option Op :=
  s.engine.ops.find? fun o => o.opcode == 0x0D01 && o.object == .chan n && o.state.live

/-- OUT.SET is refused with "channel in trim": from Start to the end (Table 14.7, R505). -/
def inTrimStep (s : State) (n : Fin 24) : Bool :=
  match trimOn s n with
  | some o => opStarted o
  | none => false

/-- A correction composed from two pairs (R453): gain in 2^-30 and offset. The rounding of the record is free. -/
def correction (m1 m2 a1 a2 g o : Int) (r : BitVec 64) : Option (Int × Int) :=
  let d := a2 - a1
  if d == 0 then none
  else
    let sg : Int := if d < 0 then -1 else 1
    some (freeRound (sg * (m2 - m1) * g) d.natAbs r, freeRound (sg * (m1 * d - (m2 - m1) * a1 + (m2 - m1) * o)) d.natAbs (r >>> 1))

/-- The limits of R454 on a gain and an offset. -/
def correctionOk (voltage : Bool) (g o : Int) : Bool :=
  ((g - 2 ^ 30).natAbs : Int) * 50 ≤ 2 ^ 30 && o.natAbs ≤ (if voltage then 1000 else 2000)

/-- The levels of Table 14.6 lie in their ranges. -/
def levelsOk (low high : Int) : Bool := 35000 ≤ low && low ≤ 36000 && 210000 ≤ high && high ≤ 228000

/-- The levels a TRIM.START asks for: 0 keeps the present level. -/
def trimLevels (t : Trim) (low high : Int) : Int × Int := (if low == 0 then t.low else low, if high == 0 then t.high else high)

/-- A trim is suspended at a wait (R505): at a Measure step the channel drives the value applied before Start. -/
def suspendTrim (s : State) (handle : Nat) (n : Fin 24) : State :=
  match opOf s handle with
  | none => s
  | some o =>
    let s := opEnter s handle .suspended 0x04
    if o.progress == 3 || o.progress == 5 then trimEnd s n o.before else s

/-- A trim has reached a wait: a suspension that is pending acts here (Table 16.3). -/
def trimWaits (s : State) (handle : Nat) (n : Fin 24) : State :=
  match opOf s handle with
  | some o => if o.suspendPending then suspendTrim s handle n else s
  | none => s

/-- Compute (R453, R454): the new record waits for TRIM.COMMIT, or the operation fails with "trim limit". `low` and `high` are the new
levels. -/
def trimCompute (s : State) (o : Op) (n : Fin 24) (two : Bool) (low high : Int) : State :=
  let t := trimOf s.vault n
  let v := isVoltage (s.chan n)
  let d := s.draw
  let s := d.2
  let lv := trimLevels t low high
  let new :=
    if two then
      match correction o.m1 o.m2 (trimPoint v 1) (trimPoint v 2) t.g t.o d.1, correction o.m1 o.m2 o.r1 o.r2 t.h t.p (d.1 >>> 2) with
      | some a, some b =>
        if correctionOk v a.1 a.2 && correctionOk v b.1 b.2 then some [a.1, b.1, a.2, b.2, lv.1, lv.2] else none
      | _, _ => none
    else some [t.g, t.h, t.o, t.p, lv.1, lv.2]
  match new with
  | some l =>
    if v || levelsOk lv.1 lv.2 then
      let s := onOp s o.handle.toNat fun x => { x with trim := l, progress := 7, reason := 3, since := s.clock.age, timing := true }
      trimWaits s o.handle.toNat n
    else opRollback s o .failed 0x22
  | none => opRollback s o .failed 0x22

/-- TRIM_POINT_READY (R452): the settling allowance and 64 readback results after a point is driven. -/
def execTrimPointReady (ch : Fin 24) (r : Int) (s : State) : Out :=
  match trimOn s ch with
  | none => .next s
  | some o =>
    .next <| whenDue (o.state == .running && (o.progress == 2 || o.progress == 4) && !halted s 3
        && (s.chan ch).settleEnd.toNat + 4000000 ≤ s.clock.age.toNat) (fun s =>
      let v := (trimOf s.vault ch).reading r
      let pt := if o.progress == 2 then 1 else 2
      let s := onOp s o.handle.toNat fun x =>
        { x with r1 := if pt == 1 then v else x.r1, r2 := if pt == 2 then v else x.r2, progress := x.progress + 1, reason := 3,
                 since := s.clock.age, timing := true }
      let s := raise s 0x0D05 ch.val (beBytes 2 o.handle.toNat ++ beBytes 1 pt ++ valueBytes v) 0 (some o.hand.val)
      trimWaits s o.handle.toNat ch) s

/-- TRIM_STEP_TIMEOUT (R452): more than 60 s of waiting for TRIM.POINT or TRIM.COMMIT. -/
def execTrimStepTimeout (handle : BitVec 16) (s : State) : Out :=
  match opOf s handle.toNat with
  | none => .next s
  | some o =>
    .next <| whenDue (o.opcode == 0x0D01 && o.state == .running && o.reason == 3 && o.timing && !halted s 3
        && 180000000000 < since s o.since) (fun s => opRollback s o .failed 0x21) s

/-- TRIM_APPLY (Table 14.7, Commit): from the trick boundary after the commit the new trims drive the channel and its keeper. -/
def execTrimApply (ch : Fin 24) (s : State) : Out :=
  .next <| whenDue (atTrick s && (sparseGet s.vault.trimOld ch.val).isSome) (fun s =>
    let s := s.onVault fun v => { v with trimOld := sparseDel v.trimOld ch.val }
    let t := trimOf s.vault ch
    let s := s.onChan ch fun c =>
      { c with keeper := c.keeper.map fun k =>
          { k with low := t.low, high := t.high, lowCode := t.code t.low, highCode := t.code t.high, zeroCode := t.code 0 } }
    if (s.chan ch).inControl then s.onChan ch fun c => if c.keeper.isSome then keeperTakes t s.clock.age c else c
    else driveShell s ch) s

end Sys2Proof.Machine
end

