-- ==== Sys2Proof/Machine/StreamCommands.lean ====
section
/-! DEFINITION. The commands SUB and OUT (10_queues_and_hands.md R317 to R328, 14_loop_output.md R451). -/

namespace Sys2Proof.Machine

/-! ## SUB.OPEN (R317 to R322) -/

/-- Fields of a SUB.OPEN body (Table 15.6). -/
def soQueue (f : CmdFrame) : Nat := bodyField f 0 2
def soId (f : CmdFrame) : Nat := bodyField f 2 2
def soChmap (f : CmdFrame) : Nat := bodyField f 4 3
def soEgress (f : CmdFrame) : Nat := bodyByte f 7
def soDiv (f : CmdFrame) : Nat := bodyField f 8 2
def soNsamp (f : CmdFrame) : Nat := bodyField f 10 2
def soPhase (f : CmdFrame) : Nat := bodyField f 12 4
def soStart (f : CmdFrame) : Nat := bodyField f 16 8

/-- The channels of a channel map. -/
def mapChansOf (m : Nat) : List (Fin 24) := (List.finRange 24).filter fun c => m.testBit c.val

/-- The open streams of a hand. -/
def handStreams (s : State) (h : Fin 16) : Nat := (s.streams.filter fun x => x.closing.isNone && x.hand == h).length

/-- Check 9 of SUB.OPEN (R319, R481): read permission and the stream quota. -/
def subWard (f : CmdFrame) (s : State) : Option Nat :=
  let e := wardEntry s.vault f.hand.val
  failIf (bodyHas f 6 && ((mapChansOf (soChmap f)).any (fun c => !bit (wardRead e) c.val) || wardQuota e ≤ handStreams s f.hand)) 0x13

/-- Check 10 of SUB.OPEN (Table 10.4). -/
def subBody (f : CmdFrame) (s : State) : Option Nat :=
  let n := (mapChansOf (soChmap f)).length
  firstFail [
    failIf ((cmdBody f).length != 24 || 3 < soEgress f) 0x14,
    failIf (n == 0 || soEgress f == 0 || soDiv f == 0 || soNsamp f == 0 || 1019 / n < soNsamp f || 589823 < soPhase f
      || soPhase f % 250 != 0 || queueHand s (soQueue f) != some f.hand.val
      || (soId f != 0 && queueHand s (soId f) != some f.hand.val)) 0x16]

/-- The sender of a command is an observer of its hand. -/
def fromObserver (s : State) (f : CmdFrame) : Bool := !underWarden f && (s.hand f.hand).master != some f.srcTag

/-- An observer's stream names a port the master has not named (R313). -/
def observerPort (s : State) (f : CmdFrame) : Bool :=
  let r := s.hand f.hand
  fromObserver s f && ((bit (soEgress f) 0 && !r.obsTa) || (bit (soEgress f) 1 && !r.obsTb))

/-- A channel that cannot be streamed: its profile is off, or it is the node's cold-junction reference (R51). -/
def notStreamable (s : State) (c : Fin 24) : Bool :=
  isCjRef s c || (match (s.chan c).profile with
    | some p => cpaOf p == 15
    | none => true)

/-- The channel period of a stream's channels: that of the first (R320). -/
def chanPeriod (s : State) (c : Fin 24) : Nat := ((s.chan c).profile.map periodOf).getD 1

/-- Channel period of a channel map. -/
def mapPeriod (s : State) (m : Nat) : Nat :=
  match mapChansOf m with
  | c :: _ => chanPeriod s c
  | [] => 1

/-- The lowest of the next `n` stream IDs from `q` on whose entry is empty (R318). -/
def lowestFree (s : State) (q : Nat) : Nat → Option Nat
  | 0 => none
  | n + 1 => if seValid (streamEntry s q) then lowestFree s (q + 1) n else some q

/-- The stream ID a SUB.OPEN takes: the one it names while its entry is empty, or the lowest free one. -/
def subId (s : State) (f : CmdFrame) : Option Nat :=
  if soId f != 0 then (if seValid (streamEntry s (soId f)) then none else some (soId f))
  else match planIn s with
    | some p => lowestFree s (planFirst p f.hand.val) ((planQueues p).getD f.hand.val 0)
    | none => none

/-- Check 11 of SUB.OPEN (R313, R319, R321). -/
def subOwn (f : CmdFrame) (s : State) : Option Nat :=
  let cs := mapChansOf (soChmap f)
  let per := mapPeriod s (soChmap f)
  firstFail [
    failIf (observerPort s f) 0x12,
    failIf (cs.any fun c => capped (s.chan c)) 0x20,
    failIf (cs.any (notStreamable s) || (cs.any fun c => chanPeriod s c != per) || 4294967295 < per * soDiv f) 0x16,
    failIf (256 ≤ (s.streams.filter fun x => x.closing.isNone).length || cs.any fun c => 8 ≤ (streamsOn s c.val).length) 0x18,
    failIf (subId s f).isNone 0x28,
    failIf (cs.any fun c => match (s.chan c).grid with
      | some g => soPhase f % per != g
      | none => false) 0x28]

/-- The first instant at or after `m` of a period and phase (R320, R322). -/
def firstInstant (m period phase : Nat) : Nat :=
  let r := (m + period - phase % period) % period
  if r == 0 then m else m + period - r

/-- The `ORIGIN` entry of a stream (R259, R322). -/
def originEntry (h : Fin 16) (egress : Nat) : Entry := entryOf ([BitVec.ofNat 8 (0xC0 + egress), BitVec.ofNat 8 h.val] ++ zeros 14)

/-- SUB.OPEN executed: the grids, the stream, its entry with an epoch inversion. -/
def subRun (f : CmdFrame) (s : State) : Reply × State :=
  match subId s f with
  | none => (.now 0x28 0 [], s)
  | some sid =>
    let per := mapPeriod s (soChmap f)
    let first := BitVec.ofNat 64 (firstInstant (max (soStart f) (s.clock.counter.toNat + trickTicks)) (per * soDiv f) (soPhase f))
    let x : Stream := {
      id := BitVec.ofNat 16 sid, hand := f.hand, queue := BitVec.ofNat 16 (soQueue f), chmap := BitVec.ofNat 24 (soChmap f),
      div := soDiv f, phase := soPhase f, period := per * soDiv f, nsamp := soNsamp f, egTa := bit (soEgress f) 0,
      egTb := bit (soEgress f) 1, first := first, seq := 0, rows := [], closing := none }
    let s := { s with streams := s.streams ++ [x] }
    let s := s.mapChans fun n c =>
      if (soChmap f).testBit n.val && c.grid.isNone then { c with grid := some (soPhase f % per) } else c
    let s := invertEpoch (setStreamEntry s sid (originEntry f.hand (soEgress f))) .subOpen
    (.now 0 0 (beBytes 2 sid ++ zeros 6 ++ beBytes 8 first.toNat), s)

/-- SUB.OPEN. -/
def subOpenCmd : Cmd := { Cmd.plain 0x0501 with ward := subWard, body := subBody, own := subOwn, run := subRun }

/-! ## SUB.CLOSE (R324) -/

/-- SUB.CLOSE. A stream closed before is closed once (R337). -/
def subCloseCmd : Cmd := { Cmd.plain 0x0502 with
  body := fun f _ => firstFail [failIf (bodyMalformed f 2 [0, 1]) 0x14, failIf (bodyField f 0 2 == 0) 0x16]
  own := fun f s => match streamOf s (bodyField f 0 2) with
    | none => some 0x27
    | some x => failIf (x.hand != f.hand) 0x26
  run := fun f s => (.now 0 0 [], freeGrids (closeStream s (bodyField f 0 2))) }

/-! ## OUT.SET (R325 to R328, R436) -/

/-- Value and apply tick of an OUT.SET body. -/
def osValue (f : CmdFrame) : Int := signed 24 (bodyField f 1 3)
def osTick (f : CmdFrame) : Nat := bodyField f 4 8

/-- The channel of a command's first body byte. -/
def chanArg (f : CmdFrame) : Fin 24 := Fin.ofNat 24 (bodyByte f 0)

/-- The profile of an output channel. -/
def outProfile (s : State) (n : Fin 24) : Option (BitVec 8) :=
  match (s.chan n).profile with
  | some p => if isOutput p then some p else none
  | none => none

/-- The ownership check of a command that names a channel in its first body byte (R481). -/
def chanWard (input : Bool) (f : CmdFrame) (s : State) : Option Nat :=
  match bodyChan f 0 with
  | some c => checkChan s f c input
  | none => none

/-- The tick a value applies at: that of acceptance where A is zero or not after it (R325, R328). -/
def osApply (s : State) (f : CmdFrame) : Tick :=
  if osTick f ≤ s.clock.counter.toNat then s.clock.counter else BitVec.ofNat 64 (osTick f)

/-- The OUT.SET is late: its A is not zero and not after its acceptance (R328). -/
def osLate (s : State) (f : CmdFrame) : Bool := osTick f != 0 && osTick f ≤ s.clock.counter.toNat

/-- Two ticks lie less than an output period apart (R326). -/
def closeTo (p : BitVec 8) (a b : Tick) : Bool := (max a.toNat b.toNat) - (min a.toNat b.toNat) < periodOf p

/-- Check 10 of OUT.SET. -/
def outSetBody (f : CmdFrame) (s : State) : Option Nat :=
  firstFail [
    failIf ((cmdBody f).length != 12) 0x14,
    failIf (24 ≤ bodyByte f 0 || s.clock.counter.toNat + 2 ^ 32 < osTick f) 0x16,
    match (s.chan (chanArg f)).profile with
    | some p => failIf (!isOutput p || osValue f < (outRange p).1 || (outRange p).2 < osValue f) 0x16
    | none => none]

/-- Check 11 of OUT.SET (R23, R326, R447, R452, R568). -/
def outSetOwn (f : CmdFrame) (s : State) : Option Nat :=
  let n := chanArg f
  let c := s.chan n
  let a := osApply s f
  let others := c.pending.filter fun p => p.at_ != a
  firstFail [
    failIf (capped c) 0x20,
    failIf (s.seat.state == .released) 0x28,
    failIf c.forced 0x1E,
    failIf (inTrimStep s n) 0x1F,
    match c.profile with
    | some p => failIf ((others.any fun x => closeTo p x.at_ a)
        || (match c.lastApply with | some t => closeTo p t a | none => false)) 0x1C
    | none => some 0x16,
    failIf (a != s.clock.counter && others.length == c.pending.length && 4 ≤ c.pending.length) 0x1D]

/-- A value joins the pending list, or applies now. -/
def outTake (s : State) (n : Fin 24) (p : PendOut) : State :=
  if p.at_ == s.clock.counter then
    applyOut (s.onChan n fun c => { c with pending := c.pending.filter fun x => x.at_ != p.at_ }) n p.value p.at_
  else s.onChan n fun c => { c with pending := insertPending p c.pending }

/-- OUT.SET. -/
def outSetCmd : Cmd := { Cmd.plain 0x0601 with
  ward := chanWard false
  body := outSetBody
  own := outSetOwn
  run := fun f s =>
    let n := chanArg f
    let p : PendOut := { value := osValue f, at_ := osApply s f, accepted := s.clock.counter, hand := f.hand }
    let late := osLate s f
    let by_ := if late then min (s.clock.counter.toNat - osTick f) 0xFFFFFFFF else 0
    (.now 0 (b2n late) (beBytes 8 p.at_.toNat ++ beBytes 4 by_), mirrorMsg (outTake s n p) 0x01 (outValBody n p)) }

/-! ## OUT.ALARMDIR (R388, R451) -/

/-- The override of an `AD_DIR` value. -/
def adDir (v : Nat) : Option Bool :=
  match v with
  | 1 => some false
  | 2 => some true
  | _ => none

/-- OUT.ALARMDIR: in force at the next keeper refresh. -/
def outAlarmdirCmd : Cmd := { Cmd.plain 0x0602 with
  ward := fun f s => firstFail [chanWard false f s, failIf (!bit (wardPerm (wardEntry s.vault f.hand.val)) 0) 0x13]
  body := fun f s => firstFail [
    failIf ((cmdBody f).length != 2 || 3 < bodyByte f 1) 0x14,
    failIf (24 ≤ bodyByte f 0 || bodyByte f 1 == 3 || !isCurrent (s.chan (chanArg f))) 0x16]
  own := fun _ s => failIf (s.seat.state == .released) 0x28
  run := fun f s =>
    let s := s.onChan (chanArg f) fun c => { c with overrideNext := some (adDir (bodyByte f 1)) }
    (.now 0 0 [], mirrorMsg s 0x03 [BitVec.ofNat 8 (bodyByte f 0), BitVec.ofNat 8 (bodyByte f 1)]) }

/-! ## The rows -/

/-- SUB_OPEN (R317 to R322). -/
def execSubOpen (f : CmdFrame) (s : State) : Out := .next (runCommand subOpenCmd f s)
/-- SUB_CLOSE (R324). -/
def execSubClose (f : CmdFrame) (s : State) : Out := .next (runCommand subCloseCmd f s)
/-- OUT_SET (R325 to R328). -/
def execOutSet (f : CmdFrame) (s : State) : Out := .next (runCommand outSetCmd f s)
/-- OUT_ALARMDIR (R451). -/
def execOutAlarmdir (f : CmdFrame) (s : State) : Out := .next (runCommand outAlarmdirCmd f s)

end Sys2Proof.Machine
end

