-- ==== Sys2Proof/Machine/ChipCommands.lean ====
section
/-! DEFINITION. The commands CH, NODE, PORT, PIPE and PHY (15_command_set.md, Table 15.6). -/

namespace Sys2Proof.Machine

/-! ## Parts the commands share -/

/-- A write of the record now, behind those already asked for, would exceed its limit (R516, Table 17.1). -/
def vaultFull (s : State) (k : VKey) : Bool :=
  let n := match s.vault.find k with
    | some r => r.writes
    | none => 0
  vaultLimit k ≤ n + (s.vault.pulses.filter fun p => p.key == k).length

/-- Ask for a programme pulse; the command's hand waits for its final response (R518). -/
def startWrite (s : State) (f : CmdFrame) (k : VKey) (data : List Byte) (why : PulseFor) : State :=
  (s.onVault fun v => { v with pulses := v.pulses ++ [{ key := k, data := data, why := why }] }).onEngine fun e =>
    { e with writing := e.writing ++ [f.hand] }

/-- A short countersigned write at its execution: the energy check, then the pulse (R78, R518). -/
def writeRun (k : VKey) (data : CmdFrame → State → List Byte) (f : CmdFrame) (s : State) : Reply × State :=
  match shortEnergy s with
  | some c => (.now c 0 [], s)
  | none => (.later, startWrite s f k (data f s) (.final f))

/-- Every such command needs a countersign. -/
def always (_ : CmdFrame) (_ : State) : Bool := true

/-! ## CH (R55 to R62, R142) -/

/-- One channel byte, 0 to 23. -/
def chanBody (f : CmdFrame) (_ : State) : Option Nat :=
  firstFail [failIf (bodyMalformed f 1 [0]) 0x14, failIf (24 ≤ bodyByte f 0) 0x16]

/-- A live mirror of this chip. -/
def mirrorLive (s : State) : Bool := s.engine.ops.any fun o => o.opcode == 0x1001 && o.state.live

/-- CH.RESTRAP's conditions (R580, R589, Table 19.3), and the vault's limit. -/
def restrapOwn (f : CmdFrame) (s : State) : Option Nat :=
  firstFail [failIf (isTwin s && (s.seat.state == .seated || s.seat.state == .unpaired)) 0x28,
             failIf ((trimOn s (chanArg f)).isSome || mirrorLive s) 0x28,
             failIf (vaultFull s .protection) 0x22]

/-- A re-read that runs does not refuse another one: it is held (R61). Otherwise as `shortEnergy`. -/
def restrapEnergy (s : State) : Option Nat :=
  if !energyOk s 15 then some 0x17
  else if ungated s && (!s.vault.pulses.isEmpty || s.engine.ops.any fun o => o.state == .running && o.committing) then some 0x18
  else none

/-- A re-read at its execution; the final response follows the digest's write (R60, R518). -/
def restrapRun (f : CmdFrame) (s : State) : Reply × State :=
  match restrapEnergy s with
  | some c => (.now c 0 [], s)
  | none => (.later, requestReread (s.onEngine fun e => { e with writing := e.writing ++ [f.hand] }) f)

/-- CH.RESTRAP. -/
def chRestrapCmd : Cmd := { Cmd.plain 0x0801 with cs := always, ward := chanWard true, body := chanBody, own := restrapOwn, run := restrapRun }

/-- A CH.RESTRAP of the channel reads, waits, or has not taken effect (R146). -/
def underRestrap (s : State) (n : Fin 24) : Bool :=
  (s.straps.reread.toList.map (·.f) ++ s.straps.rereadQueue).any fun f => restrapChan f == some n

/-- CH.REKINDLE: a second one completes with the first (R145); one under CH.RESTRAP is held (R146), as is
one while the back ends are halted (R632). -/
def chRekindleCmd : Cmd := { Cmd.plain 0x0802 with
  ward := chanWard true
  body := chanBody
  run := fun f s =>
    let n := chanArg f
    (.now 0 0 [],
      if (s.chan n).rekindle.isSome then s
      else if underRestrap s n || halted s 6 then s.onChan n fun c => { c with rekindleHeld := true }
      else startRekindle s n) }

/-! ## NODE (R58, R137, R534, R535) -/

/-- NODE.RESET. The reset follows the response (NODE_RESET_APPLY). -/
def nodeResetCmd : Cmd := { Cmd.plain 0x0901 with run := fun _ s => (.now 0 0 [], s.onEngine fun e => { e with nodeReset := true }) }

/-- NODE.RESTRAP. -/
def nodeRestrapCmd : Cmd := { Cmd.plain 0x0902 with
  cs := always
  body := fun f _ => firstFail [failIf (bodyMalformed f 1 [0]) 0x14, failIf (bodyByte f 0 == 0 || 0x0D < bodyByte f 0) 0x16]
  own := fun f s => firstFail [failIf (9 ≤ bodyByte f 0) 0x29, failIf (vaultFull s .protection) 0x22]
  run := restrapRun }

/-- The protection record NODE.ADOPT writes (R535). -/
def adoptData (_ : CmdFrame) (s : State) : List Byte :=
  protectionBytes true s.straps.digest (if isTwin s then s.seat.partner.map (·.die) else none)

/-- NODE.ADOPT. -/
def nodeAdoptCmd : Cmd := { Cmd.plain 0x0903 with
  cs := always
  body := fun f s => firstFail [failIf ((cmdBody f).length != 16) 0x14, failIf (bodyField f 0 8 != s.dieId.toNat) 0x16]
  own := fun f s =>
    firstFail [failIf (bodyField f 8 8 != s.straps.digest.toNat || (isTwin s && (!s.seat.locked || !s.seat.mirrored))) 0x28,
               failIf (vaultFull s .protection) 0x22]
  run := writeRun .protection adoptData }

/-! ## PORT and PIPE (R140, R141, R145) -/

/-- One port or pipeline byte. -/
def portBody (f : CmdFrame) (_ : State) : Option Nat :=
  firstFail [failIf (bodyMalformed f 1 [0]) 0x14, failIf (1 < bodyByte f 0) 0x16]

/-- The port a body names. -/
def portArg (f : CmdFrame) : Port := portOf (bodyByte f 0)

/-- A port reset is accepted: its operations are cancelled at once, a sounding ends with ABORT 0x04 (R509). -/
def portResetTake (s : State) (p : Port) : State :=
  let s := endOps s (fun o => o.object == .port p) .cancelled 0x11
  (abortSounding s p 4).onPort p fun q => { q with resetDue := true }

/-- PORT.RESET. -/
def portResetCmd : Cmd := { Cmd.plain 0x0A01 with
  body := portBody
  run := fun f s =>
    let q := s.port (portArg f)
    (.now 0 0 [], if q.resetDue || q.quietUntil.isSome then s else portResetTake s (portArg f)) }

/-- PIPE.RESET. -/
def pipeResetCmd : Cmd := { Cmd.plain 0x0B01 with
  body := portBody
  run := fun f s =>
    (.now 0 0 [],
      if (s.pipe (portArg f)).resetting != 0 then s
      else
        let s := endOps s (fun o => o.object == .pipe (portArg f)) .cancelled 0x11
        s.onPipe (portArg f) fun q => { q with resetting := 1 }) }

/-! ## PHY (R177, R180, R185, R186, R190) -/

/-- A created operation's response: 0x01 with the handle (R474). -/
def created (r : BitVec 16 × State) : Reply × State := (.now 1 0 (beBytes 2 r.1.toNat), r.2)

/-- A sounding that runs already is joined: the operation is Running, and holds no port (R190). -/
def joinSounding (s : State) (handle : Nat) : State :=
  opEnter (onOp s handle fun o => { o with progress := 1, gated := false }) handle .running 0

/-- PHY.SOUND. -/
def phySoundCmd : Cmd := { Cmd.plain 0x0C01 with
  body := portBody
  own := fun f s => opLimit s f.hand
  run := fun f s =>
    let r := createOp s f (.port (portArg f)) true
    if isSounding (s.port (portArg f)) then created (r.1, joinSounding r.2 r.1.toNat) else created r }

/-- PHY.MARGIN: a full TABLE from the latest SNR follows on an Up link (R183). -/
def phyMarginCmd : Cmd := { Cmd.plain 0x0C02 with
  body := fun f _ =>
    firstFail [failIf (bodyMalformed f 2 [0, 1] || 4 ≤ bodyByte f 1) 0x14, failIf (1 < bodyByte f 0 || bodyByte f 1 == 3) 0x16]
  run := fun f s =>
    let p := portArg f
    (.now 0 0 [], marginTable (s.onPort p fun q => { q with margin := BitVec.ofNat 2 (bodyByte f 1), marginDue := true }) p) }

/-- The gain byte of a bin in a mask block. -/
def maskGain (b : List Byte) (bin : Nat) : Nat := byteAt b (128 + bin - 6)

/-- Cosines of 2 pi j / 1024 times 2^60 for j from 0 on, by the recurrence of equal steps. -/
def cosTable : Nat → Int → Int → List Int
  | 0, _, _ => []
  | n + 1, a, b => a :: cosTable n b ((2 * 1152899801185339687 * b + 2 ^ 59) / 2 ^ 60 - a)

/-- The cosines of one turn, in 1,024 steps. -/
def cosines : List Int := cosTable 1024 (2 ^ 60) 1152899801185339687

/-- The squared magnitude of the response of 64 taps at a bin, in 2^-150: 1,024 bins lie on one turn. -/
def firPower (cs : Array Int) (taps : List Int) (bin : Nat) : Int :=
  let at_ := fun (j : Nat) => cs.getD (j % 1024) 0
  let r := taps.foldl (fun (a : Int × Int × Nat) h =>
    (a.1 + h * at_ (bin * a.2.2), a.2.1 + h * at_ (bin * a.2.2 + 768), a.2.2 + 1)) (0, 0, 0)
  r.1 * r.1 + r.2.1 * r.2.1

/-- The FIR's response exceeds +0.5 dB at a usable bin (R185): its square exceeds 10^0.05. -/
def firTooHigh (b : List Byte) : Bool :=
  let taps := (List.range 64).map fun i => signed 16 (fieldAt b (2 * i) 2)
  let cs := cosines.toArray
  (List.range 486).any fun i => 11220184543019633 * 2 ^ 150 < firPower cs taps (i + 6) * 10 ^ 16

/-- A mask block that R185 refuses. -/
def maskRefused (b : List Byte) : Bool :=
  let g16 := maskGain b 16
  (List.range 486).any (fun i => 60 < byteAt b (128 + i))
  || (dataBins.take 232).any (fun k => 6 < max (maskGain b k) g16 - min (maskGain b k) g16)
  || 7 < ((List.range 486).filter fun i => isPilot (i + 6) && 12 < maskGain b (i + 6)).length
  || firTooHigh b

/-- PHY.MASK. -/
def phyMaskCmd : Cmd := { Cmd.plain 0x0C03 with
  cs := always
  body := fun f _ => firstFail [failIf ((cmdBody f).length != 614) 0x14, failIf (maskRefused (cmdBody f)) 0x16]
  own := fun _ s => failIf (vaultFull s .mask) 0x22
  run := writeRun .mask fun f _ => cmdBody f }

/-- The SNR of bins 6 to 491 (R186); a pilot is not a data carrier and reads as not measured. -/
def snrBytes (q : PortState) : List Byte :=
  ((List.range 486).foldl (fun (a : List Byte × List Nat) i =>
    if isPilot (i + 6) then (255 :: a.1, a.2) else (BitVec.ofNat 8 (a.2.headD 255) :: a.1, a.2.tail)) ([], q.snr)).1.reverse

/-- PHY.SNR. -/
def phySnrCmd : Cmd := { Cmd.plain 0x0C04 with body := portBody, run := fun f s => (.now 0 0 (snrBytes (s.port (portArg f))), s) }

/-! ## The rows -/

/-- CH_RESTRAP (R55 to R61, R580, R589). -/
def execChRestrap (f : CmdFrame) (s : State) : Out := .next (runCommand chRestrapCmd f s)
/-- CH_REKINDLE (R142, R145, R146). -/
def execChRekindle (f : CmdFrame) (s : State) : Out := .next (runCommand chRekindleCmd f s)
/-- NODE_RESET (R137). -/
def execNodeReset (f : CmdFrame) (s : State) : Out := .next (runCommand nodeResetCmd f s)
/-- NODE_RESTRAP (R58). -/
def execNodeRestrap (f : CmdFrame) (s : State) : Out := .next (runCommand nodeRestrapCmd f s)
/-- NODE_ADOPT (R534, R535). -/
def execNodeAdopt (f : CmdFrame) (s : State) : Out := .next (runCommand nodeAdoptCmd f s)
/-- PORT_RESET (R140, R145, R509). -/
def execPortReset (f : CmdFrame) (s : State) : Out := .next (runCommand portResetCmd f s)
/-- PIPE_RESET (R141, R145). -/
def execPipeReset (f : CmdFrame) (s : State) : Out := .next (runCommand pipeResetCmd f s)
/-- PHY_SOUND (R180, R190). -/
def execPhySound (f : CmdFrame) (s : State) : Out := .next (runCommand phySoundCmd f s)
/-- PHY_MARGIN (R177, R183). -/
def execPhyMargin (f : CmdFrame) (s : State) : Out := .next (runCommand phyMarginCmd f s)
/-- PHY_MASK (R185, R518). -/
def execPhyMask (f : CmdFrame) (s : State) : Out := .next (runCommand phyMaskCmd f s)
/-- PHY_SNR (R186). -/
def execPhySnr (f : CmdFrame) (s : State) : Out := .next (runCommand phySnrCmd f s)

end Sys2Proof.Machine
end

