-- ==== Sys2Proof/Machine/DebugPort.lean ====
section
/-! DEFINITION. The debug port (21_debug_port.md): the TAP and its boundary register, halts and steps, breakpoints, memory access. -/

namespace Sys2Proof.Machine

/-! ## The TAP (R611 to R616) -/

/-- The port works (R611): VIO good and the PLL locked to the crystal, not in ember. -/
def tapWorks (s : State) : Bool := s.supply.good.contains .vio && s.supply.pll && s.supply.kindle != .ember

/-- The identification code of stepping C0 (R614). -/
def idcode : BitVec 32 := 0x26024347

/-- The register field of bits `lo + n - 1` to `lo`. -/
def regField {w : Nat} (r : BitVec w) (lo n : Nat) : Nat := r.toNat / 2 ^ lo % 2 ^ n

/-- The boundary register drives or holds the covered balls (R616): EXTEST or CLAMP, while RST_N is low. -/
def scanDrives (s : State) : Bool := tapWorks s && !s.supply.rstN && (s.dbg.ir == 0x00 || s.dbg.ir == 0x03)

/-- HIGHZ releases the covered outputs (R616). -/
def scanFloats (s : State) : Bool := tapWorks s && !s.supply.rstN && s.dbg.ir == 0x04

/-- A covered output as the port leaves it: `none` under the chip's own control, `some none` released, else its level. The cells of
FLUE_LIM are 11 and 12, of HEARTH_CHG 13 and 14, of BYP_HOLD 15 and 16, data then enable (Table 21.3). FLUE_EN has no such cell. -/
def scanBall (s : State) (cell : Nat) : Option (Option Bool) :=
  let b := s.dbg.boundary.toNat
  if scanDrives s then some (if b.testBit (cell + 1) then some (b.testBit cell) else none)
  else if scanFloats s then some none
  else none

/-- TAP_RESET (R611): Test-Logic-Reset loads IDCODE; it neither ends a session nor resumes a unit. -/
def execTapReset (s : State) : Out := .next <| whenDue (tapWorks s) (fun s => s.onDebug fun d => { d with ir := 0x02 }) s

/-- EXTEST (R615, R616): the ball states are captured and the boundary register updated. -/
def execExtest (balls drive : BitVec 17) (s : State) : Out :=
  .next <| whenDue (tapWorks s) (fun s => s.onDebug fun d => { d with ir := 0x00, dr := balls.setWidth 168, boundary := drive }) s

/-- SAMPLE_PRELOAD (R615, R616): the ball states are captured and the boundary register preloaded. -/
def execSamplePreload (balls preload : BitVec 17) (s : State) : Out :=
  .next <| whenDue (tapWorks s) (fun s => s.onDebug fun d => { d with ir := 0x01, dr := balls.setWidth 168, boundary := preload }) s

/-- CLAMP (R616): the boundary register holds the balls; the bypass register is selected. -/
def execClamp (s : State) : Out := .next <| whenDue (tapWorks s) (fun s => s.onDebug fun d => { d with ir := 0x03, dr := 0 }) s

/-- HIGHZ (R616): the covered outputs are released; the bypass register is selected. -/
def execHighz (s : State) : Out := .next <| whenDue (tapWorks s) (fun s => s.onDebug fun d => { d with ir := 0x04, dr := 0 }) s

/-! ## Status (R627) -/

/-- `DO_ALLOW`, or zero. -/
def doAllow (s : State) : BitVec 16 :=
  match s.dbg.session with
  | some x => x.1
  | none => 0

/-- DSTATUS (Table 21.10). -/
def dstatus (s : State) : BitVec 64 :=
  let d := s.dbg
  BitVec.ofNat 64 (d.halted.toNat * 2 ^ 48 + (doAllow s).toNat * 2 ^ 32 + d.bphit.toNat * 2 ^ 24 + s.tiers.tier.rank * 2 ^ 21
    + b2n d.session.isSome * 2 ^ 20 + b2n s.straps.dbgEn * 2 ^ 19 + b2n d.step.isSome * 2 ^ 18 + d.result.toNat * 2 ^ 16
    + min s.supply.attempts 3 * 2 ^ 14 + haltCode s.supply.haltReason * 2 ^ 8 + tierCap s)

/-- Report in `DS_RESULT`. -/
def dsResult (s : State) (r : Nat) : State := s.onDebug fun d => { d with result := BitVec.ofNat 2 r }

/-! ## Halting and resuming (R619 to R622) -/

/-- The units of a `DC_MASK`, in bit order. -/
def unitsOf (m : BitVec 16) : List Nat := (List.range 7).filter fun u => m.toNat.testBit u

/-- The units halt, with a halted event where any of them ran (R620, R621, R628, R629). The back ends' samples are stale from here
(Table 21.6). -/
def haltUnits (s : State) (m : BitVec 16) (cause : Nat) : State :=
  let new := m &&& ~~~ s.dbg.halted
  if new == 0 then s
  else
    let tier := s.tiers.tier
    let s := s.onDebug fun d =>
      { d with halted := d.halted ||| new,
               haltedAt := d.haltedAt ++ (unitsOf new).map fun u => (u, s.clock.counter, s.clock.age),
               haltTier := if d.halted == 0 then tier else d.haltTier }
    let s := if new.toNat.testBit 6 then s.each (List.finRange 24) fun n s => staleBegin s n 4 else s
    raise s 0x1202 0x80 (beBytes 2 s.dbg.halted.toNat ++ beBytes 1 cause)

/-- The counter value and the age-clock tick at which a unit halted. -/
def haltedSince (s : State) (unit : Nat) : Tick × Tick :=
  match s.dbg.haltedAt.find? fun e => e.1 == unit with
  | some e => e.2
  | none => (s.clock.counter, s.clock.age)

/-- A stream's rows when the queue manager resumes: the instants of each frame whose last instant falls in the halt are not queued
(Table 21.6). -/
def rowsAfterHalt (x : Stream) (t : Tick) : Nat → List (Tick × List (Nat × Sample)) → List (Tick × List (Nat × Sample))
  | 0, rows => rows
  | fuel + 1, rows =>
    match frameRows { x with rows := rows } with
    | none => rows
    | some n =>
      let a := rows.take n
      let late : Bool := match a.getLast? with
        | some r => t.toNat ≤ r.1.toNat
        | none => true
      (if late then [] else a) ++ rowsAfterHalt x t fuel (rows.drop n)

/-- The queue manager runs again. -/
def queuesResume (s : State) : State :=
  let t := (haltedSince s 2).1
  { s with streams := s.streams.map fun x => { x with rows := rowsAfterHalt x t x.rows.length x.rows } }

/-- The command engine runs again: the 60 s limits go on where they paused. -/
def engineResume (s : State) : State :=
  let d := s.clock.age - (haltedSince s 3).2
  s.onEngine fun e => { e with ops := e.ops.map fun o => if o.timing && o.state.live then { o with since := o.since + d } else o }

/-- A channel's back end runs again: the latest pending OUT.SET whose A has passed is applied, the earlier ones are discarded, and a
held re-kindle starts (Table 21.6, R632). -/
def backEndResume (n : Fin 24) (s : State) : State :=
  let s := staleEnd s n 4
  let due := fun (p : PendOut) => p.at_.toNat ≤ s.clock.counter.toNat
  let s := match ((s.chan n).pending.filter due).getLast? with
    | none => s
    | some p => applyOut (s.onChan n fun c => { c with pending := c.pending.filter fun p => !due p }) n p.value p.at_
  if (s.chan n).rekindleHeld && !underRestrap s n then startRekindle s n else s

/-- The units of a mask that are halted run again. -/
def runUnits (s : State) (m : BitVec 16) : State :=
  let on := m &&& s.dbg.halted
  let s := if on.toNat.testBit 2 then queuesResume s else s
  let s := if on.toNat.testBit 3 then engineResume s else s
  let s := s.onDebug fun d => { d with halted := d.halted &&& ~~~ on, haltedAt := d.haltedAt.filter fun e => !on.toNat.testBit e.1 }
  if on.toNat.testBit 6 then s.each (List.finRange 24) backEndResume else s

/-- The units resume, with a resumed event where any of them was halted (R621, R628). -/
def resumeUnits (s : State) (m : BitVec 16) : State :=
  let on := m &&& s.dbg.halted
  if on == 0 then s
  else
    let longest := (unitsOf on).foldl (fun a u => max a (since s (haltedSince s u).2)) 0
    raise (runUnits s on) 0x1203 0x80 (beBytes 2 on.toNat ++ beBytes 8 longest)

/-- One tick of a debug step that counts ticks or symbol boundaries. -/
def stepTick (s : State) : State :=
  match s.dbg.step with
  | some (m, k, n + 1) => if k == 0 || (k == 1 && atSymbol s) then s.onDebug fun d => { d with step := some (m, k, n) } else s
  | _ => s

/-- A resume or close that waits takes effect (R621): a DCTRL close ends the session here. -/
def resumeDue (s : State) : State :=
  match s.dbg.resumeNext with
  | none => s
  | some (m, none) => resumeUnits (s.onDebug fun d => { d with resumeNext := none }) m
  | some (_, some c) =>
    let s := (closeSession s c.toNat).onDebug fun d => { d with resumeNext := none }
    resumeUnits s s.dbg.halted

/-- A DCTRL halt that waits takes effect (R621). -/
def haltDue (s : State) : State :=
  match s.dbg.haltNext with
  | none => s
  | some m => haltUnits (s.onDebug fun d => { d with haltNext := none }) m 1

/-- The debug port at one tick of the shell (R621, R622, R630): at a symbol boundary the resume first, then the halt. -/
def debugTick (s : State) : State :=
  if !shellRuns s then s
  else
    let s := stepTick s
    if atSymbol s then haltDue (resumeDue s) else s

/-! ## DCTRL (R619) -/

/-- The fields of Table 21.5. -/
def dcMask (r : BitVec 64) : BitVec 16 := BitVec.ofNat 16 (regField r 32 16)
def dcOp (r : BitVec 64) : Nat := regField r 12 4

/-- A step kind that one of the named units does not take (R622). -/
def stepBad (kind : Nat) (m : BitVec 16) : Bool := (kind == 2 && (m &&& 0xFFF8) != 0) || (kind == 3 && (m &&& 0xFFF7) != 0)

/-- What refuses a DCTRL, 0 for nothing (R619, Table 21.10). -/
def dctrlRefused (s : State) (r : BitVec 64) : Nat :=
  match s.dbg.session with
  | none => 1
  | some (allow, _, tag, _) =>
    if regField r 48 16 != tag.toNat then 1
    else if (dcMask r &&& ~~~ allow) != 0 || (dcOp r == 3 && stepBad (regField r 10 2) (dcMask r)) then 2
    else if regField r 0 10 != 0 || 5 < dcOp r || (dcOp r == 3 && regField r 16 16 == 0) then 3
    else 0

/-- A DCTRL at Update-DR: below the level that reaches it the bypass register is selected (R613); a refused one changes nothing but
`DS_RESULT` (R634). -/
def dctrl (s : State) (r : BitVec 64) (op : Nat) (f : State → State) : State :=
  if !tapWorks s || dcOp r != op then s
  else
    let s := s.onDebug fun d => { d with ir := 0x11 }
    if !s.straps.dbgEn then s.onDebug fun d => { d with dr := 0 }
    else
      let s := s.onDebug fun d => { d with dr := r.setWidth 168 }
      let n := dctrlRefused s r
      dsResult (if n == 0 then f s else s) n

/-- A step ends at once by a halt operation (R622). -/
def endStep (s : State) : State :=
  match s.dbg.step with
  | none => s
  | some (m, _, _) => haltUnits (s.onDebug fun d => { d with step := none }) m 1

/-- DCTRL_HALT (R621, R622). -/
def execDctrlHalt (reg : BitVec 64) (s : State) : Out :=
  .next <| dctrl s reg 1 fun s =>
    (endStep s).onDebug fun d =>
      { d with haltNext := some (d.haltNext.getD 0 ||| dcMask reg),
               resumeNext := d.resumeNext.map fun x => (x.1 &&& ~~~ (dcMask reg), x.2) }

/-- DCTRL_RESUME (R621). -/
def execDctrlResume (reg : BitVec 64) (s : State) : Out :=
  .next <| dctrl s reg 2 fun s => s.onDebug fun d =>
    { d with haltNext := d.haltNext.map fun m => m &&& ~~~ (dcMask reg),
             resumeNext := match d.resumeNext with
               | some (m, c) => some (m ||| dcMask reg, c)
               | none => some (dcMask reg, none) }

/-- The count of a step; ticks are rounded up to whole bank cycles of 2 ticks (R622). -/
def stepLength (kind n : Nat) : Nat := if kind == 0 then (n + 1) / 2 * 2 else n

/-- DCTRL_STEP (R622): the named halted units run until the count is reached. -/
def execDctrlStep (reg : BitVec 64) (s : State) : Out :=
  .next <| dctrl s reg 3 fun s =>
    let m := dcMask reg &&& s.dbg.halted
    let kind := regField reg 10 2
    if m == 0 then s
    else (runUnits s m).onDebug fun d =>
      let old := match d.step with
        | some (k, _, _) => k
        | none => 0
      { d with step := some (m ||| old, BitVec.ofNat 2 kind, stepLength kind (regField reg 16 16)) }

/-- DCTRL_CLOSE (R618, R621): the session ends at the next symbol boundary. -/
def execDctrlClose (reg : BitVec 64) (s : State) : Out :=
  .next <| dctrl s reg 4 fun s => s.onDebug fun d => { d with haltNext := none, resumeNext := some (d.halted, some 1) }

/-- DCTRL_CLEAR_BPHIT (R619). -/
def execDctrlClearBphit (reg : BitVec 64) (s : State) : Out :=
  .next <| dctrl s reg 5 fun s => s.onDebug fun d => { d with bphit := 0 }

/-- STEP_END (R622): the units of the step halt again. -/
def execStepEnd (s : State) : Out :=
  match s.dbg.step with
  | some (m, _, 0) => .next (haltUnits (s.onDebug fun d => { d with step := none }) m 3)
  | _ => .next s

/-- SESSION_LIFETIME_END (R618). -/
def execSessionLifetimeEnd (s : State) : Out :=
  match s.dbg.session with
  | some (_, _, _, _, ends) => .next <| whenDue (ends.toNat ≤ s.clock.age.toNat) (fun s => closeSession s 2) s
  | none => .next s

/-! ## Breakpoints (R623, R624) -/

/-- The comparator a DBRK writes; a reserved kind or action sets it off. -/
def cmpOf (r : BitVec 168) : Cmp :=
  let kind := regField r 161 4
  let act := regField r 159 2
  if kind == 0 || 5 < kind || act == 3 then Cmp.off
  else { kind := BitVec.ofNat 4 kind, act := BitVec.ofNat 2 act, wher := BitVec.ofNat 8 (regField r 151 8),
         count := max 1 (regField r 135 16), value := BitVec.ofNat 64 (regField r 64 64), mask := BitVec.ofNat 64 (regField r 0 64) }

/-- A comparator as Capture-DR returns it (R623): `BK_COUNT` holds the matches still needed. -/
def cmpImage (n : Nat) (c : Cmp) : BitVec 168 :=
  BitVec.ofNat 168 (n * 2 ^ 165 + c.kind.toNat * 2 ^ 161 + c.act.toNat * 2 ^ 159 + c.wher.toNat * 2 ^ 151 + c.count * 2 ^ 135
    + c.value.toNat * 2 ^ 64 + c.mask.toNat)

/-- What refuses a DBRK: the action event and halt without a session, a reserved field. -/
def dbrkRefused (s : State) (r : BitVec 168) : Nat :=
  if regField r 159 2 == 2 && s.dbg.session.isNone then 1 else if regField r 128 7 != 0 then 3 else 0

/-- DBRK (R623). -/
def execDbrk (reg : BitVec 168) (s : State) : Out :=
  .next <| whenDue (tapWorks s) (fun s =>
    let s := s.onDebug fun d => { d with ir := 0x12 }
    if !s.straps.dbgEn then s.onDebug fun d => { d with dr := 0 }
    else
      let n : Fin 8 := Fin.ofNat 8 (regField reg 165 3)
      let r := dbrkRefused s reg
      let s := if r == 0 then s.onDebug fun d => { d with cmps := d.cmps.set n (cmpOf reg) } else s
      dsResult (s.onDebug fun d => { d with dr := cmpImage n.val d.cmps[n] }) r) s

/-- The quantity meets an armed comparator (R624). A tick compare meets the counter's value, or one a forward step has passed. -/
def cmpMeets (s : State) (c : Cmp) (q : BitVec 64) : Bool :=
  c.act != 0 && (q &&& c.mask) == (c.value &&& c.mask) && (c.kind != 4 || q.toNat ≤ s.clock.counter.toNat)

/-- The comparator fires: its bit in `DS_BPHIT`, the halt of every unit in `DO_ALLOW` where its action says so, the breakpoint-hit
event, and off (R624, R628, R629). -/
def fire (s : State) (n : Fin 8) (c : Cmp) (q : BitVec 64) : State :=
  let s := s.onDebug fun d => { d with cmps := d.cmps.set n Cmp.off, bphit := d.bphit ||| BitVec.ofNat 8 (2 ^ n.val) }
  let s := if c.act == 2 then haltUnits s (doAllow s) 2 else s
  raise s 0x1204 0x80 (beBytes 1 n.val ++ beBytes 1 c.kind.toNat ++ beBytes 8 q.toNat)

/-- BREAKPOINT_FIRE (R624): comparator `n` sees a quantity of its kind, from a place its `BK_WHERE` names; it fires on its
`BK_COUNT`-th match. -/
def execBreakpointFire (n : Fin 8) (quantity : BitVec 64) (s : State) : Out :=
  let c := s.dbg.cmps[n]
  .next <| whenDue (shellRuns s && cmpMeets s c quantity) (fun s =>
    if c.count ≤ 1 then fire s n c quantity
    else s.onDebug fun d => { d with cmps := d.cmps.set n { c with count := c.count - 1 } }) s

/-! ## Memory access (R625, R626) -/

/-- The fields of Table 21.9. -/
def dmAddr (r : BitVec 104) : Nat := regField r 64 24
def dmOp (r : BitVec 104) : Nat := regField r 101 3
def dmLanes (r : BitVec 104) : Nat := regField r 93 8
def dmData (r : BitVec 104) : Nat := regField r 0 64

/-- A register as captured: `DM_STAT` and `DM_DATA` replaced. -/
def dmCapture (r : BitVec 104) (stat data : Nat) : BitVec 168 :=
  BitVec.ofNat 168 (regField r 93 11 * 2 ^ 93 + stat * 2 ^ 90 + dmAddr r * 2 ^ 64 + data % 2 ^ 64)

/-- An address the debug port may reach (R626): no reserved range, no failed group, the shell not in reset. -/
def dmReach (s : State) (a : Nat) : Bool :=
  shellRuns s && !(0x330000 ≤ a && a < 0x400000) && works s (.group (Fin.ofNat 8 (groupOf a)))

/-- What refuses a DMEM operation: no session for a write, the scope, a reserved field or operation. -/
def dmemRefused (s : State) (r : BitVec 104) : Nat :=
  let noWrite : Nat := match s.dbg.session with
    | none => 1
    | some (_, fl, _) => if fl.toNat.testBit 0 then 0 else 2
  if 2 < dmOp r || regField r 88 2 != 0 || dmAddr r % 8 != 0 then 3
  else if dmOp r == 2 && noWrite != 0 then noWrite
  else if !dmReach s (dmAddr r) then 2
  else 0

/-- The word of a queue descriptor (Table 10.2); a queue that does not exist has no valid one. Queue 0 is TA's. -/
def descriptorAt (s : State) (q i : Nat) : Nat × State :=
  if !queueExists s q then (0, s)
  else
    let d := queueDescriptor s q false
    (fieldAt d.1 i 8, d.2)

/-- The descriptor word at an address of the descriptor window. -/
def descriptorWord (s : State) (a : Nat) : Nat × State := descriptorAt s ((a - 0x200000) / 16) (a % 16)

/-- The window of the event queues, by byte address (R341). -/
def inEvents (a : Nat) : Bool := 0x440000 ≤ a && a < 0x470000

/-- The word at an address. Tables, event windows and sample rings are read from the cells, descriptors as the queue manager holds
them; of the layouts the spec does not give the word is a free value. -/
def dmWord (s : State) (a : Nat) : Nat × State :=
  if a < 0x200000 || inEvents a || (0xC00000 ≤ a && a < 0xF00000) then (beNat (s.mem.readN a 8), s)
  else if a < 0x300000 then descriptorWord s a
  else
    let d := s.draw
    (d.1.toNat, d.2)

/-- A DMEM operation at Update-DR. -/
def dmem (s : State) (r : BitVec 104) (op : Nat) (f : State → State) : State :=
  if !tapWorks s || dmOp r != op then s
  else
    let s := s.onDebug fun d => { d with ir := 0x13 }
    if !s.straps.dbgEn then s.onDebug fun d => { d with dr := 0 }
    else
      let n := dmemRefused s r
      dsResult (if n == 0 then f s else s.onDebug fun d => { d with dr := dmCapture r 6 0 }) n

/-- DMEM_READ (R625, R626, R634): one word; the word protection's findings about it are handled as on every read, but no consumer
takes a poisoned word. -/
def execDmemRead (reg : BitVec 104) (ecc : Ecc) (s : State) : Out :=
  let a := dmAddr reg
  .next <| dmem s reg 1 fun s =>
    let poisoned := ecc.poisoned.contains a || s.mem.poison.contains a
    let corrected := ecc.corrected.contains a && !poisoned
    let s := if corrected then correctedWord s a else if poisoned then poisonedRead s a true else s
    let w := dmWord s a
    let stat := if poisoned then 5 else if corrected then 3 else 1
    w.2.onDebug fun d => { d with dr := dmCapture reg stat (if poisoned then 0 else w.1) }

/-- The enabled lanes of a word written (R343); lane n carries data bits 8n + 7 to 8n. -/
def writeLanes (m : Memory) (a lanes data : Nat) : Memory :=
  let m := (List.range 8).foldl (fun (m : Memory) n =>
    if lanes.testBit n then m.write (a + 7 - n) (BitVec.ofNat 8 (data / 2 ^ (8 * n))) else m) m
  { m with poison := if lanes == 255 then m.poison.filter (· != a) else m.poison,
           scrub := if lanes == 0 then m.scrub else m.scrub.filter (· != a) }

/-- A debug write to a descriptor takes effect in the fields software sets: `PAUSED`, the class and the rate (Table 10.2). -/
def writeDescriptor (s : State) (a lanes data : Nat) : State :=
  let q := (a - 0x200000) / 16
  let set := qSetOf s q
  let lane := fun n => lanes.testBit n
  let v : QSet :=
    if a % 16 == 0 then
      { set with paused := if lane 7 then data.testBit 61 else set.paused,
                 cls := if lane 6 then BitVec.ofNat 3 (data / 2 ^ 53) else set.cls }
    else
      let hi := if lane 3 then data / 2 ^ 24 % 256 else set.rate.toNat / 256
      let lo := if lane 2 then data / 2 ^ 16 % 256 else set.rate.toNat % 256
      qSetNew set set.cls.toNat (BitVec.ofNat 16 (hi * 256 + lo))
  if queueExists s q then setQSet s q v else s

/-- DMEM_WRITE (R625, R626, R343): the enabled lanes of one word, at once. -/
def execDmemWrite (reg : BitVec 104) (s : State) : Out :=
  let a := dmAddr reg
  .next <| dmem s reg 2 fun s =>
    let s := s.onMem fun m => writeLanes m a (dmLanes reg) (dmData reg)
    let s := if 0x200000 ≤ a && a < 0x300000 then writeDescriptor s a (dmLanes reg) (dmData reg) else s
    s.onDebug fun d => { d with dr := dmCapture reg 1 (dmData reg) }

/-! ## Other registers (R613, R614) -/

/-- The update of an instruction or data register that no other row takes. -/
def tapUpdate (s : State) (ir : Byte) (dr : BitVec 168) : State :=
  let load := fun (v : BitVec 168) => s.onDebug fun d => { d with ir := ir, dr := v }
  let c := BitVec.ofNat 64 dr.toNat
  let m := BitVec.ofNat 104 dr.toNat
  match ir.toNat with
  | 0x00 | 0x01 | 0x03 | 0x04 | 0x12 => s
  | 0x02 => load (idcode.setWidth 168)
  | 0x10 => load (if s.straps.dbgEn then (dstatus s).setWidth 168 else 0)
  | 0x11 => if 1 ≤ dcOp c && dcOp c ≤ 5 then s else dctrl s c (dcOp c) id
  | 0x13 =>
    if dmOp m == 1 || dmOp m == 2 then s
    else dmem s m (dmOp m) fun s => s.onDebug fun d => { d with dr := dmCapture m 0 (dmData m) }
  | _ => load 0

/-- TAP_REGISTER_WRITE (R613): every code not listed, and a private code at a level that does not reach it, selects the bypass
register. -/
def execTapRegisterWrite (ir : Byte) (dr : BitVec 168) (s : State) : Out := .next <| whenDue (tapWorks s) (fun s => tapUpdate s ir dr) s

end Sys2Proof.Machine
end

