-- ==== Sys2Proof/Machine/CutDealer.lean ====
section
/-! DEFINITION. The cut, the dealer and the topology flush (07_the_cut.md; R277 and R278). -/

namespace Sys2Proof.Machine

/-! ## Messages (Table 7.1) -/

/-- The length of a cut message's type, byte 0 included; 0 for a reserved type. -/
def cutLength (ty : Nat) : Nat := [0, 20, 11, 19, 21, 10, 12].getD ty 0

/-- A cut message of a type with no reserved value (R194). A DEAL's hop count above 64 is judged by Table 7.3. -/
def cutOk (ty : Nat) (b : List Byte) : Bool :=
  let rank := fun r => 1 ≤ r && r ≤ 14
  byteAt b 0 == ty && b.length == cutLength ty &&
    match ty with
    | 1 => rank (byteAt b 2)
    | 2 => rank (byteAt b 2)
    | 3 => byteAt b 14 < 4
    | 4 => rank (byteAt b 1) && byteAt b 13 != 0
    | _ => true

/-- Discard a cut message and count it (R194). -/
def badCut (s : State) (p : Port) : State := countPort s p 0x0E

/-- Pass a cut message on out of a port: 27,648 ticks after its preamble arrived (R195). -/
def passCut (s : State) (p : Port) (body : List Byte) : State :=
  if carries (s.port p) then sendLl s p 3 body (BitVec.ofNat 64 (arrivalSymbol s + 27648)) else s

/-- The value by which bids are compared (R196). -/
def Bid.value (b : Bid) : Nat := b.rank.toNat * 2 ^ 64 + b.die.toNat

/-- A BID body with a hop count and this chip as its forwarder. -/
def bidBody (s : State) (round : Nat) (b : Bid) (hops : Nat) : List Byte :=
  [0x01, BitVec.ofNat 8 round, b.rank] ++ beBytes 8 b.die.toNat ++ beBytes 2 b.node.toNat ++ beBytes 4 b.nonce.toNat
  ++ beBytes 1 hops ++ beBytes 2 (nodeNumber s).toNat

/-- Record the neighbour a copy came from (R194). -/
def setNbr (s : State) (p : Port) (fwd : Nat) : State := s.onPort p fun q => { q with nbr := BitVec.ofNat 16 fwd }

/-- The silence timer restarts (R198). -/
def silenceRestart (s : State) : State := s.onCut fun c => { c with silence := s.clock.age }

/-- The chip may bid (R197). -/
def eligible (s : State) : Bool :=
  let r := rankOf s.straps.codes
  1 ≤ r && r ≤ 14 && (tierCap s / 2) % 4 == 0 && !s.cut.ineligible.contains s.dieId

/-- The chip's own bid of this round. -/
def ownBid (s : State) : Bid where
  rank := BitVec.ofNat 8 (rankOf s.straps.codes)
  die := s.dieId
  node := nodeNumber s
  nonce := s.cut.nonce

/-- Its own bid is the best bid: it is provisional dealer or dealer. -/
def bestOwn (s : State) : Bool := s.cut.provisional || s.cut.state == .dealer

/-! ## Entering a cut (R199, R200) -/

/-- The event of a cut that begins (R199). The far end's marker is read as +1 where the chip has had a dealer and the port has
pilot lock (log entry 31). -/
def cutBegins (s : State) (round : Nat) : State :=
  if s.cut.hadDealer && (s.portA.lock || s.portB.lock) then
    raise s 0x0602 0x31 (beBytes 8 (dealerDie s) ++ beBytes 1 (dealerEpoch s))
  else raise s 0x0601 0x31 (beBytes 1 round)

/-- Enter a cut in a round (R200): window, bid slot, nonce and bid trick; the best bid is cleared. -/
def enterCut (s : State) (round : Nat) : State :=
  let s := if s.cut.state == .cut then s
    else (cutBegins s round).onCut fun c => { c with clashSeen := [] }
  let r := drawBelow s 64
  let n := r.2.draw
  let next := (s.clock.line.toNat / trickTicks + 1) * trickTicks
  let clear := fun (q : PortState) => { q with bidCopy := none, bidMeet := false }
  let s := (n.2.onPort .ta clear).onPort .tb clear
  s.onCut fun c =>
    { c with state := .cut, provisional := false, entered := s.clock.age, round := BitVec.ofNat 8 round, slot := r.1,
             bidTrick := BitVec.ofNat 64 next, nonce := n.1.setWidth 32, best := none, seen := [], tallies := [] }

/-- SILENCE_TIMER_EXPIRY (R198, R216): 60,000,000 ticks in Waiting or Following. -/
def execSilenceTimerExpiry (s : State) : Out :=
  let k := s.cut.state
  .next <| whenDue (inService s && (k == .waiting || k == .following) && 60000000 ≤ since s s.cut.silence)
    (fun s => enterCut s 0) s

/-- CUT_FOLLOW_TIMEOUT (Tables 7.2 and 7.3): 50 ms in a cut without DEAL; the event at most once per second. -/
def execCutFollowTimeout (s : State) : Out :=
  .next <| whenDue (inService s && s.cut.state == .cut && !s.cut.provisional && 150000000 ≤ since s s.cut.entered) (fun s =>
    let quiet : Bool := match s.cut.noDealerAt with
      | some t => since s t < secondTicks
      | none => false
    let s := if quiet then s
      else (raise s 0x0604 0x31 [s.cut.round]).onCut fun c => { c with noDealerAt := some s.clock.age }
    enterCut s 0) s

/-! ## Following a bid (R205) -/

/-- The tally port: the copy with the fewer hops, ties to TA; without a copy, the dealer-facing port. -/
def tallyPort (s : State) : Option Port :=
  match s.portA.bidCopy, s.portB.bidCopy with
  | some a, some b => if a.1.toNat ≤ b.1.toNat then some .ta else some .tb
  | some _, none => some .ta
  | none, some _ => some .tb
  | none, none => s.clock.facing

/-- The least hops of the best bid; without a copy, the hop count of the last DEAL. -/
def tallyHops (s : State) : Nat :=
  match s.portA.bidCopy, s.portB.bidCopy with
  | some a, some b => min a.1.toNat b.1.toNat
  | some a, none => a.1.toNat
  | none, some b => b.1.toNat
  | none, none => s.clock.hops.getD 0

/-- The `MEET` bits: the best bid met its own copy, or the port is held (R205, R212). -/
def meetBits (s : State) : Nat :=
  b2n (s.portA.bidMeet || s.portA.held) + 2 * b2n (s.portB.bidMeet || s.portB.held)

/-- What a TALLY reports; a change of it sends another. -/
def tallyKey (s : State) : Option Bid × Nat × Nat × BitVec 16 × BitVec 16 :=
  (s.cut.best, tallyHops s, meetBits s, s.portA.nbr, s.portB.nbr)

/-- A TALLY body (Table 7.1). -/
def tallyBody (s : State) (die : BitVec 64) : List Byte :=
  [0x03, s.cut.round] ++ beBytes 8 die.toNat ++ beBytes 2 (nodeNumber s).toNat
  ++ beBytes 1 (tallyHops s) ++ [s.clock.epoch] ++ beBytes 1 (meetBits s)
  ++ beBytes 2 s.portA.nbr.toNat ++ beBytes 2 s.portB.nbr.toNat

/-- A follower sends its TALLY where what it reports has changed (R205). -/
def tallyAfter (old s : State) : State :=
  match s.cut.best, tallyPort s with
  | some b, some p => if bestOwn s || tallyKey old == tallyKey s then s else sendCut s p (tallyBody s b.die)
  | _, _ => s

/-! ## Twin bids (R196, R204) -/

/-- An identity is ineligible, and the cut repeats in the next round (R204, R220). -/
def clashApply (s : State) (die : BitVec 64) (round : Nat) : State :=
  let s := s.onCut fun c => { c with ineligible := if c.ineligible.contains die then c.ineligible else c.ineligible ++ [die] }
  if s.cut.state == .cut && s.cut.round.toNat < round + 1 then enterCut s (round + 1) else s

/-- The chip sees twin bids (R204): CLASH on both ports, and it acts on it as a receiver does (log entry 35). -/
def twinBids (s : State) (p : Port) (b : Bid) (round : Nat) : State :=
  let key := (b.die, BitVec.ofNat 8 round)
  let s := if s.cut.clashSeen.contains key then s
    else
      let s := raise s 0x0603 (portSrc p) (beBytes 8 b.die.toNat ++ [b.rank] ++ beBytes 1 round)
      let m := [0x02, BitVec.ofNat 8 round, b.rank] ++ beBytes 8 b.die.toNat
      (sendCut (sendCut s .ta m) .tb m).onCut fun c => { c with clashSeen := c.clashSeen ++ [key] }
  clashApply s b.die round

/-- A bid of the same rank and identity as one seen, but of another node or nonce. -/
def isTwin? (s : State) (b : Bid) : Bool :=
  s.cut.seen.any fun x => x.rank == b.rank && x.die == b.die && x != b

/-- BID_SEND (R200, R202, R219): at the bid slot. -/
def execBidSend (s : State) : Out :=
  let b := ownBid s
  let higher := match s.cut.best with
    | some x => b.value < x.value
    | none => false
  .next <| whenDue (inService s && s.cut.state == .cut && !s.cut.provisional
      && s.clock.line.toNat == s.cut.bidTrick.toNat + s.cut.slot * symbolTicks && eligible s && !higher) (fun s =>
    let m := bidBody s s.cut.round.toNat b 1
    let twin := isTwin? s b
    let s := (sendCut (sendCut s .ta m) .tb m).onCut fun c =>
      { c with provisional := true, best := some b, seen := c.seen ++ [b], tallies := [] }
    if twin then twinBids s .ta b s.cut.round.toNat else s) s

/-! ## DEAL bodies -/

/-- The DEAL the dealer sends (Table 7.1). -/
def dealBody (s : State) (seq : BitVec 8) : List Byte :=
  [0x04, BitVec.ofNat 8 (rankOf s.straps.codes)] ++ beBytes 8 s.dieId.toNat ++ beBytes 2 (nodeNumber s).toNat
  ++ [s.clock.epoch, 1, seq] ++ beBytes 2 s.cut.blkLo.toNat ++ beBytes 2 s.cut.blkHi.toNat ++ beBytes 2 (nodeNumber s).toNat

/-- A DEAL with its hops raised by one and this chip as its forwarder (R195). -/
def dealOn (s : State) (b : List Byte) : List Byte :=
  putAt (putAt b 13 [BitVec.ofNat 8 (byteAt b 13 + 1)]) 19 (beBytes 2 (nodeNumber s).toNat)

/-- Answer a BID in a running network (R215): the last DEAL, or at the dealer its next one early. -/
def answerBid (s : State) (p : Port) : State :=
  if (s.port p).blocked || (s.port p).held then s
  else if s.cut.state == .dealer then
    let s := s.onCut fun c => { c with dealSeq := c.dealSeq + 1 }
    sendCut s p (dealBody s s.cut.dealSeq)
  else if s.cut.lastDeal.isEmpty then s
  else sendCut s p (dealOn s s.cut.lastDeal)

/-- A DEAL has been accepted, or sent, within two DEAL intervals (R215). -/
def dealRecent (s : State) : Bool :=
  s.cut.state == .dealer || (s.cut.state == .following && match s.cut.lastDealAt with
    | some t => since s t ≤ 18874368
    | none => false)

/-! ## BID, CLASH and TALLY received -/

/-- Withdraw from a port a passed-on BID that has not left yet (R201). -/
def withdrawBid (q : PortState) (b : List Byte) : Bool × PortState :=
  let is := fun (m : Tick × List Byte) => byteAt m.2 0 == 3 && byteAt m.2 2 == 1 && slice m.2 3 16 == slice b 1 16
  (q.llOut.any is, { q with llOut := q.llOut.filter fun m => !is m })

/-- A BID of the chip's round (R201, R202, R205). -/
def bidInRound (s : State) (p : Port) (b : Bid) (hops fwd : Nat) (body : List Byte) : State :=
  let old := s
  let copy := some (BitVec.ofNat 8 hops, BitVec.ofNat 16 fwd)
  let tw := isTwin? s b
  let s := s.onCut fun c => { c with seen := if c.seen.contains b then c.seen else c.seen ++ [b] }
  if tw then twinBids s p b s.cut.round.toNat
  else
    let better : Bool := match s.cut.best with
      | some x => x.value < b.value
      | none => true
    if better then
      let clear := fun (q : PortState) => { q with bidCopy := none, bidMeet := false }
      let s := (s.onPort .ta clear).onPort .tb clear
      let s := s.onPort p fun q => { q with bidCopy := copy }
      let s := s.onCut fun c => { c with best := some b, provisional := false, tallies := [] }
      tallyAfter old (passCut s p.other (bidBody s s.cut.round.toNat b (hops + 1)))
    else if s.cut.best == some b && !bestOwn s && (s.port p).bidCopy.isNone then
      let w := withdrawBid (s.port p) body
      let s := s.onPort p fun _ => { w.2 with bidCopy := copy, bidMeet := true }
      let s := if w.1 then s.onPort p.other fun q => { q with bidMeet := true } else s
      tallyAfter old s
    else s

/-- BID (R194, R201, R204, R215, R219). -/
def execBid (p : Port) (body : List Byte) (s : State) : Out :=
  if !cutOk 1 body then .next (badCut s p)
  else .next <| whenDue (inService s) (fun s =>
    let round := byteAt body 1
    let b : Bid := { rank := BitVec.ofNat 8 (byteAt body 2), die := BitVec.ofNat 64 (fieldAt body 3 8),
                     node := BitVec.ofNat 16 (fieldAt body 11 2), nonce := BitVec.ofNat 32 (fieldAt body 13 4) }
    let fwd := fieldAt body 18 2
    let old := s
    let s := tallyAfter old (silenceRestart (setNbr s p fwd))
    if dealRecent s then answerBid s p
    else
      let s := if s.cut.state == .cut then s else enterCut s round
      if round < s.cut.round.toNat then s
      else
        let s := if s.cut.round.toNat < round then enterCut s round else s
        bidInRound s p b (byteAt body 17) fwd body) s

/-- CLASH (R204, R220): passed on once per identity and round. -/
def execClash (p : Port) (body : List Byte) (s : State) : Out :=
  if !cutOk 2 body then .next (badCut s p)
  else .next <| whenDue (inService s) (fun s =>
    let die : BitVec 64 := BitVec.ofNat 64 (fieldAt body 3 8)
    let key := (die, BitVec.ofNat 8 (byteAt body 1))
    let s := silenceRestart s
    if s.cut.clashSeen.contains key then s
    else
      let s := (passCut s p.other body).onCut fun c => { c with clashSeen := c.clashSeen ++ [key] }
      clashApply s die (byteAt body 1)) s

/-! ## The blocked link (R209 to R212) -/

/-- The hop count of a node the dealer knows: its own, or its TALLY's. -/
def nodeHops (s : State) (n : BitVec 16) : Option Nat :=
  if n == nodeNumber s then some 0 else (s.cut.tallies.find? fun t => t.node == n).map fun t => t.hops.toNat

/-- The neighbours a node reports. -/
def nodeNbrs (s : State) (n : BitVec 16) : BitVec 16 × BitVec 16 :=
  if n == nodeNumber s then (s.portA.nbr, s.portB.nbr)
  else match s.cut.tallies.find? fun t => t.node == n with
    | some t => (t.nbrA, t.nbrB)
    | none => (0xFFFF, 0xFFFF)

/-- One reported link: its distance and its ends, none where it is no candidate (R209, R210). An end whose TALLY the dealer
does not hold has no distance (log entry 36). -/
def candidate (s : State) (a b : BitVec 16) : Option (Nat × BitVec 16 × BitVec 16) :=
  if a == 0xFFFF && b == 0xFFFF then none
  else if a == 0xFFFF || b == 0xFFFF then
    let n := if a == 0xFFFF then b else a
    if nodeNbrs s n == (0xFFFF, 0xFFFF) then none
    else (nodeHops s n).map fun h => (2 * h + 1, n, 0xFFFF)
  else match nodeHops s a, nodeHops s b with
    | some ha, some hb => some (ha + hb, if a.toNat < b.toNat then (a, b) else (b, a))
    | _, _ => none

/-- The candidates the TALLYs report. -/
def candidates (s : State) : List (Nat × BitVec 16 × BitVec 16) :=
  s.cut.tallies.flatMap fun t =>
    (if t.meet.toNat.testBit 0 then (candidate s t.node t.nbrA).toList else [])
    ++ (if t.meet.toNat.testBit 1 then (candidate s t.node t.nbrB).toList else [])

/-- The farther of two candidates, ties to the lower pair of node numbers (R209). -/
def candBetter (a b : Nat × BitVec 16 × BitVec 16) : Bool :=
  b.1 < a.1 || (a.1 == b.1 && a.2.1.toNat * 65536 + a.2.2.toNat < b.2.1.toNat * 65536 + b.2.2.toNat)

/-- The blocked link the dealer names; 0xFFFF twice for none. -/
def blockedLink (s : State) : BitVec 16 × BitVec 16 :=
  match (candidates s).foldl (fun best c => match best with
    | some b => if candBetter c b then some c else some b
    | none => some c) none with
  | some c => c.2
  | none => (0xFFFF, 0xFFFF)

/-- A port is an end of a named link (R210, R211). -/
def namesPort (s : State) (lo hi : BitVec 16) (p : Port) : Bool :=
  let n := nodeNumber s
  let nb := (s.port p).nbr
  if lo == 0xFFFF && hi == 0xFFFF then false
  else if hi == 0xFFFF then (n == lo && nb == 0xFFFF) || (n == 0xFFFF && nb == lo)
  else n != 0xFFFF && ((n == lo && nb == hi) || (n == hi && nb == lo))

/-- The ends of a named link block it; a blocked port is no longer held. -/
def applyBlock (s : State) (lo hi : BitVec 16) : State :=
  s.each [Port.ta, .tb] fun p s =>
    let b := namesPort s lo hi p
    s.onPort p fun q => { q with blocked := b, held := q.held && !b }

/-- The dealer computes the blocked link anew and blocks its own end of it (R209). -/
def nameBlock (s : State) : State :=
  let b := blockedLink s
  if b == (s.cut.blkLo, s.cut.blkHi) then s
  else
    let s := s.onCut fun c => { c with blkLo := b.1, blkHi := b.2 }
    topologyFlushDue (applyBlock s b.1 b.2)

/-- A provisional dealer or dealer takes a TALLY (R202, R209, Table 7.3). -/
def collectTally (s : State) (t : Tally) : State :=
  let clash := t.node != 0xFFFF && s.cut.tallies.any fun x =>
    x.node == t.node && (x.nbrA != t.nbrA || x.nbrB != t.nbrB || x.hops != t.hops)
  let s := if clash then raise s 0x0607 0x31 (beBytes 2 t.node.toNat) else s
  let s := s.onCut fun c =>
    { c with tallies := (if t.node == 0xFFFF then c.tallies else c.tallies.filter fun x => x.node != t.node) ++ [t] }
  if s.cut.state == .dealer && t.meet != 0 then nameBlock s else s

/-- TALLY (R205): collected, or passed on unchanged out of the tally port (log entry 33). -/
def execTally (p : Port) (body : List Byte) (s : State) : Out :=
  if !cutOk 3 body then .next (badCut s p)
  else .next <| whenDue (inService s) (fun s =>
    let s := silenceRestart s
    let t : Tally := { node := BitVec.ofNat 16 (fieldAt body 10 2), hops := BitVec.ofNat 8 (byteAt body 12),
                       epoch := BitVec.ofNat 8 (byteAt body 13), meet := BitVec.ofNat 8 (byteAt body 14),
                       nbrA := BitVec.ofNat 16 (fieldAt body 15 2), nbrB := BitVec.ofNat 16 (fieldAt body 17 2) }
    match s.cut.best with
    | none => s
    | some b =>
      if b.die.toNat != fieldAt body 2 8 then s
      else if bestOwn s then collectTally s t
      else match tallyPort s with
        | some q => passCut s q body
        | none => s) s

/-- CUT_MESSAGE_PASS_ON (R195): a waiting cut message leaves at a symbol boundary, in its order on the port. -/
def execCutMessagePassOn (p : Port) (s : State) : Out :=
  let q := s.port p
  match q.llOut.find? fun m => byteAt m.2 0 == 3 with
  | none => .next s
  | some m =>
    let b := tableB (q.txTable q.txSlot)
    let n := 2 + (8 * (m.2.length + 4) + max b 1 - 1) / max b 1
    .next <| whenDue (atSymbol s && inService s && q.tx.isNone && carries q && m.1.toNat ≤ s.clock.line.toNat && maySpan s p n) (fun s =>
      let hdr := ownHeader s 3 0 7 0 s.announce.seq.toNat m.2.length
      let hdr := { hdr with carryB := BitVec.ofNat 16 b, btSlot := q.txSlot }
      let s := s.onAnnounce fun a => { a with seq := a.seq + 1 }
      s.onPort p fun q =>
        { q with llOut := q.llOut.erase m,
                 tx := some { kind := .trump, frame := { hdr := hdr, payload := m.2, crc := .good }, symbols := n, sent := 0,
                              epoch := s.tables.epoch, from_ := none } }) s

/-! ## Settling and dealing (R203, R206) -/

/-- CUT_SETTLE (R203): the window of a provisional dealer ends. -/
def execCutSettle (s : State) : Out :=
  .next <| whenDue (inService s && s.cut.state == .cut && s.cut.provisional && 75000000 ≤ since s s.cut.entered) (fun s =>
    let top := (s.cut.tallies.map fun t => t.epoch.toNat).foldl max s.clock.epoch.toNat
    let e := if (top + 1) % 256 == 0 then 1 else (top + 1) % 256
    let s := topologyFlushDue <| s.onClock fun c =>
      { c with state := .dealer, epoch := BitVec.ofNat 8 e, facing := none, hops := some 0, realign := none, goodTricks := 0, jumps := 0 }
    let free := fun (q : PortState) => { q with blocked := false, held := false, dealSeen := false }
    let s := (s.onPort .ta free).onPort .tb free
    let s := s.onCut fun c =>
      { c with state := .dealer, provisional := false, hadDealer := true, blkLo := 0xFFFF, blkHi := 0xFFFF,
               dealer := some (BitVec.ofNat 8 (rankOf s.straps.codes), s.dieId, nodeNumber s), lastDealAt := some s.clock.age }
    let s := nameBlock s
    raise s 0x0608 0x31 (beBytes 1 e ++ beBytes 2 s.cut.blkLo.toNat ++ beBytes 2 s.cut.blkHi.toNat)) s

/-- Put a DEAL into a port's beacon frame, or send it as a frame of its own where no beacon goes (R235). -/
def dealOut (s : State) (p : Port) (body : List Byte) : State :=
  let m := llMessage 3 body
  let q := s.port p
  if !carries q || q.blocked || q.held then s
  else if !q.beaconOut.isEmpty then s.onPort p fun q => { q with beaconOut := q.beaconOut ++ m }
  else match q.tx with
    | some x =>
      if x.kind == .beacon && x.sent < 2 then
        let pay := x.frame.payload ++ m
        s.onPort p fun q =>
          { q with tx := some { x with frame := { x.frame with payload := pay,
                                                               hdr := { x.frame.hdr with payLen := BitVec.ofNat 16 pay.length } } } }
      else sendLl s p 3 body s.clock.line
    | none => sendLl s p 3 body s.clock.line

/-- DEAL_SEND (R206, R235): at symbol 1 of every 16th trick. -/
def execDealSend (s : State) : Out :=
  .next <| whenDue (inService s && s.cut.state == .dealer && s.clock.line.toNat % (16 * trickTicks) == symbolTicks) (fun s =>
    let s := s.onCut fun c => { c with dealSeq := c.dealSeq + 1, lastDealAt := some s.clock.age }
    let b := dealBody s s.cut.dealSeq
    dealOut (dealOut s .ta b) .tb b) s

/-! ## DEAL received (R206, R207, R211, R212, R217) -/

/-- The chip's dealer-facing port becomes `p` (R207): the clock passes through Holdover, or leaves Dealer (Table 4.2). -/
def moveFacing (s : State) (p : Port) (hops : Nat) : State :=
  let s := if s.clock.facing.isSome && s.clock.facing != some p && (s.clock.state == .disciplined || s.clock.state == .acquiring)
    then enterHoldover s else s
  let s := s.onClock fun (c : Clock) =>
    { c with
      facing := some p, hops := some hops,
      state := if c.state == .dealer then ClockState.acquiring else c.state, goodTricks := 0 }
  s.onPort p fun q => { q with held := false }

/-- The facing link carries nothing, so that a DEAL on the other port moves it at once (R207, Worked case; log entry 32). -/
def facingDead (s : State) : Bool :=
  match s.clock.facing with
  | some p => !carries (s.port p)
  | none => true

/-- A foreign DEAL (R217): event, CALL on both ports, and a cut in round 0. -/
def foreignDeal (s : State) (p : Port) (body : List Byte) : State :=
  let s := raise s 0x0606 (portSrc p) (slice body 2 8 ++ slice body 12 1)
  let die := dealerDie s
  let e := dealerEpoch s
  let m := [0x05, BitVec.ofNat 8 e] ++ beBytes 8 die
  let s := (sendCut (sendCut s .ta m) .tb m).onCut fun c =>
    { c with callSeen := c.callSeen ++ [(BitVec.ofNat 64 die, BitVec.ofNat 8 e)] }
  enterCut s 0

/-- Blocks and holds of an accepted DEAL (R211, R212). -/
def dealBlocks (s : State) (lo hi : BitVec 16) : State :=
  let s := if s.cut.lastDealAt.isSome && (lo, hi) != (s.cut.blkLo, s.cut.blkHi) then topologyFlushDue s else s
  let s := applyBlock (s.onCut fun c => { c with blkLo := lo, blkHi := hi }) lo hi
  let n := if lo == 0xFFFF && hi == 0xFFFF then 0 else s.cut.otherDeals + 1
  let s := s.onCut fun c => { c with otherDeals := if s.portA.held || s.portB.held then n else 0 }
  if 2 ≤ s.cut.otherDeals then
    ((s.onPort .ta fun q => { q with held := false }).onPort .tb fun q => { q with held := false }).onCut fun c => { c with otherDeals := 0 }
  else s

/-- A DEAL is accepted on a port (R206, R207, R212, R214). -/
def acceptDeal (s : State) (p : Port) (body : List Byte) : State :=
  let old := s
  let hops := byteAt body 13
  let rank : BitVec 8 := BitVec.ofNat 8 (byteAt body 1)
  let die : BitVec 64 := BitVec.ofNat 64 (fieldAt body 2 8)
  let node : BitVec 16 := BitVec.ofNat 16 (fieldAt body 10 2)
  let seq := byteAt body 14
  let fresh := s.cut.lastDeal.isEmpty || byteAt s.cut.lastDeal 14 != seq
  let s := if fresh then (s.onPort .ta fun q => { q with dealSeen := false }).onPort .tb fun q => { q with dealSeen := false } else s
  let s := s.onPort p fun q => { q with dealSeen := true }
  let first := s.cut.state != .following
  let s := if first || facingDead s then moveFacing s p hops
    else if s.clock.facing == some p then s.onClock fun c => { c with hops := some hops } else s
  let s := if fresh then dealBlocks s (BitVec.ofNat 16 (fieldAt body 15 2)) (BitVec.ofNat 16 (fieldAt body 17 2)) else s
  let s := s.onCut fun c =>
    { c with state := .following, provisional := false, dealer := some (rank, die, node), hadDealer := true, lastDeal := body,
             lastDealAt := some s.clock.age, noDealerAt := none,
             best := match c.best with
               | some b => if b.die == die then some b else some { rank := rank, die := die, node := node, nonce := 0 }
               | none => some { rank := rank, die := die, node := node, nonce := 0 } }
  let s := silenceRestart s
  let s := if s.clock.facing != some p && !(s.port p).blocked then s.onPort p fun q => { q with held := true } else s
  let q := s.port p.other
  let s := if q.blocked || q.held then s else passCut s p.other (dealOn s body)
  tallyAfter old s

/-- DEAL (R194, R206, R217, Table 7.3). A DEAL does not cross a blocked or held link (R211, R212). -/
def execDeal (p : Port) (body : List Byte) (s : State) : Out :=
  if !cutOk 4 body then .next (badCut s p)
  else .next <| whenDue (inService s) (fun s =>
    let s := setNbr s p (fieldAt body 19 2)
    let die := fieldAt body 2 8
    let own := die == dealerDie s && byteAt body 12 == dealerEpoch s && s.cut.dealer.isSome
    if 64 < byteAt body 13 then raise s 0x0605 (portSrc p) (slice body 13 1)
    else if (s.port p).blocked || (s.port p).held then s
    else match s.cut.state with
      | .dealer => if own then s else foreignDeal s p body
      | .following => if own then acceptDeal s p body else foreignDeal s p body
      | .waiting => acceptDeal s p body
      | .cut =>
        let best := match s.cut.best with
          | some b => b.die.toNat == die && !s.cut.provisional
          | none => false
        if best || s.cut.dealer.isNone then acceptDeal s p body else s) s

/-- DEALER_FACING_CHANGE (R207): judged at the end of a DEAL interval. -/
def execDealerFacingChange (s : State) : Out :=
  match s.clock.facing with
  | none => .next s
  | some p => .next <| whenDue (s.cut.state == .following && s.clock.line.toNat % (16 * trickTicks) == 0
      && !(s.port p).dealSeen && (s.port p.other).dealSeen) (fun s =>
      let old := s
      tallyAfter old (moveFacing s p.other (byteAt s.cut.lastDeal 13))) s

/-! ## BREAK and CALL -/

/-- BREAK (R213, R221): passed on once per node and epoch within 16 tricks. -/
def execBreak (p : Port) (body : List Byte) (s : State) : Out :=
  if !cutOk 6 body then .next (badCut s p)
  else .next <| whenDue (inService s) (fun s =>
    let node : BitVec 16 := BitVec.ofNat 16 (fieldAt body 10 2)
    let e : BitVec 8 := BitVec.ofNat 8 (byteAt body 1)
    let live := s.cut.breakSeen.filter fun b => since s b.2.2 < 16 * trickTicks
    if live.any fun b => b.1 == node && b.2.1 == e then s
    else
      let s := passCut (s.onCut fun c => { c with breakSeen := live ++ [(node, e, s.clock.age)] }) p.other body
      if followsOrDeals s then
        let t := breakApply s
        tallyAfter s t
      else s) s

/-- CALL (R217, R221): passed on once per identity and epoch; a cut in round 0 unless one runs there. -/
def execCall (p : Port) (body : List Byte) (s : State) : Out :=
  if !cutOk 5 body then .next (badCut s p)
  else .next <| whenDue (inService s) (fun s =>
    let key := (BitVec.ofNat 64 (fieldAt body 2 8), BitVec.ofNat 8 (byteAt body 1))
    let s := silenceRestart s
    if s.cut.callSeen.contains key then s
    else
      let s := passCut (s.onCut fun c => { c with callSeen := c.callSeen ++ [key] }) p.other body
      if s.cut.state == .cut && s.cut.round == 0 then s else enterCut s 0) s

/-! ## Topology flush (R277, R278) -/

/-- TOPOLOGY_FLUSH (R278): at a trick boundary with no reclaim pass. -/
def execTopologyFlush (s : State) : Out :=
  .next <| whenDue (atTrick s && inService s && s.tables.flushDue && s.tables.reclaim.isNone) (fun s =>
    let flip := fun (q : Pipe) => { q with gen := !q.gen, learned := 0 }
    let s := (s.onPipe .ta flip).onPipe .tb flip
    let s := s.onTables fun t =>
      { t with reclaim := some 0, flushDue := false, prefixes := t.prefixes.filter fun e => prKind e != 1 }
    invertEpoch s .topology) s

/-- Free the old-generation learned entries of a bucket and of the overflow entries with its index. -/
def reclaimBucket (s : State) (p : Port) (b : Nat) : State :=
  s.each (bucketLocs s p b) fun l s =>
    let e := hashAt s p l
    if heValid e && !heStatic e && heGen e != (s.pipe p).gen then setHash s p l 0 else s

/-- RECLAIM_PASS_VISIT (R278): one bucket of both pipelines every 64 ticks. -/
def execReclaimPassVisit (s : State) : Out :=
  match s.tables.reclaim with
  | none => .next s
  | some b => .next <| whenDue (inService s && b < 8192) (fun s =>
      (reclaimBucket (reclaimBucket s .ta b) .tb b).onTables fun t => { t with reclaim := some (b + 1) }) s

/-- RECLAIM_PASS_END (R278). -/
def execReclaimPassEnd (s : State) : Out :=
  .next <| whenDue (s.tables.reclaim == some 8192) (fun s => s.onTables fun t => { t with reclaim := none }) s

end Sys2Proof.Machine
end

