-- ==== Sys2Proof/Machine/Keepers.lean ====
section
/-! DEFINITION. The keepers and the trick checks of the channels (01_architecture.md R16 to R18, 12_universal_channels.md
R386 to R391). -/

namespace Sys2Proof.Machine

/-- One keeper's refresh (R16, R388, R389, R563): the timer restarts, the latch takes the present code, the direction and the
drive part are written; a released keeper leaves the drive to the shell. -/
def refreshOne (n : Fin 24) (s : State) : State :=
  let c := s.chan n
  if !isOutChan c then s
  else
    let s := s.onChan n fun c =>
      { c with refreshed := s.clock.age, latch := if c.stageOn then c.dac else c.latch, weakHigh := false, yielded := false,
               override := c.overrideNext.getD c.override, overrideNext := none }
    let dir := alarmHigh s n
    let turned := match c.keeper with
      | some k => k.dirHigh != dir
      | none => false
    let s := s.onChan n fun c => { c with keeper := c.keeper.map fun k => { k with dirHigh := dir, part := drivePart c.drive } }
    let s := if turned && c.comp == .substituted then endSubst s n c.target else s
    if (s.chan n).inTrim && !banked (s.chan n) then s
    else if banked (s.chan n) || !(s.chan n).commanded then
      s.onChan n fun c => keeperTakes (trimOf s.vault n) s.clock.age c
    else driveShell s n

/-- KEEPER_REFRESH (R16): at each trick start while the shell runs with configured keepers. A debug halt does not stop it
(R35). -/
def execKeeperRefresh (s : State) : Out :=
  .next <| whenDue (atTrick s && (s.supply.kindle == .joining || s.supply.kindle == .up)) (fun s =>
    s.each (List.finRange 24) refreshOne) s

/-- KEEPER_TIMER_EXPIRY (R17, R389, R564): a keeper without a refresh takes control, or checks its stage. The timer is an RC
timer of 20 to 39 ms (R15); while the shell runs it expires only after that time without a refresh. -/
def execKeeperTimerExpiry (ch : Fin 24) (atLimit activity : Bool) (own total : Int) (s : State) : Out :=
  let c := s.chan ch
  .next <| whenDue (isOutChan c && (!shellRuns s || 60000000 ≤ since s c.refreshed)) (fun s =>
    let yield := activity && twinOf s.straps.codes != some 0
    let s := s.onChan ch fun c => { c with yielded := yield }
    let s :=
      if !c.inControl then s
      else s.onChan ch fun c =>
        match c.keeper with
        | none => c
        | some k =>
          let high := k.kind != .voltage && k.safe == .alarm && k.dirHigh && !k.subst
          let whole := k.kind != .voltage && k.part == .half && !yield && 2 * total < 3 * own
          { c with weakHigh := c.weakHigh || (high && atLimit),
                   keeper := some { k with part := if whole then .whole else k.part } }
    s.onChan ch fun c => keeperTakes (trimOf s.vault ch) s.clock.age c) s

/-- The check of one keeper (R390, R397, Table 14.8): differences in 0.01 % of span of the keeper's path and of the readback
reference. -/
def keeperCheckOne (d : Fin 24 × Nat × Nat) (s : State) : State :=
  let n := d.1
  let c := s.chan n
  if !isOutChan c || (c.inControl && since s c.rampAt < trickTicks) then s
  else
    let kd := beBytes 2 d.2.1
    let rd := beBytes 2 d.2.2
    let s := s.onChan n fun c => { c with keeperFault := 10 < d.2.1, refFault := 20 < d.2.2 }
    let s := if 10 < d.2.1 then raise s 0x0B07 n.val kd else clearLatching s 0x0B07 n.val 0 kd
    if 20 < d.2.2 then raise s 0x0D04 n.val rd else clearLatching s 0x0D04 n.val 0 rd

/-- KEEPER_CHECK (R390): once per 16,384 tricks, taken at the tricks whose number is a multiple of 16,384 (log entry 28). -/
def execKeeperCheck (diffs : List (Fin 24 × Nat × Nat)) (s : State) : Out :=
  .next <| whenDue (atTrick s && inService s && trickNo s % 16384 == 0) (fun s => s.each diffs keeperCheckOne) s

/-- One channel at a crosspoint check: the mismatch is corrected; one that is still there caps the channel (R391). -/
def crosspointOne (bad : List (Fin 24 × Fin 4)) (n : Fin 24) (s : State) : State :=
  match bad.find? fun e => e.1 == n with
  | none => s.onChan n fun c => { c with crossSeen := false }
  | some (_, t) =>
    if (s.chan n).crossSeen && !(s.chan n).capCross then
      let s := raise s 0x0B06 n.val (beBytes 1 (4 * n.val + t.val))
      capChannel (s.onChan n fun c => { c with capCross := true }) n
    else setFrontEnd (s.onChan n fun c => { c with crossSeen := true }) n

/-- CROSSPOINT_CHECK (R391): at each trick boundary. -/
def execCrosspointCheck (bad : List (Fin 24 × Fin 4)) (s : State) : Out :=
  .next <| whenDue (atTrick s && inService s) (fun s => s.each (List.finRange 24) (crosspointOne bad)) s

end Sys2Proof.Machine
end

