-- ==== Sys2Proof/Machine/MemBanks.lean ====
section
/-! DEFINITION. The sweep, the scrub list and the wake scrub (11_memory_banks.md). -/

namespace Sys2Proof.Machine

/-- SCRUB_WRITE (R344): the oldest listed word is rewritten with corrected data and leaves the list. -/
def execScrubWrite (s : State) : Out :=
  .next <| whenDue (shellRuns s && !halted s 4) (fun s => s.onMem fun m => { m with scrub := m.scrub.tail }) s

/-- The sweep skips the regions of a failed group: from region `r`, the next region of a group that works (R352). -/
def sweepSkip (s : State) : Nat → Nat → Nat
  | 0, r => r % 262144
  | n + 1, r =>
    let r := r % 262144
    if works s (.group (Fin.ofNat 8 (r / 32768))) then r else sweepSkip s n ((r / 32768 + 1) * 32768)

/-- What a region's steps do to its row (R353, R357, Table 11.7): a transient mismatch is counted; a hard fault is counted and the
row repaired, or reported where no spare is free. -/
def sweepRegion (s : State) (r : Nat) (obs : SweepObs) : State :=
  let a := r * 64
  let src := 0x40 + groupOf a
  let s := eccApply s obs.ecc
  if !obs.march then s
  else if !obs.retest then bump s src 0 0x32
  else
    let s := bump s src 0 0x33
    let b := bankRow a
    let d := beBytes 1 b.1 ++ beBytes 2 b.2
    match repairRow s.mem b.1 b.2 false with
    | some (k, m) => raise { s with mem := m } 0x0A04 src (d ++ beBytes 1 k)
    | none => raise s 0x0A05 src d

/-- The MEM.SWEEP that runs (R360). -/
def sweepOp (s : State) : Option Op := s.engine.ops.find? fun o => o.opcode == 0x0F02 && o.state == .running

/-- The region boundary of a MEM.SWEEP pass (Table 16.3): the end, a cancel, a suspension, or the next region. -/
def sweepBoundary (s : State) (o : Op) (next : Nat) : State :=
  let h := o.handle.toNat
  let s := onOp s h fun o => { o with progress := BitVec.ofNat 16 (min next 262143 / 4) }
  if 262144 ≤ next then opEnd (s.onMem fun m => { m with fast := none }) h .done 0
  else if o.cancelPending then opRollback s o .cancelled 0x10
  else
    let s := s.onMem fun m => { m with fast := some next }
    if o.suspendPending then opEnter s h .suspended 0x04 else s

/-- The next region of a MEM.SWEEP pass after `r`, 262,144 at its end. -/
def fastNext (s : State) (r : Nat) : Nat :=
  let n := r + 1
  if 262144 ≤ n then 262144
  else let k := sweepSkip s 8 n
       if k < n then 262144 else k

/-- SWEEP_REGION_START (R352, R353, R360): a region of the MEM.SWEEP pass every 600 ticks, else one of the background sweep every
30,000 ticks, in every tier from Pass-through on. -/
def execSweepRegionStart (obs : SweepObs) (s : State) : Out :=
  .next <|
    if !inService s || halted s 4 || s.mem.wakeScrub then s
    else match sweepOp s with
      | some o =>
        whenDue (600 ≤ since s s.mem.sweepAt && !halted s 3) (fun s =>
          let r := sweepSkip s 8 (s.mem.fast.getD 0)
          let s := sweepRegion (s.onMem fun m => { m with sweepAt := s.clock.age }) r obs
          match sweepOp s with
          | some _ => sweepBoundary s o (fastNext s r)
          | none => s) s
      | none =>
        whenDue (30000 ≤ since s s.mem.sweepAt) (fun s =>
          let r := sweepSkip s 8 s.mem.sweep
          sweepRegion (s.onMem fun m => { m with sweep := (r + 1) % 262144, sweepAt := s.clock.age }) r obs) s

/-- WAKE_SCRUB_END (R363): 524,288 ticks after the shell's release at a wake. -/
def execWakeScrubEnd (s : State) : Out :=
  .next <| whenDue (s.mem.wakeScrub && 524288 ≤ since s s.supply.coreAt) (fun s =>
    s.onMem fun m => { m with wakeScrub := false, sweepAt := s.clock.age }) s

end Sys2Proof.Machine
end

