-- ==== Sys2Proof/Machine/VaultWard.lean ====
section
/-! DEFINITION. The timed rows of the ward and key vault (17_ward_and_countersign.md): the end of a programme pulse, proposals and
countersigns, the claim, WARD_LOCK and COMMISSION. -/

namespace Sys2Proof.Machine

/-! ## What the end of a write brings about (R518) -/

/-- The final response of a command whose write ends; the hand's next command may go on (R518). -/
def pulseFinal (s : State) (f : CmdFrame) (x : List Byte) (status : Nat) : State :=
  let s := if inService s then finalResponse s f (some (changeDigest s f x)) status [] else s
  s.onEngine fun e => { e with writing := e.writing.filter fun h => h != f.hand }

/-- The record X of a trim operation as TRIM.COMMIT's digest covers it (R477). -/
def trimX (s : State) (o : Op) : List Byte :=
  let n := match o.object with
    | .chan n => n
    | _ => 0
  let g := fun (i : Nat) => o.trim.getD i 0
  Trim.bytes { g := g 0, h := g 1, o := g 2, p := g 3, low := g 4, high := g 5 } (isVoltage (s.chan n))

/-- A slot has been written: its session changes; its awaiting commands and proposals are discarded (R519, R491). -/
def slotWritten (s : State) (slot : Fin 20) : State :=
  let s := redrawSession s slot
  let s := discardAwait s fun a => keyId a.f == slot.val
  s.onEngine fun e => { e with proposals := e.proposals.filter fun p => 16 + p.warden.val != slot.val }

/-- A ward entry has changed (R522). -/
def wardChanged (s : State) (h : Fin 16) (old new : List Byte) : State :=
  let lostOwn := (List.finRange 24).filter fun c => bit (wardOwn old) c.val && !bit (wardOwn new) c.val
  let lostRead := (List.range 24).filter fun c => bit (wardRead old) c && !bit (wardRead new) c
  let s := s.each lostOwn fun c s => dropPending s c fun p => p.hand == h
  let s := s.each lostRead fun c s =>
    s.each (((streamsOn s c).filter fun x => x.hand == h).map fun x => x.id.toNat) fun sid s => closeStreamEvent s sid 2 c
  let s := freeGrids s
  if sessionOf s h && !bit (wardPerm new) 1 then closeSession s 3 else s

/-- Every port whose mask strap is 15 takes the custom slot (R185, R190). -/
def customMask (s : State) : State :=
  if maskStrap s.straps.codes == 15 then applyMask .tb (applyMask .ta s) else s

/-- NODE.ADOPT's write has ended (R535): the cap is cleared, the adopted event. -/
def adopted (s : State) : State :=
  let s := clearLatching (s.onTiers fun t => { t with stranger := false }) 0x1004 0x70 0 []
  raise s 0x1005 0x70 (beBytes 8 ((seatPartner s.vault).getD 0).toNat)

/-- The effect of a short command whose write has ended well, after its final response. -/
def finalEffect (s : State) (f : CmdFrame) (p : Pulse) (old : List Byte) : State :=
  match p.key with
  | .key slot => slotWritten s slot
  | .ward h => mirrorMsg (wardChanged s h old p.data) 0x05 (beBytes 1 h.val ++ padTo 16 p.data)
  | .mask => customMask s
  | .protection => if opcodeOf f == 0x0903 then adopted s else s
  | _ => s

/-- The blocks a custom curve slot had before. -/
def curveBefore (s : State) (slot : Fin 16) : List Byte :=
  match s.vault.look (.curve slot) with
  | .data bs => bs
  | _ => []

/-- The record of a pulse is stored. -/
def storePulse (s : State) (p : Pulse) : State := s.onVault fun v => v.store p.key p.data

/-- A trim record is stored: the final response of TRIM.COMMIT, the old trims until the next trick boundary, and the end of the
operation (Table 14.7). -/
def pulseTrim (s : State) (p : Pulse) (handle : BitVec 16) (f : CmdFrame) : State :=
  match opOf s handle.toNat with
  | none => storePulse s p
  | some o =>
    let s := pulseFinal s f (trimX s o) 0
    match p.key with
    | .trim n =>
      let old := match s.vault.look (.trim n) with
        | .data bs => bs
        | _ => []
      let s := (storePulse s p).onVault fun v => { v with trimOld := sparseSet n.val old v.trimOld }
      if o.state.live then trimEnd (opEnd s o.handle.toNat .done 0) n o.before else s
    | _ => storePulse s p

/-- A live operation ends Done. -/
def doneLive (s : State) (handle : BitVec 16) : State :=
  match opOf s handle.toNat with
  | some o => if o.state.live then opEnd s handle.toNat .done 0 else s
  | none => s

/-- A curve is stored: it stands beside the old one until the switch, and its operation is Done (R422). -/
def pulseCurve (s : State) (p : Pulse) (handle : BitVec 16) : State :=
  match p.key with
  | .curve slot =>
    let old := curveBefore s slot
    let s := storePulse s p
    let s := if old.isEmpty then s else s.onStraps fun t => { t with curveUse := t.curveUse ++ [(slot, old, none)] }
    let s := onOp s handle.toNat fun o => { o with progress := 3 }
    doneLive s handle
  | _ => storePulse s p

/-- A repair record is stored: the live repair is persistent from now on, and its operation is Done (R358). -/
def pulseRepair (s : State) (p : Pulse) (handle : BitVec 16) : State :=
  let s := storePulse s p
  match p.key with
  | .repair b _ =>
    let row := fieldAt p.data 1 2
    let s := s.onMem fun m =>
      { m with remap := m.remap.map fun e => if e.1 == b.val && e.2.row == row then (e.1, { e.2 with persistent := true }) else e }
    doneLive s handle
  | _ => s

/-- A pulse has ended well: the record, then what it brings about. -/
def pulseGood (s : State) (p : Pulse) : State :=
  match p.why with
  | .final f =>
    let old := match p.key with
      | .ward h => wardEntry s.vault h.val
      | _ => []
    finalEffect (storePulse (pulseFinal s f [] 0) p) f p old
  | .restrap f => storePulse (pulseFinal s f [] 0) p
  | .install f =>
    let s := if inService s then respond s f 0 0 [] else s
    let s := s.onEngine fun e => { e with writing := e.writing.filter fun h => h != f.hand }
    match p.key with
    | .key slot => slotWritten (storePulse s p) slot
    | _ => storePulse s p
  | .trim handle f => pulseTrim s p handle f
  | .curve handle => pulseCurve s p handle
  | .repair handle => pulseRepair s p handle
  | .claim => storePulse s p
  | .firstDigest => storePulse s p
  | .mirrorWard h =>
    let old := match s.vault.look (.ward h) with
      | .data bs => bs
      | _ => zeros 16
    let s := (storePulse s p).onVault fun v =>
      { v with wardNext := if sparseGet v.wardNext h.val == some p.data then sparseDel v.wardNext h.val else v.wardNext }
    wardChanged s h old p.data
  | .seatRecord => seatEnter ((storePulse s p).onSeat fun t => { t with rewriteDue := false }) .seated

/-- A pulse has failed (Table 17.4): the old copy stays; event, and final response 0x28. A failure that Table 16.1 does not list ends
no operation (R513): a trim waits again for TRIM.COMMIT, other writes are made again. -/
def pulseBad (s : State) (p : Pulse) : State :=
  let s := if shellRuns s then raise s 0x1003 0x70 (vaultDetail p.key) ((vaultKind p.key).1 * 1024 + (vaultKind p.key).2) else s
  let again := fun (s : State) => if shellRuns s then s.onVault fun v => { v with pulses := p :: v.pulses } else s
  match p.why with
  | .final f => pulseFinal s f [] 0x28
  | .restrap f => pulseFinal s f [] 0x28
  | .install f =>
    let s := if inService s then respond s f 0x28 0 [] else s
    let s := s.onVault fun v => { v with installed := match p.key with
      | .key k => v.installed.filter fun w => 16 + w.val != k.val
      | _ => v.installed }
    s.onEngine fun e => { e with writing := e.writing.filter fun h => h != f.hand }
  | .trim handle f =>
    match opOf s handle.toNat with
    | none => s
    | some o =>
      let s := pulseFinal s f (trimX s o) 0x28
      onOp s handle.toNat fun x => if x.state.live then
        { x with state := .running, reason := 3, committing := false, gated := false, commit := none, since := s.clock.age, timing := true } else x
  | .curve _ | .repair _ | .mirrorWard _ | .seatRecord => again s
  | .claim | .firstDigest => s

/-- VAULT_WRITE_END (R515, R518, Table 17.4): the running programme pulse ends. It needs VAN and no shell (R144). -/
def execVaultWriteEnd (good : Bool) (s : State) : Out :=
  match s.vault.pulses with
  | [] => .next s
  | p :: rest => .next <| whenDue (s.supply.good.contains .van || s.supply.kindle == .ember) (fun s =>
      let s := s.onVault fun v => { v with pulses := rest }
      if good then pulseGood s p else pulseBad s p) s

/-! ## Countersigns and proposals -/

/-- COUNTERSIGN_EXPIRY (R476, R492): more than 5 s after the 0x03 response; a halted engine answers at its resume (Table 21.6). -/
def execCountersignExpiry (h : Fin 16) (s : State) : Out :=
  match s.engine.awaiting.find? fun a => a.f.hand == h with
  | none => .next s
  | some a =>
    .next <| whenDue (a.at_.toNat + 15000000000 < s.clock.counter.toNat && !halted s 3) (fun s =>
      let s := s.onEngine fun e => { e with awaiting := e.awaiting.filter fun x => x.f.hand != h }
      let s := finalResponse s a.f (some a.digest) 0x24 []
      raise s 0x0E05 0x60 (beBytes 2 (opcodeOf a.f) ++ beBytes 4 a.f.seq.toNat) h.val (some h.val)) s

/-- PROPOSAL_LAPSE (R528, R537): lapsed proposals are removed. -/
def execProposalLapse (s : State) : Out :=
  .next (s.onEngine fun e => { e with proposals := liveProposals s })

/-! ## COMMISSION, the claim, WARD_LOCK (R524 to R527, R531) -/

/-- COMMISSION_CHANGE (R531): the filtered level. -/
def execCommissionChange (high : Bool) (s : State) : Out := .next (s.onVault fun v => { v with commission := high })

/-- Warden keys installed, a first installation whose write runs among them (R540). -/
def wardensCounted (s : State) : Nat :=
  ((List.finRange 4).filter fun w => wardenInstalled s w
    || s.vault.pulses.any fun p => p.key == .key (Fin.ofNat 20 (16 + w.val)) && (match p.why with | .install _ => true | _ => false)).length

/-- VAULT_CLAIM (R526, R518): the fourth warden key is in, or COMMISSION is low at a trick boundary with two; the protection record is
written. -/
def execVaultClaim (s : State) : Out :=
  .next <| whenDue (shellRuns s && s.straps.resolved && !vaultClaimed s.vault && energyOk s 15
      && (wardenKeys s == 4 || (atTrick s && !s.vault.commission && 2 ≤ wardensCounted s))) (fun s =>
    let n := wardensCounted s
    let s := s.onVault fun v =>
      { v with pulses := v.pulses ++ [{ key := .protection, data := protectionBytes true s.straps.digest none, why := .claim }] }
    raise s 0x1001 0x70 (beBytes 1 n)) s

/-- WARD_LOCK_CHANGE (R531, R489, R618): going high discards every proposal, ends every awaiting command with 0x23 and the debug
session. -/
def execWardLockChange (high : Bool) (s : State) : Out :=
  let s := s.onVault fun v => { v with wardLock := high }
  .next (if high && shellRuns s then
      closeSession ((endAwaiting s 0x23).onEngine fun e => { e with proposals := [] }) 4
    else s)

end Sys2Proof.Machine
end

