-- ==== Sys2Proof/Machine/OpCommands.lean ====
section
/-! DEFINITION. The commands TRIM, CURVE, MEM, TWIN and OP (14, 13, 11, 18, 16; bodies in 15_command_set.md, Table 15.6). -/

namespace Sys2Proof.Machine

/-! ## Handles (R496) -/

/-- The handle of a body's first two bytes. -/
def handleArg (f : CmdFrame) : Nat := bodyField f 0 2

/-- The command's operation, where the record is its hand's. -/
def ownOp (s : State) (f : CmdFrame) : Option Op :=
  match opOf s (handleArg f) with
  | some o => if o.hand == f.hand then some o else none
  | none => none

/-- A condition on the command's own operation; 0x27 where there is none. -/
def withOp (s : State) (f : CmdFrame) (g : Op → Option Nat) : Option Nat :=
  match ownOp s f with
  | some o => g o
  | none => some 0x27

/-- The channel of a trim operation. -/
def trimChan (o : Op) : Option (Fin 24) :=
  match o.opcode.toNat, o.object with
  | 0x0D01, .chan n => some n
  | _, _ => none

/-- The ownership check of TRIM.POINT and TRIM.COMMIT, by the operation's channel (R481). -/
def trimWard (f : CmdFrame) (s : State) : Option Nat :=
  match (ownOp s f).bind trimChan with
  | some n => checkChan s f n false
  | none => none

/-! ## TRIM (R452 to R454) -/

/-- A CH.RESTRAP of the channel runs, waits, or has not taken effect (Table 19.3). -/
def restrapping (s : State) (n : Fin 24) : Bool := underRestrap s n || (s.chan n).restrap

/-- TRIM.START. -/
def trimStartCmd : Cmd := { Cmd.plain 0x0D01 with
  ward := chanWard false
  body := fun f s =>
    firstFail [failIf (bodyMalformed f 12 [0, 1, 4, 5, 6, 7, 8, 9, 10, 11]) 0x14,
      failIf (24 ≤ bodyByte f 0 || 1 < bodyByte f 1 || ((s.chan (chanArg f)).profile.isSome && (outProfile s (chanArg f)).isNone)) 0x16]
  own := fun f s =>
    firstFail [failIf (capped (s.chan (chanArg f))) 0x20, failIf (restrapping s (chanArg f)) 0x28, opLimit s f.hand]
  run := fun f s => created (createOp s f (.chan (chanArg f)) false) }

/-- The point a TRIM.POINT gives a value for, and the progress of the wait for it. -/
def pointWait (k : Nat) : Nat := if k == 1 then 3 else 5

/-- TRIM.POINT: a value for the point the trim waits for. -/
def trimPointCmd : Cmd := { Cmd.plain 0x0D02 with
  ward := trimWard
  body := fun f _ => firstFail [failIf (bodyMalformed f 8 [0, 1, 2, 4, 5, 6, 7]) 0x14, failIf (bodyByte f 2 == 0 || 2 < bodyByte f 2) 0x16]
  own := fun f s => withOp s f fun o =>
    if (trimChan o).isNone then some 0x27
    else failIf (o.state != .running || o.progress.toNat != pointWait (bodyByte f 2)) 0x28
  run := fun f s =>
    match ownOp s f with
    | none => (.now 0x27 0 [], s)
    | some o =>
      match trimChan o with
      | none => (.now 0x27 0 [], s)
      | some n =>
        let m := signed 32 (bodyField f 4 4)
        let h := o.handle.toNat
        (.now 0 0 [],
          if bodyByte f 2 == 1 then
            drivePoint (onOp s h fun x => { x with m1 := m, progress := 4, reason := 0, timing := false }) n
              (trimPoint (isVoltage (s.chan n)) 2)
          else
            let k : Op := { o with m2 := m, progress := 6, reason := 0, timing := false }
            trimCompute (onOp s h fun _ => k) k n true (bodyField o.f 4 4) (bodyField o.f 8 4)) }

/-- A trim waits for TRIM.COMMIT. -/
def waitsCommit (o : Op) : Bool := o.state == .running && o.progress == 7 && o.reason == 3

/-- TRIM.COMMIT's conditions (R452, R454). -/
def trimCommitOwn (f : CmdFrame) (s : State) : Option Nat :=
  withOp s f fun o =>
    match trimChan o with
    | none => some 0x27
    | some n => firstFail [failIf (!waitsCommit o) 0x28, failIf (vaultFull s (.trim n)) 0x22]

/-- TRIM.COMMIT: at its execution the commit step waits for its energy check at a trick boundary (Table 16.2). -/
def trimCommitCmd : Cmd := { Cmd.plain 0x0D03 with
  cs := always
  ward := trimWard
  body := fun f _ => failIf ((cmdBody f).length != 2) 0x14
  own := trimCommitOwn
  x := fun f s => match ownOp s f with
    | some o => trimX s o
    | none => []
  run := fun f s =>
    (.later, onOp s (handleArg f) fun o =>
      let k : Op := { o with state := .queued, gated := true, commit := some f, timing := false }
      { k with reason := BitVec.ofNat 8 (opReason s k) }) }

/-! ## CURVE.LOAD, MEM.REPAIR, MEM.SWEEP -/

/-- The slot of a curve block. -/
def curveSlot (b : List Byte) : Fin 16 := Fin.ofNat 16 (byteAt b 1)

/-- CURVE.LOAD. -/
def curveLoadCmd : Cmd := { Cmd.plain 0x0E01 with
  cs := always
  body := fun f _ => failIf ((cmdBody f).length != 520) 0x14
  own := fun f s =>
    firstFail [opLimit s f.hand, failIf (32 ≤ bodyByte f 1 && bodyByte f 1 < 48 && vaultFull s (.curve (curveSlot (cmdBody f)))) 0x22]
  run := fun f s => created (createOp s f (.slot (curveSlot (cmdBody f))) true) }

/-- The row a MEM.REPAIR names, as the bank's remap table holds it. -/
def repairEntry (s : State) (f : CmdFrame) : Option Remap := remapOf s.mem (bodyByte f 0) (bodyField f 2 2)

/-- MEM.REPAIR has nothing left to do (R585). -/
def repairNothing (s : State) (f : CmdFrame) : Bool :=
  match repairEntry s f with
  | some e => !bit (bodyByte f 4) 0 || e.persistent
  | none => false

/-- MEM.REPAIR. -/
def memRepairCmd : Cmd := { Cmd.plain 0x0F01 with
  cs := fun f s => bit (bodyByte f 4) 0 && !repairNothing s f
  body := fun f _ =>
    firstFail [failIf (bodyMalformed f 5 [0, 2, 3, 4] || 1 < bodyByte f 4) 0x14, failIf (64 ≤ bodyByte f 0 || 512 ≤ bodyField f 2 2) 0x16]
  own := fun f s => opLimit s f.hand
  run := fun f s =>
    let persist := bit (bodyByte f 4) 0
    let r := createOp s f (.bank (Fin.ofNat 64 (bodyByte f 0))) (persist && (repairEntry s f).isSome)
    if repairNothing s f then created (r.1, opEnd r.2 r.1.toNat .done 0) else created r }

/-- MEM.SWEEP. -/
def memSweepCmd : Cmd := { Cmd.plain 0x0F02 with
  own := fun f s => opLimit s f.hand
  run := fun f s => created (createOp s f .sweep true) }

/-! ## TWIN (R569, R571, R576) -/

/-- The seat state the partner's frames show. -/
def partnerState (s : State) : Option Nat := s.seat.partner.map fun p => p.state.toNat

/-- A CH.RESTRAP has begun and not taken effect (Table 19.3). -/
def anyRestrap (s : State) : Bool := (List.finRange 24).any (restrapping s)

/-- TWIN.MIRROR. -/
def twinMirrorCmd : Cmd := { Cmd.plain 0x1001 with
  own := fun f s =>
    firstFail [failIf (!(s.seat.state == .seated || s.seat.state == .alone) || !s.seat.locked || partnerState s != some 2) 0x28,
               failIf (anyRestrap s) 0x28, opLimit s f.hand]
  run := fun f s => created (createOp s f .seat true) }

/-- TWIN.RELEASE's conditions: both chips Seated, no Forced alarm at the partner, no release of either chip under way (R571, R576). -/
def twinReleaseOwn (_ : CmdFrame) (s : State) : Option Nat :=
  let ok := match s.seat.partner with
    | some p => p.state == 4 && p.falm == 0 && !p.flags.toNat.testBit 5
    | none => false
  failIf (s.seat.state != .seated || !s.seat.locked || !ok || s.seat.release.isSome) 0x28

/-- TWIN.RELEASE: the release request is set; the final response follows when the partner has taken over (R571). -/
def twinReleaseCmd : Cmd := { Cmd.plain 0x1002 with
  cs := always
  own := twinReleaseOwn
  run := fun f s => (.later, s.onSeat fun t => { t with release := some f }) }

/-! ## OP (R498, R500) -/

/-- One handle. -/
def handleBody (f : CmdFrame) (_ : State) : Option Nat := failIf ((cmdBody f).length != 2) 0x14

/-- OP.STATUS (Table 15.6). -/
def opStatusCmd : Cmd := { Cmd.plain 0x1401 with
  body := handleBody
  own := fun f s => withOp s f fun _ => none
  run := fun f s =>
    match ownOp s f with
    | none => (.now 0x27 0 [], s)
    | some o =>
      (.now 0 0 (beBytes 2 o.handle.toNat ++ beBytes 1 o.state.num ++ [o.reason] ++ beBytes 2 o.opcode.toNat
        ++ beBytes 2 o.progress.toNat), s) }

/-- A suspend point of a Running operation remains (Table 16.3). -/
def canSuspend (s : State) (o : Op) : Bool :=
  match o.opcode.toNat with
  | 0x0705 => o.progress.toNat < 0x2000 && !flushStopping s o.handle
  | 0x0D01 => !o.committing
  | 0x0F02 => true
  | 0x1001 => o.progress.toNat < 41
  | _ => false

/-- OP.SUSPEND on the operation: at once on a Queued one and at a wait of a trim, else at the next suspend point. -/
def suspendOp (s : State) (o : Op) : State :=
  let h := o.handle.toNat
  if o.state == .queued then opEnter s h .suspended 0x04
  else match trimChan o with
    | some n => if o.reason == 3 then suspendTrim s h n else onOp s h fun x => { x with suspendPending := true }
    | none => onOp s h fun x => { x with suspendPending := !x.cancelPending }

/-- OP.SUSPEND. -/
def opSuspendCmd : Cmd := { Cmd.plain 0x1402 with
  body := handleBody
  own := fun f s => withOp s f fun o =>
    failIf (!(o.state == .queued || (o.state == .running && canSuspend s o))) 0x28
  run := fun f s =>
    (.now 0 0 [], match ownOp s f with
      | some o => suspendOp s o
      | none => s) }

/-- OP.RESUME on the operation. -/
def resumeOp (s : State) (o : Op) : State :=
  onOp s o.handle.toNat fun x =>
    if x.state == .suspended then
      let k : Op := { x with state := .queued, timing := false }
      { k with reason := BitVec.ofNat 8 (opReason s k) }
    else { x with suspendPending := false }

/-- OP.RESUME. A flush whose stop drains goes on draining. -/
def opResumeCmd : Cmd := { Cmd.plain 0x1403 with
  body := handleBody
  own := fun f s => withOp s f fun o =>
    failIf (!((o.state == .suspended && !flushStopping s o.handle) || (o.state == .running && o.suspendPending))) 0x28
  run := fun f s =>
    (.now 0 0 [], match ownOp s f with
      | some o => resumeOp s o
      | none => s) }

/-- A cancel point remains (Table 16.3). -/
def canCancel (s : State) (o : Op) : Bool :=
  match o.state with
  | .queued => true
  | .suspended => !flushStopping s o.handle
  | .running => canSuspend s o
  | _ => false

/-- OP.CANCEL on the operation: at once where it is Queued or Suspended and on a trim, else at the next cancel point. -/
def cancelOp (s : State) (o : Op) : State :=
  if o.state == .running && (trimChan o).isNone then
    onOp s o.handle.toNat fun x => { x with cancelPending := true, suspendPending := false }
  else opRollback s o .cancelled 0x10

/-- OP.CANCEL. -/
def opCancelCmd : Cmd := { Cmd.plain 0x1404 with
  body := handleBody
  own := fun f s => withOp s f fun o => failIf (!canCancel s o) 0x28
  run := fun f s =>
    (.now 0 0 [], match ownOp s f with
      | some o => cancelOp s o
      | none => s) }

/-! ## The rows -/

/-- TRIM_START (R452). -/
def execTrimStart (f : CmdFrame) (s : State) : Out := .next (runCommand trimStartCmd f s)
/-- TRIM_POINT (R452, R453). -/
def execTrimPoint (f : CmdFrame) (s : State) : Out := .next (runCommand trimPointCmd f s)
/-- TRIM_COMMIT (R452, R454, R477). -/
def execTrimCommit (f : CmdFrame) (s : State) : Out := .next (runCommand trimCommitCmd f s)
/-- CURVE_LOAD (R419, R420). -/
def execCurveLoad (f : CmdFrame) (s : State) : Out := .next (runCommand curveLoadCmd f s)
/-- MEM_REPAIR (R359, R585). -/
def execMemRepair (f : CmdFrame) (s : State) : Out := .next (runCommand memRepairCmd f s)
/-- MEM_SWEEP (R360). -/
def execMemSweep (f : CmdFrame) (s : State) : Out := .next (runCommand memSweepCmd f s)
/-- TWIN_MIRROR (R569). -/
def execTwinMirror (f : CmdFrame) (s : State) : Out := .next (runCommand twinMirrorCmd f s)
/-- TWIN_RELEASE (R571, R576). -/
def execTwinRelease (f : CmdFrame) (s : State) : Out := .next (runCommand twinReleaseCmd f s)
/-- OP_STATUS (R498). -/
def execOpStatus (f : CmdFrame) (s : State) : Out := .next (runCommand opStatusCmd f s)
/-- OP_SUSPEND (R500). -/
def execOpSuspend (f : CmdFrame) (s : State) : Out := .next (runCommand opSuspendCmd f s)
/-- OP_RESUME (R500, R501). -/
def execOpResume (f : CmdFrame) (s : State) : Out := .next (runCommand opResumeCmd f s)
/-- OP_CANCEL (R500, R508). -/
def execOpCancel (f : CmdFrame) (s : State) : Out := .next (runCommand opCancelCmd f s)

end Sys2Proof.Machine
end

