-- ==== Sys2Proof/Machine/TwinSeat.lean ====
section
/-! DEFINITION. The rows of the twin seat (18_twin_seat.md): seat frames, training, mirroring, lead, handback, takeover and release. -/

namespace Sys2Proof.Machine

/-! ## Mirror blocks (R569, Table 18.6) -/

/-- A pending value as a block carries it. -/
def pendBytes (p : PendOut) : List Byte := valueBytes p.value ++ beBytes 8 p.at_.toNat ++ beBytes 8 p.accepted.toNat

/-- The `AD_DIR` value of an override. -/
def dirByte (d : Option Bool) : Byte :=
  match d with
  | some false => 1
  | some true => 2
  | none => 0

/-- The data of blocks 0 to 40. -/
def blockData (s : State) (n : Nat) : List Byte :=
  if n == 0 then (digestMessage s.straps.codes s.straps.almSel s.straps.dbgEn).take 72
  else if n ≤ 16 then padTo 16 (wardEntry s.vault (n - 1)) ++ stationBytes (s.hand (Fin.ofNat 16 (n - 1)))
  else
    let ch : Fin 24 := Fin.ofNat 24 (n - 17)
    let c := s.chan ch
    seatRecord s ch ++ (c.pending.take 4).flatMap pendBytes ++ [dirByte (c.overrideNext.getD c.override)]

/-- Block 41: the block count and the CRC of the others. -/
def lastBlock (bs : List Byte) : List Byte := [42] ++ beBytes 4 (crc32 bs).toNat

/-- The data of the blocks 0 to 40 a sender has given: kept in its own workspace as they were sent. -/
def blocksSent (s : State) : List Byte := (List.range 41).flatMap fun n => (sparseGet s.seat.blocks n).getD []

/-- Queue the next block of the mirror; a block sent again carries what it carried before. -/
def sendBlock (s : State) : State :=
  let n := s.seat.confirmed
  let d := match sparseGet s.seat.blocks n with
    | some d => d
    | none => if n == 41 then lastBlock (blocksSent s) else blockData s n
  let s := mirrorPut s 0x06 (beBytes 1 n ++ beBytes 2 d.length ++ d)
  s.onSeat fun t => { t with blocks := sparseSet n d t.blocks, mirrorAt := some s.clock.age }

/-- A mirror operation starts at block 0, or goes on at its position. -/
def mirrorBegin (s : State) (fresh : Bool) : State :=
  sendBlock (if fresh then s.onSeat fun t => { t with blocks := [], confirmed := 0 } else s)

/-- The mirror that runs. -/
def mirrorOp (s : State) : Option Op := s.engine.ops.find? fun o => o.opcode == 0x1001 && o.state == .running

/-- BLOCK_ACK at the sender: a block boundary of the operation (Table 16.3). -/
def blockAcked (s : State) (n : Nat) : State :=
  match mirrorOp s with
  | none => s
  | some o =>
    let h := o.handle.toNat
    if n != s.seat.confirmed then s
    else
      let s := (onOp s h fun x => { x with progress := BitVec.ofNat 16 (n + 1) }).onSeat fun t => { t with confirmed := n + 1 }
      if 41 ≤ n then opEnd (s.onSeat fun t => { t with mirrored := true, blocks := [], mirrorAt := none }) h .done 0
      else if halted s 3 then s
      else if o.cancelPending then opRollback (s.onSeat fun t => { t with blocks := [] }) o .cancelled 0x10
      else if o.suspendPending then opEnter s h .suspended 0x04
      else sendBlock s

/-! ## Changes of the partner (R565, R567) -/

/-- A value of the partner's joins the pending list, or applies at once where its A has passed (R567); a value older than the one
applied does not undo it. Of two of equal A the later accepted stays, then that of seat-first. -/
def mirrorValue (s : State) (n : Fin 24) (p : PendOut) : State :=
  let c := s.chan n
  let mineFirst := twinOf s.straps.codes == some 1
  let loses := c.pending.any fun x => x.at_ == p.at_
    && (p.accepted.toNat < x.accepted.toNat || (p.accepted == x.accepted && mineFirst))
  if loses then s
  else if p.at_.toNat ≤ s.clock.counter.toNat then
    let old : Bool := match c.lastApply with
      | some t => p.at_.toNat < t.toNat
      | none => false
    if old then s
    else
      let late := s.clock.counter.toNat - p.at_.toNat
      let a := match c.profile with
        | some q => allowance q
        | none => 0
      let s := s.onSeat fun t => { t with disarmed := sparseSet n.val (s.clock.age + BitVec.ofNat 64 (a - late)) t.disarmed }
      applyOut (s.onChan n fun c => { c with pending := c.pending.filter fun x => x.at_ != p.at_ }) n p.value p.at_
  else s.onChan n fun c => { c with pending := (insertPending p c.pending).take 4 }

/-- The hand that owns a channel, 0 where none does. -/
def ownerOfChan (s : State) (n : Fin 24) : Fin 16 := ((List.finRange 16).find? fun h => ownsChan s h.val n.val).getD 0

/-- A value, A and acceptance tick as a message or block carries them. -/
def readPend (s : State) (n : Fin 24) (b : List Byte) : PendOut where
  value := signed 24 (fieldAt b 0 3)
  at_ := BitVec.ofNat 64 (fieldAt b 3 8)
  accepted := BitVec.ofNat 64 (fieldAt b 11 8)
  hand := ownerOfChan s n

/-- Stations as STATIONS carries them. -/
def mirrorStationsIn (s : State) (h : Fin 16) (b : List Byte) : State :=
  let m : Tag := BitVec.ofNat 48 (fieldAt b 0 6)
  s.onHand h fun r =>
    { r with master := if m == 0 then none else some m,
             observers := (List.range (min 3 (byteAt b 6))).map fun i => BitVec.ofNat 48 (fieldAt b (8 + 6 * i) 6),
             obsTa := bit (byteAt b 7) 0, obsTb := bit (byteAt b 7) 1 }

/-- A ward entry of the partner's judges at once and waits for its write (R567). -/
def mirrorWardIn (s : State) (h : Nat) (e : List Byte) : State :=
  s.onVault fun v => { v with wardNext := sparseSet (h % 16) e v.wardNext }

/-- A mirrored change is applied as if executed here. -/
def applyChange (s : State) (kind : Nat) (b : List Byte) : State :=
  let n : Fin 24 := Fin.ofNat 24 (byteAt b 0)
  match kind with
  | 1 => mirrorValue s n (readPend s n (b.drop 1))
  | 2 => s.onChan n fun c => { c with pending := c.pending.filter fun x => x.at_.toNat != fieldAt b 1 8 }
  | 3 => s.onChan n fun c => { c with overrideNext := some (adDir (byteAt b 1)) }
  | 4 => mirrorStationsIn s (Fin.ofNat 16 (byteAt b 0)) (b.drop 1)
  | 5 => mirrorWardIn s (byteAt b 0) (padTo 16 (b.drop 1))
  | _ => s

/-! ## The receiver of a mirror (R569) -/

/-- Block 0: a channel whose strap codes differ is capped, with its event. -/
def compareStraps (s : State) (d : List Byte) : State :=
  let own := digestMessage s.straps.codes s.straps.almSel s.straps.dbgEn
  s.each (List.finRange 24) fun n s =>
    let at_ := fun (b : List Byte) => [b.getD (pinCpa + n.val) 0, b.getD (pinCpb + n.val) 0]
    if at_ own == at_ d then s
    else
      let s := raise s 0x1107 0x22 (beBytes 1 n.val ++ at_ own ++ at_ d) n.val
      capChannel (s.onChan n fun c => { c with capTwin := true }) n

/-- One part of the workspace takes effect: a block, or a change that followed it. -/
def applyBlock41 (e : Nat × List Byte) (s : State) : State :=
  let n := e.1
  let d := e.2
  if 256 ≤ n then applyChange s (n - 256) d
  else if n == 0 then compareStraps s d
  else if n ≤ 16 then
    let s := if padTo 16 (wardEntry s.vault (n - 1)) == d.take 16 then s else mirrorWardIn s (n - 1) (d.take 16)
    mirrorStationsIn s (Fin.ofNat 16 (n - 1)) (d.drop 16)
  else if n ≤ 40 then
    let ch : Fin 24 := Fin.ofNat 24 (n - 17)
    let k := (d.length - 5) / 19
    s.onChan ch fun c =>
      { c with applied := signed 24 (fieldAt d 0 3), commanded := !bit (byteAt d 3) 0,
               pending := (List.range (min k 4)).map fun i => readPend s ch (d.drop (4 + 19 * i)),
               overrideNext := some (adDir (byteAt d (d.length - 1))) }
  else s

/-- The workspace holds every block and block 41 agrees. -/
def blocksGood (s : State) (last : List Byte) : Bool :=
  ((List.range 41).all fun n => (sparseGet s.seat.blocks n).isSome) && last == lastBlock (blocksSent s)

/-- Block 41 has been applied: later changes act at once. -/
def blocksApplied (s : State) : Bool := s.seat.blocks.any fun e => e.1 == 41

/-- A BLOCK message at a stranger or in Mirroring (Table 18.2). -/
def blockIn (s : State) (b : List Byte) : State :=
  let n := byteAt b 0
  let d := b.drop 3
  if 41 < n || fieldAt b 1 2 != d.length || !(s.seat.state == .stranger || s.seat.state == .mirroring) then s
  else
    let s := if s.seat.state == .stranger then (seatEnter s .mirroring).onSeat fun t => { t with blocks := [] } else s
    let s := s.onSeat fun t => { t with mirrorAt := some s.clock.age }
    if n == 41 then
      if blocksApplied s then (if s.seat.ackDue then s else mirrorPut s 0x07 [41])
      else if blocksGood s d then
        (s.each s.seat.blocks applyBlock41).onSeat fun t => { t with blocks := t.blocks ++ [(41, d)], ackDue := true }
      else s
    else
      let keep := if n == 0 then [] else s.seat.blocks.filter fun e => e.1 != n
      let s := s.onSeat fun t => { t with blocks := keep ++ [(n, d)], ackDue := false, mirrorGot := n != 0 && t.mirrorGot }
      mirrorPut s 0x07 [BitVec.ofNat 8 n]

/-- One mirror message of the partner, in order (R566). -/
def mirrorIn (s : State) (kind : Nat) (b : List Byte) : State :=
  match kind with
  | 6 => blockIn s b
  | 7 => blockAcked s (byteAt b 0)
  | _ =>
    if s.seat.state == .mirroring && !blocksApplied s then
      (if s.seat.blocks.isEmpty then s else s.onSeat fun t => { t with blocks := t.blocks ++ [(256 + kind, b)] })
    else if s.seat.state == .seated || s.seat.state == .mirroring then applyChange s kind b
    else s

/-- Take the messages of `SL_MIRROR`: one out of order is left for its resend. -/
def mirrorMessages : Nat → List Byte → State → State
  | 0, _, s => s
  | f + 1, bs, s =>
    let kind := byteAt bs 0
    if kind == 0 || 7 < kind || bs.length < 3 then s
    else
      let n := byteAt bs 2
      let s := if byteAt bs 1 == (s.seat.mmAck + 1).toNat then
          mirrorIn (s.onSeat fun t => { t with mmAck := t.mmAck + 1 }) kind (slice bs 3 n)
        else s
      mirrorMessages f (bs.drop (3 + n)) s

/-! ## SEAT_FRAME_SEND (R551) -/

/-- The acknowledgement of block 41 follows the ward writes (R569). -/
def ackLast (s : State) : State :=
  if s.seat.ackDue && s.vault.wardNext.isEmpty then
    (mirrorPut s 0x07 [41]).onSeat fun t => { t with ackDue := false, mirrorGot := true, mirrored := true }
  else s

/-- A mirror that has stayed still for longer than a suspension can last is over: its blocks are discarded (Table 18.2). -/
def mirrorGone (s : State) : State :=
  let still : Bool := match s.seat.mirrorAt with
    | some t => 180000000000 < since s t
    | none => false
  if s.seat.state == .mirroring && !blocksApplied s && still then
    (seatEnter s .stranger).onSeat fun t => { t with blocks := [], mirrorAt := none }
  else s

/-- SEAT_FRAME_SEND (R551, R566): at a symbol boundary, from Joining on. A symbol without a good frame is counted here (R552). -/
def execSeatFrameSend (s : State) : Out :=
  .next <| whenDue (isTwin s && atSymbol s && (s.supply.kindle == .joining || s.supply.kindle == .up)) (fun s =>
    let s := mirrorGone (ackLast s)
    let ms := mirrorFit 320 s.seat.out
    let b := seatFrame s false ms
    s.onSeat fun t =>
      { t with
        frame := b, seq := t.seq + 1,
        out := t.out.map fun (m : Mirror) => if ms.any (fun x => x.seq == m.seq) then { m with sent := some s.clock.line } else m,
        good := if t.bad != 0 && !t.locked then 0 else t.good,
        bad := min 16 (t.bad + 1) }) s

/-! ## SEAT_FRAME_RECEIVE (R552 to R555) -/

/-- The fields of a seat frame (Table 18.1). -/
def readFrame (b : List Byte) : Partner where
  state := BitVec.ofNat 4 (byteAt b 4)
  seq := BitVec.ofNat 8 (byteAt b 5)
  die := BitVec.ofNat 64 (fieldAt b 6 8)
  digest := BitVec.ofNat 64 (fieldAt b 14 8)
  tier := BitVec.ofNat 3 (byteAt b 22 / 32)
  twin := BitVec.ofNat 2 (byteAt b 22)
  flags := BitVec.ofNat 8 (byteAt b 23)
  tick := BitVec.ofNat 64 (fieldAt b 24 8)
  timeQ := BitVec.ofNat 4 (byteAt b 33 / 16)
  active := BitVec.ofNat 24 (fieldAt b 34 3)
  carry := BitVec.ofNat 24 (fieldAt b 37 3)
  share := BitVec.ofNat 24 (fieldAt b 40 3)
  falm := BitVec.ofNat 24 (fieldAt b 43 3)
  mmAck := BitVec.ofNat 8 (byteAt b 46)
  chans := (List.range 24).map fun n =>
    { target := signed 24 (fieldAt b (48 + 8 * n) 3), flags := BitVec.ofNat 8 (byteAt b (51 + 8 * n)),
      cal := BitVec.ofNat 32 (fieldAt b (52 + 8 * n) 4) }

/-- A frame that is discarded: length, sync, CRC, version, or a reserved seat state (R555, Table 18.7). -/
def frameBad (b : List Byte) : Bool :=
  b.length != 576 || fieldAt b 0 4 != 0x3A5C96F1 || fieldAt b 572 4 != (crc32 (slice b 4 568)).toNat
  || byteAt b 4 / 16 != 1 || 7 ≤ byteAt b 4 % 16

/-- A flag of the partner's last frame. -/
def partnerFlag (s : State) (i : Nat) : Bool :=
  match s.seat.partner with
  | some p => p.flags.toNat.testBit i
  | none => false

/-- The partner is the one the seat record names. -/
def recognised (s : State) : Bool := namesYou s

/-- The partner's identity, 0 before its first frame. -/
def partnerDie (s : State) : BitVec 64 := (s.seat.partner.map (·.die)).getD 0

/-- Training (R553, R532, Table 18.2): the one judgement of the partner's identity. -/
def train (s : State) : State :=
  let s := s.onSeat fun t => { t with trained := true }
  if recognised s && !s.tiers.stranger then seatEnter s (if partnerFlag s 7 then .seated else .alone)
  else
    let s := if s.tiers.stranger then s
      else match seatPartner s.vault with
        | some d => makeStranger s 3 d (partnerDie s)
        | none => makeStranger s 2 0 (partnerDie s)
    seatEnter s .stranger

/-- A relock (Table 18.2): no stranger judgement. A partner that is a stranger, mirroring or released is not seated. -/
def relock (s : State) : State :=
  let there := match partnerState s with
    | some k => k != 2 && k != 3 && k != 6
    | none => false
  match s.seat.state with
  | .alone =>
    if !recognised s then raise s 0x1104 0x22 (beBytes 8 (partnerDie s).toNat)
    else if partnerFlag s 7 && there then seatEnter s .seated
    else s
  | .seated =>
    if recognised s && partnerFlag s 7 then s
    else
      let s := seatEnter s .alone
      if recognised s then s else raise s 0x1104 0x22 (beBytes 8 (partnerDie s).toNat)
  | _ => s

/-- The link locks: messages are numbered on from what the partner acknowledges, and the faults of an absent partner clear. -/
def lockLink (s : State) : State :=
  let ack := (s.seat.partner.map (·.mmAck)).getD 0
  let s := s.onSeat fun t =>
    { t with
      locked := true, mmSeq := ack + BitVec.ofNat 8 t.out.length,
      out := (List.range t.out.length).zipWith (fun i (m : Mirror) => { m with seq := ack + BitVec.ofNat 8 (i + 1), sent := none }) t.out }
  let s := clearLatching (clearLatching s 0x1102 0x22 0 (beBytes 1 (s.seat.partner.elim 0 fun p => p.tier.toNat))) 0x1103 0x22 0 []
  let s := if recognised s then clearLatching s 0x1104 0x22 0 (beBytes 8 (partnerDie s).toNat) else s
  if s.seat.trained || s.seat.windowOver then relock s else s

/-- What a locked partner's state brings about (Table 18.2, R570, R571). -/
def followPartner (s : State) : State :=
  let s := if !s.seat.trained && !s.seat.windowOver && s.supply.kindle == .up && s.seat.state == .unpaired then train s else s
  match s.seat.state with
  | .seated => if partnerFlag s 5 then seatEnter s .alone else s
  | .alone =>
    if partnerFlag s 7 && !recognised s then s.onSeat fun t => { t with rewriteDue := true } else s
  | .mirroring =>
    if recognised s && !s.tiers.stranger && s.seat.mirrorGot && partnerFlag s 7 then
      (seatEnter s .seated).onSeat fun t => { t with blocks := [], mirrorAt := none }
    else s
  | _ => s

/-- Time disagreement of the twins (Table 18.7); the frame takes 9,216 ticks. -/
def twinTime (s : State) (p : Partner) : State :=
  let q := fun (x : BitVec 4) => x == 2 || x == 4
  let d : Int := (p.tick.toNat : Int) + 9216 - s.clock.counter.toNat
  if q p.timeQ && q (timeQ s) && (d < -12 || 12 < d) then raise s 0x0407 0x22 (beBytes 1 2 ++ beBytes 4 (unsigned 32 d)) else s

/-- SEAT_FRAME_RECEIVE (R551 to R556, R565 to R571): 576 bytes as they came. -/
def execSeatFrameReceive (bytes : List Byte) (s : State) : Out :=
  let b := seatScramble bytes
  .next <|
    if !isTwin s || !(s.supply.kindle == .joining || s.supply.kindle == .up) || frameBad b then s
    else
      let p := readFrame b
      let s := s.onSeat fun t => { t with partner := some p, bad := 0, good := min 64 (t.good + 1) }
      let s := if !s.seat.locked && s.seat.good == 64 then lockLink s else s
      if !s.seat.locked then s
      else
        let s := s.onSeat fun t =>
          { t with out := t.out.filter fun m => let d := (m.seq - p.mmAck).toNat; 1 ≤ d && d ≤ 128 }
        followPartner (mirrorMessages 107 (slice b 240 320) (twinTime s p))

/-! ## The other rows -/

/-- The mirror operation fails with the seat link (Table 16.1). -/
def mirrorFails (s : State) : State :=
  let s := endOps s (fun o => o.opcode == 0x1001 && o.holds) .failed 0x27
  s.onSeat fun t => { t with mirrorAt := none }

/-- A release under way ends without its partner: the final response is 0x28. -/
def releaseFails (s : State) : State :=
  match s.seat.release with
  | none => s
  | some f => finalResponse (s.onSeat fun t => { t with release := none }) f (some (changeDigest s f [])) 0x28 []

/-- HEARTBEAT_LOSS (R552, R555, R572): 16 symbols without a good frame. -/
def execHeartbeatLoss (s : State) : Out :=
  .next <| whenDue (isTwin s && shellRuns s && s.seat.locked && 16 ≤ s.seat.bad) (fun s =>
    let s := releaseFails (mirrorFails s)
    let s := s.onSeat fun t => { t with locked := false, good := 0, out := [] }
    match s.seat.state with
    | .seated =>
      let tier := if partnerFlag s 3 then Tier.banked.rank else s.seat.partner.elim 0 fun p => p.tier.toNat
      let s := if partnerFlag s 4 then s else raise s 0x1102 0x22 (beBytes 1 tier)
      seatEnter s .alone
    | .mirroring => (seatEnter s .stranger).onSeat fun t => { t with blocks := [], ackDue := false, mirrorGot := false }
    | _ => s) s

/-- PAIRING_WINDOW_END (R553, R555): 1 s after Pass-through with the link unlocked. A seated chip woken from ember whose link does not
lock again goes Alone in the same way. -/
def execPairingWindowEnd (s : State) : Out :=
  let waits := (s.seat.state == .unpaired && !s.seat.windowOver) || s.seat.state == .seated
  .next <| whenDue (isTwin s && s.supply.kindle == .up && waits && !s.seat.locked && 3000000000 ≤ since s s.seat.windowAt) (fun s =>
    let s := s.onSeat fun t => { t with windowOver := true }
    if s.tiers.stranger then s else seatEnter (raise s 0x1103 0x22 []) .alone) s

/-- The lead bit of the last seat frame sent. -/
def shownLead (s : State) : Bool := bit (byteAt (seatScramble s.seat.frame) 23) 6

/-- A handback goes on: a current output is still Out or Carrying in Seated beside a partner that delivers its part. -/
def inHandback (s : State) : Bool :=
  s.seat.state == .seated && (List.finRange 24).any fun n =>
    let c := s.chan n
    isCurrent c && !c.forced && (c.drive == .out || (c.drive == .carrying && partnerShares s n))

/-- Voltage outputs move with the lead in Seated, and to the partner of a released chip (R558, R571). -/
def moveVoltage (s : State) (lead : Bool) : State :=
  let move := s.seat.state == .seated || (lead && (partnerFlag s 5 || partnerFlag s 4))
  s.each (List.finRange 24) fun n s =>
    let c := s.chan n
    if move && isOutChan c && !isCurrent c && !c.forced then setDrive s n (if lead then .carrying else .out) else s

/-- LEAD_CHANGE (R556, R575): at the first trick boundary after both chips' frames show the new lead. -/
def execLeadChange (s : State) : Out :=
  let w := leadWanted s
  let shown := shownLead s == w && (s.seat.state != .seated || !(w && partnerFlag s 6))
  .next <| whenDue (isTwin s && atTrick s && s.seat.lead != w && shown && !inHandback s) (fun s =>
    let s := (s.onSeat fun t => { t with lead := w }).mapChans fun _ c => { c with caught := false }
    moveVoltage s w) s

/-- SHUNT_CATCH (R557): a listener's own shunt closes; it counts itself active until the next change of lead. The samples of the
1,500 ticks its comparator counted are stale. -/
def execShuntCatch (ch : Fin 24) (s : State) : Out :=
  let c := s.chan ch
  match c.profile with
  | none => .next s
  | some p =>
    .next <| whenDue (isTwin s && shellRuns s && cpaOf p ≤ 2 && !c.active) (fun s =>
      let now := s.clock.counter
      let s := s.onChan ch fun c =>
        { c with active := true, caught := true, roleStep := none, stale := staleRecent now ((1, now - 1500, some now) :: c.stale) }
      setFrontEnd s ch) s

/-- The takeover comparator of an output is armed (R559, R574). -/
def comparatorArmed (s : State) (n : Fin 24) : Bool :=
  let c := s.chan n
  let off := match sparseGet s.seat.disarmed n.val with
    | some t => s.clock.age.toNat < t.toNat
    | none => false
  isTwin s && shellRuns s && (s.seat.state == .seated || s.seat.state == .alone) && isOutChan c && !c.forced && !off
  && (c.drive == .out || (c.drive == .sharing && !c.pathBad && !c.atLimit))

/-- TAKEOVER_TRIP (R559, R560). -/
def execTakeoverTrip (ch : Fin 24) (s : State) : Out :=
  .next <| whenDue (comparatorArmed s ch) (fun s => raise (setDrive s ch .carrying) 0x1105 0x22 (beBytes 1 ch.val) ch.val) s

/-- A returning chip takes the value its partner drives, where it has none of its own. -/
def takeTarget (s : State) (n : Fin 24) : State :=
  if (s.chan n).commanded then s
  else match s.seat.partner.bind fun p => p.chans[n.val]? with
    | some r => if bit r.flags.toNat 0 then s
      else s.onChan n fun c => { c with applied := r.target, commanded := true, bankShell := false }
    | none => s

/-- One current output at a trick boundary of a handback: a chip that is Out ramps its share up from zero; two that carry share. -/
def handbackOne (n : Fin 24) (s : State) : State :=
  let c := s.chan n
  if !isCurrent c || c.forced then s
  else if c.drive == .out then
    let s := takeTarget s n
    let s := driveShell (s.onChan n fun c => { c with drive := .sharing }) n
    s.onChan n fun c => { c with rampFrom := 0, rampAt := s.clock.age }
  else if c.drive == .carrying && partnerCarries s n then setDrive s n .sharing
  else s

/-- A Carrying output whose share has stayed near half the target for one trick goes to Sharing. -/
def handbackDone (n : Fin 24) (s : State) : State :=
  match sparseGet s.seat.handback n.val with
  | some (some t) =>
    if trickTicks ≤ since s t then setDrive (s.onSeat fun u => { u with handback := sparseDel u.handback n.val }) n .sharing else s
  | _ => s

/-- HANDBACK (R561). -/
def execHandback (s : State) : Out :=
  .next <| whenDue (isTwin s && s.seat.state == .seated && s.seat.locked && partnerState s == some 4 && shellRuns s) (fun s =>
    let s := s.each (List.finRange 24) handbackDone
    if atTrick s then s.each (List.finRange 24) handbackOne else s) s

/-- Messages from the first one on that has waited 4 symbols are sent again, in order. -/
def resendFrom (line : Tick) : List Mirror → List Mirror
  | [] => []
  | m :: r =>
    match m.sent with
    | some t => if t.toNat + 4 * symbolTicks ≤ line.toNat then (m :: r).map fun (x : Mirror) => { x with sent := none } else m :: resendFrom line r
    | none => m :: resendFrom line r

/-- A block acknowledged as a message, but not by BLOCK_ACK within 4 symbols, is sent again (R569). -/
def resendBlock (s : State) : State :=
  let late := match s.seat.mirrorAt with
    | some t => 4 * symbolTicks ≤ since s t
    | none => false
  if (mirrorOp s).isSome && !halted s 3 && late && !s.seat.out.any fun m => m.kind == 6 then sendBlock s else s

/-- MIRROR_RESEND (R566, R569). -/
def execMirrorResend (s : State) : Out :=
  .next <| whenDue (isTwin s && s.seat.locked) (fun s =>
    resendBlock (s.onSeat fun t => { t with out := resendFrom s.clock.line t.out })) s

/-- SEAT_RECORD_REWRITE (R570): the survivor's seat record names the adopted partner, after the ledger check. -/
def execSeatRecordRewrite (s : State) : Out :=
  let busy := s.vault.pulses.any fun p => p.why == .seatRecord
  .next <| whenDue (s.seat.rewriteDue && s.seat.state == .alone && !busy && (shortEnergy s).isNone && !vaultFull s .protection) (fun s =>
    let d := protectionBytes (vaultClaimed s.vault) ((storedDigest s.vault).getD s.straps.digest) (some (partnerDie s))
    s.onVault fun v => { v with pulses := v.pulses ++ [{ key := .protection, data := d, why := .seatRecord }] }) s

/-- RELEASE_COMPLETE (R571): the partner's frames show Alone; every output to Out, every input to listener, released, and the final
response. -/
def execReleaseComplete (s : State) : Out :=
  match s.seat.release with
  | none => .next s
  | some f => .next <| whenDue (s.seat.state == .seated && partnerState s == some 5) (fun s =>
      let s := seatEnter (s.onSeat fun t => { t with release := none }) .released
      finalResponse s f (some (changeDigest s f [])) 0 []) s

end Sys2Proof.Machine
end

