-- ==== Sys2Proof/Machine/LongOps.lean ====
section
/-! DEFINITION. Long operations as they start, wait, time out and are freed (16_long_operations.md, 03 R78 and R79). -/

namespace Sys2Proof.Machine

/-! ## Starts, by operation (Table 16.3) -/

/-- PHY.SOUND starts a sounding, or joins the one that runs; without a far end it fails (R180, R190, R192). -/
def startSound (s : State) (p : Port) (handle : Nat) : State :=
  match (s.port p).link with
  | .sounding _ => s
  | .up => resound s p 1
  | .untrained => s.onPort p fun q => { q with reqReason := 1, retryAt := s.clock.line }
  | _ => opEnd s handle .failed 0x26

/-- The Start step of a trim (Table 14.7): pending values discarded, point 1 driven, or Compute in levels-only mode. -/
def startTrim (s : State) (o : Op) (n : Fin 24) : State :=
  let s := dropPending s n fun _ => true
  let k : Op := { o with before := (s.chan n).applied, progress := if bodyByte o.f 1 == 1 then 6 else 2 }
  let s := onOp s o.handle.toNat fun _ => k
  if bodyByte o.f 1 == 1 then trimCompute s k n false (bodyField o.f 4 4) (bodyField o.f 8 4)
  else drivePoint s n (trimPoint (isVoltage (s.chan n)) 1)

/-- The commit step of a trim: the record is written (R453, R518). -/
def commitTrim (s : State) (o : Op) (n : Fin 24) (f : CmdFrame) : State :=
  startWrite s f (.trim n) (trimX s o) (.trim o.handle f)

/-- A trim goes on after a suspension (R505): a Measure step drives its point again; the wait for TRIM.COMMIT starts afresh. -/
def resumeTrim (s : State) (o : Op) (n : Fin 24) : State :=
  let h := o.handle.toNat
  let v := isVoltage (s.chan n)
  match o.progress.toNat with
  | 3 => drivePoint (onOp s h fun x => { x with progress := 2 }) n (trimPoint v 1)
  | 5 => drivePoint (onOp s h fun x => { x with progress := 4 }) n (trimPoint v 2)
  | _ => onOp s h fun x => { x with reason := 3, since := s.clock.age, timing := true }

/-- The block R420 refuses. -/
def curveRefused (b : List Byte) : Bool :=
  let x := (List.range 64).map (curveX b)
  byteAt b 0 != 1 || byteAt b 1 < 32 || 47 < byteAt b 1 || fieldAt b 2 2 != 0
  || (List.range 63).any (fun i => x.getD (i + 1) 0 ≤ x.getD i 0)
  || x.any (fun v => v < -5500000 || 5500000 < v)
  || (List.range 64).any (fun i => curveY b i < -8388606 || 8388606 < curveY b i)
  || fieldAt b 516 4 != (crc32 (b.take 516)).toNat

/-- CURVE.LOAD: the check, then the write (R420). -/
def startCurve (s : State) (o : Op) (slot : Fin 16) : State :=
  let h := o.handle.toNat
  let b := cmdBody o.f
  if curveRefused b then opEnd s h .failed 0x24
  else if vaultFull s (.curve slot) then opEnd s h .failed 0x23
  else (onOp s h fun x => { x with progress := 2 }).onVault fun v =>
    { v with pulses := v.pulses ++ [{ key := .curve slot, data := b, why := .curve o.handle }] }

/-- The lowest repair record of a bank that is not written (R359). -/
def freeRecord (s : State) (b : Fin 64) : Option (Fin 8) :=
  (List.finRange 8).find? fun k => !vaultFull s (.repair b k)

/-- The repair record is written (Table 17.1: bank, row, spare). -/
def writeRepair (s : State) (o : Op) (b : Fin 64) (row spare : Nat) : State :=
  match freeRecord s b with
  | none => opEnd s o.handle.toNat .failed 0x23
  | some k =>
    let s := onOp s o.handle.toNat fun x => { x with progress := 3, committing := true }
    s.onVault fun v =>
      { v with pulses := v.pulses ++ [{ key := .repair b k, data := beBytes 1 b.val ++ beBytes 2 row ++ beBytes 1 spare, why := .repair o.handle }] }

/-- The vault write of a persistent repair is a gated step: it starts, or the operation waits Queued (Table 16.2). -/
def repairStep (s : State) (o : Op) (b : Fin 64) (row spare : Nat) : State :=
  let k : Op := { o with gated := true }
  if o.committing || energyPass s k then writeRepair s o b row spare
  else onOp s o.handle.toNat fun x => { x with state := .queued, reason := 1, gated := true, progress := 2 }

/-- MEM.REPAIR (R357, R359, R585): the live repair, then the record where it is to persist. -/
def startRepair (s : State) (o : Op) (b : Fin 64) : State :=
  let h := o.handle.toNat
  let row := bodyField o.f 2 2
  let persist := bit (bodyByte o.f 4) 0
  match remapOf s.mem b.val row with
  | some e => if !persist || e.persistent then opEnd s h .done 0 else repairStep s o b row e.spare
  | none =>
    match repairRow s.mem b.val row false with
    | none => opEnd s h .failed 0x25
    | some (k, m) =>
      let src := 0x40 + b.val / 8
      let s := raise (bump { s with mem := m } src 0 0x33) 0x0A04 src (beBytes 1 b.val ++ beBytes 2 row ++ beBytes 1 k)
      let s := onOp s h fun x => { x with progress := 2 }
      if persist then repairStep s { o with progress := 2 } b row k else opEnd s h .done 0

/-- TWIN.MIRROR (R569). -/
def startMirror (s : State) (o : Op) (fresh : Bool) : State :=
  let there := s.seat.locked && (partnerState s == some 2 || (!fresh && partnerState s == some 3))
  if there then mirrorBegin s fresh else opRollback s o .failed 0x27

/-- `progress` as an operation starts (Table 16.3). -/
def startProgress (o : Op) : BitVec 16 :=
  match o.opcode.toNat with
  | 0x0C01 | 0x0D01 | 0x0E01 | 0x0F01 => if o.holds then o.progress else 1
  | _ => o.progress

/-- A Queued operation starts Running: its event, then its step (Tables 16.2 and 16.3). -/
def opStart (s : State) (o : Op) : State :=
  let h := o.handle.toNat
  let joins := match o.opcode.toNat, o.object with
    | 0x0C01, .port p => isSounding (s.port p)
    | _, _ => false
  let k : Op := { o with holds := !joins, committing := (o.gated || o.committing) && !joins, gated := false, progress := startProgress o }
  let s := opEnter (onOp s h fun _ => k) h .running 0
  match o.opcode.toNat, o.object with
  | 0x0C01, .port p => startSound s p h
  | 0x0D01, .chan n =>
    let k : Op := (opOf s h).getD k
    match o.commit with
    | some f => commitTrim s k n f
    | none => if o.holds then resumeTrim s k n else startTrim s k n
  | 0x0E01, .slot n => startCurve s o n
  | 0x0F01, .bank b => startRepair s k b
  | 0x0F02, _ => if o.holds then s else s.onMem fun m => { m with fast := some 0 }
  | 0x1001, _ => startMirror s k (!o.holds)
  | _, _ => s

/-! ## Waits (R502, R507) -/

/-- Judge a Queued operation at a trick boundary: it starts, or waits for a reason. -/
def opTry (handle : Nat) (s : State) : State :=
  match opOf s handle with
  | none => s
  | some o =>
    if o.state != .queued || flushStopping s o.handle then s
    else
      let r := opReason s o
      if r == 0 then opStart s o else onOp s handle fun x => { x with reason := BitVec.ofNat 8 r }

/-- Operations start at a trick boundary, at Full, while the engine is not halted. -/
def opsRun (s : State) : Bool := atTrick s && s.supply.kindle == .up && s.tiers.tier == .full && !halted s 3

/-- OP_START (R502, R507). -/
def execOpStart (handle : BitVec 16) (s : State) : Out := .next <| whenDue (opsRun s) (opTry handle.toNat) s

/-- A mirrored ward entry whose write waits starts it after its own check (R567). -/
def startWardWrite (e : Nat × List Byte) (s : State) : State :=
  let h : Fin 16 := Fin.ofNat 16 e.1
  let asked := s.vault.pulses.any fun p => p.why == .mirrorWard h && p.data == e.2
  if asked || (shortEnergy s).isSome || vaultFull s (.ward h) then s
  else s.onVault fun v => { v with pulses := v.pulses ++ [{ key := .ward h, data := e.2, why := .mirrorWard h }] }

/-- ENERGY_CHECK (R78, R79): at a trick boundary the operations that wait for energy, in handle order, and the mirrored ward
entries. -/
def execEnergyCheck (s : State) : Out :=
  .next <| whenDue (atTrick s && shellRuns s) (fun s =>
    let waits := (s.engine.ops.filter fun o => o.state == .queued && (o.gated || o.committing)).map fun o => o.handle.toNat
    let s := if opsRun s then s.each waits opTry else s
    s.each s.vault.wardNext startWardWrite) s

/-! ## Time limits (R497, R499) -/

/-- OP_SUSPEND_TIMEOUT (R499): 60 s without OP.RESUME. -/
def execOpSuspendTimeout (handle : BitVec 16) (s : State) : Out :=
  match opOf s handle.toNat with
  | none => .next s
  | some o =>
    .next <| whenDue (o.state == .suspended && o.timing && !halted s 3 && !flushStopping s handle && 180000000000 ≤ since s o.since)
      (fun s => opRollback s o .failed 0x21) s

/-- OP_RECORD_FREE (R497): a terminal record is kept for 16,384 tricks. -/
def execOpRecordFree (handle : BitVec 16) (s : State) : Out :=
  match opOf s handle.toNat with
  | none => .next s
  | some o =>
    .next <| whenDue (!o.state.live && 16384 * trickTicks ≤ since s o.since) (fun s =>
      s.onEngine fun e => { e with ops := e.ops.filter fun x => x.handle != handle }) s

end Sys2Proof.Machine
end

