-- ==== Sys2Proof/Machine/TableCommands.lean ====
section
/-! DEFINITION. The commands TBL (09_tables_and_learning.md R287 to R295, 15_command_set.md R483). -/

namespace Sys2Proof.Machine

/-! ## Keys (R483) -/

/-- The table code and the 8-byte key of a TBL.SEARCH or TBL.DEL body. -/
def tblCode (f : CmdFrame) : Nat := bodyByte f 0
def tblKey (f : CmdFrame) : List Byte := slice (cmdBody f) 8 8

/-- A number taken from key bytes. -/
def keyField (k : List Byte) (i n : Nat) : Nat := fieldAt k i n

/-- A key byte outside its table's fields is not zero. -/
def keyMalformed (code : Nat) (k : List Byte) : Bool :=
  match code with
  | 1 => keyField k 0 6 != 0
  | 2 | 3 => keyField k 0 2 != 0
  | 4 => keyField k 0 2 != 0 || keyField k 6 1 != 0
  | 5 => keyField k 0 7 != 0
  | _ => false

/-- A prefix with bits below its length set, or a length above 32. -/
def prefixBad (pre len : Nat) : Bool := 32 < len || pre % 2 ^ (32 - len) != 0

/-- A key names nothing its table can hold; a longest match ignores `PLEN`. -/
def keyOut (code : Nat) (k : List Byte) (longest : Bool) : Bool :=
  match code with
  | 1 => keyField k 6 2 == 0
  | 4 => !longest && prefixBad (keyField k 2 4) (keyField k 7 1)
  | 5 => keyField k 7 1 == 0 || 63 < keyField k 7 1
  | _ => false

/-- The pipeline of a hash table code. -/
def codePort (code : Nat) : Port := if code == 2 then .ta else .tb

/-! ## Reading (TBL.SEARCH, TBL.NEXT) -/

/-- The compiled record of a prefix and length: that of the highest precedence (R281). -/
def compiledOf (store : List Entry) (pre len : Nat) : Option Entry :=
  (store.filter fun e => prPrefix e == pre && prLen e == len).foldl (fun best e =>
    match best with
    | some b => if prRank b < prRank e then some e else some b
    | none => some e) none

/-- The hand's staged change of a key, those of its running commit not yet prepared among them. -/
def stagedOf (s : State) (h : Fin 16) (code : Nat) (key : BitVec 64) : Option Change :=
  (s.tables.staged ++ heldChanges s.tables).find? fun c => c.hand == h && changeOf code key c

/-- What TBL.SEARCH finds. A staged deletion shows as an entry of zeros. -/
def searchEntry (s : State) (f : CmdFrame) : Option Entry :=
  let k := tblKey f
  let flags := bodyByte f 1
  let key := BitVec.ofNat 64 (beNat k)
  if bit flags 0 && (tblCode f == 1 || tblCode f == 4) then (stagedOf s f.hand (tblCode f) key).map fun c => c.entry.getD 0
  else match tblCode f with
    | 1 => let e := streamEntry s (keyField k 6 2); if seValid e then some e else none
    | 2 | 3 => (hashFind s (codePort (tblCode f)) (keyField k 2 6)).map (hashAt s (codePort (tblCode f)))
    | 4 => if bit flags 1 then lpmFind s.tables.prefixes (keyField k 2 4)
           else compiledOf s.tables.prefixes (keyField k 2 4) (keyField k 7 1)
    | _ => let e := policerAt s (keyField k 7 1); if poValid e then some e else none

/-- The code of a commit state (R483). -/
def CommitState.num : CommitState → Nat
  | .idle => 0
  | .staging => 1
  | .preparing => 2
  | .switched => 3
  | .done => 4

/-- The commit status (R483). -/
def commitStatus (s : State) (h : Fin 16) : List Byte :=
  let c := s.tables.commit
  let last := match c.switches.getLast? with
    | some e => e.1.toNat
    | none => 0
  beBytes 1 c.state.num ++ beBytes 1 c.hand.val ++ beBytes 1 (b2n c.late + 2 * b2n c.partial_ + 4 * b2n c.deferred) ++ [0]
  ++ beBytes 2 (s.tables.staged.filter fun x => x.hand == h).length ++ beBytes 2 c.applied ++ beBytes 8 last

/-- The table code exists. -/
def codeOk (code : Nat) : Bool := 1 ≤ code && code ≤ 5

/-- TBL.SEARCH. -/
def tblSearchCmd : Cmd := { Cmd.plain 0x0701 with
  body := fun f _ =>
    let flags := bodyByte f 1
    firstFail [
      failIf (bodyMalformed f 16 [0, 1, 8, 9, 10, 11, 12, 13, 14, 15] || 3 < flags || keyMalformed (tblCode f) (tblKey f)
        || (bit flags 1 && (tblCode f != 4 || bit flags 0))) 0x14,
      failIf (!codeOk (tblCode f) || keyOut (tblCode f) (tblKey f) (bit flags 1)) 0x16]
  run := fun f s =>
    if tblCode f == 1 && keyField (tblKey f) 6 2 == 0xFFFF then (.now 0 0 (commitStatus s f.hand), s)
    else match searchEntry s f with
      | some e => (.now 0 0 ([1] ++ zeros 7 ++ entryBytes e), s)
      | none => (.now 0 0 (zeros 24), s) }

/-- Positions of a pipeline's table that hold a valid entry, in cursor order: bucket x 4 + way, then the overflow store from
0x800000 on (R294). -/
def hashPositions (s : State) (p : Port) : List (Nat × Entry) :=
  let base := wayAddr p 0 0
  let ways := s.mem.cells.filterMap fun (c : Host.Cell) =>
    if base ≤ c.1 && c.1 < base + 0x80000 && (c.1 - base) % 16 == 6 then
      some ((c.1 - base) / 16, s.mem.entry (c.1 - 6))
    else none
  (ways ++ (s.pipe p).overflow.map fun (e : Nat × Entry) => (0x800000 + e.1, e.2)).filter fun e => heValid e.2

/-- Every entry of a table with its place, in the order of R294. The place of a prefix is `PREFIX` x 256 + `PLEN`; one record
stands for each prefix and length, the compiled one. -/
def tableEntries (s : State) (code : Nat) : List (Nat × Entry) :=
  match code with
  | 1 => (((listedStreams s).insertionSort (· ≤ ·)).map fun sid => (sid, streamEntry s sid)).filter fun e => seValid e.2
  | 2 | 3 => hashPositions s (codePort code)
  | 4 => ((s.tables.prefixes.map fun e => (prPrefix e, prLen e)).dedup.filterMap fun k =>
      (compiledOf s.tables.prefixes k.1 k.2).map fun e => (k.1 * 256 + k.2, e))
  | _ => s.tables.policers.filter fun e => poValid e.2

/-- The cursor that names a place (R294). -/
def cursorAt (code n : Nat) : List Byte :=
  [BitVec.ofNat 8 code, 1] ++ match code with
    | 1 => zeros 4 ++ beBytes 2 n
    | 2 | 3 => if 0x800000 ≤ n then [0, 0, 0, 0x80] ++ beBytes 2 n else zeros 3 ++ beBytes 2 n ++ [0]
    | 4 => [0] ++ beBytes 5 n
    | _ => zeros 5 ++ beBytes 1 n

/-- The place a cursor names, none where it starts; the outer none is a cursor R294 refuses. -/
def cursorPlace (code : Nat) (c : List Byte) : Option (Option Nat) :=
  if keyField c 1 7 == 0 then some none
  else
    let n := match code with
      | 1 => keyField c 6 2
      | 2 | 3 => if bit (keyField c 5 1) 7 then 0x800000 + keyField c 6 2 else keyField c 5 2
      | 4 => keyField c 3 5
      | _ => keyField c 7 1
    if cursorAt code n == c && (code != 2 && code != 3 || n < 0x8000 || (0x800000 ≤ n && n < 0x800400)) then some (some n) else none

/-- The entries after a cursor. -/
def entriesAfter (s : State) (code : Nat) (c : Option (Option Nat)) : List (Nat × Entry) :=
  (tableEntries s code).filter fun e => match c with
    | some (some n) => n < e.1
    | _ => true

/-- TBL.NEXT. -/
def tblNextCmd : Cmd := { Cmd.plain 0x0702 with
  body := fun f _ =>
    let c := slice (cmdBody f) 0 8
    firstFail [
      failIf ((cmdBody f).length != 9) 0x14,
      failIf (codeOk (tblCode f) && (cursorPlace (tblCode f) c).isNone) 0x14,
      failIf (!codeOk (tblCode f) || bodyByte f 8 == 0 || 32 < bodyByte f 8) 0x16]
  run := fun f s =>
    let c := slice (cmdBody f) 0 8
    let l := entriesAfter s (tblCode f) (cursorPlace (tblCode f) c)
    let out := l.take (bodyByte f 8)
    let cur := match out.getLast? with
      | some e => cursorAt (tblCode f) e.1
      | none => c
    (.now 0 0 (beBytes 1 out.length ++ beBytes 1 (b2n (decide (l.length ≤ bodyByte f 8))) ++ cur ++ zeros 6
      ++ out.flatMap fun e => entryBytes e.2), s) }

/-! ## TBL.ADD (R293) -/

/-- Policer index, stream ID and entry of a TBL.ADD body. -/
def addIndex (f : CmdFrame) : Nat := bodyByte f 1
def addSid (f : CmdFrame) : Nat := bodyField f 2 2
def addEntry (f : CmdFrame) : Entry := entryOf (slice (cmdBody f) 8 16)

/-- A reserved field, or one that only the chip writes, is not zero. -/
def entryMalformed (code : Nat) (e : Entry) : Bool :=
  let b := entryByte e
  match code with
  | 1 => b 0 / 8 % 4 != 0 || bit (b 1) 4 || 64 ≤ b 2 || b 3 != 0 || entryField e 6 10 != 0
      || (!bit (b 0) 2 && entryField e 4 2 != 0)
  | 2 | 3 => b 6 / 16 % 4 != 0 || b 7 != 0 || entryField e 8 2 != 0 || 32 ≤ b 10 || entryField e 12 4 != 0
  | 4 => bit (b 5) 3 || 64 ≤ b 6 || 16 ≤ b 7 || entryField e 8 8 != 0
  | _ => b 0 / 16 % 8 != 0 || b 1 != 0 || b 4 != 0 || entryField e 8 8 != 0

/-- An entry R293 refuses as out of range. -/
def entryOut (s : State) (h : Fin 16) (code : Nat) (e : Entry) : Bool :=
  let b := entryByte e
  match code with
  | 1 => !seValid e || seOrigin e || b 1 % 16 != h.val || (bit (b 0) 2 && queueHand s (entryField e 4 2) != some h.val)
  | 2 | 3 => !heValid e || !heStatic e || heOwner e != h.val || tagBad (BitVec.ofNat 48 (heTag e))
  | 4 => prKind e != 2 || prOwner e != h.val || prefixBad (prPrefix e) (prLen e)
  | _ => !poValid e || poOwner e != h.val || poRate e == 0 || poBurst e < poRate e

/-- Check 10 of TBL.ADD. -/
def tblAddBody (f : CmdFrame) (s : State) : Option Nat :=
  let c := tblCode f
  firstFail [
    failIf ((cmdBody f).length != 24 || bodyField f 4 4 != 0 || (c != 5 && addIndex f != 0) || (c != 1 && addSid f != 0)
      || (codeOk c && entryMalformed c (addEntry f))) 0x14,
    failIf (!codeOk c || (c == 1 && addSid f == 0) || (c == 5 && (addIndex f == 0 || 63 < addIndex f))
      || entryOut s f.hand c (addEntry f)) 0x16]

/-- The key under which a change is staged (R483). -/
def stageKey (code sid : Nat) (e : Entry) : BitVec 64 :=
  if code == 1 then BitVec.ofNat 64 sid else BitVec.ofNat 64 (prPrefix e * 2 ^ 16 + prLen e)

/-- Staging a change fails: another hand has staged the key, or the area is full (R258, R287). -/
def stageFails (s : State) (h : Fin 16) (code : Nat) (key : BitVec 64) : Option Nat :=
  let l := s.tables.staged ++ heldChanges s.tables
  firstFail [
    failIf (l.any fun c => changeOf code key c && c.hand != h) 0x19,
    failIf (!(s.tables.staged.any (changeOf code key)) && 4096 ≤ l.length) 0x1B]

/-- Stage a change; the hand's own of the same key is replaced (R287). -/
def stage (s : State) (c : Change) : State :=
  s.onTables fun t => { t with staged := t.staged.filter (fun x => !changeOf c.table c.key x) ++ [c] }

/-- A stream entry another hand owns, or an `ORIGIN` entry with its own status (R259, R293). -/
def streamForeign (s : State) (h : Fin 16) (sid origin : Nat) : Option Nat :=
  let e := streamEntry s sid
  if !seValid e then none
  else if seOrigin e then some origin
  else failIf (entryByte e 1 % 16 != h.val) 0x26

/-- The own or static record of a prefix bars a hand's change (R281, R293). -/
def prefixForeign (s : State) (h : Fin 16) (pre len : Nat) : Option Nat :=
  let l := s.tables.prefixes.filter fun e => prPrefix e == pre && prLen e == len
  if l.any fun e => prKind e == 0 then some 0x28
  else failIf (l.any fun e => prKind e == 2 && prOwner e != h.val) 0x26

/-- The prefix store with every staged addition and one more in it. -/
def storeWith (s : State) (e : Entry) : List Entry :=
  ((s.tables.staged ++ heldChanges s.tables).filterMap fun c => if c.table == 4 then c.entry else none).foldl
    (fun l x => prInsert x l) (prInsert e s.tables.prefixes)

/-- A static hash entry finds a place (R275, R293). -/
def staticFits (s : State) (p : Port) (tag : Nat) : Bool :=
  let b := bucketOf (s.pipe p).seed tag
  (hashFind s p tag).isSome || ((List.range 4).map (HLoc.way b)).any (fun l => hePlaceable s p (hashAt s p l))
  || (ovfFree s p).isSome || !(evictCands s p b).isEmpty

/-- Check 11 of TBL.ADD. -/
def tblAddOwn (f : CmdFrame) (s : State) : Option Nat :=
  let c := tblCode f
  let e := addEntry f
  match c with
  | 1 => firstFail [streamForeign s f.hand (addSid f) 0x13, stageFails s f.hand 1 (stageKey 1 (addSid f) e)]
  | 2 | 3 =>
    let p := codePort c
    firstFail [
      match hashFind s p (heTag e) with
      | some l => failIf (heStatic (hashAt s p l) && heOwner (hashAt s p l) != f.hand.val) 0x26
      | none => none,
      failIf (!staticFits s p (heTag e)) 0x1B]
  | 4 => firstFail [
      prefixForeign s f.hand (prPrefix e) (prLen e),
      failIf (!trieFits (storeWith s e)) 0x1B,
      stageFails s f.hand 4 (stageKey 4 0 e)]
  | _ => let cur := policerAt s (addIndex f)
         failIf (poValid cur && poOwner cur != f.hand.val) 0x26

/-- Write a static hash entry (R275, R276): a learned entry of the tag is replaced, and one whose place is taken leaves the
learned count. -/
def addStatic (s : State) (p : Port) (tag : Nat) (h : Fin 16) : State :=
  let b := bucketOf (s.pipe p).seed tag
  let put := fun (s : State) (l : HLoc) =>
    let kept := heCounted s p (hashAt s p l)
    let s := setHash s p l (heMake tag true false h.val 0 b)
    if kept then countLearned s p (-1) else s
  match hashFind s p tag with
  | some l => put s l
  | none => match hashPlace s p b with
    | (some (l, evicts), s) => let s := put s l; if evicts then countPipe s p 0x12 else s
    | (none, s) => s

/-- TBL.ADD. A new or changed policer starts full (R261); its count of refused frames stays. -/
def tblAddCmd : Cmd := { Cmd.plain 0x0703 with
  body := tblAddBody
  own := tblAddOwn
  run := fun f s =>
    let e := addEntry f
    (.now 0 0 [], match tblCode f with
      | 2 | 3 => addStatic s (codePort (tblCode f)) (heTag e) f.hand
      | 5 =>
        let drops := poDrop (policerAt s (addIndex f))
        s.onTables fun t => { t with policers := sparseSet (addIndex f) (poSet e (poBurst e) drops) t.policers }
      | c => stage s { hand := f.hand, table := c, key := stageKey c (addSid f) e, entry := some e }) }

/-! ## TBL.DEL (R293) -/

/-- Check 11 of TBL.DEL. -/
def tblDelOwn (f : CmdFrame) (s : State) : Option Nat :=
  let k := tblKey f
  let key := BitVec.ofNat 64 (beNat k)
  match tblCode f with
  | 1 =>
    let sid := keyField k 6 2
    firstFail [
      failIf (!seValid (streamEntry s sid) && (stagedOf s f.hand 1 key).isNone) 0x27,
      streamForeign s f.hand sid 0x28,
      stageFails s f.hand 1 key]
  | 2 | 3 =>
    let p := codePort (tblCode f)
    match hashFind s p (keyField k 2 6) with
    | none => some 0x27
    | some l => failIf (heStatic (hashAt s p l) && heOwner (hashAt s p l) != f.hand.val) 0x26
  | 4 =>
    let pre := keyField k 2 4
    let len := keyField k 7 1
    let static := s.tables.prefixes.any fun e => prKind e == 2 && prPrefix e == pre && prLen e == len
    firstFail [
      prefixForeign s f.hand pre len,
      failIf (!static && (stagedOf s f.hand 4 key).isNone) 0x27,
      stageFails s f.hand 4 key]
  | _ =>
    let e := policerAt s (keyField k 7 1)
    firstFail [failIf (!poValid e) 0x27, failIf (poOwner e != f.hand.val) 0x26]

/-- TBL.DEL: a staged deletion responds at once, the others when the old epoch has drained (Table 9.10). -/
def tblDelCmd : Cmd := { Cmd.plain 0x0704 with
  body := fun f _ => firstFail [
    failIf (bodyMalformed f 16 [0, 8, 9, 10, 11, 12, 13, 14, 15] || keyMalformed (tblCode f) (tblKey f)) 0x14,
    failIf (!codeOk (tblCode f) || keyOut (tblCode f) (tblKey f) false) 0x16]
  own := tblDelOwn
  run := fun f s =>
    let k := tblKey f
    match tblCode f with
    | 2 | 3 =>
      let p := codePort (tblCode f)
      match hashFind s p (keyField k 2 6) with
      | some l => (.later, invertEpoch (freeHash p l s) (.tblDel f))
      | none => (.now 0x27 0 [], s)
    | 5 =>
      (.later, invertEpoch (s.onTables fun t => { t with policers := sparseDel t.policers (keyField k 7 1) }) (.tblDel f))
    | c => (.now 0 0 [], stage s { hand := f.hand, table := c, key := BitVec.ofNat 64 (beNat k), entry := none }) }

/-! ## TBL.FLUSH_PORT (R295) and TBL.COMMIT (R288 to R290) -/

/-- TBL.FLUSH_PORT: a long operation on the port's pipeline table. -/
def tblFlushPortCmd : Cmd := { Cmd.plain 0x0705 with
  body := fun f _ => firstFail [failIf ((cmdBody f).length != 2 || 3 < bodyByte f 1) 0x14, failIf (1 < bodyByte f 0) 0x16]
  own := fun f s => opLimit s f.hand
  run := fun f s => let r := createOp s f (.pipe (portOf (bodyByte f 0))) false; (.now 1 0 (beBytes 2 r.1.toNat), r.2) }

/-- The place of a change in the order of R290: additions of absent keys, changes, deletions; streams by ID before prefixes. -/
def changeRank (s : State) (c : Change) : Nat :=
  let p := changePrefix c
  let present := if c.table == 1 then seValid (streamEntry s (changeSid c)) else s.tables.prefixes.any (isStaticOf p)
  let grp := if c.entry.isNone then 2 else if present then 1 else 0
  let sub := if c.table == 1 then changeSid c else ((if grp == 0 then p.2 else 64 - p.2) + 1) * 2 ^ 32 + p.1
  grp * 2 ^ 48 + sub

/-- A list of changes in the order of R290. -/
def sortChanges (s : State) (l : List Change) : List Change :=
  l.foldr (fun c acc => (acc.takeWhile fun x => changeRank s x < changeRank s c) ++ [c]
    ++ acc.dropWhile fun x => changeRank s x < changeRank s c) []

/-- The batches of a commit: one where it can be atomic (R289), else pieces of 512 (R290). -/
def commitBatches (s : State) (l : List Change) : List (List Change) :=
  let l := sortChanges s l
  if l.length ≤ 512 && copiesFit s.tables.prefixes l then [l] else chunks 512 8 l

/-- A commit starts (Table 9.9); one with nothing staged is Done at once. -/
def commitStart (s : State) (h : Fin 16) (a : Tick) : State :=
  let mine := s.tables.staged.filter fun c => c.hand == h
  let batches := if mine.isEmpty then [] else commitBatches s mine
  let c : Commit := { Commit.idle with state := if mine.isEmpty then .done else .preparing, hand := h, apply := a,
                                       batches := batches, since := s.clock.age, partial_ := decide (1 < batches.length) }
  let s := s.onTables fun t => { t with staged := t.staged.filter (fun c => c.hand != h), commit := c }
  if mine.isEmpty then raise s 0x080A 0x60 (commitDetail c) 0 (some h.val) else s

/-- TBL.COMMIT. -/
def tblCommitCmd : Cmd := { Cmd.plain 0x0706 with
  body := fun f s => firstFail [
    failIf (bodyMalformed f 8 [0, 1, 2, 3, 4, 5, 6, 7]) 0x14,
    failIf (s.clock.counter.toNat + 2 ^ 32 < bodyField f 0 8) 0x16]
  own := fun _ s => failIf (s.tables.commit.state == .preparing || s.tables.commit.state == .switched) 0x1A
  run := fun f s =>
    let n := (s.tables.staged.filter fun c => c.hand == f.hand).length
    (.now 0 0 (beBytes 2 n), commitStart s f.hand (BitVec.ofNat 64 (bodyField f 0 8))) }

/-! ## The rows -/

/-- TBL_SEARCH (R483, R280, R287). -/
def execTblSearch (f : CmdFrame) (s : State) : Out := .next (runCommand tblSearchCmd f s)
/-- TBL_NEXT (R294). -/
def execTblNext (f : CmdFrame) (s : State) : Out := .next (runCommand tblNextCmd f s)
/-- TBL_ADD (R293, R287). -/
def execTblAdd (f : CmdFrame) (s : State) : Out := .next (runCommand tblAddCmd f s)
/-- TBL_DEL (R293, R286). -/
def execTblDel (f : CmdFrame) (s : State) : Out := .next (runCommand tblDelCmd f s)
/-- TBL_FLUSH_PORT (R295, R496). -/
def execTblFlushPort (f : CmdFrame) (s : State) : Out := .next (runCommand tblFlushPortCmd f s)
/-- TBL_COMMIT (R288). -/
def execTblCommit (f : CmdFrame) (s : State) : Out := .next (runCommand tblCommitCmd f s)

end Sys2Proof.Machine
end

