-- ==== Sys2Proof/Machine/Trunk.lean ====
section
/-! DEFINITION. The trunk line (06_trunk_line.md): link states, sounding, table changes and adapting. -/

namespace Sys2Proof.Machine

/-- PILOT_LOCK (R169, R170): a listening port goes Untrained with the default table in both slots; its TRAIN_REQ
waits for a random symbol of the next 64. -/
def execPilotLock (p : Port) (s : State) : Out :=
  .next <| whenDue ((s.port p).link == .listen) (fun s =>
    let r := drawBelow s 64
    let s := r.2.onPort p fun q =>
      { defaultSlots q with link := .untrained, lock := true, reqReason := 0, reqOut := false, steps := [],
                            retryAt := lineIn s (r.1 * symbolTicks) }
    clearLatching s 0x0502 (portSrc p) 0 []) s

/-- PILOTS_LOST (R169, R170, R192, R213): the link returns to Listen, a sounding ends and its handle fails. -/
def execPilotsLost (p : Port) (s : State) : Out :=
  let q := s.port p
  .next <| whenDue (q.link == .untrained || q.link == .up || isSounding q) (fun s =>
    let s := leaveUp (breakSend s p) p
    let s := endSoundOps s p .failed 0x26
    let s := s.onPort p fun q => { defaultSlots q with link := .listen, lock := false, lq := 0, steps := [], reqOut := false }
    raise s 0x0502 (portSrc p) []) s

/-- LINK_START (R170): a port leaves Off; 32 echo-training symbols come first, then idle symbols. -/
def execLinkStart (p : Port) (s : State) : Out :=
  .next <| whenDue ((s.port p).link == .off && inService s && (s.port p).quietUntil.isNone) (fun s =>
    s.onPort p fun q => { defaultSlots q with link := .listen, echoStart := 32, lock := false }) s

/-- The body of TRAIN_REQ or TRAIN_ACK (Table 6.5). -/
def trainBody (s : State) (p : Port) (ty : Nat) : List Byte :=
  [BitVec.ofNat 8 ty] ++ beBytes 8 s.dieId.toNat ++ [(s.port p).reqReason, BitVec.ofNat 8 (s.port p).margin.toNat, 0]

/-- TRAIN_REQ_SEND (R170): at the retry time of an Untrained link. A further request waits 1 to 8 tricks. -/
def execTrainReqSend (p : Port) (s : State) : Out :=
  let q := s.port p
  .next <| whenDue (q.link == .untrained && !q.idClash && q.retryAt.toNat ≤ s.clock.line.toNat) (fun s =>
    let s := sendLc s p (trainBody s p 1)
    let r := drawBelow s 8
    r.2.onPort p fun q => { q with reqOut := true, retryAt := lineIn s ((r.1 + 1) * trickTicks), pendTx := none, pendRx := none }) s

/-- A TRAIN_REQ or TRAIN_ACK with no reserved value (R172). -/
def trainOk (ty : Nat) (b : List Byte) : Bool :=
  b.length == 12 && byteAt b 0 == ty && byteAt b 9 ≤ 2 && byteAt b 10 ≤ 2 && byteAt b 11 == 0

/-- An identity clash (Table 6.11): ABORT 0x03, event, no further sounding. -/
def identityClash (s : State) (p : Port) : State :=
  let s := toUntrained (sendAbort s p 3) p s.clock.line
  let s := s.onPort p fun q => { q with idClash := true, lastAbort := 3 }
  let s := endSoundOps s p .failed 0x26
  raise s 0x0507 (portSrc p) (beBytes 8 s.dieId.toNat)

/-- Start sounding on a port with slot 0 at a line time; pending changes are cancelled (R175, R188). -/
def startSounding (s : State) (p : Port) (initiator : Bool) (slot0 : Nat) : State :=
  (leaveUp s p).onPort p fun q =>
    { q with link := .sounding initiator, slot0 := BitVec.ofNat 64 slot0, steps := [], reqOut := false,
             pendTx := none, pendRx := none, txSwitched := false, rxSwitched := false }

/-- TRAIN_REQ (R170, R187, R188). A link that is Up and receives one is re-sounded by the far end. -/
def execTrainReq (p : Port) (body : List Byte) (s : State) : Out :=
  let q := s.port p
  if !trainOk 1 body then .next (badLc s p)
  else .next <| whenDue ((q.link == .untrained || q.link == .up) && !q.idClash) (fun s =>
    let die := fieldAt body 1 8
    if die == s.dieId.toNat then identityClash s p
    else if q.reqOut && die < s.dieId.toNat then s
    else
      let s := sendLc s p (trainBody s p 2)
      startSounding s p false (nextSymbol s)) s

/-- TRAIN_ACK (R170, R175, R187). -/
def execTrainAck (p : Port) (body : List Byte) (s : State) : Out :=
  let q := s.port p
  if !trainOk 2 body then .next (badLc s p)
  else .next <| whenDue (q.link == .untrained && q.reqOut && !q.idClash) (fun s =>
    if fieldAt body 1 8 == s.dieId.toNat then identityClash s p
    else startSounding s p true (arrivalSymbol s)) s

/-- The slot of a sounding at the present line time (R175). -/
def soundingSlotNo (s : State) (q : PortState) : Nat := (s.clock.line.toNat - q.slot0.toNat) / symbolTicks

/-- A DELAY message body (Table 6.5). -/
def delayBody (tx rx : BitVec 48) (n : Nat) : List Byte := [0x03] ++ beBytes 6 tx.toNat ++ beBytes 6 rx.toNat ++ beBytes 1 n

/-- Line time in 1/64 tick modulo 2^48 (R172). -/
def line48 (s : State) : BitVec 48 := BitVec.ofNat 48 (s.clock.line.toNat * 64)

/-- SOUNDING_SLOT (R175, Table 6.7): the DELAY of this end's slot; after its echo training, the residual echo is
judged (Table 6.11). Echo-training and probe symbols are chosen by PORT_SYMBOL_SCHEDULE. -/
def execSoundingSlot (p : Port) (residualEcho : Nat) (s : State) : Out :=
  let q := s.port p
  .next <| whenDue (isSounding q && atSymbol s) (fun s =>
    let k := soundingSlotNo s q
    let t := line48 s
    let echo := fun s : State => if residualEcho < 180 then raise s 0x0508 (portSrc p) (beBytes 1 residualEcho) else s
    match q.link, k with
    | .sounding true, 8 => (sendLc s p (delayBody t 0 1)).onPort p fun q => { q with t1 := t }
    | .sounding false, 16 => (sendLc s p (delayBody t q.a1 2)).onPort p fun q => { q with t2 := t }
    | .sounding true, 24 => sendLc s p (delayBody t q.a2 3)
    | .sounding true, 48 => echo s
    | .sounding false, 66 => echo s
    | _, _ => s) s

/-- The link delay of R176 in 1/64 tick. -/
def linkDelay (t1 a1 t2 a2 : BitVec 48) : Int := ((a1 - t1).toInt + (a2 - t2).toInt) / 2

/-- Set `LINK_D` and judge it against D_MAX (R165, R176, Table 6.11). -/
def setLinkD (s : State) (p : Port) (d : Int) : State :=
  let v : BitVec 24 := BitVec.ofInt 24 d
  let s := s.onPort p fun q => { q with linkD := some v }
  if (dMax (s.port p) : Int) < d then
    let s := raise s 0x0505 (portSrc p) (beBytes 3 v.toNat)
    let s := endSoundOps s p .failed 0x26
    (toUntrained s p (lineIn s rateTicks)).onPort p fun q => { q with tooLong := true }
  else clearLatching (s.onPort p fun q => { q with tooLong := false }) 0x0505 (portSrc p) 0 (beBytes 3 v.toNat)

/-- DELAY (R175, R176). -/
def execDelay (p : Port) (body : List Byte) (a64 : Nat) (s : State) : Out :=
  let q := s.port p
  let tx : BitVec 48 := BitVec.ofNat 48 (fieldAt body 1 6)
  let rx : BitVec 48 := BitVec.ofNat 48 (fieldAt body 7 6)
  let a : BitVec 48 := BitVec.ofNat 48 a64
  let n := byteAt body 13
  if body.length != 14 || byteAt body 0 != 3 || n == 0 || 3 < n || (n == 1 && rx != 0) then .next (badLc s p)
  else .next <| match q.link, n with
    | .sounding false, 1 => s.onPort p fun q => { q with t1 := tx, a1 := a, steps := 1 :: q.steps }
    | .sounding true, 2 =>
      let s := s.onPort p fun q => { q with a1 := rx, t2 := tx, a2 := a, steps := 2 :: q.steps }
      setLinkD s p (linkDelay q.t1 rx tx a)
    | .sounding false, 3 =>
      let s := s.onPort p fun q => { q with a2 := rx, steps := 3 :: q.steps }
      setLinkD s p (linkDelay q.t1 q.a1 q.t2 rx)
    | _, _ => s

/-- SOUNDING_TABLE_SEND (R175, R177, Table 6.11): at slot 384 as responder, 392 as initiator. -/
def execSoundingTableSend (p : Port) (snr : List Nat) (s : State) : Out :=
  let q := s.port p
  let due := match q.link with
    | .sounding i => soundingSlotNo s q == (if i then 392 else 384)
    | _ => false
  .next <| whenDue (due && atSymbol s) (fun s =>
    let m := marginDb q.margin
    let t := tableFor snr m
    let w := worstHeader snr
    let s := s.onPort p fun q => { q with snr := snr }
    if headerBelow snr 0 || tableB t < 464 then
      let s := raise s 0x0503 (portSrc p) (beBytes 2 (tableB t) ++ beBytes 2 w.1)
      let s := endSoundOps s p .failed 0x26
      (toUntrained s p (lineIn s rateTicks)).onPort p defaultSlots
    else
      let s := clearLatching s 0x0503 (portSrc p) 0 (beBytes 2 (tableB t) ++ beBytes 2 w.1)
      let d := beBytes 2 w.1 ++ beBytes 1 w.2
      let s := if headerBelow snr m then raise s 0x0504 (portSrc p) d else clearLatching s 0x0504 (portSrc p) 0 d
      sendTable s p t fun seq slot => fullTable seq q.margin slot t) s

/-- A TABLE's contents: sequence, slot and the whole new table, or the item of R174 it fails (1 to 4), or none where
a reserved value discards it (R172). -/
def parseTable (q : PortState) (b : List Byte) : Option (BitVec 16 × Bool × (Nat ⊕ BitTable)) :=
  let fl := byteAt b 1
  let part := bit fl 0
  let slot := bit fl 3
  let seq : BitVec 16 := BitVec.ofNat 16 (fieldAt b 2 2)
  let n := byteAt b 4
  let len := if part then 5 + 2 * n else 240
  if byteAt b 0 != 4 || 16 ≤ fl || fl / 2 % 4 == 3 || b.length != len || (part && (n == 0 || 64 < n))
    || (!part && byteAt b 239 % 16 != 0) then none
  else
    let base := q.txTable q.txSlot
    let ch := (chunks 2 n (b.drop 5)).map fun c => beNat c
    if part && ch.any (fun c => c % 8 != 0) then none
    else
      let ents := if part then ch.map fun c => c / 8 % 16 else unpackEntries (slice b 4 236)
      let tbl := if part then ch.foldl (fun t c => t.set (c / 128) (c / 8 % 16)) base else ents
      if ents.any (fun e => 12 < e) then some (seq, slot, .inl 1)
      else if tableB tbl < 464 then some (seq, slot, .inl 2)
      else if part && ch.any (fun c => 470 < c / 128) then some (seq, slot, .inl 3)
      else if slot == q.txSlot then some (seq, slot, .inl 4)
      else some (seq, slot, .inr tbl)

/-- A TABLE_ACK body (Table 6.5). -/
def tableAckBody (seq : BitVec 16) (slot : Bool) (ns : Nat) : List Byte :=
  [0x05] ++ beBytes 2 seq.toNat ++ beBytes 1 (b2n slot) ++ beBytes 2 ns

/-- TABLE (R173, R174, R178, R179): refused with ABORT 0x05, acknowledged again, or acknowledged with `N_S` 48. -/
def execTable (p : Port) (body : List Byte) (s : State) : Out :=
  let q := s.port p
  match parseTable q body with
  | none => .next (badLc s p)
  | some (seq, slot, r) =>
    let again := match q.lastAck with
      | some (sq, _, ns) => if sq == seq then some ns else none
      | none => none
    match again, q.pendTx, r with
    | some ns, _, _ => .next (sendLc s p (tableAckBody seq slot ns))
    | none, some _, _ => .next s
    | none, none, .inl item =>
      let s := sendAbort s p 5
      let s := s.onPort p fun q => { q with lastAbort := 5 }
      let s := if isSounding q then soundingMissed s p 5 else s
      .next (raise s 0x050A (portSrc p) (beBytes 2 seq.toNat ++ beBytes 1 item))
    | none, none, .inr t =>
      let s := s.onPort p fun q =>
        { q with pendTx := some { seq := seq, slot := slot, tbl := t, msg := [], at_ := s.clock.line, ns := 48, acked := true,
                                  resends := 0 },
                 lastAck := some (seq, s.clock.line, 48), steps := if isSounding q then 4 :: q.steps else q.steps }
      .next (sendLc s p (tableAckBody seq slot 48))

/-- TABLE_ACK (R172, R178). -/
def execTableAck (p : Port) (body : List Byte) (s : State) : Out :=
  let ns := fieldAt body 4 2
  if body.length != 6 || byteAt body 0 != 5 || 1 < byteAt body 3 || ns < 32 || 1024 < ns then .next (badLc s p)
  else .next <| s.onPort p fun q => match q.pendRx with
    | some t =>
      if t.seq.toNat == fieldAt body 1 2 && b2n t.slot == byteAt body 3 && !t.acked then
        { q with pendRx := some { t with acked := true, ns := ns, at_ := s.clock.line } }
      else q
    | none => q

/-- The switch point of a table change has come (R178). -/
def switchDue (s : State) (t : Option PendingTable) : Bool :=
  match t with
  | some t => t.acked && t.at_.toNat + t.ns * symbolTicks ≤ s.clock.line.toNat
  | none => false

/-- Both directions of a sounding have switched: the link is Up (R170). -/
def soundingDone (s : State) (p : Port) : State :=
  let q := s.port p
  if isSounding q && q.txSwitched && q.rxSwitched then
    let lq := lqOf (worstMargin q.snr (q.rxTable q.rxSlot))
    let d := match q.linkD with
      | some v => v.toNat
      | none => 0xFFFFFF
    let s := s.onPort p fun q => { q with link := .up, lq := lq, failures := 0, steps := [] }
    let s := clearLatching s 0x0506 (portSrc p) 0 [0, (s.port p).lastAbort]
    let s := endSoundOps s p .done 0
    raise s 0x0501 (portSrc p) (beBytes 2 (rateB (s.port p)) ++ [lq] ++ beBytes 3 d ++ [q.reqReason])
  else s

/-- TABLE_SWITCH (R178, R170). -/
def execTableSwitch (p : Port) (s : State) : Out :=
  let q := s.port p
  let tx := switchDue s q.pendTx
  let rx := switchDue s q.pendRx
  .next <| whenDue (tx || rx) (fun s =>
    let s := if tx then s.onPort p fun q => match q.pendTx with
        | some t => { q.setTx t.slot t.tbl with txSlot := t.slot, pendTx := none, txSwitched := true }
        | none => q
      else s
    let s := if rx then s.onPort p fun q => match q.pendRx with
        | some t => { q.setRx t.slot t.tbl with rxSlot := t.slot, pendRx := none, rxSwitched := true,
                                                rxSwitchAt := s.clock.line, rxOtherReleased := false }
        | none => q
      else s
    soundingDone s p) s

/-- OLD_SLOT_RELEASE (R178): one trick after the switch point. -/
def execOldSlotRelease (p : Port) (s : State) : Out :=
  let q := s.port p
  .next <| whenDue (!q.rxOtherReleased && q.pendRx.isNone && q.rxSwitchAt.toNat + trickTicks ≤ s.clock.line.toNat)
    (fun s => s.onPort p fun q => { q with rxOtherReleased := true }) s

/-- TABLE_RESEND (R179): after 128 symbols without TABLE_ACK, up to 3 times. -/
def execTableResend (p : Port) (s : State) : Out :=
  match (s.port p).pendRx with
  | none => .next s
  | some t => .next <| whenDue (!t.acked && t.resends < 3 && t.at_.toNat + 128 * symbolTicks ≤ s.clock.line.toNat) (fun s =>
      (sendLc s p t.msg).onPort p fun q => { q with pendRx := some { t with at_ := s.clock.line, resends := t.resends + 1 } }) s

/-- The steps an end expects, each with its slot (Table 6.7). -/
def expectedSteps (initiator : Bool) : List (Nat × Nat) := if initiator then [(2, 16), (4, 384)] else [(1, 8), (3, 24), (4, 392)]

/-- SOUNDING_STEP_MISSED (R175): a step has not arrived 8 symbols after its slot. -/
def execSoundingStepMissed (p : Port) (s : State) : Out :=
  let q := s.port p
  let missed := match q.link with
    | .sounding i => (expectedSteps i).any fun e => !q.steps.contains e.1 && e.2 + 8 < soundingSlotNo s q
    | _ => false
  .next <| whenDue missed (fun s => soundingMissed (sendAbort s p 1) p 1) s

/-- ABORT (R170, R172): a sounding ends with its tables unchanged; a table change the far end refused is dropped. -/
def execAbort (p : Port) (body : List Byte) (s : State) : Out :=
  let r := byteAt body 1
  if body.length != 2 || byteAt body 0 != 6 || r == 0 || 5 < r then .next (badLc s p)
  else
    let q := s.port p
    let s := s.onPort p fun q => { q with lastAbort := BitVec.ofNat 8 r }
    if r == 3 then
      let s := endSoundOps (toUntrained (leaveUp s p) p s.clock.line) p .failed 0x26
      .next (raise (s.onPort p fun q => { q with idClash := true }) 0x0507 (portSrc p) (beBytes 8 s.dieId.toNat))
    else if isSounding q then .next (soundingMissed s p r)
    else .next (s.onPort p fun q => { q with pendRx := none })

/-- `EVM_Q`: round(-4 x EVM in dB), the EVM given in 0.01 dB (Table 6.10). -/
def evmQOf (evm : Int) : BitVec 8 := BitVec.ofInt 8 (clamp 0 255 (roundDiv (-4 * evm) 100))

/-- Entries R182 changes at a trick boundary: ordinal and new entry. -/
def adaptChanges (snr good : List Nat) (t : BitTable) (m : Nat) : List (Nat × Nat) :=
  ((List.range 471).map fun i => (i, snr.getD i 255, good.getD i 0, t.getD i 0)).filterMap fun (i, v, g, e) =>
    if e == 0 || v == 255 then none
    else if carrierMargin v e < (m : Int) - 300 then some (i, entryFor v m)
    else if 1024 ≤ g && e < 12 then some (i, e + 1)
    else none

/-- The counts of tricks with at least M + 4 dB (R182). -/
def goodCounts (snr good : List Nat) (t : BitTable) (m : Nat) : List Nat :=
  (List.range 471).map fun i =>
    let v := snr.getD i 255
    let e := t.getD i 0
    if e != 0 && v != 255 && (m : Int) + 400 ≤ carrierMargin v e then good.getD i 0 + 1 else 0

/-- LINK_ADAPT (R181 to R183, R186): at each trick end, for a link beyond Listen. `drift` is the change of the link
delay since the last trick in 1/64 tick, from the pilots' phase drift (R104, R168). -/
def execLinkAdapt (p : Port) (snr : List Nat) (evm drift : Int) (s : State) : Out :=
  let q := s.port p
  .next <| whenDue (atTrick s && q.link != .off && q.link != .listen) (fun s =>
    let t := q.rxTable q.rxSlot
    let m := marginDb q.margin
    let good := goodCounts snr q.goodTricks t m
    let low := if headerBelow snr 0 then q.hdrLow + 1 else 0
    let w := worstHeader snr
    let s := s.onPort p fun q =>
      { q with snr := snr, goodTricks := good, hdrLow := low, lq := lqOf (worstMargin snr t), evmQ := evmQOf evm, crcFails := 0,
               linkD := q.linkD.map fun d => d + BitVec.ofInt 24 drift }
    if q.link != .up then s
    else
      let d := beBytes 2 w.1 ++ beBytes 1 w.2
      let s := if headerBelow snr m then raise s 0x0504 (portSrc p) d else clearLatching s 0x0504 (portSrc p) 0 d
      let ch := adaptChanges snr good t m
      let full := tableFor snr m
      let new := if ch.length ≤ 64 then ch.foldl (fun t c => t.set c.1 c.2) t else full
      if 16 ≤ q.crcFails then
        raise (resound s p 2) 0x0509 (portSrc p) (beBytes 1 (min q.crcFails 255))
      else if 16 ≤ low || (!ch.isEmpty && tableB new < 464) then resound s p 2
      else if q.marginDue then marginTable s p
      else if ch.isEmpty || q.pendRx.isSome then s
      else
        let s := s.onPort p fun q => { q with goodTricks := ch.foldl (fun g c => g.set c.1 0) q.goodTricks }
        sendTable s p new fun seq slot =>
          if ch.length ≤ 64 then partialTable seq q.margin slot ch else fullTable seq q.margin slot new) s

end Sys2Proof.Machine
end

