-- ==== Sys2Proof/Machine/WardCommands.lean ====
section
/-! DEFINITION. The commands WARD, KEY and DBG (17_ward_and_countersign.md, 21_debug_port.md R617), and the execution of a countersigned
command. -/

namespace Sys2Proof.Machine

/-! ## WARD.SET and WARD.READ (R520 to R522) -/

/-- A ward entry has a reserved field that is not zero (Table 17.2). -/
def entryReserved (e : List Byte) : Bool :=
  bit (wardGroups e) 0 || 2 ^ 21 ≤ wardGroups e || byteAt e 7 != 0 || byteAt e 11 != 0 || 4 ≤ wardPerm e || byteAt e 15 != 0

/-- The ward entry a WARD.SET carries. -/
def wardArg (f : CmdFrame) : List Byte := slice (cmdBody f) 1 16

/-- The entry of a hand as the last write asked for leaves it. -/
def wardAfter (s : State) (h : Nat) : List Byte :=
  match (s.vault.pulses.filter fun p => p.key == .ward (Fin.ofNat 16 h)).getLast? with
  | some p => p.data
  | none => wardEntry s.vault h

/-- Another hand's entry already holds an ownership bit the entry sets (R521). -/
def ownTaken (s : State) (h : Nat) (e : List Byte) : Bool :=
  (List.range 16).any fun o => o != h && (wardOwn (wardAfter s o) &&& wardOwn e) != 0

/-- The hand of a ward command. -/
def wardHand (f : CmdFrame) : Fin 16 := Fin.ofNat 16 (bodyByte f 0)

/-- WARD.SET. -/
def wardSetCmd : Cmd := { Cmd.plain 0x1103 with
  cs := always
  body := fun f s =>
    firstFail [failIf ((cmdBody f).length != 17 || entryReserved (wardArg f)) 0x14,
               failIf (handCount s ≤ bodyByte f 0 || 256 < wardQuota (wardArg f)) 0x16]
  own := fun f s => firstFail [failIf (ownTaken s (bodyByte f 0) (wardArg f)) 0x28, failIf (vaultFull s (.ward (wardHand f))) 0x22]
  run := fun f s => writeRun (.ward (wardHand f)) (fun f _ => wardArg f) f s }

/-- WARD.READ: a hand key may name only its own hand. -/
def wardReadCmd : Cmd := { Cmd.plain 0x1104 with
  ward := fun f _ => failIf (!underWarden f && bodyHas f 0 && bodyByte f 0 != f.hand.val) 0x13
  body := fun f s => firstFail [failIf ((cmdBody f).length != 1) 0x14, failIf (handCount s ≤ bodyByte f 0) 0x16]
  run := fun f s => (.now 0 0 (padTo 16 (wardEntry s.vault (bodyByte f 0))), s) }

/-! ## KEY.SET (R519, R524, R525) -/

/-- The slot of a KEY.SET. -/
def keyArg (f : CmdFrame) : Fin 20 := Fin.ofNat 20 (bodyByte f 0)

/-- The key a KEY.SET carries, decrypted under the command's own slot. -/
def newKey (s : State) (f : CmdFrame) : Nat := aesDec ((slotKey s (keySlot f)).getD 0) (bodyField f 16 16)

/-- The key of a warden slot as the last write asked for leaves it; the commissioning key counts as one (R524). -/
def wardenKey (s : State) (w : Fin 4) : Option Nat :=
  let k : Fin 20 := Fin.ofNat 20 (16 + w.val)
  match (s.vault.pulses.filter fun p => p.key == .key k).getLast? with
  | some p => if beNat p.data == 0 then none else some (beNat p.data)
  | none => slotKey s k

/-- Warden slots other than one that hold an installed key, a write that runs counted as done. -/
def otherWardens (s : State) (slot : Nat) : Nat :=
  ((List.finRange 4).filter fun w => 16 + w.val != slot &&
    (match (s.vault.pulses.filter fun p => p.key == .key (Fin.ofNat 20 (16 + w.val))).getLast? with
     | some p => beNat p.data != 0
     | none => wardenInstalled s w)).length

/-- A first installation (R525): unclaimed, COMMISSION high, a warden slot not yet written in this way. -/
def firstInstall (f : CmdFrame) (s : State) : Bool :=
  !vaultClaimed s.vault && s.vault.commission && 16 ≤ bodyByte f 0 && !s.vault.installed.any fun w => 16 + w.val == bodyByte f 0

/-- KEY.SET's conditions (R519, R525, Table 17.1). -/
def keySetOwn (f : CmdFrame) (s : State) : Option Nat :=
  let slot := bodyByte f 0
  let k := newKey s f
  firstFail [
    failIf (slot < 16 && !vaultClaimed s.vault) 0x28,
    failIf (16 ≤ slot && k != 0 && (List.finRange 4).any fun w => 16 + w.val != slot && wardenKey s w == some k) 0x28,
    failIf (16 ≤ slot && k == 0 && otherWardens s slot < 2) 0x28,
    failIf (vaultFull s (.key (keyArg f))) 0x22]

/-- KEY.SET: a first installation runs at once, every other one at its countersign. -/
def keySetCmd : Cmd := { Cmd.plain 0x1201 with
  cs := fun f s => !firstInstall f s
  body := fun f _ =>
    firstFail [failIf (bodyMalformed f 32 (0 :: (List.range 16).map (· + 16))) 0x14, failIf (20 ≤ bodyByte f 0) 0x16]
  own := keySetOwn
  run := fun f s =>
    match shortEnergy s with
    | some c => (.now c 0 [], s)
    | none =>
      let first := firstInstall f s
      let s' := if first then s.onVault fun v => { v with installed := v.installed ++ [Fin.ofNat 4 (bodyByte f 0 - 16)] } else s
      (.later, startWrite s' f (.key (keyArg f)) (beBytes 16 (newKey s f)) (if first then .install f else .final f)) }

/-! ## DBG.OPEN (R617) -/

/-- The hand may debug and DBG_EN is high. -/
def dbgAllowed (f : CmdFrame) (s : State) : Option Nat :=
  failIf (!s.straps.dbgEn || !bit (wardPerm (wardEntry s.vault f.hand.val)) 1) 0x13

/-- DBG.OPEN. -/
def dbgOpenCmd : Cmd := { Cmd.plain 0x1301 with
  cs := always
  ward := dbgAllowed
  body := fun f _ =>
    firstFail [failIf ((cmdBody f).length != 8 || 128 ≤ bodyField f 0 2 || 1 < bodyByte f 2 || bodyByte f 3 != 0) 0x14,
               failIf (bodyField f 4 2 == 0 || 2514 < bodyField f 4 2 || bodyField f 6 2 == 0) 0x16]
  own := fun f s => firstFail [dbgAllowed f s, failIf s.dbg.session.isSome 0x28]
  run := fun f s =>
    let ends : Tick := s.clock.age + BitVec.ofNat 64 (bodyField f 4 2 * 2 ^ 32)
    let s := s.onDebug fun d =>
      { d with session := some (BitVec.ofNat 16 (bodyField f 0 2), BitVec.ofNat 8 (bodyByte f 2), BitVec.ofNat 16 (bodyField f 6 2), f.hand, ends) }
    (.now 0 0 [], raise s 0x1201 0x80 (beBytes 1 f.hand.val ++ beBytes 2 (bodyField f 0 2) ++ beBytes 1 (bodyByte f 2)
      ++ beBytes 2 (bodyField f 4 2))) }

/-! ## Proposals and countersigns (R528, R529) -/

/-- The digest of a WARD.PROPOSE or WARD.COUNTERSIGN. -/
def digestArg (f : CmdFrame) : BitVec 256 := BitVec.ofNat 256 (bodyField f 0 32)

/-- One digest. -/
def digestBody (f : CmdFrame) (_ : State) : Option Nat := failIf ((cmdBody f).length != 32) 0x14

/-- WARD.PROPOSE. -/
def wardProposeCmd : Cmd := { Cmd.plain 0x1101 with
  body := digestBody
  own := fun f s => failIf (!proposalRoom s (wardenOf f) (digestArg f)) 0x18
  run := fun f s => (.now 0 0 [], propose s (wardenOf f) (digestArg f)) }

/-- The countersigned commands (Table 17.3). -/
def countersigned : List Cmd :=
  [chRestrapCmd, nodeRestrapCmd, nodeAdoptCmd, phyMaskCmd, trimCommitCmd, curveLoadCmd, memRepairCmd, twinReleaseCmd,
   wardSetCmd, keySetCmd, dbgOpenCmd]

/-- The command that awaits with a digest, its window not over (R476). -/
def awaited (s : State) (d : BitVec 256) : Option Await :=
  s.engine.awaiting.find? fun a => a.digest == d && s.clock.counter.toNat ≤ a.at_.toNat + 15000000000

/-- Execute a countersigned command (R476, R530): its own conditions again, then its effect, with the final response. -/
def runAwaited (s : State) (a : Await) : State :=
  let s := s.onEngine fun e => { e with awaiting := e.awaiting.filter fun x => x.f != a.f }
  match countersigned.find? fun c => c.op == opcodeOf a.f with
  | none => s
  | some c =>
    match c.own a.f s with
    | some code => finalResponse s a.f (some a.digest) code []
    | none =>
      match c.run a.f s with
      | (.now st _ body, s) => finalResponse s a.f (some a.digest) st body
      | (.later, s) => s

/-- WARD.COUNTERSIGN. -/
def wardCountersignCmd : Cmd := { Cmd.plain 0x1102 with
  body := digestBody
  own := fun f s =>
    let ps := (liveProposals s).filter fun p => p.digest == digestArg f
    firstFail [failIf ((awaited s (digestArg f)).isNone || ps.isEmpty) 0x27,
               failIf (ps.all fun p => p.warden == wardenOf f) 0x13]
  run := fun f s =>
    (.now 0 0 [], match awaited s (digestArg f) with
      | some a => runAwaited s a
      | none => s) }

/-! ## The rows -/

/-- WARD_PROPOSE (R528). -/
def execWardPropose (f : CmdFrame) (s : State) : Out := .next (runCommand wardProposeCmd f s)
/-- WARD_COUNTERSIGN (R529, R530, R538). -/
def execWardCountersign (f : CmdFrame) (s : State) : Out := .next (runCommand wardCountersignCmd f s)
/-- WARD_SET (R520, R521). -/
def execWardSet (f : CmdFrame) (s : State) : Out := .next (runCommand wardSetCmd f s)
/-- WARD_READ (R520). -/
def execWardRead (f : CmdFrame) (s : State) : Out := .next (runCommand wardReadCmd f s)
/-- KEY_SET (R519, R524, R525). -/
def execKeySet (f : CmdFrame) (s : State) : Out := .next (runCommand keySetCmd f s)
/-- DBG_OPEN (R617). -/
def execDbgOpen (f : CmdFrame) (s : State) : Out := .next (runCommand dbgOpenCmd f s)

end Sys2Proof.Machine
end

