-- ==== Sys2Proof/Machine/Dispatch.lean ====
section
/-! DEFINITION. The meaning of every command, one arm per row of spec/opcode_table.json. -/

namespace Sys2Proof.Machine

/-- The effect of a command on everything but the queue. -/
def exec (i : Instr) (s : State) : Host.Outcome State Fault Refusal :=
  match i with
  | .powerUp => Sys2Proof.Machine.execPowerUp s
  | .shellRelease => Sys2Proof.Machine.execShellRelease s
  | .railOutOfWindow r => Sys2Proof.Machine.execRailOutOfWindow r s
  | .vanLost => Sys2Proof.Machine.execVanLost s
  | .rstNAssert => Sys2Proof.Machine.execRstNAssert s
  | .rstNRelease => Sys2Proof.Machine.execRstNRelease s
  | .testEnHigh => Sys2Proof.Machine.execTestEnHigh s
  | .strapRound r => Sys2Proof.Machine.execStrapRound r s
  | .strapReadingResolved => Sys2Proof.Machine.execStrapReadingResolved s
  | .vaultLoadDone damaged => Sys2Proof.Machine.execVaultLoadDone damaged s
  | .memoryClearDone bad => Sys2Proof.Machine.execMemoryClearDone bad s
  | .kindleReadingDone => Sys2Proof.Machine.execKindleReadingDone s
  | .analogCoreStartDone calFail => Sys2Proof.Machine.execAnalogCoreStartDone calFail s
  | .kindleAttemptFail why => Sys2Proof.Machine.execKindleAttemptFail why s
  | .tierMoveDown lost => Sys2Proof.Machine.execTierMoveDown lost s
  | .tierMoveUp recovered => Sys2Proof.Machine.execTierMoveUp recovered s
  | .keeperRefresh => Sys2Proof.Machine.execKeeperRefresh s
  | .keeperTimerExpiry ch atLimit activity own total => Sys2Proof.Machine.execKeeperTimerExpiry ch atLimit activity own total s
  | .keeperCheck diffs => Sys2Proof.Machine.execKeeperCheck diffs s
  | .crosspointCheck bad => Sys2Proof.Machine.execCrosspointCheck bad s
  | .strapRereadEnd => Sys2Proof.Machine.execStrapRereadEnd s
  | .rereadHeldStart => Sys2Proof.Machine.execRereadHeldStart s
  | .restrapApply => Sys2Proof.Machine.execRestrapApply s
  | .blankmapDeferredApply => Sys2Proof.Machine.execBlankmapDeferredApply s
  | .curveCapLift => Sys2Proof.Machine.execCurveCapLift s
  | .trunkVUpdate n => Sys2Proof.Machine.execTrunkVUpdate n s
  | .trunkAbsent => Sys2Proof.Machine.execTrunkAbsent s
  | .telemetryLost => Sys2Proof.Machine.execTelemetryLost s
  | .damperUpdate => Sys2Proof.Machine.execDamperUpdate s
  | .flueLimStart => Sys2Proof.Machine.execFlueLimStart s
  | .ledgerUpdate vh vbus => Sys2Proof.Machine.execLedgerUpdate vh vbus s
  | .chargeEnable => Sys2Proof.Machine.execChargeEnable s
  | .chargePause => Sys2Proof.Machine.execChargePause s
  | .hearthOvervoltage => Sys2Proof.Machine.execHearthOvervoltage s
  | .hearthWeak vh => Sys2Proof.Machine.execHearthWeak vh s
  | .vbusOvervoltage vbus => Sys2Proof.Machine.execVbusOvervoltage vbus s
  | .ridingEnter vbus => Sys2Proof.Machine.execRidingEnter vbus s
  | .ridingEnd vbus => Sys2Proof.Machine.execRidingEnd vbus s
  | .energyCheck => Sys2Proof.Machine.execEnergyCheck s
  | .emberEntry => Sys2Proof.Machine.execEmberEntry s
  | .brownoutNoHearth => Sys2Proof.Machine.execBrownoutNoHearth s
  | .emberVsramLoss => Sys2Proof.Machine.execEmberVsramLoss s
  | .emberWake => Sys2Proof.Machine.execEmberWake s
  | .acquireStart => Sys2Proof.Machine.execAcquireStart s
  | .disciplineLoopUpdate want freqErr phaseErr => Sys2Proof.Machine.execDisciplineLoopUpdate want freqErr phaseErr s
  | .disciplined => Sys2Proof.Machine.execDisciplined s
  | .holdoverEnter p => Sys2Proof.Machine.execHoldoverEnter p s
  | .pllLockLost => Sys2Proof.Machine.execPllLockLost s
  | .beaconSend => Sys2Proof.Machine.execBeaconSend s
  | .beaconReceive p body a64 => Sys2Proof.Machine.execBeaconReceive p body a64 s
  | .realignJump => Sys2Proof.Machine.execRealignJump s
  | .slewEnd => Sys2Proof.Machine.execSlewEnd s
  | .epochChangeNoJump => Sys2Proof.Machine.execEpochChangeNoJump s
  | .eventRelease => Sys2Proof.Machine.execEventRelease s
  | .holdingStoreDrain => Sys2Proof.Machine.execHoldingStoreDrain s
  | .heldClearRelease code local_ obj => Sys2Proof.Machine.execHeldClearRelease code local_ obj s
  | .nodeResetApply => Sys2Proof.Machine.execNodeResetApply s
  | .portResetApply p => Sys2Proof.Machine.execPortResetApply p s
  | .portQuietEnd p => Sys2Proof.Machine.execPortQuietEnd p s
  | .pipeResetApply p => Sys2Proof.Machine.execPipeResetApply p s
  | .pipeIngressResume p => Sys2Proof.Machine.execPipeIngressResume p s
  | .chRekindleCalDone ch calFail => Sys2Proof.Machine.execChRekindleCalDone ch calFail s
  | .pilotLock p => Sys2Proof.Machine.execPilotLock p s
  | .pilotsLost p => Sys2Proof.Machine.execPilotsLost p s
  | .linkStart p => Sys2Proof.Machine.execLinkStart p s
  | .trainReqSend p => Sys2Proof.Machine.execTrainReqSend p s
  | .trainReq p body => Sys2Proof.Machine.execTrainReq p body s
  | .trainAck p body => Sys2Proof.Machine.execTrainAck p body s
  | .soundingSlot p residualEcho => Sys2Proof.Machine.execSoundingSlot p residualEcho s
  | .delay p body a64 => Sys2Proof.Machine.execDelay p body a64 s
  | .soundingTableSend p snr => Sys2Proof.Machine.execSoundingTableSend p snr s
  | .table p body => Sys2Proof.Machine.execTable p body s
  | .tableAck p body => Sys2Proof.Machine.execTableAck p body s
  | .tableSwitch p => Sys2Proof.Machine.execTableSwitch p s
  | .oldSlotRelease p => Sys2Proof.Machine.execOldSlotRelease p s
  | .tableResend p => Sys2Proof.Machine.execTableResend p s
  | .soundingStepMissed p => Sys2Proof.Machine.execSoundingStepMissed p s
  | .abort p body => Sys2Proof.Machine.execAbort p body s
  | .linkAdapt p snr evm drift => Sys2Proof.Machine.execLinkAdapt p snr evm drift s
  | .silenceTimerExpiry => Sys2Proof.Machine.execSilenceTimerExpiry s
  | .bidSend => Sys2Proof.Machine.execBidSend s
  | .bid p body => Sys2Proof.Machine.execBid p body s
  | .clash p body => Sys2Proof.Machine.execClash p body s
  | .tally p body => Sys2Proof.Machine.execTally p body s
  | .cutMessagePassOn p => Sys2Proof.Machine.execCutMessagePassOn p s
  | .cutSettle => Sys2Proof.Machine.execCutSettle s
  | .cutFollowTimeout => Sys2Proof.Machine.execCutFollowTimeout s
  | .dealSend => Sys2Proof.Machine.execDealSend s
  | .deal p body => Sys2Proof.Machine.execDeal p body s
  | .dealerFacingChange => Sys2Proof.Machine.execDealerFacingChange s
  | .break_ p body => Sys2Proof.Machine.execBreak p body s
  | .call p body => Sys2Proof.Machine.execCall p body s
  | .topologyFlush => Sys2Proof.Machine.execTopologyFlush s
  | .reclaimPassEnd => Sys2Proof.Machine.execReclaimPassEnd s
  | .headerDecision p hdr ecc => Sys2Proof.Machine.execHeaderDecision p hdr ecc s
  | .transitEgress p => Sys2Proof.Machine.execTransitEgress p s
  | .payloadCheck p payload pcrc => Sys2Proof.Machine.execPayloadCheck p payload pcrc s
  | .rxPreempt p => Sys2Proof.Machine.execRxPreempt p s
  | .portSymbolSchedule p => Sys2Proof.Machine.execPortSymbolSchedule p s
  | .placeAnnounceSend => Sys2Proof.Machine.execPlaceAnnounceSend s
  | .agingScannerVisit p => Sys2Proof.Machine.execAgingScannerVisit p s
  | .learnedPrefixAging => Sys2Proof.Machine.execLearnedPrefixAging s
  | .policerRefill => Sys2Proof.Machine.execPolicerRefill s
  | .shaperRefill => Sys2Proof.Machine.execShaperRefill s
  | .epochDrained => Sys2Proof.Machine.execEpochDrained s
  | .commitPrepared => Sys2Proof.Machine.execCommitPrepared s
  | .commitSwitch => Sys2Proof.Machine.execCommitSwitch s
  | .commitWritebackDone => Sys2Proof.Machine.execCommitWritebackDone s
  | .commitDefer => Sys2Proof.Machine.execCommitDefer s
  | .flushPortStep handle => Sys2Proof.Machine.execFlushPortStep handle s
  | .streamFrameBuild sid => Sys2Proof.Machine.execStreamFrameBuild sid s
  | .originEntryRemove sid => Sys2Proof.Machine.execOriginEntryRemove sid s
  | .outApply ch => Sys2Proof.Machine.execOutApply ch s
  | .responseHeldRelease => Sys2Proof.Machine.execResponseHeldRelease s
  | .handResetDrain h => Sys2Proof.Machine.execHandResetDrain h s
  | .scrubWrite => Sys2Proof.Machine.execScrubWrite s
  | .sweepRegionStart obs => Sys2Proof.Machine.execSweepRegionStart obs s
  | .wakeScrubEnd => Sys2Proof.Machine.execWakeScrubEnd s
  | .disconnectOpen ft => Sys2Proof.Machine.execDisconnectOpen ft s
  | .disconnectReclose ft => Sys2Proof.Machine.execDisconnectReclose ft s
  | .loopSupplyFoldback ch => Sys2Proof.Machine.execLoopSupplyFoldback ch s
  | .loopSupplyRetry ch t0Good => Sys2Proof.Machine.execLoopSupplyRetry ch t0Good s
  | .roleChangeStart ch => Sys2Proof.Machine.execRoleChangeStart ch s
  | .roleChangeStep ch => Sys2Proof.Machine.execRoleChangeStep ch s
  | .sampleReady ch obs => Sys2Proof.Machine.execSampleReady ch obs s
  | .blankRise k => Sys2Proof.Machine.execBlankRise k s
  | .blankFall k => Sys2Proof.Machine.execBlankFall k s
  | .blankTooLong k => Sys2Proof.Machine.execBlankTooLong k s
  | .blankIgnoreEnd k => Sys2Proof.Machine.execBlankIgnoreEnd k s
  | .cjReferenceLossTimeout => Sys2Proof.Machine.execCjReferenceLossTimeout s
  | .curveSwitch slot => Sys2Proof.Machine.execCurveSwitch slot s
  | .settlingAllowanceEnd ch => Sys2Proof.Machine.execSettlingAllowanceEnd ch s
  | .readbackResult ch rb => Sys2Proof.Machine.execReadbackResult ch rb s
  | .trimPointReady ch r => Sys2Proof.Machine.execTrimPointReady ch r s
  | .trimStepTimeout handle => Sys2Proof.Machine.execTrimStepTimeout handle s
  | .trimApply ch => Sys2Proof.Machine.execTrimApply ch s
  | .vaultWriteEnd good => Sys2Proof.Machine.execVaultWriteEnd good s
  | .countersignExpiry h => Sys2Proof.Machine.execCountersignExpiry h s
  | .proposalLapse => Sys2Proof.Machine.execProposalLapse s
  | .commissionChange high => Sys2Proof.Machine.execCommissionChange high s
  | .vaultClaim => Sys2Proof.Machine.execVaultClaim s
  | .wardLockChange high => Sys2Proof.Machine.execWardLockChange high s
  | .fixedResponder f => Sys2Proof.Machine.execFixedResponder f s
  | .statRead f => Sys2Proof.Machine.execStatRead f s
  | .statCount f => Sys2Proof.Machine.execStatCount f s
  | .evRead f => Sys2Proof.Machine.execEvRead f s
  | .evAck f => Sys2Proof.Machine.execEvAck f s
  | .handClaim f => Sys2Proof.Machine.execHandClaim f s
  | .handStations f => Sys2Proof.Machine.execHandStations f s
  | .handReset f => Sys2Proof.Machine.execHandReset f s
  | .qRead f => Sys2Proof.Machine.execQRead f s
  | .qSet f => Sys2Proof.Machine.execQSet f s
  | .subOpen f => Sys2Proof.Machine.execSubOpen f s
  | .subClose f => Sys2Proof.Machine.execSubClose f s
  | .outSet f => Sys2Proof.Machine.execOutSet f s
  | .outAlarmdir f => Sys2Proof.Machine.execOutAlarmdir f s
  | .tblSearch f => Sys2Proof.Machine.execTblSearch f s
  | .tblNext f => Sys2Proof.Machine.execTblNext f s
  | .tblAdd f => Sys2Proof.Machine.execTblAdd f s
  | .tblDel f => Sys2Proof.Machine.execTblDel f s
  | .tblFlushPort f => Sys2Proof.Machine.execTblFlushPort f s
  | .tblCommit f => Sys2Proof.Machine.execTblCommit f s
  | .chRestrap f => Sys2Proof.Machine.execChRestrap f s
  | .chRekindle f => Sys2Proof.Machine.execChRekindle f s
  | .nodeReset f => Sys2Proof.Machine.execNodeReset f s
  | .nodeRestrap f => Sys2Proof.Machine.execNodeRestrap f s
  | .nodeAdopt f => Sys2Proof.Machine.execNodeAdopt f s
  | .portReset f => Sys2Proof.Machine.execPortReset f s
  | .pipeReset f => Sys2Proof.Machine.execPipeReset f s
  | .phySound f => Sys2Proof.Machine.execPhySound f s
  | .phyMargin f => Sys2Proof.Machine.execPhyMargin f s
  | .phyMask f => Sys2Proof.Machine.execPhyMask f s
  | .phySnr f => Sys2Proof.Machine.execPhySnr f s
  | .trimStart f => Sys2Proof.Machine.execTrimStart f s
  | .trimPoint f => Sys2Proof.Machine.execTrimPoint f s
  | .trimCommit f => Sys2Proof.Machine.execTrimCommit f s
  | .curveLoad f => Sys2Proof.Machine.execCurveLoad f s
  | .memRepair f => Sys2Proof.Machine.execMemRepair f s
  | .memSweep f => Sys2Proof.Machine.execMemSweep f s
  | .twinMirror f => Sys2Proof.Machine.execTwinMirror f s
  | .twinRelease f => Sys2Proof.Machine.execTwinRelease f s
  | .wardPropose f => Sys2Proof.Machine.execWardPropose f s
  | .wardCountersign f => Sys2Proof.Machine.execWardCountersign f s
  | .wardSet f => Sys2Proof.Machine.execWardSet f s
  | .wardRead f => Sys2Proof.Machine.execWardRead f s
  | .keySet f => Sys2Proof.Machine.execKeySet f s
  | .dbgOpen f => Sys2Proof.Machine.execDbgOpen f s
  | .opStatus f => Sys2Proof.Machine.execOpStatus f s
  | .opSuspend f => Sys2Proof.Machine.execOpSuspend f s
  | .opResume f => Sys2Proof.Machine.execOpResume f s
  | .opCancel f => Sys2Proof.Machine.execOpCancel f s
  | .opStart handle => Sys2Proof.Machine.execOpStart handle s
  | .opSuspendTimeout handle => Sys2Proof.Machine.execOpSuspendTimeout handle s
  | .opRecordFree handle => Sys2Proof.Machine.execOpRecordFree handle s
  | .seatFrameSend => Sys2Proof.Machine.execSeatFrameSend s
  | .seatFrameReceive bytes => Sys2Proof.Machine.execSeatFrameReceive bytes s
  | .heartbeatLoss => Sys2Proof.Machine.execHeartbeatLoss s
  | .pairingWindowEnd => Sys2Proof.Machine.execPairingWindowEnd s
  | .leadChange => Sys2Proof.Machine.execLeadChange s
  | .shuntCatch ch => Sys2Proof.Machine.execShuntCatch ch s
  | .takeoverTrip ch => Sys2Proof.Machine.execTakeoverTrip ch s
  | .handback => Sys2Proof.Machine.execHandback s
  | .mirrorResend => Sys2Proof.Machine.execMirrorResend s
  | .seatRecordRewrite => Sys2Proof.Machine.execSeatRecordRewrite s
  | .releaseComplete => Sys2Proof.Machine.execReleaseComplete s
  | .tapReset => Sys2Proof.Machine.execTapReset s
  | .tapRegisterWrite ir dr => Sys2Proof.Machine.execTapRegisterWrite ir dr s
  | .extest balls drive => Sys2Proof.Machine.execExtest balls drive s
  | .samplePreload balls preload => Sys2Proof.Machine.execSamplePreload balls preload s
  | .clamp => Sys2Proof.Machine.execClamp s
  | .highz => Sys2Proof.Machine.execHighz s
  | .dctrlHalt reg => Sys2Proof.Machine.execDctrlHalt reg s
  | .dctrlResume reg => Sys2Proof.Machine.execDctrlResume reg s
  | .dctrlStep reg => Sys2Proof.Machine.execDctrlStep reg s
  | .dctrlClose reg => Sys2Proof.Machine.execDctrlClose reg s
  | .dctrlClearBphit reg => Sys2Proof.Machine.execDctrlClearBphit reg s
  | .stepEnd => Sys2Proof.Machine.execStepEnd s
  | .dbrk reg => Sys2Proof.Machine.execDbrk reg s
  | .breakpointFire n quantity => Sys2Proof.Machine.execBreakpointFire n quantity s
  | .dmemRead reg ecc => Sys2Proof.Machine.execDmemRead reg ecc s
  | .dmemWrite reg => Sys2Proof.Machine.execDmemWrite reg s
  | .sessionLifetimeEnd => Sys2Proof.Machine.execSessionLifetimeEnd s
  | .reclaimPassVisit => Sys2Proof.Machine.execReclaimPassVisit s
  | .phyMaskDeferredApply p => Sys2Proof.Machine.execPhyMaskDeferredApply p s
  | .testEnLow => Sys2Proof.Machine.execTestEnLow s

end Sys2Proof.Machine
end

