-- ==== Sys2Proof/Safety.lean ====
section
/-! DEFINITION. What counts as a safe step, in the terms the statements use: what a step leaves alone, and what a
command answers. -/

namespace Sys2Proof.Safety

open Sys2Proof.Machine

/-- The parts of the state, one for each field of `State`. -/
inductive Part where
  | dieId | free | supply | tiers | straps | clock | portA | portB | cut | tables | queues | hands | streams | chans
  | mem | engine | vault | seat | events | dbg | announce | counters | pending
  deriving DecidableEq, Repr

/-- The part of `t` is that of `s`. -/
def Part.same (p : Part) (s t : State) : Prop :=
  match p with
  | .dieId => t.dieId = s.dieId
  | .free => t.free = s.free
  | .supply => t.supply = s.supply
  | .tiers => t.tiers = s.tiers
  | .straps => t.straps = s.straps
  | .clock => t.clock = s.clock
  | .portA => t.portA = s.portA
  | .portB => t.portB = s.portB
  | .cut => t.cut = s.cut
  | .tables => t.tables = s.tables
  | .queues => t.queues = s.queues
  | .hands => t.hands = s.hands
  | .streams => t.streams = s.streams
  | .chans => t.chans = s.chans
  | .mem => t.mem = s.mem
  | .engine => t.engine = s.engine
  | .vault => t.vault = s.vault
  | .seat => t.seat = s.seat
  | .events => t.events = s.events
  | .dbg => t.dbg = s.dbg
  | .announce => t.announce = s.announce
  | .counters => t.counters = s.counters
  | .pending => t.pending = s.pending

/-- Outside the parts listed, `t` is `s`. -/
structure Alters (l : List Part) (s t : State) : Prop where
  keeps : ∀ p, p ∉ l → p.same s t

/-- The outcome is a next state that is `s` outside the parts listed. -/
def Answers (l : List Part) (s : State) (o : Out) : Prop := ∃ t, o = .next t ∧ Alters l s t

/-- A step that goes on to a next state. -/
def Goes (s : State) : Prop := ∃ t, step s = .next t

/-- The command completes with the next state `t`. -/
def Runs (c : Instr) (s t : State) : Prop := exec c s = .next t

/-- What every chip reset leaves (R126, R139, Table 5.4): the vault, the keeper configurations and hold latches, the flue latch, and everything
else at its start, in Banked under the rail monitor's bank-now. -/
structure AfterChipReset (s t : State) : Prop where
  tier : t.tiers.tier = .banked
  clock : t.clock.counter = 0 ∧ t.clock.epoch = 0 ∧ t.clock.state = .crystal
  vault : t.vault.recs = s.vault.recs
  keepers : ∀ n : Fin 24, (t.chan n).keeper = (s.chan n).keeper ∧ (t.chan n).latch = (s.chan n).latch ∧
    (t.chan n).bankMon = true ∧ (t.chan n).inControl = true
  outputs : ∀ n : Fin 24, (t.chan n).commanded = false ∧ (t.chan n).pending = [] ∧ (t.chan n).override = none
  streams : t.streams = []
  operations : t.engine.ops = [] ∧ t.engine.awaiting = []
  hands : ∀ h : Fin 16, (t.hand h).state = .clean ∧ (t.hand h).evCount = 0
  events : t.events.merge = [] ∧ t.events.latches = []
  memory : t.mem.cells = [] ∧ t.mem.poison = []
  flue : t.supply.flueLatched = s.supply.flueLatched
  identity : t.dieId = s.dieId ∧ t.pending = s.pending

/-- An event of the code stands in the merge of `t`, raised at the counter value of `s` from the local source, with the detail
(R113, R114, R592). -/
def Logs (s t : State) (code src : Nat) (detail : List Byte) : Prop :=
  ∃ e ∈ t.events.merge, e.code.toNat = code ∧ e.src.toNat % 256 = src ∧ e.detail = detail ∧ e.tick = s.clock.counter ∧
    e.clear = false

/-- The delay of Table 13.1 or R440 between a conversion's instant and its readiness, without the 3,000 ticks of combining. -/
def readySpan (p : BitVec 8) : Nat :=
  if isOutput p then periodOf p else if periodOf p ≤ 2500000 then 2 * periodOf p else periodOf p / 2 * 3

/-- A conversion of the channel, other than the node reference, is due: in Measure and Full, at a new instant of its grid that is
ready (R403, R440). -/
structure SampleDue (s : State) (n : Fin 24) (p : BitVec 8) (e : SampleObs) : Prop where
  profile : (s.chan n).profile = some p
  kind : (isInput p || isOutput p) = true
  own : isCjRef s n = false
  tier : Tier.measure.rank ≤ s.tiers.tier.rank
  fresh : ∀ l, (s.chan n).lastInstant = some l → l.toNat < e.conv.instant.toNat
  grid : e.conv.instant.toNat % periodOf p = (s.chan n).grid.getD 0
  ready : e.conv.instant.toNat + readySpan p + 3000 ≤ s.clock.counter.toNat
  pos : (s.chan n).ringPos < 32768

/-- The channel's sample of an instant is in its ring at the write position, which moves on, and in every stream that takes the
instant; no other byte of memory and no other channel changes (Table 11.5, R320). -/
structure Sampled (s t : State) (n : Fin 24) (at_ : Tick) (v : BitVec 24) (tag : BitVec 8) : Prop where
  ring : t.mem.readN (0xC00000 + 0x20000 * n.val + 4 * (s.chan n).ringPos) 4 = beBytes 3 v.toNat ++ [tag]
  pos : (t.chan n).ringPos = ((s.chan n).ringPos + 1) % 32768
  streams : t.streams = s.streams.map fun x =>
    if streamTakes s x n at_ then
      { x with rows := addRow at_ n.val { value := v, tag := tag, pos := (s.chan n).ringPos } x.rows } else x
  memory : ∀ a, (a < 0xC00000 + 0x20000 * n.val + 4 * (s.chan n).ringPos ∨
    0xC00000 + 0x20000 * n.val + 4 * (s.chan n).ringPos + 4 ≤ a) → cellsRead t.mem.cells a = cellsRead s.mem.cells a
  others : ∀ m, m ≠ n → t.chan m = s.chan m

/-- Nothing keeps the channel from a fresh sample of the instant: rows 1 to 3 of Table 13.4 do not apply, and no path fault
arises (R413, Table 13.8). -/
structure Fresh (s : State) (n : Fin 24) (e : SampleObs) (at_ : Tick) : Prop where
  blank : blanked s n at_ = false ∧ blanked s n e.conv.instant = false
  stale : staleAt (s.chan n) at_ = false ∧ e.stepInWindow = false ∧ e.settled = true ∧ usedOpen s n = false
  open_ : (s.chan n).sensorOpen = false ∧ (s.chan n).tcOpen = false ∧ (s.chan n).cjFault = false
  on : capped (s.chan n) = false ∧ (s.chan n).restrap = false ∧ (s.chan n).switches = true ∧ halted s 6 = false
  paths : -100 ≤ e.gainDev ∧ e.gainDev ≤ 100 ∧ (s.chan n).fineBad < 63 ∧ (s.chan n).coarseBad < 63

/-- A readback result of an output channel is due: the shell runs, the keeper is configured, and no result of this counter value has been
taken (R439, R441). -/
structure ReadbackDue (s : State) (n : Fin 24) (p : BitVec 8) : Prop where
  shell : shellRuns s = true
  profile : (s.chan n).profile = some p
  kind : isOutput p = true
  keeper : (s.chan n).keeper.isSome = true
  fresh : ∀ e r, (s.chan n).readings = e :: r → e.1.toNat < s.clock.counter.toNat
  runs : halted s 6 = false

/-- The delivery value of a readback result after the readback correction: the total, or the load voltage (R441, R453). -/
def delivered (s : State) (n : Fin 24) (p : BitVec 8) (r : Readback) : Int :=
  (trimOf s.vault n).reading (if cpaOf p = 13 then r.load else r.total)

/-! ## Commands of the command set -/

/-- The state in which a command that was taken and authenticated is judged and executed: its frame has left the input queue, and its
sequence number counts (R467, R472). -/
def atExecution (f : CmdFrame) (s : State) : State := acceptSeq (takeInput s f) f

/-- The engine takes the frame now, it is this command, and its checks 1 to 11 pass (Table 15.2). -/
structure Accepted (c : Cmd) (f : CmdFrame) (s : State) : Prop where
  takes : engineTakes s f = true
  op : opcodeOf f = c.op
  auth : authenticate (takeInput s f) f = .ok
  checks : checksOf c f (atExecution f s) = none

/-- The response of a command waits in the response queue of its hand, or is held for room: to the sender, with its number, status, flags
and body, authenticated under its slot's session (R470). -/
structure Responds (s t : State) (f : CmdFrame) (status flags : Nat) (body : List Byte) : Prop where
  response : ∃ q, (q ∈ qFrames t (32 + f.hand.val) ∨ (32 + f.hand.val, q) ∈ t.queues.heldOut) ∧ q.hdr.dest = f.srcTag ∧
    q.hdr.tclass = 6 ∧ q.hdr.seq = f.seq ∧ q.payload = responsePayload s f status flags body true

/-- The command has counted: its number and `MAC` are the slot's last, the turn has passed on, and no other slot has changed
(R467, R472). -/
structure Counted (s t : State) (f : CmdFrame) : Prop where
  seq : t.engine.slots[keySlot f].lastSeq = f.seq
  mac : t.engine.slots[keySlot f].lastMac = some (macField f)
  turn : t.engine.turn = (f.hand.val + 1) % 16
  slots : ∀ k, k ≠ keySlot f → t.engine.slots[k] = s.engine.slots[k]

/-- A command has run and answered: outside the parts `l` only its own input, the free values, the response queues and the slot have
changed, and a debug step has counted. -/
structure Replies (l : List Part) (s t : State) (f : CmdFrame) (status flags : Nat) (body : List Byte) : Prop where
  responds : Responds s t f status flags body
  counted : Counted s t f
  alters : Alters ([.free, .queues, .hands, .engine, .dbg] ++ l) s t
  queues : .queues ∈ l ∨ ((∀ q, q ≠ 32 + f.hand.val → qFrames t q = qFrames s q) ∧ t.queues.settings = s.queues.settings)
  hands : .hands ∈ l ∨ ∀ h, t.hand h = (takeInput s f).hand h
  engine : .engine ∈ l ∨ (t.engine.ops = s.engine.ops ∧ t.engine.awaiting = s.engine.awaiting ∧
    t.engine.proposals = s.engine.proposals ∧ t.engine.writing = s.engine.writing)

/-- The body of the 0x03 response of an awaiting command: its digest, and the X of TRIM.COMMIT (R475, R477). -/
def awaitBody (s : State) (f : CmdFrame) (x : List Byte) : List Byte := beBytes 32 (changeDigest s f x).toNat ++ x

/-- The command waits for its countersign with its digest, alone for its hand (R475). -/
def Awaits (t : State) (f : CmdFrame) (d : BitVec 256) : Prop :=
  ∃ a ∈ t.engine.awaiting, a.f = f ∧ a.digest = d

/-- A long operation has been created: its record, its response with the handle, and every earlier record as it was (R495, R496). -/
structure Created (l : List Part) (s t : State) (f : CmdFrame) (obj : OpObject) (st : OpState) : Prop where
  made : ∃ o, opOf t o.handle.toNat = some o ∧ o.hand = f.hand ∧ o.opcode.toNat = opcodeOf f ∧ o.object = obj ∧ o.state = st ∧
    o.f = f ∧ o.handle ≠ 0 ∧ (∀ p ∈ s.engine.ops, p.handle ≠ o.handle) ∧ Replies (.engine :: l) s t f 1 0 (beBytes 2 o.handle.toNat)
  kept : ∀ p ∈ s.engine.ops, p ∈ t.engine.ops

/-- The standing facts no command may break: the memory's canonical form and the die identity `d` (R339, R514). -/
def Inv (d : BitVec 64) (s : State) : Prop := s.mem.wf = true ∧ s.dieId = d

end Sys2Proof.Safety
end

