-- ==== Sys2Proof/Certificates/Slice0/Obligations.lean ====
section
/-! DEFINITION. The statements for the provers. -/

open Sys2Proof Sys2Proof.Machine Sys2Proof.Safety

/-- A step runs the command at the front of the queue on the state with the queue's rest. -/
def Obligations.StepRunsFront : Prop :=
  ∀ (c : Instr) (rest : List Instr) (s : State), s.pending = c :: rest → step s = exec c { s with pending := rest }

/-- Every command answers a next state, whatever its operands and the state, and leaves the waiting commands and the die identity alone. -/
def Obligations.EveryCommandAnswersAndLeavesTheQueue : Prop :=
  ∀ (c : Instr) (s : State), ∃ t, exec c s = .next t ∧ t.pending = s.pending ∧ t.dieId = s.dieId

/-- Every step keeps the canonical form of the memory and the die identity. -/
def Obligations.StepKeepsMemoryFormAndDieId : Prop :=
  ∀ (d : BitVec 64) (s t : State), Inv d s → step s = .next t → Inv d t

/-- The state as manufactured has the invariant, an empty queue and the tier Dark. What is the model's choice in it, log entries 1 and 6 name. -/
def Obligations.ResetHoldsTheInvariant : Prop :=
  Inv State.reset.dieId State.reset ∧ State.reset.pending = [] ∧ State.reset.tiers.tier = .dark ∧
  State.reset.supply.kindle = .off ∧ State.reset.supply.vbus = false ∧ State.reset.streams = [] ∧
  State.reset.mem.cells = [] ∧ State.reset.events.merge = [] ∧ State.reset.events.latches = []

/-- On an empty queue one tick passes: in service without a slew the counter, line time and the age clock advance by one. What is the model's choice in it, log entry 2 names. -/
def Obligations.IdleTickAdvancesTheClocks : Prop :=
  ∀ s : State, s.pending = [] → shellRuns s = true → s.clock.slew = none → s.dbg.haltNext = none →
    s.dbg.resumeNext = none → s.dbg.step = none →
    ∃ t, step s = .next t ∧ Alters [.clock, .tiers] s t ∧ t.clock.counter = s.clock.counter + 1 ∧
      t.clock.line = s.clock.line + 1 ∧ t.clock.age = s.clock.age + 1 ∧ t.clock.state = s.clock.state ∧
      t.clock.epoch = s.clock.epoch

/-- POWER_UP enters Rails under bank-now; VAN_LOST is Off and Dark; RST_N_RELEASE and TEST_EN_LOW change nothing but their pin. What is the model's choice in it, log entries 1, 13 and 15 name. -/
def Obligations.PowerAndPins : Prop :=
  (∀ s : State, s.supply.kindle = .off → s.supply.causeNext = none →
    ∃ t, exec .powerUp s = .next t ∧ Alters [.supply, .tiers, .chans] s t ∧ t.supply.kindle = .rails ∧ t.supply.vbus = true ∧
      t.supply.causeNext = some 1 ∧ t.supply.hearthDis = false ∧ t.supply.flueEn = !s.supply.flueLatched ∧
      t.tiers.tier = .banked ∧ ∀ n : Fin 24, (t.chan n).bankMon = true ∧ (t.chan n).inControl = true ∧
        (t.chan n).keeper = (s.chan n).keeper ∧ (t.chan n).latch = (s.chan n).latch) ∧
  (∀ s : State, ∃ t, exec .vanLost s = .next t ∧ t.supply.kindle = .off ∧ t.tiers.tier = .dark ∧ t.vault.recs = s.vault.recs ∧
    t.chans = State.reset.chans ∧ t.supply.retention = false ∧ t.supply.causeNext = none ∧ t.dieId = s.dieId ∧
    t.pending = s.pending ∧ Rail.van ∉ t.supply.good) ∧
  (∀ s : State, exec .rstNRelease s = .next { s with supply := { s.supply with rstN := true } }) ∧
  (∀ s : State, exec .testEnLow s = .next { s with supply := { s.supply with testEn := false } })

/-- SHELL_RELEASE: counter and epoch zero, clock state Crystal, retention latch cleared, new sessions and seeds. What is the model's choice in it, log entries 5 and 14 name. -/
def Obligations.ShellReleaseStartsReading : Prop :=
  ∀ s : State, s.supply.kindle = .rails → s.supply.vbus = true → s.supply.rstN = true → s.supply.testEn = false →
    ∃ t, exec .shellRelease s = .next t ∧
      Alters [.free, .supply, .straps, .clock, .tables, .chans, .engine, .dbg] s t ∧
      t.supply.kindle = .reading ∧ t.clock.counter = 0 ∧ t.clock.epoch = 0 ∧ t.clock.state = .crystal ∧
      t.supply.retention = false ∧ t.straps = Straps.reset ∧
      (∀ n : Fin 24, (t.chan n).bankMon = false ∧ (t.chan n).bankShell = true) ∧
      t.tables.pb.seed = t.tables.pa.seed ^^^ 0x9E37 ∧
      ∀ k : Fin 20, t.engine.slots[k].session ≠ s.engine.slots[k].session

/-- RST_N_ASSERT, NODE_RESET_APPLY, a rail lost in Joining, TEST_EN_HIGH and a failed attempt reset the chip: the vault stays, the rest is cleared. What is the model's choice in it, log entries 15, 26, 54 and 118 name. -/
def Obligations.ChipResetClearsAndKeeps : Prop :=
  (∀ s : State, s.supply.kindle ≠ .off → s.supply.kindle ≠ .ember →
    ∃ t, exec .rstNAssert s = .next t ∧ AfterChipReset s t ∧ t.supply.kindle = .rails ∧ t.supply.rstN = false) ∧
  (∀ s : State, atTrick s = true → s.engine.nodeReset = true → (∀ h < 16, responseOut s h 0x0901 = false) →
    ∃ t, exec .nodeResetApply s = .next t ∧ AfterChipReset s t ∧ t.supply.kindle = .rails) ∧
  (∀ (r : Rail) (s : State), r ≠ .van → (s.supply.kindle = .reading ∨ s.supply.kindle = .joining) →
    ∃ t, exec (.railOutOfWindow r) s = .next t ∧ AfterChipReset s t ∧ t.supply.kindle = .rails ∧ r ∉ t.supply.good) ∧
  (∀ s : State, shellRuns s = true →
    ∃ t, exec .testEnHigh s = .next t ∧ AfterChipReset s t ∧ t.supply.kindle = .rails ∧ t.supply.testEn = true) ∧
  (∀ (w : KindleFail) (s : State),
    (s.supply.kindle = .rails ∨ s.supply.kindle = .reading ∨ s.supply.kindle = .joining) →
    ∃ t, exec (.kindleAttemptFail w) s = .next t ∧ AfterChipReset s t ∧ t.supply.attempts = s.supply.attempts + 1 ∧
      t.supply.kindle = if s.supply.attempts < 2 then .rails else .halted)

/-- STRAP_ROUND and STRAP_READING_RESOLVED: a code is taken when at least five of eight conversions give it; a failed reference makes every pin ambiguous. -/
def Obligations.StrapRoundsResolveByMajority : Prop :=
  (∀ (r : StrapRound) (s : State), s.supply.kindle = .reading → s.straps.resolved = false → s.straps.rounds.length < 8 →
    exec (.strapRound r) s = .next { s with straps := { s.straps with rounds := s.straps.rounds ++ [r] } }) ∧
  (∀ s : State, s.supply.kindle = .reading → s.straps.resolved = false → s.straps.rounds.length = 8 →
    ∃ t, exec .strapReadingResolved s = .next t ∧ Alters [.supply, .straps, .events] s t ∧ t.straps.resolved = true ∧
      (∀ i < 72, (∀ r ∈ s.straps.rounds, strapRefsGood r = true) →
        (∀ n : Fin 16, 5 ≤ ((pinConvs s.straps.rounds i).filter (· == some n)).length → codeAt t.straps.codes i = .code n) ∧
        ((∀ n : Fin 16, ((pinConvs s.straps.rounds i).filter (· == some n)).length < 5) → codeAt t.straps.codes i = .ambiguous)) ∧
      ((∃ r ∈ s.straps.rounds, strapRefsGood r = false) → ∀ i, codeAt t.straps.codes i = .ambiguous) ∧
      t.straps.digest = strapDigest t.straps.codes t.straps.almSel t.straps.dbgEn)

/-- VAULT_LOAD_DONE: an unreadable trim, curve or mask record caps the tier; an unreadable ward entry takes the ward down; the records stay. What is the model's choice in it, log entries 20 and 56 name. -/
def Obligations.VaultLoadJudgesRecords : Prop :=
  ∀ s : State, s.supply.kindle = .reading → s.supply.vaultDone = false →
    ∃ t, exec (.vaultLoadDone []) s = .next t ∧ Alters [.supply, .tiers, .mem, .vault, .events] s t ∧
      t.supply.vaultDone = true ∧ t.vault.recs = s.vault.recs ∧
      (∀ n r, (VKey.trim n, r) ∈ s.vault.recs → r.look = .unreadable → t.tiers.capVault = true) ∧
      (∀ n r, (VKey.curve n, r) ∈ s.vault.recs → r.look = .unreadable → t.tiers.capVault = true) ∧
      (∀ r, (VKey.mask, r) ∈ s.vault.recs → r.look = .unreadable → t.tiers.capVault = true) ∧
      (∀ h r, (VKey.ward h, r) ∈ s.vault.recs → r.look = .unreadable → UnitId.ward ∈ t.tiers.failed)

/-- MEMORY_CLEAR_DONE: every byte of SRAM reads zero and no word is poisoned. What is the model's choice in it, log entry 59 names. -/
def Obligations.MemoryClearZeroesEveryByte : Prop :=
  (∀ s : State, s.supply.kindle = .reading → s.supply.vaultDone = true → s.supply.clearDone = false →
    ∃ t, exec (.memoryClearDone []) s = .next t ∧ Alters [.supply, .mem] s t ∧ t.supply.clearDone = true ∧
      (∀ a, cellsRead t.mem.cells a = 0) ∧ t.mem.poison = [] ∧ t.mem.remap = s.mem.remap) ∧
  (∀ (bad : List (Fin 64 × Fin 512)) (s : State), s.supply.kindle = .reading → s.supply.vaultDone = true →
    s.supply.clearDone = false → ∃ t, exec (.memoryClearDone bad) s = .next t ∧ t.supply.clearDone = true ∧ t.mem.cells = [])

/-- KINDLE_READING_DONE enters Joining with every channel on its strapped profile, the ports on their strapped modes and the retention latch set. What is the model's choice in it, log entries 16 and 27 name. -/
def Obligations.ReadingDoneConfiguresTheChip : Prop :=
  (∀ s : State, s.supply.kindle = .reading → s.straps.resolved = true → s.supply.vaultDone = true → s.supply.clearDone = true →
    ∃ t, exec .kindleReadingDone s = .next t ∧
      Alters [.supply, .tiers, .portA, .portB, .tables, .queues, .chans, .mem, .vault, .seat, .events] s t ∧
      t.supply.kindle = .joining ∧ t.supply.retention = true ∧ t.queues.ready = true ∧
      (∀ n : Fin 24, (t.chan n).profile = strapProfile s.straps.codes n.val ∧
        (t.chan n).capStrap = chanStrapCap s.straps.codes n.val) ∧
      t.portA.eMode = eModeOf s.straps.codes pinDetA ∧ t.portB.eMode = eModeOf s.straps.codes pinDetB ∧
      t.tables.prefixes = (match placeOf s.straps.codes with | some p => [ownPrefix p] | none => []) ∧
      t.mem.windows = windowTable ∧ t.mem.cells = s.mem.cells ∧ t.vault.recs = s.vault.recs) ∧
  (∀ s : State, (s.supply.kindle = .joining ∨ s.supply.kindle = .up) → s.supply.coreReady = false →
    15000000 ≤ since s s.supply.coreAt →
    exec (.analogCoreStartDone []) s = .next { s with supply := { s.supply with coreReady := true } })

/-- TIER_MOVE_UP goes up one tier at a trick boundary after 16 tricks of the next tier's requirements, never past the tier allowed. What is the model's choice in it, log entry 26 names. -/
def Obligations.TierMovesUpOneAtATime : Prop :=
  (∀ (s : State) (k : Nat), atTrick s = true → s.tiers.upCount = some k → 16 ≤ k → s.supply.kindle = .joining →
    Tier.passThrough.rank ≤ (allowedTier s).rank →
    ∃ t, exec (.tierMoveUp []) s = .next t ∧ Alters [.supply, .tiers, .cut, .mem, .seat, .events, .announce] s t ∧
      t.tiers.tier = .passThrough ∧ t.supply.kindle = .up ∧ t.supply.bypHold = true ∧ t.supply.attempts = 0 ∧
      t.cut.state = .waiting ∧ t.supply.cause = s.supply.causeNext.getD s.supply.cause) ∧
  (∀ (s : State) (k : Nat), atTrick s = true → s.tiers.upCount = some k → 16 ≤ k → s.supply.kindle = .up →
    (s.tiers.tier = .passThrough ∨ s.tiers.tier = .measure) → s.tiers.tier.up.rank ≤ (allowedTier s).rank →
    ∃ t, exec (.tierMoveUp []) s = .next t ∧ Alters [.supply, .tiers, .chans, .events] s t ∧
      t.tiers.tier = s.tiers.tier.up) ∧
  (∀ (us : List UnitId) (s : State), (atTrick s = false ∨ ∀ k, s.tiers.upCount = some k → k < 16) →
    ∃ t, exec (.tierMoveUp us) s = .next t ∧ Alters [.supply, .tiers] s t ∧ t.tiers.tier = s.tiers.tier)

/-- TIER_MOVE_DOWN goes straight to the highest tier allowed, to a chip reset where that is below Pass-through, and nowhere where the tier is still allowed. What is the model's choice in it, log entries 26 and 54 name. -/
def Obligations.TierMovesDownAtOnce : Prop :=
  ∀ (lost : List UnitId) (s : State), UnitId.rail .van ∉ lost → s.supply.kindle = .up →
    (let f : State := { s with tiers := { s.tiers with failed := s.tiers.failed ++ lost } }
     ∃ t, exec (.tierMoveDown lost) s = .next t ∧
      (s.tiers.tier.rank ≤ (allowedTier f).rank → Alters [.tiers] s t ∧ t.tiers.tier = s.tiers.tier) ∧
      ((allowedTier f).rank < s.tiers.tier.rank → 2 ≤ (allowedTier f).rank →
        t.tiers.tier = allowedTier f ∧ (s.tiers.tier = .full → t.engine.awaiting = [])) ∧
      ((allowedTier f).rank < s.tiers.tier.rank → (allowedTier f).rank < 2 → AfterChipReset s t))

/-- KEEPER_REFRESH restarts every output keeper's timer and loads its hold latch with the present output value. -/
def Obligations.KeepersRefreshEachTrick : Prop :=
  ∀ s : State, atTrick s = true → (s.supply.kindle = .joining ∨ s.supply.kindle = .up) →
    ∃ t, exec .keeperRefresh s = .next t ∧ Alters [.chans, .events] s t ∧
      ∀ n : Fin 24, (isOutChan (s.chan n) = false → t.chan n = s.chan n) ∧
        (isOutChan (s.chan n) = true → (t.chan n).refreshed = s.clock.age ∧
          (t.chan n).latch = (if (s.chan n).stageOn then (s.chan n).dac else (s.chan n).latch) ∧
          (banked (s.chan n) = true → (s.chan n).inTrim = false → (t.chan n).inControl = true))

/-- KEEPER_TIMER_EXPIRY puts the keeper in control; KEEPER_CHECK and CROSSPOINT_CHECK raise and clear their faults and cap the channel at a second mismatch. What is the model's choice in it, log entries 27 and 28 name. -/
def Obligations.KeeperTimersAndChecks : Prop :=
  (∀ (ch : Fin 24) (a b : Bool) (own total : Int) (s : State), isOutChan (s.chan ch) = true →
    (shellRuns s = false ∨ 60000000 ≤ since s (s.chan ch).refreshed) →
    ∃ t, exec (.keeperTimerExpiry ch a b own total) s = .next t ∧ Alters [.chans] s t ∧ (t.chan ch).inControl = true ∧
      (t.chan ch).latch = (s.chan ch).latch ∧ ∀ m, m ≠ ch → t.chan m = s.chan m) ∧
  (∀ (n : Fin 24) (k r : Nat) (s : State), atTrick s = true → inService s = true → trickNo s % 16384 = 0 →
    isOutChan (s.chan n) = true → (s.chan n).inControl = false →
    ∃ t, exec (.keeperCheck [(n, k, r)]) s = .next t ∧ Alters [.chans, .events] s t ∧
      t.chan n = { s.chan n with keeperFault := 10 < k, refFault := 20 < r } ∧ ∀ m, m ≠ n → t.chan m = s.chan m) ∧
  (∀ s : State, atTrick s = true → inService s = true →
    ∃ t, exec (.crosspointCheck []) s = .next t ∧ Alters [.chans] s t ∧
      ∀ n : Fin 24, t.chan n = { s.chan n with crossSeen := false }) ∧
  (∀ (n : Fin 24) (q : Fin 4) (s : State), atTrick s = true → inService s = true → (s.chan n).crossSeen = true →
    ∃ t, exec (.crosspointCheck [(n, q)]) s = .next t ∧ Alters [.chans, .events] s t ∧ (t.chan n).capCross = true)

/-- STRAP_REREAD_END resolves the named pins afresh, keeps the codes in force until the trick boundary, and asks for the digest's programme pulse. What is the model's choice in it, log entries 51 and 63 name. -/
def Obligations.StrapRereadResolvesTheNamedPins : Prop :=
  ∀ (s : State) (q : Reread), s.straps.reread = some q →
    (q.rounds.length = 8 → 55500000 + 3000 * q.pins.length ≤ since s q.at_ →
      ∃ t, exec .strapRereadEnd s = .next t ∧ Alters [.straps, .tables, .chans, .mem, .engine, .vault, .seat, .events] s t ∧
        t.straps.reread = none ∧ t.straps.codes = s.straps.codes ∧
        (∀ k < q.pins.length, (∀ r ∈ q.rounds, strapRefsGood r = true) →
          (q.pins.getD k 0, majority (pinConvs q.rounds k)) ∈ t.straps.fresh) ∧
        t.straps.digest = strapDigest (overlay s.straps.codes t.straps.fresh) s.straps.almSel s.straps.dbgEn ∧
        t.vault.pulses.length = s.vault.pulses.length + 1 ∧ t.vault.recs = s.vault.recs) ∧
    (since s q.at_ < 55500000 + 3000 * q.pins.length → exec .strapRereadEnd s = .next s)

/-- REREAD_HELD_START starts the oldest held re-read when none runs; CH.RESTRAP then holds its channel under bank-now. What is the model's choice in it, log entry 93 names. -/
def Obligations.RereadsRunOneAtATime : Prop :=
  (∀ (s : State) (f : CmdFrame) (rest : List CmdFrame), s.straps.reread = none → s.straps.rereadQueue = f :: rest →
    ∃ t, exec .rereadHeldStart s = .next t ∧ Alters [.straps, .chans] s t ∧ t.straps.rereadQueue = rest ∧
      t.straps.reread = some { f := f, pins := restrapPins f, rounds := [], at_ := s.clock.age } ∧
      ∀ n, restrapChan f = some n → (t.chan n).restrap = true ∧
        (isOutChan (s.chan n) = true → (t.chan n).bankShell = true ∧ (t.chan n).inControl = true)) ∧
  (∀ s : State, (s.straps.reread ≠ none ∨ s.straps.rereadQueue = []) → exec .rereadHeldStart s = .next s)

/-- RESTRAP_APPLY lays the fresh codes over at a trick boundary; an unchanged channel returns from bank-now, and its streams go on. What is the model's choice in it, log entries 46 and 52 name. -/
def Obligations.RestrapTakesEffectAtTheBoundary : Prop :=
  (∀ s : State, atTrick s = true → (s.straps.dueCh ≠ [] ∨ s.straps.dueFn ≠ []) →
    ∃ t, exec .restrapApply s = .next t ∧ t.straps.codes = overlay s.straps.codes s.straps.fresh ∧ t.straps.fresh = [] ∧
      t.straps.dueCh = [] ∧ t.straps.dueFn = [] ∧ t.vault = s.vault ∧ t.clock = s.clock ∧ t.mem = s.mem) ∧
  (∀ (s : State) (n : Fin 24) (p : Option (BitVec 8)), atTrick s = true → s.straps.dueFn = [] → s.straps.dueCh = [(n, p)] →
    strapProfile (overlay s.straps.codes s.straps.fresh) n.val = p → (s.chan n).commanded = true → (s.chan n).rekindle = none →
    ∃ t, exec .restrapApply s = .next t ∧ Alters [.straps, .chans] s t ∧ (t.chan n).restrap = false ∧
      (t.chan n).bankShell = false ∧ ∀ m, m ≠ n → t.chan m = s.chan m) ∧
  (∀ s : State, (atTrick s = false ∨ (s.straps.dueCh = [] ∧ s.straps.dueFn = [])) → exec .restrapApply s = .next s)

/-- BLANKMAP_DEFERRED_APPLY, CURVE_CAP_LIFT and PHY_MASK_DEFERRED_APPLY act at the first trick boundary their condition allows. What is the model's choice in it, log entry 53 names. -/
def Obligations.DeferredStrapEffects : Prop :=
  (∀ (s : State) (c : Code), atTrick s = true → s.straps.blankmapNext = some c → (∀ k : Fin 4, s.supply.blank[k].1 = false) →
    ∃ t, exec .blankmapDeferredApply s = .next t ∧ Alters [.straps, .chans] s t ∧ t.straps.blankmap = c ∧
      t.straps.blankmapNext = none ∧ t.straps.codes = s.straps.codes) ∧
  (∀ s : State, atTrick s = true →
    ∃ t, exec .curveCapLift s = .next t ∧ Alters [.chans, .events] s t ∧
      ∀ n : Fin 24, (t.chan n).capCurve = ((s.chan n).capCurve && !(match (s.chan n).profile with
        | some p => curveFilled s.vault (cpbOf p)
        | none => false))) ∧
  (∀ (p : Port) (s : State), atTrick s = true → (s.port p).maskDue = true → isSounding (s.port p) = false →
    ∃ t, exec (.phyMaskDeferredApply p) s = .next t ∧ Alters [.portA, .portB, .tables] s t ∧ (t.port p).mask = maskInUse s ∧
      (t.port p).maskDue = false ∧ t.port p.other = s.port p.other)

/-- The window of codes 1 to 14 is 0.95 to 1.05 times nominal, both ends in; code 0 below 0.25 kOhm, code 15 above 60 kOhm; any other resistance is ambiguous. -/
def Obligations.ResistorCodeWindows : Prop :=
  ∀ r : Nat,
    (∀ n : Fin 16, 1 ≤ n.val → n.val ≤ 14 →
      (convCode r = some n ↔ 950 * nominalOhms.getD (n.val - 1) 0 ≤ r ∧ r ≤ 1050 * nominalOhms.getD (n.val - 1) 0)) ∧
    (convCode r = some 0 ↔ r < 250000) ∧ (convCode r = some 15 ↔ 60000000 < r) ∧
    (convCode r = none ↔ 250000 ≤ r ∧ r ≤ 60000000 ∧
      ∀ n : Fin 16, 1 ≤ n.val → n.val ≤ 14 →
        ¬ (950 * nominalOhms.getD (n.val - 1) 0 ≤ r ∧ r ≤ 1050 * nominalOhms.getD (n.val - 1) 0))

/-- PORT_RESET_APPLY, PORT_QUIET_END, PIPE_RESET_APPLY, PIPE_INGRESS_RESUME and CH_REKINDLE_CAL_DONE: each reset at its time, its unit alone cleared. What is the model's choice in it, log entries 19, 91, 92 and 116 name. -/
def Obligations.ResetsByCommandTakeEffect : Prop :=
  (∀ (p : Port) (s : State), atSymbol s = true → (s.port p).resetDue = true → (s.port p).tx = none →
    abortWaits (s.port p) = false →
    ∃ t, exec (.portResetApply p) s = .next t ∧
      Alters [.clock, .portA, .portB, .tables, .queues, .chans, .mem, .engine, .seat, .events, .counters] s t ∧
      (t.port p).link = .off ∧ (t.port p).linkD = none ∧ (t.port p).margin = 1 ∧ (t.port p).resetDue = false ∧
      (t.port p).quietUntil = some (lineIn s trickTicks)) ∧
  (∀ (p : Port) (s : State) (q : Tick), (s.port p).quietUntil = some q → q.toNat ≤ s.clock.line.toNat →
    ∃ t, exec (.portQuietEnd p) s = .next t ∧ Alters [.portA, .portB] s t ∧ (t.port p).quietUntil = none ∧
      (inService s = true → (t.port p).link = .listen) ∧ t.port p.other = s.port p.other) ∧
  (∀ (p : Port) (s : State), (s.pipe p).resetting = 1 → atSymbol s = true → halted s (portNum p) = false →
    ∃ t, exec (.pipeResetApply p) s = .next t ∧ (t.pipe p).resetting = 2 ∧ (t.pipe p).resetAt = s.clock.age) ∧
  (∀ (p : Port) (s : State), (s.pipe p).resetting = 2 → 4096 ≤ since s (s.pipe p).resetAt →
    ∃ t, exec (.pipeResetApply p) s = .next t ∧ Alters [.free, .tables, .mem] s t ∧ (t.pipe p).resetting = 3 ∧
      (t.pipe p).learned = 0 ∧ (t.pipe p).overflow = [] ∧ (t.pipe p).seed ≠ (t.pipe p.other).seed ∧
      (t.pipe p.other).seed = (s.pipe p.other).seed ∧
      (∀ a, wayAddr p 0 0 ≤ a → a < wayAddr p 0 0 + 0x80000 → cellsRead t.mem.cells a = 0) ∧
      (∀ a, (a < wayAddr p 0 0 ∨ wayAddr p 0 0 + 0x80000 ≤ a) → cellsRead t.mem.cells a = cellsRead s.mem.cells a)) ∧
  (∀ (p : Port) (s : State), atTrick s = true → (s.pipe p).resetting = 3 → (s.port p).quietUntil = none →
    ∃ t, exec (.pipeIngressResume p) s = .next t ∧ Alters [.tables] s t ∧ (t.pipe p).resetting = 0) ∧
  (∀ (ch : Fin 24) (s : State) (q : Tick), (s.chan ch).rekindle = some q → q.toNat ≤ s.clock.age.toNat →
    ∃ t, exec (.chRekindleCalDone ch false) s = .next t ∧ Alters [.chans] s t ∧ (t.chan ch).rekindle = none ∧
      ∀ m, m ≠ ch → t.chan m = s.chan m)

/-- TRUNK_V from N ticks; telemetry loss; FLUE_LIM starts at the target and L then moves at most 0.25 W a trick. -/
def Obligations.TrunkVoltageDrivesTheDamper : Prop :=
  (∀ (n : Nat) (s : State), shellRuns s = true → n ≠ 0 → trunkVolt n < 65535 →
    ∃ t, exec (.trunkVUpdate n) s = .next t ∧ Alters [.supply, .events] s t ∧ t.supply.trunkAbsent = false ∧
      2 * t.supply.trunkV * n ≤ 9600000000 + n ∧ 9600000000 < 2 * t.supply.trunkV * n + n ∧
      (t.supply.trunkV ≠ 0 → t.supply.lastTrunkV = t.supply.trunkV) ∧
      (t.supply.trunkV < 2200 → latched t 0x0304 0x30 0 = true) ∧ (6200 < t.supply.trunkV → latched t 0x0305 0x30 0 = true)) ∧
  (∀ s : State, shellRuns s = true →
    exec .trunkAbsent s = .next { s with supply := { s.supply with trunkV := 0, trunkAbsent := true } }) ∧
  (∀ s : State, shellRuns s = true → s.supply.trunkAbsent = true → 1185 ≤ s.supply.vbusV →
    ∃ t, exec .telemetryLost s = .next t ∧ Alters [.events] s t ∧ latched t 0x0303 0x30 0 = true) ∧
  (∀ (s : State) (v cap : Nat), v = (if s.supply.trunkAbsent = true then s.supply.lastTrunkV else s.supply.trunkV) →
    cap = 400 * drawOf s.straps.codes → v ≠ 0 → atTrick s = true →
    (shellRuns s = true → s.supply.flueLim = true → ∃ t, exec .damperUpdate s = .next t ∧ Alters [.supply] s t ∧
      (∃ target, (2200 ≤ v → target = cap) ∧ (1800 ≤ v → v < 2200 → target * 400 = cap * (v - 1800)) ∧ (v < 1800 → target = 0) ∧
        (s.supply.l ≤ target → t.supply.l = min target (s.supply.l + 100000)) ∧
        (target ≤ s.supply.l → t.supply.l = max target (s.supply.l - 100000))) ∧
      t.supply.d = max 1 (min 255 (t.supply.l / (20 * v))) ∧ t.supply.trunkV = s.supply.trunkV ∧ t.supply.flueLim = true) ∧
    ((s.supply.kindle = .joining ∨ s.supply.kindle = .up) → s.supply.flueLim = false → s.supply.lastTrunkV ≠ 0 →
      ∃ t, exec .flueLimStart s = .next t ∧ Alters [.supply] s t ∧ t.supply.flueLim = true ∧
        (2200 ≤ v → t.supply.l = cap) ∧ (1800 ≤ v → v < 2200 → t.supply.l * 400 = cap * (v - 1800)) ∧ (v < 1800 → t.supply.l = 0) ∧
        t.supply.d = max 1 (min 255 (t.supply.l / (20 * v)))))

/-- The ledger C x (V_H - 10.60 V) x 10.20 V, HEARTH_DIS with its hysteresis, the conditions of charging, and the hearth and VBUS faults. -/
def Obligations.HearthLedgerAndCharging : Prop :=
  (∀ (vh vbus : Nat) (s : State), shellRuns s = true →
    ∃ t, exec (.ledgerUpdate vh vbus) s = .next t ∧ Alters [.supply] s t ∧ t.supply.vbusV = vbus ∧ t.supply.vh = vh ∧
      t.supply.ledger = hearthCap (hearthClass s) * (vh - 1060) * 102 ∧
      ((hearthClass s = 0 ∨ s.supply.hearthWeak = true) → t.supply.hearthDis = false) ∧
      (hearthClass s ≠ 0 → s.supply.hearthWeak = false →
        (11 * ledgerOf (hearthClass s) 2800 ≤ 20 * t.supply.ledger → t.supply.hearthDis = true) ∧
        (2 * t.supply.ledger ≤ ledgerOf (hearthClass s) 2800 → t.supply.hearthDis = false) ∧
        (ledgerOf (hearthClass s) 2800 < 2 * t.supply.ledger → 20 * t.supply.ledger < 11 * ledgerOf (hearthClass s) 2800 →
          t.supply.hearthDis = s.supply.hearthDis))) ∧
  (∀ s : State, atTrick s = true → (s.supply.kindle = .joining ∨ s.supply.kindle = .up) → hearthClass s ≠ 0 →
    s.supply.hearthOv = false → 1185 ≤ s.supply.vbusV → s.supply.chargeOffUntil.toNat ≤ s.clock.age.toNat →
    s.supply.hearthChg = false →
    exec .chargeEnable s = .next { s with supply := { s.supply with hearthChg := true, chargeSince := some s.clock.age } }) ∧
  (∀ s : State, (hearthClass s = 0 ∨ s.supply.hearthOv = true ∨ s.supply.vbusV < 1185 ∨
      s.clock.age.toNat < s.supply.chargeOffUntil.toNat) → exec .chargeEnable s = .next s) ∧
  (∀ s : State, shellRuns s = true → ∃ t, exec .chargePause s = .next t ∧ Alters [.supply] s t ∧ t.supply.hearthChg = false ∧
      t.supply.chargeOffUntil = s.clock.age + 589824#64) ∧
  (∀ s : State, shellRuns s = true → ∃ t, exec .hearthOvervoltage s = .next t ∧ Alters [.supply, .events] s t ∧
      t.supply.hearthOv = true ∧ t.supply.hearthChg = false) ∧
  (∀ (vh : Nat) (s : State) (q : Tick), shellRuns s = true → s.supply.chargeSince = some q → 30000000000 ≤ since s q → vh < 2700 →
    ∃ t, exec (.hearthWeak vh) s = .next t ∧ Alters [.supply, .events] s t ∧ t.supply.hearthWeak = true ∧
      t.supply.hearthDis = false ∧ t.supply.hearthChg = s.supply.hearthChg ∧ latched t 0x0307 0x30 0 = true) ∧
  (∀ (v : Nat) (s : State), s.supply.kindle ≠ .off → s.supply.flueLatched = false →
    ∃ t, exec (.vbusOvervoltage v) s = .next t ∧ Alters [.supply, .events] s t ∧ t.supply.flueEn = false ∧
      t.supply.flueLatched = true)

/-- Riding begins and ends at its VBUS levels; brownout enters ember with a usable hearth and resets the chip without one; ember ends by VSRAM loss or the wake. What is the model's choice in it, log entries 53, 55, 103 and 118 name. -/
def Obligations.RidingThroughAndEmber : Prop :=
  (∀ (vbus : Nat) (s : State), atTrick s = true → (s.supply.kindle = .joining ∨ s.supply.kindle = .up) → s.supply.riding = false →
    vbus < 1170 → ∃ t, exec (.ridingEnter vbus) s = .next t ∧ Alters [.supply, .events] s t ∧ t.supply.riding = true ∧
      t.supply.ridingAt = s.clock.age ∧ latched t 0x0301 0x30 0 = true) ∧
  (∀ (vbus : Nat) (s : State), s.supply.riding = true → 1185 ≤ vbus →
    ∃ t, exec (.ridingEnd vbus) s = .next t ∧ Alters [.supply, .events] s t ∧ t.supply.riding = false) ∧
  (∀ s : State, (s.supply.kindle = .joining ∨ s.supply.kindle = .up) → s.supply.retention = true → hearthClass s ≠ 0 →
    s.supply.hearthOv = false →
    ∃ t, exec .emberEntry s = .next t ∧ t.supply.kindle = .ember ∧ t.tiers.tier = .banked ∧
      (∀ n : Fin 24, (t.chan n).bankMon = true ∧ (t.chan n).inControl = true ∧ (t.chan n).pending = []) ∧
      t.supply.bypHold = false ∧ t.supply.emberSet = true ∧ t.supply.flueLim = false ∧ t.supply.hearthChg = false ∧
      t.supply.hearthDis = false ∧ t.supply.retention = true ∧ t.queues.frames = [] ∧ t.portA.link = .off ∧ t.portB.link = .off ∧
      t.engine.awaiting = [] ∧ t.clock.counter = s.clock.counter ∧ t.clock.state = .crystal ∧ t.clock.corr = s.clock.corr ∧
      t.straps.codes = s.straps.codes ∧ t.straps.digest = s.straps.digest ∧ t.vault.recs = s.vault.recs ∧ t.dieId = s.dieId) ∧
  (∀ s : State, (s.supply.kindle = .joining ∨ s.supply.kindle = .up) → (hearthClass s = 0 ∨ s.supply.hearthOv = true) →
    ∃ t, exec .brownoutNoHearth s = .next t ∧ AfterChipReset s t ∧ t.supply.vbus = false ∧ t.supply.kindle = .rails) ∧
  (∀ s : State, s.supply.kindle = .ember →
    (∃ t, exec .emberVsramLoss s = .next t ∧ Alters [.supply] s t ∧ t.supply.retention = false ∧ t.supply.kindle = .ember) ∧
    (s.supply.retention = true → ∃ t, exec .emberWake s = .next t ∧ Alters [.supply, .chans, .mem] s t ∧
      t.supply.kindle = .joining ∧ t.supply.emberSet = false ∧ t.mem.cells = s.mem.cells ∧
      (∀ n : Fin 24, (t.chan n).bankMon = false ∧ (t.chan n).bankShell = true)) ∧
    (s.supply.retention = false → ∃ t, exec .emberWake s = .next t ∧ AfterChipReset s t))

/-- Acquisition, the discipline loop, Disciplined, Holdover and the loss of the PLL. What is the model's choice in it, log entry 127 names. -/
def Obligations.ClockFollowsTheDealer : Prop :=
  (∀ (s : State) (p : Port), (s.clock.state = .crystal ∨ s.clock.state = .holdover) → s.clock.facing = some p →
    (s.port p).lock = true → s.clock.hops ≠ none →
    exec .acquireStart s = .next { s with clock := { s.clock with state := .acquiring, goodTricks := 0, jumps := 0 } }) ∧
  (∀ (want freqErr phaseErr : Int) (s : State), atTrick s = true → (s.clock.state = .acquiring ∨ s.clock.state = .disciplined) →
    -1000000000 ≤ s.clock.corr → s.clock.corr ≤ 1000000000 →
    ∃ t, exec (.disciplineLoopUpdate want freqErr phaseErr) s = .next t ∧ Alters [.clock, .events] s t ∧
      -1000000000 ≤ t.clock.corr ∧ t.clock.corr ≤ 1000000000 ∧
      s.clock.corr - 98304 ≤ t.clock.corr ∧ t.clock.corr ≤ s.clock.corr + 98304 ∧
      (-1000000000 ≤ want → want ≤ 1000000000 → s.clock.corr - 98304 ≤ want → want ≤ s.clock.corr + 98304 → t.clock.corr = want) ∧
      (s.clock.state = .acquiring → (want < -1000000000 ∨ 1000000000 < want) → latched t 0x0403 0x31 0 = true) ∧
      t.clock.state = s.clock.state ∧ t.clock.counter = s.clock.counter ∧
      t.clock.goodTricks = if s.clock.state = .acquiring ∧ -50 ≤ freqErr ∧ freqErr ≤ 50 ∧ -16 ≤ phaseErr ∧ phaseErr ≤ 16
        then s.clock.goodTricks + 1 else 0) ∧
  (∀ s : State, s.clock.state = .acquiring → 64 ≤ s.clock.goodTricks →
    ∃ t, exec .disciplined s = .next t ∧ Alters [.clock, .events] s t ∧ t.clock.state = .disciplined ∧
      t.clock.counter = s.clock.counter ∧ t.clock.corr = s.clock.corr ∧
      Logs s t 0x0401 0x31 (beBytes 1 (facingByte s) ++ beBytes 1 (hopsByte s))) ∧
  (∀ (p : Port) (s : State), s.clock.facing = some p → (s.clock.state = .disciplined ∨ s.clock.state = .acquiring) →
    ∃ t, exec (.holdoverEnter p) s = .next t ∧ Alters [.clock, .events] s t ∧ t.clock.state = .holdover ∧
      t.clock.corr = holdoverCorr s.clock ∧ t.clock.counter = s.clock.counter ∧ t.clock.epoch = s.clock.epoch) ∧
  (∀ s : State, shellRuns s = true →
    ∃ t, exec .pllLockLost s = .next t ∧ AfterChipReset s t ∧ t.supply.kindle = .rails ∧ t.supply.pll = false)

/-- Beacons leave every 16th trick, are judged on arrival, and a realignment jumps, steps or slews; the counter never steps back. What is the model's choice in it, log entries 24, 29 and 38 name. -/
def Obligations.BeaconsAndRealignment : Prop :=
  (∀ s : State, inService s = true → atTrick s = true → trickNo s % 16 = 0 →
    ∃ t, exec .beaconSend s = .next t ∧ Alters [.portA, .portB] s t ∧ ∀ p,
      t.port p = if sendsBeacon s p = true ∧ (s.port p).link = .up
        then { s.port p with beaconOut := llMessage 1 (beBytes 8 s.clock.line.toNat ++ beBytes 1 s.clock.epoch.toNat ++
          beBytes 1 ((timeQ s).toNat * 16) ++ beBytes 1 (hopsByte s)) } else s.port p) ∧
  (∀ (p : Port) (b : List Byte) (a64 : Nat) (s : State), b.length = 11 →
    (5 ≤ byteAt b 9 / 16 % 8 ∨ s.clock.facing ≠ some p ∨ 64 ≤ byteAt b 10 % 128 →
      ∃ t, exec (.beaconReceive p b a64) s = .next t ∧ Alters [.events] s t) ∧
    (∀ d : BitVec 24, byteAt b 9 / 16 % 8 < 5 → s.clock.facing = some p → byteAt b 10 % 128 < 64 → (s.port p).linkD = some d →
      ∃ t, exec (.beaconReceive p b a64) s = .next t ∧ Alters [.clock, .events] s t ∧
        t.clock.hops = some (byteAt b 10 % 128 + 1) ∧ t.clock.counter = s.clock.counter ∧ t.clock.epoch = s.clock.epoch ∧
        t.clock.line = s.clock.line ∧
        ∀ (off : Int) (e : BitVec 8), off = beaconOffset (fieldAt b 0 8) d.toNat a64 → e = BitVec.ofNat 8 (byteAt b 8) →
          (-65536 ≤ off → off ≤ 65536 → e = s.clock.epoch → t.clock.realign = s.clock.realign) ∧
          (-65536 ≤ off → off ≤ 65536 → e ≠ s.clock.epoch →
            t.clock.realign = some { delta := roundDiv off 64, epoch := e, jump := false }) ∧
          ((off < -65536 ∨ 65536 < off) → (e ≠ s.clock.epoch ∨ s.clock.state ≠ .disciplined ∨ 2 ≤ s.clock.jumps) →
            t.clock.realign = some { delta := roundDiv off 64, epoch := e, jump := true }) ∧
          ((off < -65536 ∨ 65536 < off) → e = s.clock.epoch → s.clock.state = .disciplined → s.clock.jumps < 2 →
            t.clock.realign = s.clock.realign ∧ t.clock.jumps = s.clock.jumps + 1))) ∧
  (∀ (s : State) (r : Realign), s.clock.realign = some r → atTrick s = true → r.jump = true →
    ∃ t, exec .realignJump s = .next t ∧ t.clock.line = s.clock.line + BitVec.ofInt 64 r.delta ∧ t.clock.epoch = r.epoch ∧
      t.clock.realign = none ∧ t.clock.quietUntil = some (t.clock.line + 589824#64) ∧ t.clock.age = s.clock.age ∧
      (s.clock.counter.toNat < t.clock.line.toNat → t.clock.counter = t.clock.line ∧ t.clock.slew = none) ∧
      (t.clock.line.toNat < s.clock.counter.toNat → t.clock.counter = s.clock.counter ∧
        t.clock.slew = some (s.clock.counter.toNat - t.clock.line.toNat, 0))) ∧
  (∀ (s : State) (n k : Nat), s.clock.slew = some (n, k) →
    (100 * n ≤ k → ∃ t, exec .slewEnd s = .next t ∧ Alters [.clock, .events] s t ∧ t.clock.slew = none ∧
      t.clock.counter = s.clock.counter ∧ Logs s t 0x040A 0x31 (beBytes 8 (min n (k / 100)))) ∧
    (k < 100 * n → exec .slewEnd s = .next s)) ∧
  (∀ (s : State) (r : Realign), s.clock.realign = some r → atTrick s = true → r.jump = false →
    ∃ t, exec .epochChangeNoJump s = .next t ∧ t.clock.epoch = r.epoch ∧ t.clock.realign = none ∧ t.clock.line = s.clock.line ∧
      t.clock.counter = s.clock.counter ∧ (s.clock.state ≠ .dealer → t.clock.state = .acquiring) ∧
      t.clock.slew = s.clock.slew)

/-- EVENT_RELEASE waits 4,096 ticks; the holding store keeps records while the queues cannot take them; a held clear is raised after 256 tricks. What is the model's choice in it, log entry 26 names. -/
def Obligations.EventsReachTheQueuesInOrder : Prop :=
  (∀ (s : State) (e : Event) (rest : List Event), s.events.merge = e :: rest → shellRuns s = true →
    (s.clock.counter.toNat < e.tick.toNat + 4096 → exec .eventRelease s = .next s) ∧
    (e.tick.toNat + 4096 ≤ s.clock.counter.toNat →
      (∃ t, exec .eventRelease s = .next t ∧ Alters [.queues, .hands, .mem, .events] s t ∧ t.events.merge = rest) ∧
      (queuesTake s = false → ∃ t, exec .eventRelease s = .next t ∧ Alters [.events] s t ∧
        (s.events.holding.length + e.records.length ≤ 64 →
          t.events.holding = s.events.holding ++ e.records.map fun r => (r, e.hands)) ∧
        (64 < s.events.holding.length + e.records.length → t.events.holding = s.events.holding ∧
          t.events.holdLost = s.events.holdLost + e.records.length)))) ∧
  (∀ s : State, shellRuns s = true →
    (queuesTake s = true → ∃ t, exec .holdingStoreDrain s = .next t ∧ Alters [.queues, .hands, .mem, .events] s t ∧
      t.events.holding = [] ∧ t.events.holdLost = 0 ∧ t.events.merge = s.events.merge) ∧
    (queuesTake s = false → exec .holdingStoreDrain s = .next s)) ∧
  (∀ (code : BitVec 16) (src obj : Nat) (s : State) (l : Latch),
    s.events.latches.find? (sameLatch code.toNat src obj) = some l → l.clearing = true →
    (256 * 589824 ≤ since s l.at_ → ∃ t, exec (.heldClearRelease code src obj) s = .next t ∧ Alters [.events] s t ∧
      latched t code.toNat src obj = false ∧
      ∃ e ∈ t.events.merge, e.code = code ∧ e.clear = true ∧ e.rpt = l.rpt ∧ e.detail = l.detail ∧ e.tick = s.clock.counter) ∧
    (since s l.at_ < 256 * 589824 → exec (.heldClearRelease code src obj) s = .next s))

/-- OP_START starts a Queued operation at a trick boundary when its object and the energy are free; ENERGY_CHECK; the 60 s limit; the record kept 16,384 tricks. What is the model's choice in it, log entry 95 names. -/
def Obligations.OperationsStartWaitAndEnd : Prop :=
  (∀ (h : BitVec 16) (s : State) (o : Op), opsRun s = true → opOf s h.toNat = some o → o.state = .queued →
    flushStopping s o.handle = false →
    (objectHeld s o = true →
      exec (.opStart h) s = .next (onOp s h.toNat fun x => { x with reason := 2 })) ∧
    (objectHeld s o = false → earlierQueued s o = [] → o.gated = true → energyOk s (opEnergy o) = false →
      exec (.opStart h) s = .next (onOp s h.toNat fun x => { x with reason := 1 })) ∧
    (objectHeld s o = false → earlierQueued s o = [] → o.gated = true → energyOk s (opEnergy o) = true → ungated s = false →
      o.opcode = 0x0F02 → o.holds = false →
      ∃ t, exec (.opStart h) s = .next t ∧ Alters [.mem, .engine, .events] s t ∧ t.mem.fast = some 0 ∧ t.mem.cells = s.mem.cells ∧
        ∃ q, opOf t h.toNat = some q ∧ q.state = .running ∧ q.holds = true ∧ q.hand = o.hand)) ∧
  (∀ s : State, atTrick s = true → shellRuns s = true → s.vault.wardNext = [] →
    ((∀ o ∈ s.engine.ops, o.state ≠ .queued) → exec .energyCheck s = .next s) ∧
    (∀ o : Op, s.engine.ops = [o] → o.state = .queued → o.opcode = 0x0F02 → o.gated = true → o.holds = false → opsRun s = true →
      flushStopping s o.handle = false → ungated s = false → energyOk s 40 = true →
      ∃ t, exec .energyCheck s = .next t ∧ Alters [.mem, .engine, .events] s t ∧ t.mem.fast = some 0 ∧
        ∃ q, opOf t o.handle.toNat = some q ∧ q.state = .running)) ∧
  (∀ (h : BitVec 16) (s : State) (o : Op), opOf s h.toNat = some o →
    (o.state = .suspended → o.timing = true → o.opcode = 0x0F02 → halted s 3 = false → flushStopping s h = false →
      180000000000 ≤ since s o.since →
      ∃ t, exec (.opSuspendTimeout h) s = .next t ∧ Alters [.mem, .engine, .events] s t ∧ t.mem.cells = s.mem.cells ∧
        ∀ q, opOf t h.toNat = some q → q.state = .failed ∧ q.reason = 0x21) ∧
    (since s o.since < 180000000000 → exec (.opSuspendTimeout h) s = .next s) ∧
    (o.state.live = false → 16384 * 589824 ≤ since s o.since →
      ∃ t, exec (.opRecordFree h) s = .next t ∧ Alters [.engine] s t ∧ (∀ q ∈ t.engine.ops, q.handle ≠ h) ∧
        ∀ q ∈ s.engine.ops, q.handle ≠ h → q ∈ t.engine.ops) ∧
    (since s o.since < 16384 * 589824 → exec (.opRecordFree h) s = .next s))

/-- LINK_START, PILOT_LOCK and PILOTS_LOST move one port through Off, Listen and Untrained, the default table in both slots; the other port stays. What is the model's choice in it, log entry 41 names. -/
def Obligations.LinkStatesOfAPort : Prop :=
  (∀ (p : Port) (s : State), (s.port p).link = .off → inService s = true → (s.port p).quietUntil = none →
    ∃ t, exec (.linkStart p) s = .next t ∧ Alters [.portA, .portB] s t ∧ (t.port p).link = .listen ∧ (t.port p).echoStart = 32 ∧
      t.port p.other = s.port p.other) ∧
  (∀ (p : Port) (s : State), (s.port p).link = .listen →
    ∃ t, exec (.pilotLock p) s = .next t ∧ Alters [.free, .portA, .portB, .events] s t ∧ (t.port p).link = .untrained ∧
      (t.port p).lock = true ∧ (t.port p).tx0 = defaultTable ∧ (t.port p).tx1 = defaultTable ∧ (t.port p).rx0 = defaultTable ∧
      (t.port p).rx1 = defaultTable ∧ tableB defaultTable = 464 ∧ (t.port p).pendTx = none ∧ (t.port p).pendRx = none ∧
      (∃ k < 64, (t.port p).retryAt = s.clock.line + BitVec.ofNat 64 (k * 9216)) ∧ t.port p.other = s.port p.other) ∧
  (∀ (p : Port) (s : State), ((s.port p).link = .untrained ∨ (s.port p).link = .up ∨ isSounding (s.port p) = true) →
    ∃ t, exec (.pilotsLost p) s = .next t ∧ Alters [.portA, .portB, .cut, .tables, .engine, .events] s t ∧
      (t.port p).link = .listen ∧ (t.port p).lq = 0 ∧ (t.port p).lock = false ∧ (t.port p).tx0 = defaultTable ∧
      (t.port p).rx0 = defaultTable ∧ (t.port p).pendTx = none ∧ (t.port p).pendRx = none ∧
      (t.port p.other).link = (s.port p.other).link ∧ latched t 0x0502 (portSrc p) 0 = true)

/-- TRAIN_REQ_SEND, TRAIN_REQ, TRAIN_ACK, ABORT and SOUNDING_STEP_MISSED: which end sounds, and a sounding that ends leaves the tables. What is the model's choice in it, log entry 40 names. -/
def Obligations.SoundingBeginsByRequestAndAck : Prop :=
  (∀ (p : Port) (s : State), (s.port p).link = .untrained → (s.port p).idClash = false →
    (s.port p).retryAt.toNat ≤ s.clock.line.toNat →
    ∃ t, exec (.trainReqSend p) s = .next t ∧ Alters [.free, .portA, .portB] s t ∧ (t.port p).reqOut = true ∧
      (t.port p).llOut = (s.port p).llOut ++ [(s.clock.line, llMessage 2 (trainBody s p 1))] ∧ t.port p.other = s.port p.other) ∧
  (∀ (p : Port) (b : List Byte) (s : State), trainOk 1 b = true → ((s.port p).link = .untrained ∨ (s.port p).link = .up) →
    (s.port p).idClash = false →
    (fieldAt b 1 8 ≠ s.dieId.toNat → ((s.port p).reqOut = false ∨ s.dieId.toNat < fieldAt b 1 8) →
      ∃ t, exec (.trainReq p b) s = .next t ∧ Alters [.portA, .portB, .tables] s t ∧ (t.port p).link = .sounding false ∧
        (t.port p).llOut = (s.port p).llOut ++ [(s.clock.line, llMessage 2 (trainBody s p 2))] ∧
        (t.port p).pendTx = none ∧ (t.port p).pendRx = none ∧ t.port p.other = s.port p.other) ∧
    ((s.port p).reqOut = true → fieldAt b 1 8 < s.dieId.toNat → exec (.trainReq p b) s = .next s) ∧
    (fieldAt b 1 8 = s.dieId.toNat → ∃ t, exec (.trainReq p b) s = .next t ∧ (t.port p).idClash = true ∧
      (t.port p).link = .untrained)) ∧
  (∀ (p : Port) (b : List Byte) (s : State), trainOk 2 b = true → (s.port p).link = .untrained → (s.port p).reqOut = true →
    (s.port p).idClash = false → fieldAt b 1 8 ≠ s.dieId.toNat →
    ∃ t, exec (.trainAck p b) s = .next t ∧ Alters [.portA, .portB] s t ∧ (t.port p).link = .sounding true ∧
      (t.port p).reqOut = false ∧ t.port p.other = s.port p.other) ∧
  (∀ (p : Port) (b : List Byte) (s : State), trainOk 1 b = false →
    ∃ t, exec (.trainReq p b) s = .next t ∧ Alters [.events, .counters] s t) ∧
  (∀ (p : Port) (i : Bool) (s : State), (s.port p).link = .sounding i →
    (∃ e ∈ expectedSteps i, e.1 ∉ (s.port p).steps ∧ e.2 + 8 < soundingSlotNo s (s.port p)) →
    ∃ t, exec (.soundingStepMissed p) s = .next t ∧ (t.port p).link = .untrained ∧
      (t.port p).llOut = (s.port p).llOut ++ [(s.clock.line, llMessage 2 [0x06, 1])] ∧
      (t.port p).failures = (s.port p).failures + 1 ∧ (t.port p).tx0 = (s.port p).tx0 ∧ (t.port p).tx1 = (s.port p).tx1 ∧
      (t.port p).rx0 = (s.port p).rx0 ∧ (t.port p).rx1 = (s.port p).rx1 ∧ (t.port p).txSlot = (s.port p).txSlot ∧
      (t.port p).rxSlot = (s.port p).rxSlot ∧ t.port p.other = s.port p.other) ∧
  (∀ (p : Port) (r : Byte) (s : State), isSounding (s.port p) = true → (r = 1 ∨ r = 2 ∨ r = 4 ∨ r = 5) →
    ∃ t, exec (.abort p [6, r]) s = .next t ∧ Alters [.free, .portA, .portB, .engine, .events] s t ∧
      (t.port p).link = .untrained ∧ (t.port p).lastAbort = r ∧ (t.port p).tx0 = (s.port p).tx0 ∧
      (t.port p).rx0 = (s.port p).rx0 ∧ (t.port p).txSlot = (s.port p).txSlot ∧ t.port p.other = s.port p.other)

/-- SOUNDING_SLOT sends each DELAY in its slot; DELAY gives D = ((A1 - T1) + (A2 - T2)) / 2; SOUNDING_TABLE_SEND sends a table of 464 bits or more. What is the model's choice in it, log entry 22 names. -/
def Obligations.DelayAndSoundingSlots : Prop :=
  (∀ (p : Port) (e : Nat) (i : Bool) (s : State), (s.port p).link = .sounding i → atSymbol s = true → 180 ≤ e →
    ∃ t, exec (.soundingSlot p e) s = .next t ∧ Alters [.portA, .portB] s t ∧ t.port p.other = s.port p.other ∧
      (t.port p).link = .sounding i ∧
      (t.port p).llOut = (s.port p).llOut ++
        (if i = true ∧ soundingSlotNo s (s.port p) = 8 then [(s.clock.line, llMessage 2 (delayBody (line48 s) 0 1))]
         else if i = false ∧ soundingSlotNo s (s.port p) = 16 then
           [(s.clock.line, llMessage 2 (delayBody (line48 s) (s.port p).a1 2))]
         else if i = true ∧ soundingSlotNo s (s.port p) = 24 then
           [(s.clock.line, llMessage 2 (delayBody (line48 s) (s.port p).a2 3))]
         else [])) ∧
  (∀ (p : Port) (b : List Byte) (a64 : Nat) (d : Int) (s : State), (s.port p).link = .sounding true → b.length = 14 →
    byteAt b 0 = 3 → byteAt b 13 = 2 →
    d = ((BitVec.ofNat 48 (fieldAt b 7 6) - (s.port p).t1).toInt +
      (BitVec.ofNat 48 a64 - BitVec.ofNat 48 (fieldAt b 1 6)).toInt) / 2 → d ≤ dMax (s.port p) →
    ∃ t, exec (.delay p b a64) s = .next t ∧ Alters [.portA, .portB, .events] s t ∧ (t.port p).linkD = some (BitVec.ofInt 24 d) ∧
      (t.port p).tooLong = false ∧ (t.port p).link = .sounding true ∧ t.port p.other = s.port p.other) ∧
  (∀ (p : Port) (snr : List Nat) (i : Bool) (s : State), (s.port p).link = .sounding i → atSymbol s = true →
    soundingSlotNo s (s.port p) = (if i = true then 392 else 384) →
    (headerBelow snr 0 = false → 464 ≤ tableB (tableFor snr (marginDb (s.port p).margin)) →
      ∃ t q, exec (.soundingTableSend p snr) s = .next t ∧ Alters [.portA, .portB, .events] s t ∧
        (t.port p).link = .sounding i ∧ (t.port p).pendRx = some q ∧ q.tbl = tableFor snr (marginDb (s.port p).margin) ∧
        q.slot = !(s.port p).rxSlot ∧ q.seq = (s.port p).tblSeq + 1 ∧ q.acked = false ∧
        (t.port p).llOut = (s.port p).llOut ++ [(s.clock.line, llMessage 2 q.msg)] ∧ t.port p.other = s.port p.other) ∧
    (tableB (tableFor snr (marginDb (s.port p).margin)) < 464 →
      ∃ t, exec (.soundingTableSend p snr) s = .next t ∧ (t.port p).link = .untrained ∧ (t.port p).pendRx = none ∧
        (t.port p).tx0 = defaultTable ∧ (t.port p).rx0 = defaultTable ∧ (t.port p).llOut = (s.port p).llOut ∧
        latched t 0x0503 (portSrc p) 0 = true))

/-- TABLE, TABLE_ACK, TABLE_SWITCH, OLD_SLOT_RELEASE and TABLE_RESEND: acknowledge, switch N_S symbols later, release a trick after. What is the model's choice in it, log entry 22 names. -/
def Obligations.TablesSwitchTogether : Prop :=
  (∀ (p : Port) (b : List Byte) (s : State) (seq : BitVec 16) (slot : Bool), (s.port p).pendTx = none →
    (s.port p).lastAck = none →
    (∀ tbl, parseTable (s.port p) b = some (seq, slot, .inr tbl) →
      ∃ t q, exec (.table p b) s = .next t ∧ Alters [.portA, .portB] s t ∧ (t.port p).pendTx = some q ∧ q.tbl = tbl ∧
        q.slot = slot ∧ q.ns = 48 ∧ q.acked = true ∧ slot ≠ (s.port p).txSlot ∧ 464 ≤ tableB tbl ∧
        (t.port p).llOut = (s.port p).llOut ++ [(s.clock.line, llMessage 2 (tableAckBody seq slot 48))] ∧
        (t.port p).tx0 = (s.port p).tx0 ∧ (t.port p).tx1 = (s.port p).tx1 ∧ (t.port p).txSlot = (s.port p).txSlot ∧
        t.port p.other = s.port p.other) ∧
    (∀ item, parseTable (s.port p) b = some (seq, slot, .inl item) → isSounding (s.port p) = false →
      ∃ t, exec (.table p b) s = .next t ∧ Alters [.portA, .portB, .events] s t ∧ (t.port p).pendTx = none ∧
        (t.port p).tx0 = (s.port p).tx0 ∧ (t.port p).tx1 = (s.port p).tx1 ∧ (t.port p).txSlot = (s.port p).txSlot ∧
        (t.port p).llOut = (s.port p).llOut ++ [(s.clock.line, llMessage 2 [0x06, 5])])) ∧
  (∀ (p : Port) (b : List Byte) (s : State) (q : PendingTable), b.length = 6 → byteAt b 0 = 5 → 32 ≤ fieldAt b 4 2 →
    fieldAt b 4 2 ≤ 1024 → (s.port p).pendRx = some q → q.acked = false → fieldAt b 1 2 = q.seq.toNat →
    byteAt b 3 = b2n q.slot →
    ∃ t, exec (.tableAck p b) s = .next t ∧ Alters [.portA, .portB] s t ∧ t.port p.other = s.port p.other ∧
      t.port p = { s.port p with pendRx := some { q with acked := true, ns := fieldAt b 4 2, at_ := s.clock.line } }) ∧
  (∀ (p : Port) (s : State) (q : PendingTable), (s.port p).pendRx = some q → (s.port p).pendTx = none →
    isSounding (s.port p) = false →
    (q.acked = true → q.at_.toNat + q.ns * 9216 ≤ s.clock.line.toNat →
      ∃ t, exec (.tableSwitch p) s = .next t ∧ Alters [.portA, .portB] s t ∧ (t.port p).rxSlot = q.slot ∧
        (t.port p).rxTable q.slot = q.tbl ∧ (t.port p).pendRx = none ∧ (t.port p).rxOtherReleased = false ∧
        (t.port p).tx0 = (s.port p).tx0 ∧ (t.port p).tx1 = (s.port p).tx1 ∧ t.port p.other = s.port p.other) ∧
    ((q.acked = false ∨ s.clock.line.toNat < q.at_.toNat + q.ns * 9216) → exec (.tableSwitch p) s = .next s) ∧
    (q.acked = false → q.resends < 3 → q.at_.toNat + 128 * 9216 ≤ s.clock.line.toNat →
      ∃ t, exec (.tableResend p) s = .next t ∧ Alters [.portA, .portB] s t ∧
        (t.port p).llOut = (s.port p).llOut ++ [(s.clock.line, llMessage 2 q.msg)] ∧
        (t.port p).pendRx = some { q with at_ := s.clock.line, resends := q.resends + 1 } ∧ t.port p.other = s.port p.other) ∧
    (3 ≤ q.resends → exec (.tableResend p) s = .next s)) ∧
  (∀ (p : Port) (s : State), (s.port p).rxOtherReleased = false → (s.port p).pendRx = none →
    (s.port p).rxSwitchAt.toNat + 589824 ≤ s.clock.line.toNat →
    ∃ t, exec (.oldSlotRelease p) s = .next t ∧ Alters [.portA, .portB] s t ∧
      t.port p = { s.port p with rxOtherReleased := true } ∧ t.port p.other = s.port p.other)

/-- BID_SEND, BID, CLASH, TALLY: the higher bid is followed and passed on, a provisional dealer yields, a clash starts the next round. What is the model's choice in it, log entries 18, 25, 30, 33 and 35 name. -/
def Obligations.BidsElectTheHighest : Prop :=
  (∀ (s : State), inService s = true → s.cut.state = .cut → s.cut.provisional = false → eligible s = true →
    s.clock.line.toNat = s.cut.bidTrick.toNat + s.cut.slot * 9216 → (∀ b, s.cut.best = some b → b.value ≤ (ownBid s).value) →
    isTwin? s (ownBid s) = false →
    ∃ t, exec .bidSend s = .next t ∧ Alters [.portA, .portB, .cut] s t ∧ t.cut.provisional = true ∧ t.cut.best = some (ownBid s) ∧
      ∀ p, (t.port p).llOut = (s.port p).llOut ++
        (if carries (s.port p) = true then [(s.clock.line, llMessage 3 (bidBody s s.cut.round.toNat (ownBid s) 1))] else [])) ∧
  (∀ (p : Port) (m : List Byte) (s : State) (b : Bid), cutOk 1 m = true → inService s = true → s.cut.state = .cut →
    byteAt m 1 = s.cut.round.toNat → b.rank.toNat = byteAt m 2 → b.die.toNat = fieldAt m 3 8 → b.node.toNat = fieldAt m 11 2 →
    b.nonce.toNat = fieldAt m 13 4 → isTwin? s b = false →
    ((∀ x, s.cut.best = some x → x.value < b.value) →
      ∃ t, exec (.bid p m) s = .next t ∧ Alters [.portA, .portB, .cut] s t ∧ t.cut.best = some b ∧ t.cut.provisional = false ∧
        t.cut.tallies = [] ∧ t.cut.state = .cut ∧ t.cut.round = s.cut.round ∧ t.cut.silence = s.clock.age) ∧
    (∀ x, s.cut.best = some x → b.value < x.value →
      ∃ t, exec (.bid p m) s = .next t ∧ Alters [.portA, .portB, .cut] s t ∧ t.cut.best = s.cut.best ∧
        t.cut.provisional = s.cut.provisional ∧ t.cut.tallies = s.cut.tallies)) ∧
  (∀ (p : Port) (m : List Byte) (s : State) (die : BitVec 64), cutOk 2 m = true → inService s = true → s.cut.state = .cut →
    die.toNat = fieldAt m 3 8 → byteAt m 1 = s.cut.round.toNat → s.cut.round.toNat < 255 →
    (die, s.cut.round) ∉ s.cut.clashSeen →
    ∃ t, exec (.clash p m) s = .next t ∧ Alters [.free, .portA, .portB, .cut] s t ∧ die ∈ t.cut.ineligible ∧
      t.cut.round = s.cut.round + 1 ∧ t.cut.state = .cut ∧ t.cut.provisional = false ∧ t.cut.best = none) ∧
  (∀ (p : Port) (m : List Byte) (s : State) (b : Bid), cutOk 3 m = true → inService s = true → s.cut.state = .cut →
    s.cut.provisional = true → s.cut.best = some b → fieldAt m 2 8 = b.die.toNat →
    ∃ t q, exec (.tally p m) s = .next t ∧ Alters [.cut, .events] s t ∧ q ∈ t.cut.tallies ∧ q.node.toNat = fieldAt m 10 2 ∧
      q.hops.toNat = byteAt m 12 ∧ q.epoch.toNat = byteAt m 13 ∧ q.meet.toNat = byteAt m 14 ∧ t.cut.best = s.cut.best) ∧
  (∀ (p : Port) (m : List Byte) (s : State),
    (cutOk 1 m = false → ∃ t, exec (.bid p m) s = .next t ∧ Alters [.events, .counters] s t) ∧
    (cutOk 2 m = false → ∃ t, exec (.clash p m) s = .next t ∧ Alters [.events, .counters] s t) ∧
    (cutOk 3 m = false → ∃ t, exec (.tally p m) s = .next t ∧ Alters [.events, .counters] s t))

/-- The cut begins after 20 ms of silence, settles after 25 ms one epoch up, and repeats after 50 ms without a DEAL. What is the model's choice in it, log entries 25, 31 and 36 name. -/
def Obligations.TheCutBeginsAndSettles : Prop :=
  (∀ s : State, inService s = true → (s.cut.state = .waiting ∨ s.cut.state = .following) →
    (60000000 ≤ since s s.cut.silence →
      ∃ t, exec .silenceTimerExpiry s = .next t ∧ Alters [.free, .portA, .portB, .cut, .events] s t ∧ t.cut.state = .cut ∧
        t.cut.round = 0 ∧ t.cut.best = none ∧ t.cut.provisional = false ∧ t.cut.tallies = [] ∧ t.cut.slot < 64 ∧
        t.cut.entered = s.clock.age ∧
        t.cut.bidTrick = BitVec.ofNat 64 ((s.clock.line.toNat / 589824 + 1) * 589824)) ∧
    (since s s.cut.silence < 60000000 → exec .silenceTimerExpiry s = .next s)) ∧
  (∀ s : State, inService s = true → s.cut.state = .cut → s.cut.provisional = true → 75000000 ≤ since s s.cut.entered →
    ∃ t, exec .cutSettle s = .next t ∧ Alters [.clock, .portA, .portB, .cut, .tables, .events] s t ∧ t.cut.state = .dealer ∧
      t.cut.provisional = false ∧ t.clock.state = .dealer ∧ t.clock.hops = some 0 ∧ t.clock.facing = none ∧
      t.clock.counter = s.clock.counter ∧ t.clock.corr = s.clock.corr ∧ t.clock.epoch ≠ 0 ∧
      (∀ top, (s.clock.epoch.toNat ≤ top ∧ (∀ x ∈ s.cut.tallies, x.epoch.toNat ≤ top) ∧
        (top = s.clock.epoch.toNat ∨ ∃ x ∈ s.cut.tallies, x.epoch.toNat = top)) →
        t.clock.epoch.toNat = if (top + 1) % 256 = 0 then 1 else (top + 1) % 256)) ∧
  (∀ s : State, inService s = true → s.cut.state = .cut → s.cut.provisional = false → 150000000 ≤ since s s.cut.entered →
    ∃ t, exec .cutFollowTimeout s = .next t ∧ Alters [.free, .portA, .portB, .cut, .events] s t ∧ t.cut.state = .cut ∧
      t.cut.round = 0 ∧ t.cut.best = none ∧ t.cut.entered = s.clock.age ∧
      (∀ q, s.cut.noDealerAt = some q → since s q < 3000000000 → t.events = s.events))

/-- DEAL, BREAK and CALL: a follower keeps its dealer, blocks and unblocks, and a foreign DEAL starts a merge cut. What is the model's choice in it, log entries 32, 34 and 37 name. -/
def Obligations.DealsBreaksAndCalls : Prop :=
  (∀ s : State, inService s = true → s.cut.state = .dealer → s.clock.line.toNat % 9437184 = 9216 →
    ∃ t, exec .dealSend s = .next t ∧ Alters [.portA, .portB, .cut] s t ∧ t.cut.dealSeq = s.cut.dealSeq + 1 ∧
      t.cut.state = .dealer) ∧
  (∀ (p : Port) (m : List Byte) (s : State), cutOk 4 m = true → inService s = true → byteAt m 13 ≤ 64 →
    (s.port p).blocked = false → (s.port p).held = false →
    (s.cut.state = .waiting →
      ∃ t, exec (.deal p m) s = .next t ∧ t.cut.state = .following ∧ t.clock.facing = some p ∧ t.clock.hops = some (byteAt m 13) ∧
        t.cut.silence = s.clock.age ∧ t.cut.lastDeal = m ∧ t.clock.counter = s.clock.counter ∧ t.clock.epoch = s.clock.epoch) ∧
    (s.cut.state = .following → s.cut.dealer ≠ none → fieldAt m 2 8 = dealerDie s → byteAt m 12 = dealerEpoch s →
      ∃ t, exec (.deal p m) s = .next t ∧ t.cut.state = .following ∧ t.cut.silence = s.clock.age ∧ t.cut.lastDeal = m ∧
        t.cut.lastDealAt = some s.clock.age) ∧
    ((s.cut.state = .following ∨ s.cut.state = .dealer) → (fieldAt m 2 8 ≠ dealerDie s ∨ byteAt m 12 ≠ dealerEpoch s) →
      ∃ t, exec (.deal p m) s = .next t ∧ Alters [.free, .portA, .portB, .cut, .events] s t ∧ t.cut.state = .cut ∧
        t.cut.round = 0 ∧ t.cut.provisional = false)) ∧
  (∀ (p : Port) (m : List Byte) (s : State), cutOk 4 m = true → inService s = true → 64 < byteAt m 13 →
    ∃ t, exec (.deal p m) s = .next t ∧ Alters [.portA, .portB, .events] s t) ∧
  (∀ (p : Port) (s : State), s.clock.facing = some p → s.cut.state = .following → s.clock.line.toNat % 9437184 = 0 →
    ((s.port p).dealSeen = false → (s.port p.other).dealSeen = true →
      ∃ t, exec .dealerFacingChange s = .next t ∧ t.clock.facing = some p.other ∧ t.clock.hops = some (byteAt s.cut.lastDeal 13) ∧
        ((s.clock.state = .disciplined ∨ s.clock.state = .acquiring) → t.clock.state = .holdover) ∧
        t.clock.counter = s.clock.counter) ∧
    ((s.port p).dealSeen = true → exec .dealerFacingChange s = .next s)) ∧
  (∀ (p : Port) (m : List Byte) (s : State), cutOk 6 m = true → inService s = true →
    (s.cut.state = .following ∨ s.cut.state = .dealer) →
    (∀ x ∈ s.cut.breakSeen, x.1.toNat ≠ fieldAt m 10 2 ∨ x.2.1.toNat ≠ byteAt m 1) →
    ∃ t, exec (.break_ p m) s = .next t ∧ Alters [.portA, .portB, .cut, .tables] s t ∧ t.portA.blocked = false ∧
      t.portA.held = false ∧ t.portB.blocked = false ∧ t.portB.held = false ∧ t.tables.flushDue = true ∧
      t.cut.state = s.cut.state) ∧
  (∀ (p : Port) (m : List Byte) (s : State), cutOk 5 m = true → inService s = true → s.cut.state ≠ .cut →
    (∀ x ∈ s.cut.callSeen, x.1.toNat ≠ fieldAt m 2 8 ∨ x.2.toNat ≠ byteAt m 1) →
    ∃ t, exec (.call p m) s = .next t ∧ Alters [.free, .portA, .portB, .cut, .events] s t ∧ t.cut.state = .cut ∧ t.cut.round = 0) ∧
  (∀ (p : Port) (s : State) (m : Tick × List Byte), (s.port p).llOut.find? (fun x => byteAt x.2 0 == 3) = some m →
    atSymbol s = true → inService s = true → (s.port p).tx = none → carries (s.port p) = true → m.1.toNat ≤ s.clock.line.toNat →
    (∀ n, n ≤ 4 → maySpan s p n = true) → tableB ((s.port p).txTable (s.port p).txSlot) ≥ 464 → m.2.length ≤ 58 →
    ∃ t x, exec (.cutMessagePassOn p) s = .next t ∧ Alters [.portA, .portB, .announce] s t ∧ (t.port p).tx = some x ∧
      x.frame.payload = m.2 ∧ x.kind = .trump ∧ x.sent = 0 ∧ (t.port p).llOut = (s.port p).llOut.erase m ∧
      t.port p.other = s.port p.other)

/-- TOPOLOGY_FLUSH inverts both generations, zeroes both counts and removes the learned prefixes; the reclaim pass then frees the old entries, bucket by bucket. What is the model's choice in it, log entry 64 names. -/
def Obligations.TopologyFlushForgetsWhatWasLearned : Prop :=
  (∀ s : State, atTrick s = true → inService s = true → s.tables.flushDue = true → s.tables.reclaim = none →
    ∃ t, exec .topologyFlush s = .next t ∧ Alters [.tables] s t ∧ t.tables.pa.gen = !s.tables.pa.gen ∧
      t.tables.pb.gen = !s.tables.pb.gen ∧ t.tables.pa.learned = 0 ∧ t.tables.pb.learned = 0 ∧ t.tables.reclaim = some 0 ∧
      t.tables.flushDue = false ∧ t.tables.prefixes = s.tables.prefixes.filter (fun e => prKind e != 1) ∧
      t.tables.staged = s.tables.staged ∧ t.tables.policers = s.tables.policers) ∧
  (∀ s : State, (s.tables.flushDue = false ∨ s.tables.reclaim ≠ none ∨ atTrick s = false) → exec .topologyFlush s = .next s) ∧
  (∀ (s : State) (b : Nat), s.mem.wf = true → s.tables.reclaim = some b → inService s = true →
    b < 8192 →
    ∃ t, exec .reclaimPassVisit s = .next t ∧ Alters [.tables, .mem] s t ∧ t.tables.reclaim = some (b + 1) ∧
      (∀ (p : Port) (w : Fin 4), t.mem.entry (wayAddr p b w) =
        (let e := s.mem.entry (wayAddr p b w)
         if heValid e = true ∧ heStatic e = false ∧ heGen e ≠ (s.pipe p).gen then 0 else e)) ∧
      (∀ a, (∀ p : Port, a < wayAddr p b 0 ∨ wayAddr p b 0 + 64 ≤ a) → cellsRead t.mem.cells a = cellsRead s.mem.cells a)) ∧
  (∀ s : State, s.tables.reclaim = some 8192 →
    exec .reclaimPassEnd s = .next { s with tables := { s.tables with reclaim := none } })

/-- HEADER_DECISION counts and discards a bad header and else resolves the egress set of Table 8.7 less the ports of R240; RX_PREEMPT ends a frame. What is the model's choice in it, log entries 22, 23 and 39 name. -/
def Obligations.HeaderDecisionTakesOrDiscards : Prop :=
  (∀ (p : Port) (hdr : List Byte) (ecc : Ecc) (s : State), inService s = true → carries (s.port p) = true → (s.port p).rx = none →
    (headerCrcGood hdr = false → exec (.headerDecision p hdr ecc) s = .next (countPort s p 0x01)) ∧
    (headerCrcGood hdr = true → (Header.decode hdr).btSlot ≠ (s.port p).rxSlot → (s.port p).rxOtherReleased = true →
      exec (.headerDecision p hdr ecc) s = .next (countPort s p 0x0C)) ∧
    (headerCrcGood hdr = true → (Header.decode hdr).btSlot = (s.port p).rxSlot →
      headerBad (Header.decode hdr) (tableB ((s.port p).rxTable (s.port p).rxSlot)) = true →
      exec (.headerDecision p hdr ecc) s = .next (countPort s p 0x02))) ∧
  (∀ (p : Port) (hdr : List Byte) (ecc : Ecc) (h : Header) (s : State), inService s = true → carries (s.port p) = true →
    (s.port p).rx = none → headerCrcGood hdr = true → h = Header.decode hdr → h.btSlot = (s.port p).rxSlot →
    headerBad h (tableB ((s.port p).rxTable h.btSlot)) = false → ingressOpen s p = true → linkBlocked (s.port p) = false →
    eccApply s ecc = s → h.akind = 0 → h.srcTag ≠ ownTag s → (hashFind s p h.srcTag.toNat).isSome = true →
    1 < h.hopCount.toNat → s.cut.state ≠ .cut → linkBlocked (s.port p.other) = false →
    s.clock.realign = none → s.clock.quietUntil = none → s.dbg.step = none → carries (s.port p.other) = true →
    ∃ t r, exec (.headerDecision p hdr ecc) s = .next t ∧ Alters [.portA, .portB] s t ∧ (t.port p).rx = some r ∧ r.hdr = h ∧ r.meta_.epoch = s.tables.epoch ∧
      (h.dest = ownTag s → r.meta_.egress = { ta := false, tb := false, loc := true }) ∧
      (h.dest ≠ ownTag s → h.dest.toNat = 2 ^ 48 - 1 → r.meta_.egress = { otherPort p with loc := true }) ∧
      (h.dest ≠ ownTag s → isGroup h.dest = false → (hashFind s p h.dest.toNat).isSome = true →
        r.meta_.egress = { ta := false, tb := false, loc := false }) ∧
      (h.dest ≠ ownTag s → isGroup h.dest = false → (hashFind s p h.dest.toNat).isSome = false →
        r.meta_.egress = otherPort p ∧ ∃ d, (t.port p.other).due = some d ∧ d.from_ = p ∧ d.complete = false ∧
          d.frame.hdr.hopCount = h.hopCount - 1 ∧ d.frame.hdr.dest = h.dest ∧ d.frame.hdr.srcTag = h.srcTag ∧
          d.due = BitVec.ofNat 64 ((s.clock.line.toNat / 9216 + 1) * 9216))) ∧
  (∀ (p : Port) (r : RxFrame) (s : State), inService s = true → (s.port p).rx = some r →
    ∃ t, exec (.rxPreempt p) s = .next t ∧ Alters [.portA, .portB, .events, .counters] s t ∧ (t.port p).rx = none ∧
      counterOf t (portSrc p) 0 0x05 = counterOf s (portSrc p) 0 0x05 + 1 ∧
      (∀ d, (t.port p.other).due = some d → (s.port p.other).due = some d ∧ (d.from_ ≠ p ∨ d.complete = true)) ∧
      (∀ d ∈ (t.port p.other).hold, d ∈ (s.port p.other).hold ∧ (d.from_ ≠ p ∨ d.complete = true)))

/-- TRANSIT_EGRESS starts a due copy or defers it, PAYLOAD_CHECK completes or stomps it, and PORT_SYMBOL_SCHEDULE sends one symbol a boundary. What is the model's choice in it, log entries 7, 22, 42 and 121 name. -/
def Obligations.TransitPayloadAndSymbols : Prop :=
  (∀ (p : Port) (d : Transit) (s : State), atSymbol s = true → shellRuns s = true → (s.port p).due = some d →
    d.due.toNat ≤ s.clock.line.toNat → carries (s.port p) = true → inBeaconSlot s p = false → soundingSpan s (s.port p) = false →
    ((s.port p).tx = none → (s.port p).hold = [] →
      ∃ t, exec (.transitEgress p) s = .next t ∧ Alters [.portA, .portB] s t ∧ (t.port p).due = none ∧
        (t.port p).tx = some (transitTx d .transit) ∧ t.port p.other = s.port p.other) ∧
    ((s.port p).hold ≠ [] → (s.port p).hold.length < 64 → holdCells (s.port p) + cellsOf d.frame.hdr.payLen.toNat ≤ 512 →
      halted s 2 = false →
      ∃ t, exec (.transitEgress p) s = .next t ∧ Alters [.portA, .portB, .events, .counters] s t ∧ (t.port p).due = none ∧
        (t.port p).tx = (s.port p).tx ∧
        (t.port p).hold = (s.port p).hold ++ [{ d with frame := { d.frame with hdr := { d.frame.hdr with defer := true } } }] ∧
        counterOf t (portSrc p) 0 0x07 = counterOf s (portSrc p) 0 0x07 + 1)) ∧
  (∀ (p : Port) (pay : List Byte) (crc : BitVec 32) (r : RxFrame) (s : State), inService s = true → (s.port p).rx = some r →
    pay.length = r.hdr.payLen.toNat → crc ≠ crc32 pay →
    ∃ t, exec (.payloadCheck p pay crc) s = .next t ∧ Alters [.portA, .portB, .events, .counters] s t ∧ (t.port p).rx = none ∧
      (crc = crc32 pay ^^^ 0xA5A5A5A5 → counterOf t (portSrc p) 0 0x04 = counterOf s (portSrc p) 0 0x04 + 1 ∧
        (t.port p).crcFails = (s.port p).crcFails) ∧
      (crc ≠ crc32 pay ^^^ 0xA5A5A5A5 → counterOf t (portSrc p) 0 0x03 = counterOf s (portSrc p) 0 0x03 + 1 ∧
        (t.port p).crcFails = (s.port p).crcFails + 1) ∧
      (∀ x, (s.port p.other).tx = some x → x.from_ = some p →
        ∃ y, (t.port p.other).tx = some y ∧ y.frame.crc = .residue ∧ y.frame.payload = pay ∧ y.frame.hdr = x.frame.hdr ∧
          y.sent = x.sent)) ∧
  (∀ (p : Port) (pay : List Byte) (r : RxFrame) (s : State), inService s = true → (s.port p).rx = some r →
    pay.length = r.hdr.payLen.toNat → r.hdr.akind = 3 → llBad 4096 pay = 0 →
    ∃ t, exec (.payloadCheck p pay (crc32 pay)) s = .next t ∧ Alters [.portA, .portB] s t ∧ (t.port p).rx = none) ∧
  (∀ (p : Port) (s : State), atSymbol s = true → shellRuns s = true → (s.port p).link = .off →
    ∃ t, exec (.portSymbolSchedule p) s = .next t ∧ Alters [.portA, .portB] s t ∧ t.port p.other = s.port p.other ∧
      t.port p = { s.port p with sym := { kind := .silent, pilots := [], carriers := [] } }) ∧
  (∀ s : State, inService s = true → placeOf s.straps.codes ≠ none → s.cut.state ≠ .cut → s.queues.ready = true →
    (s.announce.dueTa = true ∨ s.announce.dueTb = true) →
    ∃ t, exec .placeAnnounceSend s = .next t ∧ Alters [.free, .queues, .announce] s t ∧
      t.announce.dueTa = false ∧ t.announce.dueTb = false ∧ t.announce.last = announcePayload s ∧
      t.announce.seq = s.announce.seq + 1)

/-- LINK_ADAPT: the margins of a trick give LQ, an adapted TABLE, or a re-sound after 16 payload errors or 16 weak tricks. What is the model's choice in it, log entry 90 names. -/
def Obligations.LinkAdaptsAtTheTrickEnd : Prop :=
  ∀ (p : Port) (snr : List Nat) (evm drift : Int) (s : State), atTrick s = true →
    (((s.port p).link = .untrained ∨ (s.port p).link = .up ∨ isSounding (s.port p) = true) →
      ∃ t, exec (.linkAdapt p snr evm drift) s = .next t ∧ Alters [.portA, .portB, .tables, .events] s t ∧ (t.port p).snr = snr ∧
        (t.port p).crcFails = 0 ∧ (t.port p).lq = lqOf (worstMargin snr ((s.port p).rxTable (s.port p).rxSlot)) ∧
        (t.port p).tx0 = (s.port p).tx0 ∧ (t.port p).tx1 = (s.port p).tx1 ∧ (t.port p).rxSlot = (s.port p).rxSlot ∧
        t.port p.other = s.port p.other) ∧
    ((s.port p).link = .up → (16 ≤ (s.port p).crcFails ∨ (headerBelow snr 0 = true ∧ 15 ≤ (s.port p).hdrLow)) →
      ∃ t, exec (.linkAdapt p snr evm drift) s = .next t ∧ (t.port p).link = .untrained ∧ (t.port p).reqReason = 2 ∧
        t.tables.flushDue = true ∧ (t.port p).pendRx = none) ∧
    ((s.port p).link = .up → (s.port p).crcFails < 16 → headerBelow snr 0 = false → (s.port p).marginDue = false →
      adaptChanges snr (goodCounts snr (s.port p).goodTricks ((s.port p).rxTable (s.port p).rxSlot) (marginDb (s.port p).margin))
        ((s.port p).rxTable (s.port p).rxSlot) (marginDb (s.port p).margin) = [] →
      ∃ t, exec (.linkAdapt p snr evm drift) s = .next t ∧ (t.port p).link = .up ∧ (t.port p).llOut = (s.port p).llOut ∧
        (t.port p).pendRx = (s.port p).pendRx)

/-- The aging scanner, the prefix aging, the two refills and the drain of the table epoch. What is the model's choice in it, log entry 60 names. -/
def Obligations.TablesAgeRefillAndDrain : Prop :=
  (∀ (p : Port) (s : State), s.mem.wf = true → inService s = true → halted s 5 = false → (s.pipe p).scan < 8192 →
    (agingLimit s.straps.codes * 65536 ≤ since s (s.pipe p).scanAt →
      ∃ t, exec (.agingScannerVisit p) s = .next t ∧ Alters [.tables, .mem] s t ∧
        (t.pipe p).scan = ((s.pipe p).scan + 1) % 8192 ∧ t.pipe p.other = s.pipe p.other ∧
        (∀ w : Fin 4, t.mem.entry (wayAddr p (s.pipe p).scan w) =
          (let e := s.mem.entry (wayAddr p (s.pipe p).scan w); if heValid e = true ∧ heExpired s e = true then 0 else e)) ∧
        (∀ a, (a < wayAddr p (s.pipe p).scan 0 ∨ wayAddr p (s.pipe p).scan 0 + 64 ≤ a) →
          cellsRead t.mem.cells a = cellsRead s.mem.cells a)) ∧
    (since s (s.pipe p).scanAt < agingLimit s.straps.codes * 65536 → exec (.agingScannerVisit p) s = .next s)) ∧
  (∀ s : State, atTrick s = true → inService s = true → halted s 5 = false → trickNo s % 4096 = 0 →
    ∃ t, exec .learnedPrefixAging s = .next t ∧ Alters [.tables] s t ∧
      (∀ e, e ∈ t.tables.prefixes ↔ e ∈ s.tables.prefixes ∧ ¬ (prKind e = 1 ∧ 8 ≤ (prefixUnit s + 65536 - prStamp e) % 65536)) ∧
      t.tables.pa = s.tables.pa ∧ t.tables.pb = s.tables.pb ∧ t.tables.staged = s.tables.staged) ∧
  (∀ s : State, atTrick s = true → inService s = true →
    ∃ t, exec .policerRefill s = .next t ∧ Alters [.tables] s t ∧ t.tables.prefixes = s.tables.prefixes ∧
      ∀ i, policerAt t i = (let e := policerAt s i
        if poValid e = true then poSet e (min (poBurst e) (poTokens e + poRate e)) (poDrop e) else e)) ∧
  (∀ s : State, atTrick s = true → inService s = true → halted s 2 = false →
    ∃ t, exec .shaperRefill s = .next t ∧ Alters [.queues] s t ∧ t.queues.frames = s.queues.frames ∧
      ∀ q v, sparseGet s.queues.settings q = some v → sparseGet t.queues.settings q =
        some { v with credit := if v.rate = 0 then v.credit else min 4352 (v.credit + 64 * v.rate.toNat) }) ∧
  (∀ (w : InvWhy) (f : Tick) (s : State), s.tables.draining = some (w, f) →
    (since s f < 4096 → exec .epochDrained s = .next s) ∧
    (4096 ≤ since s f → insidePort s.portA (!s.tables.epoch) = false → insidePort s.portB (!s.tables.epoch) = false →
      s.tables.waiting = [] →
      ∃ t, exec .epochDrained s = .next t ∧ t.tables.draining = none ∧ t.tables.epoch = s.tables.epoch ∧
        t.tables.prefixes = s.tables.prefixes ∧ t.mem = s.mem))

/-- COMMIT_PREPARED, COMMIT_SWITCH, COMMIT_WRITEBACK_DONE, COMMIT_DEFER and FLUSH_PORT_STEP: a batch is read whole or not at all. What is the model's choice in it, log entries 43, 64, 65, 85, 88 and 115 name. -/
def Obligations.CommitsSwitchWhole : Prop :=
  (∀ (s : State) (b : List Change) (r : List (List Change)), s.tables.commit.batches = b :: r →
    s.tables.commit.state = .preparing → s.tables.commit.prepared = false →
    (halted s 3 = false → since s s.tables.commit.since < 16 * 589824 → copiesFit s.tables.prefixes b = true →
      ∃ t, exec .commitPrepared s = .next t ∧ Alters [.tables] s t ∧ t.tables.commit.prepared = true ∧
        t.tables.commit.state = .preparing ∧ t.tables.prefixes = s.tables.prefixes ∧
        (∀ sid, streamEntry t sid = streamEntry s sid) ∧ t.tables.shadow = batchShadow s b) ∧
    (16 * 589824 ≤ since s s.tables.commit.since →
      ∃ t, exec .commitDefer s = .next t ∧ Alters [.tables, .events] s t ∧ t.tables.commit.state = .staging ∧
        t.tables.commit.batches = [] ∧ t.tables.prefixes = s.tables.prefixes ∧ t.tables.epoch = s.tables.epoch ∧
        (∀ c ∈ s.tables.staged, c ∈ t.tables.staged) ∧
        (∀ c ∈ b, (∀ d ∈ s.tables.staged, d.table ≠ c.table ∨ d.key ≠ c.key) → c ∈ t.tables.staged))) ∧
  (∀ (s : State) (b : List Change) (r : List (List Change)) (late : Bool), s.tables.commit.batches = b :: r →
    s.tables.commit.state = .preparing → s.tables.commit.prepared = true → s.tables.draining = none → switchTime s = some late →
    ∃ t, exec .commitSwitch s = .next t ∧ Alters [.tables] s t ∧ t.tables.commit.state = .switched ∧
      t.tables.epoch = !s.tables.epoch ∧ t.tables.draining = some (.commit, s.clock.age) ∧
      t.tables.prefixes = b.foldl applyPrefix s.tables.prefixes ∧
      (∀ sid e, sparseGet s.tables.shadow sid = some e → streamEntry t sid = e) ∧
      (∀ sid, sparseGet s.tables.shadow sid = none → streamEntry t sid = s.mem.entry (16 * sid)) ∧
      t.tables.commit.switches = s.tables.commit.switches ++ [(s.clock.counter, late)]) ∧
  (∀ (s : State) (b : List Change), s.mem.wf = true → s.tables.commit.batches = [b] → s.tables.commit.state = .switched → commitDraining s = false →
    (∀ e ∈ s.tables.shadow, e.1 < 65536) → (s.tables.shadow.map (·.1)).Nodup →
    ∃ t, exec .commitWritebackDone s = .next t ∧ Alters [.tables, .mem, .events] s t ∧ t.tables.commit.state = .done ∧
      t.tables.shadow = [] ∧ (∀ sid e, sparseGet s.tables.shadow sid = some e → streamEntry t sid = e) ∧
      (∀ a, (∀ e ∈ s.tables.shadow, a < 16 * e.1 ∨ 16 * e.1 + 16 ≤ a) → cellsRead t.mem.cells a = cellsRead s.mem.cells a)) ∧
  (∀ (h : BitVec 16) (s : State) (o : Op) (p : Port), s.mem.wf = true → opOf s h.toNat = some o → o.object = .pipe p → o.opcode = 0x0705 →
    o.state = .running → o.progress.toNat < 0x1FFF → o.cancelPending = false → o.suspendPending = false → halted s 3 = false →
    flushStopping s h = false →
    ∃ t q, exec (.flushPortStep h) s = .next t ∧ Alters [.tables, .mem, .engine] s t ∧ opOf t h.toNat = some q ∧
      q.progress = o.progress + 1 ∧ q.state = .running ∧
      (∀ w : Fin 4, (let e := s.mem.entry (wayAddr p o.progress.toNat w)
        t.mem.entry (wayAddr p o.progress.toNat w) = if flushTakes o e = true then 0 else e)) ∧
      (∀ a, (a < wayAddr p o.progress.toNat 0 ∨ wayAddr p o.progress.toNat 0 + 64 ≤ a) →
        cellsRead t.mem.cells a = cellsRead s.mem.cells a))

/-- STREAM_FRAME_BUILD, ORIGIN_ENTRY_REMOVE, OUT_APPLY, RESPONSE_HELD_RELEASE and HAND_RESET_DRAIN act when due, on their own stream, channel, queue or hand. What is the model's choice in it, log entries 17, 41 and 61 name. -/
def Obligations.StreamsOutputsAndHandsRun : Prop :=
  (∀ (sid : BitVec 16) (s : State) (x : Stream) (n h : Nat), streamOf s sid.toNat = some x → frameRows x = some n →
    inService s = true → halted s 2 = false → queueHand s x.queue.toNat = some h →
    ((s.hand (Fin.ofNat 16 h)).state = .clean ∨ (s.hand (Fin.ofNat 16 h)).state = .faulted) →
    handCells s h + cellsOf (streamPayload x (x.rows.take n)).length ≤ handQuota s h →
    ∃ t f, exec (.streamFrameBuild sid) s = .next t ∧ Alters [.free, .queues, .streams] s t ∧
      qFrames t x.queue.toNat = qFrames s x.queue.toNat ++ [f] ∧ f.payload = streamPayload x (x.rows.take n) ∧
      f.hdr.akind = 2 ∧ f.hdr.dest.toNat = x.id.toNat ∧ f.hdr.seq = x.seq ∧ f.hdr.originTick = s.clock.counter ∧
      streamOf t sid.toNat = some { x with rows := x.rows.drop n, seq := x.seq + 1 } ∧
      (∀ q, q ≠ x.queue.toNat → qFrames t q = qFrames s q)) ∧
  (∀ (sid : BitVec 16) (s : State) (x : Stream), s.mem.wf = true → streamOf s sid.toNat = some x →
    inService s = true → x.closing ≠ none →
    (streamQueued s sid = true → exec (.originEntryRemove sid) s = .next s) ∧
    (streamQueued s sid = false → x.rows = [] →
      ∃ t, exec (.originEntryRemove sid) s = .next t ∧ Alters [.tables, .streams, .mem] s t ∧ streamOf t sid.toNat = none ∧
        seValid (streamEntry t sid.toNat) = false ∧ (∀ y ∈ s.streams, y.id ≠ sid → y ∈ t.streams) ∧
        (∀ a, (a < 16 * sid.toNat ∨ 16 * sid.toNat + 16 ≤ a) → cellsRead t.mem.cells a = cellsRead s.mem.cells a))) ∧
  (∀ (n : Fin 24) (s : State) (v : PendOut) (rest : List PendOut), (s.chan n).pending = v :: rest →
    (s.clock.counter.toNat < v.at_.toNat → exec (.outApply n) s = .next s) ∧
    (Tier.measure.rank ≤ s.tiers.tier.rank → v.at_.toNat ≤ s.clock.counter.toNat → halted s 6 = false → (s.chan n).restrap = false →
      ∃ t, exec (.outApply n) s = .next t ∧ Alters [.chans, .events] s t ∧ (t.chan n).pending = rest ∧
        (t.chan n).applied = v.value ∧ (t.chan n).commanded = true ∧ (t.chan n).lastApply = some v.at_ ∧
        ((s.chan n).rekindle = none → (t.chan n).bankShell = false) ∧ ∀ m, m ≠ n → t.chan m = s.chan m)) ∧
  (∀ (s : State) (e : Nat × QFrame) (rest : List (Nat × QFrame)), s.queues.heldOut = e :: rest → shellRuns s = true →
    halted s 2 = false →
    (heldFits s e = true → ∃ t, exec .responseHeldRelease s = .next t ∧ Alters [.queues] s t ∧ t.queues.heldOut = rest ∧
      qFrames t e.1 = qFrames s e.1 ++ [e.2] ∧ ∀ q, q ≠ e.1 → qFrames t q = qFrames s q) ∧
    (heldFits s e = false → exec .responseHeldRelease s = .next s)) ∧
  (∀ (h : Fin 16) (s : State), halted s 2 = false → (s.hand h).state = .resetting →
    ((s.hand h).resetInv ≠ 0 → exec (.handResetDrain h) s = .next s) ∧
    ((s.hand h).resetInv = 0 → liveOps s h = 0 → responseOut s h.val 0x0303 = false →
      ∃ t, exec (.handResetDrain h) s = .next t ∧ Alters [.free, .queues, .hands, .engine, .events] s t ∧
        (t.hand h).state = .clean ∧ (t.hand h).master = (s.hand h).master ∧ (t.hand h).observers = (s.hand h).observers ∧
        (t.hand h).evCount = 0 ∧ (t.hand h).input = [] ∧ qFrames t (32 + h.val) = [] ∧
        (∀ q, queueHand s q = some h.val → qFrames t q = []) ∧ (∀ k, k ≠ h → t.hand k = s.hand k) ∧
        Logs s t 0x0903 0x52 (beBytes 1 h.val)))

/-- SCRUB_WRITE, SWEEP_REGION_START and WAKE_SCRUB_END: the scrub list, the region steps with a row repair, and the wake scrub. What is the model's choice in it, log entries 48, 58 and 115 name. -/
def Obligations.MemorySweepsItself : Prop :=
  (∀ s : State, shellRuns s = true → halted s 4 = false →
    ∃ t, exec .scrubWrite s = .next t ∧ Alters [.mem] s t ∧ t.mem = { s.mem with scrub := s.mem.scrub.tail }) ∧
  (∀ (s : State) (e : SweepObs), inService s = true → halted s 4 = false → s.mem.wakeScrub = false → sweepOp s = none →
    (since s s.mem.sweepAt < 30000 → exec (.sweepRegionStart e) s = .next s) ∧
    (30000 ≤ since s s.mem.sweepAt → s.mem.sweep < 262144 → works s (.group (Fin.ofNat 8 (s.mem.sweep / 32768))) = true →
      e.ecc.corrected = [] → e.ecc.poisoned = [] →
      let src := 0x40 + s.mem.sweep / 32768
      let b := bankRow (s.mem.sweep * 64)
      ∃ t, exec (.sweepRegionStart e) s = .next t ∧ Alters [.mem, .events, .counters] s t ∧
        t.mem.sweep = (s.mem.sweep + 1) % 262144 ∧ t.mem.sweepAt = s.clock.age ∧ t.mem.cells = s.mem.cells ∧
        t.mem.poison = s.mem.poison ∧
        (e.march = false → t.counters = s.counters ∧ t.events = s.events ∧ t.mem.remap = s.mem.remap) ∧
        (e.march = true → e.retest = false → counterOf t src 0 0x32 = counterOf s src 0 0x32 + 1 ∧ t.events = s.events ∧
          t.mem.remap = s.mem.remap) ∧
        (e.march = true → e.retest = true → counterOf t src 0 0x33 = counterOf s src 0 0x33 + 1 ∧
          (∀ k, freeSpare s.mem b.1 = some k →
            remapOf t.mem b.1 b.2 = some { spare := k, row := b.2, persistent := false } ∧
            (∀ c r, (c, r) ≠ b → remapOf t.mem c r = remapOf s.mem c r) ∧
            Logs s t 0x0A04 src (beBytes 1 b.1 ++ beBytes 2 b.2 ++ beBytes 1 k)) ∧
          (freeSpare s.mem b.1 = none → t.mem.remap = s.mem.remap ∧
            ((∀ r ∈ s.events.rates, r.code.toNat ≠ 0x0A05 ∨ r.src ≠ src) →
              Logs s t 0x0A05 src (beBytes 1 b.1 ++ beBytes 2 b.2)))))) ∧
  (∀ (s : State) (e : SweepObs) (o : Op) (r : Nat), inService s = true → halted s 4 = false → halted s 3 = false →
    s.mem.wakeScrub = false → sweepOp s = some o → opOf s o.handle.toNat = some o → o.cancelPending = false → o.suspendPending = false →
    s.mem.fast = some r → r % 32768 + 1 < 32768 → r < 262143 → works s (.group (Fin.ofNat 8 (r / 32768))) = true →
    e.ecc.corrected = [] → e.ecc.poisoned = [] → e.march = false →
    (since s s.mem.sweepAt < 600 → exec (.sweepRegionStart e) s = .next s) ∧
    (600 ≤ since s s.mem.sweepAt →
      ∃ t q, exec (.sweepRegionStart e) s = .next t ∧ Alters [.mem, .engine] s t ∧ t.mem.fast = some (r + 1) ∧
        t.mem.sweep = s.mem.sweep ∧ t.mem.cells = s.mem.cells ∧ opOf t o.handle.toNat = some q ∧ q.state = .running)) ∧
  (∀ s : State, s.mem.wakeScrub = true →
    (since s s.supply.coreAt < 524288 → exec .wakeScrubEnd s = .next s) ∧
    (524288 ≤ since s s.supply.coreAt →
      ∃ t, exec .wakeScrubEnd s = .next t ∧ Alters [.mem] s t ∧ t.mem.wakeScrub = false ∧ t.mem.sweep = s.mem.sweep ∧
        t.mem.cells = s.mem.cells ∧ t.mem.sweepAt = s.clock.age))

/-- The terminal disconnects, the loop-supply foldback and the role change, each on its own channel alone. What is the model's choice in it, log entry 73 names. -/
def Obligations.TerminalsLoopSuppliesAndRoles : Prop :=
  (∀ (ft : Fin 96) (s : State), s.supply.good.contains .van = true → (s.chan (termChan ft)).disc.length = 4 →
    (s.chan (termChan ft)).disc.getD (ft.val % 4) false = false →
    let n := termChan ft
    ∃ t, exec (.disconnectOpen ft) s = .next t ∧ Alters [.chans, .events] s t ∧
      (t.chan n).disc = (s.chan n).disc.set (ft.val % 4) true ∧ (t.chan n).keeper = (s.chan n).keeper ∧
      (t.chan n).inControl = (s.chan n).inControl ∧ (t.chan n).latch = (s.chan n).latch ∧ (t.chan n).target = (s.chan n).target ∧
      (t.chan n).applied = (s.chan n).applied ∧ (t.chan n).commanded = (s.chan n).commanded ∧
      (∀ p, shellRuns s = true → (s.chan n).profile = some p → ft.val % 4 ∈ sourceTerms (isCjRef s n) p →
        (t.chan n).sources = false ∧ (t.chan n).shunt = false) ∧
      (shellRuns s = true → latched s 0x0B01 n.val ft.val = false → Logs s t 0x0B01 n.val (beBytes 1 ft.val)) ∧
      (∀ m, m ≠ n → t.chan m = s.chan m)) ∧
  (∀ (ft : Fin 96) (s : State) (p : BitVec 8), s.supply.good.contains .van = true →
    (s.chan (termChan ft)).disc.getD (ft.val % 4) false = true → shellRuns s = true → (s.chan (termChan ft)).profile = some p →
    Tier.measure.rank ≤ s.tiers.tier.rank → capped (s.chan (termChan ft)) = false → (s.chan (termChan ft)).restrap = false →
    (s.chan (termChan ft)).roleStep = none →
    let n := termChan ft
    ∃ t, exec (.disconnectReclose ft) s = .next t ∧ Alters [.chans, .events] s t ∧
      (t.chan n).disc = (s.chan n).disc.set (ft.val % 4) false ∧
      (anyOpen (t.chan n) (sourceTerms (isCjRef s n) p) = false →
        ((t.chan n).sources, (t.chan n).shunt, (t.chan n).switches) = frontEnd (isCjRef s n) p (s.chan n).active) ∧
      (isOutput p = true → (t.chan n).disc.contains true = false →
        (t.chan n).settleEnd = s.clock.age + BitVec.ofNat 64 (allowance p) ∧ (t.chan n).checks = false) ∧
      (t.chan n).target = (s.chan n).target ∧ (t.chan n).inControl = (s.chan n).inControl ∧ (∀ m, m ≠ n → t.chan m = s.chan m)) ∧
  (∀ (n : Fin 24) (s : State), hasLoop (s.chan n) = true → (s.chan n).sources = true → (s.chan n).folded = false →
    ∃ t, exec (.loopSupplyFoldback n) s = .next t ∧ Alters [.chans, .events] s t ∧ t.chan n = { s.chan n with folded := true } ∧
      (latched s 0x0B02 n.val 0 = false → Logs s t 0x0B02 n.val []) ∧ (∀ m, m ≠ n → t.chan m = s.chan m)) ∧
  (∀ (n : Fin 24) (s : State), (s.chan n).folded = true → exec (.loopSupplyRetry n false) s = .next s ∧
    ∃ t, exec (.loopSupplyRetry n true) s = .next t ∧ Alters [.chans, .events] s t ∧ t.chan n = { s.chan n with folded := false } ∧
      (∀ m, m ≠ n → t.chan m = s.chan m)) ∧
  (∀ (n : Fin 24) (s : State) (p : BitVec 8), (s.chan n).profile = some p → isTwin s = true → isInput p = true →
    Tier.measure.rank ≤ s.tiers.tier.rank → (s.chan n).roleStep = none → (s.chan n).caught = false → (s.chan n).active ≠ s.seat.lead →
    capped (s.chan n) = false → (s.chan n).restrap = false →
    (atTrick s = false → exec (.roleChangeStart n) s = .next s) ∧
    (atTrick s = true → ∃ t, exec (.roleChangeStart n) s = .next t ∧ Alters [.chans] s t ∧ (∀ m, m ≠ n → t.chan m = s.chan m) ∧
      (roleSpan p = 0 → (t.chan n).active = s.seat.lead ∧ (t.chan n).roleStep = none) ∧
      (roleSpan p ≠ 0 → (t.chan n).roleStep = some (s.seat.lead, s.clock.age + BitVec.ofNat 64 (roleSpan p)) ∧
        (t.chan n).active = (s.chan n).active ∧ (∃ e ∈ (t.chan n).stale, e.1 = 1 ∧ e.2.2 = none) ∧
        (cpaOf p ≤ 2 → anyOpen (s.chan n) (sourceTerms (isCjRef s n) p) = false → (t.chan n).shunt = true) ∧
        (5 ≤ cpaOf p → (t.chan n).sources = false)))) ∧
  (∀ (n : Fin 24) (s : State) (b : Bool) (e : Tick), (s.chan n).roleStep = some (b, e) →
    (s.clock.age.toNat < e.toNat → exec (.roleChangeStep n) s = .next s) ∧
    (e.toNat ≤ s.clock.age.toNat → ∃ t, exec (.roleChangeStep n) s = .next t ∧ Alters [.chans] s t ∧ (t.chan n).active = b ∧
      (t.chan n).roleStep = none ∧ (∀ x ∈ (t.chan n).stale, x.1 = 1 → x.2.2 ≠ none) ∧ (∀ m, m ≠ n → t.chan m = s.chan m)))

/-- SAMPLE_READY: what one conversion makes the channel output, by ranging, blanking, staleness and range. What is the model's choice in it, log entries 11, 49, 71 and 72 name. -/
def Obligations.SamplesFollowTheRangingState : Prop :=
  (∀ (n : Fin 24) (p : BitVec 8) (s : State) (e : SampleObs), (s.chan n).profile = some p → isCjRef s n = false →
    ((∃ l, (s.chan n).lastInstant = some l ∧ e.conv.instant.toNat ≤ l.toNat) ∨ s.tiers.tier.rank < Tier.measure.rank ∨
      s.clock.counter.toNat < e.conv.instant.toNat + readySpan p + 3000) → exec (.sampleReady n e) s = .next s) ∧
  (∀ (n : Fin 24) (p : BitVec 8) (s : State) (e : SampleObs), SampleDue s n p e → s.mem.wf = true → isInput p = true →
    (s.chan n).buffer.length ≤ 4 →
    let at_ := if lookAhead p = true then (match (s.chan n).buffer with
        | [k, _, _, _] => k.instant
        | _ => e.conv.instant - BitVec.ofNat 64 (4 * periodOf p)) else e.conv.instant
    ∃ t v tag, exec (.sampleReady n e) s = .next t ∧ Alters [.free, .chans, .mem, .streams, .events] s t ∧ Sampled s t n at_ v tag ∧
      (t.chan n).lastInstant = some e.conv.instant ∧
      (blanked s n at_ = true → blankMode p = some true → v = (s.chan n).prev.value ∧ tag.getLsbD 4 = true) ∧
      (blanked s n at_ = true → blankMode p = some false → v = 0x800000 ∧ tag.getLsbD 4 = true) ∧
      (blanked s n at_ = false → (staleAt (s.chan n) at_ = true ∨ e.stepInWindow = true ∨ e.settled = false ∨ capped (s.chan n) = true) →
        v = (s.chan n).lastGood.value ∧ tag.getLsbD 2 = true ∧ tag.getLsbD 4 = false)) ∧
  (∀ (n : Fin 24) (p : BitVec 8) (s : State) (e : SampleObs), SampleDue s n p e → s.mem.wf = true → isInput p = true →
    lookAhead p = false → cpaOf p ∈ [0, 1, 3, 4] → Fresh s n e e.conv.instant → (s.chan n).ranging ∈ [.fine, .coarse] →
    ∃ t v tag, exec (.sampleReady n e) s = .next t ∧ Sampled s t n e.conv.instant v tag ∧
      ((readable p).2 < e.conv.coarse → v = 0x7FFFFF ∧ tag.getLsbD 3 = true ∧ tag >>> 6 = 1) ∧
      (e.conv.coarse < (readable p).1 → v = 0x800001 ∧ tag.getLsbD 3 = true ∧ tag >>> 6 = 1) ∧
      ((readable p).1 ≤ e.conv.coarse → e.conv.coarse ≤ (readable p).2 → e.conv.coarseOvl = false →
        ((s.chan n).ranging = .fine → convTrigger e.conv (coarseFs p) = false →
          v = BitVec.ofInt 24 e.conv.fine ∧ tag >>> 6 = 0 ∧ tag.getLsbD 5 = false ∧ (t.chan n).ranging = .fine ∧
          (t.chan n).lastGood.value = v) ∧
        ((s.chan n).ranging = .fine → convTrigger e.conv (coarseFs p) = true →
          v = BitVec.ofInt 24 e.conv.coarse ∧ tag >>> 6 = 1 ∧ tag.getLsbD 5 = true ∧ (t.chan n).ranging = .coarse) ∧
        ((s.chan n).ranging = .coarse → (s.chan n).low.all id = false →
          v = BitVec.ofInt 24 e.conv.coarse ∧ tag >>> 6 = 1 ∧ tag.getLsbD 5 = false ∧ (t.chan n).ranging = .coarse))) ∧
  (∀ (n : Fin 24) (p : BitVec 8) (s : State) (e : SampleObs) (k : Conv) (r : List Conv), SampleDue s n p e → s.mem.wf = true →
    isInput p = true → lookAhead p = true → cpaOf p ∈ [0, 1, 3, 4] → (s.chan n).buffer = k :: r → r.length = 3 →
    Fresh s n e k.instant → (s.chan n).ranging = .fine → convTrigger e.conv (coarseFs p) = true → k.coarseOvl = false →
    (readable p).1 ≤ k.coarse → k.coarse ≤ (readable p).2 →
    ∃ t v tag x, exec (.sampleReady n e) s = .next t ∧ Sampled s t n k.instant v tag ∧ v = BitVec.ofInt 24 (convMix k 1 x) ∧
      tag >>> 6 = 2 ∧ tag.getLsbD 5 = false ∧ (t.chan n).ranging = .toCoarse 2 ∧ (t.chan n).buffer = r ++ [e.conv]) ∧
  (∀ (n : Fin 24) (p : BitVec 8) (s : State) (e : SampleObs), SampleDue s n p e → s.mem.wf = true → isOutput p = true →
    let w := (s.chan n).readings.filter fun x => e.conv.instant.toNat ≤ x.1.toNat + periodOf p / 2 ∧
      x.1.toNat ≤ e.conv.instant.toNat + periodOf p / 2
    ∃ t v tag x, exec (.sampleReady n e) s = .next t ∧ Alters [.free, .chans, .mem, .streams] s t ∧
      Sampled s t n e.conv.instant v tag ∧ tag >>> 5 = 0 ∧
      (tag.getLsbD 0 = true ↔ (s.chan n).inControl = true ∨ (s.chan n).forced = true ∨ (s.chan n).comp = .substituted ∨
        (s.chan n).inTrim = true) ∧
      (staleAt (s.chan n) e.conv.instant = false → (s.chan n).disc.contains true = false → w ≠ [] → halted s 6 = false →
        capped (s.chan n) = false → tag.getLsbD 2 = false ∧ v = BitVec.ofInt 24 (freeRound (w.map (·.2)).sum w.length x)) ∧
      (w = [] → tag.getLsbD 2 = true ∧ v = (s.chan n).lastGood.value)) ∧
  (∀ (n : Fin 24) (s : State) (e : SampleObs), (s.chan n).profile ≠ none → isCjRef s n = true → Tier.measure.rank ≤ s.tiers.tier.rank →
    (∀ l, (s.chan n).lastInstant = some l → l.toNat < e.conv.instant.toNat) →
    e.conv.instant.toNat % 300000000 = (s.chan n).grid.getD 0 → e.conv.instant.toNat + 450003000 ≤ s.clock.counter.toNat →
    halted s 6 = false → (s.chan n).rekindle = none → (s.chan n).sensorOpen = false → e.excLimit = false →
    -50000 ≤ e.cj → e.cj ≤ 150000 →
    ∃ t, exec (.sampleReady n e) s = .next t ∧ Alters [.supply, .chans, .events] s t ∧ t.supply.cjValue = e.cj ∧
      t.supply.cjLost = false ∧ t.supply.cjStale = false ∧ (∀ m, m ≠ n → t.chan m = s.chan m))

/-- The BLANK inputs, the loss of the cold-junction reference and the switch of a custom curve. What is the model's choice in it, log entries 73 and 81 name. -/
def Obligations.BlanksReferenceLossAndCurveSwitch : Prop :=
  (∀ (k : Fin 4) (s : State), shellRuns s = true → s.supply.blank[k].1 = false →
    ∃ t, exec (.blankRise k) s = .next t ∧ Alters [.supply] s t ∧
      t.supply.blank[k] = (true, s.clock.age, s.supply.blank[k].2.2.1, s.supply.blank[k].2.2.2) ∧
      (s.supply.blank[k].2.2.1 = false → t.supply.blanks[k].head? = some (s.clock.counter, none) ∧
        ∀ (n : Fin 24) (i : Tick), blankOf s n = some k → s.clock.counter.toNat ≤ i.toNat →
          (∀ x ∈ (s.chan n).stale, x.1 ≠ 0 ∧ x.1 ≠ 3) → blanked t n i = true) ∧
      (∀ j, j ≠ k → t.supply.blank[j] = s.supply.blank[j] ∧ t.supply.blanks[j] = s.supply.blanks[j])) ∧
  (∀ (k : Fin 4) (s : State), shellRuns s = true → s.supply.blank[k].1 = true →
    ∃ t, exec (.blankFall k) s = .next t ∧ Alters [.supply] s t ∧
      t.supply.blank[k] = (false, s.supply.blank[k].2.1, s.supply.blank[k].2.2.1, s.clock.age) ∧
      (∀ a, s.supply.blanks[k] = [(a, none)] → t.supply.blanks[k] = [(a, some s.clock.counter)] ∧
        ∀ (n : Fin 24) (i : Tick), blankOf s n = some k → (∀ x ∈ (s.chan n).stale, x.1 ≠ 0 ∧ x.1 ≠ 3) →
          (blanked t n i = true ↔ a.toNat ≤ i.toNat ∧ i.toNat ≤ s.clock.counter.toNat)) ∧
      (∀ j, j ≠ k → t.supply.blank[j] = s.supply.blank[j] ∧ t.supply.blanks[j] = s.supply.blanks[j])) ∧
  (∀ (k : Fin 4) (s : State), shellRuns s = true → s.supply.blank[k].1 = true → s.supply.blank[k].2.2.1 = false →
    (since s s.supply.blank[k].2.1 < 30000000 → exec (.blankTooLong k) s = .next s) ∧
    (30000000 ≤ since s s.supply.blank[k].2.1 →
      ∃ t, exec (.blankTooLong k) s = .next t ∧ Alters [.supply, .events] s t ∧
        t.supply.blank[k] = (true, s.supply.blank[k].2.1, true, s.supply.blank[k].2.2.2) ∧
        (∀ a, s.supply.blanks[k] = [(a, none)] → t.supply.blanks[k] = [(a, some s.clock.counter)]) ∧
        (∀ (m : Nat) (n : Nat), blankmapOf s.straps.blankmap = some m → n < 24 → blankInput m n = some k →
          (∀ i < n, blankInput m i ≠ some k) → latched s 0x0C06 n k.val = false → Logs s t 0x0C06 n [BitVec.ofNat 8 k.val]) ∧
        (∀ j, j ≠ k → t.supply.blank[j] = s.supply.blank[j] ∧ t.supply.blanks[j] = s.supply.blanks[j]))) ∧
  (∀ (k : Fin 4) (s : State), shellRuns s = true → s.supply.blank[k].1 = false → s.supply.blank[k].2.2.1 = true →
    (since s s.supply.blank[k].2.2.2 < 589824 → exec (.blankIgnoreEnd k) s = .next s) ∧
    (589824 ≤ since s s.supply.blank[k].2.2.2 →
      ∃ t, exec (.blankIgnoreEnd k) s = .next t ∧ Alters [.supply, .events] s t ∧ t.supply.blank[k].1 = false ∧
        t.supply.blank[k].2.2.1 = false ∧ (∀ j, j ≠ k → t.supply.blank[j] = s.supply.blank[j] ∧ t.supply.blanks[j] = s.supply.blanks[j]))) ∧
  (∀ s : State, s.supply.cjLost = true → s.supply.cjStale = false →
    (since s s.supply.cjLostAt < 30000000000 → exec .cjReferenceLossTimeout s = .next s) ∧
    (30000000000 ≤ since s s.supply.cjLostAt →
      exec .cjReferenceLossTimeout s = .next { s with supply := { s.supply with cjStale := true } })) ∧
  (∀ (k : Fin 16) (s : State) (old new : List Byte), s.vault.look (.curve k) = .data new →
    s.straps.curveUse.filter (fun e => e.1 = k) = [(k, old, none)] →
    (atTrick s = false → exec (.curveSwitch k) s = .next s) ∧
    (atTrick s = true → ∃ t, exec (.curveSwitch k) s = .next t ∧ Alters [.straps] s t ∧ t.straps.codes = s.straps.codes ∧
      ∀ i : Tick, curveBlock t k.val i = if i.toNat < s.clock.counter.toNat then old else new))

/-- READBACK_RESULT and SETTLING_ALLOWANCE_END: compliance, substitution, clearing and readback disagreement of one output. What is the model's choice in it, log entries 74, 75 and 76 name. -/
def Obligations.ReadbackJudgesTheOutput : Prop :=
  (∀ (n : Fin 24) (s : State), shellRuns s = true → isOutChan (s.chan n) = true → (s.chan n).checks = false →
    (s.chan n).disc.contains true = false →
    (s.clock.age.toNat < (s.chan n).settleEnd.toNat → exec (.settlingAllowanceEnd n) s = .next s) ∧
    ((s.chan n).settleEnd.toNat ≤ s.clock.age.toNat → ∃ t, exec (.settlingAllowanceEnd n) s = .next t ∧ Alters [.chans, .seat] s t ∧
      (t.chan n).checks = true ∧ (t.chan n).target = (s.chan n).target ∧ (t.chan n).shortSince = some (s.chan n).settleEnd ∧
      (t.chan n).delSince = some (s.chan n).settleEnd ∧ (∀ m, m ≠ n → t.chan m = s.chan m))) ∧
  (∀ (n : Fin 24) (p : BitVec 8) (r : Readback) (s : State), ReadbackDue s n p →
    let total := delivered s n p r
    let tg := (s.chan n).target
    let gap := if 0 ≤ tg then tg - total else total - tg
    let share := (trimOf s.vault n).reading r.own - shareTarget s (s.chan n) ((trimOf s.vault n).reading r.own) total
    let c := s.chan n
    ∃ t, exec (.readbackResult n r) s = .next t ∧ Alters [.chans, .seat, .events] s t ∧ (∀ m, m ≠ n → t.chan m = s.chan m) ∧
      (t.chan n).readings.head? = some (s.clock.counter, total) ∧ (t.chan n).rbTotal = total ∧
      (checksRun s n p = false → t.events = s.events ∧ (t.chan n).comp = c.comp ∧ (t.chan n).forced = c.forced ∧
        (t.chan n).target = tg) ∧
      (∀ x, checksRun s n p = true → c.comp = .normal → r.atLimit = true → (cpaOf p = 13 → r.atCurrentLimit = true) → 500 < gap →
        (cpaOf p = 13 ∨ tg < 210000) → c.shortSince = some x →
        (since s x < 6000000 → t.events = s.events ∧ (t.chan n).comp = .normal) ∧
        (6000000 ≤ since s x → (t.chan n).comp = .compliance ∧ (t.chan n).frozen = true ∧ (t.chan n).target = tg ∧
          (t.chan n).pending = c.pending ∧
          (latched s 0x0D01 n.val 0 = false → Logs s t 0x0D01 n.val (valueBytes tg ++ valueBytes total)))) ∧
      (∀ x, checksRun s n p = true → cpaOf p ≠ 13 → c.comp = .compliance → 210000 ≤ tg → r.atLimit = true → total < 210000 →
        c.weakSince = some x → 6000000 ≤ since s x →
        (t.chan n).comp = .substituted ∧ (latched s 0x0D02 n.val 0 = false → Logs s t 0x0D02 n.val (valueBytes tg)) ∧
        (∀ k, c.inControl = true → c.keeper = some k → c.yielded = false → k.part ≠ .none → k.kind ≠ .voltage → k.safe = .alarm →
          (t.chan n).keeper = some { k with subst := true } ∧ (t.chan n).target = k.low) ∧
        (c.inControl = false → banked c = false → c.commanded = true → capped c = false →
          (t.chan n).target = (trimOf s.vault n).low)) ∧
      (∀ x, checksRun s n p = true → c.compRaised = true → c.comp = .compliance → r.atLimit = false → r.atCurrentLimit = false →
        (total - tg).natAbs ≤ 240 → (cpaOf p = 13 ∨ share.natAbs ≤ 240) → c.rangeSince = some x → 150000000 ≤ since s x →
        (t.chan n).comp = .normal ∧ (t.chan n).compRaised = false ∧ (t.chan n).frozen = false ∧ (t.chan n).forced = c.forced) ∧
      (∀ x, checksRun s n p = true → r.atLimit = false → r.atCurrentLimit = false → c.forced = false → c.inTrim = false →
        c.compRaised = false → (if cpaOf p = 13 then 1000 else 240) < (total - tg).natAbs → c.delSince = some x →
        (since s x < 15000000 → (t.chan n).delSince = some x ∧
          ((cpaOf p = 13 ∨ share.natAbs ≤ 240) → (t.chan n).forced = false ∧ t.events = s.events)) ∧
        (15000000 ≤ since s x →
          ((∀ q ∈ s.events.rates, q.code.toNat ≠ 0x0D03 ∨ q.src ≠ n.val) →
            Logs s t 0x0D03 n.val (beBytes 1 0 ++ valueBytes (total - tg))) ∧
          (c.inControl = true → (t.chan n).forced = false ∧ (t.chan n).target = tg ∧ (t.chan n).dac = c.dac) ∧
          (c.inControl = false → (t.chan n).forced = true ∧ (t.chan n).pending = [] ∧
            (partnerDrives s n = true → (t.chan n).drive = .out ∧ (t.chan n).stageOn = false) ∧
            (partnerDrives s n = false → banked c = false → c.commanded = true → capped c = false →
              (t.chan n).target = alarmValue s n)))))

/-- TRIM_POINT_READY, TRIM_STEP_TIMEOUT and TRIM_APPLY: the two-point trim between its commands. What is the model's choice in it, log entries 11, 78, 94 and 95 name. -/
def Obligations.TrimStepsWaitAndApply : Prop :=
  (∀ (n : Fin 24) (v : Int) (s : State) (o : Op), trimOn s n = some o → opOf s o.handle.toNat = some o → o.state = .running →
    (o.progress = 2 ∨ o.progress = 4) → halted s 3 = false → o.suspendPending = false →
    (s.clock.age.toNat < (s.chan n).settleEnd.toNat + 4000000 → exec (.trimPointReady n v) s = .next s) ∧
    ((s.chan n).settleEnd.toNat + 4000000 ≤ s.clock.age.toNat →
      ∃ t q, exec (.trimPointReady n v) s = .next t ∧ Alters [.engine, .events] s t ∧ opOf t o.handle.toNat = some q ∧
        q.state = .running ∧ q.progress = o.progress + 1 ∧ q.since = s.clock.age ∧ q.timing = true ∧
        (o.progress = 2 → q.r1 = (trimOf s.vault n).reading v ∧ q.r2 = o.r2) ∧
        (o.progress = 4 → q.r2 = (trimOf s.vault n).reading v ∧ q.r1 = o.r1) ∧
        Logs s t 0x0D05 n.val (beBytes 2 o.handle.toNat ++ beBytes 1 (if o.progress = 2 then 1 else 2) ++
          valueBytes ((trimOf s.vault n).reading v)))) ∧
  (∀ (h : BitVec 16) (s : State) (o : Op) (n : Fin 24), opOf s h.toNat = some o → o.opcode = 0x0D01 → o.object = .chan n →
    o.state = .running → o.reason = 3 → o.timing = true → halted s 3 = false → (s.engine.ops.map (·.handle)).Nodup →
    (s.engine.ops.filter fun x => !x.state.live).length < 64 →
    (since s o.since ≤ 180000000000 → exec (.trimStepTimeout h) s = .next s) ∧
    (180000000000 < since s o.since →
      ∃ t q, exec (.trimStepTimeout h) s = .next t ∧ Alters [.chans, .engine, .events] s t ∧ opOf t h.toNat = some q ∧ q.state = .failed ∧
        q.reason = 0x21 ∧ (t.chan n).inTrim = false ∧ (t.chan n).applied = o.before ∧ (∀ m, m ≠ n → t.chan m = s.chan m))) ∧
  (∀ (n : Fin 24) (s : State), (atTrick s = false ∨ sparseGet s.vault.trimOld n.val = none) → exec (.trimApply n) s = .next s) ∧
  (∀ (n : Fin 24) (s : State) (old new : List Byte), atTrick s = true → sparseGet s.vault.trimOld n.val = some old →
    s.vault.look (.trim n) = .data new →
    let w := Trim.ofBytes new
    ∃ t, exec (.trimApply n) s = .next t ∧ Alters [.chans, .vault] s t ∧ t.vault.recs = s.vault.recs ∧ trimOf t.vault n = w ∧
      (∀ m, m ≠ n → t.chan m = s.chan m ∧ trimOf t.vault m = trimOf s.vault m) ∧
      (∀ k, (s.chan n).keeper = some k → (t.chan n).keeper = some
        { k with low := w.low, high := w.high, lowCode := w.code w.low, highCode := w.code w.high, zeroCode := w.code 0 }) ∧
      ((s.chan n).inControl = false → banked (s.chan n) = false → (s.chan n).commanded = true → capped (s.chan n) = false →
        (s.chan n).forced = false → (s.chan n).comp ≠ .substituted → (s.chan n).drive ≠ .out →
        (t.chan n).dac = partOf (drivePart (s.chan n).drive) (w.code (s.chan n).applied) ∧ (t.chan n).target = (s.chan n).applied))

/-- STAT_READ, STAT_COUNT, EV_READ, Q_READ, OP_STATUS, WARD_READ and PHY_SNR: each accepted command answers its body and changes nothing else. What is the model's choice in it, log entries 66, 82, 83, 84 and 119 name. -/
def Obligations.CommandsThatReadAnswerWhatTheyRead : Prop :=
  (∀ (f : CmdFrame) (s : State), Accepted statReadCmd f s →
    ∃ t b, exec (.statRead f) s = .next t ∧ Replies [] s t f 0 0 b ∧ b.length = 64 ∧ fieldAt b 0 8 = s.clock.counter.toNat ∧
      byteAt b 8 = s.tiers.tier.rank * 32 ∧ byteAt b 11 = s.clock.epoch.toNat ∧ byteAt b 12 = s.supply.cause.toNat ∧
      fieldAt b 14 2 = (nodeNumber s).toNat ∧ fieldAt b 16 8 = s.dieId.toNat ∧ fieldAt b 24 8 = s.straps.digest.toNat ∧
      byteAt b 56 = (s.hand f.hand).state.num * 16 + f.hand.val ∧ fieldAt b 60 4 = s.engine.slots[keySlot f].session.toNat) ∧
  (∀ (f : CmdFrame) (s : State), Accepted statCountCmd f s →
    ∃ t b, exec (.statCount f) s = .next t ∧ Replies [] s t f 0 0 b ∧ b.length = 4 * bodyByte f 2 ∧
      ∀ i, i < bodyByte f 2 → fieldAt b (4 * i) 4 =
        (counterOf s (bodyByte f 0) (if bodyByte f 0 = 0x52 then bodyByte f 1 else 0) (bodyByte f (3 + i))).toNat) ∧
  (∀ (f : CmdFrame) (s : State), Accepted evReadCmd f s →
    let k := evWindow f
    let n := min (bodyByte f 1) (eventHead s k).2
    ∃ t b, exec (.evRead f) s = .next t ∧ Replies [] s t f 0 0 b ∧ eventHead t k = eventHead s k ∧ byteAt b 0 = n ∧
      b.length = 4 + 32 * n ∧
      ∀ i, i < n → (s.mem.poison = [] → slice b (4 + 32 * i) 32 =
        s.mem.readN (eventBase k + 32 * (((eventHead s k).1 + i) % eventCap k)) 32)) ∧
  (∀ (f : CmdFrame) (s : State), Accepted qReadCmd f s →
    let q := bodyField f 0 2
    ∃ t b, exec (.qRead f) s = .next t ∧ Replies [] s t f 0 0 b ∧ b.length = 16 ∧ 128 ≤ byteAt b 0 ∧
      fieldAt b 12 2 = (qSetOf s q).rate.toNat ∧ byteAt b 0 % 16 = (queueHand s q).getD 0 % 16 ∧
      (256 ≤ q → byteAt b 1 = (qSetOf s q).cls.toNat * 32 ∧
        fieldAt b 8 2 = (qFrames s q).length % 65536 ∧ fieldAt b 10 2 = cellsIn (qFrames s q) % 65536)) ∧
  (∀ (f : CmdFrame) (s : State), Accepted opStatusCmd f s →
    ∃ t o, exec (.opStatus f) s = .next t ∧ opOf s (bodyField f 0 2) = some o ∧ o.hand = f.hand ∧
      Replies [] s t f 0 0 (beBytes 2 o.handle.toNat ++ beBytes 1 o.state.num ++ [o.reason] ++ beBytes 2 o.opcode.toNat ++
        beBytes 2 o.progress.toNat)) ∧
  (∀ (f : CmdFrame) (s : State), Accepted wardReadCmd f s →
    ∃ t, exec (.wardRead f) s = .next t ∧ Replies [] s t f 0 0 (padTo 16 (wardEntry s.vault (bodyByte f 0)))) ∧
  (∀ (f : CmdFrame) (s : State), Accepted phySnrCmd f s →
    ∃ t b, exec (.phySnr f) s = .next t ∧ Replies [] s t f 0 0 b ∧ b.length = 486 ∧
      (∀ i, i < 486 → isPilot (i + 6) = true → byteAt b i = 255))

/-- EV_ACK, HAND_CLAIM, HAND_STATIONS, HAND_RESET, Q_SET, OP_SUSPEND, OP_RESUME and OP_CANCEL: what each accepted command does to its queue, hand or operation. What is the model's choice in it, log entries 61, 62, 83 and 89 name. -/
def Obligations.HandsQueuesAndOperationsObeyTheirCommands : Prop :=
  (∀ (f : CmdFrame) (s : State), Accepted evAckCmd f s →
    let k := evWindow f
    let n := bodyByte f 1
    let lost := if k < 16 then (s.hand f.hand).lost else s.queues.lost
    ∃ t, exec (.evAck f) s = .next t ∧ Replies [.hands, .queues, .mem] s t f 0 0 [] ∧ n ≤ (eventHead s k).2 ∧
      (lost = 0 → eventHead t k = (((eventHead s k).1 + n) % eventCap k, (eventHead s k).2 - n) ∧ t.mem = s.mem) ∧
      (lost ≠ 0 → eventHead t k = (((eventHead s k).1 + n) % eventCap k, (eventHead s k).2 - n + 1)) ∧
      (∀ j, j ≤ 16 → j ≠ k → eventHead t j = eventHead s j) ∧ (∀ q, q ≠ 32 + f.hand.val → qFrames t q = qFrames s q)) ∧
  (∀ (f : CmdFrame) (s : State), Accepted handClaimCmd f s →
    ∃ t, exec (.handClaim f) s = .next t ∧ Replies [.hands, .seat] s t f 0 0 [] ∧ (t.hand f.hand).master = some f.srcTag ∧
      (t.hand f.hand).observers = (s.hand f.hand).observers ∧ (∀ k, k ≠ f.hand → t.hand k = s.hand k)) ∧
  (∀ (f : CmdFrame) (s : State), Accepted handStationsCmd f s →
    ∃ t, exec (.handStations f) s = .next t ∧ Replies [.hands, .seat] s t f 0 0 [] ∧
      (t.hand f.hand).master = some (BitVec.ofNat 48 (bodyField f 0 6)) ∧ (t.hand f.hand).observers.length = bodyByte f 6 ∧
      (∀ i, i < bodyByte f 6 → (t.hand f.hand).observers[i]? = some (BitVec.ofNat 48 (bodyField f (8 + 6 * i) 6))) ∧
      (∀ k, k ≠ f.hand → t.hand k = s.hand k)) ∧
  (∀ (f : CmdFrame) (s : State), Accepted handResetCmd f s →
    let h : Fin 16 := Fin.ofNat 16 (bodyByte f 0)
    sessionOf s h = false →
    ∃ t, exec (.handReset f) s = .next t ∧
      Replies [.hands, .tables, .streams, .chans, .mem, .engine, .seat, .events] s t f 0 0 [] ∧
      (t.hand h).state = .resetting ∧ (t.hand h).master = (s.hand h).master ∧ (t.hand h).observers = (s.hand h).observers ∧
      t.streams = s.streams.filter (fun x => x.hand != h) ∧
      (∀ n : Fin 24, (t.chan n).pending = (s.chan n).pending.filter fun p => p.hand != h) ∧
      (∀ k, k ≠ h → (t.hand k).state = (s.hand k).state ∧ (t.hand k).master = (s.hand k).master ∧
        (t.hand k).evCount = (s.hand k).evCount)) ∧
  (∀ (f : CmdFrame) (s : State), Accepted qSetCmd f s →
    let q := bodyField f 0 2
    ∃ t, exec (.qSet f) s = .next t ∧ Replies [.queues] s t f 0 0 [] ∧ (qSetOf t q).cls.toNat = bodyByte f 2 / 32 ∧
      (qSetOf t q).rate.toNat = bodyField f 4 2 ∧ ((qSetOf s q).rate = 0 → (qSetOf t q).credit = 0) ∧
      (∀ p, p ≠ q → qSetOf t p = qSetOf s p) ∧ (∀ p, p ≠ 32 + f.hand.val → qFrames t p = qFrames s p)) ∧
  (∀ (f : CmdFrame) (s : State), Accepted opSuspendCmd f s →
    ∃ t o q, exec (.opSuspend f) s = .next t ∧ opOf s (bodyField f 0 2) = some o ∧ opOf t (bodyField f 0 2) = some q ∧ o.hand = f.hand ∧
      Replies [.engine, .events, .chans] s t f 0 0 [] ∧ q.progress = o.progress ∧
      ((o.state = .queued ∨ (o.reason = 3 ∧ trimChan o ≠ none)) → q.state = .suspended ∧ q.reason = 4) ∧
      (o.state = .running → trimChan o = none → q.state = .running ∧ q.suspendPending = !o.cancelPending)) ∧
  (∀ (f : CmdFrame) (s : State), Accepted opResumeCmd f s →
    ∃ t o q, exec (.opResume f) s = .next t ∧ opOf s (bodyField f 0 2) = some o ∧ opOf t (bodyField f 0 2) = some q ∧ o.hand = f.hand ∧
      Replies [.engine] s t f 0 0 [] ∧ q.progress = o.progress ∧ (o.state = .suspended → q.state = .queued) ∧
      (o.state = .running → q.state = .running ∧ q.suspendPending = false)) ∧
  (∀ (f : CmdFrame) (s : State), Accepted opCancelCmd f s → (s.engine.ops.map (·.handle)).Nodup →
    (s.engine.ops.filter fun x => !x.state.live).length < 64 →
    ∃ t o q, exec (.opCancel f) s = .next t ∧ opOf s (bodyField f 0 2) = some o ∧ opOf t (bodyField f 0 2) = some q ∧ o.hand = f.hand ∧
      Replies [.engine, .events, .chans, .mem, .seat, .tables] s t f 0 0 [] ∧
      (o.state = .running → trimChan o = none → q.state = .running ∧ q.cancelPending = true) ∧
      ((o.state ≠ .running ∨ trimChan o ≠ none) → (o.opcode ≠ 0x0705 ∨ o.holds = false) → q.state = .cancelled ∧ q.reason = 0x10))

/-- SUB_OPEN, SUB_CLOSE, OUT_SET and OUT_ALARMDIR: what each accepted command does to its stream or output. What is the model's choice in it, log entries 46, 62 and 84 name. -/
def Obligations.StreamsAndOutputsTakeTheirCommands : Prop :=
  (∀ (f : CmdFrame) (s : State), Accepted subOpenCmd f s → s.mem.wf = true → s.clock.counter.toNat < 2 ^ 63 → soStart f < 2 ^ 63 →
    let per := mapPeriod s (soChmap f) * soDiv f
    ∃ t sid x, exec (.subOpen f) s = .next t ∧ subId s f = some sid ∧ t.streams = s.streams ++ [x] ∧
      Replies [.streams, .chans, .mem, .tables] s t f 0 0 (beBytes 2 sid ++ zeros 6 ++ beBytes 8 x.first.toNat) ∧
      x.id.toNat = sid ∧ x.hand = f.hand ∧ x.period = per ∧ x.rows = [] ∧ x.closing = none ∧ x.seq = 0 ∧
      max (soStart f) (s.clock.counter.toNat + 589824) ≤ x.first.toNat ∧
      x.first.toNat < max (soStart f) (s.clock.counter.toNat + 589824) + per ∧
      ((x.first.toNat : Int) - (soPhase f : Int)) % (per : Int) = 0 ∧
      (∀ n : Fin 24, (soChmap f).testBit n.val = true → (t.chan n).grid = some (soPhase f % mapPeriod s (soChmap f))) ∧
      (∀ n : Fin 24, (soChmap f).testBit n.val = false → t.chan n = s.chan n) ∧
      seValid (streamEntry t sid) = true ∧ seOrigin (streamEntry t sid) = true ∧ entryByte (streamEntry t sid) 1 = f.hand.val ∧
      (∀ a, (a < 16 * sid ∨ 16 * sid + 16 ≤ a) → cellsRead t.mem.cells a = cellsRead s.mem.cells a)) ∧
  (∀ (f : CmdFrame) (s : State), Accepted subCloseCmd f s →
    ∃ t x y, exec (.subClose f) s = .next t ∧ streamOf s (bodyField f 0 2) = some x ∧ x.hand = f.hand ∧
      Replies [.queues, .hands, .streams, .chans, .events, .counters] s t f 0 0 [] ∧ streamOf t (bodyField f 0 2) = some y ∧
      y.closing = (match x.closing with | some e => some e | none => some s.clock.counter) ∧
      (∀ z ∈ s.streams, z.id ≠ x.id → z ∈ t.streams) ∧ t.mem = s.mem) ∧
  (∀ (f : CmdFrame) (s : State), Accepted outSetCmd f s → (s.chan (chanArg f)).restrap = false → osTick f < 2 ^ 64 →
    let n := chanArg f
    ∃ t, exec (.outSet f) s = .next t ∧ (∀ m, m ≠ n → t.chan m = s.chan m) ∧
      (s.clock.counter.toNat < osTick f →
        Replies [.chans, .seat] s t f 0 0 (beBytes 8 (osTick f) ++ beBytes 4 0) ∧ (t.chan n).target = (s.chan n).target ∧
        (t.chan n).applied = (s.chan n).applied ∧ (t.chan n).dac = (s.chan n).dac ∧
        (∃ v ∈ (t.chan n).pending, v.at_.toNat = osTick f ∧ v.value = osValue f ∧ v.hand = f.hand) ∧
        (∀ v ∈ (s.chan n).pending, v.at_.toNat ≠ osTick f → v ∈ (t.chan n).pending)) ∧
      (osTick f ≤ s.clock.counter.toNat →
        Replies [.chans, .seat, .events] s t f 0 (if osTick f = 0 then 0 else 1)
          (beBytes 8 s.clock.counter.toNat ++
            beBytes 4 (if osTick f = 0 then 0 else min (s.clock.counter.toNat - osTick f) 0xFFFFFFFF)) ∧
        (t.chan n).applied = osValue f ∧ (t.chan n).commanded = true ∧ (t.chan n).lastApply = some s.clock.counter)) ∧
  (∀ (f : CmdFrame) (s : State), Accepted outAlarmdirCmd f s →
    ∃ t, exec (.outAlarmdir f) s = .next t ∧ Replies [.chans, .seat] s t f 0 0 [] ∧
      t.chan (chanArg f) = { s.chan (chanArg f) with overrideNext := some (adDir (bodyByte f 1)) } ∧
      (∀ m, m ≠ chanArg f → t.chan m = s.chan m))

/-- TBL_SEARCH, TBL_NEXT, TBL_ADD, TBL_DEL, TBL_FLUSH_PORT and TBL_COMMIT: what each accepted command reads, stages, writes or starts. What is the model's choice in it, log entries 85, 86, 87 and 88 name. -/
def Obligations.TableCommandsSearchStageAndCommit : Prop :=
  (∀ (f : CmdFrame) (s : State), Accepted tblSearchCmd f s →
    ∃ t b, exec (.tblSearch f) s = .next t ∧ Replies [] s t f 0 0 b ∧
      ((tblCode f = 1 ∧ fieldAt (tblKey f) 6 2 = 0xFFFF) → b = commitStatus s f.hand) ∧
      (¬ (tblCode f = 1 ∧ fieldAt (tblKey f) 6 2 = 0xFFFF) →
        b = match searchEntry s f with | some e => [1] ++ zeros 7 ++ entryBytes e | none => zeros 24)) ∧
  (∀ (f : CmdFrame) (s : State), Accepted tblNextCmd f s →
    let l := entriesAfter s (tblCode f) (cursorPlace (tblCode f) (slice (cmdBody f) 0 8))
    let n := min (bodyByte f 8) l.length
    ∃ t b, exec (.tblNext f) s = .next t ∧ Replies [] s t f 0 0 b ∧ byteAt b 0 = n ∧ b.length = 16 + 16 * n ∧
      (byteAt b 1 = 1 ↔ l.length ≤ bodyByte f 8) ∧
      ∀ i, i < n → ∃ e, l[i]? = some e ∧ slice b (16 + 16 * i) 16 = entryBytes e.2) ∧
  (∀ (f : CmdFrame) (s : State), Accepted tblAddCmd f s → s.mem.wf = true →
    ∃ t, exec (.tblAdd f) s = .next t ∧ Replies [.tables, .mem, .counters, .events] s t f 0 0 [] ∧
      t.tables.prefixes = s.tables.prefixes ∧
      ((tblCode f = 1 ∨ tblCode f = 4) → t.mem = s.mem ∧ t.tables.policers = s.tables.policers ∧
        { hand := f.hand, table := tblCode f, key := stageKey (tblCode f) (addSid f) (addEntry f), entry := some (addEntry f) }
          ∈ t.tables.staged) ∧
      (tblCode f = 5 → t.mem = s.mem ∧ t.tables.staged = s.tables.staged ∧ poValid (policerAt t (addIndex f)) = true ∧
        poTokens (policerAt t (addIndex f)) = poBurst (addEntry f) ∧ poOwner (policerAt t (addIndex f)) = f.hand.val ∧
        (∀ i, i ≠ addIndex f → policerAt t i = policerAt s i)) ∧
      ((tblCode f = 2 ∨ tblCode f = 3) → t.tables.staged = s.tables.staged ∧ ∃ l, (let e := hashAt t (codePort (tblCode f)) l
        heValid e = true ∧ heStatic e = true ∧ heOwner e = f.hand.val ∧ heTag e = heTag (addEntry f)))) ∧
  (∀ (f : CmdFrame) (s : State), Accepted tblDelCmd f s →
    ∃ t, exec (.tblDel f) s = .next t ∧ Counted s t f ∧
      Alters [.free, .queues, .hands, .engine, .dbg, .tables, .mem] s t ∧ t.tables.prefixes = s.tables.prefixes ∧
      ((tblCode f = 1 ∨ tblCode f = 4) → Responds s t f 0 0 [] ∧ t.mem = s.mem ∧ t.tables.epoch = s.tables.epoch ∧
        { hand := f.hand, table := tblCode f, key := BitVec.ofNat 64 (beNat (tblKey f)), entry := none } ∈ t.tables.staged) ∧
      (tblCode f = 5 → poValid (policerAt t (fieldAt (tblKey f) 7 1)) = false) ∧
      ((tblCode f = 2 ∨ tblCode f = 3 ∨ tblCode f = 5) → t.tables.staged = s.tables.staged ∧ t.queues = s.queues ∧
        (s.tables.draining = none → t.tables.epoch = !s.tables.epoch ∧ t.tables.draining = some (.tblDel f, s.clock.age)))) ∧
  (∀ (f : CmdFrame) (s : State), Accepted tblFlushPortCmd f s → s.engine.ops.length ≤ 80 →
    ∃ t, exec (.tblFlushPort f) s = .next t ∧ Created [] s t f (.pipe (portOf (bodyByte f 0))) .queued) ∧
  (∀ (f : CmdFrame) (s : State), Accepted tblCommitCmd f s →
    let mine := s.tables.staged.filter fun c => c.hand == f.hand
    mine.length ≤ 4096 →
    ∃ t, exec (.tblCommit f) s = .next t ∧ Replies [.tables, .events] s t f 0 0 (beBytes 2 mine.length) ∧
      t.tables.staged = s.tables.staged.filter (fun c => c.hand != f.hand) ∧ t.tables.prefixes = s.tables.prefixes ∧
      t.tables.epoch = s.tables.epoch ∧ t.tables.commit.hand = f.hand ∧ t.tables.commit.prepared = false ∧
      t.tables.commit.apply.toNat = bodyField f 0 8 ∧
      (mine = [] → t.tables.commit.state = .done) ∧
      (mine ≠ [] → t.tables.commit.state = .preparing ∧ ∀ c, c ∈ t.tables.commit.batches.flatten ↔ c ∈ mine))

/-- CH_REKINDLE, NODE_RESET, PORT_RESET, PIPE_RESET, PHY_SOUND, PHY_MARGIN, TRIM_START, TRIM_POINT, MEM_REPAIR, MEM_SWEEP, TWIN_MIRROR and a first KEY_SET. What is the model's choice in it, log entries 12, 40, 91, 92, 93, 94, 95, 96 and 97 name. -/
def Obligations.ChipCommandsStartTheirWork : Prop :=
  (∀ (f : CmdFrame) (s : State), Accepted chRekindleCmd f s →
    let n := chanArg f
    ∃ t, exec (.chRekindle f) s = .next t ∧ Replies [.chans, .mem, .engine, .tables, .seat, .events] s t f 0 0 [] ∧
      ((s.chan n).rekindle ≠ none → t.chan n = s.chan n) ∧
      ((s.chan n).rekindle = none → (underRestrap s n || halted s 6) = true →
        t.chan n = { s.chan n with rekindleHeld := true } ∧ (∀ m, m ≠ n → t.chan m = s.chan m)) ∧
      ((s.chan n).rekindle = none → underRestrap s n = false → halted s 6 = false →
        (t.chan n).rekindle = some (s.clock.age + 6000000) ∧ (t.chan n).bankShell = true ∧ (t.chan n).pending = [] ∧
        (t.chan n).commanded = false ∧ (t.chan n).forced = false ∧ (t.chan n).override = none ∧ (t.chan n).comp = .normal ∧
        (t.chan n).latch = (s.chan n).latch ∧ (isOutChan (s.chan n) = true → (t.chan n).inControl = true) ∧
        (∀ m, m ≠ n → t.chan m = s.chan m))) ∧
  (∀ (f : CmdFrame) (s : State), Accepted nodeResetCmd f s →
    ∃ t, exec (.nodeReset f) s = .next t ∧ Replies [.engine] s t f 0 0 [] ∧ t.engine.nodeReset = true ∧ t.engine.ops = s.engine.ops) ∧
  (∀ (f : CmdFrame) (s : State), Accepted portResetCmd f s →
    let p := portOf (bodyByte f 0)
    ∃ t, exec (.portReset f) s = .next t ∧
      Replies [.portA, .portB, .chans, .mem, .engine, .tables, .seat, .events] s t f 0 0 [] ∧ t.port p.other = s.port p.other ∧
      ((s.port p).quietUntil = none → (t.port p).resetDue = true) ∧
      ((s.port p).resetDue = true → t.port p = s.port p)) ∧
  (∀ (f : CmdFrame) (s : State), Accepted pipeResetCmd f s →
    let p := portOf (bodyByte f 0)
    ∃ t, exec (.pipeReset f) s = .next t ∧ Replies [.chans, .mem, .engine, .tables, .seat, .events] s t f 0 0 [] ∧
      t.pipe p.other = s.pipe p.other ∧
      (t.pipe p).resetting = (if (s.pipe p).resetting = 0 then 1 else (s.pipe p).resetting)) ∧
  (∀ (f : CmdFrame) (s : State), Accepted phySoundCmd f s → s.engine.ops.length ≤ 80 →
    let p := portOf (bodyByte f 0)
    ∃ t, exec (.phySound f) s = .next t ∧
      (isSounding (s.port p) = false → Created [] s t f (.port p) .queued) ∧
      (isSounding (s.port p) = true → Created [.events] s t f (.port p) .running)) ∧
  (∀ (f : CmdFrame) (s : State), Accepted phyMarginCmd f s →
    let p := portOf (bodyByte f 0)
    ∃ t, exec (.phyMargin f) s = .next t ∧ Replies [.portA, .portB, .tables] s t f 0 0 [] ∧ (t.port p).margin.toNat = bodyByte f 1 ∧
      t.port p.other = s.port p.other ∧ ((s.port p).link ≠ .up → (t.port p).marginDue = true)) ∧
  (∀ (f : CmdFrame) (s : State), s.engine.ops.length ≤ 80 →
    (Accepted trimStartCmd f s →
      ∃ t, exec (.trimStart f) s = .next t ∧ Created [] s t f (.chan (chanArg f)) .queued) ∧
    (Accepted memRepairCmd f s → bodyByte f 4 = 0 → remapOf s.mem (bodyByte f 0) (bodyField f 2 2) = none →
      ∃ t, exec (.memRepair f) s = .next t ∧ Created [] s t f (.bank (Fin.ofNat 64 (bodyByte f 0))) .queued) ∧
    (Accepted memSweepCmd f s → ∃ t, exec (.memSweep f) s = .next t ∧ Created [] s t f .sweep .queued) ∧
    (Accepted twinMirrorCmd f s → ∃ t, exec (.twinMirror f) s = .next t ∧ Created [] s t f .seat .queued)) ∧
  (∀ (f : CmdFrame) (s : State), Accepted trimPointCmd f s → (s.engine.ops.map (·.handle)).Nodup →
    (s.engine.ops.filter fun x => !x.state.live).length < 64 →
    ∃ t o n q, exec (.trimPoint f) s = .next t ∧ opOf s (bodyField f 0 2) = some o ∧ trimChan o = some n ∧
      opOf t (bodyField f 0 2) = some q ∧ Replies [.chans, .engine, .mem, .tables, .seat, .events] s t f 0 0 [] ∧
      (∀ m, m ≠ n → t.chan m = s.chan m) ∧
      (bodyByte f 2 = 1 → q.m1 = signed 32 (bodyField f 4 4) ∧ q.progress = 4 ∧ q.state = .running ∧
        (t.chan n).inTrim = true ∧ (t.chan n).target = trimPoint (isVoltage (s.chan n)) 2) ∧
      (bodyByte f 2 = 2 → q.state = .running → q.m2 = signed 32 (bodyField f 4 4) ∧ q.progress = 7 ∧ q.reason = 3)) ∧
  (∀ (f : CmdFrame) (s : State), Accepted keySetCmd f s → firstInstall f (atExecution f s) = true → shortEnergy (atExecution f s) = none →
    ∃ t, exec (.keySet f) s = .next t ∧ Counted s t f ∧ Alters [.hands, .engine, .vault] s t ∧ t.engine.awaiting = s.engine.awaiting ∧
      t.vault.recs = s.vault.recs ∧ f.hand ∈ t.engine.writing ∧
      t.vault.pulses = s.vault.pulses ++ [{ key := .key (keyArg f), data := beBytes 16 (newKey s f), why := .install f }])

/-- The checks of every command row, and FIXED_RESPONDER: discards, duplicates, stale numbers, refusals and the answer below Full. What is the model's choice in it, log entries 44, 50, 67, 68 and 122 name. -/
def Obligations.ChecksDecideInOrderForEveryCommand : Prop :=
  (∀ r ∈ ([(Instr.statRead, statReadCmd), (Instr.statCount, statCountCmd), (Instr.evRead, evReadCmd), (Instr.evAck, evAckCmd),
      (Instr.handClaim, handClaimCmd), (Instr.handStations, handStationsCmd), (Instr.handReset, handResetCmd), (Instr.qRead, qReadCmd),
      (Instr.qSet, qSetCmd), (Instr.subOpen, subOpenCmd), (Instr.subClose, subCloseCmd), (Instr.outSet, outSetCmd),
      (Instr.outAlarmdir, outAlarmdirCmd), (Instr.tblSearch, tblSearchCmd), (Instr.tblNext, tblNextCmd), (Instr.tblAdd, tblAddCmd),
      (Instr.tblDel, tblDelCmd), (Instr.tblFlushPort, tblFlushPortCmd), (Instr.tblCommit, tblCommitCmd),
      (Instr.chRestrap, chRestrapCmd), (Instr.chRekindle, chRekindleCmd), (Instr.nodeReset, nodeResetCmd),
      (Instr.nodeRestrap, nodeRestrapCmd), (Instr.nodeAdopt, nodeAdoptCmd), (Instr.portReset, portResetCmd),
      (Instr.pipeReset, pipeResetCmd), (Instr.phySound, phySoundCmd), (Instr.phyMargin, phyMarginCmd), (Instr.phyMask, phyMaskCmd),
      (Instr.phySnr, phySnrCmd), (Instr.trimStart, trimStartCmd), (Instr.trimPoint, trimPointCmd), (Instr.trimCommit, trimCommitCmd),
      (Instr.curveLoad, curveLoadCmd), (Instr.memRepair, memRepairCmd), (Instr.memSweep, memSweepCmd), (Instr.twinMirror, twinMirrorCmd),
      (Instr.twinRelease, twinReleaseCmd), (Instr.wardPropose, wardProposeCmd), (Instr.wardCountersign, wardCountersignCmd),
      (Instr.wardSet, wardSetCmd), (Instr.wardRead, wardReadCmd), (Instr.keySet, keySetCmd), (Instr.dbgOpen, dbgOpenCmd),
      (Instr.opStatus, opStatusCmd), (Instr.opSuspend, opSuspendCmd), (Instr.opResume, opResumeCmd), (Instr.opCancel, opCancelCmd)] :
      List ((CmdFrame → Instr) × Cmd)), ∀ (f : CmdFrame) (s : State),
    (engineTakes s f = false → exec (r.1 f) s = .next s) ∧
    (engineTakes s f = true → opcodeOf f = r.2.op →
      (authenticate (takeInput s f) f = .bad →
        ∃ t, exec (r.1 f) s = .next t ∧ Alters [.hands, .engine, .events, .counters] s t ∧ t.engine.slots = s.engine.slots ∧
          counterOf t 0x60 0 0x40 = counterOf s 0x60 0 0x40 + 1) ∧
      (authenticate (takeInput s f) f = .unauth → opcodeOf f ≠ 0x0101 →
        ∃ t, exec (r.1 f) s = .next t ∧ Alters [.hands, .engine, .events, .counters] s t ∧ t.engine.slots = s.engine.slots ∧
          counterOf t 0x60 0 0x41 = counterOf s 0x60 0 0x41 + 1) ∧
      (authenticate (takeInput s f) f = .stale →
        ∃ t q, exec (r.1 f) s = .next t ∧ Alters [.free, .queues, .hands, .engine, .events, .counters] s t ∧
          t.engine.slots = s.engine.slots ∧ counterOf t 0x60 0 0x42 = counterOf s 0x60 0 0x42 + 1 ∧
          (q ∈ qFrames t (32 + f.hand.val) ∨ (32 + f.hand.val, q) ∈ t.queues.heldOut) ∧ q.hdr.dest = f.srcTag ∧
          q.payload = responsePayload s f 0x11 4 [] false) ∧
      (∀ w, authenticate (takeInput s f) f = .duplicate w →
        ∃ t, exec (r.1 f) s = .next t ∧ Alters [.free, .queues, .hands, .engine] s t ∧ t.engine.slots = s.engine.slots ∧
          Responds s t f (byteAt w.payload 6) (byteAt w.payload 7 ||| 8) (slice w.payload 8 (fieldAt w.payload 4 2))) ∧
      (∀ k, authenticate (takeInput s f) f = .ok → checksOf r.2 f (atExecution f s) = some k →
        ∃ t, exec (r.1 f) s = .next t ∧ Replies [] s t f k 0 []))) ∧
  (∀ (f : CmdFrame) (s : State), inService s = true → (s.pipe f.port).fixedBuf = some f →
    (∀ k, (s.pipe f.port).fixedAt = some k → since s k < 589824 → exec (.fixedResponder f) s = .next s) ∧
    ((∀ k, (s.pipe f.port).fixedAt = some k → 589824 ≤ since s k) →
      ∃ t q, exec (.fixedResponder f) s = .next t ∧ Alters [.free, .tables, .queues, .events, .counters] s t ∧
        (t.pipe f.port).fixedBuf = none ∧ (t.pipe f.port).fixedAt = some s.clock.age ∧ t.pipe f.port.other = s.pipe f.port.other ∧
        (q ∈ qFrames t 65 ∨ (65, q) ∈ t.queues.heldOut) ∧ q.hdr.dest = f.srcTag ∧ q.hdr.seq = f.seq ∧
        byteAt q.payload 7 = 4 ∧ byteAt q.payload 6 = (if opcodeOf f = 0x0101 then 0 else 0x10) ∧
        (opcodeOf f ≠ 0x0101 → fieldAt q.payload 4 2 = 0 ∧ counterOf t 0x60 0 0x43 = counterOf s 0x60 0 0x43 + 1))) ∧
  (∀ (f : CmdFrame) (s : State), (inService s = false ∨ ((s.pipe f.port).fixedBuf ≠ some f ∧ engineMode s ≠ .fixed)) →
    exec (.fixedResponder f) s = .next s)

/-- The countersigned commands await with their digest; WARD_PROPOSE records a proposal; WARD_COUNTERSIGN runs the awaiting command. What is the model's choice in it, log entries 70, 97 and 98 name. -/
def Obligations.CountersignedCommandsAwaitAndRun : Prop :=
  (∀ r ∈ ([(Instr.chRestrap, chRestrapCmd), (Instr.nodeRestrap, nodeRestrapCmd), (Instr.nodeAdopt, nodeAdoptCmd),
      (Instr.phyMask, phyMaskCmd), (Instr.trimCommit, trimCommitCmd), (Instr.curveLoad, curveLoadCmd), (Instr.memRepair, memRepairCmd),
      (Instr.twinRelease, twinReleaseCmd), (Instr.wardSet, wardSetCmd), (Instr.keySet, keySetCmd), (Instr.dbgOpen, dbgOpenCmd)] :
      List ((CmdFrame → Instr) × Cmd)), ∀ (f : CmdFrame) (s : State), Accepted r.2 f s → r.2.cs f (atExecution f s) = true →
    let x := r.2.x f s
    let d := changeDigest s f x
    (awaitBusy (atExecution f s) f d = false →
      ∃ t, exec (r.1 f) s = .next t ∧ Replies [.engine] s t f 3 0 (awaitBody s f x) ∧ Awaits t f d ∧ t.engine.ops = s.engine.ops ∧
        (underWarden f = true → ∃ p ∈ t.engine.proposals, p.warden = wardenOf f ∧ p.digest = d ∧ p.at_ = s.clock.counter)) ∧
    (awaitBusy (atExecution f s) f d = true → ∃ t, exec (r.1 f) s = .next t ∧ Replies [] s t f 0x18 0 [])) ∧
  (∀ (f : CmdFrame) (s : State), Accepted wardProposeCmd f s →
    ∃ t, exec (.wardPropose f) s = .next t ∧ Replies [.engine] s t f 0 0 [] ∧ t.engine.awaiting = s.engine.awaiting ∧
      (∃ p ∈ t.engine.proposals, p.warden = wardenOf f ∧ p.digest = digestArg f ∧ p.at_ = s.clock.counter) ∧
      t.engine.proposals.length ≤ 8) ∧
  (∀ (f : CmdFrame) (s : State), Accepted wardCountersignCmd f s →
    ∃ a t, awaited s (digestArg f) = some a ∧ exec (.wardCountersign f) s = .next t ∧ Responds s t f 0 0 [] ∧
      Alters [.free, .straps, .queues, .hands, .chans, .engine, .vault, .seat, .events, .dbg] s t ∧
      (∃ p ∈ s.engine.proposals, p.digest = digestArg f ∧ p.warden ≠ wardenOf f) ∧
      (∀ b ∈ t.engine.awaiting, b.f ≠ a.f ∧ b ∈ s.engine.awaiting) ∧
      (let u := (atExecution f s).onEngine fun e => { e with awaiting := e.awaiting.filter fun x => x.f != a.f }
       (∀ c ∈ countersigned, ∀ k, opcodeOf a.f = c.op → c.own a.f u = some k →
         Responds s t a.f k 2 [] ∧ t.vault = s.vault ∧ t.straps = s.straps ∧ t.seat = s.seat ∧ t.chans = s.chans) ∧
       (opcodeOf a.f = 0x1103 → wardSetCmd.own a.f u = none → shortEnergy u = none →
         t.vault.pulses = s.vault.pulses ++ [{ key := .ward (wardHand a.f), data := wardArg a.f, why := .final a.f }] ∧
           a.f.hand ∈ t.engine.writing) ∧
       (opcodeOf a.f = 0x1201 → keySetCmd.own a.f u = none → shortEnergy u = none → firstInstall a.f u = false →
         t.vault.pulses = s.vault.pulses ++ [{ key := .key (keyArg a.f), data := beBytes 16 (newKey s a.f), why := .final a.f }]) ∧
       (opcodeOf a.f = 0x0903 → nodeAdoptCmd.own a.f u = none → shortEnergy u = none →
         t.vault.pulses = s.vault.pulses ++ [{ key := .protection, data := adoptData a.f s, why := .final a.f }]) ∧
       (opcodeOf a.f = 0x0C03 → phyMaskCmd.own a.f u = none → shortEnergy u = none →
         t.vault.pulses = s.vault.pulses ++ [{ key := .mask, data := cmdBody a.f, why := .final a.f }]) ∧
       ((opcodeOf a.f = 0x0801 ∨ opcodeOf a.f = 0x0902) → restrapEnergy u = none →
         (opcodeOf a.f = 0x0801 → chRestrapCmd.own a.f u = none) → (opcodeOf a.f = 0x0902 → nodeRestrapCmd.own a.f u = none) →
         (s.straps.reread = none → ∃ q, t.straps.reread = some q ∧ q.f = a.f ∧ q.at_ = s.clock.age) ∧
         (s.straps.reread ≠ none → t.straps.reread = s.straps.reread ∧ t.straps.rereadQueue = s.straps.rereadQueue ++ [a.f])) ∧
       (opcodeOf a.f = 0x0D03 → trimCommitCmd.own a.f u = none →
         ∃ o, opOf t (bodyField a.f 0 2) = some o ∧ o.state = .queued ∧ o.gated = true ∧ o.commit = some a.f) ∧
       ((opcodeOf a.f = 0x0E01 ∨ (opcodeOf a.f = 0x0F01 ∧ repairNothing u a.f = false)) → s.engine.ops.length ≤ 80 →
         opLimit u a.f.hand = none → (opcodeOf a.f = 0x0E01 → curveLoadCmd.own a.f u = none) →
         ∃ o, opOf t o.handle.toNat = some o ∧ o.state = .queued ∧ o.hand = a.f.hand ∧ o.f = a.f ∧
           Responds s t a.f 1 2 (beBytes 2 o.handle.toNat)) ∧
       (opcodeOf a.f = 0x1002 → twinReleaseCmd.own a.f u = none → t.seat.release = some a.f) ∧
       (opcodeOf a.f = 0x1301 → dbgOpenCmd.own a.f u = none →
         t.dbg.session = some (BitVec.ofNat 16 (bodyField a.f 0 2), BitVec.ofNat 8 (bodyByte a.f 2), BitVec.ofNat 16 (bodyField a.f 6 2),
           a.f.hand, s.clock.age + BitVec.ofNat 64 (bodyField a.f 4 2 * 2 ^ 32)) ∧ Responds s t a.f 0 2 [])))

/-- VAULT_WRITE_END, COUNTERSIGN_EXPIRY, PROPOSAL_LAPSE, COMMISSION_CHANGE, VAULT_CLAIM and WARD_LOCK_CHANGE. What is the model's choice in it, log entries 79, 80, 93 and 97 name. -/
def Obligations.VaultWritesProposalsAndTheClaim : Prop :=
  (∀ (good : Bool) (s : State), (s.vault.pulses = [] ∨ (s.supply.good.contains .van = false ∧ s.supply.kindle ≠ .ember)) →
    exec (.vaultWriteEnd good) s = .next s) ∧
  (∀ (s : State) (p : Pulse) (rest : List Pulse), s.vault.pulses = p :: rest →
    (s.supply.good.contains .van = true ∨ s.supply.kindle = .ember) →
    ∃ t, exec (.vaultWriteEnd true) s = .next t ∧ t.vault.pulses = rest ∧ t.vault.look p.key = .data p.data ∧
      (∀ k, k ≠ p.key → t.vault.look k = s.vault.look k) ∧ t.vault.wardLock = s.vault.wardLock ∧
      (∀ f, p.why = .final f → f.hand ∉ t.engine.writing ∧ (inService s = true → Responds s t f 0 2 [])) ∧
      (∀ f k, p.why = .final f → p.key = .key k → t.engine.slots[k].lastSeq = 0 ∧ t.engine.slots[k].lastResp = none ∧
        t.engine.slots[k].session ≠ s.engine.slots[k].session ∧ (∀ a ∈ t.engine.awaiting, keyId a.f ≠ k.val)) ∧
      (∀ f, p.why = .final f → p.key = .protection → opcodeOf f = 0x0903 → t.tiers.stranger = false ∧
        ∃ e ∈ t.events.merge, e.code = 0x1005)) ∧
  (∀ (s : State) (p : Pulse) (rest : List Pulse), s.vault.pulses = p :: rest →
    (s.supply.good.contains .van = true ∨ s.supply.kindle = .ember) →
    ∃ t, exec (.vaultWriteEnd false) s = .next t ∧ t.vault.recs = s.vault.recs ∧
      Alters [.free, .queues, .engine, .vault, .events, .dbg] s t ∧
      (∀ f, p.why = .final f → t.vault.pulses = rest ∧ f.hand ∉ t.engine.writing ∧ (inService s = true → Responds s t f 0x28 2 [])) ∧
      (∀ h, p.why = .curve h → shellRuns s = true → t.vault.pulses = p :: rest)) ∧
  (∀ (h : Fin 16) (s : State) (a : Await), s.engine.awaiting.find? (fun a => a.f.hand == h) = some a →
    (s.clock.counter.toNat ≤ a.at_.toNat + 15000000000 → exec (.countersignExpiry h) s = .next s) ∧
    (a.at_.toNat + 15000000000 < s.clock.counter.toNat → halted s 3 = false →
      ∃ t, exec (.countersignExpiry h) s = .next t ∧ Alters [.free, .queues, .engine, .events, .dbg] s t ∧ Responds s t a.f 0x24 2 [] ∧
        (∀ b, b ∈ t.engine.awaiting ↔ b ∈ s.engine.awaiting ∧ b.f.hand ≠ h) ∧ t.engine.ops = s.engine.ops)) ∧
  (∀ s : State, ∃ t, exec .proposalLapse s = .next t ∧ Alters [.engine] s t ∧ t.engine.awaiting = s.engine.awaiting ∧
    ∀ p, p ∈ t.engine.proposals ↔ p ∈ s.engine.proposals ∧ s.clock.counter.toNat ≤ p.at_.toNat + 15000000000) ∧
  (∀ (b : Bool) (s : State), exec (.commissionChange b) s = .next { s with vault := { s.vault with commission := b } }) ∧
  (∀ s : State, (vaultClaimed s.vault = true ∨ shellRuns s = false ∨
      (wardenKeys s ≠ 4 ∧ (atTrick s = false ∨ s.vault.commission = true ∨ wardensCounted s < 2))) → exec .vaultClaim s = .next s) ∧
  (∀ s : State, vaultClaimed s.vault = false → shellRuns s = true → s.straps.resolved = true → energyOk s 15 = true →
    (wardenKeys s = 4 ∨ (atTrick s = true ∧ s.vault.commission = false ∧ 2 ≤ wardensCounted s)) →
    ∃ t, exec .vaultClaim s = .next t ∧ Alters [.vault, .events] s t ∧ t.vault.recs = s.vault.recs ∧ vaultClaimed t.vault = true ∧
      t.vault.pulses = s.vault.pulses ++ [{ key := .protection, data := protectionBytes true s.straps.digest none, why := .claim }]) ∧
  (∀ s : State, exec (.wardLockChange false) s = .next { s with vault := { s.vault with wardLock := false } }) ∧
  (∀ s : State, shellRuns s = true →
    ∃ t, exec (.wardLockChange true) s = .next t ∧ Alters [.free, .queues, .engine, .vault, .events, .dbg] s t ∧
      t.vault = { s.vault with wardLock := true } ∧ t.engine.awaiting = [] ∧ t.engine.proposals = [] ∧ t.dbg.session = none ∧
      t.engine.ops = s.engine.ops ∧ ∀ a ∈ s.engine.awaiting, Responds s t a.f 0x23 2 [])

/-- The seat rows: frames, training, heartbeat, pairing window, lead, shunt catch, takeover, handback, resend, seat record and release. What is the model's choice in it, log entries 99, 100, 101, 103, 104, 105 and 106 name. -/
def Obligations.SeatFollowsItsTables : Prop :=
  (∀ s : State, (isTwin s = false ∨ atSymbol s = false ∨ (s.supply.kindle ≠ .joining ∧ s.supply.kindle ≠ .up)) →
    exec .seatFrameSend s = .next s) ∧
  (∀ s : State, isTwin s = true → atSymbol s = true → (s.supply.kindle = .joining ∨ s.supply.kindle = .up) → s.seat.state ≠ .mirroring →
    ∃ t, exec .seatFrameSend s = .next t ∧ Alters [.seat] s t ∧ t.seat.state = s.seat.state ∧ t.seat.seq = s.seat.seq + 1 ∧
      t.seat.bad = min 16 (s.seat.bad + 1) ∧ frameBad (seatScramble t.seat.frame) = false ∧
      fieldAt t.seat.frame 0 4 = 0x3A5C96F1 ∧ byteAt (seatScramble t.seat.frame) 4 = 16 + s.seat.state.code ∧
      byteAt (seatScramble t.seat.frame) 5 = s.seat.seq.toNat ∧ fieldAt (seatScramble t.seat.frame) 6 8 = s.dieId.toNat ∧
      fieldAt (seatScramble t.seat.frame) 14 8 = s.straps.digest.toNat ∧
      fieldAt (seatScramble t.seat.frame) 24 8 = s.clock.counter.toNat ∧ byteAt (seatScramble t.seat.frame) 32 = s.clock.epoch.toNat ∧
      byteAt (seatScramble t.seat.frame) 46 = s.seat.mmAck.toNat) ∧
  (∀ (bytes : List Byte) (s : State), (isTwin s = false ∨ frameBad (seatScramble bytes) = true) →
    exec (.seatFrameReceive bytes) s = .next s) ∧
  (∀ (bytes : List Byte) (s : State), isTwin s = true → s.supply.kindle = .up → frameBad (seatScramble bytes) = false →
    s.seat.locked = false → s.seat.good < 63 → exec (.seatFrameReceive bytes) s = .next
      { s with seat := { s.seat with partner := some (readFrame (seatScramble bytes)), bad := 0, good := s.seat.good + 1 } }) ∧
  (∀ (bytes : List Byte) (s : State), isTwin s = true → s.supply.kindle = .up → frameBad (seatScramble bytes) = false →
    byteAt (seatScramble bytes) 240 = 0 → s.seat.locked = false → s.seat.good = 63 → s.seat.trained = false →
    s.seat.windowOver = false → s.seat.state = .unpaired → s.tiers.stranger = false →
    let p := readFrame (seatScramble bytes)
    ∃ t, exec (.seatFrameReceive bytes) s = .next t ∧ Alters [.tiers, .chans, .seat, .events] s t ∧ t.seat.locked = true ∧
      t.seat.trained = true ∧ t.seat.partner = some p ∧
      (seatPartner s.vault = some p.die → t.tiers.stranger = false ∧
        (p.flags.toNat.testBit 7 = true → p.flags.toNat.testBit 5 = false → t.seat.state = .seated) ∧
        (p.flags.toNat.testBit 7 = false → t.seat.state = .alone)) ∧
      (seatPartner s.vault ≠ some p.die → t.seat.state = .stranger ∧ t.tiers.stranger = true)) ∧
  (∀ (bytes : List Byte) (s : State), isTwin s = true → s.supply.kindle = .up → frameBad (seatScramble bytes) = false →
    byteAt (seatScramble bytes) 240 = 0 → s.seat.locked = true → s.seat.state = .seated →
    (readFrame (seatScramble bytes)).flags.toNat.testBit 5 = true →
    ∃ t, exec (.seatFrameReceive bytes) s = .next t ∧ Alters [.chans, .seat, .events] s t ∧ t.seat.state = .alone ∧ t.seat.bad = 0 ∧
      ∀ n : Fin 24, (t.chan n).drive = if isCurrent (s.chan n) then .carrying else (s.chan n).drive) ∧
  (∀ s : State, (isTwin s = false ∨ s.seat.locked = false ∨ s.seat.bad < 16) → exec .heartbeatLoss s = .next s) ∧
  (∀ (s : State) (p : Partner), isTwin s = true → shellRuns s = true → s.seat.locked = true → 16 ≤ s.seat.bad → s.seat.state = .seated →
    s.seat.release = none → (∀ x ∈ s.engine.ops, x.opcode ≠ 0x1001) → s.seat.partner = some p →
    ∃ t, exec .heartbeatLoss s = .next t ∧ Alters [.chans, .seat, .events] s t ∧ t.seat.state = .alone ∧ t.seat.locked = false ∧
      t.seat.good = 0 ∧ (∀ n : Fin 24, (t.chan n).drive = if isCurrent (s.chan n) then .carrying else (s.chan n).drive) ∧
      (p.flags.toNat.testBit 4 = false → latched s 0x1102 0x22 0 = false →
        Logs s t 0x1102 0x22 (beBytes 1 (if p.flags.toNat.testBit 3 then Tier.banked.rank else p.tier.toNat))) ∧
      (p.flags.toNat.testBit 4 = true → ∀ e ∈ t.events.merge, e.code = 0x1102 → e ∈ s.events.merge)) ∧
  (∀ s : State, (isTwin s = false ∨ s.seat.locked = true ∨ since s s.seat.windowAt < 3000000000) →
    exec .pairingWindowEnd s = .next s) ∧
  (∀ s : State, isTwin s = true → s.supply.kindle = .up → s.seat.state = .unpaired → s.seat.windowOver = false → s.seat.locked = false →
    3000000000 ≤ since s s.seat.windowAt →
    ∃ t, exec .pairingWindowEnd s = .next t ∧ Alters [.chans, .seat, .events] s t ∧ t.seat.windowOver = true ∧
      (s.tiers.stranger = true → t = { s with seat := { s.seat with windowOver := true } }) ∧
      (s.tiers.stranger = false → t.seat.state = .alone ∧ (latched s 0x1103 0x22 0 = false → Logs s t 0x1103 0x22 []))) ∧
  (∀ s : State, (isTwin s = false ∨ atTrick s = false ∨ s.seat.lead = leadWanted s ∨ inHandback s = true ∨ shownLead s ≠ leadWanted s) →
    exec .leadChange s = .next s) ∧
  (∀ s : State, isTwin s = true → atTrick s = true → s.seat.lead ≠ leadWanted s → shownLead s = leadWanted s → inHandback s = false →
    s.seat.state = .seated → (leadWanted s = true → partnerFlag s 6 = false) →
    ∃ t, exec .leadChange s = .next t ∧ Alters [.chans, .seat] s t ∧ t.seat = { s.seat with lead := leadWanted s } ∧
      ∀ n : Fin 24, (t.chan n).caught = false ∧
        ((isOutChan (s.chan n) = false ∨ isCurrent (s.chan n) = true) → t.chan n = { s.chan n with caught := false }) ∧
        (isOutChan (s.chan n) = true → isCurrent (s.chan n) = false → (s.chan n).forced = false →
          (t.chan n).drive = if leadWanted s then .carrying else .out)) ∧
  (∀ (n : Fin 24) (s : State), (isTwin s = false ∨ (s.chan n).active = true ∨ ∀ p, (s.chan n).profile = some p → 2 < cpaOf p) →
    exec (.shuntCatch n) s = .next s) ∧
  (∀ (n : Fin 24) (p : BitVec 8) (s : State), isTwin s = true → shellRuns s = true → (s.chan n).profile = some p → cpaOf p ≤ 2 →
    (s.chan n).active = false →
    ∃ t, exec (.shuntCatch n) s = .next t ∧ Alters [.chans] s t ∧ (∀ m, m ≠ n → t.chan m = s.chan m) ∧ (t.chan n).active = true ∧
      (t.chan n).caught = true ∧ (t.chan n).roleStep = none ∧
      (1, s.clock.counter - 1500, some s.clock.counter) ∈ (t.chan n).stale) ∧
  (∀ (n : Fin 24) (s : State), (isTwin s = false ∨ shellRuns s = false ∨ (s.seat.state ≠ .seated ∧ s.seat.state ≠ .alone) ∨
      (s.chan n).forced = true ∨ (s.chan n).drive = .carrying ∨
      ((s.chan n).drive = .sharing ∧ ((s.chan n).pathBad = true ∨ (s.chan n).atLimit = true))) →
    exec (.takeoverTrip n) s = .next s) ∧
  (∀ (n : Fin 24) (s : State), isTwin s = true → shellRuns s = true → (s.seat.state = .seated ∨ s.seat.state = .alone) →
    isOutChan (s.chan n) = true → (s.chan n).forced = false →
    (∀ x, sparseGet s.seat.disarmed n.val = some x → x.toNat ≤ s.clock.age.toNat) →
    ((s.chan n).drive = .out ∨ ((s.chan n).drive = .sharing ∧ (s.chan n).pathBad = false ∧ (s.chan n).atLimit = false)) →
    ∃ t, exec (.takeoverTrip n) s = .next t ∧ Alters [.chans, .events] s t ∧ (∀ m, m ≠ n → t.chan m = s.chan m) ∧
      (t.chan n).drive = .carrying ∧
      ((s.chan n).inControl = false → (t.chan n).stageOn = true ∧ (t.chan n).dac = (trimOf s.vault n).code (s.chan n).target) ∧
      ((∀ q ∈ s.events.rates, q.code.toNat ≠ 0x1105 ∨ q.obj ≠ n.val) → Logs s t 0x1105 0x22 (beBytes 1 n.val))) ∧
  (∀ s : State, (isTwin s = false ∨ s.seat.state ≠ .seated ∨ s.seat.locked = false) → exec .handback s = .next s) ∧
  (∀ s : State, isTwin s = true → s.seat.state = .seated → s.seat.locked = true → partnerState s = some 4 → shellRuns s = true →
    ∃ t, exec .handback s = .next t ∧ Alters [.chans, .seat] s t ∧ t.seat = { s.seat with handback := t.seat.handback } ∧
      ∀ n : Fin 24,
        (sparseGet s.seat.handback n.val = none → isCurrent (s.chan n) = false → t.chan n = s.chan n) ∧
        (sparseGet s.seat.handback n.val = none → atTrick s = false → t.chan n = s.chan n) ∧
        (sparseGet s.seat.handback n.val = none → atTrick s = true → isCurrent (s.chan n) = true → (s.chan n).forced = false →
          ((s.chan n).drive = .out → (t.chan n).drive = .sharing ∧ (t.chan n).rampFrom = 0 ∧ (t.chan n).rampAt = s.clock.age) ∧
          ((s.chan n).drive = .carrying → partnerCarries s n = true → (t.chan n).drive = .sharing) ∧
          ((s.chan n).drive = .carrying → partnerCarries s n = false → t.chan n = s.chan n) ∧
          ((s.chan n).drive = .sharing → t.chan n = s.chan n)) ∧
        (∀ x, sparseGet s.seat.handback n.val = some (some x) → atTrick s = false →
          (since s x < 589824 → t.chan n = s.chan n) ∧ (589824 ≤ since s x → (t.chan n).drive = .sharing))) ∧
  (∀ s : State, (isTwin s = false ∨ s.seat.locked = false) → exec .mirrorResend s = .next s) ∧
  (∀ s : State, isTwin s = true → s.seat.locked = true → (∀ x ∈ s.engine.ops, x.opcode ≠ 0x1001) →
    ∃ t, exec .mirrorResend s = .next t ∧ t = { s with seat := { s.seat with out := t.seat.out } } ∧
      t.seat.out.map (fun m => (m.kind, m.seq, m.body)) = s.seat.out.map (fun m => (m.kind, m.seq, m.body)) ∧
      (∀ m ∈ t.seat.out, ∀ x, m.sent = some x → s.clock.line.toNat < x.toNat + 36864) ∧
      ((∀ m ∈ s.seat.out, ∀ x, m.sent = some x → s.clock.line.toNat < x.toNat + 36864) → t = s)) ∧
  (∀ s : State, (s.seat.rewriteDue = false ∨ s.seat.state ≠ .alone ∨ shortEnergy s ≠ none) → exec .seatRecordRewrite s = .next s) ∧
  (∀ (s : State) (p : Partner), s.seat.rewriteDue = true → s.seat.state = .alone → s.seat.partner = some p → shortEnergy s = none →
    vaultFull s .protection = false → (∀ x ∈ s.vault.pulses, x.why ≠ .seatRecord) →
    exec .seatRecordRewrite s = .next { s with vault := { s.vault with pulses := s.vault.pulses ++ [{
      key := .protection, data := protectionBytes (vaultClaimed s.vault) ((storedDigest s.vault).getD s.straps.digest) (some p.die),
      why := .seatRecord }] } }) ∧
  (∀ s : State, (s.seat.release = none ∨ s.seat.state ≠ .seated ∨ partnerState s ≠ some 5) → exec .releaseComplete s = .next s) ∧
  (∀ (s : State) (f : CmdFrame), s.seat.release = some f → s.seat.state = .seated → partnerState s = some 5 → inService s = true →
    ∃ t, exec .releaseComplete s = .next t ∧ Alters [.free, .queues, .chans, .engine, .seat, .events, .dbg] s t ∧
      t.seat.state = .released ∧ t.seat.release = none ∧ t.seat.lead = false ∧ t.engine.ops = s.engine.ops ∧ Responds s t f 0 2 [] ∧
      ∀ n : Fin 24, (t.chan n).drive = .out ∧ (t.chan n).active = false ∧ (t.chan n).roleStep = none)

/-- The TAP rows: reset, boundary scan, identification, DSTATUS, bypass, DBRK and DMEM reads and writes. What is the model's choice in it, log entries 107, 108, 111, 112 and 114 name. -/
def Obligations.DebugPortRegistersFollowTheirTables : Prop :=
  (∀ s : State, tapWorks s = false → ∀ c ∈ [Instr.tapReset, .clamp, .highz], exec c s = .next s) ∧
  (∀ (x y : BitVec 17) (r : BitVec 104) (b : BitVec 168) (i : Byte) (e : Ecc) (s : State), tapWorks s = false →
    ∀ c ∈ [Instr.extest x y, .samplePreload x y, .tapRegisterWrite i b, .dbrk b, .dmemRead r e, .dmemWrite r], exec c s = .next s) ∧
  (∀ (x y : BitVec 17) (s : State), tapWorks s = true →
    exec .tapReset s = .next { s with dbg := { s.dbg with ir := 0x02 } } ∧
    exec (.extest x y) s = .next { s with dbg := { s.dbg with ir := 0x00, dr := x.setWidth 168, boundary := y } } ∧
    exec (.samplePreload x y) s = .next { s with dbg := { s.dbg with ir := 0x01, dr := x.setWidth 168, boundary := y } } ∧
    exec .clamp s = .next { s with dbg := { s.dbg with ir := 0x03, dr := 0 } } ∧
    exec .highz s = .next { s with dbg := { s.dbg with ir := 0x04, dr := 0 } }) ∧
  (∀ (b : BitVec 168) (s : State), tapWorks s = true →
    exec (.tapRegisterWrite 0x02 b) s = .next { s with dbg := { s.dbg with ir := 0x02, dr := 0x26024347 } } ∧
    (∀ i : Byte, i ∉ [0x00, 0x01, 0x02, 0x03, 0x04, 0x10, 0x11, 0x12, 0x13] →
      exec (.tapRegisterWrite i b) s = .next { s with dbg := { s.dbg with ir := i, dr := 0 } }) ∧
    (s.straps.dbgEn = false → exec (.tapRegisterWrite 0x10 b) s = .next { s with dbg := { s.dbg with ir := 0x10, dr := 0 } }) ∧
    (s.straps.dbgEn = true → ∃ t, exec (.tapRegisterWrite 0x10 b) s = .next t ∧
      t = { s with dbg := { s.dbg with ir := 0x10, dr := t.dbg.dr } } ∧
      t.dbg.dr.extractLsb' 48 16 = s.dbg.halted ∧ t.dbg.dr.extractLsb' 24 8 = s.dbg.bphit ∧
      (t.dbg.dr.extractLsb' 21 3).toNat = s.tiers.tier.rank ∧ t.dbg.dr.getLsbD 20 = s.dbg.session.isSome ∧ t.dbg.dr.getLsbD 19 = true ∧
      t.dbg.dr.getLsbD 18 = s.dbg.step.isSome ∧ t.dbg.dr.extractLsb' 16 2 = s.dbg.result ∧ (t.dbg.dr.extractLsb' 0 8).toNat = tierCap s ∧
      (∀ a x, s.dbg.session = some (a, x) → t.dbg.dr.extractLsb' 32 16 = a) ∧ (s.dbg.session = none → t.dbg.dr.extractLsb' 32 16 = 0))) ∧
  (∀ (r : BitVec 168) (s : State), tapWorks s = true → s.straps.dbgEn = false →
    exec (.dbrk r) s = .next { s with dbg := { s.dbg with ir := 0x12, dr := 0 } }) ∧
  (∀ (r : BitVec 168) (s : State), tapWorks s = true → s.straps.dbgEn = true →
    let n : Fin 8 := Fin.ofNat 8 (r.extractLsb' 165 3).toNat
    let act := r.extractLsb' 159 2
    let kind := r.extractLsb' 161 4
    ∃ t, exec (.dbrk r) s = .next t ∧ Alters [.dbg] s t ∧ t.dbg.ir = 0x12 ∧
      (∀ m, m ≠ n → t.dbg.cmps[m] = s.dbg.cmps[m]) ∧ t.dbg.session = s.dbg.session ∧ t.dbg.halted = s.dbg.halted ∧
      t.dbg.bphit = s.dbg.bphit ∧
      (t.dbg.cmps[n].count < 65536 → (t.dbg.dr.extractLsb' 165 3).toNat = n.val ∧ t.dbg.dr.extractLsb' 161 4 = t.dbg.cmps[n].kind ∧
        t.dbg.dr.extractLsb' 159 2 = t.dbg.cmps[n].act ∧ t.dbg.dr.extractLsb' 151 8 = t.dbg.cmps[n].wher ∧
        (t.dbg.dr.extractLsb' 135 16).toNat = t.dbg.cmps[n].count ∧ t.dbg.dr.extractLsb' 64 64 = t.dbg.cmps[n].value ∧
        t.dbg.dr.extractLsb' 0 64 = t.dbg.cmps[n].mask) ∧
      (act = 2 → s.dbg.session = none → t.dbg.result = 1 ∧ t.dbg.cmps = s.dbg.cmps) ∧
      ((act ≠ 2 ∨ s.dbg.session ≠ none) → r.extractLsb' 128 7 ≠ 0 → t.dbg.result = 3 ∧ t.dbg.cmps = s.dbg.cmps) ∧
      ((act ≠ 2 ∨ s.dbg.session ≠ none) → r.extractLsb' 128 7 = 0 → t.dbg.result = 0 ∧
        ((kind = 0 ∨ 5 < kind.toNat ∨ act = 3) → t.dbg.cmps[n] = Cmp.off) ∧
        (1 ≤ kind.toNat → kind.toNat ≤ 5 → act ≠ 3 → t.dbg.cmps[n] =
          { kind := kind, act := act, wher := r.extractLsb' 151 8, count := max 1 (r.extractLsb' 135 16).toNat,
            value := r.extractLsb' 64 64, mask := r.extractLsb' 0 64 }))) ∧
  (∀ (r : BitVec 104) (e : Ecc) (s : State), tapWorks s = true → s.straps.dbgEn = true → r.extractLsb' 101 3 = 1 →
    r.extractLsb' 88 2 = 0 → r.extractLsb' 64 3 = 0 → shellRuns s = true →
    let a := (r.extractLsb' 64 24).toNat
    (((0x330000 ≤ a ∧ a < 0x400000) ∨ works s (.group (Fin.ofNat 8 (a / 2 ^ 21))) = false) →
      ∃ t, exec (.dmemRead r e) s = .next t ∧ t = { s with dbg := { s.dbg with ir := 0x13, dr := t.dbg.dr, result := 2 } } ∧
        t.dbg.dr.extractLsb' 90 3 = 6) ∧
    ((a < 0x200000 ∨ (0xC00000 ≤ a ∧ a < 0xF00000)) → works s (.group (Fin.ofNat 8 (a / 2 ^ 21))) = true →
      a ∉ e.poisoned → a ∉ s.mem.poison → a ∉ e.corrected →
      ∃ t, exec (.dmemRead r e) s = .next t ∧ t = { s with dbg := { s.dbg with ir := 0x13, dr := t.dbg.dr, result := 0 } } ∧
        t.dbg.dr.extractLsb' 90 3 = 1 ∧ (t.dbg.dr.extractLsb' 0 64).toNat = beNat (s.mem.readN a 8)) ∧
    ((a < 0x200000 ∨ (0xC00000 ≤ a ∧ a < 0xF00000)) → works s (.group (Fin.ofNat 8 (a / 2 ^ 21))) = true → a ∈ s.mem.poison →
      ∃ t, exec (.dmemRead r e) s = .next t ∧ Alters [.dbg, .counters] s t ∧ t.dbg.result = 0 ∧
        t.dbg.dr.extractLsb' 90 3 = 5 ∧ t.dbg.dr.extractLsb' 0 64 = 0)) ∧
  (∀ (r : BitVec 104) (s : State), tapWorks s = true → s.straps.dbgEn = true → r.extractLsb' 101 3 = 2 →
    r.extractLsb' 88 2 = 0 → r.extractLsb' 64 3 = 0 →
    let a := (r.extractLsb' 64 24).toNat
    (s.dbg.session = none → ∃ t, exec (.dmemWrite r) s = .next t ∧
      t = { s with dbg := { s.dbg with ir := 0x13, dr := t.dbg.dr, result := 1 } } ∧ t.dbg.dr.extractLsb' 90 3 = 6) ∧
    (∀ al fl x, s.dbg.session = some (al, fl, x) → fl.getLsbD 0 = false → ∃ t, exec (.dmemWrite r) s = .next t ∧
      t = { s with dbg := { s.dbg with ir := 0x13, dr := t.dbg.dr, result := 2 } } ∧ t.dbg.dr.extractLsb' 90 3 = 6) ∧
    (∀ al fl x, s.dbg.session = some (al, fl, x) → fl.getLsbD 0 = true → shellRuns s = true → s.mem.wf = true →
      (a < 0x200000 ∨ 0x400000 ≤ a) → works s (.group (Fin.ofNat 8 (a / 2 ^ 21))) = true →
      ∃ t, exec (.dmemWrite r) s = .next t ∧ Alters [.mem, .dbg] s t ∧ t.dbg.result = 0 ∧ t.dbg.session = s.dbg.session ∧
        (∀ k : Fin 8, r.getLsbD (93 + k.val) = true → cellsRead t.mem.cells (a + 7 - k.val) = r.extractLsb' (8 * k.val) 8) ∧
        (∀ k : Fin 8, r.getLsbD (93 + k.val) = false → cellsRead t.mem.cells (a + 7 - k.val) = cellsRead s.mem.cells (a + 7 - k.val)) ∧
        (∀ b, (b < a ∨ a + 8 ≤ b) → cellsRead t.mem.cells b = cellsRead s.mem.cells b)))

/-- DCTRL, STEP_END, BREAKPOINT_FIRE and SESSION_LIFETIME_END: halts, resumes, steps, breakpoints and the end of a session. What is the model's choice in it, log entries 107, 108, 109, 110, 113 and 116 name. -/
def Obligations.DebugControlHaltsStepsAndEnds : Prop :=
  (∀ (reg : BitVec 64) (s : State) (op : BitVec 4) (c : Instr),
    (op, c) ∈ [((1 : BitVec 4), Instr.dctrlHalt reg), (2, .dctrlResume reg), (3, .dctrlStep reg), (4, .dctrlClose reg),
      (5, .dctrlClearBphit reg)] → reg.extractLsb' 12 4 = op →
    (tapWorks s = false → exec c s = .next s) ∧
    (tapWorks s = true → s.straps.dbgEn = false → exec c s = .next { s with dbg := { s.dbg with ir := 0x11, dr := 0 } }) ∧
    (tapWorks s = true → s.straps.dbgEn = true →
      (∀ al fl tag x, s.dbg.session = some (al, fl, tag, x) →
        (reg.extractLsb' 48 16 ≠ tag → exec c s = .next
          { s with dbg := { s.dbg with ir := 0x11, dr := reg.setWidth 168, result := 1 } }) ∧
        (reg.extractLsb' 48 16 = tag →
          (reg.extractLsb' 32 16 &&& ~~~al ≠ 0 ∨ (op = 3 ∧ reg.extractLsb' 10 2 = 2 ∧ reg.extractLsb' 32 16 &&& 0xFFF8 ≠ 0) ∨
            (op = 3 ∧ reg.extractLsb' 10 2 = 3 ∧ reg.extractLsb' 32 16 &&& 0xFFF7 ≠ 0)) →
          exec c s = .next { s with dbg := { s.dbg with ir := 0x11, dr := reg.setWidth 168, result := 2 } }) ∧
        (reg.extractLsb' 48 16 = tag → reg.extractLsb' 32 16 &&& ~~~al = 0 → op ≠ 3 → reg.extractLsb' 0 10 ≠ 0 →
          exec c s = .next { s with dbg := { s.dbg with ir := 0x11, dr := reg.setWidth 168, result := 3 } })) ∧
      (s.dbg.session = none → exec c s = .next { s with dbg := { s.dbg with ir := 0x11, dr := reg.setWidth 168, result := 1 } }))) ∧
  (∀ (reg : BitVec 64) (s : State) (al : BitVec 16) (fl : BitVec 8) (tag : BitVec 16) (h : Fin 16) (e : Tick), tapWorks s = true →
    s.straps.dbgEn = true → s.dbg.session = some (al, fl, tag, h, e) → reg.extractLsb' 48 16 = tag →
    reg.extractLsb' 32 16 &&& ~~~al = 0 → reg.extractLsb' 0 10 = 0 →
    let m := reg.extractLsb' 32 16
    let d := { s.dbg with ir := 0x11, dr := reg.setWidth 168, result := 0 }
    (reg.extractLsb' 12 4 = 1 → s.dbg.step = none → s.dbg.resumeNext = none → exec (.dctrlHalt reg) s = .next
      { s with dbg := { d with haltNext := some (s.dbg.haltNext.getD 0 ||| m) } }) ∧
    (∀ u k n, reg.extractLsb' 12 4 = 1 → s.dbg.step = some (u, k, n) → ∃ t, exec (.dctrlHalt reg) s = .next t ∧
      Alters [.chans, .events, .dbg] s t ∧ t.dbg.step = none ∧ t.dbg.halted = s.dbg.halted ||| u ∧
      t.dbg.haltNext = some (s.dbg.haltNext.getD 0 ||| m)) ∧
    (reg.extractLsb' 12 4 = 2 → s.dbg.haltNext = none → s.dbg.resumeNext = none → exec (.dctrlResume reg) s = .next
      { s with dbg := { d with resumeNext := some (m, none) } }) ∧
    (reg.extractLsb' 12 4 = 4 → exec (.dctrlClose reg) s = .next
      { s with dbg := { d with haltNext := none, resumeNext := some (s.dbg.halted, some 1) } }) ∧
    (reg.extractLsb' 12 4 = 5 → exec (.dctrlClearBphit reg) s = .next { s with dbg := { d with bphit := 0 } }) ∧
    (reg.extractLsb' 12 4 = 3 → reg.extractLsb' 16 16 ≠ 0 → m &&& s.dbg.halted ≠ 0 → s.dbg.step = none →
      (reg.extractLsb' 10 2 = 2 → m &&& 0xFFF8 = 0) → (reg.extractLsb' 10 2 = 3 → m &&& 0xFFF7 = 0) →
      ∃ t, exec (.dctrlStep reg) s = .next t ∧
        Alters [.tables, .streams, .chans, .mem, .engine, .seat, .events, .dbg] s t ∧
        t.dbg.halted = s.dbg.halted &&& ~~~(m &&& s.dbg.halted) ∧ t.dbg.result = 0 ∧
        t.dbg.step = some (m &&& s.dbg.halted, reg.extractLsb' 10 2,
          if reg.extractLsb' 10 2 = 0 then ((reg.extractLsb' 16 16).toNat + 1) / 2 * 2 else (reg.extractLsb' 16 16).toNat) ∧
        (m.getLsbD 6 = false → t.chans = s.chans ∧ t.seat = s.seat))) ∧
  (∀ (s : State) (m : BitVec 16), s.pending = [] → shellRuns s = true → atSymbol (idleTick s) = true → s.dbg.resumeNext = none →
    s.dbg.step = none → s.dbg.haltNext = some m →
    ∃ t, step s = .next t ∧ t.dbg.halted = s.dbg.halted ||| m ∧ t.dbg.haltNext = none ∧ t.dbg.session = s.dbg.session ∧
      (m &&& ~~~s.dbg.halted ≠ 0 → Logs (idleTick s) t 0x1202 0x80 (beBytes 2 (s.dbg.halted ||| m).toNat ++ [1]))) ∧
  (∀ (s : State) (m : BitVec 16), s.pending = [] → shellRuns s = true → atSymbol (idleTick s) = true → s.dbg.haltNext = none →
    s.dbg.step = none → s.dbg.resumeNext = some (m, none) →
    ∃ t, step s = .next t ∧ t.dbg.halted = s.dbg.halted &&& ~~~m ∧ t.dbg.resumeNext = none ∧ t.dbg.session = s.dbg.session) ∧
  (∀ s : State, (∀ m k, s.dbg.step ≠ some (m, k, 0)) → exec .stepEnd s = .next s) ∧
  (∀ (s : State) (m : BitVec 16) (k : BitVec 2), s.dbg.step = some (m, k, 0) →
    ∃ t, exec .stepEnd s = .next t ∧ Alters [.chans, .events, .dbg] s t ∧ t.dbg.step = none ∧ t.dbg.halted = s.dbg.halted ||| m ∧
      (m &&& ~~~s.dbg.halted ≠ 0 → Logs s t 0x1202 0x80 (beBytes 2 (s.dbg.halted ||| m).toNat ++ [3]))) ∧
  (∀ s : State, (s.dbg.session = none ∨ ∃ a b c d e, s.dbg.session = some (a, b, c, d, e) ∧ s.clock.age.toNat < e.toNat) →
    exec .sessionLifetimeEnd s = .next s) ∧
  (∀ (s : State) (a : BitVec 16) (b : BitVec 8) (c : BitVec 16) (d : Fin 16) (e : Tick), s.dbg.session = some (a, b, c, d, e) →
    e.toNat ≤ s.clock.age.toNat →
    ∃ t, exec .sessionLifetimeEnd s = .next t ∧ Alters [.events, .dbg] s t ∧ t.dbg.session = none ∧ t.dbg.halted = s.dbg.halted ∧
      (∀ n : Fin 8, t.dbg.cmps[n] = Cmp.off) ∧ t.dbg.step = none ∧ t.dbg.haltNext = none ∧
      t.dbg.resumeNext = (if s.dbg.halted = 0 then none else some (s.dbg.halted, none)) ∧ Logs s t 0x1205 0x80 [2]) ∧
  (∀ (n : Fin 8) (q : BitVec 64) (s : State), (shellRuns s = false ∨ s.dbg.cmps[n].act = 0 ∨
      q &&& s.dbg.cmps[n].mask ≠ s.dbg.cmps[n].value &&& s.dbg.cmps[n].mask ∨
      (s.dbg.cmps[n].kind = 4 ∧ s.clock.counter.toNat < q.toNat)) → exec (.breakpointFire n q) s = .next s) ∧
  (∀ (n : Fin 8) (q : BitVec 64) (s : State), shellRuns s = true → s.dbg.cmps[n].act ≠ 0 →
    q &&& s.dbg.cmps[n].mask = s.dbg.cmps[n].value &&& s.dbg.cmps[n].mask →
    (s.dbg.cmps[n].kind = 4 → q.toNat ≤ s.clock.counter.toNat) →
    ∃ t, exec (.breakpointFire n q) s = .next t ∧ Alters [.chans, .events, .dbg] s t ∧
      (∀ m, m ≠ n → t.dbg.cmps[m] = s.dbg.cmps[m]) ∧ t.dbg.session = s.dbg.session ∧
      (1 < s.dbg.cmps[n].count → t = { s with dbg := { s.dbg with cmps := t.dbg.cmps } } ∧
        t.dbg.cmps[n] = { s.dbg.cmps[n] with count := s.dbg.cmps[n].count - 1 }) ∧
      (s.dbg.cmps[n].count ≤ 1 → t.dbg.cmps[n] = Cmp.off ∧ t.dbg.bphit = s.dbg.bphit ||| BitVec.ofNat 8 (2 ^ n.val) ∧
        Logs s t 0x1204 0x80 (beBytes 1 n.val ++ beBytes 1 s.dbg.cmps[n].kind.toNat ++ beBytes 8 q.toNat) ∧
        (s.dbg.cmps[n].act = 1 → t.dbg.halted = s.dbg.halted ∧ t.chans = s.chans) ∧
        (s.dbg.cmps[n].act = 2 → ∀ al x, s.dbg.session = some (al, x) → t.dbg.halted = s.dbg.halted ||| al)))
end

