-- ==== Sys2Proof/Laws/FrameCore.lean ====
section
/-! SUPPORT. Frames: how they compose, and what a record update of the state may change. -/

namespace Sys2Proof.Laws

open Sys2Proof Sys2Proof.Machine Sys2Proof.Safety

variable {L : List Part} {r s t : State}

theorem frame_refl (L : List Part) (s : State) : Alters L s s := ⟨by intro p _; cases p <;> rfl⟩

/-- Frames compose. -/
theorem frame_trans (h : Alters L r s) (k : Alters L s t) : Alters L r t :=
  ⟨by intro p hp; have a := h.keeps p hp; have b := k.keeps p hp; cases p <;> exact Eq.trans b a⟩

/-- A larger list of parts says less. -/
theorem frame_mono {M : List Part} (hm : L ⊆ M) (h : Alters L r s) : Alters M r s :=
  ⟨fun p hp => h.keeps p fun hl => hp (hm hl)⟩

theorem answers_next (h : Alters L r s) : Answers L r (.next s) := ⟨s, rfl, h⟩

/-- A state that a pair brings. -/
theorem frame_pair {α : Type} {p : α × State} {a : α} (he : p = (a, s)) (hp : Alters L r p.2) : Alters L r s := by
  rw [he] at hp; exact hp

theorem frame_whenDue {c : Bool} {f : State → State} (hf : ∀ x, Alters L r x → Alters L r (f x)) (h : Alters L r s) :
    Alters L r (whenDue c f s) := by
  unfold whenDue; split
  · exact hf s h
  · exact h

theorem frame_each {α : Type} {l : List α} {f : α → State → State} (hf : ∀ a x, Alters L r x → Alters L r (f a x))
    (h : Alters L r s) : Alters L r (s.each l f) := by
  unfold State.each
  induction l generalizing s with
  | nil => exact h
  | cons a l ih => exact ih (hf a s h)

theorem same_dieId (h : Alters L r s) (hp : Part.dieId ∉ L) : s.dieId = r.dieId := h.keeps .dieId hp

theorem same_free (h : Alters L r s) (hp : Part.free ∉ L) : s.free = r.free := h.keeps .free hp

theorem same_supply (h : Alters L r s) (hp : Part.supply ∉ L) : s.supply = r.supply := h.keeps .supply hp

theorem same_tiers (h : Alters L r s) (hp : Part.tiers ∉ L) : s.tiers = r.tiers := h.keeps .tiers hp

theorem same_straps (h : Alters L r s) (hp : Part.straps ∉ L) : s.straps = r.straps := h.keeps .straps hp

theorem same_clock (h : Alters L r s) (hp : Part.clock ∉ L) : s.clock = r.clock := h.keeps .clock hp

theorem same_portA (h : Alters L r s) (hp : Part.portA ∉ L) : s.portA = r.portA := h.keeps .portA hp

theorem same_portB (h : Alters L r s) (hp : Part.portB ∉ L) : s.portB = r.portB := h.keeps .portB hp

theorem same_cut (h : Alters L r s) (hp : Part.cut ∉ L) : s.cut = r.cut := h.keeps .cut hp

theorem same_tables (h : Alters L r s) (hp : Part.tables ∉ L) : s.tables = r.tables := h.keeps .tables hp

theorem same_queues (h : Alters L r s) (hp : Part.queues ∉ L) : s.queues = r.queues := h.keeps .queues hp

theorem same_hands (h : Alters L r s) (hp : Part.hands ∉ L) : s.hands = r.hands := h.keeps .hands hp

theorem same_streams (h : Alters L r s) (hp : Part.streams ∉ L) : s.streams = r.streams := h.keeps .streams hp

theorem same_chans (h : Alters L r s) (hp : Part.chans ∉ L) : s.chans = r.chans := h.keeps .chans hp

theorem same_mem (h : Alters L r s) (hp : Part.mem ∉ L) : s.mem = r.mem := h.keeps .mem hp

theorem same_engine (h : Alters L r s) (hp : Part.engine ∉ L) : s.engine = r.engine := h.keeps .engine hp

theorem same_vault (h : Alters L r s) (hp : Part.vault ∉ L) : s.vault = r.vault := h.keeps .vault hp

theorem same_seat (h : Alters L r s) (hp : Part.seat ∉ L) : s.seat = r.seat := h.keeps .seat hp

theorem same_events (h : Alters L r s) (hp : Part.events ∉ L) : s.events = r.events := h.keeps .events hp

theorem same_dbg (h : Alters L r s) (hp : Part.dbg ∉ L) : s.dbg = r.dbg := h.keeps .dbg hp

theorem same_announce (h : Alters L r s) (hp : Part.announce ∉ L) : s.announce = r.announce := h.keeps .announce hp

theorem same_counters (h : Alters L r s) (hp : Part.counters ∉ L) : s.counters = r.counters := h.keeps .counters hp

theorem same_pending (h : Alters L r s) (hp : Part.pending ∉ L) : s.pending = r.pending := h.keeps .pending hp

theorem frame_mk_announce {s : State} {x0} (h0 : Part.announce ∈ L) :
    Alters L r { s with announce := x0 } ↔ Alters L r s :=
  ⟨fun h => ⟨fun p hp => by have k := h.keeps p hp; cases p <;> first | exact absurd h0 hp | exact k⟩,
   fun h => ⟨fun p hp => by have k := h.keeps p hp; cases p <;> first | exact absurd h0 hp | exact k⟩⟩

theorem frame_mk_chans {s : State} {x0} (h0 : Part.chans ∈ L) :
    Alters L r { s with chans := x0 } ↔ Alters L r s :=
  ⟨fun h => ⟨fun p hp => by have k := h.keeps p hp; cases p <;> first | exact absurd h0 hp | exact k⟩,
   fun h => ⟨fun p hp => by have k := h.keeps p hp; cases p <;> first | exact absurd h0 hp | exact k⟩⟩

theorem frame_mk_clock {s : State} {x0} (h0 : Part.clock ∈ L) :
    Alters L r { s with clock := x0 } ↔ Alters L r s :=
  ⟨fun h => ⟨fun p hp => by have k := h.keeps p hp; cases p <;> first | exact absurd h0 hp | exact k⟩,
   fun h => ⟨fun p hp => by have k := h.keeps p hp; cases p <;> first | exact absurd h0 hp | exact k⟩⟩

theorem frame_mk_counters {s : State} {x0} (h0 : Part.counters ∈ L) :
    Alters L r { s with counters := x0 } ↔ Alters L r s :=
  ⟨fun h => ⟨fun p hp => by have k := h.keeps p hp; cases p <;> first | exact absurd h0 hp | exact k⟩,
   fun h => ⟨fun p hp => by have k := h.keeps p hp; cases p <;> first | exact absurd h0 hp | exact k⟩⟩

theorem frame_mk_cut {s : State} {x0} (h0 : Part.cut ∈ L) :
    Alters L r { s with cut := x0 } ↔ Alters L r s :=
  ⟨fun h => ⟨fun p hp => by have k := h.keeps p hp; cases p <;> first | exact absurd h0 hp | exact k⟩,
   fun h => ⟨fun p hp => by have k := h.keeps p hp; cases p <;> first | exact absurd h0 hp | exact k⟩⟩

theorem frame_mk_dbg {s : State} {x0} (h0 : Part.dbg ∈ L) :
    Alters L r { s with dbg := x0 } ↔ Alters L r s :=
  ⟨fun h => ⟨fun p hp => by have k := h.keeps p hp; cases p <;> first | exact absurd h0 hp | exact k⟩,
   fun h => ⟨fun p hp => by have k := h.keeps p hp; cases p <;> first | exact absurd h0 hp | exact k⟩⟩

theorem frame_mk_engine {s : State} {x0} (h0 : Part.engine ∈ L) :
    Alters L r { s with engine := x0 } ↔ Alters L r s :=
  ⟨fun h => ⟨fun p hp => by have k := h.keeps p hp; cases p <;> first | exact absurd h0 hp | exact k⟩,
   fun h => ⟨fun p hp => by have k := h.keeps p hp; cases p <;> first | exact absurd h0 hp | exact k⟩⟩

theorem frame_mk_events {s : State} {x0} (h0 : Part.events ∈ L) :
    Alters L r { s with events := x0 } ↔ Alters L r s :=
  ⟨fun h => ⟨fun p hp => by have k := h.keeps p hp; cases p <;> first | exact absurd h0 hp | exact k⟩,
   fun h => ⟨fun p hp => by have k := h.keeps p hp; cases p <;> first | exact absurd h0 hp | exact k⟩⟩

theorem frame_mk_free {s : State} {x0} (h0 : Part.free ∈ L) :
    Alters L r { s with free := x0 } ↔ Alters L r s :=
  ⟨fun h => ⟨fun p hp => by have k := h.keeps p hp; cases p <;> first | exact absurd h0 hp | exact k⟩,
   fun h => ⟨fun p hp => by have k := h.keeps p hp; cases p <;> first | exact absurd h0 hp | exact k⟩⟩

theorem frame_mk_hands {s : State} {x0} (h0 : Part.hands ∈ L) :
    Alters L r { s with hands := x0 } ↔ Alters L r s :=
  ⟨fun h => ⟨fun p hp => by have k := h.keeps p hp; cases p <;> first | exact absurd h0 hp | exact k⟩,
   fun h => ⟨fun p hp => by have k := h.keeps p hp; cases p <;> first | exact absurd h0 hp | exact k⟩⟩

theorem frame_mk_mem {s : State} {x0} (h0 : Part.mem ∈ L) :
    Alters L r { s with mem := x0 } ↔ Alters L r s :=
  ⟨fun h => ⟨fun p hp => by have k := h.keeps p hp; cases p <;> first | exact absurd h0 hp | exact k⟩,
   fun h => ⟨fun p hp => by have k := h.keeps p hp; cases p <;> first | exact absurd h0 hp | exact k⟩⟩

theorem frame_mk_portA {s : State} {x0} (h0 : Part.portA ∈ L) :
    Alters L r { s with portA := x0 } ↔ Alters L r s :=
  ⟨fun h => ⟨fun p hp => by have k := h.keeps p hp; cases p <;> first | exact absurd h0 hp | exact k⟩,
   fun h => ⟨fun p hp => by have k := h.keeps p hp; cases p <;> first | exact absurd h0 hp | exact k⟩⟩

theorem frame_mk_portB {s : State} {x0} (h0 : Part.portB ∈ L) :
    Alters L r { s with portB := x0 } ↔ Alters L r s :=
  ⟨fun h => ⟨fun p hp => by have k := h.keeps p hp; cases p <;> first | exact absurd h0 hp | exact k⟩,
   fun h => ⟨fun p hp => by have k := h.keeps p hp; cases p <;> first | exact absurd h0 hp | exact k⟩⟩

theorem frame_mk_queues {s : State} {x0} (h0 : Part.queues ∈ L) :
    Alters L r { s with queues := x0 } ↔ Alters L r s :=
  ⟨fun h => ⟨fun p hp => by have k := h.keeps p hp; cases p <;> first | exact absurd h0 hp | exact k⟩,
   fun h => ⟨fun p hp => by have k := h.keeps p hp; cases p <;> first | exact absurd h0 hp | exact k⟩⟩

theorem frame_mk_seat {s : State} {x0} (h0 : Part.seat ∈ L) :
    Alters L r { s with seat := x0 } ↔ Alters L r s :=
  ⟨fun h => ⟨fun p hp => by have k := h.keeps p hp; cases p <;> first | exact absurd h0 hp | exact k⟩,
   fun h => ⟨fun p hp => by have k := h.keeps p hp; cases p <;> first | exact absurd h0 hp | exact k⟩⟩

theorem frame_mk_straps {s : State} {x0} (h0 : Part.straps ∈ L) :
    Alters L r { s with straps := x0 } ↔ Alters L r s :=
  ⟨fun h => ⟨fun p hp => by have k := h.keeps p hp; cases p <;> first | exact absurd h0 hp | exact k⟩,
   fun h => ⟨fun p hp => by have k := h.keeps p hp; cases p <;> first | exact absurd h0 hp | exact k⟩⟩

theorem frame_mk_streams {s : State} {x0} (h0 : Part.streams ∈ L) :
    Alters L r { s with streams := x0 } ↔ Alters L r s :=
  ⟨fun h => ⟨fun p hp => by have k := h.keeps p hp; cases p <;> first | exact absurd h0 hp | exact k⟩,
   fun h => ⟨fun p hp => by have k := h.keeps p hp; cases p <;> first | exact absurd h0 hp | exact k⟩⟩

theorem frame_mk_supply {s : State} {x0} (h0 : Part.supply ∈ L) :
    Alters L r { s with supply := x0 } ↔ Alters L r s :=
  ⟨fun h => ⟨fun p hp => by have k := h.keeps p hp; cases p <;> first | exact absurd h0 hp | exact k⟩,
   fun h => ⟨fun p hp => by have k := h.keeps p hp; cases p <;> first | exact absurd h0 hp | exact k⟩⟩

theorem frame_mk_tables {s : State} {x0} (h0 : Part.tables ∈ L) :
    Alters L r { s with tables := x0 } ↔ Alters L r s :=
  ⟨fun h => ⟨fun p hp => by have k := h.keeps p hp; cases p <;> first | exact absurd h0 hp | exact k⟩,
   fun h => ⟨fun p hp => by have k := h.keeps p hp; cases p <;> first | exact absurd h0 hp | exact k⟩⟩

theorem frame_mk_tiers {s : State} {x0} (h0 : Part.tiers ∈ L) :
    Alters L r { s with tiers := x0 } ↔ Alters L r s :=
  ⟨fun h => ⟨fun p hp => by have k := h.keeps p hp; cases p <;> first | exact absurd h0 hp | exact k⟩,
   fun h => ⟨fun p hp => by have k := h.keeps p hp; cases p <;> first | exact absurd h0 hp | exact k⟩⟩

theorem frame_mk_vault {s : State} {x0} (h0 : Part.vault ∈ L) :
    Alters L r { s with vault := x0 } ↔ Alters L r s :=
  ⟨fun h => ⟨fun p hp => by have k := h.keeps p hp; cases p <;> first | exact absurd h0 hp | exact k⟩,
   fun h => ⟨fun p hp => by have k := h.keeps p hp; cases p <;> first | exact absurd h0 hp | exact k⟩⟩

theorem frame_mk_supply_tiers {s : State} {x0} {x1} (h0 : Part.supply ∈ L) (h1 : Part.tiers ∈ L) :
    Alters L r { s with supply := x0, tiers := x1 } ↔ Alters L r s :=
  ⟨fun h => ⟨fun p hp => by have k := h.keeps p hp; cases p <;> first | exact absurd h0 hp | exact absurd h1 hp | exact k⟩,
   fun h => ⟨fun p hp => by have k := h.keeps p hp; cases p <;> first | exact absurd h0 hp | exact absurd h1 hp | exact k⟩⟩

theorem frame_mk_supply_tiers_chans {s : State} {x0} {x1} {x2} (h0 : Part.supply ∈ L) (h1 : Part.tiers ∈ L) (h2 : Part.chans ∈ L) :
    Alters L r { s with supply := x0, tiers := x1, chans := x2 } ↔ Alters L r s :=
  ⟨fun h => ⟨fun p hp => by have k := h.keeps p hp; cases p <;> first | exact absurd h0 hp | exact absurd h1 hp | exact absurd h2 hp | exact k⟩,
   fun h => ⟨fun p hp => by have k := h.keeps p hp; cases p <;> first | exact absurd h0 hp | exact absurd h1 hp | exact absurd h2 hp | exact k⟩⟩

theorem frame_mk_supply_straps_clock_dbg {s : State} {x0} {x1} {x2} {x3} (h0 : Part.supply ∈ L) (h1 : Part.straps ∈ L) (h2 : Part.clock ∈ L) (h3 : Part.dbg ∈ L) :
    Alters L r { s with supply := x0, straps := x1, clock := x2, dbg := x3 } ↔ Alters L r s :=
  ⟨fun h => ⟨fun p hp => by have k := h.keeps p hp; cases p <;> first | exact absurd h0 hp | exact absurd h1 hp | exact absurd h2 hp | exact absurd h3 hp | exact k⟩,
   fun h => ⟨fun p hp => by have k := h.keeps p hp; cases p <;> first | exact absurd h0 hp | exact absurd h1 hp | exact absurd h2 hp | exact absurd h3 hp | exact k⟩⟩

theorem frame_mk_portA_portB_cut_seat_announce {s : State} {x0} {x1} {x2} {x3} {x4} (h0 : Part.portA ∈ L) (h1 : Part.portB ∈ L) (h2 : Part.cut ∈ L) (h3 : Part.seat ∈ L) (h4 : Part.announce ∈ L) :
    Alters L r { s with portA := x0, portB := x1, cut := x2, seat := x3, announce := x4 } ↔ Alters L r s :=
  ⟨fun h => ⟨fun p hp => by have k := h.keeps p hp; cases p <;> first | exact absurd h0 hp | exact absurd h1 hp | exact absurd h2 hp | exact absurd h3 hp | exact absurd h4 hp | exact k⟩,
   fun h => ⟨fun p hp => by have k := h.keeps p hp; cases p <;> first | exact absurd h0 hp | exact absurd h1 hp | exact absurd h2 hp | exact absurd h3 hp | exact absurd h4 hp | exact k⟩⟩

theorem frame_mk_straps_clock_portA_portB_cut_queues_hands_streams_chans_mem_engine_vault_seat_events_dbg {s : State} {x0} {x1} {x2} {x3} {x4} {x5} {x6} {x7} {x8} {x9} {x10} {x11} {x12} {x13} {x14} (h0 : Part.straps ∈ L) (h1 : Part.clock ∈ L) (h2 : Part.portA ∈ L) (h3 : Part.portB ∈ L) (h4 : Part.cut ∈ L) (h5 : Part.queues ∈ L) (h6 : Part.hands ∈ L) (h7 : Part.streams ∈ L) (h8 : Part.chans ∈ L) (h9 : Part.mem ∈ L) (h10 : Part.engine ∈ L) (h11 : Part.vault ∈ L) (h12 : Part.seat ∈ L) (h13 : Part.events ∈ L) (h14 : Part.dbg ∈ L) :
    Alters L r { s with straps := x0, clock := x1, portA := x2, portB := x3, cut := x4, queues := x5, hands := x6, streams := x7, chans := x8, mem := x9, engine := x10, vault := x11, seat := x12, events := x13, dbg := x14 } ↔ Alters L r s :=
  ⟨fun h => ⟨fun p hp => by have k := h.keeps p hp; cases p <;> first | exact absurd h0 hp | exact absurd h1 hp | exact absurd h2 hp | exact absurd h3 hp | exact absurd h4 hp | exact absurd h5 hp | exact absurd h6 hp | exact absurd h7 hp | exact absurd h8 hp | exact absurd h9 hp | exact absurd h10 hp | exact absurd h11 hp | exact absurd h12 hp | exact absurd h13 hp | exact absurd h14 hp | exact k⟩,
   fun h => ⟨fun p hp => by have k := h.keeps p hp; cases p <;> first | exact absurd h0 hp | exact absurd h1 hp | exact absurd h2 hp | exact absurd h3 hp | exact absurd h4 hp | exact absurd h5 hp | exact absurd h6 hp | exact absurd h7 hp | exact absurd h8 hp | exact absurd h9 hp | exact absurd h10 hp | exact absurd h11 hp | exact absurd h12 hp | exact absurd h13 hp | exact absurd h14 hp | exact k⟩⟩

end Sys2Proof.Laws
end

