-- ==== Sys2Proof/Laws/FrameOps.lean ====
section
/-! SUPPORT. What each operation of Machine/Ops.lean may change: the parts of the state it names, and nothing else. -/

namespace Sys2Proof.Laws

open Sys2Proof Sys2Proof.Machine Sys2Proof.Safety

set_option linter.unusedTactic false
set_option linter.unreachableTactic false
set_option linter.unusedVariables false

theorem frame_State_onSupply {L : List Part} {s0 s : State} {f : Supply → Supply} (hL : ([.supply] : List Part) ⊆ L) (hF : Alters L s0 s) :
    Alters L s0 (State.onSupply s f) := by
  have m_supply : Part.supply ∈ L := hL (by decide)
  delta State.onSupply
  repeat (any_goals first
    | with_reducible assumption
    | exact List.Subset.trans (by decide) hL
    | simp only [frame_mk_supply m_supply])

theorem frame_State_onTiers {L : List Part} {s0 s : State} {f : TierState → TierState} (hL : ([.tiers] : List Part) ⊆ L) (hF : Alters L s0 s) :
    Alters L s0 (State.onTiers s f) := by
  have m_tiers : Part.tiers ∈ L := hL (by decide)
  delta State.onTiers
  repeat (any_goals first
    | with_reducible assumption
    | exact List.Subset.trans (by decide) hL
    | simp only [frame_mk_tiers m_tiers])

theorem frame_State_onStraps {L : List Part} {s0 s : State} {f : Straps → Straps} (hL : ([.straps] : List Part) ⊆ L) (hF : Alters L s0 s) :
    Alters L s0 (State.onStraps s f) := by
  have m_straps : Part.straps ∈ L := hL (by decide)
  delta State.onStraps
  repeat (any_goals first
    | with_reducible assumption
    | exact List.Subset.trans (by decide) hL
    | simp only [frame_mk_straps m_straps])

theorem frame_State_onClock {L : List Part} {s0 s : State} {f : Clock → Clock} (hL : ([.clock] : List Part) ⊆ L) (hF : Alters L s0 s) :
    Alters L s0 (State.onClock s f) := by
  have m_clock : Part.clock ∈ L := hL (by decide)
  delta State.onClock
  repeat (any_goals first
    | with_reducible assumption
    | exact List.Subset.trans (by decide) hL
    | simp only [frame_mk_clock m_clock])

theorem frame_State_onCut {L : List Part} {s0 s : State} {f : Cut → Cut} (hL : ([.cut] : List Part) ⊆ L) (hF : Alters L s0 s) :
    Alters L s0 (State.onCut s f) := by
  have m_cut : Part.cut ∈ L := hL (by decide)
  delta State.onCut
  repeat (any_goals first
    | with_reducible assumption
    | exact List.Subset.trans (by decide) hL
    | simp only [frame_mk_cut m_cut])

theorem frame_State_onTables {L : List Part} {s0 s : State} {f : Tables → Tables} (hL : ([.tables] : List Part) ⊆ L) (hF : Alters L s0 s) :
    Alters L s0 (State.onTables s f) := by
  have m_tables : Part.tables ∈ L := hL (by decide)
  delta State.onTables
  repeat (any_goals first
    | with_reducible assumption
    | exact List.Subset.trans (by decide) hL
    | simp only [frame_mk_tables m_tables])

theorem frame_State_onQueues {L : List Part} {s0 s : State} {f : Queues → Queues} (hL : ([.queues] : List Part) ⊆ L) (hF : Alters L s0 s) :
    Alters L s0 (State.onQueues s f) := by
  have m_queues : Part.queues ∈ L := hL (by decide)
  delta State.onQueues
  repeat (any_goals first
    | with_reducible assumption
    | exact List.Subset.trans (by decide) hL
    | simp only [frame_mk_queues m_queues])

theorem frame_State_onMem {L : List Part} {s0 s : State} {f : Memory → Memory} (hL : ([.mem] : List Part) ⊆ L) (hF : Alters L s0 s) :
    Alters L s0 (State.onMem s f) := by
  have m_mem : Part.mem ∈ L := hL (by decide)
  delta State.onMem
  repeat (any_goals first
    | with_reducible assumption
    | exact List.Subset.trans (by decide) hL
    | simp only [frame_mk_mem m_mem])

theorem frame_State_onEngine {L : List Part} {s0 s : State} {f : Engine → Engine} (hL : ([.engine] : List Part) ⊆ L) (hF : Alters L s0 s) :
    Alters L s0 (State.onEngine s f) := by
  have m_engine : Part.engine ∈ L := hL (by decide)
  delta State.onEngine
  repeat (any_goals first
    | with_reducible assumption
    | exact List.Subset.trans (by decide) hL
    | simp only [frame_mk_engine m_engine])

theorem frame_State_onVault {L : List Part} {s0 s : State} {f : Vault → Vault} (hL : ([.vault] : List Part) ⊆ L) (hF : Alters L s0 s) :
    Alters L s0 (State.onVault s f) := by
  have m_vault : Part.vault ∈ L := hL (by decide)
  delta State.onVault
  repeat (any_goals first
    | with_reducible assumption
    | exact List.Subset.trans (by decide) hL
    | simp only [frame_mk_vault m_vault])

theorem frame_State_onSeat {L : List Part} {s0 s : State} {f : SeatState → SeatState} (hL : ([.seat] : List Part) ⊆ L) (hF : Alters L s0 s) :
    Alters L s0 (State.onSeat s f) := by
  have m_seat : Part.seat ∈ L := hL (by decide)
  delta State.onSeat
  repeat (any_goals first
    | with_reducible assumption
    | exact List.Subset.trans (by decide) hL
    | simp only [frame_mk_seat m_seat])

theorem frame_State_onEvents {L : List Part} {s0 s : State} {f : Events → Events} (hL : ([.events] : List Part) ⊆ L) (hF : Alters L s0 s) :
    Alters L s0 (State.onEvents s f) := by
  have m_events : Part.events ∈ L := hL (by decide)
  delta State.onEvents
  repeat (any_goals first
    | with_reducible assumption
    | exact List.Subset.trans (by decide) hL
    | simp only [frame_mk_events m_events])

theorem frame_State_onDebug {L : List Part} {s0 s : State} {f : Debug → Debug} (hL : ([.dbg] : List Part) ⊆ L) (hF : Alters L s0 s) :
    Alters L s0 (State.onDebug s f) := by
  have m_dbg : Part.dbg ∈ L := hL (by decide)
  delta State.onDebug
  repeat (any_goals first
    | with_reducible assumption
    | exact List.Subset.trans (by decide) hL
    | simp only [frame_mk_dbg m_dbg])

theorem frame_State_onAnnounce {L : List Part} {s0 s : State} {f : Announce → Announce} (hL : ([.announce] : List Part) ⊆ L) (hF : Alters L s0 s) :
    Alters L s0 (State.onAnnounce s f) := by
  have m_announce : Part.announce ∈ L := hL (by decide)
  delta State.onAnnounce
  repeat (any_goals first
    | with_reducible assumption
    | exact List.Subset.trans (by decide) hL
    | simp only [frame_mk_announce m_announce])

theorem frame_State_onPort {L : List Part} {s0 s : State} {p : Port} {f : PortState → PortState} (hL : ([.portA, .portB] : List Part) ⊆ L) (hF : Alters L s0 s) :
    Alters L s0 (State.onPort s p f) := by
  have m_portA : Part.portA ∈ L := hL (by decide)
  have m_portB : Part.portB ∈ L := hL (by decide)
  delta State.onPort
  repeat (any_goals first
    | with_reducible assumption
    | exact List.Subset.trans (by decide) hL
    | split
    | simp only [frame_mk_portA m_portA]
    | simp only [frame_mk_portB m_portB])

theorem frame_State_onPipe {L : List Part} {s0 s : State} {p : Port} {f : Pipe → Pipe} (hL : ([.tables] : List Part) ⊆ L) (hF : Alters L s0 s) :
    Alters L s0 (State.onPipe s p f) := by
  delta State.onPipe
  repeat (any_goals first
    | with_reducible assumption
    | exact List.Subset.trans (by decide) hL
    | split
    | with_reducible refine frame_State_onTables ?_ ?_)

theorem frame_State_onChan {L : List Part} {s0 s : State} {n : Fin 24} {f : Chan → Chan} (hL : ([.chans] : List Part) ⊆ L) (hF : Alters L s0 s) :
    Alters L s0 (State.onChan s n f) := by
  have m_chans : Part.chans ∈ L := hL (by decide)
  delta State.onChan
  repeat (any_goals first
    | with_reducible assumption
    | exact List.Subset.trans (by decide) hL
    | simp only [frame_mk_chans m_chans])

theorem frame_State_mapChans {L : List Part} {s0 s : State} {f : Fin 24 → Chan → Chan} (hL : ([.chans] : List Part) ⊆ L) (hF : Alters L s0 s) :
    Alters L s0 (State.mapChans s f) := by
  have m_chans : Part.chans ∈ L := hL (by decide)
  delta State.mapChans
  repeat (any_goals first
    | with_reducible assumption
    | exact List.Subset.trans (by decide) hL
    | simp only [frame_mk_chans m_chans])

theorem frame_State_onHand {L : List Part} {s0 s : State} {h : Fin 16} {f : Hand → Hand} (hL : ([.hands] : List Part) ⊆ L) (hF : Alters L s0 s) :
    Alters L s0 (State.onHand s h f) := by
  have m_hands : Part.hands ∈ L := hL (by decide)
  delta State.onHand
  repeat (any_goals first
    | with_reducible assumption
    | exact List.Subset.trans (by decide) hL
    | simp only [frame_mk_hands m_hands])

theorem frame_State_draw {L : List Part} {s0 s : State}  (hL : ([.free] : List Part) ⊆ L) (hF : Alters L s0 s) :
    Alters L s0 (State.draw s).2 := by
  have m_free : Part.free ∈ L := hL (by decide)
  delta State.draw
  repeat (any_goals first
    | with_reducible assumption
    | exact List.Subset.trans (by decide) hL
    | simp only [frame_mk_free m_free]
    | dsimp only)

theorem frame_State_drawN {L : List Part} {s0 s : State} {n : Nat} (hL : ([.free] : List Part) ⊆ L) (hF : Alters L s0 s) :
    Alters L s0 (s.drawN n).2 := by
  induction n generalizing s with
  | zero => exact hF
  | succ n ih => exact ih (frame_State_draw hL hF)

theorem frame_bump {L : List Part} {s0 s : State} {src : Nat} {obj : Nat} {code : Nat} (hL : ([.counters] : List Part) ⊆ L) (hF : Alters L s0 s) :
    Alters L s0 (bump s src obj code) := by
  have m_counters : Part.counters ∈ L := hL (by decide)
  delta bump
  repeat (any_goals first
    | with_reducible assumption
    | exact List.Subset.trans (by decide) hL
    | (extract_lets +onlyGivenNames x; refine (have hx : Alters L s0 x := ?_; ?_); (on_goal 1 => subst x); (on_goal 2 => clear_value x))
    | (extract_lets +onlyGivenNames x; clear_value x)
    | split
    | simp only [frame_mk_counters m_counters])

theorem frame_clearCounters {L : List Part} {s0 s : State} {src : Nat} (hL : ([.counters] : List Part) ⊆ L) (hF : Alters L s0 s) :
    Alters L s0 (clearCounters s src) := by
  have m_counters : Part.counters ∈ L := hL (by decide)
  delta clearCounters
  repeat (any_goals first
    | with_reducible assumption
    | exact List.Subset.trans (by decide) hL
    | simp only [frame_mk_counters m_counters])

theorem frame_pushEvent {L : List Part} {s0 s : State} {code : Nat} {src : Nat} {owner : Option Nat} {clear : Bool} {rpt : Nat} {detail : List Byte} (hL : ([.events] : List Part) ⊆ L) (hF : Alters L s0 s) :
    Alters L s0 (pushEvent s code src owner clear rpt detail) := by
  delta pushEvent
  repeat (any_goals first
    | with_reducible assumption
    | exact List.Subset.trans (by decide) hL
    | (extract_lets +onlyGivenNames x; refine (have hx : Alters L s0 x := ?_; ?_); (on_goal 1 => subst x); (on_goal 2 => clear_value x))
    | (extract_lets +onlyGivenNames x; clear_value x)
    | with_reducible refine frame_State_onEvents ?_ ?_)

theorem frame_raiseCounting {L : List Part} {s0 s : State} {code : Nat} {src : Nat} {obj : Nat} {owner : Option Nat} {detail : List Byte} (hL : ([.events] : List Part) ⊆ L) (hF : Alters L s0 s) :
    Alters L s0 (raiseCounting s code src obj owner detail) := by
  delta raiseCounting
  repeat (any_goals first
    | with_reducible assumption
    | exact List.Subset.trans (by decide) hL
    | (extract_lets +onlyGivenNames x; refine (have hx : Alters L s0 x := ?_; ?_); (on_goal 1 => subst x); (on_goal 2 => clear_value x))
    | (extract_lets +onlyGivenNames x; clear_value x)
    | split
    | with_reducible refine frame_pushEvent ?_ ?_
    | with_reducible refine frame_State_onEvents ?_ ?_)

theorem frame_raiseLatching {L : List Part} {s0 s : State} {code : Nat} {src : Nat} {obj : Nat} {owner : Option Nat} {detail : List Byte} (hL : ([.events] : List Part) ⊆ L) (hF : Alters L s0 s) :
    Alters L s0 (raiseLatching s code src obj owner detail) := by
  delta raiseLatching
  repeat (any_goals first
    | with_reducible assumption
    | exact List.Subset.trans (by decide) hL
    | split
    | with_reducible refine frame_pushEvent ?_ ?_
    | with_reducible refine frame_State_onEvents ?_ ?_)

theorem frame_clearLatching {L : List Part} {s0 s : State} {code : Nat} {src : Nat} {obj : Nat} {detail : List Byte} (hL : ([.events] : List Part) ⊆ L) (hF : Alters L s0 s) :
    Alters L s0 (clearLatching s code src obj detail) := by
  delta clearLatching
  repeat (any_goals first
    | with_reducible assumption
    | exact List.Subset.trans (by decide) hL
    | split
    | with_reducible refine frame_State_onEvents ?_ ?_
    | with_reducible refine frame_pushEvent ?_ ?_)

theorem frame_raise {L : List Part} {s0 s : State} {code : Nat} {src : Nat} {detail : List Byte} {obj : Nat} {owner : Option Nat} (hL : ([.events] : List Part) ⊆ L) (hF : Alters L s0 s) :
    Alters L s0 (raise s code src detail obj owner) := by
  delta raise
  repeat (any_goals first
    | with_reducible assumption
    | exact List.Subset.trans (by decide) hL
    | split
    | with_reducible refine frame_raiseLatching ?_ ?_
    | with_reducible refine frame_raiseCounting ?_ ?_
    | with_reducible refine frame_pushEvent ?_ ?_)

theorem frame_countPort {L : List Part} {s0 s : State} {p : Port} {code : Nat} (hL : ([.events, .counters] : List Part) ⊆ L) (hF : Alters L s0 s) :
    Alters L s0 (countPort s p code) := by
  delta countPort
  repeat (any_goals first
    | with_reducible assumption
    | exact List.Subset.trans (by decide) hL
    | (extract_lets +onlyGivenNames x; refine (have hx : Alters L s0 x := ?_; ?_); (on_goal 1 => subst x); (on_goal 2 => clear_value x))
    | (extract_lets +onlyGivenNames x; clear_value x)
    | split
    | with_reducible refine frame_bump ?_ ?_
    | with_reducible refine frame_raise ?_ ?_)

theorem frame_countPipe {L : List Part} {s0 s : State} {p : Port} {code : Nat} (hL : ([.events, .counters] : List Part) ⊆ L) (hF : Alters L s0 s) :
    Alters L s0 (countPipe s p code) := by
  delta countPipe
  repeat (any_goals first
    | with_reducible assumption
    | exact List.Subset.trans (by decide) hL
    | (extract_lets +onlyGivenNames x; refine (have hx : Alters L s0 x := ?_; ?_); (on_goal 1 => subst x); (on_goal 2 => clear_value x))
    | (extract_lets +onlyGivenNames x; clear_value x)
    | with_reducible refine frame_bump ?_ ?_
    | with_reducible refine frame_raise ?_ ?_)

theorem frame_countCmd {L : List Part} {s0 s : State} {code : Nat} (hL : ([.events, .counters] : List Part) ⊆ L) (hF : Alters L s0 s) :
    Alters L s0 (countCmd s code) := by
  delta countCmd
  repeat (any_goals first
    | with_reducible assumption
    | exact List.Subset.trans (by decide) hL
    | (extract_lets +onlyGivenNames x; refine (have hx : Alters L s0 x := ?_; ?_); (on_goal 1 => subst x); (on_goal 2 => clear_value x))
    | (extract_lets +onlyGivenNames x; clear_value x)
    | with_reducible refine frame_bump ?_ ?_
    | with_reducible refine frame_raise ?_ ?_)

theorem frame_bankNow {L : List Part} {s0 s : State} {n : Fin 24} (hL : ([.chans] : List Part) ⊆ L) (hF : Alters L s0 s) :
    Alters L s0 (bankNow s n) := by
  delta bankNow
  repeat (any_goals first
    | with_reducible assumption
    | exact List.Subset.trans (by decide) hL
    | with_reducible refine frame_State_onChan ?_ ?_)

theorem frame_bankNowAll {L : List Part} {s0 s : State}  (hL : ([.chans] : List Part) ⊆ L) (hF : Alters L s0 s) :
    Alters L s0 (bankNowAll s) := by
  delta bankNowAll
  repeat (any_goals first
    | with_reducible assumption
    | exact List.Subset.trans (by decide) hL
    | split
    | with_reducible refine frame_State_mapChans ?_ ?_)

theorem frame_stepCount {L : List Part} {s0 s : State} {kind : BitVec 2} {unit : Nat} (hL : ([.dbg] : List Part) ⊆ L) (hF : Alters L s0 s) :
    Alters L s0 (stepCount s kind unit) := by
  delta stepCount
  repeat (any_goals first
    | with_reducible assumption
    | exact List.Subset.trans (by decide) hL
    | split
    | with_reducible refine frame_State_onDebug ?_ ?_)

theorem frame_idleTick {L : List Part} {s0 s : State}  (hL : ([.tiers, .clock] : List Part) ⊆ L) (hF : Alters L s0 s) :
    Alters L s0 (idleTick s) := by
  have m_tiers : Part.tiers ∈ L := hL (by decide)
  delta idleTick
  repeat (any_goals first
    | with_reducible assumption
    | exact List.Subset.trans (by decide) hL
    | (extract_lets +onlyGivenNames x; refine (have hx : Alters L s0 x := ?_; ?_); (on_goal 1 => subst x); (on_goal 2 => clear_value x))
    | (extract_lets +onlyGivenNames x; clear_value x)
    | split
    | with_reducible refine frame_State_onClock ?_ ?_
    | simp only [frame_mk_tiers m_tiers])

end Sys2Proof.Laws
end

