-- ==== Sys2Proof/Laws/FrameTables.lean ====
section
/-! SUPPORT. What each operation of Machine/Tables.lean may change: the parts of the state it names, and nothing else. -/

namespace Sys2Proof.Laws

open Sys2Proof Sys2Proof.Machine Sys2Proof.Safety

set_option linter.unusedTactic false
set_option linter.unreachableTactic false
set_option linter.unusedVariables false

theorem frame_setStreamEntry {L : List Part} {s0 s : State} {sid : Nat} {e : Entry} (hL : ([.tables, .mem] : List Part) ⊆ L) (hF : Alters L s0 s) :
    Alters L s0 (setStreamEntry s sid e) := by
  delta setStreamEntry
  repeat (any_goals first
    | with_reducible assumption
    | exact List.Subset.trans (by decide) hL
    | with_reducible refine frame_State_onMem ?_ ?_
    | with_reducible refine frame_State_onTables ?_ ?_)

theorem frame_setHash {L : List Part} {s0 s : State} {p : Port} {l : HLoc} {e : Entry} (hL : ([.tables, .mem] : List Part) ⊆ L) (hF : Alters L s0 s) :
    Alters L s0 (setHash s p l e) := by
  delta setHash
  repeat (any_goals first
    | with_reducible assumption
    | exact List.Subset.trans (by decide) hL
    | split
    | with_reducible refine frame_State_onMem ?_ ?_
    | with_reducible refine frame_State_onPipe ?_ ?_)

theorem frame_hashPlace {L : List Part} {s0 s : State} {p : Port} {b : Nat} (hL : ([.free] : List Part) ⊆ L) (hF : Alters L s0 s) :
    Alters L s0 (hashPlace s p b).2 := by
  delta hashPlace
  repeat (any_goals first
    | with_reducible assumption
    | exact List.Subset.trans (by decide) hL
    | (extract_lets +onlyGivenNames x; refine (have hx : Alters L s0 x := ?_; ?_); (on_goal 1 => subst x); (on_goal 2 => clear_value x))
    | (extract_lets +onlyGivenNames x; refine (have hx : Alters L s0 x.2 := ?_; ?_); (on_goal 1 => subst x); (on_goal 2 => clear_value x))
    | (extract_lets +onlyGivenNames x; clear_value x)
    | split
    | with_reducible refine frame_State_draw ?_ ?_
    | refine frame_pair (by with_reducible assumption) ?_
    | dsimp only)

theorem frame_countLearned {L : List Part} {s0 s : State} {p : Port} {d : Int} (hL : ([.tables] : List Part) ⊆ L) (hF : Alters L s0 s) :
    Alters L s0 (countLearned s p d) := by
  delta countLearned
  repeat (any_goals first
    | with_reducible assumption
    | exact List.Subset.trans (by decide) hL
    | with_reducible refine frame_State_onPipe ?_ ?_)

theorem frame_learn {L : List Part} {s0 s : State} {p : Port} {tag : Nat} (hL : ([.free, .tables, .mem, .events, .counters] : List Part) ⊆ L) (hF : Alters L s0 s) :
    Alters L s0 (learn s p tag) := by
  delta learn
  repeat (any_goals first
    | with_reducible assumption
    | exact List.Subset.trans (by decide) hL
    | (extract_lets +onlyGivenNames x; refine (have hx : Alters L s0 x := ?_; ?_); (on_goal 1 => subst x); (on_goal 2 => clear_value x))
    | (extract_lets +onlyGivenNames x; refine (have hx : Alters L s0 x.2 := ?_; ?_); (on_goal 1 => subst x); (on_goal 2 => clear_value x))
    | (extract_lets +onlyGivenNames x; clear_value x)
    | split
    | with_reducible refine frame_setHash ?_ ?_
    | with_reducible refine frame_countPipe ?_ ?_
    | with_reducible refine frame_hashPlace ?_ ?_
    | with_reducible refine frame_countLearned ?_ ?_
    | refine frame_pair (by with_reducible assumption) ?_
    | dsimp only)

theorem frame_policerCharge {L : List Part} {s0 s : State} {p : Port} {i : Nat} {cost : Nat} (hL : ([.tables, .events] : List Part) ⊆ L) (hF : Alters L s0 s) :
    Alters L s0 (policerCharge s p i cost).2 := by
  delta policerCharge
  repeat (any_goals first
    | with_reducible assumption
    | exact List.Subset.trans (by decide) hL
    | (extract_lets +onlyGivenNames x; refine (have hx : Alters L s0 x := ?_; ?_); (on_goal 1 => subst x); (on_goal 2 => clear_value x))
    | (extract_lets +onlyGivenNames x; refine (have hx : Alters L s0 x.2 := ?_; ?_); (on_goal 1 => subst x); (on_goal 2 => clear_value x))
    | (extract_lets +onlyGivenNames x; clear_value x)
    | split
    | with_reducible refine frame_State_onTables ?_ ?_
    | with_reducible refine frame_raise ?_ ?_
    | dsimp only)

theorem frame_invertEpoch {L : List Part} {s0 s : State} {why : InvWhy} (hL : ([.tables] : List Part) ⊆ L) (hF : Alters L s0 s) :
    Alters L s0 (invertEpoch s why) := by
  delta invertEpoch
  repeat (any_goals first
    | with_reducible assumption
    | exact List.Subset.trans (by decide) hL
    | split
    | with_reducible refine frame_State_onTables ?_ ?_)

theorem frame_topologyFlushDue {L : List Part} {s0 s : State}  (hL : ([.tables] : List Part) ⊆ L) (hF : Alters L s0 s) :
    Alters L s0 (topologyFlushDue s) := by
  delta topologyFlushDue
  repeat (any_goals first
    | with_reducible assumption
    | exact List.Subset.trans (by decide) hL
    | with_reducible refine frame_State_onTables ?_ ?_)

end Sys2Proof.Laws
end

