-- ==== Sys2Proof/Laws/FrameQueues.lean ====
section
/-! SUPPORT. What each operation of Machine/Queues.lean may change: the parts of the state it names, and nothing else. -/

namespace Sys2Proof.Laws

open Sys2Proof Sys2Proof.Machine Sys2Proof.Safety

set_option linter.unusedTactic false
set_option linter.unreachableTactic false
set_option linter.unusedVariables false

theorem frame_setQSet {L : List Part} {s0 s : State} {q : Nat} {v : QSet} (hL : ([.queues] : List Part) ⊆ L) (hF : Alters L s0 s) :
    Alters L s0 (setQSet s q v) := by
  delta setQSet
  repeat (any_goals first
    | with_reducible assumption
    | exact List.Subset.trans (by decide) hL
    | split
    | with_reducible refine frame_State_onQueues ?_ ?_)

theorem frame_setQFrames {L : List Part} {s0 s : State} {q : Nat} {l : List QFrame} (hL : ([.queues] : List Part) ⊆ L) (hF : Alters L s0 s) :
    Alters L s0 (setQFrames s q l) := by
  delta setQFrames
  repeat (any_goals first
    | with_reducible assumption
    | exact List.Subset.trans (by decide) hL
    | split
    | with_reducible refine frame_State_onQueues ?_ ?_)

theorem frame_countHand {L : List Part} {s0 s : State} {h : Fin 16} {code : Nat} (hL : ([.events, .counters] : List Part) ⊆ L) (hF : Alters L s0 s) :
    Alters L s0 (countHand s h code) := by
  delta countHand
  repeat (any_goals first
    | with_reducible assumption
    | exact List.Subset.trans (by decide) hL
    | (extract_lets +onlyGivenNames x; refine (have hx : Alters L s0 x := ?_; ?_); (on_goal 1 => subst x); (on_goal 2 => clear_value x))
    | (extract_lets +onlyGivenNames x; clear_value x)
    | split
    | with_reducible refine frame_bump ?_ ?_
    | with_reducible refine frame_raise ?_ ?_)

theorem frame_handFault {L : List Part} {s0 s : State} {h : Fin 16} {code : Nat} (hL : ([.hands, .events, .counters] : List Part) ⊆ L) (hF : Alters L s0 s) :
    Alters L s0 (handFault s h code) := by
  delta handFault
  repeat (any_goals first
    | with_reducible assumption
    | exact List.Subset.trans (by decide) hL
    | (extract_lets +onlyGivenNames x; refine (have hx : Alters L s0 x := ?_; ?_); (on_goal 1 => subst x); (on_goal 2 => clear_value x))
    | (extract_lets +onlyGivenNames x; clear_value x)
    | split
    | with_reducible refine frame_countHand ?_ ?_
    | with_reducible refine frame_raise ?_ ?_
    | with_reducible refine frame_State_onHand ?_ ?_)

theorem frame_quotaRefusal {L : List Part} {s0 s : State} {h : Fin 16} (hL : ([.hands, .events, .counters] : List Part) ⊆ L) (hF : Alters L s0 s) :
    Alters L s0 (quotaRefusal s h) := by
  delta quotaRefusal
  repeat (any_goals first
    | with_reducible assumption
    | exact List.Subset.trans (by decide) hL
    | (extract_lets +onlyGivenNames x; refine (have hx : Alters L s0 x := ?_; ?_); (on_goal 1 => subst x); (on_goal 2 => clear_value x))
    | (extract_lets +onlyGivenNames x; clear_value x)
    | split
    | with_reducible refine frame_handFault ?_ ?_
    | with_reducible refine frame_State_onHand ?_ ?_
    | with_reducible refine frame_raise ?_ ?_)

theorem frame_mkQFrame {L : List Part} {s0 s : State} {hdr : Header} {payload : List Byte} {sid : Nat} (hL : ([.free] : List Part) ⊆ L) (hF : Alters L s0 s) :
    Alters L s0 (mkQFrame s hdr payload sid).2 := by
  delta mkQFrame
  repeat (any_goals first
    | with_reducible assumption
    | exact List.Subset.trans (by decide) hL
    | (extract_lets +onlyGivenNames x; refine (have hx : Alters L s0 x := ?_; ?_); (on_goal 1 => subst x); (on_goal 2 => clear_value x))
    | (extract_lets +onlyGivenNames x; refine (have hx : Alters L s0 x.2 := ?_; ?_); (on_goal 1 => subst x); (on_goal 2 => clear_value x))
    | (extract_lets +onlyGivenNames x; clear_value x)
    | with_reducible refine frame_State_draw ?_ ?_
    | dsimp only)

theorem frame_enqueueHand {L : List Part} {s0 s : State} {q : Nat} {f : QFrame} (hL : ([.queues, .hands, .events, .counters] : List Part) ⊆ L) (hF : Alters L s0 s) :
    Alters L s0 (enqueueHand s q f).2 := by
  delta enqueueHand
  repeat (any_goals first
    | with_reducible assumption
    | exact List.Subset.trans (by decide) hL
    | (extract_lets +onlyGivenNames x; refine (have hx : Alters L s0 x := ?_; ?_); (on_goal 1 => subst x); (on_goal 2 => clear_value x))
    | (extract_lets +onlyGivenNames x; refine (have hx : Alters L s0 x.2 := ?_; ?_); (on_goal 1 => subst x); (on_goal 2 => clear_value x))
    | (extract_lets +onlyGivenNames x; clear_value x)
    | split
    | with_reducible refine frame_quotaRefusal ?_ ?_
    | with_reducible refine frame_setQFrames ?_ ?_
    | refine frame_pair (by with_reducible assumption) ?_
    | dsimp only)

theorem frame_enqueueNode {L : List Part} {s0 s : State} {q : Nat} {f : QFrame} (hL : ([.queues] : List Part) ⊆ L) (hF : Alters L s0 s) :
    Alters L s0 (enqueueNode s q f) := by
  delta enqueueNode
  repeat (any_goals first
    | with_reducible assumption
    | exact List.Subset.trans (by decide) hL
    | (extract_lets +onlyGivenNames x; refine (have hx : Alters L s0 x := ?_; ?_); (on_goal 1 => subst x); (on_goal 2 => clear_value x))
    | (extract_lets +onlyGivenNames x; clear_value x)
    | split
    | with_reducible refine frame_setQFrames ?_ ?_
    | with_reducible refine frame_State_onQueues ?_ ?_)

theorem frame_flushQueue {L : List Part} {s0 s : State} {q : Nat} (hL : ([.queues] : List Part) ⊆ L) (hF : Alters L s0 s) :
    Alters L s0 (flushQueue s q) := by
  delta flushQueue
  repeat (any_goals first
    | with_reducible assumption
    | exact List.Subset.trans (by decide) hL
    | with_reducible refine frame_setQFrames ?_ ?_)

theorem frame_mapFrames {L : List Part} {s0 s : State} {g : Nat → QFrame → QFrame} (hL : ([.queues] : List Part) ⊆ L) (hF : Alters L s0 s) :
    Alters L s0 (mapFrames s g) := by
  delta mapFrames
  repeat (any_goals first
    | with_reducible assumption
    | exact List.Subset.trans (by decide) hL
    | with_reducible refine frame_State_onQueues ?_ ?_)

theorem frame_declineAll {L : List Part} {s0 s : State} {p : Port} (hL : ([.queues] : List Part) ⊆ L) (hF : Alters L s0 s) :
    Alters L s0 (declineAll s p) := by
  delta declineAll
  repeat (any_goals first
    | with_reducible assumption
    | exact List.Subset.trans (by decide) hL
    | split
    | with_reducible refine frame_mapFrames ?_ ?_)

theorem frame_fixedTake {L : List Part} {s0 s : State} {p : Port} {f : CmdFrame} (hL : ([.tables, .events, .counters] : List Part) ⊆ L) (hF : Alters L s0 s) :
    Alters L s0 (fixedTake s p f) := by
  delta fixedTake
  repeat (any_goals first
    | with_reducible assumption
    | exact List.Subset.trans (by decide) hL
    | split
    | with_reducible refine frame_State_onPipe ?_ ?_
    | with_reducible refine frame_countCmd ?_ ?_)

theorem frame_onStream {L : List Part} {s0 s : State} {sid : Nat} {f : Stream → Stream} (hL : ([.streams] : List Part) ⊆ L) (hF : Alters L s0 s) :
    Alters L s0 (onStream s sid f) := by
  have m_streams : Part.streams ∈ L := hL (by decide)
  delta onStream
  repeat (any_goals first
    | with_reducible assumption
    | exact List.Subset.trans (by decide) hL
    | split
    | simp only [frame_mk_streams m_streams])

theorem frame_buildStreamFrame {L : List Part} {s0 s : State} {x : Stream} {n : Nat} (hL : ([.free, .queues, .hands, .streams, .events, .counters] : List Part) ⊆ L) (hF : Alters L s0 s) :
    Alters L s0 (buildStreamFrame s x n) := by
  delta buildStreamFrame
  repeat (any_goals first
    | with_reducible assumption
    | exact List.Subset.trans (by decide) hL
    | (extract_lets +onlyGivenNames x; refine (have hx : Alters L s0 x := ?_; ?_); (on_goal 1 => subst x); (on_goal 2 => clear_value x))
    | (extract_lets +onlyGivenNames x; refine (have hx : Alters L s0 x.2 := ?_; ?_); (on_goal 1 => subst x); (on_goal 2 => clear_value x))
    | (extract_lets +onlyGivenNames x; clear_value x)
    | split
    | with_reducible refine frame_mkQFrame ?_ ?_
    | with_reducible refine frame_enqueueHand ?_ ?_
    | with_reducible refine frame_onStream ?_ ?_
    | dsimp only)

theorem frame_closeStream {L : List Part} {s0 s : State} {sid : Nat} (hL : ([.free, .queues, .hands, .streams, .events, .counters] : List Part) ⊆ L) (hF : Alters L s0 s) :
    Alters L s0 (closeStream s sid) := by
  delta closeStream
  repeat (any_goals first
    | with_reducible assumption
    | exact List.Subset.trans (by decide) hL
    | (extract_lets +onlyGivenNames x; refine (have hx : Alters L s0 x := ?_; ?_); (on_goal 1 => subst x); (on_goal 2 => clear_value x))
    | (extract_lets +onlyGivenNames x; clear_value x)
    | split
    | with_reducible refine frame_onStream ?_ ?_
    | with_reducible refine frame_buildStreamFrame ?_ ?_)

theorem frame_closeStreamEvent {L : List Part} {s0 s : State} {sid : Nat} {cause : Nat} {ch : Nat} (hL : ([.free, .queues, .hands, .streams, .events, .counters] : List Part) ⊆ L) (hF : Alters L s0 s) :
    Alters L s0 (closeStreamEvent s sid cause ch) := by
  delta closeStreamEvent
  repeat (any_goals first
    | with_reducible assumption
    | exact List.Subset.trans (by decide) hL
    | (extract_lets +onlyGivenNames x; refine (have hx : Alters L s0 x := ?_; ?_); (on_goal 1 => subst x); (on_goal 2 => clear_value x))
    | (extract_lets +onlyGivenNames x; clear_value x)
    | split
    | with_reducible refine frame_closeStream ?_ ?_
    | with_reducible refine frame_raise ?_ ?_)

theorem frame_closeAllStreams {L : List Part} {s0 s : State} {cause : Nat} (hL : ([.free, .queues, .hands, .streams, .events, .counters] : List Part) ⊆ L) (hF : Alters L s0 s) :
    Alters L s0 (closeAllStreams s cause) := by
  delta closeAllStreams
  repeat (any_goals first
    | with_reducible assumption
    | exact List.Subset.trans (by decide) hL
    | (intro a x hx; beta_reduce)
    | (intro x hx; beta_reduce)
    | with_reducible refine frame_each ?_ ?_
    | with_reducible refine frame_closeStreamEvent ?_ ?_)

theorem frame_freeGrids {L : List Part} {s0 s : State}  (hL : ([.chans] : List Part) ⊆ L) (hF : Alters L s0 s) :
    Alters L s0 (freeGrids s) := by
  delta freeGrids
  repeat (any_goals first
    | with_reducible assumption
    | exact List.Subset.trans (by decide) hL
    | split
    | with_reducible refine frame_State_mapChans ?_ ?_)

theorem frame_setEventHead {L : List Part} {s0 s : State} {k : Nat} {head : Nat} {count : Nat} (hL : ([.queues, .hands] : List Part) ⊆ L) (hF : Alters L s0 s) :
    Alters L s0 (setEventHead s k head count) := by
  delta setEventHead
  repeat (any_goals first
    | with_reducible assumption
    | exact List.Subset.trans (by decide) hL
    | split
    | with_reducible refine frame_State_onHand ?_ ?_
    | with_reducible refine frame_State_onQueues ?_ ?_)

theorem frame_pushRecord {L : List Part} {s0 s : State} {k : Nat} {r : List Byte} (hL : ([.queues, .hands, .mem] : List Part) ⊆ L) (hF : Alters L s0 s) :
    Alters L s0 (pushRecord s k r) := by
  delta pushRecord
  repeat (any_goals first
    | with_reducible assumption
    | exact List.Subset.trans (by decide) hL
    | (extract_lets +onlyGivenNames x; refine (have hx : Alters L s0 x := ?_; ?_); (on_goal 1 => subst x); (on_goal 2 => clear_value x))
    | (extract_lets +onlyGivenNames x; clear_value x)
    | split
    | with_reducible refine frame_State_onMem ?_ ?_
    | with_reducible refine frame_setEventHead ?_ ?_)

theorem frame_loseEvent {L : List Part} {s0 s : State} {k : Nat} {n : Nat} (hL : ([.queues, .hands, .events, .counters] : List Part) ⊆ L) (hF : Alters L s0 s) :
    Alters L s0 (loseEvent s k n) := by
  delta loseEvent
  repeat (any_goals first
    | with_reducible assumption
    | exact List.Subset.trans (by decide) hL
    | (extract_lets +onlyGivenNames x; refine (have hx : Alters L s0 x := ?_; ?_); (on_goal 1 => subst x); (on_goal 2 => clear_value x))
    | (extract_lets +onlyGivenNames x; clear_value x)
    | split
    | with_reducible refine frame_State_onHand ?_ ?_
    | with_reducible refine frame_handFault ?_ ?_
    | with_reducible refine frame_bump ?_ ?_
    | with_reducible refine frame_State_onQueues ?_ ?_)

theorem frame_pushEventRecords {L : List Part} {s0 s : State} {k : Nat} {rs : List (List Byte)} (hL : ([.queues, .hands, .mem, .events, .counters] : List Part) ⊆ L) (hF : Alters L s0 s) :
    Alters L s0 (pushEventRecords s k rs) := by
  delta pushEventRecords
  repeat (any_goals first
    | with_reducible assumption
    | exact List.Subset.trans (by decide) hL
    | (intro a x hx; beta_reduce)
    | (intro x hx; beta_reduce)
    | split
    | with_reducible refine frame_each ?_ ?_
    | with_reducible refine frame_pushRecord ?_ ?_
    | with_reducible refine frame_loseEvent ?_ ?_)

theorem frame_placeLost {L : List Part} {s0 s : State} {k : Nat} (hL : ([.queues, .hands, .mem] : List Part) ⊆ L) (hF : Alters L s0 s) :
    Alters L s0 (placeLost s k) := by
  delta placeLost
  repeat (any_goals first
    | with_reducible assumption
    | exact List.Subset.trans (by decide) hL
    | (extract_lets +onlyGivenNames x; refine (have hx : Alters L s0 x := ?_; ?_); (on_goal 1 => subst x); (on_goal 2 => clear_value x))
    | (extract_lets +onlyGivenNames x; clear_value x)
    | split
    | with_reducible refine frame_pushRecord ?_ ?_
    | with_reducible refine frame_State_onHand ?_ ?_
    | with_reducible refine frame_State_onQueues ?_ ?_)

end Sys2Proof.Laws
end

