-- ==== Sys2Proof/Laws/FrameLinks.lean ====
section
/-! SUPPORT. What each operation of Machine/Links.lean may change: the parts of the state it names, and nothing else. -/

namespace Sys2Proof.Laws

open Sys2Proof Sys2Proof.Machine Sys2Proof.Safety

set_option linter.unusedTactic false
set_option linter.unreachableTactic false
set_option linter.unusedVariables false

theorem frame_sendLl {L : List Part} {s0 s : State} {p : Port} {kind : Nat} {body : List Byte} {at_ : Tick} (hL : ([.portA, .portB] : List Part) ⊆ L) (hF : Alters L s0 s) :
    Alters L s0 (sendLl s p kind body at_) := by
  delta sendLl
  repeat (any_goals first
    | with_reducible assumption
    | exact List.Subset.trans (by decide) hL
    | with_reducible refine frame_State_onPort ?_ ?_)

theorem frame_sendLc {L : List Part} {s0 s : State} {p : Port} {body : List Byte} (hL : ([.portA, .portB] : List Part) ⊆ L) (hF : Alters L s0 s) :
    Alters L s0 (sendLc s p body) := by
  delta sendLc
  repeat (any_goals first
    | with_reducible assumption
    | exact List.Subset.trans (by decide) hL
    | with_reducible refine frame_sendLl ?_ ?_)

theorem frame_badLc {L : List Part} {s0 s : State} {p : Port} (hL : ([.events, .counters] : List Part) ⊆ L) (hF : Alters L s0 s) :
    Alters L s0 (badLc s p) := by
  delta badLc
  repeat (any_goals first
    | with_reducible assumption
    | exact List.Subset.trans (by decide) hL
    | with_reducible refine frame_countPort ?_ ?_)

theorem frame_onOp {L : List Part} {s0 s : State} {handle : Nat} {f : Op → Op} (hL : ([.engine] : List Part) ⊆ L) (hF : Alters L s0 s) :
    Alters L s0 (onOp s handle f) := by
  delta onOp
  repeat (any_goals first
    | with_reducible assumption
    | exact List.Subset.trans (by decide) hL
    | split
    | with_reducible refine frame_State_onEngine ?_ ?_)

theorem frame_opEvent {L : List Part} {s0 s : State} {o : Op} (hL : ([.events] : List Part) ⊆ L) (hF : Alters L s0 s) :
    Alters L s0 (opEvent s o) := by
  delta opEvent
  repeat (any_goals first
    | with_reducible assumption
    | exact List.Subset.trans (by decide) hL
    | with_reducible refine frame_raise ?_ ?_)

theorem frame_opEnter {L : List Part} {s0 s : State} {handle : Nat} {st : OpState} {reason : Nat} (hL : ([.engine, .events] : List Part) ⊆ L) (hF : Alters L s0 s) :
    Alters L s0 (opEnter s handle st reason) := by
  delta opEnter
  repeat (any_goals first
    | with_reducible assumption
    | exact List.Subset.trans (by decide) hL
    | (extract_lets +onlyGivenNames x; refine (have hx : Alters L s0 x := ?_; ?_); (on_goal 1 => subst x); (on_goal 2 => clear_value x))
    | (extract_lets +onlyGivenNames x; clear_value x)
    | split
    | with_reducible refine frame_onOp ?_ ?_
    | with_reducible refine frame_opEvent ?_ ?_)

theorem frame_trimOps {L : List Part} {s0 s : State}  (hL : ([.engine] : List Part) ⊆ L) (hF : Alters L s0 s) :
    Alters L s0 (trimOps s) := by
  delta trimOps
  repeat (any_goals first
    | with_reducible assumption
    | exact List.Subset.trans (by decide) hL
    | (extract_lets +onlyGivenNames x; refine (have hx : Alters L s0 x := ?_; ?_); (on_goal 1 => subst x); (on_goal 2 => clear_value x))
    | (extract_lets +onlyGivenNames x; clear_value x)
    | split
    | with_reducible refine frame_State_onEngine ?_ ?_)

theorem frame_opEnd {L : List Part} {s0 s : State} {handle : Nat} {st : OpState} {reason : Nat} (hL : ([.engine, .events] : List Part) ⊆ L) (hF : Alters L s0 s) :
    Alters L s0 (opEnd s handle st reason) := by
  delta opEnd
  repeat (any_goals first
    | with_reducible assumption
    | exact List.Subset.trans (by decide) hL
    | with_reducible refine frame_trimOps ?_ ?_
    | with_reducible refine frame_opEnter ?_ ?_)

theorem frame_endSoundOps {L : List Part} {s0 s : State} {p : Port} {st : OpState} {reason : Nat} (hL : ([.engine, .events] : List Part) ⊆ L) (hF : Alters L s0 s) :
    Alters L s0 (endSoundOps s p st reason) := by
  delta endSoundOps
  repeat (any_goals first
    | with_reducible assumption
    | exact List.Subset.trans (by decide) hL
    | (intro a x hx; beta_reduce)
    | (intro x hx; beta_reduce)
    | split
    | with_reducible refine frame_each ?_ ?_
    | with_reducible refine frame_opEnd ?_ ?_
    | with_reducible refine frame_onOp ?_ ?_)

theorem frame_drawBelow {L : List Part} {s0 s : State} {n : Nat} (hL : ([.free] : List Part) ⊆ L) (hF : Alters L s0 s) :
    Alters L s0 (drawBelow s n).2 := by
  delta drawBelow
  repeat (any_goals first
    | with_reducible assumption
    | exact List.Subset.trans (by decide) hL
    | (extract_lets +onlyGivenNames x; refine (have hx : Alters L s0 x := ?_; ?_); (on_goal 1 => subst x); (on_goal 2 => clear_value x))
    | (extract_lets +onlyGivenNames x; refine (have hx : Alters L s0 x.2 := ?_; ?_); (on_goal 1 => subst x); (on_goal 2 => clear_value x))
    | (extract_lets +onlyGivenNames x; clear_value x)
    | split
    | with_reducible refine frame_State_draw ?_ ?_
    | dsimp only)

theorem frame_toUntrained {L : List Part} {s0 s : State} {p : Port} {retry : Tick} (hL : ([.portA, .portB] : List Part) ⊆ L) (hF : Alters L s0 s) :
    Alters L s0 (toUntrained s p retry) := by
  delta toUntrained
  repeat (any_goals first
    | with_reducible assumption
    | exact List.Subset.trans (by decide) hL
    | with_reducible refine frame_State_onPort ?_ ?_)

theorem frame_soundingMissed {L : List Part} {s0 s : State} {p : Port} {reason : Nat} (hL : ([.free, .portA, .portB, .engine, .events] : List Part) ⊆ L) (hF : Alters L s0 s) :
    Alters L s0 (soundingMissed s p reason) := by
  delta soundingMissed
  repeat (any_goals first
    | with_reducible assumption
    | exact List.Subset.trans (by decide) hL
    | (extract_lets +onlyGivenNames x; refine (have hx : Alters L s0 x := ?_; ?_); (on_goal 1 => subst x); (on_goal 2 => clear_value x))
    | (extract_lets +onlyGivenNames x; refine (have hx : Alters L s0 x.2 := ?_; ?_); (on_goal 1 => subst x); (on_goal 2 => clear_value x))
    | (extract_lets +onlyGivenNames x; clear_value x)
    | split
    | with_reducible refine frame_drawBelow ?_ ?_
    | with_reducible refine frame_toUntrained ?_ ?_
    | with_reducible refine frame_State_onPort ?_ ?_
    | with_reducible refine frame_endSoundOps ?_ ?_
    | with_reducible refine frame_raise ?_ ?_
    | dsimp only)

theorem frame_sendAbort {L : List Part} {s0 s : State} {p : Port} {reason : Nat} (hL : ([.portA, .portB] : List Part) ⊆ L) (hF : Alters L s0 s) :
    Alters L s0 (sendAbort s p reason) := by
  delta sendAbort
  repeat (any_goals first
    | with_reducible assumption
    | exact List.Subset.trans (by decide) hL
    | with_reducible refine frame_sendLc ?_ ?_)

theorem frame_leaveUp {L : List Part} {s0 s : State} {p : Port} (hL : ([.tables] : List Part) ⊆ L) (hF : Alters L s0 s) :
    Alters L s0 (leaveUp s p) := by
  delta leaveUp
  repeat (any_goals first
    | with_reducible assumption
    | exact List.Subset.trans (by decide) hL
    | split
    | with_reducible refine frame_topologyFlushDue ?_ ?_)

theorem frame_abortSounding {L : List Part} {s0 s : State} {p : Port} {reason : Nat} (hL : ([.portA, .portB] : List Part) ⊆ L) (hF : Alters L s0 s) :
    Alters L s0 (abortSounding s p reason) := by
  delta abortSounding
  repeat (any_goals first
    | with_reducible assumption
    | exact List.Subset.trans (by decide) hL
    | split
    | with_reducible refine frame_toUntrained ?_ ?_
    | with_reducible refine frame_sendAbort ?_ ?_)

theorem frame_resound {L : List Part} {s0 s : State} {p : Port} {reason : Nat} (hL : ([.portA, .portB, .tables] : List Part) ⊆ L) (hF : Alters L s0 s) :
    Alters L s0 (resound s p reason) := by
  delta resound
  repeat (any_goals first
    | with_reducible assumption
    | exact List.Subset.trans (by decide) hL
    | split
    | with_reducible refine frame_topologyFlushDue ?_ ?_
    | with_reducible refine frame_State_onPort ?_ ?_)

theorem frame_sendTable {L : List Part} {s0 s : State} {p : Port} {t : BitTable} {body : BitVec 16 → Bool → List Byte} (hL : ([.portA, .portB] : List Part) ⊆ L) (hF : Alters L s0 s) :
    Alters L s0 (sendTable s p t body) := by
  delta sendTable
  repeat (any_goals first
    | with_reducible assumption
    | exact List.Subset.trans (by decide) hL
    | (extract_lets +onlyGivenNames x; refine (have hx : Alters L s0 x := ?_; ?_); (on_goal 1 => subst x); (on_goal 2 => clear_value x))
    | (extract_lets +onlyGivenNames x; clear_value x)
    | with_reducible refine frame_State_onPort ?_ ?_
    | with_reducible refine frame_sendLc ?_ ?_)

theorem frame_marginTable {L : List Part} {s0 s : State} {p : Port} (hL : ([.portA, .portB, .tables] : List Part) ⊆ L) (hF : Alters L s0 s) :
    Alters L s0 (marginTable s p) := by
  delta marginTable
  repeat (any_goals first
    | with_reducible assumption
    | exact List.Subset.trans (by decide) hL
    | (extract_lets +onlyGivenNames x; refine (have hx : Alters L s0 x := ?_; ?_); (on_goal 1 => subst x); (on_goal 2 => clear_value x))
    | (extract_lets +onlyGivenNames x; clear_value x)
    | split
    | with_reducible refine frame_resound ?_ ?_
    | with_reducible refine frame_State_onPort ?_ ?_
    | with_reducible refine frame_sendTable ?_ ?_)

theorem frame_sendCut {L : List Part} {s0 s : State} {p : Port} {body : List Byte} (hL : ([.portA, .portB] : List Part) ⊆ L) (hF : Alters L s0 s) :
    Alters L s0 (sendCut s p body) := by
  delta sendCut
  repeat (any_goals first
    | with_reducible assumption
    | exact List.Subset.trans (by decide) hL
    | split
    | with_reducible refine frame_sendLl ?_ ?_)

theorem frame_breakApply {L : List Part} {s0 s : State}  (hL : ([.portA, .portB, .cut, .tables] : List Part) ⊆ L) (hF : Alters L s0 s) :
    Alters L s0 (breakApply s) := by
  delta breakApply
  repeat (any_goals first
    | with_reducible assumption
    | exact List.Subset.trans (by decide) hL
    | (extract_lets +onlyGivenNames x; refine (have hx : Alters L s0 x := ?_; ?_); (on_goal 1 => subst x); (on_goal 2 => clear_value x))
    | (extract_lets +onlyGivenNames x; clear_value x)
    | split
    | with_reducible refine frame_State_onPort ?_ ?_
    | with_reducible refine frame_State_onCut ?_ ?_
    | with_reducible refine frame_topologyFlushDue ?_ ?_)

theorem frame_breakSend {L : List Part} {s0 s : State} {p : Port} (hL : ([.portA, .portB, .cut, .tables] : List Part) ⊆ L) (hF : Alters L s0 s) :
    Alters L s0 (breakSend s p) := by
  delta breakSend
  repeat (any_goals first
    | with_reducible assumption
    | exact List.Subset.trans (by decide) hL
    | (extract_lets +onlyGivenNames x; refine (have hx : Alters L s0 x := ?_; ?_); (on_goal 1 => subst x); (on_goal 2 => clear_value x))
    | (extract_lets +onlyGivenNames x; clear_value x)
    | split
    | with_reducible refine frame_sendCut ?_ ?_
    | with_reducible refine frame_breakApply ?_ ?_
    | with_reducible refine frame_State_onCut ?_ ?_)

end Sys2Proof.Laws
end

