-- ==== Sys2Proof/Laws/FrameSessions.lean ====
section
/-! SUPPORT. What each operation of Machine/Sessions.lean may change: the parts of the state it names, and nothing else. -/

namespace Sys2Proof.Laws

open Sys2Proof Sys2Proof.Machine Sys2Proof.Safety

set_option linter.unusedTactic false
set_option linter.unreachableTactic false
set_option linter.unusedVariables false

theorem frame_closeSession {L : List Part} {s0 s : State} {cause : Nat} (hL : ([.events, .dbg] : List Part) ⊆ L) (hF : Alters L s0 s) :
    Alters L s0 (closeSession s cause) := by
  delta closeSession
  repeat (any_goals first
    | with_reducible assumption
    | exact List.Subset.trans (by decide) hL
    | (extract_lets +onlyGivenNames x; refine (have hx : Alters L s0 x := ?_; ?_); (on_goal 1 => subst x); (on_goal 2 => clear_value x))
    | (extract_lets +onlyGivenNames x; clear_value x)
    | split
    | with_reducible refine frame_State_onDebug ?_ ?_
    | with_reducible refine frame_raise ?_ ?_)

end Sys2Proof.Laws
end

