-- ==== Sys2Proof/Laws/FrameTrunk.lean ====
section
/-! SUPPORT. What each operation of Machine/Trunk.lean may change: the parts of the state it names, and nothing else. -/

namespace Sys2Proof.Laws

open Sys2Proof Sys2Proof.Machine Sys2Proof.Safety

set_option linter.unusedTactic false
set_option linter.unreachableTactic false
set_option linter.unusedVariables false

theorem frame_execPilotLock {L : List Part} {s0 s : State} {p : Port} (hL : ([.free, .portA, .portB, .events] : List Part) ⊆ L) (hF : Alters L s0 s) :
    Answers L s0 (execPilotLock p s) := by
  delta execPilotLock
  repeat (any_goals first
    | with_reducible assumption
    | exact List.Subset.trans (by decide) hL
    | (intro a x hx; beta_reduce)
    | (intro x hx; beta_reduce)
    | (extract_lets +onlyGivenNames x; refine (have hx : Alters L s0 x := ?_; ?_); (on_goal 1 => subst x); (on_goal 2 => clear_value x))
    | (extract_lets +onlyGivenNames x; refine (have hx : Alters L s0 x.2 := ?_; ?_); (on_goal 1 => subst x); (on_goal 2 => clear_value x))
    | (extract_lets +onlyGivenNames x; clear_value x)
    | refine answers_next ?_
    | with_reducible refine frame_whenDue ?_ ?_
    | with_reducible refine frame_drawBelow ?_ ?_
    | with_reducible refine frame_State_onPort ?_ ?_
    | with_reducible refine frame_clearLatching ?_ ?_
    | dsimp only)

theorem frame_execPilotsLost {L : List Part} {s0 s : State} {p : Port} (hL : ([.portA, .portB, .cut, .tables, .engine, .events] : List Part) ⊆ L) (hF : Alters L s0 s) :
    Answers L s0 (execPilotsLost p s) := by
  delta execPilotsLost
  repeat (any_goals first
    | with_reducible assumption
    | exact List.Subset.trans (by decide) hL
    | (intro a x hx; beta_reduce)
    | (intro x hx; beta_reduce)
    | (extract_lets +onlyGivenNames x; refine (have hx : Alters L s0 x := ?_; ?_); (on_goal 1 => subst x); (on_goal 2 => clear_value x))
    | (extract_lets +onlyGivenNames x; clear_value x)
    | refine answers_next ?_
    | with_reducible refine frame_whenDue ?_ ?_
    | with_reducible refine frame_leaveUp ?_ ?_
    | with_reducible refine frame_breakSend ?_ ?_
    | with_reducible refine frame_endSoundOps ?_ ?_
    | with_reducible refine frame_State_onPort ?_ ?_
    | with_reducible refine frame_raise ?_ ?_)

theorem frame_execLinkStart {L : List Part} {s0 s : State} {p : Port} (hL : ([.portA, .portB] : List Part) ⊆ L) (hF : Alters L s0 s) :
    Answers L s0 (execLinkStart p s) := by
  delta execLinkStart
  repeat (any_goals first
    | with_reducible assumption
    | exact List.Subset.trans (by decide) hL
    | (intro a x hx; beta_reduce)
    | (intro x hx; beta_reduce)
    | refine answers_next ?_
    | with_reducible refine frame_whenDue ?_ ?_
    | with_reducible refine frame_State_onPort ?_ ?_)

theorem frame_execTrainReqSend {L : List Part} {s0 s : State} {p : Port} (hL : ([.free, .portA, .portB] : List Part) ⊆ L) (hF : Alters L s0 s) :
    Answers L s0 (execTrainReqSend p s) := by
  delta execTrainReqSend
  repeat (any_goals first
    | with_reducible assumption
    | exact List.Subset.trans (by decide) hL
    | (intro a x hx; beta_reduce)
    | (intro x hx; beta_reduce)
    | (extract_lets +onlyGivenNames x; refine (have hx : Alters L s0 x := ?_; ?_); (on_goal 1 => subst x); (on_goal 2 => clear_value x))
    | (extract_lets +onlyGivenNames x; refine (have hx : Alters L s0 x.2 := ?_; ?_); (on_goal 1 => subst x); (on_goal 2 => clear_value x))
    | (extract_lets +onlyGivenNames x; clear_value x)
    | refine answers_next ?_
    | with_reducible refine frame_whenDue ?_ ?_
    | with_reducible refine frame_sendLc ?_ ?_
    | with_reducible refine frame_drawBelow ?_ ?_
    | with_reducible refine frame_State_onPort ?_ ?_
    | dsimp only)

theorem frame_identityClash {L : List Part} {s0 s : State} {p : Port} (hL : ([.portA, .portB, .engine, .events] : List Part) ⊆ L) (hF : Alters L s0 s) :
    Alters L s0 (identityClash s p) := by
  delta identityClash
  repeat (any_goals first
    | with_reducible assumption
    | exact List.Subset.trans (by decide) hL
    | (extract_lets +onlyGivenNames x; refine (have hx : Alters L s0 x := ?_; ?_); (on_goal 1 => subst x); (on_goal 2 => clear_value x))
    | (extract_lets +onlyGivenNames x; clear_value x)
    | with_reducible refine frame_toUntrained ?_ ?_
    | with_reducible refine frame_sendAbort ?_ ?_
    | with_reducible refine frame_State_onPort ?_ ?_
    | with_reducible refine frame_endSoundOps ?_ ?_
    | with_reducible refine frame_raise ?_ ?_)

theorem frame_startSounding {L : List Part} {s0 s : State} {p : Port} {initiator : Bool} {slot0 : Nat} (hL : ([.portA, .portB, .tables] : List Part) ⊆ L) (hF : Alters L s0 s) :
    Alters L s0 (startSounding s p initiator slot0) := by
  delta startSounding
  repeat (any_goals first
    | with_reducible assumption
    | exact List.Subset.trans (by decide) hL
    | with_reducible refine frame_leaveUp ?_ ?_
    | with_reducible refine frame_State_onPort ?_ ?_)

theorem frame_execTrainReq {L : List Part} {s0 s : State} {p : Port} {body : List Byte} (hL : ([.portA, .portB, .tables, .engine, .events, .counters] : List Part) ⊆ L) (hF : Alters L s0 s) :
    Answers L s0 (execTrainReq p body s) := by
  delta execTrainReq
  repeat (any_goals first
    | with_reducible assumption
    | exact List.Subset.trans (by decide) hL
    | (intro a x hx; beta_reduce)
    | (intro x hx; beta_reduce)
    | (extract_lets +onlyGivenNames x; refine (have hx : Alters L s0 x := ?_; ?_); (on_goal 1 => subst x); (on_goal 2 => clear_value x))
    | (extract_lets +onlyGivenNames x; clear_value x)
    | refine answers_next ?_
    | split
    | with_reducible refine frame_whenDue ?_ ?_
    | with_reducible refine frame_badLc ?_ ?_
    | with_reducible refine frame_identityClash ?_ ?_
    | with_reducible refine frame_sendLc ?_ ?_
    | with_reducible refine frame_startSounding ?_ ?_)

theorem frame_execTrainAck {L : List Part} {s0 s : State} {p : Port} {body : List Byte} (hL : ([.portA, .portB, .tables, .engine, .events, .counters] : List Part) ⊆ L) (hF : Alters L s0 s) :
    Answers L s0 (execTrainAck p body s) := by
  delta execTrainAck
  repeat (any_goals first
    | with_reducible assumption
    | exact List.Subset.trans (by decide) hL
    | (intro a x hx; beta_reduce)
    | (intro x hx; beta_reduce)
    | (extract_lets +onlyGivenNames x; refine (have hx : Alters L s0 x := ?_; ?_); (on_goal 1 => subst x); (on_goal 2 => clear_value x))
    | (extract_lets +onlyGivenNames x; clear_value x)
    | refine answers_next ?_
    | split
    | with_reducible refine frame_whenDue ?_ ?_
    | with_reducible refine frame_badLc ?_ ?_
    | with_reducible refine frame_identityClash ?_ ?_
    | with_reducible refine frame_startSounding ?_ ?_)

theorem frame_execSoundingSlot {L : List Part} {s0 s : State} {p : Port} {residualEcho : Nat} (hL : ([.portA, .portB, .events] : List Part) ⊆ L) (hF : Alters L s0 s) :
    Answers L s0 (execSoundingSlot p residualEcho s) := by
  delta execSoundingSlot
  repeat (any_goals first
    | with_reducible assumption
    | exact List.Subset.trans (by decide) hL
    | (intro a x hx; beta_reduce)
    | (intro x hx; beta_reduce)
    | (extract_lets +onlyGivenNames x; refine (have hx : Alters L s0 x := ?_; ?_); (on_goal 1 => subst x); (on_goal 2 => clear_value x))
    | (extract_lets +onlyGivenNames x; refine (have hx : ∀ y, Alters L s0 y → Alters L s0 (x y) := ?_; ?_); (on_goal 1 => subst x); (on_goal 2 => clear_value x))
    | (extract_lets +onlyGivenNames x; clear_value x)
    | refine answers_next ?_
    | split
    | with_reducible refine frame_whenDue ?_ ?_
    | with_reducible refine frame_raise ?_ ?_
    | with_reducible refine frame_sendLc ?_ ?_
    | with_reducible refine frame_State_onPort ?_ ?_
    | with_reducible apply_assumption
    | (intro v; beta_reduce))

theorem frame_setLinkD {L : List Part} {s0 s : State} {p : Port} {d : Int} (hL : ([.portA, .portB, .engine, .events] : List Part) ⊆ L) (hF : Alters L s0 s) :
    Alters L s0 (setLinkD s p d) := by
  delta setLinkD
  repeat (any_goals first
    | with_reducible assumption
    | exact List.Subset.trans (by decide) hL
    | (extract_lets +onlyGivenNames x; refine (have hx : Alters L s0 x := ?_; ?_); (on_goal 1 => subst x); (on_goal 2 => clear_value x))
    | (extract_lets +onlyGivenNames x; clear_value x)
    | split
    | with_reducible refine frame_State_onPort ?_ ?_
    | with_reducible refine frame_raise ?_ ?_
    | with_reducible refine frame_endSoundOps ?_ ?_
    | with_reducible refine frame_toUntrained ?_ ?_
    | with_reducible refine frame_clearLatching ?_ ?_)

theorem frame_execDelay {L : List Part} {s0 s : State} {p : Port} {body : List Byte} {a64 : Nat} (hL : ([.portA, .portB, .engine, .events, .counters] : List Part) ⊆ L) (hF : Alters L s0 s) :
    Answers L s0 (execDelay p body a64 s) := by
  delta execDelay
  repeat (any_goals first
    | with_reducible assumption
    | exact List.Subset.trans (by decide) hL
    | (extract_lets +onlyGivenNames x; refine (have hx : Alters L s0 x := ?_; ?_); (on_goal 1 => subst x); (on_goal 2 => clear_value x))
    | (extract_lets +onlyGivenNames x; clear_value x)
    | refine answers_next ?_
    | split
    | with_reducible refine frame_badLc ?_ ?_
    | with_reducible refine frame_State_onPort ?_ ?_
    | with_reducible refine frame_setLinkD ?_ ?_)

theorem frame_execSoundingTableSend {L : List Part} {s0 s : State} {p : Port} {snr : List Nat} (hL : ([.portA, .portB, .engine, .events] : List Part) ⊆ L) (hF : Alters L s0 s) :
    Answers L s0 (execSoundingTableSend p snr s) := by
  delta execSoundingTableSend
  repeat (any_goals first
    | with_reducible assumption
    | exact List.Subset.trans (by decide) hL
    | (intro a x hx; beta_reduce)
    | (intro x hx; beta_reduce)
    | (extract_lets +onlyGivenNames x; refine (have hx : Alters L s0 x := ?_; ?_); (on_goal 1 => subst x); (on_goal 2 => clear_value x))
    | (extract_lets +onlyGivenNames x; clear_value x)
    | refine answers_next ?_
    | split
    | with_reducible refine frame_whenDue ?_ ?_
    | with_reducible refine frame_State_onPort ?_ ?_
    | with_reducible refine frame_raise ?_ ?_
    | with_reducible refine frame_endSoundOps ?_ ?_
    | with_reducible refine frame_toUntrained ?_ ?_
    | with_reducible refine frame_clearLatching ?_ ?_
    | with_reducible refine frame_sendTable ?_ ?_)

theorem frame_execTable {L : List Part} {s0 s : State} {p : Port} {body : List Byte} (hL : ([.free, .portA, .portB, .engine, .events, .counters] : List Part) ⊆ L) (hF : Alters L s0 s) :
    Answers L s0 (execTable p body s) := by
  delta execTable
  repeat (any_goals first
    | with_reducible assumption
    | exact List.Subset.trans (by decide) hL
    | (extract_lets +onlyGivenNames x; refine (have hx : Alters L s0 x := ?_; ?_); (on_goal 1 => subst x); (on_goal 2 => clear_value x))
    | (extract_lets +onlyGivenNames x; clear_value x)
    | refine answers_next ?_
    | split
    | with_reducible refine frame_badLc ?_ ?_
    | with_reducible refine frame_sendLc ?_ ?_
    | with_reducible refine frame_sendAbort ?_ ?_
    | with_reducible refine frame_State_onPort ?_ ?_
    | with_reducible refine frame_soundingMissed ?_ ?_
    | with_reducible refine frame_raise ?_ ?_)

theorem frame_execTableAck {L : List Part} {s0 s : State} {p : Port} {body : List Byte} (hL : ([.portA, .portB, .events, .counters] : List Part) ⊆ L) (hF : Alters L s0 s) :
    Answers L s0 (execTableAck p body s) := by
  delta execTableAck
  repeat (any_goals first
    | with_reducible assumption
    | exact List.Subset.trans (by decide) hL
    | (extract_lets +onlyGivenNames x; refine (have hx : Alters L s0 x := ?_; ?_); (on_goal 1 => subst x); (on_goal 2 => clear_value x))
    | (extract_lets +onlyGivenNames x; clear_value x)
    | refine answers_next ?_
    | split
    | with_reducible refine frame_badLc ?_ ?_
    | with_reducible refine frame_State_onPort ?_ ?_)

theorem frame_soundingDone {L : List Part} {s0 s : State} {p : Port} (hL : ([.portA, .portB, .engine, .events] : List Part) ⊆ L) (hF : Alters L s0 s) :
    Alters L s0 (soundingDone s p) := by
  delta soundingDone
  repeat (any_goals first
    | with_reducible assumption
    | exact List.Subset.trans (by decide) hL
    | (extract_lets +onlyGivenNames x; refine (have hx : Alters L s0 x := ?_; ?_); (on_goal 1 => subst x); (on_goal 2 => clear_value x))
    | (extract_lets +onlyGivenNames x; clear_value x)
    | split
    | with_reducible refine frame_State_onPort ?_ ?_
    | with_reducible refine frame_clearLatching ?_ ?_
    | with_reducible refine frame_endSoundOps ?_ ?_
    | with_reducible refine frame_raise ?_ ?_)

theorem frame_execTableSwitch {L : List Part} {s0 s : State} {p : Port} (hL : ([.portA, .portB, .engine, .events] : List Part) ⊆ L) (hF : Alters L s0 s) :
    Answers L s0 (execTableSwitch p s) := by
  delta execTableSwitch
  repeat (any_goals first
    | with_reducible assumption
    | exact List.Subset.trans (by decide) hL
    | (intro a x hx; beta_reduce)
    | (intro x hx; beta_reduce)
    | (extract_lets +onlyGivenNames x; refine (have hx : Alters L s0 x := ?_; ?_); (on_goal 1 => subst x); (on_goal 2 => clear_value x))
    | (extract_lets +onlyGivenNames x; clear_value x)
    | refine answers_next ?_
    | split
    | with_reducible refine frame_whenDue ?_ ?_
    | with_reducible refine frame_State_onPort ?_ ?_
    | with_reducible refine frame_soundingDone ?_ ?_)

theorem frame_execOldSlotRelease {L : List Part} {s0 s : State} {p : Port} (hL : ([.portA, .portB] : List Part) ⊆ L) (hF : Alters L s0 s) :
    Answers L s0 (execOldSlotRelease p s) := by
  delta execOldSlotRelease
  repeat (any_goals first
    | with_reducible assumption
    | exact List.Subset.trans (by decide) hL
    | (intro a x hx; beta_reduce)
    | (intro x hx; beta_reduce)
    | (extract_lets +onlyGivenNames x; refine (have hx : Alters L s0 x := ?_; ?_); (on_goal 1 => subst x); (on_goal 2 => clear_value x))
    | (extract_lets +onlyGivenNames x; clear_value x)
    | refine answers_next ?_
    | with_reducible refine frame_whenDue ?_ ?_
    | with_reducible refine frame_State_onPort ?_ ?_)

theorem frame_execTableResend {L : List Part} {s0 s : State} {p : Port} (hL : ([.portA, .portB] : List Part) ⊆ L) (hF : Alters L s0 s) :
    Answers L s0 (execTableResend p s) := by
  delta execTableResend
  repeat (any_goals first
    | with_reducible assumption
    | exact List.Subset.trans (by decide) hL
    | (intro a x hx; beta_reduce)
    | (intro x hx; beta_reduce)
    | refine answers_next ?_
    | split
    | with_reducible refine frame_whenDue ?_ ?_
    | with_reducible refine frame_sendLc ?_ ?_
    | with_reducible refine frame_State_onPort ?_ ?_)

theorem frame_execSoundingStepMissed {L : List Part} {s0 s : State} {p : Port} (hL : ([.free, .portA, .portB, .engine, .events] : List Part) ⊆ L) (hF : Alters L s0 s) :
    Answers L s0 (execSoundingStepMissed p s) := by
  delta execSoundingStepMissed
  repeat (any_goals first
    | with_reducible assumption
    | exact List.Subset.trans (by decide) hL
    | (intro a x hx; beta_reduce)
    | (intro x hx; beta_reduce)
    | (extract_lets +onlyGivenNames x; refine (have hx : Alters L s0 x := ?_; ?_); (on_goal 1 => subst x); (on_goal 2 => clear_value x))
    | (extract_lets +onlyGivenNames x; clear_value x)
    | refine answers_next ?_
    | split
    | with_reducible refine frame_whenDue ?_ ?_
    | with_reducible refine frame_soundingMissed ?_ ?_
    | with_reducible refine frame_sendAbort ?_ ?_)

theorem frame_execAbort {L : List Part} {s0 s : State} {p : Port} {body : List Byte} (hL : ([.free, .portA, .portB, .tables, .engine, .events, .counters] : List Part) ⊆ L) (hF : Alters L s0 s) :
    Answers L s0 (execAbort p body s) := by
  delta execAbort
  repeat (any_goals first
    | with_reducible assumption
    | exact List.Subset.trans (by decide) hL
    | (extract_lets +onlyGivenNames x; refine (have hx : Alters L s0 x := ?_; ?_); (on_goal 1 => subst x); (on_goal 2 => clear_value x))
    | (extract_lets +onlyGivenNames x; clear_value x)
    | refine answers_next ?_
    | split
    | with_reducible refine frame_badLc ?_ ?_
    | with_reducible refine frame_State_onPort ?_ ?_
    | with_reducible refine frame_endSoundOps ?_ ?_
    | with_reducible refine frame_toUntrained ?_ ?_
    | with_reducible refine frame_leaveUp ?_ ?_
    | with_reducible refine frame_raise ?_ ?_
    | with_reducible refine frame_soundingMissed ?_ ?_)

theorem frame_execLinkAdapt {L : List Part} {s0 s : State} {p : Port} {snr : List Nat} {evm : Int} {drift : Int} (hL : ([.portA, .portB, .tables, .events] : List Part) ⊆ L) (hF : Alters L s0 s) :
    Answers L s0 (execLinkAdapt p snr evm drift s) := by
  delta execLinkAdapt
  repeat (any_goals first
    | with_reducible assumption
    | exact List.Subset.trans (by decide) hL
    | (intro a x hx; beta_reduce)
    | (intro x hx; beta_reduce)
    | (extract_lets +onlyGivenNames x; refine (have hx : Alters L s0 x := ?_; ?_); (on_goal 1 => subst x); (on_goal 2 => clear_value x))
    | (extract_lets +onlyGivenNames x; clear_value x)
    | refine answers_next ?_
    | split
    | with_reducible refine frame_whenDue ?_ ?_
    | with_reducible refine frame_State_onPort ?_ ?_
    | with_reducible refine frame_raise ?_ ?_
    | with_reducible refine frame_clearLatching ?_ ?_
    | with_reducible refine frame_resound ?_ ?_
    | with_reducible refine frame_marginTable ?_ ?_
    | with_reducible refine frame_sendTable ?_ ?_)

end Sys2Proof.Laws
end

