-- ==== Sys2Proof/Laws/FrameResets.lean ====
section
/-! SUPPORT. What each operation of Machine/Resets.lean may change: the parts of the state it names, and nothing else. -/

namespace Sys2Proof.Laws

open Sys2Proof Sys2Proof.Machine Sys2Proof.Safety

set_option linter.unusedTactic false
set_option linter.unreachableTactic false
set_option linter.unusedVariables false

theorem frame_driveShell {L : List Part} {s0 s : State} {n : Fin 24} (hL : ([.chans] : List Part) ⊆ L) (hF : Alters L s0 s) :
    Alters L s0 (driveShell s n) := by
  delta driveShell
  repeat (any_goals first
    | with_reducible assumption
    | exact List.Subset.trans (by decide) hL
    | (extract_lets +onlyGivenNames x; refine (have hx : Alters L s0 x := ?_; ?_); (on_goal 1 => subst x); (on_goal 2 => clear_value x))
    | (extract_lets +onlyGivenNames x; clear_value x)
    | split
    | with_reducible refine frame_State_onChan ?_ ?_)

theorem frame_staleBegin {L : List Part} {s0 s : State} {n : Fin 24} {cause : Nat} (hL : ([.chans] : List Part) ⊆ L) (hF : Alters L s0 s) :
    Alters L s0 (staleBegin s n cause) := by
  delta staleBegin
  repeat (any_goals first
    | with_reducible assumption
    | exact List.Subset.trans (by decide) hL
    | (extract_lets +onlyGivenNames x; refine (have hx : Alters L s0 x := ?_; ?_); (on_goal 1 => subst x); (on_goal 2 => clear_value x))
    | (extract_lets +onlyGivenNames x; clear_value x)
    | split
    | with_reducible refine frame_State_onChan ?_ ?_)

theorem frame_staleEnd {L : List Part} {s0 s : State} {n : Fin 24} {cause : Nat} (hL : ([.chans] : List Part) ⊆ L) (hF : Alters L s0 s) :
    Alters L s0 (staleEnd s n cause) := by
  delta staleEnd
  repeat (any_goals first
    | with_reducible assumption
    | exact List.Subset.trans (by decide) hL
    | (extract_lets +onlyGivenNames x; refine (have hx : Alters L s0 x := ?_; ?_); (on_goal 1 => subst x); (on_goal 2 => clear_value x))
    | (extract_lets +onlyGivenNames x; clear_value x)
    | split
    | with_reducible refine frame_State_onChan ?_ ?_)

theorem frame_setFrontEnd {L : List Part} {s0 s : State} {n : Fin 24} (hL : ([.chans] : List Part) ⊆ L) (hF : Alters L s0 s) :
    Alters L s0 (setFrontEnd s n) := by
  delta setFrontEnd
  repeat (any_goals first
    | with_reducible assumption
    | exact List.Subset.trans (by decide) hL
    | (extract_lets +onlyGivenNames x; refine (have hx : Alters L s0 x := ?_; ?_); (on_goal 1 => subst x); (on_goal 2 => clear_value x))
    | (extract_lets +onlyGivenNames x; clear_value x)
    | split
    | with_reducible refine frame_State_onChan ?_ ?_)

theorem frame_setFrontEnds {L : List Part} {s0 s : State} (hL : ([.chans] : List Part) ⊆ L) (hF : Alters L s0 s) :
    Alters L s0 (setFrontEnds s) :=
  frame_each (fun _ _ hx => frame_setFrontEnd hL hx) hF

theorem frame_trimEnd {L : List Part} {s0 s : State} {n : Fin 24} {before : Int} (hL : ([.chans] : List Part) ⊆ L) (hF : Alters L s0 s) :
    Alters L s0 (trimEnd s n before) := by
  delta trimEnd
  repeat (any_goals first
    | with_reducible assumption
    | exact List.Subset.trans (by decide) hL
    | (extract_lets +onlyGivenNames x; refine (have hx : Alters L s0 x := ?_; ?_); (on_goal 1 => subst x); (on_goal 2 => clear_value x))
    | (extract_lets +onlyGivenNames x; clear_value x)
    | split
    | with_reducible refine frame_State_onChan ?_ ?_
    | with_reducible refine frame_driveShell ?_ ?_
    | with_reducible refine frame_bankNow ?_ ?_)

theorem frame_discardAwait {L : List Part} {s0 s : State} {p : Await → Bool} (hL : ([.engine] : List Part) ⊆ L) (hF : Alters L s0 s) :
    Alters L s0 (discardAwait s p) := by
  delta discardAwait
  repeat (any_goals first
    | with_reducible assumption
    | exact List.Subset.trans (by decide) hL
    | with_reducible refine frame_State_onEngine ?_ ?_)

theorem frame_opRollback {L : List Part} {s0 s : State} {o : Op} {st : OpState} {reason : Nat} (hL : ([.tables, .chans, .mem, .engine, .seat, .events] : List Part) ⊆ L) (hF : Alters L s0 s) :
    Alters L s0 (opRollback s o st reason) := by
  delta opRollback
  repeat (any_goals first
    | with_reducible assumption
    | exact List.Subset.trans (by decide) hL
    | (extract_lets +onlyGivenNames x; refine (have hx : Alters L s0 x := ?_; ?_); (on_goal 1 => subst x); (on_goal 2 => clear_value x))
    | (extract_lets +onlyGivenNames x; clear_value x)
    | split
    | with_reducible refine frame_invertEpoch ?_ ?_
    | with_reducible refine frame_onOp ?_ ?_
    | with_reducible refine frame_opEnd ?_ ?_
    | with_reducible refine frame_trimEnd ?_ ?_
    | with_reducible refine frame_discardAwait ?_ ?_
    | with_reducible refine frame_State_onMem ?_ ?_
    | with_reducible refine frame_State_onSeat ?_ ?_)

theorem frame_endOps {L : List Part} {s0 s : State} {p : Op → Bool} {st : OpState} {reason : Nat} (hL : ([.tables, .chans, .mem, .engine, .seat, .events] : List Part) ⊆ L) (hF : Alters L s0 s) :
    Alters L s0 (endOps s p st reason) := by
  delta endOps
  repeat (any_goals first
    | with_reducible assumption
    | exact List.Subset.trans (by decide) hL
    | (intro a x hx; beta_reduce)
    | (intro x hx; beta_reduce)
    | with_reducible refine frame_each ?_ ?_
    | with_reducible refine frame_opRollback ?_ ?_)

theorem frame_leaveFull {L : List Part} {s0 s : State}  (hL : ([.tables, .chans, .mem, .engine, .seat, .events, .dbg] : List Part) ⊆ L) (hF : Alters L s0 s) :
    Alters L s0 (leaveFull s) := by
  delta leaveFull
  repeat (any_goals first
    | with_reducible assumption
    | exact List.Subset.trans (by decide) hL
    | with_reducible refine frame_endOps ?_ ?_
    | with_reducible refine frame_closeSession ?_ ?_
    | with_reducible refine frame_State_onEngine ?_ ?_)

theorem frame_enterFixed {L : List Part} {s0 s : State}  (hL : ([.engine] : List Part) ⊆ L) (hF : Alters L s0 s) :
    Alters L s0 (enterFixed s) := by
  delta enterFixed
  repeat (any_goals first
    | with_reducible assumption
    | exact List.Subset.trans (by decide) hL
    | split
    | with_reducible refine frame_State_onEngine ?_ ?_)

theorem frame_chipReset {L : List Part} {s0 s : State} {cause : Option Nat} (hL : ([.supply, .tiers, .straps, .clock, .portA, .portB, .cut, .tables, .queues, .hands, .streams, .chans, .mem, .engine, .vault, .seat, .events, .dbg, .announce, .counters] : List Part) ⊆ L)
    (hF : Alters L s0 s) : Alters L s0 (chipReset s cause) :=
  frame_trans hF ⟨fun p hp => by cases p <;> first | exact absurd (hL (by decide)) hp | (simp only [Part.same, chipReset])⟩

theorem frame_vanLost {L : List Part} {s0 s : State} (hL : ([.supply, .tiers, .straps, .clock, .portA, .portB, .cut, .tables, .queues, .hands, .streams, .chans, .mem, .engine, .vault, .seat, .events, .dbg, .announce, .counters] : List Part) ⊆ L)
    (hF : Alters L s0 s) : Alters L s0 (vanLost s) :=
  frame_trans hF ⟨fun p hp => by cases p <;> first | exact absurd (hL (by decide)) hp | (simp only [Part.same, vanLost])⟩

theorem frame_enterPassThroughDown {L : List Part} {s0 s : State}  (hL : ([.free, .tables, .queues, .hands, .streams, .chans, .events, .counters] : List Part) ⊆ L) (hF : Alters L s0 s) :
    Alters L s0 (enterPassThroughDown s) := by
  delta enterPassThroughDown
  repeat (any_goals first
    | with_reducible assumption
    | exact List.Subset.trans (by decide) hL
    | (extract_lets +onlyGivenNames x; refine (have hx : Alters L s0 x := ?_; ?_); (on_goal 1 => subst x); (on_goal 2 => clear_value x))
    | (extract_lets +onlyGivenNames x; clear_value x)
    | with_reducible refine frame_closeAllStreams ?_ ?_
    | with_reducible refine frame_bankNowAll ?_ ?_
    | with_reducible refine frame_State_mapChans ?_ ?_
    | with_reducible refine frame_State_onTables ?_ ?_
    | with_reducible refine frame_setFrontEnds ?_ ?_)

theorem frame_tierEvent {L : List Part} {s0 s : State} {old : Tier} {new : Tier} {src : Nat} (hL : ([.events] : List Part) ⊆ L) (hF : Alters L s0 s) :
    Alters L s0 (tierEvent s old new src) := by
  delta tierEvent
  repeat (any_goals first
    | with_reducible assumption
    | exact List.Subset.trans (by decide) hL
    | with_reducible refine frame_raise ?_ ?_)

theorem frame_settleTier {L : List Part} {s0 s : State} {src : Nat} (hL : ([.free, .supply, .tiers, .straps, .clock, .portA, .portB, .cut, .tables, .queues, .hands, .streams, .chans, .mem, .engine, .vault, .seat, .events, .dbg, .announce, .counters] : List Part) ⊆ L) (hF : Alters L s0 s) :
    Alters L s0 (settleTier s src) := by
  delta settleTier
  repeat (any_goals first
    | with_reducible assumption
    | exact List.Subset.trans (by decide) hL
    | (extract_lets +onlyGivenNames x; refine (have hx : Alters L s0 x := ?_; ?_); (on_goal 1 => subst x); (on_goal 2 => clear_value x))
    | (extract_lets +onlyGivenNames x; clear_value x)
    | split
    | with_reducible refine frame_chipReset ?_ ?_
    | with_reducible refine frame_leaveFull ?_ ?_
    | with_reducible refine frame_State_onTiers ?_ ?_
    | with_reducible refine frame_enterPassThroughDown ?_ ?_
    | with_reducible refine frame_enterFixed ?_ ?_
    | with_reducible refine frame_tierEvent ?_ ?_)

theorem frame_unitFails {L : List Part} {s0 s : State} {u : UnitId} (hL : ([.tiers] : List Part) ⊆ L) (hF : Alters L s0 s) :
    Alters L s0 (unitFails s u) := by
  delta unitFails
  repeat (any_goals first
    | with_reducible assumption
    | exact List.Subset.trans (by decide) hL
    | split
    | with_reducible refine frame_State_onTiers ?_ ?_)

theorem frame_correctedWord {L : List Part} {s0 s : State} {a : Nat} (hL : ([.mem, .events, .counters] : List Part) ⊆ L) (hF : Alters L s0 s) :
    Alters L s0 (correctedWord s a) := by
  delta correctedWord
  repeat (any_goals first
    | with_reducible assumption
    | exact List.Subset.trans (by decide) hL
    | (extract_lets +onlyGivenNames x; refine (have hx : Alters L s0 x := ?_; ?_); (on_goal 1 => subst x); (on_goal 2 => clear_value x))
    | (extract_lets +onlyGivenNames x; clear_value x)
    | split
    | with_reducible refine frame_bump ?_ ?_
    | with_reducible refine frame_State_onMem ?_ ?_
    | with_reducible refine frame_raise ?_ ?_)

theorem frame_damagedQueue {L : List Part} {s0 s : State} {q : Nat} (hL : ([.queues, .events] : List Part) ⊆ L) (hF : Alters L s0 s) :
    Alters L s0 (damagedQueue s q) := by
  delta damagedQueue
  repeat (any_goals first
    | with_reducible assumption
    | exact List.Subset.trans (by decide) hL
    | (extract_lets +onlyGivenNames x; refine (have hx : Alters L s0 x := ?_; ?_); (on_goal 1 => subst x); (on_goal 2 => clear_value x))
    | (extract_lets +onlyGivenNames x; clear_value x)
    | split
    | with_reducible refine frame_flushQueue ?_ ?_
    | with_reducible refine frame_setQSet ?_ ?_
    | with_reducible refine frame_raise ?_ ?_)

theorem frame_damagedCell {L : List Part} {s0 s : State} {c : Nat} (hL : ([.queues, .events, .counters] : List Part) ⊆ L) (hF : Alters L s0 s) :
    Alters L s0 (damagedCell s c) := by
  delta damagedCell
  repeat (any_goals first
    | with_reducible assumption
    | exact List.Subset.trans (by decide) hL
    | (intro a x hx; beta_reduce)
    | (intro x hx; beta_reduce)
    | (extract_lets +onlyGivenNames x; refine (have hx : Alters L s0 x := ?_; ?_); (on_goal 1 => subst x); (on_goal 2 => clear_value x))
    | (extract_lets +onlyGivenNames x; clear_value x)
    | with_reducible refine frame_each ?_ ?_
    | with_reducible refine frame_State_onQueues ?_ ?_
    | with_reducible refine frame_countHand ?_ ?_)

theorem frame_damagedStaged {L : List Part} {s0 s : State} {k : Nat} (hL : ([.tables, .events] : List Part) ⊆ L) (hF : Alters L s0 s) :
    Alters L s0 (damagedStaged s k) := by
  delta damagedStaged
  repeat (any_goals first
    | with_reducible assumption
    | exact List.Subset.trans (by decide) hL
    | split
    | with_reducible refine frame_raise ?_ ?_
    | with_reducible refine frame_State_onTables ?_ ?_)

theorem frame_damagedSamples {L : List Part} {s0 s : State} {n : Fin 24} {k : Nat} (hL : ([.streams] : List Part) ⊆ L) (hF : Alters L s0 s) :
    Alters L s0 (damagedSamples s n k) := by
  have m_streams : Part.streams ∈ L := hL (by decide)
  delta damagedSamples
  repeat (any_goals first
    | with_reducible assumption
    | exact List.Subset.trans (by decide) hL
    | (extract_lets +onlyGivenNames x; refine (have hx : Alters L s0 x := ?_; ?_); (on_goal 1 => subst x); (on_goal 2 => clear_value x))
    | (extract_lets +onlyGivenNames x; clear_value x)
    | split
    | simp only [frame_mk_streams m_streams])

theorem frame_poisonConsumer {L : List Part} {s0 s : State} {a : Nat} (hL : ([.tables, .queues, .streams, .events, .counters] : List Part) ⊆ L) (hF : Alters L s0 s) :
    Alters L s0 (poisonConsumer s a) := by
  delta poisonConsumer
  repeat (any_goals first
    | with_reducible assumption
    | exact List.Subset.trans (by decide) hL
    | split
    | with_reducible refine frame_damagedQueue ?_ ?_
    | with_reducible refine frame_damagedStaged ?_ ?_
    | with_reducible refine frame_damagedCell ?_ ?_
    | with_reducible refine frame_damagedSamples ?_ ?_)

theorem frame_poisonedRead {L : List Part} {s0 s : State} {a : Nat} {debug : Bool} (hL : ([.free, .supply, .tiers, .straps, .clock, .portA, .portB, .cut, .tables, .queues, .hands, .streams, .chans, .mem, .engine, .vault, .seat, .events, .dbg, .announce, .counters] : List Part) ⊆ L) (hF : Alters L s0 s) :
    Alters L s0 (poisonedRead s a debug) := by
  have m_mem : Part.mem ∈ L := hL (by decide)
  delta poisonedRead
  repeat (any_goals first
    | with_reducible assumption
    | exact List.Subset.trans (by decide) hL
    | (extract_lets +onlyGivenNames x; refine (have hx : Alters L s0 x := ?_; ?_); (on_goal 1 => subst x); (on_goal 2 => clear_value x))
    | (extract_lets +onlyGivenNames x; clear_value x)
    | split
    | with_reducible refine frame_bump ?_ ?_
    | with_reducible refine frame_State_onMem ?_ ?_
    | with_reducible refine frame_poisonConsumer ?_ ?_
    | with_reducible refine frame_raise ?_ ?_
    | with_reducible refine frame_unitFails ?_ ?_
    | with_reducible refine frame_settleTier ?_ ?_
    | simp only [frame_mk_mem m_mem])

theorem frame_poisonedWord {L : List Part} {s0 s : State} {a : Nat} (hL : ([.free, .supply, .tiers, .straps, .clock, .portA, .portB, .cut, .tables, .queues, .hands, .streams, .chans, .mem, .engine, .vault, .seat, .events, .dbg, .announce, .counters] : List Part) ⊆ L) (hF : Alters L s0 s) :
    Alters L s0 (poisonedWord s a) := by
  delta poisonedWord
  repeat (any_goals first
    | with_reducible assumption
    | exact List.Subset.trans (by decide) hL
    | with_reducible refine frame_poisonedRead ?_ ?_)

theorem frame_eccApply {L : List Part} {s0 s : State} {e : Ecc} (hL : ([.free, .supply, .tiers, .straps, .clock, .portA, .portB, .cut, .tables, .queues, .hands, .streams, .chans, .mem, .engine, .vault, .seat, .events, .dbg, .announce, .counters] : List Part) ⊆ L) (hF : Alters L s0 s) :
    Alters L s0 (eccApply s e) := by
  delta eccApply
  repeat (any_goals first
    | with_reducible assumption
    | exact List.Subset.trans (by decide) hL
    | (intro a x hx; beta_reduce)
    | (intro x hx; beta_reduce)
    | (extract_lets +onlyGivenNames x; refine (have hx : Alters L s0 x := ?_; ?_); (on_goal 1 => subst x); (on_goal 2 => clear_value x))
    | (extract_lets +onlyGivenNames x; clear_value x)
    | with_reducible refine frame_each ?_ ?_
    | with_reducible refine frame_correctedWord ?_ ?_
    | with_reducible refine frame_poisonedWord ?_ ?_)

theorem frame_configureKeeper {L : List Part} {s0 s : State} {n : Fin 24} {p : BitVec 8} (hL : ([.chans] : List Part) ⊆ L) (hF : Alters L s0 s) :
    Alters L s0 (configureKeeper s n p) := by
  delta configureKeeper
  repeat (any_goals first
    | with_reducible assumption
    | exact List.Subset.trans (by decide) hL
    | (extract_lets +onlyGivenNames x; refine (have hx : Alters L s0 x := ?_; ?_); (on_goal 1 => subst x); (on_goal 2 => clear_value x))
    | (extract_lets +onlyGivenNames x; clear_value x)
    | split
    | with_reducible refine frame_State_onChan ?_ ?_)

theorem frame_configureChannel {L : List Part} {s0 s : State} {n : Fin 24} (hL : ([.chans] : List Part) ⊆ L) (hF : Alters L s0 s) :
    Alters L s0 (configureChannel s n) := by
  delta configureChannel
  repeat (any_goals first
    | with_reducible assumption
    | exact List.Subset.trans (by decide) hL
    | (extract_lets +onlyGivenNames x; refine (have hx : Alters L s0 x := ?_; ?_); (on_goal 1 => subst x); (on_goal 2 => clear_value x))
    | (extract_lets +onlyGivenNames x; clear_value x)
    | split
    | with_reducible refine frame_State_onChan ?_ ?_
    | with_reducible refine frame_configureKeeper ?_ ?_)

theorem frame_curveEmptyEvent {L : List Part} {s0 s : State} {n : Fin 24} (hL : ([.events] : List Part) ⊆ L) (hF : Alters L s0 s) :
    Alters L s0 (curveEmptyEvent s n) := by
  delta curveEmptyEvent
  repeat (any_goals first
    | with_reducible assumption
    | exact List.Subset.trans (by decide) hL
    | split
    | with_reducible refine frame_raise ?_ ?_)

theorem frame_capChannel {L : List Part} {s0 s : State} {n : Fin 24} (hL : ([.chans] : List Part) ⊆ L) (hF : Alters L s0 s) :
    Alters L s0 (capChannel s n) := by
  delta capChannel
  repeat (any_goals first
    | with_reducible assumption
    | exact List.Subset.trans (by decide) hL
    | (extract_lets +onlyGivenNames x; refine (have hx : Alters L s0 x := ?_; ?_); (on_goal 1 => subst x); (on_goal 2 => clear_value x))
    | (extract_lets +onlyGivenNames x; clear_value x)
    | split
    | with_reducible refine frame_setFrontEnd ?_ ?_
    | with_reducible refine frame_bankNow ?_ ?_
    | with_reducible refine frame_State_onChan ?_ ?_)

theorem frame_clearChannelLatches {L : List Part} {s0 s : State} {n : Fin 24} (hL : ([.events] : List Part) ⊆ L) (hF : Alters L s0 s) :
    Alters L s0 (clearChannelLatches s n) := by
  delta clearChannelLatches
  repeat (any_goals first
    | with_reducible assumption
    | exact List.Subset.trans (by decide) hL
    | (intro a x hx; beta_reduce)
    | (intro x hx; beta_reduce)
    | (extract_lets +onlyGivenNames x; refine (have hx : Alters L s0 x := ?_; ?_); (on_goal 1 => subst x); (on_goal 2 => clear_value x))
    | (extract_lets +onlyGivenNames x; clear_value x)
    | with_reducible refine frame_each ?_ ?_
    | with_reducible refine frame_clearLatching ?_ ?_)

theorem frame_startRekindle {L : List Part} {s0 s : State} {n : Fin 24} (hL : ([.tables, .chans, .mem, .engine, .seat, .events] : List Part) ⊆ L) (hF : Alters L s0 s) :
    Alters L s0 (startRekindle s n) := by
  delta startRekindle
  repeat (any_goals first
    | with_reducible assumption
    | exact List.Subset.trans (by decide) hL
    | (extract_lets +onlyGivenNames x; refine (have hx : Alters L s0 x := ?_; ?_); (on_goal 1 => subst x); (on_goal 2 => clear_value x))
    | (extract_lets +onlyGivenNames x; clear_value x)
    | split
    | with_reducible refine frame_endOps ?_ ?_
    | with_reducible refine frame_staleBegin ?_ ?_
    | with_reducible refine frame_clearChannelLatches ?_ ?_
    | with_reducible refine frame_State_onChan ?_ ?_
    | with_reducible refine frame_bankNow ?_ ?_)

theorem frame_strapEvents {L : List Part} {s0 s : State} {codes : List Code} {i : Nat} (hL : ([.events] : List Part) ⊆ L) (hF : Alters L s0 s) :
    Alters L s0 (strapEvents s codes i) := by
  delta strapEvents
  repeat (any_goals first
    | with_reducible assumption
    | exact List.Subset.trans (by decide) hL
    | (extract_lets +onlyGivenNames x; refine (have hx : Alters L s0 x := ?_; ?_); (on_goal 1 => subst x); (on_goal 2 => clear_value x))
    | (extract_lets +onlyGivenNames x; clear_value x)
    | split
    | with_reducible refine frame_raise ?_ ?_
    | with_reducible refine frame_clearLatching ?_ ?_)

theorem frame_marginalEvent {L : List Part} {s0 s : State} {i : Nat} {convs : List (Option (Fin 16))} (hL : ([.events] : List Part) ⊆ L) (hF : Alters L s0 s) :
    Alters L s0 (marginalEvent s i convs) := by
  delta marginalEvent
  repeat (any_goals first
    | with_reducible assumption
    | exact List.Subset.trans (by decide) hL
    | (extract_lets +onlyGivenNames x; refine (have hx : Alters L s0 x := ?_; ?_); (on_goal 1 => subst x); (on_goal 2 => clear_value x))
    | (extract_lets +onlyGivenNames x; clear_value x)
    | split
    | with_reducible refine frame_raise ?_ ?_)

end Sys2Proof.Laws
end

