-- ==== Sys2Proof/Laws/FrameKindling.lean ====
section
/-! SUPPORT. What each operation of Machine/Kindling.lean may change: the parts of the state it names, and nothing else. -/

namespace Sys2Proof.Laws

open Sys2Proof Sys2Proof.Machine Sys2Proof.Safety

set_option linter.unusedTactic false
set_option linter.unreachableTactic false
set_option linter.unusedVariables false

theorem frame_execPowerUp {L : List Part} {s0 s : State}  (hL : ([.supply, .tiers, .chans] : List Part) ⊆ L) (hF : Alters L s0 s) :
    Answers L s0 (execPowerUp s) := by
  have m_chans : Part.chans ∈ L := hL (by decide)
  have m_supply : Part.supply ∈ L := hL (by decide)
  have m_tiers : Part.tiers ∈ L := hL (by decide)
  delta execPowerUp
  repeat (any_goals first
    | with_reducible assumption
    | exact List.Subset.trans (by decide) hL
    | refine answers_next ?_
    | split
    | simp only [frame_mk_supply_tiers m_supply m_tiers]
    | simp only [frame_mk_supply_tiers_chans m_supply m_tiers m_chans])

theorem frame_redrawSession {L : List Part} {s0 s : State} {slot : Fin 20} (hL : ([.free, .engine] : List Part) ⊆ L) (hF : Alters L s0 s) :
    Alters L s0 (redrawSession s slot) := by
  delta redrawSession
  repeat (any_goals first
    | with_reducible assumption
    | exact List.Subset.trans (by decide) hL
    | (extract_lets +onlyGivenNames x; refine (have hx : Alters L s0 x := ?_; ?_); (on_goal 1 => subst x); (on_goal 2 => clear_value x))
    | (extract_lets +onlyGivenNames x; refine (have hx : Alters L s0 x.2 := ?_; ?_); (on_goal 1 => subst x); (on_goal 2 => clear_value x))
    | (extract_lets +onlyGivenNames x; clear_value x)
    | with_reducible refine frame_State_draw ?_ ?_
    | with_reducible refine frame_State_onEngine ?_ ?_
    | dsimp only)

theorem frame_drawSeeds {L : List Part} {s0 s : State}  (hL : ([.free, .tables] : List Part) ⊆ L) (hF : Alters L s0 s) :
    Alters L s0 (drawSeeds s) := by
  delta drawSeeds
  repeat (any_goals first
    | with_reducible assumption
    | exact List.Subset.trans (by decide) hL
    | (extract_lets +onlyGivenNames x; refine (have hx : Alters L s0 x := ?_; ?_); (on_goal 1 => subst x); (on_goal 2 => clear_value x))
    | (extract_lets +onlyGivenNames x; refine (have hx : Alters L s0 x.2 := ?_; ?_); (on_goal 1 => subst x); (on_goal 2 => clear_value x))
    | (extract_lets +onlyGivenNames x; clear_value x)
    | with_reducible refine frame_State_draw ?_ ?_
    | with_reducible refine frame_State_onPipe ?_ ?_
    | dsimp only)

theorem frame_execShellRelease {L : List Part} {s0 s : State}  (hL : ([.free, .supply, .straps, .clock, .tables, .chans, .engine, .dbg] : List Part) ⊆ L) (hF : Alters L s0 s) :
    Answers L s0 (execShellRelease s) := by
  have m_clock : Part.clock ∈ L := hL (by decide)
  have m_dbg : Part.dbg ∈ L := hL (by decide)
  have m_straps : Part.straps ∈ L := hL (by decide)
  have m_supply : Part.supply ∈ L := hL (by decide)
  delta execShellRelease
  repeat (any_goals first
    | with_reducible assumption
    | exact List.Subset.trans (by decide) hL
    | (intro a x hx; beta_reduce)
    | (intro x hx; beta_reduce)
    | (extract_lets +onlyGivenNames x; refine (have hx : Alters L s0 x := ?_; ?_); (on_goal 1 => subst x); (on_goal 2 => clear_value x))
    | (extract_lets +onlyGivenNames x; clear_value x)
    | refine answers_next ?_
    | split
    | with_reducible refine frame_whenDue ?_ ?_
    | with_reducible refine frame_each ?_ ?_
    | with_reducible refine frame_State_mapChans ?_ ?_
    | with_reducible refine frame_redrawSession ?_ ?_
    | with_reducible refine frame_drawSeeds ?_ ?_
    | simp only [frame_mk_supply_straps_clock_dbg m_supply m_straps m_clock m_dbg])

theorem frame_execRailOutOfWindow {L : List Part} {s0 s : State} {r : Rail} (hL : ([.free, .supply, .tiers, .straps, .clock, .portA, .portB, .cut, .tables, .queues, .hands, .streams, .chans, .mem, .engine, .vault, .seat, .events, .dbg, .announce, .counters] : List Part) ⊆ L) (hF : Alters L s0 s) :
    Answers L s0 (execRailOutOfWindow r s) := by
  delta execRailOutOfWindow
  repeat (any_goals first
    | with_reducible assumption
    | exact List.Subset.trans (by decide) hL
    | (extract_lets +onlyGivenNames x; refine (have hx : Alters L s0 x := ?_; ?_); (on_goal 1 => subst x); (on_goal 2 => clear_value x))
    | (extract_lets +onlyGivenNames x; clear_value x)
    | refine answers_next ?_
    | split
    | with_reducible refine frame_vanLost ?_ ?_
    | with_reducible refine frame_State_onSupply ?_ ?_
    | with_reducible refine frame_chipReset ?_ ?_
    | with_reducible refine frame_settleTier ?_ ?_)

theorem frame_execVanLost {L : List Part} {s0 s : State}  (hL : ([.supply, .tiers, .straps, .clock, .portA, .portB, .cut, .tables, .queues, .hands, .streams, .chans, .mem, .engine, .vault, .seat, .events, .dbg, .announce, .counters] : List Part) ⊆ L) (hF : Alters L s0 s) :
    Answers L s0 (execVanLost s) := by
  delta execVanLost
  repeat (any_goals first
    | with_reducible assumption
    | exact List.Subset.trans (by decide) hL
    | refine answers_next ?_
    | with_reducible refine frame_vanLost ?_ ?_)

theorem frame_execRstNAssert {L : List Part} {s0 s : State}  (hL : ([.supply, .tiers, .straps, .clock, .portA, .portB, .cut, .tables, .queues, .hands, .streams, .chans, .mem, .engine, .vault, .seat, .events, .dbg, .announce, .counters] : List Part) ⊆ L) (hF : Alters L s0 s) :
    Answers L s0 (execRstNAssert s) := by
  delta execRstNAssert
  repeat (any_goals first
    | with_reducible assumption
    | exact List.Subset.trans (by decide) hL
    | (extract_lets +onlyGivenNames x; refine (have hx : Alters L s0 x := ?_; ?_); (on_goal 1 => subst x); (on_goal 2 => clear_value x))
    | (extract_lets +onlyGivenNames x; clear_value x)
    | refine answers_next ?_
    | split
    | with_reducible refine frame_State_onSupply ?_ ?_
    | with_reducible refine frame_chipReset ?_ ?_)

theorem frame_execRstNRelease {L : List Part} {s0 s : State}  (hL : ([.supply] : List Part) ⊆ L) (hF : Alters L s0 s) :
    Answers L s0 (execRstNRelease s) := by
  delta execRstNRelease
  repeat (any_goals first
    | with_reducible assumption
    | exact List.Subset.trans (by decide) hL
    | refine answers_next ?_
    | with_reducible refine frame_State_onSupply ?_ ?_)

theorem frame_execTestEnHigh {L : List Part} {s0 s : State}  (hL : ([.supply, .tiers, .straps, .clock, .portA, .portB, .cut, .tables, .queues, .hands, .streams, .chans, .mem, .engine, .vault, .seat, .events, .dbg, .announce, .counters] : List Part) ⊆ L) (hF : Alters L s0 s) :
    Answers L s0 (execTestEnHigh s) := by
  delta execTestEnHigh
  repeat (any_goals first
    | with_reducible assumption
    | exact List.Subset.trans (by decide) hL
    | (extract_lets +onlyGivenNames x; refine (have hx : Alters L s0 x := ?_; ?_); (on_goal 1 => subst x); (on_goal 2 => clear_value x))
    | (extract_lets +onlyGivenNames x; clear_value x)
    | refine answers_next ?_
    | split
    | with_reducible refine frame_State_onSupply ?_ ?_
    | with_reducible refine frame_chipReset ?_ ?_)

theorem frame_execTestEnLow {L : List Part} {s0 s : State}  (hL : ([.supply] : List Part) ⊆ L) (hF : Alters L s0 s) :
    Answers L s0 (execTestEnLow s) := by
  delta execTestEnLow
  repeat (any_goals first
    | with_reducible assumption
    | exact List.Subset.trans (by decide) hL
    | refine answers_next ?_
    | with_reducible refine frame_State_onSupply ?_ ?_)

theorem frame_execStrapRound {L : List Part} {s0 s : State} {r : StrapRound} (hL : ([.straps] : List Part) ⊆ L) (hF : Alters L s0 s) :
    Answers L s0 (execStrapRound r s) := by
  delta execStrapRound
  repeat (any_goals first
    | with_reducible assumption
    | exact List.Subset.trans (by decide) hL
    | (intro a x hx; beta_reduce)
    | (intro x hx; beta_reduce)
    | refine answers_next ?_
    | split
    | with_reducible refine frame_whenDue ?_ ?_
    | with_reducible refine frame_State_onStraps ?_ ?_)

theorem frame_digitalEvent {L : List Part} {s0 s : State} {found : Bool} (hL : ([.events] : List Part) ⊆ L) (hF : Alters L s0 s) :
    Alters L s0 (digitalEvent s found) := by
  delta digitalEvent
  repeat (any_goals first
    | with_reducible assumption
    | exact List.Subset.trans (by decide) hL
    | split
    | with_reducible refine frame_raise ?_ ?_)

theorem frame_execStrapReadingResolved {L : List Part} {s0 s : State}  (hL : ([.supply, .straps, .events] : List Part) ⊆ L) (hF : Alters L s0 s) :
    Answers L s0 (execStrapReadingResolved s) := by
  delta execStrapReadingResolved
  repeat (any_goals first
    | with_reducible assumption
    | exact List.Subset.trans (by decide) hL
    | (intro a x hx; beta_reduce)
    | (intro x hx; beta_reduce)
    | (extract_lets +onlyGivenNames x; refine (have hx : Alters L s0 x := ?_; ?_); (on_goal 1 => subst x); (on_goal 2 => clear_value x))
    | (extract_lets +onlyGivenNames x; clear_value x)
    | refine answers_next ?_
    | split
    | with_reducible refine frame_whenDue ?_ ?_
    | with_reducible refine frame_each ?_ ?_
    | with_reducible refine frame_State_onStraps ?_ ?_
    | with_reducible refine frame_State_onSupply ?_ ?_
    | with_reducible refine frame_raise ?_ ?_
    | with_reducible refine frame_marginalEvent ?_ ?_
    | with_reducible refine frame_strapEvents ?_ ?_
    | with_reducible refine frame_digitalEvent ?_ ?_)

theorem frame_vaultRecord {L : List Part} {s0 s : State} {e : VKey × VRec} (hL : ([.tiers, .mem, .events] : List Part) ⊆ L) (hF : Alters L s0 s) :
    Alters L s0 (vaultRecord s e) := by
  delta vaultRecord
  repeat (any_goals first
    | with_reducible assumption
    | exact List.Subset.trans (by decide) hL
    | (extract_lets +onlyGivenNames x; refine (have hx : Alters L s0 x := ?_; ?_); (on_goal 1 => subst x); (on_goal 2 => clear_value x))
    | (extract_lets +onlyGivenNames x; clear_value x)
    | split
    | with_reducible refine frame_raise ?_ ?_
    | with_reducible refine frame_State_onTiers ?_ ?_
    | with_reducible refine frame_unitFails ?_ ?_
    | with_reducible refine frame_State_onMem ?_ ?_)

theorem frame_execVaultLoadDone {L : List Part} {s0 s : State} {damaged : List (VKey × Bool × Bool)} (hL : ([.supply, .tiers, .mem, .vault, .events] : List Part) ⊆ L) (hF : Alters L s0 s) :
    Answers L s0 (execVaultLoadDone damaged s) := by
  delta execVaultLoadDone
  repeat (any_goals first
    | with_reducible assumption
    | exact List.Subset.trans (by decide) hL
    | (intro a x hx; beta_reduce)
    | (intro x hx; beta_reduce)
    | (extract_lets +onlyGivenNames x; refine (have hx : Alters L s0 x := ?_; ?_); (on_goal 1 => subst x); (on_goal 2 => clear_value x))
    | (extract_lets +onlyGivenNames x; clear_value x)
    | refine answers_next ?_
    | split
    | with_reducible refine frame_whenDue ?_ ?_
    | with_reducible refine frame_each ?_ ?_
    | with_reducible refine frame_State_onVault ?_ ?_
    | with_reducible refine frame_vaultRecord ?_ ?_
    | with_reducible refine frame_raise ?_ ?_
    | with_reducible refine frame_State_onSupply ?_ ?_)

theorem frame_clearBadRow {L : List Part} {s0 s : State} {b : Fin 64} {r : Fin 512} (hL : ([.tiers, .mem, .events] : List Part) ⊆ L) (hF : Alters L s0 s) :
    Alters L s0 (clearBadRow s b r) := by
  have m_mem : Part.mem ∈ L := hL (by decide)
  delta clearBadRow
  repeat (any_goals first
    | with_reducible assumption
    | exact List.Subset.trans (by decide) hL
    | (extract_lets +onlyGivenNames x; refine (have hx : Alters L s0 x := ?_; ?_); (on_goal 1 => subst x); (on_goal 2 => clear_value x))
    | (extract_lets +onlyGivenNames x; clear_value x)
    | split
    | with_reducible refine frame_raise ?_ ?_
    | with_reducible refine frame_unitFails ?_ ?_
    | simp only [frame_mk_mem m_mem])

theorem frame_execMemoryClearDone {L : List Part} {s0 s : State} {bad : List (Fin 64 × Fin 512)} (hL : ([.supply, .tiers, .mem, .events] : List Part) ⊆ L) (hF : Alters L s0 s) :
    Answers L s0 (execMemoryClearDone bad s) := by
  delta execMemoryClearDone
  repeat (any_goals first
    | with_reducible assumption
    | exact List.Subset.trans (by decide) hL
    | (intro a x hx; beta_reduce)
    | (intro x hx; beta_reduce)
    | (extract_lets +onlyGivenNames x; refine (have hx : Alters L s0 x := ?_; ?_); (on_goal 1 => subst x); (on_goal 2 => clear_value x))
    | (extract_lets +onlyGivenNames x; clear_value x)
    | refine answers_next ?_
    | with_reducible refine frame_whenDue ?_ ?_
    | with_reducible refine frame_each ?_ ?_
    | with_reducible refine frame_State_onMem ?_ ?_
    | with_reducible refine frame_clearBadRow ?_ ?_
    | with_reducible refine frame_State_onSupply ?_ ?_)

theorem frame_makeStranger {L : List Part} {s0 s : State} {cause : Nat} {recorded : BitVec 64} {present : BitVec 64} (hL : ([.tiers, .events] : List Part) ⊆ L) (hF : Alters L s0 s) :
    Alters L s0 (makeStranger s cause recorded present) := by
  delta makeStranger
  repeat (any_goals first
    | with_reducible assumption
    | exact List.Subset.trans (by decide) hL
    | with_reducible refine frame_raise ?_ ?_
    | with_reducible refine frame_State_onTiers ?_ ?_)

theorem frame_judgeStranger {L : List Part} {s0 s : State}  (hL : ([.tiers, .vault, .events] : List Part) ⊆ L) (hF : Alters L s0 s) :
    Alters L s0 (judgeStranger s) := by
  delta judgeStranger
  repeat (any_goals first
    | with_reducible assumption
    | exact List.Subset.trans (by decide) hL
    | (extract_lets +onlyGivenNames x; refine (have hx : Alters L s0 x := ?_; ?_); (on_goal 1 => subst x); (on_goal 2 => clear_value x))
    | (extract_lets +onlyGivenNames x; clear_value x)
    | split
    | with_reducible refine frame_State_onVault ?_ ?_
    | with_reducible refine frame_makeStranger ?_ ?_
    | with_reducible refine frame_raise ?_ ?_)

theorem frame_seatStart {L : List Part} {s0 s : State}  (hL : ([.chans, .seat] : List Part) ⊆ L) (hF : Alters L s0 s) :
    Alters L s0 (seatStart s) := by
  delta seatStart
  repeat (any_goals first
    | with_reducible assumption
    | exact List.Subset.trans (by decide) hL
    | split
    | with_reducible refine frame_State_onSeat ?_ ?_
    | with_reducible refine frame_State_mapChans ?_ ?_)

theorem frame_execKindleReadingDone {L : List Part} {s0 s : State}  (hL : ([.supply, .tiers, .portA, .portB, .tables, .queues, .chans, .mem, .vault, .seat, .events] : List Part) ⊆ L) (hF : Alters L s0 s) :
    Answers L s0 (execKindleReadingDone s) := by
  delta execKindleReadingDone
  repeat (any_goals first
    | with_reducible assumption
    | exact List.Subset.trans (by decide) hL
    | (intro a x hx; beta_reduce)
    | (intro x hx; beta_reduce)
    | (extract_lets +onlyGivenNames x; refine (have hx : Alters L s0 x := ?_; ?_); (on_goal 1 => subst x); (on_goal 2 => clear_value x))
    | (extract_lets +onlyGivenNames x; clear_value x)
    | refine answers_next ?_
    | split
    | with_reducible refine frame_whenDue ?_ ?_
    | with_reducible refine frame_each ?_ ?_
    | with_reducible refine frame_judgeStranger ?_ ?_
    | with_reducible refine frame_State_onTiers ?_ ?_
    | with_reducible refine frame_seatStart ?_ ?_
    | with_reducible refine frame_curveEmptyEvent ?_ ?_
    | with_reducible refine frame_configureChannel ?_ ?_
    | with_reducible refine frame_State_onPort ?_ ?_
    | with_reducible refine frame_State_onTables ?_ ?_
    | with_reducible refine frame_State_onQueues ?_ ?_
    | with_reducible refine frame_State_onMem ?_ ?_
    | with_reducible refine frame_State_onSupply ?_ ?_)

theorem frame_coarseFault {L : List Part} {s0 s : State} {n : Fin 24} {cause : Nat} (hL : ([.chans, .events] : List Part) ⊆ L) (hF : Alters L s0 s) :
    Alters L s0 (coarseFault s n cause) := by
  delta coarseFault
  repeat (any_goals first
    | with_reducible assumption
    | exact List.Subset.trans (by decide) hL
    | with_reducible refine frame_capChannel ?_ ?_
    | with_reducible refine frame_raise ?_ ?_
    | with_reducible refine frame_State_onChan ?_ ?_)

theorem frame_execAnalogCoreStartDone {L : List Part} {s0 s : State} {calFail : List (Fin 24)} (hL : ([.supply, .chans, .events] : List Part) ⊆ L) (hF : Alters L s0 s) :
    Answers L s0 (execAnalogCoreStartDone calFail s) := by
  delta execAnalogCoreStartDone
  repeat (any_goals first
    | with_reducible assumption
    | exact List.Subset.trans (by decide) hL
    | (intro a x hx; beta_reduce)
    | (intro x hx; beta_reduce)
    | (extract_lets +onlyGivenNames x; refine (have hx : Alters L s0 x := ?_; ?_); (on_goal 1 => subst x); (on_goal 2 => clear_value x))
    | (extract_lets +onlyGivenNames x; clear_value x)
    | refine answers_next ?_
    | with_reducible refine frame_whenDue ?_ ?_
    | with_reducible refine frame_each ?_ ?_
    | with_reducible refine frame_State_onSupply ?_ ?_
    | with_reducible refine frame_coarseFault ?_ ?_)

theorem frame_execKindleAttemptFail {L : List Part} {s0 s : State} {why : KindleFail} (hL : ([.supply, .tiers, .straps, .clock, .portA, .portB, .cut, .tables, .queues, .hands, .streams, .chans, .mem, .engine, .vault, .seat, .events, .dbg, .announce, .counters] : List Part) ⊆ L) (hF : Alters L s0 s) :
    Answers L s0 (execKindleAttemptFail why s) := by
  delta execKindleAttemptFail
  repeat (any_goals first
    | with_reducible assumption
    | exact List.Subset.trans (by decide) hL
    | (intro a x hx; beta_reduce)
    | (intro x hx; beta_reduce)
    | (extract_lets +onlyGivenNames x; refine (have hx : Alters L s0 x := ?_; ?_); (on_goal 1 => subst x); (on_goal 2 => clear_value x))
    | (extract_lets +onlyGivenNames x; clear_value x)
    | refine answers_next ?_
    | split
    | with_reducible refine frame_whenDue ?_ ?_
    | with_reducible refine frame_chipReset ?_ ?_
    | with_reducible refine frame_State_onSupply ?_ ?_)

theorem frame_execTierMoveDown {L : List Part} {s0 s : State} {lost : List UnitId} (hL : ([.free, .supply, .tiers, .straps, .clock, .portA, .portB, .cut, .tables, .queues, .hands, .streams, .chans, .mem, .engine, .vault, .seat, .events, .dbg, .announce, .counters] : List Part) ⊆ L) (hF : Alters L s0 s) :
    Answers L s0 (execTierMoveDown lost s) := by
  delta execTierMoveDown
  repeat (any_goals first
    | with_reducible assumption
    | exact List.Subset.trans (by decide) hL
    | (intro a x hx; beta_reduce)
    | (intro x hx; beta_reduce)
    | (extract_lets +onlyGivenNames x; refine (have hx : Alters L s0 x := ?_; ?_); (on_goal 1 => subst x); (on_goal 2 => clear_value x))
    | (extract_lets +onlyGivenNames x; clear_value x)
    | refine answers_next ?_
    | split
    | with_reducible refine frame_each ?_ ?_
    | with_reducible refine frame_vanLost ?_ ?_
    | with_reducible refine frame_unitFails ?_ ?_
    | with_reducible refine frame_settleTier ?_ ?_)

theorem frame_enterPassThroughUp {L : List Part} {s0 s : State}  (hL : ([.supply, .tiers, .cut, .mem, .seat, .events, .announce] : List Part) ⊆ L) (hF : Alters L s0 s) :
    Alters L s0 (enterPassThroughUp s) := by
  delta enterPassThroughUp
  repeat (any_goals first
    | with_reducible assumption
    | exact List.Subset.trans (by decide) hL
    | (extract_lets +onlyGivenNames x; refine (have hx : Alters L s0 x := ?_; ?_); (on_goal 1 => subst x); (on_goal 2 => clear_value x))
    | (extract_lets +onlyGivenNames x; clear_value x)
    | with_reducible refine frame_State_onSupply ?_ ?_
    | with_reducible refine frame_State_onTiers ?_ ?_
    | with_reducible refine frame_tierEvent ?_ ?_
    | with_reducible refine frame_raise ?_ ?_
    | with_reducible refine frame_State_onCut ?_ ?_
    | with_reducible refine frame_State_onAnnounce ?_ ?_
    | with_reducible refine frame_State_onMem ?_ ?_
    | with_reducible refine frame_State_onSeat ?_ ?_)

theorem frame_enterTierUp {L : List Part} {s0 s : State} {new : Tier} (hL : ([.tiers, .chans, .events] : List Part) ⊆ L) (hF : Alters L s0 s) :
    Alters L s0 (enterTierUp s new) := by
  delta enterTierUp
  repeat (any_goals first
    | with_reducible assumption
    | exact List.Subset.trans (by decide) hL
    | (extract_lets +onlyGivenNames x; refine (have hx : Alters L s0 x := ?_; ?_); (on_goal 1 => subst x); (on_goal 2 => clear_value x))
    | (extract_lets +onlyGivenNames x; clear_value x)
    | split
    | with_reducible refine frame_State_onTiers ?_ ?_
    | with_reducible refine frame_tierEvent ?_ ?_
    | with_reducible refine frame_setFrontEnds ?_ ?_)

theorem frame_unitRecovers {L : List Part} {s0 s : State} {us : List UnitId} (hL : ([.supply, .tiers] : List Part) ⊆ L) (hF : Alters L s0 s) :
    Alters L s0 (unitRecovers s us) := by
  delta unitRecovers
  repeat (any_goals first
    | with_reducible assumption
    | exact List.Subset.trans (by decide) hL
    | (extract_lets +onlyGivenNames x; refine (have hx : Alters L s0 x := ?_; ?_); (on_goal 1 => subst x); (on_goal 2 => clear_value x))
    | (extract_lets +onlyGivenNames x; clear_value x)
    | split
    | with_reducible refine frame_State_onTiers ?_ ?_
    | with_reducible refine frame_State_onSupply ?_ ?_)

theorem frame_execTierMoveUp {L : List Part} {s0 s : State} {recovered : List UnitId} (hL : ([.supply, .tiers, .cut, .chans, .mem, .seat, .events, .announce] : List Part) ⊆ L) (hF : Alters L s0 s) :
    Answers L s0 (execTierMoveUp recovered s) := by
  delta execTierMoveUp
  repeat (any_goals first
    | with_reducible assumption
    | exact List.Subset.trans (by decide) hL
    | (intro a x hx; beta_reduce)
    | (intro x hx; beta_reduce)
    | (extract_lets +onlyGivenNames x; refine (have hx : Alters L s0 x := ?_; ?_); (on_goal 1 => subst x); (on_goal 2 => clear_value x))
    | (extract_lets +onlyGivenNames x; clear_value x)
    | refine answers_next ?_
    | split
    | with_reducible refine frame_whenDue ?_ ?_
    | with_reducible refine frame_unitRecovers ?_ ?_
    | with_reducible refine frame_enterPassThroughUp ?_ ?_
    | with_reducible refine frame_enterTierUp ?_ ?_
    | with_reducible refine frame_State_onTiers ?_ ?_)

end Sys2Proof.Laws
end

