-- ==== Sys2Proof/Laws/FrameSeat.lean ====
section
/-! SUPPORT. What each operation of Machine/Seat.lean may change: the parts of the state it names, and nothing else. -/

namespace Sys2Proof.Laws

open Sys2Proof Sys2Proof.Machine Sys2Proof.Safety

set_option linter.unusedTactic false
set_option linter.unreachableTactic false
set_option linter.unusedVariables false

theorem frame_mirrorPut {L : List Part} {s0 s : State} {kind : Nat} {body : List Byte} (hL : ([.seat] : List Part) ⊆ L) (hF : Alters L s0 s) :
    Alters L s0 (mirrorPut s kind body) := by
  delta mirrorPut
  repeat (any_goals first
    | with_reducible assumption
    | exact List.Subset.trans (by decide) hL
    | with_reducible refine frame_State_onSeat ?_ ?_)

theorem frame_mirrorMsg {L : List Part} {s0 s : State} {kind : Nat} {body : List Byte} (hL : ([.seat] : List Part) ⊆ L) (hF : Alters L s0 s) :
    Alters L s0 (mirrorMsg s kind body) := by
  delta mirrorMsg
  repeat (any_goals first
    | with_reducible assumption
    | exact List.Subset.trans (by decide) hL
    | split
    | with_reducible refine frame_mirrorPut ?_ ?_)

theorem frame_dropPending {L : List Part} {s0 s : State} {n : Fin 24} {d : PendOut → Bool} (hL : ([.chans, .seat] : List Part) ⊆ L) (hF : Alters L s0 s) :
    Alters L s0 (dropPending s n d) := by
  delta dropPending
  repeat (any_goals first
    | with_reducible assumption
    | exact List.Subset.trans (by decide) hL
    | (intro a x hx; beta_reduce)
    | (intro x hx; beta_reduce)
    | (extract_lets +onlyGivenNames x; refine (have hx : Alters L s0 x := ?_; ?_); (on_goal 1 => subst x); (on_goal 2 => clear_value x))
    | (extract_lets +onlyGivenNames x; clear_value x)
    | with_reducible refine frame_each ?_ ?_
    | with_reducible refine frame_State_onChan ?_ ?_
    | with_reducible refine frame_mirrorMsg ?_ ?_)

theorem frame_mirrorStations {L : List Part} {s0 s : State} {h : Fin 16} (hL : ([.seat] : List Part) ⊆ L) (hF : Alters L s0 s) :
    Alters L s0 (mirrorStations s h) := by
  delta mirrorStations
  repeat (any_goals first
    | with_reducible assumption
    | exact List.Subset.trans (by decide) hL
    | with_reducible refine frame_mirrorMsg ?_ ?_)

theorem frame_endSubst {L : List Part} {s0 s : State} {n : Fin 24} {v : Int} (hL : ([.chans, .events] : List Part) ⊆ L) (hF : Alters L s0 s) :
    Alters L s0 (endSubst s n v) := by
  delta endSubst
  repeat (any_goals first
    | with_reducible assumption
    | exact List.Subset.trans (by decide) hL
    | (extract_lets +onlyGivenNames x; refine (have hx : Alters L s0 x := ?_; ?_); (on_goal 1 => subst x); (on_goal 2 => clear_value x))
    | (extract_lets +onlyGivenNames x; clear_value x)
    | split
    | with_reducible refine frame_clearLatching ?_ ?_
    | with_reducible refine frame_State_onChan ?_ ?_)

theorem frame_targetChosen {L : List Part} {s0 s : State} {n : Fin 24} {v : Int} (hL : ([.chans, .events] : List Part) ⊆ L) (hF : Alters L s0 s) :
    Alters L s0 (targetChosen s n v) := by
  delta targetChosen
  repeat (any_goals first
    | with_reducible assumption
    | exact List.Subset.trans (by decide) hL
    | (extract_lets +onlyGivenNames x; refine (have hx : Alters L s0 x := ?_; ?_); (on_goal 1 => subst x); (on_goal 2 => clear_value x))
    | (extract_lets +onlyGivenNames x; clear_value x)
    | split
    | with_reducible refine frame_endSubst ?_ ?_
    | with_reducible refine frame_State_onChan ?_ ?_)

theorem frame_applyOut {L : List Part} {s0 s : State} {n : Fin 24} {v : Int} {a : Tick} (hL : ([.chans, .events] : List Part) ⊆ L) (hF : Alters L s0 s) :
    Alters L s0 (applyOut s n v a) := by
  delta applyOut
  repeat (any_goals first
    | with_reducible assumption
    | exact List.Subset.trans (by decide) hL
    | (extract_lets +onlyGivenNames x; refine (have hx : Alters L s0 x := ?_; ?_); (on_goal 1 => subst x); (on_goal 2 => clear_value x))
    | (extract_lets +onlyGivenNames x; clear_value x)
    | split
    | with_reducible refine frame_targetChosen ?_ ?_
    | with_reducible refine frame_State_onChan ?_ ?_
    | with_reducible refine frame_driveShell ?_ ?_)

theorem frame_setDrive {L : List Part} {s0 s : State} {n : Fin 24} {d : Drive} (hL : ([.chans] : List Part) ⊆ L) (hF : Alters L s0 s) :
    Alters L s0 (setDrive s n d) := by
  delta setDrive
  repeat (any_goals first
    | with_reducible assumption
    | exact List.Subset.trans (by decide) hL
    | (extract_lets +onlyGivenNames x; refine (have hx : Alters L s0 x := ?_; ?_); (on_goal 1 => subst x); (on_goal 2 => clear_value x))
    | (extract_lets +onlyGivenNames x; clear_value x)
    | split
    | with_reducible refine frame_State_onChan ?_ ?_)

theorem frame_handbackTrack {L : List Part} {s0 s : State} {n : Fin 24} {own : Int} (hL : ([.seat] : List Part) ⊆ L) (hF : Alters L s0 s) :
    Alters L s0 (handbackTrack s n own) := by
  delta handbackTrack
  repeat (any_goals first
    | with_reducible assumption
    | exact List.Subset.trans (by decide) hL
    | (extract_lets +onlyGivenNames x; refine (have hx : Alters L s0 x := ?_; ?_); (on_goal 1 => subst x); (on_goal 2 => clear_value x))
    | (extract_lets +onlyGivenNames x; clear_value x)
    | split
    | with_reducible refine frame_State_onSeat ?_ ?_)

theorem frame_seatWithdrawn {L : List Part} {s0 s : State}  (hL : ([.chans] : List Part) ⊆ L) (hF : Alters L s0 s) :
    Alters L s0 (seatWithdrawn s) := by
  delta seatWithdrawn
  repeat (any_goals first
    | with_reducible assumption
    | exact List.Subset.trans (by decide) hL
    | (intro a x hx; beta_reduce)
    | (intro x hx; beta_reduce)
    | with_reducible refine frame_each ?_ ?_
    | with_reducible refine frame_setFrontEnd ?_ ?_
    | with_reducible refine frame_setDrive ?_ ?_
    | with_reducible refine frame_State_onChan ?_ ?_)

theorem frame_seatEnter {L : List Part} {s0 s : State} {new : Seat} (hL : ([.chans, .seat, .events] : List Part) ⊆ L) (hF : Alters L s0 s) :
    Alters L s0 (seatEnter s new) := by
  delta seatEnter
  repeat (any_goals first
    | with_reducible assumption
    | exact List.Subset.trans (by decide) hL
    | (intro a x hx; beta_reduce)
    | (intro x hx; beta_reduce)
    | (extract_lets +onlyGivenNames x; refine (have hx : Alters L s0 x := ?_; ?_); (on_goal 1 => subst x); (on_goal 2 => clear_value x))
    | (extract_lets +onlyGivenNames x; clear_value x)
    | split
    | with_reducible refine frame_each ?_ ?_
    | with_reducible refine frame_raise ?_ ?_
    | with_reducible refine frame_State_onSeat ?_ ?_
    | with_reducible refine frame_setDrive ?_ ?_
    | with_reducible refine frame_seatWithdrawn ?_ ?_)

end Sys2Proof.Laws
end

