-- ==== Sys2Proof/Laws/FrameKeepers.lean ====
section
/-! SUPPORT. What each operation of Machine/Keepers.lean may change: the parts of the state it names, and nothing else. -/

namespace Sys2Proof.Laws

open Sys2Proof Sys2Proof.Machine Sys2Proof.Safety

set_option linter.unusedTactic false
set_option linter.unreachableTactic false
set_option linter.unusedVariables false

theorem frame_refreshOne {L : List Part} {s0 s : State} {n : Fin 24} (hL : ([.chans, .events] : List Part) ⊆ L) (hF : Alters L s0 s) :
    Alters L s0 (refreshOne n s) := by
  delta refreshOne
  repeat (any_goals first
    | with_reducible assumption
    | exact List.Subset.trans (by decide) hL
    | (extract_lets +onlyGivenNames x; refine (have hx : Alters L s0 x := ?_; ?_); (on_goal 1 => subst x); (on_goal 2 => clear_value x))
    | (extract_lets +onlyGivenNames x; clear_value x)
    | split
    | with_reducible refine frame_State_onChan ?_ ?_
    | with_reducible refine frame_endSubst ?_ ?_
    | with_reducible refine frame_driveShell ?_ ?_)

theorem frame_execKeeperRefresh {L : List Part} {s0 s : State}  (hL : ([.chans, .events] : List Part) ⊆ L) (hF : Alters L s0 s) :
    Answers L s0 (execKeeperRefresh s) := by
  delta execKeeperRefresh
  repeat (any_goals first
    | with_reducible assumption
    | exact List.Subset.trans (by decide) hL
    | (intro a x hx; beta_reduce)
    | (intro x hx; beta_reduce)
    | refine answers_next ?_
    | with_reducible refine frame_whenDue ?_ ?_
    | with_reducible refine frame_each ?_ ?_
    | with_reducible refine frame_refreshOne ?_ ?_)

theorem frame_execKeeperTimerExpiry {L : List Part} {s0 s : State} {ch : Fin 24} {atLimit : Bool} {activity : Bool} {own : Int} {total : Int} (hL : ([.chans] : List Part) ⊆ L) (hF : Alters L s0 s) :
    Answers L s0 (execKeeperTimerExpiry ch atLimit activity own total s) := by
  delta execKeeperTimerExpiry
  repeat (any_goals first
    | with_reducible assumption
    | exact List.Subset.trans (by decide) hL
    | (intro a x hx; beta_reduce)
    | (intro x hx; beta_reduce)
    | (extract_lets +onlyGivenNames x; refine (have hx : Alters L s0 x := ?_; ?_); (on_goal 1 => subst x); (on_goal 2 => clear_value x))
    | (extract_lets +onlyGivenNames x; clear_value x)
    | refine answers_next ?_
    | split
    | with_reducible refine frame_whenDue ?_ ?_
    | with_reducible refine frame_State_onChan ?_ ?_)

theorem frame_keeperCheckOne {L : List Part} {s0 s : State} {d : Fin 24 × Nat × Nat} (hL : ([.chans, .events] : List Part) ⊆ L) (hF : Alters L s0 s) :
    Alters L s0 (keeperCheckOne d s) := by
  delta keeperCheckOne
  repeat (any_goals first
    | with_reducible assumption
    | exact List.Subset.trans (by decide) hL
    | (extract_lets +onlyGivenNames x; refine (have hx : Alters L s0 x := ?_; ?_); (on_goal 1 => subst x); (on_goal 2 => clear_value x))
    | (extract_lets +onlyGivenNames x; clear_value x)
    | split
    | with_reducible refine frame_State_onChan ?_ ?_
    | with_reducible refine frame_raise ?_ ?_
    | with_reducible refine frame_clearLatching ?_ ?_)

theorem frame_execKeeperCheck {L : List Part} {s0 s : State} {diffs : List (Fin 24 × Nat × Nat)} (hL : ([.chans, .events] : List Part) ⊆ L) (hF : Alters L s0 s) :
    Answers L s0 (execKeeperCheck diffs s) := by
  delta execKeeperCheck
  repeat (any_goals first
    | with_reducible assumption
    | exact List.Subset.trans (by decide) hL
    | (intro a x hx; beta_reduce)
    | (intro x hx; beta_reduce)
    | refine answers_next ?_
    | with_reducible refine frame_whenDue ?_ ?_
    | with_reducible refine frame_each ?_ ?_
    | with_reducible refine frame_keeperCheckOne ?_ ?_)

theorem frame_crosspointOne {L : List Part} {s0 s : State} {bad : List (Fin 24 × Fin 4)} {n : Fin 24} (hL : ([.chans, .events] : List Part) ⊆ L) (hF : Alters L s0 s) :
    Alters L s0 (crosspointOne bad n s) := by
  delta crosspointOne
  repeat (any_goals first
    | with_reducible assumption
    | exact List.Subset.trans (by decide) hL
    | (extract_lets +onlyGivenNames x; refine (have hx : Alters L s0 x := ?_; ?_); (on_goal 1 => subst x); (on_goal 2 => clear_value x))
    | (extract_lets +onlyGivenNames x; clear_value x)
    | split
    | with_reducible refine frame_State_onChan ?_ ?_
    | with_reducible refine frame_raise ?_ ?_
    | with_reducible refine frame_capChannel ?_ ?_
    | with_reducible refine frame_setFrontEnd ?_ ?_)

theorem frame_execCrosspointCheck {L : List Part} {s0 s : State} {bad : List (Fin 24 × Fin 4)} (hL : ([.chans, .events] : List Part) ⊆ L) (hF : Alters L s0 s) :
    Answers L s0 (execCrosspointCheck bad s) := by
  delta execCrosspointCheck
  repeat (any_goals first
    | with_reducible assumption
    | exact List.Subset.trans (by decide) hL
    | (intro a x hx; beta_reduce)
    | (intro x hx; beta_reduce)
    | refine answers_next ?_
    | with_reducible refine frame_whenDue ?_ ?_
    | with_reducible refine frame_each ?_ ?_
    | with_reducible refine frame_crosspointOne ?_ ?_)

end Sys2Proof.Laws
end

