-- ==== Sys2Proof/Laws/FrameStraps.lean ====
section
/-! SUPPORT. What each operation of Machine/Straps.lean may change: the parts of the state it names, and nothing else. -/

namespace Sys2Proof.Laws

open Sys2Proof Sys2Proof.Machine Sys2Proof.Safety

set_option linter.unusedTactic false
set_option linter.unreachableTactic false
set_option linter.unusedVariables false

theorem frame_startReread {L : List Part} {s0 s : State} {f : CmdFrame} (hL : ([.straps, .chans] : List Part) ⊆ L) (hF : Alters L s0 s) :
    Alters L s0 (startReread s f) := by
  delta startReread
  repeat (any_goals first
    | with_reducible assumption
    | exact List.Subset.trans (by decide) hL
    | (extract_lets +onlyGivenNames x; refine (have hx : Alters L s0 x := ?_; ?_); (on_goal 1 => subst x); (on_goal 2 => clear_value x))
    | (extract_lets +onlyGivenNames x; clear_value x)
    | split
    | with_reducible refine frame_State_onStraps ?_ ?_
    | with_reducible refine frame_staleBegin ?_ ?_
    | with_reducible refine frame_State_onChan ?_ ?_
    | with_reducible refine frame_bankNow ?_ ?_)

theorem frame_requestReread {L : List Part} {s0 s : State} {f : CmdFrame} (hL : ([.straps, .chans] : List Part) ⊆ L) (hF : Alters L s0 s) :
    Alters L s0 (requestReread s f) := by
  delta requestReread
  repeat (any_goals first
    | with_reducible assumption
    | exact List.Subset.trans (by decide) hL
    | split
    | with_reducible refine frame_startReread ?_ ?_
    | with_reducible refine frame_State_onStraps ?_ ?_)

theorem frame_execStrapRereadEnd {L : List Part} {s0 s : State}  (hL : ([.straps, .tables, .chans, .mem, .engine, .vault, .seat, .events] : List Part) ⊆ L) (hF : Alters L s0 s) :
    Answers L s0 (execStrapRereadEnd s) := by
  delta execStrapRereadEnd
  repeat (any_goals first
    | with_reducible assumption
    | exact List.Subset.trans (by decide) hL
    | (intro a x hx; beta_reduce)
    | (intro x hx; beta_reduce)
    | (extract_lets +onlyGivenNames x; refine (have hx : Alters L s0 x := ?_; ?_); (on_goal 1 => subst x); (on_goal 2 => clear_value x))
    | (extract_lets +onlyGivenNames x; clear_value x)
    | refine answers_next ?_
    | split
    | with_reducible refine frame_whenDue ?_ ?_
    | with_reducible refine frame_each ?_ ?_
    | with_reducible refine frame_raise ?_ ?_
    | with_reducible refine frame_marginalEvent ?_ ?_
    | with_reducible refine frame_strapEvents ?_ ?_
    | with_reducible refine frame_State_onStraps ?_ ?_
    | with_reducible refine frame_State_onVault ?_ ?_
    | with_reducible refine frame_startRekindle ?_ ?_)

theorem frame_execRereadHeldStart {L : List Part} {s0 s : State}  (hL : ([.straps, .chans] : List Part) ⊆ L) (hF : Alters L s0 s) :
    Answers L s0 (execRereadHeldStart s) := by
  delta execRereadHeldStart
  repeat (any_goals first
    | with_reducible assumption
    | exact List.Subset.trans (by decide) hL
    | (intro a x hx; beta_reduce)
    | (intro x hx; beta_reduce)
    | refine answers_next ?_
    | split
    | with_reducible refine frame_whenDue ?_ ?_
    | with_reducible refine frame_startReread ?_ ?_
    | with_reducible refine frame_State_onStraps ?_ ?_)

theorem frame_applyChannel {L : List Part} {s0 s : State} {e : Fin 24 × Option (BitVec 8)} (hL : ([.free, .queues, .hands, .streams, .chans, .events, .counters] : List Part) ⊆ L) (hF : Alters L s0 s) :
    Alters L s0 (applyChannel e s) := by
  delta applyChannel
  repeat (any_goals first
    | with_reducible assumption
    | exact List.Subset.trans (by decide) hL
    | (intro a x hx; beta_reduce)
    | (intro x hx; beta_reduce)
    | (extract_lets +onlyGivenNames x; refine (have hx : Alters L s0 x := ?_; ?_); (on_goal 1 => subst x); (on_goal 2 => clear_value x))
    | (extract_lets +onlyGivenNames x; clear_value x)
    | split
    | with_reducible refine frame_each ?_ ?_
    | with_reducible refine frame_staleEnd ?_ ?_
    | with_reducible refine frame_State_onChan ?_ ?_
    | with_reducible refine frame_setFrontEnd ?_ ?_
    | with_reducible refine frame_driveShell ?_ ?_
    | with_reducible refine frame_closeStreamEvent ?_ ?_
    | with_reducible refine frame_clearChannelLatches ?_ ?_
    | with_reducible refine frame_configureChannel ?_ ?_
    | with_reducible refine frame_curveEmptyEvent ?_ ?_
    | with_reducible refine frame_clearLatching ?_ ?_
    | with_reducible refine frame_freeGrids ?_ ?_)

theorem frame_applyBlankmap {L : List Part} {s0 s : State} {c : Code} (hL : ([.straps, .chans] : List Part) ⊆ L) (hF : Alters L s0 s) :
    Alters L s0 (applyBlankmap s c) := by
  delta applyBlankmap
  repeat (any_goals first
    | with_reducible assumption
    | exact List.Subset.trans (by decide) hL
    | (extract_lets +onlyGivenNames x; refine (have hx : Alters L s0 x := ?_; ?_); (on_goal 1 => subst x); (on_goal 2 => clear_value x))
    | (extract_lets +onlyGivenNames x; clear_value x)
    | split
    | with_reducible refine frame_State_onStraps ?_ ?_
    | with_reducible refine frame_State_mapChans ?_ ?_
    | with_reducible refine frame_setFrontEnds ?_ ?_)

theorem frame_applyMask {L : List Part} {s0 s : State} {p : Port} (hL : ([.portA, .portB, .tables] : List Part) ⊆ L) (hF : Alters L s0 s) :
    Alters L s0 (applyMask p s) := by
  delta applyMask
  repeat (any_goals first
    | with_reducible assumption
    | exact List.Subset.trans (by decide) hL
    | split
    | with_reducible refine frame_State_onPort ?_ ?_
    | with_reducible refine frame_resound ?_ ?_)

theorem frame_applyDetection {L : List Part} {s0 s : State} {p : Port} {pin : Nat} (hL : ([.portA, .portB, .tables, .events] : List Part) ⊆ L) (hF : Alters L s0 s) :
    Alters L s0 (applyDetection s p pin) := by
  delta applyDetection
  repeat (any_goals first
    | with_reducible assumption
    | exact List.Subset.trans (by decide) hL
    | (extract_lets +onlyGivenNames x; refine (have hx : Alters L s0 x := ?_; ?_); (on_goal 1 => subst x); (on_goal 2 => clear_value x))
    | (extract_lets +onlyGivenNames x; clear_value x)
    | split
    | with_reducible refine frame_State_onPort ?_ ?_
    | with_reducible refine frame_resound ?_ ?_
    | with_reducible refine frame_clearLatching ?_ ?_)

theorem frame_applyFunction {L : List Part} {s0 s : State} {fn : Nat} (hL : ([.supply, .straps, .portA, .portB, .tables, .chans, .events] : List Part) ⊆ L) (hF : Alters L s0 s) :
    Alters L s0 (applyFunction fn s) := by
  delta applyFunction
  repeat (any_goals first
    | with_reducible assumption
    | exact List.Subset.trans (by decide) hL
    | (extract_lets +onlyGivenNames x; refine (have hx : Alters L s0 x := ?_; ?_); (on_goal 1 => subst x); (on_goal 2 => clear_value x))
    | (extract_lets +onlyGivenNames x; clear_value x)
    | split
    | with_reducible refine frame_applyMask ?_ ?_
    | with_reducible refine frame_applyDetection ?_ ?_
    | with_reducible refine frame_clearLatching ?_ ?_
    | with_reducible refine frame_State_onSupply ?_ ?_
    | with_reducible refine frame_State_onStraps ?_ ?_
    | with_reducible refine frame_applyBlankmap ?_ ?_)

theorem frame_execRestrapApply {L : List Part} {s0 s : State}  (hL : ([.free, .supply, .straps, .portA, .portB, .tables, .queues, .hands, .streams, .chans, .events, .counters] : List Part) ⊆ L) (hF : Alters L s0 s) :
    Answers L s0 (execRestrapApply s) := by
  delta execRestrapApply
  repeat (any_goals first
    | with_reducible assumption
    | exact List.Subset.trans (by decide) hL
    | (intro a x hx; beta_reduce)
    | (intro x hx; beta_reduce)
    | (extract_lets +onlyGivenNames x; refine (have hx : Alters L s0 x := ?_; ?_); (on_goal 1 => subst x); (on_goal 2 => clear_value x))
    | (extract_lets +onlyGivenNames x; clear_value x)
    | refine answers_next ?_
    | with_reducible refine frame_whenDue ?_ ?_
    | with_reducible refine frame_each ?_ ?_
    | with_reducible refine frame_State_onStraps ?_ ?_
    | with_reducible refine frame_applyFunction ?_ ?_
    | with_reducible refine frame_applyChannel ?_ ?_)

theorem frame_execBlankmapDeferredApply {L : List Part} {s0 s : State}  (hL : ([.straps, .chans] : List Part) ⊆ L) (hF : Alters L s0 s) :
    Answers L s0 (execBlankmapDeferredApply s) := by
  delta execBlankmapDeferredApply
  repeat (any_goals first
    | with_reducible assumption
    | exact List.Subset.trans (by decide) hL
    | (intro a x hx; beta_reduce)
    | (intro x hx; beta_reduce)
    | refine answers_next ?_
    | split
    | with_reducible refine frame_whenDue ?_ ?_
    | with_reducible refine frame_applyBlankmap ?_ ?_)

theorem frame_execCurveCapLift {L : List Part} {s0 s : State}  (hL : ([.chans, .events] : List Part) ⊆ L) (hF : Alters L s0 s) :
    Answers L s0 (execCurveCapLift s) := by
  delta execCurveCapLift
  repeat (any_goals first
    | with_reducible assumption
    | exact List.Subset.trans (by decide) hL
    | (intro a x hx; beta_reduce)
    | (intro x hx; beta_reduce)
    | (extract_lets +onlyGivenNames x; refine (have hx : Alters L s0 x := ?_; ?_); (on_goal 1 => subst x); (on_goal 2 => clear_value x))
    | (extract_lets +onlyGivenNames x; clear_value x)
    | refine answers_next ?_
    | split
    | with_reducible refine frame_whenDue ?_ ?_
    | with_reducible refine frame_each ?_ ?_
    | with_reducible refine frame_clearLatching ?_ ?_
    | with_reducible refine frame_setFrontEnd ?_ ?_
    | with_reducible refine frame_State_onChan ?_ ?_)

theorem frame_execPhyMaskDeferredApply {L : List Part} {s0 s : State} {p : Port} (hL : ([.portA, .portB, .tables] : List Part) ⊆ L) (hF : Alters L s0 s) :
    Answers L s0 (execPhyMaskDeferredApply p s) := by
  delta execPhyMaskDeferredApply
  repeat (any_goals first
    | with_reducible assumption
    | exact List.Subset.trans (by decide) hL
    | (intro a x hx; beta_reduce)
    | (intro x hx; beta_reduce)
    | refine answers_next ?_
    | with_reducible refine frame_whenDue ?_ ?_
    | with_reducible refine frame_applyMask ?_ ?_)

end Sys2Proof.Laws
end

