-- ==== Sys2Proof/Laws/FrameSupplies.lean ====
section
/-! SUPPORT. What each operation of Machine/Supplies.lean may change: the parts of the state it names, and nothing else. -/

namespace Sys2Proof.Laws

open Sys2Proof Sys2Proof.Machine Sys2Proof.Safety

set_option linter.unusedTactic false
set_option linter.unreachableTactic false
set_option linter.unusedVariables false

theorem frame_execTrunkVUpdate {L : List Part} {s0 s : State} {n : Nat} (hL : ([.supply, .events] : List Part) ⊆ L) (hF : Alters L s0 s) :
    Answers L s0 (execTrunkVUpdate n s) := by
  delta execTrunkVUpdate
  repeat (any_goals first
    | with_reducible assumption
    | exact List.Subset.trans (by decide) hL
    | (intro a x hx; beta_reduce)
    | (intro x hx; beta_reduce)
    | (extract_lets +onlyGivenNames x; refine (have hx : Alters L s0 x := ?_; ?_); (on_goal 1 => subst x); (on_goal 2 => clear_value x))
    | (extract_lets +onlyGivenNames x; clear_value x)
    | refine answers_next ?_
    | split
    | with_reducible refine frame_whenDue ?_ ?_
    | with_reducible refine frame_State_onSupply ?_ ?_
    | with_reducible refine frame_clearLatching ?_ ?_
    | with_reducible refine frame_raise ?_ ?_)

theorem frame_execTrunkAbsent {L : List Part} {s0 s : State}  (hL : ([.supply] : List Part) ⊆ L) (hF : Alters L s0 s) :
    Answers L s0 (execTrunkAbsent s) := by
  delta execTrunkAbsent
  repeat (any_goals first
    | with_reducible assumption
    | exact List.Subset.trans (by decide) hL
    | (intro a x hx; beta_reduce)
    | (intro x hx; beta_reduce)
    | refine answers_next ?_
    | with_reducible refine frame_whenDue ?_ ?_
    | with_reducible refine frame_State_onSupply ?_ ?_)

theorem frame_execTelemetryLost {L : List Part} {s0 s : State}  (hL : ([.events] : List Part) ⊆ L) (hF : Alters L s0 s) :
    Answers L s0 (execTelemetryLost s) := by
  delta execTelemetryLost
  repeat (any_goals first
    | with_reducible assumption
    | exact List.Subset.trans (by decide) hL
    | (intro a x hx; beta_reduce)
    | (intro x hx; beta_reduce)
    | refine answers_next ?_
    | with_reducible refine frame_whenDue ?_ ?_
    | with_reducible refine frame_raise ?_ ?_)

theorem frame_execDamperUpdate {L : List Part} {s0 s : State}  (hL : ([.supply] : List Part) ⊆ L) (hF : Alters L s0 s) :
    Answers L s0 (execDamperUpdate s) := by
  delta execDamperUpdate
  repeat (any_goals first
    | with_reducible assumption
    | exact List.Subset.trans (by decide) hL
    | (intro a x hx; beta_reduce)
    | (intro x hx; beta_reduce)
    | (extract_lets +onlyGivenNames x; refine (have hx : Alters L s0 x := ?_; ?_); (on_goal 1 => subst x); (on_goal 2 => clear_value x))
    | (extract_lets +onlyGivenNames x; clear_value x)
    | refine answers_next ?_
    | with_reducible refine frame_whenDue ?_ ?_
    | with_reducible refine frame_State_onSupply ?_ ?_)

theorem frame_execFlueLimStart {L : List Part} {s0 s : State}  (hL : ([.supply] : List Part) ⊆ L) (hF : Alters L s0 s) :
    Answers L s0 (execFlueLimStart s) := by
  delta execFlueLimStart
  repeat (any_goals first
    | with_reducible assumption
    | exact List.Subset.trans (by decide) hL
    | (intro a x hx; beta_reduce)
    | (intro x hx; beta_reduce)
    | (extract_lets +onlyGivenNames x; refine (have hx : Alters L s0 x := ?_; ?_); (on_goal 1 => subst x); (on_goal 2 => clear_value x))
    | (extract_lets +onlyGivenNames x; clear_value x)
    | refine answers_next ?_
    | with_reducible refine frame_whenDue ?_ ?_
    | with_reducible refine frame_State_onSupply ?_ ?_)

theorem frame_execLedgerUpdate {L : List Part} {s0 s : State} {vh : Nat} {vbus : Nat} (hL : ([.supply] : List Part) ⊆ L) (hF : Alters L s0 s) :
    Answers L s0 (execLedgerUpdate vh vbus s) := by
  delta execLedgerUpdate
  repeat (any_goals first
    | with_reducible assumption
    | exact List.Subset.trans (by decide) hL
    | (intro a x hx; beta_reduce)
    | (intro x hx; beta_reduce)
    | (extract_lets +onlyGivenNames x; refine (have hx : Alters L s0 x := ?_; ?_); (on_goal 1 => subst x); (on_goal 2 => clear_value x))
    | (extract_lets +onlyGivenNames x; clear_value x)
    | refine answers_next ?_
    | with_reducible refine frame_whenDue ?_ ?_
    | with_reducible refine frame_State_onSupply ?_ ?_)

theorem frame_execChargeEnable {L : List Part} {s0 s : State}  (hL : ([.supply] : List Part) ⊆ L) (hF : Alters L s0 s) :
    Answers L s0 (execChargeEnable s) := by
  delta execChargeEnable
  repeat (any_goals first
    | with_reducible assumption
    | exact List.Subset.trans (by decide) hL
    | (intro a x hx; beta_reduce)
    | (intro x hx; beta_reduce)
    | (extract_lets +onlyGivenNames x; refine (have hx : Alters L s0 x := ?_; ?_); (on_goal 1 => subst x); (on_goal 2 => clear_value x))
    | (extract_lets +onlyGivenNames x; clear_value x)
    | refine answers_next ?_
    | with_reducible refine frame_whenDue ?_ ?_
    | with_reducible refine frame_State_onSupply ?_ ?_)

theorem frame_execChargePause {L : List Part} {s0 s : State}  (hL : ([.supply] : List Part) ⊆ L) (hF : Alters L s0 s) :
    Answers L s0 (execChargePause s) := by
  delta execChargePause
  repeat (any_goals first
    | with_reducible assumption
    | exact List.Subset.trans (by decide) hL
    | (intro a x hx; beta_reduce)
    | (intro x hx; beta_reduce)
    | refine answers_next ?_
    | with_reducible refine frame_whenDue ?_ ?_
    | with_reducible refine frame_State_onSupply ?_ ?_)

theorem frame_execHearthOvervoltage {L : List Part} {s0 s : State}  (hL : ([.supply, .events] : List Part) ⊆ L) (hF : Alters L s0 s) :
    Answers L s0 (execHearthOvervoltage s) := by
  delta execHearthOvervoltage
  repeat (any_goals first
    | with_reducible assumption
    | exact List.Subset.trans (by decide) hL
    | (intro a x hx; beta_reduce)
    | (intro x hx; beta_reduce)
    | refine answers_next ?_
    | with_reducible refine frame_whenDue ?_ ?_
    | with_reducible refine frame_raise ?_ ?_
    | with_reducible refine frame_State_onSupply ?_ ?_)

theorem frame_execHearthWeak {L : List Part} {s0 s : State} {vh : Nat} (hL : ([.supply, .events] : List Part) ⊆ L) (hF : Alters L s0 s) :
    Answers L s0 (execHearthWeak vh s) := by
  delta execHearthWeak
  repeat (any_goals first
    | with_reducible assumption
    | exact List.Subset.trans (by decide) hL
    | (intro a x hx; beta_reduce)
    | (intro x hx; beta_reduce)
    | (extract_lets +onlyGivenNames x; refine (have hx : Alters L s0 x := ?_; ?_); (on_goal 1 => subst x); (on_goal 2 => clear_value x))
    | (extract_lets +onlyGivenNames x; clear_value x)
    | refine answers_next ?_
    | split
    | with_reducible refine frame_whenDue ?_ ?_
    | with_reducible refine frame_raise ?_ ?_
    | with_reducible refine frame_State_onSupply ?_ ?_)

theorem frame_execVbusOvervoltage {L : List Part} {s0 s : State} {vbus : Nat} (hL : ([.supply, .events] : List Part) ⊆ L) (hF : Alters L s0 s) :
    Answers L s0 (execVbusOvervoltage vbus s) := by
  delta execVbusOvervoltage
  repeat (any_goals first
    | with_reducible assumption
    | exact List.Subset.trans (by decide) hL
    | (intro a x hx; beta_reduce)
    | (intro x hx; beta_reduce)
    | (extract_lets +onlyGivenNames x; refine (have hx : Alters L s0 x := ?_; ?_); (on_goal 1 => subst x); (on_goal 2 => clear_value x))
    | (extract_lets +onlyGivenNames x; clear_value x)
    | refine answers_next ?_
    | split
    | with_reducible refine frame_whenDue ?_ ?_
    | with_reducible refine frame_raise ?_ ?_
    | with_reducible refine frame_State_onSupply ?_ ?_)

theorem frame_execRidingEnter {L : List Part} {s0 s : State} {vbus : Nat} (hL : ([.supply, .events] : List Part) ⊆ L) (hF : Alters L s0 s) :
    Answers L s0 (execRidingEnter vbus s) := by
  delta execRidingEnter
  repeat (any_goals first
    | with_reducible assumption
    | exact List.Subset.trans (by decide) hL
    | (intro a x hx; beta_reduce)
    | (intro x hx; beta_reduce)
    | (extract_lets +onlyGivenNames x; refine (have hx : Alters L s0 x := ?_; ?_); (on_goal 1 => subst x); (on_goal 2 => clear_value x))
    | (extract_lets +onlyGivenNames x; clear_value x)
    | refine answers_next ?_
    | with_reducible refine frame_whenDue ?_ ?_
    | with_reducible refine frame_raise ?_ ?_
    | with_reducible refine frame_State_onSupply ?_ ?_)

theorem frame_execRidingEnd {L : List Part} {s0 s : State} {vbus : Nat} (hL : ([.supply, .events] : List Part) ⊆ L) (hF : Alters L s0 s) :
    Answers L s0 (execRidingEnd vbus s) := by
  delta execRidingEnd
  repeat (any_goals first
    | with_reducible assumption
    | exact List.Subset.trans (by decide) hL
    | (intro a x hx; beta_reduce)
    | (intro x hx; beta_reduce)
    | (extract_lets +onlyGivenNames x; refine (have hx : Alters L s0 x := ?_; ?_); (on_goal 1 => subst x); (on_goal 2 => clear_value x))
    | (extract_lets +onlyGivenNames x; clear_value x)
    | refine answers_next ?_
    | with_reducible refine frame_whenDue ?_ ?_
    | with_reducible refine frame_clearLatching ?_ ?_
    | with_reducible refine frame_State_onSupply ?_ ?_)

theorem frame_execEmberEntry {L : List Part} {s0 s : State}  (hL : ([.free, .supply, .tiers, .straps, .clock, .portA, .portB, .cut, .tables, .queues, .hands, .streams, .chans, .mem, .engine, .vault, .seat, .events, .dbg, .counters] : List Part) ⊆ L) (hF : Alters L s0 s) :
    Answers L s0 (execEmberEntry s) := by
  have m_chans : Part.chans ∈ L := hL (by decide)
  have m_clock : Part.clock ∈ L := hL (by decide)
  have m_cut : Part.cut ∈ L := hL (by decide)
  have m_dbg : Part.dbg ∈ L := hL (by decide)
  have m_engine : Part.engine ∈ L := hL (by decide)
  have m_events : Part.events ∈ L := hL (by decide)
  have m_hands : Part.hands ∈ L := hL (by decide)
  have m_mem : Part.mem ∈ L := hL (by decide)
  have m_portA : Part.portA ∈ L := hL (by decide)
  have m_portB : Part.portB ∈ L := hL (by decide)
  have m_queues : Part.queues ∈ L := hL (by decide)
  have m_seat : Part.seat ∈ L := hL (by decide)
  have m_straps : Part.straps ∈ L := hL (by decide)
  have m_streams : Part.streams ∈ L := hL (by decide)
  have m_vault : Part.vault ∈ L := hL (by decide)
  delta execEmberEntry
  repeat (any_goals first
    | with_reducible assumption
    | exact List.Subset.trans (by decide) hL
    | (intro a x hx; beta_reduce)
    | (intro x hx; beta_reduce)
    | (extract_lets +onlyGivenNames x; refine (have hx : Alters L s0 x := ?_; ?_); (on_goal 1 => subst x); (on_goal 2 => clear_value x))
    | (extract_lets +onlyGivenNames x; clear_value x)
    | refine answers_next ?_
    | split
    | with_reducible refine frame_whenDue ?_ ?_
    | with_reducible refine frame_leaveFull ?_ ?_
    | with_reducible refine frame_closeSession ?_ ?_
    | with_reducible refine frame_closeAllStreams ?_ ?_
    | with_reducible refine frame_State_onTiers ?_ ?_
    | with_reducible refine frame_State_mapChans ?_ ?_
    | with_reducible refine frame_State_onTables ?_ ?_
    | with_reducible refine frame_State_onSupply ?_ ?_
    | simp only [frame_mk_straps_clock_portA_portB_cut_queues_hands_streams_chans_mem_engine_vault_seat_events_dbg m_straps m_clock m_portA m_portB m_cut m_queues m_hands m_streams m_chans m_mem m_engine m_vault m_seat m_events m_dbg])

theorem frame_execBrownoutNoHearth {L : List Part} {s0 s : State}  (hL : ([.supply, .tiers, .straps, .clock, .portA, .portB, .cut, .tables, .queues, .hands, .streams, .chans, .mem, .engine, .vault, .seat, .events, .dbg, .announce, .counters] : List Part) ⊆ L) (hF : Alters L s0 s) :
    Answers L s0 (execBrownoutNoHearth s) := by
  delta execBrownoutNoHearth
  repeat (any_goals first
    | with_reducible assumption
    | exact List.Subset.trans (by decide) hL
    | (intro a x hx; beta_reduce)
    | (intro x hx; beta_reduce)
    | (extract_lets +onlyGivenNames x; refine (have hx : Alters L s0 x := ?_; ?_); (on_goal 1 => subst x); (on_goal 2 => clear_value x))
    | (extract_lets +onlyGivenNames x; clear_value x)
    | refine answers_next ?_
    | split
    | with_reducible refine frame_whenDue ?_ ?_
    | with_reducible refine frame_chipReset ?_ ?_
    | with_reducible refine frame_State_onSupply ?_ ?_)

theorem frame_execEmberVsramLoss {L : List Part} {s0 s : State}  (hL : ([.supply] : List Part) ⊆ L) (hF : Alters L s0 s) :
    Answers L s0 (execEmberVsramLoss s) := by
  delta execEmberVsramLoss
  repeat (any_goals first
    | with_reducible assumption
    | exact List.Subset.trans (by decide) hL
    | (intro a x hx; beta_reduce)
    | (intro x hx; beta_reduce)
    | refine answers_next ?_
    | with_reducible refine frame_whenDue ?_ ?_
    | with_reducible refine frame_State_onSupply ?_ ?_)

theorem frame_execEmberWake {L : List Part} {s0 s : State}  (hL : ([.supply, .tiers, .straps, .clock, .portA, .portB, .cut, .tables, .queues, .hands, .streams, .chans, .mem, .engine, .vault, .seat, .events, .dbg, .announce, .counters] : List Part) ⊆ L) (hF : Alters L s0 s) :
    Answers L s0 (execEmberWake s) := by
  delta execEmberWake
  repeat (any_goals first
    | with_reducible assumption
    | exact List.Subset.trans (by decide) hL
    | (intro a x hx; beta_reduce)
    | (intro x hx; beta_reduce)
    | (extract_lets +onlyGivenNames x; refine (have hx : Alters L s0 x := ?_; ?_); (on_goal 1 => subst x); (on_goal 2 => clear_value x))
    | (extract_lets +onlyGivenNames x; clear_value x)
    | refine answers_next ?_
    | split
    | with_reducible refine frame_whenDue ?_ ?_
    | with_reducible refine frame_State_onSupply ?_ ?_
    | with_reducible refine frame_State_mapChans ?_ ?_
    | with_reducible refine frame_State_onMem ?_ ?_
    | with_reducible refine frame_chipReset ?_ ?_)

end Sys2Proof.Laws
end

