-- ==== Sys2Proof/Laws/FrameClockTime.lean ====
section
/-! SUPPORT. What each operation of Machine/ClockTime.lean may change: the parts of the state it names, and nothing else. -/

namespace Sys2Proof.Laws

open Sys2Proof Sys2Proof.Machine Sys2Proof.Safety

set_option linter.unusedTactic false
set_option linter.unreachableTactic false
set_option linter.unusedVariables false

theorem frame_execAcquireStart {L : List Part} {s0 s : State}  (hL : ([.clock] : List Part) ⊆ L) (hF : Alters L s0 s) :
    Answers L s0 (execAcquireStart s) := by
  delta execAcquireStart
  repeat (any_goals first
    | with_reducible assumption
    | exact List.Subset.trans (by decide) hL
    | (intro a x hx; beta_reduce)
    | (intro x hx; beta_reduce)
    | (extract_lets +onlyGivenNames x; refine (have hx : Alters L s0 x := ?_; ?_); (on_goal 1 => subst x); (on_goal 2 => clear_value x))
    | (extract_lets +onlyGivenNames x; clear_value x)
    | refine answers_next ?_
    | split
    | with_reducible refine frame_whenDue ?_ ?_
    | with_reducible refine frame_State_onClock ?_ ?_)

theorem frame_execDisciplineLoopUpdate {L : List Part} {s0 s : State} {want : Int} {freqErr : Int} {phaseErr : Int} (hL : ([.clock, .events] : List Part) ⊆ L) (hF : Alters L s0 s) :
    Answers L s0 (execDisciplineLoopUpdate want freqErr phaseErr s) := by
  delta execDisciplineLoopUpdate
  repeat (any_goals first
    | with_reducible assumption
    | exact List.Subset.trans (by decide) hL
    | (intro a x hx; beta_reduce)
    | (intro x hx; beta_reduce)
    | (extract_lets +onlyGivenNames x; refine (have hx : Alters L s0 x := ?_; ?_); (on_goal 1 => subst x); (on_goal 2 => clear_value x))
    | (extract_lets +onlyGivenNames x; clear_value x)
    | refine answers_next ?_
    | split
    | with_reducible refine frame_whenDue ?_ ?_
    | with_reducible refine frame_State_onClock ?_ ?_
    | with_reducible refine frame_raise ?_ ?_
    | with_reducible refine frame_clearLatching ?_ ?_)

theorem frame_execDisciplined {L : List Part} {s0 s : State}  (hL : ([.clock, .events] : List Part) ⊆ L) (hF : Alters L s0 s) :
    Answers L s0 (execDisciplined s) := by
  delta execDisciplined
  repeat (any_goals first
    | with_reducible assumption
    | exact List.Subset.trans (by decide) hL
    | (intro a x hx; beta_reduce)
    | (intro x hx; beta_reduce)
    | refine answers_next ?_
    | with_reducible refine frame_whenDue ?_ ?_
    | with_reducible refine frame_raise ?_ ?_
    | with_reducible refine frame_State_onClock ?_ ?_)

theorem frame_enterHoldover {L : List Part} {s0 s : State}  (hL : ([.clock, .events] : List Part) ⊆ L) (hF : Alters L s0 s) :
    Alters L s0 (enterHoldover s) := by
  delta enterHoldover
  repeat (any_goals first
    | with_reducible assumption
    | exact List.Subset.trans (by decide) hL
    | (extract_lets +onlyGivenNames x; refine (have hx : Alters L s0 x := ?_; ?_); (on_goal 1 => subst x); (on_goal 2 => clear_value x))
    | (extract_lets +onlyGivenNames x; clear_value x)
    | split
    | with_reducible refine frame_State_onClock ?_ ?_
    | with_reducible refine frame_raise ?_ ?_)

theorem frame_execHoldoverEnter {L : List Part} {s0 s : State} {p : Port} (hL : ([.clock, .events] : List Part) ⊆ L) (hF : Alters L s0 s) :
    Answers L s0 (execHoldoverEnter p s) := by
  delta execHoldoverEnter
  repeat (any_goals first
    | with_reducible assumption
    | exact List.Subset.trans (by decide) hL
    | (intro a x hx; beta_reduce)
    | (intro x hx; beta_reduce)
    | refine answers_next ?_
    | with_reducible refine frame_whenDue ?_ ?_
    | with_reducible refine frame_enterHoldover ?_ ?_)

theorem frame_execPllLockLost {L : List Part} {s0 s : State}  (hL : ([.supply, .tiers, .straps, .clock, .portA, .portB, .cut, .tables, .queues, .hands, .streams, .chans, .mem, .engine, .vault, .seat, .events, .dbg, .announce, .counters] : List Part) ⊆ L) (hF : Alters L s0 s) :
    Answers L s0 (execPllLockLost s) := by
  delta execPllLockLost
  repeat (any_goals first
    | with_reducible assumption
    | exact List.Subset.trans (by decide) hL
    | (extract_lets +onlyGivenNames x; refine (have hx : Alters L s0 x := ?_; ?_); (on_goal 1 => subst x); (on_goal 2 => clear_value x))
    | (extract_lets +onlyGivenNames x; clear_value x)
    | refine answers_next ?_
    | split
    | with_reducible refine frame_State_onSupply ?_ ?_
    | with_reducible refine frame_chipReset ?_ ?_)

theorem frame_execBeaconSend {L : List Part} {s0 s : State}  (hL : ([.portA, .portB] : List Part) ⊆ L) (hF : Alters L s0 s) :
    Answers L s0 (execBeaconSend s) := by
  delta execBeaconSend
  repeat (any_goals first
    | with_reducible assumption
    | exact List.Subset.trans (by decide) hL
    | (intro a x hx; beta_reduce)
    | (intro x hx; beta_reduce)
    | (extract_lets +onlyGivenNames x; refine (have hx : Alters L s0 x := ?_; ?_); (on_goal 1 => subst x); (on_goal 2 => clear_value x))
    | (extract_lets +onlyGivenNames x; clear_value x)
    | refine answers_next ?_
    | split
    | with_reducible refine frame_whenDue ?_ ?_
    | with_reducible refine frame_each ?_ ?_
    | with_reducible refine frame_State_onPort ?_ ?_)

theorem frame_beaconAct {L : List Part} {s0 s : State} {off : Int} {epoch : BitVec 8} (hL : ([.clock, .events] : List Part) ⊆ L) (hF : Alters L s0 s) :
    Alters L s0 (beaconAct s off epoch) := by
  delta beaconAct
  repeat (any_goals first
    | with_reducible assumption
    | exact List.Subset.trans (by decide) hL
    | (intro a x hx; beta_reduce)
    | (intro x hx; beta_reduce)
    | (extract_lets +onlyGivenNames x; refine (have hx : Alters L s0 x := ?_; ?_); (on_goal 1 => subst x); (on_goal 2 => clear_value x))
    | (extract_lets +onlyGivenNames x; refine (have hx : ∀ y, Alters L s0 y → Alters L s0 (x y) := ?_; ?_); (on_goal 1 => subst x); (on_goal 2 => clear_value x))
    | (extract_lets +onlyGivenNames x; clear_value x)
    | split
    | with_reducible refine frame_State_onClock ?_ ?_
    | with_reducible refine frame_raise ?_ ?_
    | with_reducible apply_assumption
    | (intro v; beta_reduce))

theorem frame_execBeaconReceive {L : List Part} {s0 s : State} {p : Port} {body : List Byte} {a64 : Nat} (hL : ([.clock, .events, .counters] : List Part) ⊆ L) (hF : Alters L s0 s) :
    Answers L s0 (execBeaconReceive p body a64 s) := by
  delta execBeaconReceive
  repeat (any_goals first
    | with_reducible assumption
    | exact List.Subset.trans (by decide) hL
    | (extract_lets +onlyGivenNames x; refine (have hx : Alters L s0 x := ?_; ?_); (on_goal 1 => subst x); (on_goal 2 => clear_value x))
    | (extract_lets +onlyGivenNames x; clear_value x)
    | refine answers_next ?_
    | split
    | with_reducible refine frame_countPort ?_ ?_
    | with_reducible refine frame_raise ?_ ?_
    | with_reducible refine frame_beaconAct ?_ ?_
    | with_reducible refine frame_State_onClock ?_ ?_)

theorem frame_jumpAbort {L : List Part} {s0 s : State} {p : Port} (hL : ([.portA, .portB, .engine, .events] : List Part) ⊆ L) (hF : Alters L s0 s) :
    Alters L s0 (jumpAbort p s) := by
  delta jumpAbort
  repeat (any_goals first
    | with_reducible assumption
    | exact List.Subset.trans (by decide) hL
    | (extract_lets +onlyGivenNames x; refine (have hx : Alters L s0 x := ?_; ?_); (on_goal 1 => subst x); (on_goal 2 => clear_value x))
    | (extract_lets +onlyGivenNames x; clear_value x)
    | split
    | with_reducible refine frame_endSoundOps ?_ ?_
    | with_reducible refine frame_abortSounding ?_ ?_
    | with_reducible refine frame_State_onPort ?_ ?_)

theorem frame_endSlew {L : List Part} {s0 s : State}  (hL : ([.clock, .events] : List Part) ⊆ L) (hF : Alters L s0 s) :
    Alters L s0 (endSlew s) := by
  delta endSlew
  repeat (any_goals first
    | with_reducible assumption
    | exact List.Subset.trans (by decide) hL
    | split
    | with_reducible refine frame_raise ?_ ?_
    | with_reducible refine frame_State_onClock ?_ ?_)

theorem frame_execRealignJump {L : List Part} {s0 s : State}  (hL : ([.clock, .portA, .portB, .cut, .tables, .engine, .seat, .events, .announce] : List Part) ⊆ L) (hF : Alters L s0 s) :
    Answers L s0 (execRealignJump s) := by
  have m_announce : Part.announce ∈ L := hL (by decide)
  have m_cut : Part.cut ∈ L := hL (by decide)
  have m_portA : Part.portA ∈ L := hL (by decide)
  have m_portB : Part.portB ∈ L := hL (by decide)
  have m_seat : Part.seat ∈ L := hL (by decide)
  delta execRealignJump
  repeat (any_goals first
    | with_reducible assumption
    | exact List.Subset.trans (by decide) hL
    | (intro a x hx; beta_reduce)
    | (intro x hx; beta_reduce)
    | (extract_lets +onlyGivenNames x; refine (have hx : Alters L s0 x := ?_; ?_); (on_goal 1 => subst x); (on_goal 2 => clear_value x))
    | (extract_lets +onlyGivenNames x; clear_value x)
    | refine answers_next ?_
    | split
    | with_reducible refine frame_whenDue ?_ ?_
    | with_reducible refine frame_jumpAbort ?_ ?_
    | with_reducible refine frame_State_onClock ?_ ?_
    | with_reducible refine frame_topologyFlushDue ?_ ?_
    | with_reducible refine frame_endSlew ?_ ?_
    | with_reducible refine frame_raise ?_ ?_
    | simp only [frame_mk_portA_portB_cut_seat_announce m_portA m_portB m_cut m_seat m_announce])

theorem frame_execSlewEnd {L : List Part} {s0 s : State}  (hL : ([.clock, .events] : List Part) ⊆ L) (hF : Alters L s0 s) :
    Answers L s0 (execSlewEnd s) := by
  delta execSlewEnd
  repeat (any_goals first
    | with_reducible assumption
    | exact List.Subset.trans (by decide) hL
    | (intro a x hx; beta_reduce)
    | (intro x hx; beta_reduce)
    | refine answers_next ?_
    | split
    | with_reducible refine frame_whenDue ?_ ?_
    | with_reducible refine frame_endSlew ?_ ?_)

theorem frame_execEpochChangeNoJump {L : List Part} {s0 s : State}  (hL : ([.clock, .tables] : List Part) ⊆ L) (hF : Alters L s0 s) :
    Answers L s0 (execEpochChangeNoJump s) := by
  delta execEpochChangeNoJump
  repeat (any_goals first
    | with_reducible assumption
    | exact List.Subset.trans (by decide) hL
    | (intro a x hx; beta_reduce)
    | (intro x hx; beta_reduce)
    | refine answers_next ?_
    | split
    | with_reducible refine frame_whenDue ?_ ?_
    | with_reducible refine frame_topologyFlushDue ?_ ?_
    | with_reducible refine frame_State_onClock ?_ ?_)

theorem frame_queueRecords {L : List Part} {s0 s : State} {rs : List (List Byte)} {hands : BitVec 16} (hL : ([.queues, .hands, .mem, .events, .counters] : List Part) ⊆ L) (hF : Alters L s0 s) :
    Alters L s0 (queueRecords s rs hands) := by
  delta queueRecords
  repeat (any_goals first
    | with_reducible assumption
    | exact List.Subset.trans (by decide) hL
    | (intro a x hx; beta_reduce)
    | (intro x hx; beta_reduce)
    | (extract_lets +onlyGivenNames x; refine (have hx : Alters L s0 x := ?_; ?_); (on_goal 1 => subst x); (on_goal 2 => clear_value x))
    | (extract_lets +onlyGivenNames x; clear_value x)
    | with_reducible refine frame_each ?_ ?_
    | with_reducible refine frame_pushEventRecords ?_ ?_)

theorem frame_drainHolding {L : List Part} {s0 s : State}  (hL : ([.queues, .hands, .mem, .events, .counters] : List Part) ⊆ L) (hF : Alters L s0 s) :
    Alters L s0 (drainHolding s) := by
  delta drainHolding
  repeat (any_goals first
    | with_reducible assumption
    | exact List.Subset.trans (by decide) hL
    | (intro a x hx; beta_reduce)
    | (intro x hx; beta_reduce)
    | (extract_lets +onlyGivenNames x; refine (have hx : Alters L s0 x := ?_; ?_); (on_goal 1 => subst x); (on_goal 2 => clear_value x))
    | (extract_lets +onlyGivenNames x; clear_value x)
    | split
    | with_reducible refine frame_each ?_ ?_
    | with_reducible refine frame_pushEventRecords ?_ ?_
    | with_reducible refine frame_queueRecords ?_ ?_
    | with_reducible refine frame_State_onEvents ?_ ?_)

theorem frame_holdEvent {L : List Part} {s0 s : State} {e : Event} (hL : ([.events] : List Part) ⊆ L) (hF : Alters L s0 s) :
    Alters L s0 (holdEvent s e) := by
  delta holdEvent
  repeat (any_goals first
    | with_reducible assumption
    | exact List.Subset.trans (by decide) hL
    | (extract_lets +onlyGivenNames x; refine (have hx : Alters L s0 x := ?_; ?_); (on_goal 1 => subst x); (on_goal 2 => clear_value x))
    | (extract_lets +onlyGivenNames x; clear_value x)
    | split
    | with_reducible refine frame_State_onEvents ?_ ?_)

theorem frame_execEventRelease {L : List Part} {s0 s : State}  (hL : ([.queues, .hands, .mem, .events, .counters] : List Part) ⊆ L) (hF : Alters L s0 s) :
    Answers L s0 (execEventRelease s) := by
  delta execEventRelease
  repeat (any_goals first
    | with_reducible assumption
    | exact List.Subset.trans (by decide) hL
    | (intro a x hx; beta_reduce)
    | (intro x hx; beta_reduce)
    | (extract_lets +onlyGivenNames x; refine (have hx : Alters L s0 x := ?_; ?_); (on_goal 1 => subst x); (on_goal 2 => clear_value x))
    | (extract_lets +onlyGivenNames x; clear_value x)
    | refine answers_next ?_
    | split
    | with_reducible refine frame_whenDue ?_ ?_
    | with_reducible refine frame_State_onEvents ?_ ?_
    | with_reducible refine frame_queueRecords ?_ ?_
    | with_reducible refine frame_drainHolding ?_ ?_
    | with_reducible refine frame_holdEvent ?_ ?_)

theorem frame_execHoldingStoreDrain {L : List Part} {s0 s : State}  (hL : ([.queues, .hands, .mem, .events, .counters] : List Part) ⊆ L) (hF : Alters L s0 s) :
    Answers L s0 (execHoldingStoreDrain s) := by
  delta execHoldingStoreDrain
  repeat (any_goals first
    | with_reducible assumption
    | exact List.Subset.trans (by decide) hL
    | (intro a x hx; beta_reduce)
    | (intro x hx; beta_reduce)
    | refine answers_next ?_
    | with_reducible refine frame_whenDue ?_ ?_
    | with_reducible refine frame_drainHolding ?_ ?_)

theorem frame_execHeldClearRelease {L : List Part} {s0 s : State} {code : BitVec 16} {local_ : Nat} {obj : Nat} (hL : ([.events] : List Part) ⊆ L) (hF : Alters L s0 s) :
    Answers L s0 (execHeldClearRelease code local_ obj s) := by
  delta execHeldClearRelease
  repeat (any_goals first
    | with_reducible assumption
    | exact List.Subset.trans (by decide) hL
    | (intro a x hx; beta_reduce)
    | (intro x hx; beta_reduce)
    | refine answers_next ?_
    | split
    | with_reducible refine frame_whenDue ?_ ?_
    | with_reducible refine frame_pushEvent ?_ ?_
    | with_reducible refine frame_State_onEvents ?_ ?_)

end Sys2Proof.Laws
end

