-- ==== Sys2Proof/Laws/FrameResetRows.lean ====
section
/-! SUPPORT. What each operation of Machine/ResetRows.lean may change: the parts of the state it names, and nothing else. -/

namespace Sys2Proof.Laws

open Sys2Proof Sys2Proof.Machine Sys2Proof.Safety

set_option linter.unusedTactic false
set_option linter.unreachableTactic false
set_option linter.unusedVariables false

theorem frame_execNodeResetApply {L : List Part} {s0 s : State}  (hL : ([.supply, .tiers, .straps, .clock, .portA, .portB, .cut, .tables, .queues, .hands, .streams, .chans, .mem, .engine, .vault, .seat, .events, .dbg, .announce, .counters] : List Part) ⊆ L) (hF : Alters L s0 s) :
    Answers L s0 (execNodeResetApply s) := by
  delta execNodeResetApply
  repeat (any_goals first
    | with_reducible assumption
    | exact List.Subset.trans (by decide) hL
    | (intro a x hx; beta_reduce)
    | (intro x hx; beta_reduce)
    | (extract_lets +onlyGivenNames x; refine (have hx : Alters L s0 x := ?_; ?_); (on_goal 1 => subst x); (on_goal 2 => clear_value x))
    | (extract_lets +onlyGivenNames x; clear_value x)
    | refine answers_next ?_
    | with_reducible refine frame_whenDue ?_ ?_
    | with_reducible refine frame_chipReset ?_ ?_)

theorem frame_stompCopies {L : List Part} {s0 s : State} {from_ : Port} (hL : ([.portA, .portB] : List Part) ⊆ L) (hF : Alters L s0 s) :
    Alters L s0 (stompCopies s from_) := by
  delta stompCopies
  repeat (any_goals first
    | with_reducible assumption
    | exact List.Subset.trans (by decide) hL
    | (extract_lets +onlyGivenNames x; refine (have hx : Alters L s0 x := ?_; ?_); (on_goal 1 => subst x); (on_goal 2 => clear_value x))
    | (extract_lets +onlyGivenNames x; clear_value x)
    | split
    | with_reducible refine frame_State_onPort ?_ ?_)

theorem frame_execPortResetApply {L : List Part} {s0 s : State} {p : Port} (hL : ([.clock, .portA, .portB, .tables, .queues, .chans, .mem, .engine, .seat, .events, .counters] : List Part) ⊆ L) (hF : Alters L s0 s) :
    Answers L s0 (execPortResetApply p s) := by
  delta execPortResetApply
  repeat (any_goals first
    | with_reducible assumption
    | exact List.Subset.trans (by decide) hL
    | (intro a x hx; beta_reduce)
    | (intro x hx; beta_reduce)
    | (extract_lets +onlyGivenNames x; refine (have hx : Alters L s0 x := ?_; ?_); (on_goal 1 => subst x); (on_goal 2 => clear_value x))
    | (extract_lets +onlyGivenNames x; clear_value x)
    | refine answers_next ?_
    | split
    | with_reducible refine frame_whenDue ?_ ?_
    | with_reducible refine frame_declineAll ?_ ?_
    | with_reducible refine frame_enterHoldover ?_ ?_
    | with_reducible refine frame_endOps ?_ ?_
    | with_reducible refine frame_stompCopies ?_ ?_
    | with_reducible refine frame_leaveUp ?_ ?_
    | with_reducible refine frame_clearCounters ?_ ?_
    | with_reducible refine frame_State_onPort ?_ ?_)

theorem frame_execPortQuietEnd {L : List Part} {s0 s : State} {p : Port} (hL : ([.portA, .portB] : List Part) ⊆ L) (hF : Alters L s0 s) :
    Answers L s0 (execPortQuietEnd p s) := by
  delta execPortQuietEnd
  repeat (any_goals first
    | with_reducible assumption
    | exact List.Subset.trans (by decide) hL
    | (intro a x hx; beta_reduce)
    | (intro x hx; beta_reduce)
    | (extract_lets +onlyGivenNames x; refine (have hx : Alters L s0 x := ?_; ?_); (on_goal 1 => subst x); (on_goal 2 => clear_value x))
    | (extract_lets +onlyGivenNames x; clear_value x)
    | refine answers_next ?_
    | split
    | with_reducible refine frame_whenDue ?_ ?_
    | with_reducible refine frame_State_onPort ?_ ?_)

theorem frame_stopIngress {L : List Part} {s0 s : State} {p : Port} (hL : ([.tables] : List Part) ⊆ L) (hF : Alters L s0 s) :
    Alters L s0 (stopIngress s p) := by
  delta stopIngress
  repeat (any_goals first
    | with_reducible assumption
    | exact List.Subset.trans (by decide) hL
    | with_reducible refine frame_State_onPipe ?_ ?_)

theorem frame_clearPipe {L : List Part} {s0 s : State} {p : Port} (hL : ([.free, .tables, .mem] : List Part) ⊆ L) (hF : Alters L s0 s) :
    Alters L s0 (clearPipe s p) := by
  delta clearPipe
  repeat (any_goals first
    | with_reducible assumption
    | exact List.Subset.trans (by decide) hL
    | (extract_lets +onlyGivenNames x; refine (have hx : Alters L s0 x := ?_; ?_); (on_goal 1 => subst x); (on_goal 2 => clear_value x))
    | (extract_lets +onlyGivenNames x; refine (have hx : Alters L s0 x.2 := ?_; ?_); (on_goal 1 => subst x); (on_goal 2 => clear_value x))
    | (extract_lets +onlyGivenNames x; clear_value x)
    | split
    | with_reducible refine frame_State_draw ?_ ?_
    | with_reducible refine frame_State_onPipe ?_ ?_
    | with_reducible refine frame_State_onMem ?_ ?_
    | dsimp only)

theorem frame_execPipeResetApply {L : List Part} {s0 s : State} {p : Port} (hL : ([.free, .tables, .chans, .mem, .engine, .seat, .events] : List Part) ⊆ L) (hF : Alters L s0 s) :
    Answers L s0 (execPipeResetApply p s) := by
  delta execPipeResetApply
  repeat (any_goals first
    | with_reducible assumption
    | exact List.Subset.trans (by decide) hL
    | (intro a x hx; beta_reduce)
    | (intro x hx; beta_reduce)
    | (extract_lets +onlyGivenNames x; refine (have hx : Alters L s0 x := ?_; ?_); (on_goal 1 => subst x); (on_goal 2 => clear_value x))
    | (extract_lets +onlyGivenNames x; clear_value x)
    | refine answers_next ?_
    | split
    | with_reducible refine frame_whenDue ?_ ?_
    | with_reducible refine frame_stopIngress ?_ ?_
    | with_reducible refine frame_endOps ?_ ?_
    | with_reducible refine frame_clearPipe ?_ ?_)

theorem frame_execPipeIngressResume {L : List Part} {s0 s : State} {p : Port} (hL : ([.tables] : List Part) ⊆ L) (hF : Alters L s0 s) :
    Answers L s0 (execPipeIngressResume p s) := by
  delta execPipeIngressResume
  repeat (any_goals first
    | with_reducible assumption
    | exact List.Subset.trans (by decide) hL
    | (intro a x hx; beta_reduce)
    | (intro x hx; beta_reduce)
    | refine answers_next ?_
    | with_reducible refine frame_whenDue ?_ ?_
    | with_reducible refine frame_State_onPipe ?_ ?_)

theorem frame_execChRekindleCalDone {L : List Part} {s0 s : State} {ch : Fin 24} {calFail : Bool} (hL : ([.chans, .events] : List Part) ⊆ L) (hF : Alters L s0 s) :
    Answers L s0 (execChRekindleCalDone ch calFail s) := by
  delta execChRekindleCalDone
  repeat (any_goals first
    | with_reducible assumption
    | exact List.Subset.trans (by decide) hL
    | (intro a x hx; beta_reduce)
    | (intro x hx; beta_reduce)
    | (extract_lets +onlyGivenNames x; refine (have hx : Alters L s0 x := ?_; ?_); (on_goal 1 => subst x); (on_goal 2 => clear_value x))
    | (extract_lets +onlyGivenNames x; clear_value x)
    | refine answers_next ?_
    | split
    | with_reducible refine frame_whenDue ?_ ?_
    | with_reducible refine frame_staleEnd ?_ ?_
    | with_reducible refine frame_State_onChan ?_ ?_
    | with_reducible refine frame_setFrontEnd ?_ ?_
    | with_reducible refine frame_driveShell ?_ ?_
    | with_reducible refine frame_coarseFault ?_ ?_)

end Sys2Proof.Laws
end

