-- ==== Sys2Proof/Laws/FrameCutDealer.lean ====
section
/-! SUPPORT. What each operation of Machine/CutDealer.lean may change: the parts of the state it names, and nothing else. -/

namespace Sys2Proof.Laws

open Sys2Proof Sys2Proof.Machine Sys2Proof.Safety

set_option linter.unusedTactic false
set_option linter.unreachableTactic false
set_option linter.unusedVariables false

theorem frame_badCut {L : List Part} {s0 s : State} {p : Port} (hL : ([.events, .counters] : List Part) ⊆ L) (hF : Alters L s0 s) :
    Alters L s0 (badCut s p) := by
  delta badCut
  repeat (any_goals first
    | with_reducible assumption
    | exact List.Subset.trans (by decide) hL
    | with_reducible refine frame_countPort ?_ ?_)

theorem frame_passCut {L : List Part} {s0 s : State} {p : Port} {body : List Byte} (hL : ([.portA, .portB] : List Part) ⊆ L) (hF : Alters L s0 s) :
    Alters L s0 (passCut s p body) := by
  delta passCut
  repeat (any_goals first
    | with_reducible assumption
    | exact List.Subset.trans (by decide) hL
    | split
    | with_reducible refine frame_sendLl ?_ ?_)

theorem frame_setNbr {L : List Part} {s0 s : State} {p : Port} {fwd : Nat} (hL : ([.portA, .portB] : List Part) ⊆ L) (hF : Alters L s0 s) :
    Alters L s0 (setNbr s p fwd) := by
  delta setNbr
  repeat (any_goals first
    | with_reducible assumption
    | exact List.Subset.trans (by decide) hL
    | with_reducible refine frame_State_onPort ?_ ?_)

theorem frame_silenceRestart {L : List Part} {s0 s : State}  (hL : ([.cut] : List Part) ⊆ L) (hF : Alters L s0 s) :
    Alters L s0 (silenceRestart s) := by
  delta silenceRestart
  repeat (any_goals first
    | with_reducible assumption
    | exact List.Subset.trans (by decide) hL
    | with_reducible refine frame_State_onCut ?_ ?_)

theorem frame_cutBegins {L : List Part} {s0 s : State} {round : Nat} (hL : ([.events] : List Part) ⊆ L) (hF : Alters L s0 s) :
    Alters L s0 (cutBegins s round) := by
  delta cutBegins
  repeat (any_goals first
    | with_reducible assumption
    | exact List.Subset.trans (by decide) hL
    | split
    | with_reducible refine frame_raise ?_ ?_)

theorem frame_enterCut {L : List Part} {s0 s : State} {round : Nat} (hL : ([.free, .portA, .portB, .cut, .events] : List Part) ⊆ L) (hF : Alters L s0 s) :
    Alters L s0 (enterCut s round) := by
  delta enterCut
  repeat (any_goals first
    | with_reducible assumption
    | exact List.Subset.trans (by decide) hL
    | (extract_lets +onlyGivenNames x; refine (have hx : Alters L s0 x := ?_; ?_); (on_goal 1 => subst x); (on_goal 2 => clear_value x))
    | (extract_lets +onlyGivenNames x; refine (have hx : Alters L s0 x.2 := ?_; ?_); (on_goal 1 => subst x); (on_goal 2 => clear_value x))
    | (extract_lets +onlyGivenNames x; clear_value x)
    | split
    | with_reducible refine frame_cutBegins ?_ ?_
    | with_reducible refine frame_State_onCut ?_ ?_
    | with_reducible refine frame_drawBelow ?_ ?_
    | with_reducible refine frame_State_draw ?_ ?_
    | with_reducible refine frame_State_onPort ?_ ?_
    | dsimp only)

theorem frame_execSilenceTimerExpiry {L : List Part} {s0 s : State}  (hL : ([.free, .portA, .portB, .cut, .events] : List Part) ⊆ L) (hF : Alters L s0 s) :
    Answers L s0 (execSilenceTimerExpiry s) := by
  delta execSilenceTimerExpiry
  repeat (any_goals first
    | with_reducible assumption
    | exact List.Subset.trans (by decide) hL
    | (intro a x hx; beta_reduce)
    | (intro x hx; beta_reduce)
    | (extract_lets +onlyGivenNames x; refine (have hx : Alters L s0 x := ?_; ?_); (on_goal 1 => subst x); (on_goal 2 => clear_value x))
    | (extract_lets +onlyGivenNames x; clear_value x)
    | refine answers_next ?_
    | with_reducible refine frame_whenDue ?_ ?_
    | with_reducible refine frame_enterCut ?_ ?_)

theorem frame_execCutFollowTimeout {L : List Part} {s0 s : State}  (hL : ([.free, .portA, .portB, .cut, .events] : List Part) ⊆ L) (hF : Alters L s0 s) :
    Answers L s0 (execCutFollowTimeout s) := by
  delta execCutFollowTimeout
  repeat (any_goals first
    | with_reducible assumption
    | exact List.Subset.trans (by decide) hL
    | (intro a x hx; beta_reduce)
    | (intro x hx; beta_reduce)
    | (extract_lets +onlyGivenNames x; refine (have hx : Alters L s0 x := ?_; ?_); (on_goal 1 => subst x); (on_goal 2 => clear_value x))
    | (extract_lets +onlyGivenNames x; clear_value x)
    | refine answers_next ?_
    | split
    | with_reducible refine frame_whenDue ?_ ?_
    | with_reducible refine frame_raise ?_ ?_
    | with_reducible refine frame_State_onCut ?_ ?_
    | with_reducible refine frame_enterCut ?_ ?_)

theorem frame_tallyAfter {L : List Part} {s0 s : State} {old : State} (hL : ([.portA, .portB] : List Part) ⊆ L) (hF : Alters L s0 s) :
    Alters L s0 (tallyAfter old s) := by
  delta tallyAfter
  repeat (any_goals first
    | with_reducible assumption
    | exact List.Subset.trans (by decide) hL
    | split
    | with_reducible refine frame_sendCut ?_ ?_)

theorem frame_clashApply {L : List Part} {s0 s : State} {die : BitVec 64} {round : Nat} (hL : ([.free, .portA, .portB, .cut, .events] : List Part) ⊆ L) (hF : Alters L s0 s) :
    Alters L s0 (clashApply s die round) := by
  delta clashApply
  repeat (any_goals first
    | with_reducible assumption
    | exact List.Subset.trans (by decide) hL
    | (extract_lets +onlyGivenNames x; refine (have hx : Alters L s0 x := ?_; ?_); (on_goal 1 => subst x); (on_goal 2 => clear_value x))
    | (extract_lets +onlyGivenNames x; clear_value x)
    | split
    | with_reducible refine frame_State_onCut ?_ ?_
    | with_reducible refine frame_enterCut ?_ ?_)

theorem frame_twinBids {L : List Part} {s0 s : State} {p : Port} {b : Bid} {round : Nat} (hL : ([.free, .portA, .portB, .cut, .events] : List Part) ⊆ L) (hF : Alters L s0 s) :
    Alters L s0 (twinBids s p b round) := by
  delta twinBids
  repeat (any_goals first
    | with_reducible assumption
    | exact List.Subset.trans (by decide) hL
    | (extract_lets +onlyGivenNames x; refine (have hx : Alters L s0 x := ?_; ?_); (on_goal 1 => subst x); (on_goal 2 => clear_value x))
    | (extract_lets +onlyGivenNames x; clear_value x)
    | split
    | with_reducible refine frame_raise ?_ ?_
    | with_reducible refine frame_sendCut ?_ ?_
    | with_reducible refine frame_State_onCut ?_ ?_
    | with_reducible refine frame_clashApply ?_ ?_)

theorem frame_execBidSend {L : List Part} {s0 s : State}  (hL : ([.free, .portA, .portB, .cut, .events] : List Part) ⊆ L) (hF : Alters L s0 s) :
    Answers L s0 (execBidSend s) := by
  delta execBidSend
  repeat (any_goals first
    | with_reducible assumption
    | exact List.Subset.trans (by decide) hL
    | (intro a x hx; beta_reduce)
    | (intro x hx; beta_reduce)
    | (extract_lets +onlyGivenNames x; refine (have hx : Alters L s0 x := ?_; ?_); (on_goal 1 => subst x); (on_goal 2 => clear_value x))
    | (extract_lets +onlyGivenNames x; clear_value x)
    | refine answers_next ?_
    | split
    | with_reducible refine frame_whenDue ?_ ?_
    | with_reducible refine frame_sendCut ?_ ?_
    | with_reducible refine frame_State_onCut ?_ ?_
    | with_reducible refine frame_twinBids ?_ ?_)

theorem frame_answerBid {L : List Part} {s0 s : State} {p : Port} (hL : ([.portA, .portB, .cut] : List Part) ⊆ L) (hF : Alters L s0 s) :
    Alters L s0 (answerBid s p) := by
  delta answerBid
  repeat (any_goals first
    | with_reducible assumption
    | exact List.Subset.trans (by decide) hL
    | (extract_lets +onlyGivenNames x; refine (have hx : Alters L s0 x := ?_; ?_); (on_goal 1 => subst x); (on_goal 2 => clear_value x))
    | (extract_lets +onlyGivenNames x; clear_value x)
    | split
    | with_reducible refine frame_State_onCut ?_ ?_
    | with_reducible refine frame_sendCut ?_ ?_)

theorem frame_bidInRound {L : List Part} {s0 s : State} {p : Port} {b : Bid} {hops : Nat} {fwd : Nat} {body : List Byte} (hL : ([.free, .portA, .portB, .cut, .events] : List Part) ⊆ L) (hF : Alters L s0 s) :
    Alters L s0 (bidInRound s p b hops fwd body) := by
  delta bidInRound
  repeat (any_goals first
    | with_reducible assumption
    | exact List.Subset.trans (by decide) hL
    | (extract_lets +onlyGivenNames x; refine (have hx : Alters L s0 x := ?_; ?_); (on_goal 1 => subst x); (on_goal 2 => clear_value x))
    | (extract_lets +onlyGivenNames x; clear_value x)
    | split
    | with_reducible refine frame_State_onCut ?_ ?_
    | with_reducible refine frame_twinBids ?_ ?_
    | with_reducible refine frame_State_onPort ?_ ?_
    | with_reducible refine frame_tallyAfter ?_ ?_
    | with_reducible refine frame_passCut ?_ ?_)

theorem frame_execBid {L : List Part} {s0 s : State} {p : Port} {body : List Byte} (hL : ([.free, .portA, .portB, .cut, .events, .counters] : List Part) ⊆ L) (hF : Alters L s0 s) :
    Answers L s0 (execBid p body s) := by
  delta execBid
  repeat (any_goals first
    | with_reducible assumption
    | exact List.Subset.trans (by decide) hL
    | (intro a x hx; beta_reduce)
    | (intro x hx; beta_reduce)
    | (extract_lets +onlyGivenNames x; refine (have hx : Alters L s0 x := ?_; ?_); (on_goal 1 => subst x); (on_goal 2 => clear_value x))
    | (extract_lets +onlyGivenNames x; clear_value x)
    | refine answers_next ?_
    | split
    | with_reducible refine frame_whenDue ?_ ?_
    | with_reducible refine frame_badCut ?_ ?_
    | with_reducible refine frame_tallyAfter ?_ ?_
    | with_reducible refine frame_silenceRestart ?_ ?_
    | with_reducible refine frame_setNbr ?_ ?_
    | with_reducible refine frame_answerBid ?_ ?_
    | with_reducible refine frame_enterCut ?_ ?_
    | with_reducible refine frame_bidInRound ?_ ?_)

theorem frame_execClash {L : List Part} {s0 s : State} {p : Port} {body : List Byte} (hL : ([.free, .portA, .portB, .cut, .events, .counters] : List Part) ⊆ L) (hF : Alters L s0 s) :
    Answers L s0 (execClash p body s) := by
  delta execClash
  repeat (any_goals first
    | with_reducible assumption
    | exact List.Subset.trans (by decide) hL
    | (intro a x hx; beta_reduce)
    | (intro x hx; beta_reduce)
    | (extract_lets +onlyGivenNames x; refine (have hx : Alters L s0 x := ?_; ?_); (on_goal 1 => subst x); (on_goal 2 => clear_value x))
    | (extract_lets +onlyGivenNames x; clear_value x)
    | refine answers_next ?_
    | split
    | with_reducible refine frame_whenDue ?_ ?_
    | with_reducible refine frame_badCut ?_ ?_
    | with_reducible refine frame_silenceRestart ?_ ?_
    | with_reducible refine frame_passCut ?_ ?_
    | with_reducible refine frame_State_onCut ?_ ?_
    | with_reducible refine frame_clashApply ?_ ?_)

theorem frame_applyBlock {L : List Part} {s0 s : State} {lo : BitVec 16} {hi : BitVec 16} (hL : ([.portA, .portB] : List Part) ⊆ L) (hF : Alters L s0 s) :
    Alters L s0 (applyBlock s lo hi) := by
  delta applyBlock
  repeat (any_goals first
    | with_reducible assumption
    | exact List.Subset.trans (by decide) hL
    | (intro a x hx; beta_reduce)
    | (intro x hx; beta_reduce)
    | (extract_lets +onlyGivenNames x; refine (have hx : Alters L s0 x := ?_; ?_); (on_goal 1 => subst x); (on_goal 2 => clear_value x))
    | (extract_lets +onlyGivenNames x; clear_value x)
    | with_reducible refine frame_each ?_ ?_
    | with_reducible refine frame_State_onPort ?_ ?_)

theorem frame_nameBlock {L : List Part} {s0 s : State}  (hL : ([.portA, .portB, .cut, .tables] : List Part) ⊆ L) (hF : Alters L s0 s) :
    Alters L s0 (nameBlock s) := by
  delta nameBlock
  repeat (any_goals first
    | with_reducible assumption
    | exact List.Subset.trans (by decide) hL
    | (extract_lets +onlyGivenNames x; refine (have hx : Alters L s0 x := ?_; ?_); (on_goal 1 => subst x); (on_goal 2 => clear_value x))
    | (extract_lets +onlyGivenNames x; clear_value x)
    | split
    | with_reducible refine frame_State_onCut ?_ ?_
    | with_reducible refine frame_topologyFlushDue ?_ ?_
    | with_reducible refine frame_applyBlock ?_ ?_)

theorem frame_collectTally {L : List Part} {s0 s : State} {t : Tally} (hL : ([.portA, .portB, .cut, .tables, .events] : List Part) ⊆ L) (hF : Alters L s0 s) :
    Alters L s0 (collectTally s t) := by
  delta collectTally
  repeat (any_goals first
    | with_reducible assumption
    | exact List.Subset.trans (by decide) hL
    | (extract_lets +onlyGivenNames x; refine (have hx : Alters L s0 x := ?_; ?_); (on_goal 1 => subst x); (on_goal 2 => clear_value x))
    | (extract_lets +onlyGivenNames x; clear_value x)
    | split
    | with_reducible refine frame_raise ?_ ?_
    | with_reducible refine frame_State_onCut ?_ ?_
    | with_reducible refine frame_nameBlock ?_ ?_)

theorem frame_execTally {L : List Part} {s0 s : State} {p : Port} {body : List Byte} (hL : ([.portA, .portB, .cut, .tables, .events, .counters] : List Part) ⊆ L) (hF : Alters L s0 s) :
    Answers L s0 (execTally p body s) := by
  delta execTally
  repeat (any_goals first
    | with_reducible assumption
    | exact List.Subset.trans (by decide) hL
    | (intro a x hx; beta_reduce)
    | (intro x hx; beta_reduce)
    | (extract_lets +onlyGivenNames x; refine (have hx : Alters L s0 x := ?_; ?_); (on_goal 1 => subst x); (on_goal 2 => clear_value x))
    | (extract_lets +onlyGivenNames x; clear_value x)
    | refine answers_next ?_
    | split
    | with_reducible refine frame_whenDue ?_ ?_
    | with_reducible refine frame_badCut ?_ ?_
    | with_reducible refine frame_silenceRestart ?_ ?_
    | with_reducible refine frame_collectTally ?_ ?_
    | with_reducible refine frame_passCut ?_ ?_)

theorem frame_execCutMessagePassOn {L : List Part} {s0 s : State} {p : Port} (hL : ([.portA, .portB, .announce] : List Part) ⊆ L) (hF : Alters L s0 s) :
    Answers L s0 (execCutMessagePassOn p s) := by
  delta execCutMessagePassOn
  repeat (any_goals first
    | with_reducible assumption
    | exact List.Subset.trans (by decide) hL
    | (intro a x hx; beta_reduce)
    | (intro x hx; beta_reduce)
    | (extract_lets +onlyGivenNames x; refine (have hx : Alters L s0 x := ?_; ?_); (on_goal 1 => subst x); (on_goal 2 => clear_value x))
    | (extract_lets +onlyGivenNames x; clear_value x)
    | refine answers_next ?_
    | split
    | with_reducible refine frame_whenDue ?_ ?_
    | with_reducible refine frame_State_onAnnounce ?_ ?_
    | with_reducible refine frame_State_onPort ?_ ?_)

theorem frame_execCutSettle {L : List Part} {s0 s : State}  (hL : ([.clock, .portA, .portB, .cut, .tables, .events] : List Part) ⊆ L) (hF : Alters L s0 s) :
    Answers L s0 (execCutSettle s) := by
  delta execCutSettle
  repeat (any_goals first
    | with_reducible assumption
    | exact List.Subset.trans (by decide) hL
    | (intro a x hx; beta_reduce)
    | (intro x hx; beta_reduce)
    | (extract_lets +onlyGivenNames x; refine (have hx : Alters L s0 x := ?_; ?_); (on_goal 1 => subst x); (on_goal 2 => clear_value x))
    | (extract_lets +onlyGivenNames x; clear_value x)
    | refine answers_next ?_
    | split
    | with_reducible refine frame_whenDue ?_ ?_
    | with_reducible refine frame_topologyFlushDue ?_ ?_
    | with_reducible refine frame_State_onClock ?_ ?_
    | with_reducible refine frame_State_onPort ?_ ?_
    | with_reducible refine frame_State_onCut ?_ ?_
    | with_reducible refine frame_nameBlock ?_ ?_
    | with_reducible refine frame_raise ?_ ?_)

theorem frame_dealOut {L : List Part} {s0 s : State} {p : Port} {body : List Byte} (hL : ([.portA, .portB] : List Part) ⊆ L) (hF : Alters L s0 s) :
    Alters L s0 (dealOut s p body) := by
  delta dealOut
  repeat (any_goals first
    | with_reducible assumption
    | exact List.Subset.trans (by decide) hL
    | (extract_lets +onlyGivenNames x; refine (have hx : Alters L s0 x := ?_; ?_); (on_goal 1 => subst x); (on_goal 2 => clear_value x))
    | (extract_lets +onlyGivenNames x; clear_value x)
    | split
    | with_reducible refine frame_State_onPort ?_ ?_
    | with_reducible refine frame_sendLl ?_ ?_)

theorem frame_execDealSend {L : List Part} {s0 s : State}  (hL : ([.portA, .portB, .cut] : List Part) ⊆ L) (hF : Alters L s0 s) :
    Answers L s0 (execDealSend s) := by
  delta execDealSend
  repeat (any_goals first
    | with_reducible assumption
    | exact List.Subset.trans (by decide) hL
    | (intro a x hx; beta_reduce)
    | (intro x hx; beta_reduce)
    | (extract_lets +onlyGivenNames x; refine (have hx : Alters L s0 x := ?_; ?_); (on_goal 1 => subst x); (on_goal 2 => clear_value x))
    | (extract_lets +onlyGivenNames x; clear_value x)
    | refine answers_next ?_
    | with_reducible refine frame_whenDue ?_ ?_
    | with_reducible refine frame_State_onCut ?_ ?_
    | with_reducible refine frame_dealOut ?_ ?_)

theorem frame_moveFacing {L : List Part} {s0 s : State} {p : Port} {hops : Nat} (hL : ([.clock, .portA, .portB, .events] : List Part) ⊆ L) (hF : Alters L s0 s) :
    Alters L s0 (moveFacing s p hops) := by
  delta moveFacing
  repeat (any_goals first
    | with_reducible assumption
    | exact List.Subset.trans (by decide) hL
    | (extract_lets +onlyGivenNames x; refine (have hx : Alters L s0 x := ?_; ?_); (on_goal 1 => subst x); (on_goal 2 => clear_value x))
    | (extract_lets +onlyGivenNames x; clear_value x)
    | split
    | with_reducible refine frame_enterHoldover ?_ ?_
    | with_reducible refine frame_State_onClock ?_ ?_
    | with_reducible refine frame_State_onPort ?_ ?_)

theorem frame_foreignDeal {L : List Part} {s0 s : State} {p : Port} {body : List Byte} (hL : ([.free, .portA, .portB, .cut, .events] : List Part) ⊆ L) (hF : Alters L s0 s) :
    Alters L s0 (foreignDeal s p body) := by
  delta foreignDeal
  repeat (any_goals first
    | with_reducible assumption
    | exact List.Subset.trans (by decide) hL
    | (extract_lets +onlyGivenNames x; refine (have hx : Alters L s0 x := ?_; ?_); (on_goal 1 => subst x); (on_goal 2 => clear_value x))
    | (extract_lets +onlyGivenNames x; clear_value x)
    | with_reducible refine frame_raise ?_ ?_
    | with_reducible refine frame_sendCut ?_ ?_
    | with_reducible refine frame_State_onCut ?_ ?_
    | with_reducible refine frame_enterCut ?_ ?_)

theorem frame_dealBlocks {L : List Part} {s0 s : State} {lo : BitVec 16} {hi : BitVec 16} (hL : ([.portA, .portB, .cut, .tables] : List Part) ⊆ L) (hF : Alters L s0 s) :
    Alters L s0 (dealBlocks s lo hi) := by
  delta dealBlocks
  repeat (any_goals first
    | with_reducible assumption
    | exact List.Subset.trans (by decide) hL
    | (extract_lets +onlyGivenNames x; refine (have hx : Alters L s0 x := ?_; ?_); (on_goal 1 => subst x); (on_goal 2 => clear_value x))
    | (extract_lets +onlyGivenNames x; clear_value x)
    | split
    | with_reducible refine frame_topologyFlushDue ?_ ?_
    | with_reducible refine frame_applyBlock ?_ ?_
    | with_reducible refine frame_State_onCut ?_ ?_
    | with_reducible refine frame_State_onPort ?_ ?_)

theorem frame_acceptDeal {L : List Part} {s0 s : State} {p : Port} {body : List Byte} (hL : ([.clock, .portA, .portB, .cut, .tables, .events] : List Part) ⊆ L) (hF : Alters L s0 s) :
    Alters L s0 (acceptDeal s p body) := by
  delta acceptDeal
  repeat (any_goals first
    | with_reducible assumption
    | exact List.Subset.trans (by decide) hL
    | (extract_lets +onlyGivenNames x; refine (have hx : Alters L s0 x := ?_; ?_); (on_goal 1 => subst x); (on_goal 2 => clear_value x))
    | (extract_lets +onlyGivenNames x; clear_value x)
    | split
    | with_reducible refine frame_State_onPort ?_ ?_
    | with_reducible refine frame_moveFacing ?_ ?_
    | with_reducible refine frame_State_onClock ?_ ?_
    | with_reducible refine frame_dealBlocks ?_ ?_
    | with_reducible refine frame_State_onCut ?_ ?_
    | with_reducible refine frame_silenceRestart ?_ ?_
    | with_reducible refine frame_passCut ?_ ?_
    | with_reducible refine frame_tallyAfter ?_ ?_)

theorem frame_execDeal {L : List Part} {s0 s : State} {p : Port} {body : List Byte} (hL : ([.free, .clock, .portA, .portB, .cut, .tables, .events, .counters] : List Part) ⊆ L) (hF : Alters L s0 s) :
    Answers L s0 (execDeal p body s) := by
  delta execDeal
  repeat (any_goals first
    | with_reducible assumption
    | exact List.Subset.trans (by decide) hL
    | (intro a x hx; beta_reduce)
    | (intro x hx; beta_reduce)
    | (extract_lets +onlyGivenNames x; refine (have hx : Alters L s0 x := ?_; ?_); (on_goal 1 => subst x); (on_goal 2 => clear_value x))
    | (extract_lets +onlyGivenNames x; clear_value x)
    | refine answers_next ?_
    | split
    | with_reducible refine frame_whenDue ?_ ?_
    | with_reducible refine frame_badCut ?_ ?_
    | with_reducible refine frame_setNbr ?_ ?_
    | with_reducible refine frame_raise ?_ ?_
    | with_reducible refine frame_foreignDeal ?_ ?_
    | with_reducible refine frame_acceptDeal ?_ ?_)

theorem frame_execDealerFacingChange {L : List Part} {s0 s : State}  (hL : ([.clock, .portA, .portB, .events] : List Part) ⊆ L) (hF : Alters L s0 s) :
    Answers L s0 (execDealerFacingChange s) := by
  delta execDealerFacingChange
  repeat (any_goals first
    | with_reducible assumption
    | exact List.Subset.trans (by decide) hL
    | (intro a x hx; beta_reduce)
    | (intro x hx; beta_reduce)
    | (extract_lets +onlyGivenNames x; refine (have hx : Alters L s0 x := ?_; ?_); (on_goal 1 => subst x); (on_goal 2 => clear_value x))
    | (extract_lets +onlyGivenNames x; clear_value x)
    | refine answers_next ?_
    | split
    | with_reducible refine frame_whenDue ?_ ?_
    | with_reducible refine frame_tallyAfter ?_ ?_
    | with_reducible refine frame_moveFacing ?_ ?_)

theorem frame_execBreak {L : List Part} {s0 s : State} {p : Port} {body : List Byte} (hL : ([.portA, .portB, .cut, .tables, .events, .counters] : List Part) ⊆ L) (hF : Alters L s0 s) :
    Answers L s0 (execBreak p body s) := by
  delta execBreak
  repeat (any_goals first
    | with_reducible assumption
    | exact List.Subset.trans (by decide) hL
    | (intro a x hx; beta_reduce)
    | (intro x hx; beta_reduce)
    | (extract_lets +onlyGivenNames x; refine (have hx : Alters L s0 x := ?_; ?_); (on_goal 1 => subst x); (on_goal 2 => clear_value x))
    | (extract_lets +onlyGivenNames x; clear_value x)
    | refine answers_next ?_
    | split
    | with_reducible refine frame_whenDue ?_ ?_
    | with_reducible refine frame_badCut ?_ ?_
    | with_reducible refine frame_passCut ?_ ?_
    | with_reducible refine frame_State_onCut ?_ ?_
    | with_reducible refine frame_breakApply ?_ ?_
    | with_reducible refine frame_tallyAfter ?_ ?_)

theorem frame_execCall {L : List Part} {s0 s : State} {p : Port} {body : List Byte} (hL : ([.free, .portA, .portB, .cut, .events, .counters] : List Part) ⊆ L) (hF : Alters L s0 s) :
    Answers L s0 (execCall p body s) := by
  delta execCall
  repeat (any_goals first
    | with_reducible assumption
    | exact List.Subset.trans (by decide) hL
    | (intro a x hx; beta_reduce)
    | (intro x hx; beta_reduce)
    | (extract_lets +onlyGivenNames x; refine (have hx : Alters L s0 x := ?_; ?_); (on_goal 1 => subst x); (on_goal 2 => clear_value x))
    | (extract_lets +onlyGivenNames x; clear_value x)
    | refine answers_next ?_
    | split
    | with_reducible refine frame_whenDue ?_ ?_
    | with_reducible refine frame_badCut ?_ ?_
    | with_reducible refine frame_silenceRestart ?_ ?_
    | with_reducible refine frame_passCut ?_ ?_
    | with_reducible refine frame_State_onCut ?_ ?_
    | with_reducible refine frame_enterCut ?_ ?_)

theorem frame_execTopologyFlush {L : List Part} {s0 s : State}  (hL : ([.tables] : List Part) ⊆ L) (hF : Alters L s0 s) :
    Answers L s0 (execTopologyFlush s) := by
  delta execTopologyFlush
  repeat (any_goals first
    | with_reducible assumption
    | exact List.Subset.trans (by decide) hL
    | (intro a x hx; beta_reduce)
    | (intro x hx; beta_reduce)
    | (extract_lets +onlyGivenNames x; refine (have hx : Alters L s0 x := ?_; ?_); (on_goal 1 => subst x); (on_goal 2 => clear_value x))
    | (extract_lets +onlyGivenNames x; clear_value x)
    | refine answers_next ?_
    | with_reducible refine frame_whenDue ?_ ?_
    | with_reducible refine frame_State_onPipe ?_ ?_
    | with_reducible refine frame_State_onTables ?_ ?_
    | with_reducible refine frame_invertEpoch ?_ ?_)

theorem frame_reclaimBucket {L : List Part} {s0 s : State} {p : Port} {b : Nat} (hL : ([.tables, .mem] : List Part) ⊆ L) (hF : Alters L s0 s) :
    Alters L s0 (reclaimBucket s p b) := by
  delta reclaimBucket
  repeat (any_goals first
    | with_reducible assumption
    | exact List.Subset.trans (by decide) hL
    | (intro a x hx; beta_reduce)
    | (intro x hx; beta_reduce)
    | (extract_lets +onlyGivenNames x; refine (have hx : Alters L s0 x := ?_; ?_); (on_goal 1 => subst x); (on_goal 2 => clear_value x))
    | (extract_lets +onlyGivenNames x; clear_value x)
    | split
    | with_reducible refine frame_each ?_ ?_
    | with_reducible refine frame_setHash ?_ ?_)

theorem frame_execReclaimPassVisit {L : List Part} {s0 s : State}  (hL : ([.tables, .mem] : List Part) ⊆ L) (hF : Alters L s0 s) :
    Answers L s0 (execReclaimPassVisit s) := by
  delta execReclaimPassVisit
  repeat (any_goals first
    | with_reducible assumption
    | exact List.Subset.trans (by decide) hL
    | (intro a x hx; beta_reduce)
    | (intro x hx; beta_reduce)
    | refine answers_next ?_
    | split
    | with_reducible refine frame_whenDue ?_ ?_
    | with_reducible refine frame_reclaimBucket ?_ ?_
    | with_reducible refine frame_State_onTables ?_ ?_)

theorem frame_execReclaimPassEnd {L : List Part} {s0 s : State}  (hL : ([.tables] : List Part) ⊆ L) (hF : Alters L s0 s) :
    Answers L s0 (execReclaimPassEnd s) := by
  delta execReclaimPassEnd
  repeat (any_goals first
    | with_reducible assumption
    | exact List.Subset.trans (by decide) hL
    | (intro a x hx; beta_reduce)
    | (intro x hx; beta_reduce)
    | refine answers_next ?_
    | with_reducible refine frame_whenDue ?_ ?_
    | with_reducible refine frame_State_onTables ?_ ?_)

end Sys2Proof.Laws
end

