-- ==== Sys2Proof/Laws/FrameFrames.lean ====
section
/-! SUPPORT. What each operation of Machine/Frames.lean may change: the parts of the state it names, and nothing else. -/

namespace Sys2Proof.Laws

open Sys2Proof Sys2Proof.Machine Sys2Proof.Safety

set_option linter.unusedTactic false
set_option linter.unreachableTactic false
set_option linter.unusedVariables false

theorem frame_takeHeader {L : List Part} {s0 s : State} {p : Port} {h : Header} (hL : ([.portA, .portB, .tables, .events, .dbg, .counters] : List Part) ⊆ L) (hF : Alters L s0 s) :
    Alters L s0 (takeHeader s p h) := by
  delta takeHeader
  repeat (any_goals first
    | with_reducible assumption
    | exact List.Subset.trans (by decide) hL
    | (extract_lets +onlyGivenNames x; refine (have hx : Alters L s0 x := ?_; ?_); (on_goal 1 => subst x); (on_goal 2 => clear_value x))
    | (extract_lets +onlyGivenNames x; refine (have hx : Alters L s0 x.2 := ?_; ?_); (on_goal 1 => subst x); (on_goal 2 => clear_value x))
    | (extract_lets +onlyGivenNames x; clear_value x)
    | split
    | with_reducible refine frame_countPipe ?_ ?_
    | with_reducible refine frame_policerCharge ?_ ?_
    | with_reducible refine frame_countPort ?_ ?_
    | with_reducible refine frame_stepCount ?_ ?_
    | with_reducible refine frame_State_onPort ?_ ?_
    | dsimp only)

theorem frame_execHeaderDecision {L : List Part} {s0 s : State} {p : Port} {hdr : List Byte} {ecc : Ecc} (hL : ([.free, .supply, .tiers, .straps, .clock, .portA, .portB, .cut, .tables, .queues, .hands, .streams, .chans, .mem, .engine, .vault, .seat, .events, .dbg, .announce, .counters] : List Part) ⊆ L) (hF : Alters L s0 s) :
    Answers L s0 (execHeaderDecision p hdr ecc s) := by
  delta execHeaderDecision
  repeat (any_goals first
    | with_reducible assumption
    | exact List.Subset.trans (by decide) hL
    | (intro a x hx; beta_reduce)
    | (intro x hx; beta_reduce)
    | (extract_lets +onlyGivenNames x; refine (have hx : Alters L s0 x := ?_; ?_); (on_goal 1 => subst x); (on_goal 2 => clear_value x))
    | (extract_lets +onlyGivenNames x; clear_value x)
    | refine answers_next ?_
    | split
    | with_reducible refine frame_whenDue ?_ ?_
    | with_reducible refine frame_stompCopies ?_ ?_
    | with_reducible refine frame_State_onPort ?_ ?_
    | with_reducible refine frame_countPort ?_ ?_
    | with_reducible refine frame_takeHeader ?_ ?_
    | with_reducible refine frame_eccApply ?_ ?_)

theorem frame_deferTransit {L : List Part} {s0 s : State} {p : Port} {t : Transit} (hL : ([.portA, .portB, .events, .counters] : List Part) ⊆ L) (hF : Alters L s0 s) :
    Alters L s0 (deferTransit s p t) := by
  delta deferTransit
  repeat (any_goals first
    | with_reducible assumption
    | exact List.Subset.trans (by decide) hL
    | (extract_lets +onlyGivenNames x; refine (have hx : Alters L s0 x := ?_; ?_); (on_goal 1 => subst x); (on_goal 2 => clear_value x))
    | (extract_lets +onlyGivenNames x; clear_value x)
    | split
    | with_reducible refine frame_countPort ?_ ?_
    | with_reducible refine frame_State_onPort ?_ ?_)

theorem frame_beginFrame {L : List Part} {s0 s : State} {p : Port} {x : TxFrame} (hL : ([.portA, .portB] : List Part) ⊆ L) (hF : Alters L s0 s) :
    Alters L s0 (beginFrame s p x) := by
  delta beginFrame
  repeat (any_goals first
    | with_reducible assumption
    | exact List.Subset.trans (by decide) hL
    | with_reducible refine frame_State_onPort ?_ ?_)

theorem frame_markSending {L : List Part} {s0 s : State} {p : Port} {q : Nat} {t : Taken} (hL : ([.queues] : List Part) ⊆ L) (hF : Alters L s0 s) :
    Alters L s0 (markSending s p q t) := by
  delta markSending
  repeat (any_goals first
    | with_reducible assumption
    | exact List.Subset.trans (by decide) hL
    | split
    | with_reducible refine frame_mapFrames ?_ ?_)

theorem frame_transitStart {L : List Part} {s0 s : State} {p : Port} (hL : ([.portA, .portB, .queues, .events, .counters] : List Part) ⊆ L) (hF : Alters L s0 s) :
    Alters L s0 (transitStart p s) := by
  delta transitStart
  repeat (any_goals first
    | with_reducible assumption
    | exact List.Subset.trans (by decide) hL
    | (extract_lets +onlyGivenNames x; refine (have hx : Alters L s0 x := ?_; ?_); (on_goal 1 => subst x); (on_goal 2 => clear_value x))
    | (extract_lets +onlyGivenNames x; clear_value x)
    | split
    | with_reducible refine frame_State_onPort ?_ ?_
    | with_reducible refine frame_deferTransit ?_ ?_
    | with_reducible refine frame_countPort ?_ ?_
    | with_reducible refine frame_markSending ?_ ?_
    | with_reducible refine frame_beginFrame ?_ ?_)

theorem frame_execTransitEgress {L : List Part} {s0 s : State} {p : Port} (hL : ([.portA, .portB, .queues, .events, .counters] : List Part) ⊆ L) (hF : Alters L s0 s) :
    Answers L s0 (execTransitEgress p s) := by
  delta execTransitEgress
  repeat (any_goals first
    | with_reducible assumption
    | exact List.Subset.trans (by decide) hL
    | (intro a x hx; beta_reduce)
    | (intro x hx; beta_reduce)
    | refine answers_next ?_
    | with_reducible refine frame_whenDue ?_ ?_
    | with_reducible refine frame_transitStart ?_ ?_)

theorem frame_completeCopies {L : List Part} {s0 s : State} {from_ : Port} {payload : List Byte} {crc : Crc} (hL : ([.portA, .portB] : List Part) ⊆ L) (hF : Alters L s0 s) :
    Alters L s0 (completeCopies s from_ payload crc) := by
  delta completeCopies
  repeat (any_goals first
    | with_reducible assumption
    | exact List.Subset.trans (by decide) hL
    | (extract_lets +onlyGivenNames x; refine (have hx : Alters L s0 x := ?_; ?_); (on_goal 1 => subst x); (on_goal 2 => clear_value x))
    | (extract_lets +onlyGivenNames x; clear_value x)
    | split
    | with_reducible refine frame_State_onPort ?_ ?_)

theorem frame_countTimes {L : List Part} {s0 s : State} {p : Port} {code n : Nat} (hL : ([.events, .counters] : List Part) ⊆ L)
    (hF : Alters L s0 s) : Alters L s0 (countTimes s p code n) := by
  induction n generalizing s with
  | zero => exact hF
  | succ n ih => exact ih (frame_countPort hL hF)

theorem frame_takeCommand {L : List Part} {s0 s : State} {p : Port} {h : Header} {payload : List Byte} (hL : ([.tables, .hands, .events, .counters] : List Part) ⊆ L) (hF : Alters L s0 s) :
    Alters L s0 (takeCommand s p h payload) := by
  delta takeCommand
  repeat (any_goals first
    | with_reducible assumption
    | exact List.Subset.trans (by decide) hL
    | (extract_lets +onlyGivenNames x; refine (have hx : Alters L s0 x := ?_; ?_); (on_goal 1 => subst x); (on_goal 2 => clear_value x))
    | (extract_lets +onlyGivenNames x; clear_value x)
    | split
    | with_reducible refine frame_countCmd ?_ ?_
    | with_reducible refine frame_fixedTake ?_ ?_
    | with_reducible refine frame_handFault ?_ ?_
    | with_reducible refine frame_State_onHand ?_ ?_)

theorem frame_deliverLocal {L : List Part} {s0 s : State} {p : Port} {h : Header} {m : Meta} {payload : List Byte} (hL : ([.free, .tables, .queues, .hands, .events, .counters] : List Part) ⊆ L) (hF : Alters L s0 s) :
    Alters L s0 (deliverLocal s p h m payload) := by
  delta deliverLocal
  repeat (any_goals first
    | with_reducible assumption
    | exact List.Subset.trans (by decide) hL
    | (extract_lets +onlyGivenNames x; refine (have hx : Alters L s0 x := ?_; ?_); (on_goal 1 => subst x); (on_goal 2 => clear_value x))
    | (extract_lets +onlyGivenNames x; refine (have hx : Alters L s0 x.2 := ?_; ?_); (on_goal 1 => subst x); (on_goal 2 => clear_value x))
    | (extract_lets +onlyGivenNames x; clear_value x)
    | split
    | with_reducible refine frame_mkQFrame ?_ ?_
    | with_reducible refine frame_enqueueHand ?_ ?_
    | with_reducible refine frame_takeCommand ?_ ?_
    | dsimp only)

theorem frame_learnPlace {L : List Part} {s0 s : State} {p : Port} {b : List Byte} (hL : ([.tables, .events] : List Part) ⊆ L) (hF : Alters L s0 s) :
    Alters L s0 (learnPlace s p b) := by
  delta learnPlace
  repeat (any_goals first
    | with_reducible assumption
    | exact List.Subset.trans (by decide) hL
    | (extract_lets +onlyGivenNames x; refine (have hx : Alters L s0 x := ?_; ?_); (on_goal 1 => subst x); (on_goal 2 => clear_value x))
    | (extract_lets +onlyGivenNames x; clear_value x)
    | split
    | with_reducible refine frame_raise ?_ ?_
    | with_reducible refine frame_State_onTables ?_ ?_)

theorem frame_learnFrom {L : List Part} {s0 s : State} {p : Port} {h : Header} {payload : List Byte} (hL : ([.free, .tables, .mem, .events, .counters] : List Part) ⊆ L) (hF : Alters L s0 s) :
    Alters L s0 (learnFrom s p h payload) := by
  delta learnFrom
  repeat (any_goals first
    | with_reducible assumption
    | exact List.Subset.trans (by decide) hL
    | (extract_lets +onlyGivenNames x; refine (have hx : Alters L s0 x := ?_; ?_); (on_goal 1 => subst x); (on_goal 2 => clear_value x))
    | (extract_lets +onlyGivenNames x; clear_value x)
    | split
    | with_reducible refine frame_learn ?_ ?_
    | with_reducible refine frame_learnPlace ?_ ?_)

theorem frame_execPayloadCheck {L : List Part} {s0 s : State} {p : Port} {payload : List Byte} {pcrc : BitVec 32} (hL : ([.free, .portA, .portB, .tables, .queues, .hands, .mem, .events, .counters] : List Part) ⊆ L) (hF : Alters L s0 s) :
    Answers L s0 (execPayloadCheck p payload pcrc s) := by
  delta execPayloadCheck
  repeat (any_goals first
    | with_reducible assumption
    | exact List.Subset.trans (by decide) hL
    | (intro a x hx; beta_reduce)
    | (intro x hx; beta_reduce)
    | (extract_lets +onlyGivenNames x; refine (have hx : Alters L s0 x := ?_; ?_); (on_goal 1 => subst x); (on_goal 2 => clear_value x))
    | (extract_lets +onlyGivenNames x; clear_value x)
    | refine answers_next ?_
    | split
    | with_reducible refine frame_whenDue ?_ ?_
    | with_reducible refine frame_State_onPort ?_ ?_
    | with_reducible refine frame_completeCopies ?_ ?_
    | with_reducible refine frame_countTimes ?_ ?_
    | with_reducible refine frame_deliverLocal ?_ ?_
    | with_reducible refine frame_learnFrom ?_ ?_
    | with_reducible refine frame_countPort ?_ ?_)

theorem frame_execRxPreempt {L : List Part} {s0 s : State} {p : Port} (hL : ([.portA, .portB, .events, .counters] : List Part) ⊆ L) (hF : Alters L s0 s) :
    Answers L s0 (execRxPreempt p s) := by
  delta execRxPreempt
  repeat (any_goals first
    | with_reducible assumption
    | exact List.Subset.trans (by decide) hL
    | (intro a x hx; beta_reduce)
    | (intro x hx; beta_reduce)
    | (extract_lets +onlyGivenNames x; refine (have hx : Alters L s0 x := ?_; ?_); (on_goal 1 => subst x); (on_goal 2 => clear_value x))
    | (extract_lets +onlyGivenNames x; clear_value x)
    | refine answers_next ?_
    | split
    | with_reducible refine frame_whenDue ?_ ?_
    | with_reducible refine frame_countPort ?_ ?_
    | with_reducible refine frame_State_onPort ?_ ?_)

theorem frame_declineHeads {L : List Part} {s0 s : State} {p : Port} (hL : ([.queues] : List Part) ⊆ L) (hF : Alters L s0 s) :
    Alters L s0 (declineHeads s p) := by
  delta declineHeads
  repeat (any_goals first
    | with_reducible assumption
    | exact List.Subset.trans (by decide) hL
    | split
    | with_reducible refine frame_mapFrames ?_ ?_)

theorem frame_declineDead {L : List Part} {s0 s : State} {p : Port} (hL : ([.queues] : List Part) ⊆ L) (hF : Alters L s0 s) :
    Alters L s0 (declineDead s p) := by
  delta declineDead
  repeat (any_goals first
    | with_reducible assumption
    | exact List.Subset.trans (by decide) hL
    | split
    | with_reducible refine frame_mapFrames ?_ ?_)

theorem frame_beginQueued {L : List Part} {s0 s : State} {p : Port} {q : Nat} {cls : Nat} {f : QFrame} (hL : ([.portA, .portB, .tables, .queues, .events, .dbg] : List Part) ⊆ L) (hF : Alters L s0 s) :
    Alters L s0 (beginQueued s p q cls f) := by
  delta beginQueued
  repeat (any_goals first
    | with_reducible assumption
    | exact List.Subset.trans (by decide) hL
    | (extract_lets +onlyGivenNames x; refine (have hx : Alters L s0 x := ?_; ?_); (on_goal 1 => subst x); (on_goal 2 => clear_value x))
    | (extract_lets +onlyGivenNames x; refine (have hx : Alters L s0 x.2 := ?_; ?_); (on_goal 1 => subst x); (on_goal 2 => clear_value x))
    | (extract_lets +onlyGivenNames x; clear_value x)
    | split
    | with_reducible refine frame_policerCharge ?_ ?_
    | with_reducible refine frame_mapFrames ?_ ?_
    | with_reducible refine frame_setQSet ?_ ?_
    | with_reducible refine frame_beginFrame ?_ ?_
    | with_reducible refine frame_stepCount ?_ ?_
    | dsimp only)

theorem frame_startQueued {L : List Part} {s0 s : State} {p : Port} (hL : ([.portA, .portB, .tables, .queues, .events, .dbg] : List Part) ⊆ L) (hF : Alters L s0 s) :
    Alters L s0 (startQueued s p) := by
  delta startQueued
  repeat (any_goals first
    | with_reducible assumption
    | exact List.Subset.trans (by decide) hL
    | (extract_lets +onlyGivenNames x; refine (have hx : Alters L s0 x := ?_; ?_); (on_goal 1 => subst x); (on_goal 2 => clear_value x))
    | (extract_lets +onlyGivenNames x; clear_value x)
    | split
    | with_reducible refine frame_declineHeads ?_ ?_
    | with_reducible refine frame_beginQueued ?_ ?_
    | with_reducible refine frame_State_onPort ?_ ?_)

theorem frame_nextSeq {L : List Part} {s0 s : State}  (hL : ([.announce] : List Part) ⊆ L) (hF : Alters L s0 s) :
    Alters L s0 (nextSeq s) := by
  delta nextSeq
  repeat (any_goals first
    | with_reducible assumption
    | exact List.Subset.trans (by decide) hL
    | with_reducible refine frame_State_onAnnounce ?_ ?_)

theorem frame_startHold {L : List Part} {s0 s t : State} {p : Port} (hL : ([.portA, .portB, .dbg] : List Part) ⊆ L) (hF : Alters L s0 s)
    (h : startHold s p = some t) : Alters L s0 t := by
  unfold startHold at h
  split at h
  · cases h
  · dsimp only at h
    split at h
    · cases h
    · cases h
      exact frame_beginFrame (List.Subset.trans (by decide) hL) (frame_stepCount (List.Subset.trans (by decide) hL)
        (frame_State_onPort (List.Subset.trans (by decide) hL) hF))

theorem frame_startNext {L : List Part} {s0 s : State} {p : Port} (hL : ([.portA, .portB, .tables, .queues, .events, .dbg, .announce] : List Part) ⊆ L) (hF : Alters L s0 s) :
    Alters L s0 (startNext s p) := by
  delta startNext
  repeat (any_goals first
    | with_reducible assumption
    | exact List.Subset.trans (by decide) hL
    | (extract_lets +onlyGivenNames x; refine (have hx : Alters L s0 x := ?_; ?_); (on_goal 1 => subst x); (on_goal 2 => clear_value x))
    | (extract_lets +onlyGivenNames x; clear_value x)
    | split
    | with_reducible refine frame_nextSeq ?_ ?_
    | with_reducible refine frame_beginFrame ?_ ?_
    | with_reducible refine frame_State_onPort ?_ ?_
    | with_reducible refine frame_startHold ?_ ?_
    | with_reducible refine frame_startQueued ?_ ?_
    | exact frame_startHold (List.Subset.trans (by decide) hL) hF (by assumption))

theorem frame_frameSymbol {L : List Part} {s0 s : State} {q : PortState} {x : TxFrame} (hL : ([.free] : List Part) ⊆ L) (hF : Alters L s0 s) :
    Alters L s0 (frameSymbol s q x).2 := by
  delta frameSymbol
  repeat (any_goals first
    | with_reducible assumption
    | exact List.Subset.trans (by decide) hL
    | (extract_lets +onlyGivenNames x; refine (have hx : Alters L s0 x := ?_; ?_); (on_goal 1 => subst x); (on_goal 2 => clear_value x))
    | (extract_lets +onlyGivenNames x; refine (have hx : Alters L s0 x.2 := ?_; ?_); (on_goal 1 => subst x); (on_goal 2 => clear_value x))
    | (extract_lets +onlyGivenNames x; clear_value x)
    | split
    | with_reducible refine frame_State_drawN ?_ ?_
    | dsimp only)

theorem frame_endFrame {L : List Part} {s0 s : State} {p : Port} {x : TxFrame} (hL : ([.portA, .portB, .queues] : List Part) ⊆ L) (hF : Alters L s0 s) :
    Alters L s0 (endFrame s p x) := by
  delta endFrame
  repeat (any_goals first
    | with_reducible assumption
    | exact List.Subset.trans (by decide) hL
    | (extract_lets +onlyGivenNames x; refine (have hx : Alters L s0 x := ?_; ?_); (on_goal 1 => subst x); (on_goal 2 => clear_value x))
    | (extract_lets +onlyGivenNames x; clear_value x)
    | split
    | with_reducible refine frame_State_onPort ?_ ?_
    | with_reducible refine frame_markSending ?_ ?_)

theorem frame_sendSymbol {L : List Part} {s0 s : State} {p : Port} (hL : ([.free, .portA, .portB, .queues] : List Part) ⊆ L) (hF : Alters L s0 s) :
    Alters L s0 (sendSymbol s p) := by
  delta sendSymbol
  repeat (any_goals first
    | with_reducible assumption
    | exact List.Subset.trans (by decide) hL
    | (extract_lets +onlyGivenNames x; refine (have hx : Alters L s0 x := ?_; ?_); (on_goal 1 => subst x); (on_goal 2 => clear_value x))
    | (extract_lets +onlyGivenNames x; refine (have hx : Alters L s0 x.2 := ?_; ?_); (on_goal 1 => subst x); (on_goal 2 => clear_value x))
    | (extract_lets +onlyGivenNames x; clear_value x)
    | split
    | with_reducible refine frame_State_onPort ?_ ?_
    | with_reducible refine frame_frameSymbol ?_ ?_
    | with_reducible refine frame_endFrame ?_ ?_
    | refine frame_pair (by with_reducible assumption) ?_
    | dsimp only)

theorem frame_execPortSymbolSchedule {L : List Part} {s0 s : State} {p : Port} (hL : ([.free, .portA, .portB, .tables, .queues, .events, .dbg, .announce, .counters] : List Part) ⊆ L) (hF : Alters L s0 s) :
    Answers L s0 (execPortSymbolSchedule p s) := by
  delta execPortSymbolSchedule
  repeat (any_goals first
    | with_reducible assumption
    | exact List.Subset.trans (by decide) hL
    | (intro a x hx; beta_reduce)
    | (intro x hx; beta_reduce)
    | (extract_lets +onlyGivenNames x; refine (have hx : Alters L s0 x := ?_; ?_); (on_goal 1 => subst x); (on_goal 2 => clear_value x))
    | (extract_lets +onlyGivenNames x; clear_value x)
    | refine answers_next ?_
    | split
    | with_reducible refine frame_whenDue ?_ ?_
    | with_reducible refine frame_State_onPort ?_ ?_
    | with_reducible refine frame_transitStart ?_ ?_
    | with_reducible refine frame_startNext ?_ ?_
    | with_reducible refine frame_declineDead ?_ ?_
    | with_reducible refine frame_sendSymbol ?_ ?_)

theorem frame_execPlaceAnnounceSend {L : List Part} {s0 s : State}  (hL : ([.free, .queues, .announce] : List Part) ⊆ L) (hF : Alters L s0 s) :
    Answers L s0 (execPlaceAnnounceSend s) := by
  delta execPlaceAnnounceSend
  repeat (any_goals first
    | with_reducible assumption
    | exact List.Subset.trans (by decide) hL
    | (intro a x hx; beta_reduce)
    | (intro x hx; beta_reduce)
    | (extract_lets +onlyGivenNames x; refine (have hx : Alters L s0 x := ?_; ?_); (on_goal 1 => subst x); (on_goal 2 => clear_value x))
    | (extract_lets +onlyGivenNames x; refine (have hx : Alters L s0 x.2 := ?_; ?_); (on_goal 1 => subst x); (on_goal 2 => clear_value x))
    | (extract_lets +onlyGivenNames x; clear_value x)
    | refine answers_next ?_
    | split
    | with_reducible refine frame_whenDue ?_ ?_
    | with_reducible refine frame_mkQFrame ?_ ?_
    | with_reducible refine frame_enqueueNode ?_ ?_
    | with_reducible refine frame_State_onAnnounce ?_ ?_
    | dsimp only)

end Sys2Proof.Laws
end

