-- ==== Sys2Proof/Laws/FrameEngine.lean ====
section
/-! SUPPORT. What each operation of Machine/Engine.lean may change: the parts of the state it names, and nothing else. -/

namespace Sys2Proof.Laws

open Sys2Proof Sys2Proof.Machine Sys2Proof.Safety

set_option linter.unusedTactic false
set_option linter.unreachableTactic false
set_option linter.unusedVariables false

theorem frame_responseFrame {L : List Part} {s0 s : State} {f : CmdFrame} {payload : List Byte} (hL : ([.free] : List Part) ⊆ L) (hF : Alters L s0 s) :
    Alters L s0 (responseFrame s f payload).2 := by
  delta responseFrame
  repeat (any_goals first
    | with_reducible assumption
    | exact List.Subset.trans (by decide) hL
    | with_reducible refine frame_mkQFrame ?_ ?_
    | dsimp only)

theorem frame_respond {L : List Part} {s0 s : State} {f : CmdFrame} {status : Nat} {flags : Nat} {body : List Byte} (hL : ([.free, .queues, .engine, .dbg] : List Part) ⊆ L) (hF : Alters L s0 s) :
    Alters L s0 (respond s f status flags body) := by
  delta respond
  repeat (any_goals first
    | with_reducible assumption
    | exact List.Subset.trans (by decide) hL
    | (extract_lets +onlyGivenNames x; refine (have hx : Alters L s0 x := ?_; ?_); (on_goal 1 => subst x); (on_goal 2 => clear_value x))
    | (extract_lets +onlyGivenNames x; refine (have hx : Alters L s0 x.2 := ?_; ?_); (on_goal 1 => subst x); (on_goal 2 => clear_value x))
    | (extract_lets +onlyGivenNames x; clear_value x)
    | split
    | with_reducible refine frame_responseFrame ?_ ?_
    | with_reducible refine frame_stepCount ?_ ?_
    | with_reducible refine frame_enqueueNode ?_ ?_
    | with_reducible refine frame_State_onEngine ?_ ?_
    | dsimp only)

theorem frame_respondPlain {L : List Part} {s0 s : State} {f : CmdFrame} {status : Nat} {body : List Byte} (hL : ([.free, .queues] : List Part) ⊆ L) (hF : Alters L s0 s) :
    Alters L s0 (respondPlain s f status body) := by
  delta respondPlain
  repeat (any_goals first
    | with_reducible assumption
    | exact List.Subset.trans (by decide) hL
    | (extract_lets +onlyGivenNames x; refine (have hx : Alters L s0 x := ?_; ?_); (on_goal 1 => subst x); (on_goal 2 => clear_value x))
    | (extract_lets +onlyGivenNames x; refine (have hx : Alters L s0 x.2 := ?_; ?_); (on_goal 1 => subst x); (on_goal 2 => clear_value x))
    | (extract_lets +onlyGivenNames x; clear_value x)
    | with_reducible refine frame_responseFrame ?_ ?_
    | with_reducible refine frame_enqueueNode ?_ ?_
    | dsimp only)

theorem frame_resendStored {L : List Part} {s0 s : State} {f : CmdFrame} {q : QFrame} (hL : ([.free, .queues] : List Part) ⊆ L) (hF : Alters L s0 s) :
    Alters L s0 (resendStored s f q) := by
  delta resendStored
  repeat (any_goals first
    | with_reducible assumption
    | exact List.Subset.trans (by decide) hL
    | (extract_lets +onlyGivenNames x; refine (have hx : Alters L s0 x := ?_; ?_); (on_goal 1 => subst x); (on_goal 2 => clear_value x))
    | (extract_lets +onlyGivenNames x; refine (have hx : Alters L s0 x.2 := ?_; ?_); (on_goal 1 => subst x); (on_goal 2 => clear_value x))
    | (extract_lets +onlyGivenNames x; clear_value x)
    | with_reducible refine frame_responseFrame ?_ ?_
    | with_reducible refine frame_enqueueNode ?_ ?_
    | dsimp only)

theorem frame_fixedAnswer {L : List Part} {s0 s : State} {f : CmdFrame} (hL : ([.free, .queues, .events, .counters] : List Part) ⊆ L) (hF : Alters L s0 s) :
    Alters L s0 (fixedAnswer s f) := by
  delta fixedAnswer
  repeat (any_goals first
    | with_reducible assumption
    | exact List.Subset.trans (by decide) hL
    | (extract_lets +onlyGivenNames x; refine (have hx : Alters L s0 x := ?_; ?_); (on_goal 1 => subst x); (on_goal 2 => clear_value x))
    | (extract_lets +onlyGivenNames x; refine (have hx : Alters L s0 x.2 := ?_; ?_); (on_goal 1 => subst x); (on_goal 2 => clear_value x))
    | (extract_lets +onlyGivenNames x; clear_value x)
    | split
    | with_reducible refine frame_responseFrame ?_ ?_
    | with_reducible refine frame_enqueueNode ?_ ?_
    | with_reducible refine frame_countCmd ?_ ?_
    | dsimp only)

theorem frame_propose {L : List Part} {s0 s : State} {w : Fin 4} {d : BitVec 256} (hL : ([.engine] : List Part) ⊆ L) (hF : Alters L s0 s) :
    Alters L s0 (propose s w d) := by
  delta propose
  repeat (any_goals first
    | with_reducible assumption
    | exact List.Subset.trans (by decide) hL
    | with_reducible refine frame_State_onEngine ?_ ?_)

theorem frame_becomeAwaiting {L : List Part} {s0 s : State} {f : CmdFrame} {x : List Byte} (hL : ([.free, .queues, .engine, .dbg] : List Part) ⊆ L) (hF : Alters L s0 s) :
    Alters L s0 (becomeAwaiting s f x) := by
  delta becomeAwaiting
  repeat (any_goals first
    | with_reducible assumption
    | exact List.Subset.trans (by decide) hL
    | (extract_lets +onlyGivenNames x; refine (have hx : Alters L s0 x := ?_; ?_); (on_goal 1 => subst x); (on_goal 2 => clear_value x))
    | (extract_lets +onlyGivenNames x; clear_value x)
    | split
    | with_reducible refine frame_respond ?_ ?_
    | with_reducible refine frame_propose ?_ ?_
    | with_reducible refine frame_State_onEngine ?_ ?_)

theorem frame_finalResponse {L : List Part} {s0 s : State} {f : CmdFrame} {digest : Option (BitVec 256)} {status : Nat} {body : List Byte} (hL : ([.free, .queues, .engine, .dbg] : List Part) ⊆ L) (hF : Alters L s0 s) :
    Alters L s0 (finalResponse s f digest status body) := by
  delta finalResponse
  repeat (any_goals first
    | with_reducible assumption
    | exact List.Subset.trans (by decide) hL
    | (extract_lets +onlyGivenNames x; refine (have hx : Alters L s0 x := ?_; ?_); (on_goal 1 => subst x); (on_goal 2 => clear_value x))
    | (extract_lets +onlyGivenNames x; clear_value x)
    | split
    | with_reducible refine frame_respond ?_ ?_
    | with_reducible refine frame_State_onEngine ?_ ?_)

theorem frame_endAwaiting {L : List Part} {s0 s : State} {status : Nat} (hL : ([.free, .queues, .engine, .dbg] : List Part) ⊆ L) (hF : Alters L s0 s) :
    Alters L s0 (endAwaiting s status) := by
  delta endAwaiting
  repeat (any_goals first
    | with_reducible assumption
    | exact List.Subset.trans (by decide) hL
    | (intro a x hx; beta_reduce)
    | (intro x hx; beta_reduce)
    | (extract_lets +onlyGivenNames x; refine (have hx : Alters L s0 x := ?_; ?_); (on_goal 1 => subst x); (on_goal 2 => clear_value x))
    | (extract_lets +onlyGivenNames x; clear_value x)
    | with_reducible refine frame_each ?_ ?_
    | with_reducible refine frame_State_onEngine ?_ ?_
    | with_reducible refine frame_finalResponse ?_ ?_)

theorem frame_createOp {L : List Part} {s0 s : State} {f : CmdFrame} {obj : OpObject} {gated : Bool} (hL : ([.engine] : List Part) ⊆ L) (hF : Alters L s0 s) :
    Alters L s0 (createOp s f obj gated).2 := by
  delta createOp
  repeat (any_goals first
    | with_reducible assumption
    | exact List.Subset.trans (by decide) hL
    | (extract_lets +onlyGivenNames x; refine (have hx : Alters L s0 x := ?_; ?_); (on_goal 1 => subst x); (on_goal 2 => clear_value x))
    | (extract_lets +onlyGivenNames x; refine (have hx : Alters L s0 x.2 := ?_; ?_); (on_goal 1 => subst x); (on_goal 2 => clear_value x))
    | (extract_lets +onlyGivenNames x; clear_value x)
    | with_reducible refine frame_State_onEngine ?_ ?_
    | dsimp only)

theorem frame_takeInput {L : List Part} {s0 s : State} {f : CmdFrame} (hL : ([.hands, .engine] : List Part) ⊆ L) (hF : Alters L s0 s) :
    Alters L s0 (takeInput s f) := by
  delta takeInput
  repeat (any_goals first
    | with_reducible assumption
    | exact List.Subset.trans (by decide) hL
    | (extract_lets +onlyGivenNames x; refine (have hx : Alters L s0 x := ?_; ?_); (on_goal 1 => subst x); (on_goal 2 => clear_value x))
    | (extract_lets +onlyGivenNames x; clear_value x)
    | split
    | with_reducible refine frame_State_onHand ?_ ?_
    | with_reducible refine frame_State_onEngine ?_ ?_)

theorem frame_acceptSeq {L : List Part} {s0 s : State} {f : CmdFrame} (hL : ([.engine] : List Part) ⊆ L) (hF : Alters L s0 s) :
    Alters L s0 (acceptSeq s f) := by
  delta acceptSeq
  repeat (any_goals first
    | with_reducible assumption
    | exact List.Subset.trans (by decide) hL
    | (extract_lets +onlyGivenNames x; refine (have hx : Alters L s0 x := ?_; ?_); (on_goal 1 => subst x); (on_goal 2 => clear_value x))
    | (extract_lets +onlyGivenNames x; clear_value x)
    | with_reducible refine frame_State_onEngine ?_ ?_)

theorem frame_execute {L : List Part} {s0 s : State} {c : Cmd} {f : CmdFrame} (hL : ([.free, .queues, .engine, .dbg] : List Part) ⊆ L)
    (hc : ∀ x, Alters L s0 x → Alters L s0 (c.run f x).2) (hF : Alters L s0 s) : Alters L s0 (execute c f s) := by
  have h := hc s hF
  unfold execute
  split
  · exact frame_becomeAwaiting (List.Subset.trans (by decide) hL) hF
  · split
    · next he => rw [he] at h; exact frame_respond (List.Subset.trans (by decide) hL) h
    · next he => rw [he] at h; exact h

theorem frame_runCommand {L : List Part} {s0 s : State} {c : Cmd} {f : CmdFrame}
    (hL : ([.free, .tables, .queues, .hands, .engine, .events, .dbg, .counters] : List Part) ⊆ L)
    (hc : ∀ x, Alters L s0 x → Alters L s0 (c.run f x).2) (hF : Alters L s0 s) : Alters L s0 (runCommand c f s) := by
  delta runCommand
  repeat (any_goals first
    | with_reducible assumption
    | exact List.Subset.trans (by decide) hL
    | (extract_lets +onlyGivenNames x; refine (have hx : Alters L s0 x := ?_; ?_); (on_goal 1 => subst x); (on_goal 2 => clear_value x))
    | (extract_lets +onlyGivenNames x; clear_value x)
    | split
    | with_reducible refine frame_execute ?_ hc ?_
    | with_reducible refine frame_takeInput ?_ ?_
    | with_reducible refine frame_countCmd ?_ ?_
    | with_reducible refine frame_fixedTake ?_ ?_
    | with_reducible refine frame_respondPlain ?_ ?_
    | with_reducible refine frame_resendStored ?_ ?_
    | with_reducible refine frame_acceptSeq ?_ ?_
    | with_reducible refine frame_respond ?_ ?_)

theorem frame_execFixedResponder {L : List Part} {s0 s : State} {f : CmdFrame} (hL : ([.free, .tables, .queues, .events, .counters] : List Part) ⊆ L) (hF : Alters L s0 s) :
    Answers L s0 (execFixedResponder f s) := by
  delta execFixedResponder
  repeat (any_goals first
    | with_reducible assumption
    | exact List.Subset.trans (by decide) hL
    | (intro a x hx; beta_reduce)
    | (intro x hx; beta_reduce)
    | (extract_lets +onlyGivenNames x; refine (have hx : Alters L s0 x := ?_; ?_); (on_goal 1 => subst x); (on_goal 2 => clear_value x))
    | (extract_lets +onlyGivenNames x; clear_value x)
    | refine answers_next ?_
    | split
    | with_reducible refine frame_whenDue ?_ ?_
    | with_reducible refine frame_State_onPipe ?_ ?_
    | with_reducible refine frame_fixedAnswer ?_ ?_
    | with_reducible refine frame_countCmd ?_ ?_)

end Sys2Proof.Laws
end

