-- ==== Sys2Proof/Laws/FrameTableRows.lean ====
section
/-! SUPPORT. What each operation of Machine/TableRows.lean may change: the parts of the state it names, and nothing else. -/

namespace Sys2Proof.Laws

open Sys2Proof Sys2Proof.Machine Sys2Proof.Safety

set_option linter.unusedTactic false
set_option linter.unreachableTactic false
set_option linter.unusedVariables false

theorem frame_freeHash {L : List Part} {s0 s : State} {p : Port} {l : HLoc} (hL : ([.tables, .mem] : List Part) ⊆ L) (hF : Alters L s0 s) :
    Alters L s0 (freeHash p l s) := by
  delta freeHash
  repeat (any_goals first
    | with_reducible assumption
    | exact List.Subset.trans (by decide) hL
    | (extract_lets +onlyGivenNames x; refine (have hx : Alters L s0 x := ?_; ?_); (on_goal 1 => subst x); (on_goal 2 => clear_value x))
    | (extract_lets +onlyGivenNames x; clear_value x)
    | split
    | with_reducible refine frame_setHash ?_ ?_
    | with_reducible refine frame_countLearned ?_ ?_)

theorem frame_agingVisit {L : List Part} {s0 s : State} {p : Port} (hL : ([.tables, .mem] : List Part) ⊆ L) (hF : Alters L s0 s) :
    Alters L s0 (agingVisit s p) := by
  delta agingVisit
  repeat (any_goals first
    | with_reducible assumption
    | exact List.Subset.trans (by decide) hL
    | (intro a x hx; beta_reduce)
    | (intro x hx; beta_reduce)
    | (extract_lets +onlyGivenNames x; refine (have hx : Alters L s0 x := ?_; ?_); (on_goal 1 => subst x); (on_goal 2 => clear_value x))
    | (extract_lets +onlyGivenNames x; clear_value x)
    | with_reducible refine frame_each ?_ ?_
    | with_reducible refine frame_freeHash ?_ ?_
    | with_reducible refine frame_State_onPipe ?_ ?_)

theorem frame_execAgingScannerVisit {L : List Part} {s0 s : State} {p : Port} (hL : ([.tables, .mem] : List Part) ⊆ L) (hF : Alters L s0 s) :
    Answers L s0 (execAgingScannerVisit p s) := by
  delta execAgingScannerVisit
  repeat (any_goals first
    | with_reducible assumption
    | exact List.Subset.trans (by decide) hL
    | (intro a x hx; beta_reduce)
    | (intro x hx; beta_reduce)
    | refine answers_next ?_
    | with_reducible refine frame_whenDue ?_ ?_
    | with_reducible refine frame_agingVisit ?_ ?_)

theorem frame_execLearnedPrefixAging {L : List Part} {s0 s : State}  (hL : ([.tables] : List Part) ⊆ L) (hF : Alters L s0 s) :
    Answers L s0 (execLearnedPrefixAging s) := by
  delta execLearnedPrefixAging
  repeat (any_goals first
    | with_reducible assumption
    | exact List.Subset.trans (by decide) hL
    | (intro a x hx; beta_reduce)
    | (intro x hx; beta_reduce)
    | refine answers_next ?_
    | with_reducible refine frame_whenDue ?_ ?_
    | with_reducible refine frame_State_onTables ?_ ?_)

theorem frame_execPolicerRefill {L : List Part} {s0 s : State}  (hL : ([.tables] : List Part) ⊆ L) (hF : Alters L s0 s) :
    Answers L s0 (execPolicerRefill s) := by
  delta execPolicerRefill
  repeat (any_goals first
    | with_reducible assumption
    | exact List.Subset.trans (by decide) hL
    | (intro a x hx; beta_reduce)
    | (intro x hx; beta_reduce)
    | refine answers_next ?_
    | with_reducible refine frame_whenDue ?_ ?_
    | with_reducible refine frame_State_onTables ?_ ?_)

theorem frame_execShaperRefill {L : List Part} {s0 s : State}  (hL : ([.queues] : List Part) ⊆ L) (hF : Alters L s0 s) :
    Answers L s0 (execShaperRefill s) := by
  delta execShaperRefill
  repeat (any_goals first
    | with_reducible assumption
    | exact List.Subset.trans (by decide) hL
    | (intro a x hx; beta_reduce)
    | (intro x hx; beta_reduce)
    | refine answers_next ?_
    | with_reducible refine frame_whenDue ?_ ?_
    | with_reducible refine frame_State_onQueues ?_ ?_)

theorem frame_drained {L : List Part} {s0 s : State} {w : InvWhy} (hL : ([.free, .queues, .hands, .engine, .events, .dbg] : List Part) ⊆ L) (hF : Alters L s0 s) :
    Alters L s0 (drained s w) := by
  delta drained
  repeat (any_goals first
    | with_reducible assumption
    | exact List.Subset.trans (by decide) hL
    | split
    | with_reducible refine frame_respond ?_ ?_
    | with_reducible refine frame_opEnd ?_ ?_
    | with_reducible refine frame_State_onHand ?_ ?_)

theorem frame_nextInversion {L : List Part} {s0 s : State}  (hL : ([.tables] : List Part) ⊆ L) (hF : Alters L s0 s) :
    Alters L s0 (nextInversion s) := by
  delta nextInversion
  repeat (any_goals first
    | with_reducible assumption
    | exact List.Subset.trans (by decide) hL
    | split
    | with_reducible refine frame_State_onTables ?_ ?_)

theorem frame_execEpochDrained {L : List Part} {s0 s : State}  (hL : ([.free, .tables, .queues, .hands, .engine, .events, .dbg] : List Part) ⊆ L) (hF : Alters L s0 s) :
    Answers L s0 (execEpochDrained s) := by
  delta execEpochDrained
  repeat (any_goals first
    | with_reducible assumption
    | exact List.Subset.trans (by decide) hL
    | (intro a x hx; beta_reduce)
    | (intro x hx; beta_reduce)
    | refine answers_next ?_
    | split
    | with_reducible refine frame_whenDue ?_ ?_
    | with_reducible refine frame_nextInversion ?_ ?_
    | with_reducible refine frame_drained ?_ ?_)

theorem frame_execCommitPrepared {L : List Part} {s0 s : State}  (hL : ([.tables] : List Part) ⊆ L) (hF : Alters L s0 s) :
    Answers L s0 (execCommitPrepared s) := by
  delta execCommitPrepared
  repeat (any_goals first
    | with_reducible assumption
    | exact List.Subset.trans (by decide) hL
    | (intro a x hx; beta_reduce)
    | (intro x hx; beta_reduce)
    | (extract_lets +onlyGivenNames x; refine (have hx : Alters L s0 x := ?_; ?_); (on_goal 1 => subst x); (on_goal 2 => clear_value x))
    | (extract_lets +onlyGivenNames x; clear_value x)
    | refine answers_next ?_
    | split
    | with_reducible refine frame_whenDue ?_ ?_
    | with_reducible refine frame_State_onTables ?_ ?_)

theorem frame_commitSwitch {L : List Part} {s0 s : State} {b : List Change} {late : Bool} (hL : ([.tables] : List Part) ⊆ L) (hF : Alters L s0 s) :
    Alters L s0 (commitSwitch s b late) := by
  delta commitSwitch
  repeat (any_goals first
    | with_reducible assumption
    | exact List.Subset.trans (by decide) hL
    | (extract_lets +onlyGivenNames x; refine (have hx : Alters L s0 x := ?_; ?_); (on_goal 1 => subst x); (on_goal 2 => clear_value x))
    | (extract_lets +onlyGivenNames x; clear_value x)
    | with_reducible refine frame_State_onTables ?_ ?_
    | with_reducible refine frame_invertEpoch ?_ ?_)

theorem frame_execCommitSwitch {L : List Part} {s0 s : State}  (hL : ([.tables] : List Part) ⊆ L) (hF : Alters L s0 s) :
    Answers L s0 (execCommitSwitch s) := by
  delta execCommitSwitch
  repeat (any_goals first
    | with_reducible assumption
    | exact List.Subset.trans (by decide) hL
    | (intro a x hx; beta_reduce)
    | (intro x hx; beta_reduce)
    | (extract_lets +onlyGivenNames x; refine (have hx : Alters L s0 x := ?_; ?_); (on_goal 1 => subst x); (on_goal 2 => clear_value x))
    | (extract_lets +onlyGivenNames x; clear_value x)
    | refine answers_next ?_
    | split
    | with_reducible refine frame_whenDue ?_ ?_
    | with_reducible refine frame_commitSwitch ?_ ?_)

theorem frame_writeShadow {L : List Part} {s0 s : State}  (hL : ([.tables, .mem] : List Part) ⊆ L) (hF : Alters L s0 s) :
    Alters L s0 (writeShadow s) := by
  delta writeShadow
  repeat (any_goals first
    | with_reducible assumption
    | exact List.Subset.trans (by decide) hL
    | (intro a x hx; beta_reduce)
    | (intro x hx; beta_reduce)
    | (extract_lets +onlyGivenNames x; refine (have hx : Alters L s0 x := ?_; ?_); (on_goal 1 => subst x); (on_goal 2 => clear_value x))
    | (extract_lets +onlyGivenNames x; clear_value x)
    | with_reducible refine frame_each ?_ ?_
    | with_reducible refine frame_State_onMem ?_ ?_
    | with_reducible refine frame_State_onTables ?_ ?_)

theorem frame_batchDone {L : List Part} {s0 s : State}  (hL : ([.tables, .events] : List Part) ⊆ L) (hF : Alters L s0 s) :
    Alters L s0 (batchDone s) := by
  delta batchDone
  repeat (any_goals first
    | with_reducible assumption
    | exact List.Subset.trans (by decide) hL
    | (extract_lets +onlyGivenNames x; refine (have hx : Alters L s0 x := ?_; ?_); (on_goal 1 => subst x); (on_goal 2 => clear_value x))
    | (extract_lets +onlyGivenNames x; clear_value x)
    | split
    | with_reducible refine frame_State_onTables ?_ ?_
    | with_reducible refine frame_raise ?_ ?_)

theorem frame_execCommitWritebackDone {L : List Part} {s0 s : State}  (hL : ([.tables, .mem, .events] : List Part) ⊆ L) (hF : Alters L s0 s) :
    Answers L s0 (execCommitWritebackDone s) := by
  delta execCommitWritebackDone
  repeat (any_goals first
    | with_reducible assumption
    | exact List.Subset.trans (by decide) hL
    | (intro a x hx; beta_reduce)
    | (intro x hx; beta_reduce)
    | refine answers_next ?_
    | with_reducible refine frame_whenDue ?_ ?_
    | with_reducible refine frame_batchDone ?_ ?_
    | with_reducible refine frame_writeShadow ?_ ?_)

theorem frame_execCommitDefer {L : List Part} {s0 s : State}  (hL : ([.tables, .events] : List Part) ⊆ L) (hF : Alters L s0 s) :
    Answers L s0 (execCommitDefer s) := by
  delta execCommitDefer
  repeat (any_goals first
    | with_reducible assumption
    | exact List.Subset.trans (by decide) hL
    | (intro a x hx; beta_reduce)
    | (intro x hx; beta_reduce)
    | (extract_lets +onlyGivenNames x; refine (have hx : Alters L s0 x := ?_; ?_); (on_goal 1 => subst x); (on_goal 2 => clear_value x))
    | (extract_lets +onlyGivenNames x; clear_value x)
    | refine answers_next ?_
    | with_reducible refine frame_whenDue ?_ ?_
    | with_reducible refine frame_raise ?_ ?_
    | with_reducible refine frame_State_onTables ?_ ?_)

theorem frame_flushBucket {L : List Part} {s0 s : State} {p : Port} {o : Op} (hL : ([.tables, .mem] : List Part) ⊆ L) (hF : Alters L s0 s) :
    Alters L s0 (flushBucket s p o) := by
  delta flushBucket
  repeat (any_goals first
    | with_reducible assumption
    | exact List.Subset.trans (by decide) hL
    | (intro a x hx; beta_reduce)
    | (intro x hx; beta_reduce)
    | with_reducible refine frame_each ?_ ?_
    | with_reducible refine frame_freeHash ?_ ?_)

theorem frame_flushDrain {L : List Part} {s0 s : State} {o : Op} (hL : ([.tables, .engine] : List Part) ⊆ L) (hF : Alters L s0 s) :
    Alters L s0 (flushDrain s o) := by
  delta flushDrain
  repeat (any_goals first
    | with_reducible assumption
    | exact List.Subset.trans (by decide) hL
    | with_reducible refine frame_invertEpoch ?_ ?_
    | with_reducible refine frame_onOp ?_ ?_)

theorem frame_flushBoundary {L : List Part} {s0 s : State} {o : Op} (hL : ([.tables, .chans, .mem, .engine, .seat, .events] : List Part) ⊆ L) (hF : Alters L s0 s) :
    Alters L s0 (flushBoundary s o) := by
  delta flushBoundary
  repeat (any_goals first
    | with_reducible assumption
    | exact List.Subset.trans (by decide) hL
    | (extract_lets +onlyGivenNames x; refine (have hx : Alters L s0 x := ?_; ?_); (on_goal 1 => subst x); (on_goal 2 => clear_value x))
    | (extract_lets +onlyGivenNames x; clear_value x)
    | split
    | with_reducible refine frame_onOp ?_ ?_
    | with_reducible refine frame_opRollback ?_ ?_
    | with_reducible refine frame_opEnter ?_ ?_
    | with_reducible refine frame_flushDrain ?_ ?_)

theorem frame_flushPrefixes {L : List Part} {s0 s : State} {p : Port} (hL : ([.tables] : List Part) ⊆ L) (hF : Alters L s0 s) :
    Alters L s0 (flushPrefixes s p) := by
  delta flushPrefixes
  repeat (any_goals first
    | with_reducible assumption
    | exact List.Subset.trans (by decide) hL
    | with_reducible refine frame_State_onTables ?_ ?_)

theorem frame_execFlushPortStep {L : List Part} {s0 s : State} {handle : BitVec 16} (hL : ([.tables, .chans, .mem, .engine, .seat, .events] : List Part) ⊆ L) (hF : Alters L s0 s) :
    Answers L s0 (execFlushPortStep handle s) := by
  delta execFlushPortStep
  repeat (any_goals first
    | with_reducible assumption
    | exact List.Subset.trans (by decide) hL
    | (intro a x hx; beta_reduce)
    | (intro x hx; beta_reduce)
    | refine answers_next ?_
    | split
    | with_reducible refine frame_whenDue ?_ ?_
    | with_reducible refine frame_flushBoundary ?_ ?_
    | with_reducible refine frame_flushBucket ?_ ?_
    | with_reducible refine frame_flushDrain ?_ ?_
    | with_reducible refine frame_flushPrefixes ?_ ?_)

end Sys2Proof.Laws
end

