-- ==== Sys2Proof/Laws/FrameQueueRows.lean ====
section
/-! SUPPORT. What each operation of Machine/QueueRows.lean may change: the parts of the state it names, and nothing else. -/

namespace Sys2Proof.Laws

open Sys2Proof Sys2Proof.Machine Sys2Proof.Safety

set_option linter.unusedTactic false
set_option linter.unreachableTactic false
set_option linter.unusedVariables false

theorem frame_execStreamFrameBuild {L : List Part} {s0 s : State} {sid : BitVec 16} (hL : ([.free, .queues, .hands, .streams, .events, .counters] : List Part) ⊆ L) (hF : Alters L s0 s) :
    Answers L s0 (execStreamFrameBuild sid s) := by
  delta execStreamFrameBuild
  repeat (any_goals first
    | with_reducible assumption
    | exact List.Subset.trans (by decide) hL
    | (intro a x hx; beta_reduce)
    | (intro x hx; beta_reduce)
    | refine answers_next ?_
    | split
    | with_reducible refine frame_whenDue ?_ ?_
    | with_reducible refine frame_buildStreamFrame ?_ ?_)

theorem frame_execOriginEntryRemove {L : List Part} {s0 s : State} {sid : BitVec 16} (hL : ([.tables, .streams, .mem] : List Part) ⊆ L) (hF : Alters L s0 s) :
    Answers L s0 (execOriginEntryRemove sid s) := by
  have m_streams : Part.streams ∈ L := hL (by decide)
  delta execOriginEntryRemove
  repeat (any_goals first
    | with_reducible assumption
    | exact List.Subset.trans (by decide) hL
    | (intro a x hx; beta_reduce)
    | (intro x hx; beta_reduce)
    | (extract_lets +onlyGivenNames x; refine (have hx : Alters L s0 x := ?_; ?_); (on_goal 1 => subst x); (on_goal 2 => clear_value x))
    | (extract_lets +onlyGivenNames x; clear_value x)
    | refine answers_next ?_
    | split
    | with_reducible refine frame_whenDue ?_ ?_
    | with_reducible refine frame_setStreamEntry ?_ ?_
    | with_reducible refine frame_invertEpoch ?_ ?_
    | simp only [frame_mk_streams m_streams])

theorem frame_execOutApply {L : List Part} {s0 s : State} {ch : Fin 24} (hL : ([.chans, .events] : List Part) ⊆ L) (hF : Alters L s0 s) :
    Answers L s0 (execOutApply ch s) := by
  delta execOutApply
  repeat (any_goals first
    | with_reducible assumption
    | exact List.Subset.trans (by decide) hL
    | (intro a x hx; beta_reduce)
    | (intro x hx; beta_reduce)
    | refine answers_next ?_
    | split
    | with_reducible refine frame_whenDue ?_ ?_
    | with_reducible refine frame_applyOut ?_ ?_
    | with_reducible refine frame_State_onChan ?_ ?_)

theorem frame_execResponseHeldRelease {L : List Part} {s0 s : State}  (hL : ([.queues] : List Part) ⊆ L) (hF : Alters L s0 s) :
    Answers L s0 (execResponseHeldRelease s) := by
  delta execResponseHeldRelease
  repeat (any_goals first
    | with_reducible assumption
    | exact List.Subset.trans (by decide) hL
    | (intro a x hx; beta_reduce)
    | (intro x hx; beta_reduce)
    | refine answers_next ?_
    | split
    | with_reducible refine frame_whenDue ?_ ?_
    | with_reducible refine frame_setQFrames ?_ ?_
    | with_reducible refine frame_State_onQueues ?_ ?_)

theorem frame_handResetStart {L : List Part} {s0 s : State} {h : Fin 16} (hL : ([.tables, .hands, .streams, .chans, .mem, .engine, .seat, .events, .dbg] : List Part) ⊆ L) (hF : Alters L s0 s) :
    Alters L s0 (handResetStart s h) := by
  have m_streams : Part.streams ∈ L := hL (by decide)
  delta handResetStart
  repeat (any_goals first
    | with_reducible assumption
    | exact List.Subset.trans (by decide) hL
    | (intro a x hx; beta_reduce)
    | (intro x hx; beta_reduce)
    | (extract_lets +onlyGivenNames x; refine (have hx : Alters L s0 x := ?_; ?_); (on_goal 1 => subst x); (on_goal 2 => clear_value x))
    | (extract_lets +onlyGivenNames x; clear_value x)
    | split
    | with_reducible refine frame_each ?_ ?_
    | with_reducible refine frame_closeSession ?_ ?_
    | with_reducible refine frame_State_onHand ?_ ?_
    | with_reducible refine frame_dropPending ?_ ?_
    | with_reducible refine frame_State_onTables ?_ ?_
    | with_reducible refine frame_endOps ?_ ?_
    | with_reducible refine frame_invertEpoch ?_ ?_
    | with_reducible refine frame_setStreamEntry ?_ ?_
    | with_reducible refine frame_mirrorStations ?_ ?_
    | with_reducible refine frame_freeGrids ?_ ?_
    | simp only [frame_mk_streams m_streams])

theorem frame_handResetEnd {L : List Part} {s0 s : State} {h : Fin 16} (hL : ([.free, .queues, .hands, .engine, .events] : List Part) ⊆ L) (hF : Alters L s0 s) :
    Alters L s0 (handResetEnd s h) := by
  delta handResetEnd
  repeat (any_goals first
    | with_reducible assumption
    | exact List.Subset.trans (by decide) hL
    | (extract_lets +onlyGivenNames x; refine (have hx : Alters L s0 x := ?_; ?_); (on_goal 1 => subst x); (on_goal 2 => clear_value x))
    | (extract_lets +onlyGivenNames x; clear_value x)
    | with_reducible refine frame_State_onQueues ?_ ?_
    | with_reducible refine frame_State_onHand ?_ ?_
    | with_reducible refine frame_discardAwait ?_ ?_
    | with_reducible refine frame_State_onEngine ?_ ?_
    | with_reducible refine frame_redrawSession ?_ ?_
    | with_reducible refine frame_State_onEvents ?_ ?_
    | with_reducible refine frame_raise ?_ ?_)

theorem frame_execHandResetDrain {L : List Part} {s0 s : State} {h : Fin 16} (hL : ([.free, .queues, .hands, .engine, .events] : List Part) ⊆ L) (hF : Alters L s0 s) :
    Answers L s0 (execHandResetDrain h s) := by
  delta execHandResetDrain
  repeat (any_goals first
    | with_reducible assumption
    | exact List.Subset.trans (by decide) hL
    | (intro a x hx; beta_reduce)
    | (intro x hx; beta_reduce)
    | refine answers_next ?_
    | with_reducible refine frame_whenDue ?_ ?_
    | with_reducible refine frame_handResetEnd ?_ ?_)

end Sys2Proof.Laws
end

