-- ==== Sys2Proof/Laws/FrameMemBanks.lean ====
section
/-! SUPPORT. What each operation of Machine/MemBanks.lean may change: the parts of the state it names, and nothing else. -/

namespace Sys2Proof.Laws

open Sys2Proof Sys2Proof.Machine Sys2Proof.Safety

set_option linter.unusedTactic false
set_option linter.unreachableTactic false
set_option linter.unusedVariables false

theorem frame_execScrubWrite {L : List Part} {s0 s : State}  (hL : ([.mem] : List Part) ⊆ L) (hF : Alters L s0 s) :
    Answers L s0 (execScrubWrite s) := by
  delta execScrubWrite
  repeat (any_goals first
    | with_reducible assumption
    | exact List.Subset.trans (by decide) hL
    | (intro a x hx; beta_reduce)
    | (intro x hx; beta_reduce)
    | refine answers_next ?_
    | with_reducible refine frame_whenDue ?_ ?_
    | with_reducible refine frame_State_onMem ?_ ?_)

theorem frame_sweepRegion {L : List Part} {s0 s : State} {r : Nat} {obs : SweepObs} (hL : ([.free, .supply, .tiers, .straps, .clock, .portA, .portB, .cut, .tables, .queues, .hands, .streams, .chans, .mem, .engine, .vault, .seat, .events, .dbg, .announce, .counters] : List Part) ⊆ L) (hF : Alters L s0 s) :
    Alters L s0 (sweepRegion s r obs) := by
  have m_mem : Part.mem ∈ L := hL (by decide)
  delta sweepRegion
  repeat (any_goals first
    | with_reducible assumption
    | exact List.Subset.trans (by decide) hL
    | (extract_lets +onlyGivenNames x; refine (have hx : Alters L s0 x := ?_; ?_); (on_goal 1 => subst x); (on_goal 2 => clear_value x))
    | (extract_lets +onlyGivenNames x; clear_value x)
    | split
    | with_reducible refine frame_eccApply ?_ ?_
    | with_reducible refine frame_bump ?_ ?_
    | with_reducible refine frame_raise ?_ ?_
    | simp only [frame_mk_mem m_mem])

theorem frame_sweepBoundary {L : List Part} {s0 s : State} {o : Op} {next : Nat} (hL : ([.tables, .chans, .mem, .engine, .seat, .events] : List Part) ⊆ L) (hF : Alters L s0 s) :
    Alters L s0 (sweepBoundary s o next) := by
  delta sweepBoundary
  repeat (any_goals first
    | with_reducible assumption
    | exact List.Subset.trans (by decide) hL
    | (extract_lets +onlyGivenNames x; refine (have hx : Alters L s0 x := ?_; ?_); (on_goal 1 => subst x); (on_goal 2 => clear_value x))
    | (extract_lets +onlyGivenNames x; clear_value x)
    | split
    | with_reducible refine frame_onOp ?_ ?_
    | with_reducible refine frame_opEnd ?_ ?_
    | with_reducible refine frame_State_onMem ?_ ?_
    | with_reducible refine frame_opRollback ?_ ?_
    | with_reducible refine frame_opEnter ?_ ?_)

theorem frame_execSweepRegionStart {L : List Part} {s0 s : State} {obs : SweepObs} (hL : ([.free, .supply, .tiers, .straps, .clock, .portA, .portB, .cut, .tables, .queues, .hands, .streams, .chans, .mem, .engine, .vault, .seat, .events, .dbg, .announce, .counters] : List Part) ⊆ L) (hF : Alters L s0 s) :
    Answers L s0 (execSweepRegionStart obs s) := by
  delta execSweepRegionStart
  repeat (any_goals first
    | with_reducible assumption
    | exact List.Subset.trans (by decide) hL
    | (intro a x hx; beta_reduce)
    | (intro x hx; beta_reduce)
    | (extract_lets +onlyGivenNames x; refine (have hx : Alters L s0 x := ?_; ?_); (on_goal 1 => subst x); (on_goal 2 => clear_value x))
    | (extract_lets +onlyGivenNames x; clear_value x)
    | refine answers_next ?_
    | split
    | with_reducible refine frame_whenDue ?_ ?_
    | with_reducible refine frame_sweepRegion ?_ ?_
    | with_reducible refine frame_State_onMem ?_ ?_
    | with_reducible refine frame_sweepBoundary ?_ ?_)

theorem frame_execWakeScrubEnd {L : List Part} {s0 s : State}  (hL : ([.mem] : List Part) ⊆ L) (hF : Alters L s0 s) :
    Answers L s0 (execWakeScrubEnd s) := by
  delta execWakeScrubEnd
  repeat (any_goals first
    | with_reducible assumption
    | exact List.Subset.trans (by decide) hL
    | (intro a x hx; beta_reduce)
    | (intro x hx; beta_reduce)
    | refine answers_next ?_
    | with_reducible refine frame_whenDue ?_ ?_
    | with_reducible refine frame_State_onMem ?_ ?_)

end Sys2Proof.Laws
end

