-- ==== Sys2Proof/Laws/FrameChannels.lean ====
section
/-! SUPPORT. What each operation of Machine/Channels.lean may change: the parts of the state it names, and nothing else. -/

namespace Sys2Proof.Laws

open Sys2Proof Sys2Proof.Machine Sys2Proof.Safety

set_option linter.unusedTactic false
set_option linter.unreachableTactic false
set_option linter.unusedVariables false

theorem frame_setDisc {L : List Part} {s0 s : State} {ft : Fin 96} {b : Bool} (hL : ([.chans] : List Part) ⊆ L) (hF : Alters L s0 s) :
    Alters L s0 (setDisc s ft b) := by
  delta setDisc
  repeat (any_goals first
    | with_reducible assumption
    | exact List.Subset.trans (by decide) hL
    | with_reducible refine frame_State_onChan ?_ ?_)

theorem frame_restartChecks {L : List Part} {s0 s : State} {n : Fin 24} (hL : ([.chans] : List Part) ⊆ L) (hF : Alters L s0 s) :
    Alters L s0 (restartChecks s n) := by
  delta restartChecks
  repeat (any_goals first
    | with_reducible assumption
    | exact List.Subset.trans (by decide) hL
    | (extract_lets +onlyGivenNames x; refine (have hx : Alters L s0 x := ?_; ?_); (on_goal 1 => subst x); (on_goal 2 => clear_value x))
    | (extract_lets +onlyGivenNames x; clear_value x)
    | split
    | with_reducible refine frame_State_onChan ?_ ?_)

theorem frame_execDisconnectOpen {L : List Part} {s0 s : State} {ft : Fin 96} (hL : ([.chans, .events] : List Part) ⊆ L) (hF : Alters L s0 s) :
    Answers L s0 (execDisconnectOpen ft s) := by
  delta execDisconnectOpen
  repeat (any_goals first
    | with_reducible assumption
    | exact List.Subset.trans (by decide) hL
    | (intro a x hx; beta_reduce)
    | (intro x hx; beta_reduce)
    | (extract_lets +onlyGivenNames x; refine (have hx : Alters L s0 x := ?_; ?_); (on_goal 1 => subst x); (on_goal 2 => clear_value x))
    | (extract_lets +onlyGivenNames x; clear_value x)
    | refine answers_next ?_
    | split
    | with_reducible refine frame_whenDue ?_ ?_
    | with_reducible refine frame_setDisc ?_ ?_
    | with_reducible refine frame_setFrontEnd ?_ ?_
    | with_reducible refine frame_staleBegin ?_ ?_
    | with_reducible refine frame_State_onChan ?_ ?_
    | with_reducible refine frame_raise ?_ ?_)

theorem frame_execDisconnectReclose {L : List Part} {s0 s : State} {ft : Fin 96} (hL : ([.chans, .events] : List Part) ⊆ L) (hF : Alters L s0 s) :
    Answers L s0 (execDisconnectReclose ft s) := by
  delta execDisconnectReclose
  repeat (any_goals first
    | with_reducible assumption
    | exact List.Subset.trans (by decide) hL
    | (intro a x hx; beta_reduce)
    | (intro x hx; beta_reduce)
    | (extract_lets +onlyGivenNames x; refine (have hx : Alters L s0 x := ?_; ?_); (on_goal 1 => subst x); (on_goal 2 => clear_value x))
    | (extract_lets +onlyGivenNames x; clear_value x)
    | refine answers_next ?_
    | split
    | with_reducible refine frame_whenDue ?_ ?_
    | with_reducible refine frame_setDisc ?_ ?_
    | with_reducible refine frame_setFrontEnd ?_ ?_
    | with_reducible refine frame_staleEnd ?_ ?_
    | with_reducible refine frame_restartChecks ?_ ?_
    | with_reducible refine frame_clearLatching ?_ ?_)

theorem frame_execLoopSupplyFoldback {L : List Part} {s0 s : State} {ch : Fin 24} (hL : ([.chans, .events] : List Part) ⊆ L) (hF : Alters L s0 s) :
    Answers L s0 (execLoopSupplyFoldback ch s) := by
  delta execLoopSupplyFoldback
  repeat (any_goals first
    | with_reducible assumption
    | exact List.Subset.trans (by decide) hL
    | (intro a x hx; beta_reduce)
    | (intro x hx; beta_reduce)
    | refine answers_next ?_
    | with_reducible refine frame_whenDue ?_ ?_
    | with_reducible refine frame_raise ?_ ?_
    | with_reducible refine frame_State_onChan ?_ ?_)

theorem frame_execLoopSupplyRetry {L : List Part} {s0 s : State} {ch : Fin 24} {t0Good : Bool} (hL : ([.chans, .events] : List Part) ⊆ L) (hF : Alters L s0 s) :
    Answers L s0 (execLoopSupplyRetry ch t0Good s) := by
  delta execLoopSupplyRetry
  repeat (any_goals first
    | with_reducible assumption
    | exact List.Subset.trans (by decide) hL
    | (intro a x hx; beta_reduce)
    | (intro x hx; beta_reduce)
    | refine answers_next ?_
    | with_reducible refine frame_whenDue ?_ ?_
    | with_reducible refine frame_clearLatching ?_ ?_
    | with_reducible refine frame_State_onChan ?_ ?_)

theorem frame_execRoleChangeStart {L : List Part} {s0 s : State} {ch : Fin 24} (hL : ([.chans] : List Part) ⊆ L) (hF : Alters L s0 s) :
    Answers L s0 (execRoleChangeStart ch s) := by
  delta execRoleChangeStart
  repeat (any_goals first
    | with_reducible assumption
    | exact List.Subset.trans (by decide) hL
    | (intro a x hx; beta_reduce)
    | (intro x hx; beta_reduce)
    | (extract_lets +onlyGivenNames x; refine (have hx : Alters L s0 x := ?_; ?_); (on_goal 1 => subst x); (on_goal 2 => clear_value x))
    | (extract_lets +onlyGivenNames x; clear_value x)
    | refine answers_next ?_
    | split
    | with_reducible refine frame_whenDue ?_ ?_
    | with_reducible refine frame_setFrontEnd ?_ ?_
    | with_reducible refine frame_State_onChan ?_ ?_
    | with_reducible refine frame_staleBegin ?_ ?_)

theorem frame_execRoleChangeStep {L : List Part} {s0 s : State} {ch : Fin 24} (hL : ([.chans] : List Part) ⊆ L) (hF : Alters L s0 s) :
    Answers L s0 (execRoleChangeStep ch s) := by
  delta execRoleChangeStep
  repeat (any_goals first
    | with_reducible assumption
    | exact List.Subset.trans (by decide) hL
    | (intro a x hx; beta_reduce)
    | (intro x hx; beta_reduce)
    | refine answers_next ?_
    | split
    | with_reducible refine frame_whenDue ?_ ?_
    | with_reducible refine frame_staleEnd ?_ ?_
    | with_reducible refine frame_setFrontEnd ?_ ?_
    | with_reducible refine frame_State_onChan ?_ ?_)

end Sys2Proof.Laws
end

