-- ==== Sys2Proof/Laws/FrameConversion.lean ====
section
/-! SUPPORT. What each operation of Machine/Conversion.lean may change: the parts of the state it names, and nothing else. -/

namespace Sys2Proof.Laws

open Sys2Proof Sys2Proof.Machine Sys2Proof.Safety

set_option linter.unusedTactic false
set_option linter.unreachableTactic false
set_option linter.unusedVariables false

theorem frame_setBlank {L : List Part} {s0 s : State} {k : Fin 4} {b : Bool × Tick × Bool × Tick} {f : List (Tick × Option Tick) → List (Tick × Option Tick)} (hL : ([.supply] : List Part) ⊆ L) (hF : Alters L s0 s) :
    Alters L s0 (setBlank s k b f) := by
  delta setBlank
  repeat (any_goals first
    | with_reducible assumption
    | exact List.Subset.trans (by decide) hL
    | (extract_lets +onlyGivenNames x; refine (have hx : Alters L s0 x := ?_; ?_); (on_goal 1 => subst x); (on_goal 2 => clear_value x))
    | (extract_lets +onlyGivenNames x; clear_value x)
    | split
    | with_reducible refine frame_State_onSupply ?_ ?_)

theorem frame_execBlankRise {L : List Part} {s0 s : State} {k : Fin 4} (hL : ([.supply] : List Part) ⊆ L) (hF : Alters L s0 s) :
    Answers L s0 (execBlankRise k s) := by
  delta execBlankRise
  repeat (any_goals first
    | with_reducible assumption
    | exact List.Subset.trans (by decide) hL
    | (intro a x hx; beta_reduce)
    | (intro x hx; beta_reduce)
    | (extract_lets +onlyGivenNames x; refine (have hx : Alters L s0 x := ?_; ?_); (on_goal 1 => subst x); (on_goal 2 => clear_value x))
    | (extract_lets +onlyGivenNames x; clear_value x)
    | refine answers_next ?_
    | split
    | with_reducible refine frame_whenDue ?_ ?_
    | with_reducible refine frame_setBlank ?_ ?_)

theorem frame_execBlankFall {L : List Part} {s0 s : State} {k : Fin 4} (hL : ([.supply] : List Part) ⊆ L) (hF : Alters L s0 s) :
    Answers L s0 (execBlankFall k s) := by
  delta execBlankFall
  repeat (any_goals first
    | with_reducible assumption
    | exact List.Subset.trans (by decide) hL
    | (intro a x hx; beta_reduce)
    | (intro x hx; beta_reduce)
    | (extract_lets +onlyGivenNames x; refine (have hx : Alters L s0 x := ?_; ?_); (on_goal 1 => subst x); (on_goal 2 => clear_value x))
    | (extract_lets +onlyGivenNames x; clear_value x)
    | refine answers_next ?_
    | with_reducible refine frame_whenDue ?_ ?_
    | with_reducible refine frame_setBlank ?_ ?_)

theorem frame_execBlankTooLong {L : List Part} {s0 s : State} {k : Fin 4} (hL : ([.supply, .events] : List Part) ⊆ L) (hF : Alters L s0 s) :
    Answers L s0 (execBlankTooLong k s) := by
  delta execBlankTooLong
  repeat (any_goals first
    | with_reducible assumption
    | exact List.Subset.trans (by decide) hL
    | (intro a x hx; beta_reduce)
    | (intro x hx; beta_reduce)
    | (extract_lets +onlyGivenNames x; refine (have hx : Alters L s0 x := ?_; ?_); (on_goal 1 => subst x); (on_goal 2 => clear_value x))
    | (extract_lets +onlyGivenNames x; clear_value x)
    | refine answers_next ?_
    | split
    | with_reducible refine frame_whenDue ?_ ?_
    | with_reducible refine frame_setBlank ?_ ?_
    | with_reducible refine frame_raise ?_ ?_)

theorem frame_execBlankIgnoreEnd {L : List Part} {s0 s : State} {k : Fin 4} (hL : ([.supply, .events] : List Part) ⊆ L) (hF : Alters L s0 s) :
    Answers L s0 (execBlankIgnoreEnd k s) := by
  delta execBlankIgnoreEnd
  repeat (any_goals first
    | with_reducible assumption
    | exact List.Subset.trans (by decide) hL
    | (intro a x hx; beta_reduce)
    | (intro x hx; beta_reduce)
    | (extract_lets +onlyGivenNames x; refine (have hx : Alters L s0 x := ?_; ?_); (on_goal 1 => subst x); (on_goal 2 => clear_value x))
    | (extract_lets +onlyGivenNames x; clear_value x)
    | refine answers_next ?_
    | with_reducible refine frame_whenDue ?_ ?_
    | with_reducible refine frame_each ?_ ?_
    | with_reducible refine frame_setBlank ?_ ?_
    | with_reducible refine frame_clearLatching ?_ ?_)

theorem frame_execCjReferenceLossTimeout {L : List Part} {s0 s : State}  (hL : ([.supply] : List Part) ⊆ L) (hF : Alters L s0 s) :
    Answers L s0 (execCjReferenceLossTimeout s) := by
  delta execCjReferenceLossTimeout
  repeat (any_goals first
    | with_reducible assumption
    | exact List.Subset.trans (by decide) hL
    | (intro a x hx; beta_reduce)
    | (intro x hx; beta_reduce)
    | refine answers_next ?_
    | with_reducible refine frame_whenDue ?_ ?_
    | with_reducible refine frame_State_onSupply ?_ ?_)

theorem frame_execCurveSwitch {L : List Part} {s0 s : State} {slot : Fin 16} (hL : ([.straps] : List Part) ⊆ L) (hF : Alters L s0 s) :
    Answers L s0 (execCurveSwitch slot s) := by
  delta execCurveSwitch
  repeat (any_goals first
    | with_reducible assumption
    | exact List.Subset.trans (by decide) hL
    | (intro a x hx; beta_reduce)
    | (intro x hx; beta_reduce)
    | (extract_lets +onlyGivenNames x; refine (have hx : Alters L s0 x := ?_; ?_); (on_goal 1 => subst x); (on_goal 2 => clear_value x))
    | (extract_lets +onlyGivenNames x; clear_value x)
    | refine answers_next ?_
    | split
    | with_reducible refine frame_whenDue ?_ ?_
    | with_reducible refine frame_State_onStraps ?_ ?_)

theorem frame_cjReference {L : List Part} {s0 s : State} {n : Fin 24} {obs : SampleObs} (hL : ([.supply, .chans, .events] : List Part) ⊆ L) (hF : Alters L s0 s) :
    Alters L s0 (cjReference s n obs) := by
  delta cjReference
  repeat (any_goals first
    | with_reducible assumption
    | exact List.Subset.trans (by decide) hL
    | (extract_lets +onlyGivenNames x; refine (have hx : Alters L s0 x := ?_; ?_); (on_goal 1 => subst x); (on_goal 2 => clear_value x))
    | (extract_lets +onlyGivenNames x; clear_value x)
    | split
    | with_reducible refine frame_State_onChan ?_ ?_
    | with_reducible refine frame_raise ?_ ?_
    | with_reducible refine frame_State_onSupply ?_ ?_
    | with_reducible refine frame_clearLatching ?_ ?_)

theorem frame_produce {L : List Part} {s0 s : State} {n : Fin 24} {t : Tick} {value : BitVec 24} {tag : BitVec 8} (hL : ([.streams, .chans, .mem] : List Part) ⊆ L) (hF : Alters L s0 s) :
    Alters L s0 (produce s n t value tag) := by
  have m_streams : Part.streams ∈ L := hL (by decide)
  delta produce
  repeat (any_goals first
    | with_reducible assumption
    | exact List.Subset.trans (by decide) hL
    | (extract_lets +onlyGivenNames x; refine (have hx : Alters L s0 x := ?_; ?_); (on_goal 1 => subst x); (on_goal 2 => clear_value x))
    | (extract_lets +onlyGivenNames x; clear_value x)
    | split
    | with_reducible refine frame_State_onMem ?_ ?_
    | with_reducible refine frame_State_onChan ?_ ?_
    | simp only [frame_mk_streams m_streams])

theorem frame_produceStale {L : List Part} {s0 s : State} {n : Fin 24} {p : BitVec 8} {t : Tick} (hL : ([.streams, .chans, .mem] : List Part) ⊆ L) (hF : Alters L s0 s) :
    Alters L s0 (produceStale s n p t) := by
  delta produceStale
  repeat (any_goals first
    | with_reducible assumption
    | exact List.Subset.trans (by decide) hL
    | (extract_lets +onlyGivenNames x; refine (have hx : Alters L s0 x := ?_; ?_); (on_goal 1 => subst x); (on_goal 2 => clear_value x))
    | (extract_lets +onlyGivenNames x; clear_value x)
    | with_reducible refine frame_produce ?_ ?_
    | with_reducible refine frame_State_onChan ?_ ?_)

theorem frame_sensorChecks {L : List Part} {s0 s : State} {n : Fin 24} {p : BitVec 8} {obs : SampleObs} (hL : ([.chans, .events] : List Part) ⊆ L) (hF : Alters L s0 s) :
    Alters L s0 (sensorChecks s n p obs) := by
  delta sensorChecks
  repeat (any_goals first
    | with_reducible assumption
    | exact List.Subset.trans (by decide) hL
    | (extract_lets +onlyGivenNames x; refine (have hx : Alters L s0 x := ?_; ?_); (on_goal 1 => subst x); (on_goal 2 => clear_value x))
    | (extract_lets +onlyGivenNames x; clear_value x)
    | split
    | with_reducible refine frame_State_onChan ?_ ?_
    | with_reducible refine frame_raise ?_ ?_
    | with_reducible refine frame_clearLatching ?_ ?_)

theorem frame_pathChecks {L : List Part} {s0 s : State} {n : Fin 24} {p : BitVec 8} {obs : SampleObs} {k : Conv} (hL : ([.chans, .events] : List Part) ⊆ L) (hF : Alters L s0 s) :
    Alters L s0 (pathChecks s n p obs k) := by
  delta pathChecks
  repeat (any_goals first
    | with_reducible assumption
    | exact List.Subset.trans (by decide) hL
    | (extract_lets +onlyGivenNames x; refine (have hx : Alters L s0 x := ?_; ?_); (on_goal 1 => subst x); (on_goal 2 => clear_value x))
    | (extract_lets +onlyGivenNames x; clear_value x)
    | split
    | with_reducible refine frame_State_onChan ?_ ?_
    | with_reducible refine frame_raise ?_ ?_
    | with_reducible refine frame_coarseFault ?_ ?_)

theorem frame_produceFresh {L : List Part} {s0 s : State} {n : Fin 24} {p : BitVec 8} {k : Conv} {st : Ranging} {seam : Bool} {cj : Int} (hL : ([.free, .streams, .chans, .mem, .events] : List Part) ⊆ L) (hF : Alters L s0 s) :
    Alters L s0 (produceFresh s n p k st seam cj) := by
  delta produceFresh
  repeat (any_goals first
    | with_reducible assumption
    | exact List.Subset.trans (by decide) hL
    | (extract_lets +onlyGivenNames x; refine (have hx : Alters L s0 x := ?_; ?_); (on_goal 1 => subst x); (on_goal 2 => clear_value x))
    | (extract_lets +onlyGivenNames x; refine (have hx : Alters L s0 x.2 := ?_; ?_); (on_goal 1 => subst x); (on_goal 2 => clear_value x))
    | (extract_lets +onlyGivenNames x; clear_value x)
    | split
    | with_reducible refine frame_State_draw ?_ ?_
    | with_reducible refine frame_State_onChan ?_ ?_
    | with_reducible refine frame_clearLatching ?_ ?_
    | with_reducible refine frame_raise ?_ ?_
    | with_reducible refine frame_produce ?_ ?_
    | refine frame_pair (by with_reducible assumption) ?_
    | dsimp only)

theorem frame_produceBlanked {L : List Part} {s0 s : State} {n : Fin 24} {p : BitVec 8} {t : Tick} (hL : ([.streams, .chans, .mem] : List Part) ⊆ L) (hF : Alters L s0 s) :
    Alters L s0 (produceBlanked s n p t) := by
  delta produceBlanked
  repeat (any_goals first
    | with_reducible assumption
    | exact List.Subset.trans (by decide) hL
    | (extract_lets +onlyGivenNames x; refine (have hx : Alters L s0 x := ?_; ?_); (on_goal 1 => subst x); (on_goal 2 => clear_value x))
    | (extract_lets +onlyGivenNames x; clear_value x)
    | split
    | with_reducible refine frame_produce ?_ ?_)

theorem frame_inputSample {L : List Part} {s0 s : State} {n : Fin 24} {p : BitVec 8} {obs : SampleObs} (hL : ([.free, .streams, .chans, .mem, .events] : List Part) ⊆ L) (hF : Alters L s0 s) :
    Alters L s0 (inputSample s n p obs) := by
  delta inputSample
  repeat (any_goals first
    | with_reducible assumption
    | exact List.Subset.trans (by decide) hL
    | (extract_lets +onlyGivenNames x; refine (have hx : Alters L s0 x := ?_; ?_); (on_goal 1 => subst x); (on_goal 2 => clear_value x))
    | (extract_lets +onlyGivenNames x; clear_value x)
    | split
    | with_reducible refine frame_State_onChan ?_ ?_
    | with_reducible refine frame_produceBlanked ?_ ?_
    | with_reducible refine frame_produceStale ?_ ?_
    | with_reducible refine frame_pathChecks ?_ ?_
    | with_reducible refine frame_sensorChecks ?_ ?_
    | with_reducible refine frame_produceFresh ?_ ?_)

theorem frame_outputSample {L : List Part} {s0 s : State} {n : Fin 24} {p : BitVec 8} {t : Tick} (hL : ([.free, .streams, .chans, .mem] : List Part) ⊆ L) (hF : Alters L s0 s) :
    Alters L s0 (outputSample s n p t) := by
  delta outputSample
  repeat (any_goals first
    | with_reducible assumption
    | exact List.Subset.trans (by decide) hL
    | (extract_lets +onlyGivenNames x; refine (have hx : Alters L s0 x := ?_; ?_); (on_goal 1 => subst x); (on_goal 2 => clear_value x))
    | (extract_lets +onlyGivenNames x; refine (have hx : Alters L s0 x.2 := ?_; ?_); (on_goal 1 => subst x); (on_goal 2 => clear_value x))
    | (extract_lets +onlyGivenNames x; clear_value x)
    | split
    | with_reducible refine frame_State_onChan ?_ ?_
    | with_reducible refine frame_State_draw ?_ ?_
    | with_reducible refine frame_produce ?_ ?_
    | dsimp only)

theorem frame_execSampleReady {L : List Part} {s0 s : State} {ch : Fin 24} {obs : SampleObs} (hL : ([.free, .supply, .streams, .chans, .mem, .events] : List Part) ⊆ L) (hF : Alters L s0 s) :
    Answers L s0 (execSampleReady ch obs s) := by
  delta execSampleReady
  repeat (any_goals first
    | with_reducible assumption
    | exact List.Subset.trans (by decide) hL
    | (intro a x hx; beta_reduce)
    | (intro x hx; beta_reduce)
    | (extract_lets +onlyGivenNames x; refine (have hx : Alters L s0 x := ?_; ?_); (on_goal 1 => subst x); (on_goal 2 => clear_value x))
    | (extract_lets +onlyGivenNames x; clear_value x)
    | refine answers_next ?_
    | split
    | with_reducible refine frame_whenDue ?_ ?_
    | with_reducible refine frame_cjReference ?_ ?_
    | with_reducible refine frame_outputSample ?_ ?_
    | with_reducible refine frame_inputSample ?_ ?_)

end Sys2Proof.Laws
end

