-- ==== Sys2Proof/Laws/FrameOutputs.lean ====
section
/-! SUPPORT. What each operation of Machine/Outputs.lean may change: the parts of the state it names, and nothing else. -/

namespace Sys2Proof.Laws

open Sys2Proof Sys2Proof.Machine Sys2Proof.Safety

set_option linter.unusedTactic false
set_option linter.unreachableTactic false
set_option linter.unusedVariables false

theorem frame_execSettlingAllowanceEnd {L : List Part} {s0 s : State} {ch : Fin 24} (hL : ([.chans, .seat] : List Part) ⊆ L) (hF : Alters L s0 s) :
    Answers L s0 (execSettlingAllowanceEnd ch s) := by
  delta execSettlingAllowanceEnd
  repeat (any_goals first
    | with_reducible assumption
    | exact List.Subset.trans (by decide) hL
    | (intro a x hx; beta_reduce)
    | (intro x hx; beta_reduce)
    | (extract_lets +onlyGivenNames x; refine (have hx : Alters L s0 x := ?_; ?_); (on_goal 1 => subst x); (on_goal 2 => clear_value x))
    | (extract_lets +onlyGivenNames x; clear_value x)
    | refine answers_next ?_
    | with_reducible refine frame_whenDue ?_ ?_
    | with_reducible refine frame_State_onSeat ?_ ?_
    | with_reducible refine frame_State_onChan ?_ ?_)

theorem frame_enterCompliance {L : List Part} {s0 s : State} {n : Fin 24} {target : Int} {total : Int} (hL : ([.chans, .events] : List Part) ⊆ L) (hF : Alters L s0 s) :
    Alters L s0 (enterCompliance s n target total) := by
  delta enterCompliance
  repeat (any_goals first
    | with_reducible assumption
    | exact List.Subset.trans (by decide) hL
    | (extract_lets +onlyGivenNames x; refine (have hx : Alters L s0 x := ?_; ?_); (on_goal 1 => subst x); (on_goal 2 => clear_value x))
    | (extract_lets +onlyGivenNames x; clear_value x)
    | with_reducible refine frame_State_onChan ?_ ?_
    | with_reducible refine frame_raise ?_ ?_)

theorem frame_substitute {L : List Part} {s0 s : State} {n : Fin 24} {target : Int} (hL : ([.chans, .events] : List Part) ⊆ L) (hF : Alters L s0 s) :
    Alters L s0 (substitute s n target) := by
  delta substitute
  repeat (any_goals first
    | with_reducible assumption
    | exact List.Subset.trans (by decide) hL
    | (extract_lets +onlyGivenNames x; refine (have hx : Alters L s0 x := ?_; ?_); (on_goal 1 => subst x); (on_goal 2 => clear_value x))
    | (extract_lets +onlyGivenNames x; clear_value x)
    | split
    | with_reducible refine frame_raise ?_ ?_
    | with_reducible refine frame_State_onChan ?_ ?_
    | with_reducible refine frame_driveShell ?_ ?_)

theorem frame_clearCompliance {L : List Part} {s0 s : State} {n : Fin 24} {target : Int} {total : Int} (hL : ([.chans, .events] : List Part) ⊆ L) (hF : Alters L s0 s) :
    Alters L s0 (clearCompliance s n target total) := by
  delta clearCompliance
  repeat (any_goals first
    | with_reducible assumption
    | exact List.Subset.trans (by decide) hL
    | (extract_lets +onlyGivenNames x; refine (have hx : Alters L s0 x := ?_; ?_); (on_goal 1 => subst x); (on_goal 2 => clear_value x))
    | (extract_lets +onlyGivenNames x; clear_value x)
    | split
    | with_reducible refine frame_State_onChan ?_ ?_
    | with_reducible refine frame_clearLatching ?_ ?_)

theorem frame_disagree {L : List Part} {s0 s : State} {n : Fin 24} {which : Nat} {diff : Int} (hL : ([.chans, .events] : List Part) ⊆ L) (hF : Alters L s0 s) :
    Alters L s0 (disagree s n which diff) := by
  delta disagree
  repeat (any_goals first
    | with_reducible assumption
    | exact List.Subset.trans (by decide) hL
    | (extract_lets +onlyGivenNames x; refine (have hx : Alters L s0 x := ?_; ?_); (on_goal 1 => subst x); (on_goal 2 => clear_value x))
    | (extract_lets +onlyGivenNames x; clear_value x)
    | split
    | with_reducible refine frame_raise ?_ ?_
    | with_reducible refine frame_State_onChan ?_ ?_
    | with_reducible refine frame_driveShell ?_ ?_)

theorem frame_readbackChecks {L : List Part} {s0 s : State} {n : Fin 24} {p : BitVec 8} {own : Int} {total : Int} {rb : Readback} (hL : ([.chans, .events] : List Part) ⊆ L) (hF : Alters L s0 s) :
    Alters L s0 (readbackChecks s n p own total rb) := by
  delta readbackChecks
  repeat (any_goals first
    | with_reducible assumption
    | exact List.Subset.trans (by decide) hL
    | (extract_lets +onlyGivenNames x; refine (have hx : Alters L s0 x := ?_; ?_); (on_goal 1 => subst x); (on_goal 2 => clear_value x))
    | (extract_lets +onlyGivenNames x; clear_value x)
    | split
    | with_reducible refine frame_State_onChan ?_ ?_
    | with_reducible refine frame_enterCompliance ?_ ?_
    | with_reducible refine frame_substitute ?_ ?_
    | with_reducible refine frame_clearCompliance ?_ ?_
    | with_reducible refine frame_disagree ?_ ?_)

theorem frame_execReadbackResult {L : List Part} {s0 s : State} {ch : Fin 24} {rb : Readback} (hL : ([.chans, .seat, .events] : List Part) ⊆ L) (hF : Alters L s0 s) :
    Answers L s0 (execReadbackResult ch rb s) := by
  delta execReadbackResult
  repeat (any_goals first
    | with_reducible assumption
    | exact List.Subset.trans (by decide) hL
    | (intro a x hx; beta_reduce)
    | (intro x hx; beta_reduce)
    | (extract_lets +onlyGivenNames x; refine (have hx : Alters L s0 x := ?_; ?_); (on_goal 1 => subst x); (on_goal 2 => clear_value x))
    | (extract_lets +onlyGivenNames x; clear_value x)
    | refine answers_next ?_
    | split
    | with_reducible refine frame_whenDue ?_ ?_
    | with_reducible refine frame_State_onChan ?_ ?_
    | with_reducible refine frame_handbackTrack ?_ ?_
    | with_reducible refine frame_readbackChecks ?_ ?_)

theorem frame_drivePoint {L : List Part} {s0 s : State} {n : Fin 24} {v : Int} (hL : ([.chans] : List Part) ⊆ L) (hF : Alters L s0 s) :
    Alters L s0 (drivePoint s n v) := by
  delta drivePoint
  repeat (any_goals first
    | with_reducible assumption
    | exact List.Subset.trans (by decide) hL
    | with_reducible refine frame_State_onChan ?_ ?_)

theorem frame_suspendTrim {L : List Part} {s0 s : State} {handle : Nat} {n : Fin 24} (hL : ([.chans, .engine, .events] : List Part) ⊆ L) (hF : Alters L s0 s) :
    Alters L s0 (suspendTrim s handle n) := by
  delta suspendTrim
  repeat (any_goals first
    | with_reducible assumption
    | exact List.Subset.trans (by decide) hL
    | (extract_lets +onlyGivenNames x; refine (have hx : Alters L s0 x := ?_; ?_); (on_goal 1 => subst x); (on_goal 2 => clear_value x))
    | (extract_lets +onlyGivenNames x; clear_value x)
    | split
    | with_reducible refine frame_opEnter ?_ ?_
    | with_reducible refine frame_trimEnd ?_ ?_)

theorem frame_trimWaits {L : List Part} {s0 s : State} {handle : Nat} {n : Fin 24} (hL : ([.chans, .engine, .events] : List Part) ⊆ L) (hF : Alters L s0 s) :
    Alters L s0 (trimWaits s handle n) := by
  delta trimWaits
  repeat (any_goals first
    | with_reducible assumption
    | exact List.Subset.trans (by decide) hL
    | split
    | with_reducible refine frame_suspendTrim ?_ ?_)

theorem frame_trimCompute {L : List Part} {s0 s : State} {o : Op} {n : Fin 24} {two : Bool} {low : Int} {high : Int} (hL : ([.free, .tables, .chans, .mem, .engine, .seat, .events] : List Part) ⊆ L) (hF : Alters L s0 s) :
    Alters L s0 (trimCompute s o n two low high) := by
  delta trimCompute
  repeat (any_goals first
    | with_reducible assumption
    | exact List.Subset.trans (by decide) hL
    | (extract_lets +onlyGivenNames x; refine (have hx : Alters L s0 x := ?_; ?_); (on_goal 1 => subst x); (on_goal 2 => clear_value x))
    | (extract_lets +onlyGivenNames x; refine (have hx : Alters L s0 x.2 := ?_; ?_); (on_goal 1 => subst x); (on_goal 2 => clear_value x))
    | (extract_lets +onlyGivenNames x; clear_value x)
    | split
    | with_reducible refine frame_State_draw ?_ ?_
    | with_reducible refine frame_onOp ?_ ?_
    | with_reducible refine frame_trimWaits ?_ ?_
    | with_reducible refine frame_opRollback ?_ ?_
    | refine frame_pair (by with_reducible assumption) ?_
    | dsimp only)

theorem frame_execTrimPointReady {L : List Part} {s0 s : State} {ch : Fin 24} {r : Int} (hL : ([.chans, .engine, .events] : List Part) ⊆ L) (hF : Alters L s0 s) :
    Answers L s0 (execTrimPointReady ch r s) := by
  delta execTrimPointReady
  repeat (any_goals first
    | with_reducible assumption
    | exact List.Subset.trans (by decide) hL
    | (intro a x hx; beta_reduce)
    | (intro x hx; beta_reduce)
    | (extract_lets +onlyGivenNames x; refine (have hx : Alters L s0 x := ?_; ?_); (on_goal 1 => subst x); (on_goal 2 => clear_value x))
    | (extract_lets +onlyGivenNames x; clear_value x)
    | refine answers_next ?_
    | split
    | with_reducible refine frame_whenDue ?_ ?_
    | with_reducible refine frame_onOp ?_ ?_
    | with_reducible refine frame_raise ?_ ?_
    | with_reducible refine frame_trimWaits ?_ ?_)

theorem frame_execTrimStepTimeout {L : List Part} {s0 s : State} {handle : BitVec 16} (hL : ([.tables, .chans, .mem, .engine, .seat, .events] : List Part) ⊆ L) (hF : Alters L s0 s) :
    Answers L s0 (execTrimStepTimeout handle s) := by
  delta execTrimStepTimeout
  repeat (any_goals first
    | with_reducible assumption
    | exact List.Subset.trans (by decide) hL
    | (intro a x hx; beta_reduce)
    | (intro x hx; beta_reduce)
    | refine answers_next ?_
    | split
    | with_reducible refine frame_whenDue ?_ ?_
    | with_reducible refine frame_opRollback ?_ ?_)

theorem frame_execTrimApply {L : List Part} {s0 s : State} {ch : Fin 24} (hL : ([.chans, .vault] : List Part) ⊆ L) (hF : Alters L s0 s) :
    Answers L s0 (execTrimApply ch s) := by
  delta execTrimApply
  repeat (any_goals first
    | with_reducible assumption
    | exact List.Subset.trans (by decide) hL
    | (intro a x hx; beta_reduce)
    | (intro x hx; beta_reduce)
    | (extract_lets +onlyGivenNames x; refine (have hx : Alters L s0 x := ?_; ?_); (on_goal 1 => subst x); (on_goal 2 => clear_value x))
    | (extract_lets +onlyGivenNames x; clear_value x)
    | refine answers_next ?_
    | split
    | with_reducible refine frame_whenDue ?_ ?_
    | with_reducible refine frame_State_onVault ?_ ?_
    | with_reducible refine frame_State_onChan ?_ ?_
    | with_reducible refine frame_driveShell ?_ ?_)

end Sys2Proof.Laws
end

