-- ==== Sys2Proof/Laws/FrameVaultWard.lean ====
section
/-! SUPPORT. What each operation of Machine/VaultWard.lean may change: the parts of the state it names, and nothing else. -/

namespace Sys2Proof.Laws

open Sys2Proof Sys2Proof.Machine Sys2Proof.Safety

set_option linter.unusedTactic false
set_option linter.unreachableTactic false
set_option linter.unusedVariables false

theorem frame_pulseFinal {L : List Part} {s0 s : State} {f : CmdFrame} {x : List Byte} {status : Nat} (hL : ([.free, .queues, .engine, .dbg] : List Part) ⊆ L) (hF : Alters L s0 s) :
    Alters L s0 (pulseFinal s f x status) := by
  delta pulseFinal
  repeat (any_goals first
    | with_reducible assumption
    | exact List.Subset.trans (by decide) hL
    | (extract_lets +onlyGivenNames x; refine (have hx : Alters L s0 x := ?_; ?_); (on_goal 1 => subst x); (on_goal 2 => clear_value x))
    | (extract_lets +onlyGivenNames x; clear_value x)
    | split
    | with_reducible refine frame_finalResponse ?_ ?_
    | with_reducible refine frame_State_onEngine ?_ ?_)

theorem frame_slotWritten {L : List Part} {s0 s : State} {slot : Fin 20} (hL : ([.free, .engine] : List Part) ⊆ L) (hF : Alters L s0 s) :
    Alters L s0 (slotWritten s slot) := by
  delta slotWritten
  repeat (any_goals first
    | with_reducible assumption
    | exact List.Subset.trans (by decide) hL
    | (extract_lets +onlyGivenNames x; refine (have hx : Alters L s0 x := ?_; ?_); (on_goal 1 => subst x); (on_goal 2 => clear_value x))
    | (extract_lets +onlyGivenNames x; clear_value x)
    | with_reducible refine frame_redrawSession ?_ ?_
    | with_reducible refine frame_discardAwait ?_ ?_
    | with_reducible refine frame_State_onEngine ?_ ?_)

theorem frame_wardChanged {L : List Part} {s0 s : State} {h : Fin 16} {old : List Byte} {new : List Byte} (hL : ([.free, .queues, .hands, .streams, .chans, .seat, .events, .dbg, .counters] : List Part) ⊆ L) (hF : Alters L s0 s) :
    Alters L s0 (wardChanged s h old new) := by
  delta wardChanged
  repeat (any_goals first
    | with_reducible assumption
    | exact List.Subset.trans (by decide) hL
    | (intro a x hx; beta_reduce)
    | (intro x hx; beta_reduce)
    | (extract_lets +onlyGivenNames x; refine (have hx : Alters L s0 x := ?_; ?_); (on_goal 1 => subst x); (on_goal 2 => clear_value x))
    | (extract_lets +onlyGivenNames x; clear_value x)
    | split
    | with_reducible refine frame_each ?_ ?_
    | with_reducible refine frame_dropPending ?_ ?_
    | with_reducible refine frame_closeStreamEvent ?_ ?_
    | with_reducible refine frame_freeGrids ?_ ?_
    | with_reducible refine frame_closeSession ?_ ?_)

theorem frame_customMask {L : List Part} {s0 s : State}  (hL : ([.portA, .portB, .tables] : List Part) ⊆ L) (hF : Alters L s0 s) :
    Alters L s0 (customMask s) := by
  delta customMask
  repeat (any_goals first
    | with_reducible assumption
    | exact List.Subset.trans (by decide) hL
    | split
    | with_reducible refine frame_applyMask ?_ ?_)

theorem frame_adopted {L : List Part} {s0 s : State}  (hL : ([.tiers, .events] : List Part) ⊆ L) (hF : Alters L s0 s) :
    Alters L s0 (adopted s) := by
  delta adopted
  repeat (any_goals first
    | with_reducible assumption
    | exact List.Subset.trans (by decide) hL
    | (extract_lets +onlyGivenNames x; refine (have hx : Alters L s0 x := ?_; ?_); (on_goal 1 => subst x); (on_goal 2 => clear_value x))
    | (extract_lets +onlyGivenNames x; clear_value x)
    | with_reducible refine frame_clearLatching ?_ ?_
    | with_reducible refine frame_State_onTiers ?_ ?_
    | with_reducible refine frame_raise ?_ ?_)

theorem frame_finalEffect {L : List Part} {s0 s : State} {f : CmdFrame} {p : Pulse} {old : List Byte} (hL : ([.free, .tiers, .portA, .portB, .tables, .queues, .hands, .streams, .chans, .engine, .seat, .events, .dbg, .counters] : List Part) ⊆ L) (hF : Alters L s0 s) :
    Alters L s0 (finalEffect s f p old) := by
  delta finalEffect
  repeat (any_goals first
    | with_reducible assumption
    | exact List.Subset.trans (by decide) hL
    | split
    | with_reducible refine frame_slotWritten ?_ ?_
    | with_reducible refine frame_mirrorMsg ?_ ?_
    | with_reducible refine frame_wardChanged ?_ ?_
    | with_reducible refine frame_customMask ?_ ?_
    | with_reducible refine frame_adopted ?_ ?_)

theorem frame_storePulse {L : List Part} {s0 s : State} {p : Pulse} (hL : ([.vault] : List Part) ⊆ L) (hF : Alters L s0 s) :
    Alters L s0 (storePulse s p) := by
  delta storePulse
  repeat (any_goals first
    | with_reducible assumption
    | exact List.Subset.trans (by decide) hL
    | with_reducible refine frame_State_onVault ?_ ?_)

theorem frame_pulseTrim {L : List Part} {s0 s : State} {p : Pulse} {handle : BitVec 16} {f : CmdFrame} (hL : ([.free, .queues, .chans, .engine, .vault, .events, .dbg] : List Part) ⊆ L) (hF : Alters L s0 s) :
    Alters L s0 (pulseTrim s p handle f) := by
  delta pulseTrim
  repeat (any_goals first
    | with_reducible assumption
    | exact List.Subset.trans (by decide) hL
    | (extract_lets +onlyGivenNames x; refine (have hx : Alters L s0 x := ?_; ?_); (on_goal 1 => subst x); (on_goal 2 => clear_value x))
    | (extract_lets +onlyGivenNames x; clear_value x)
    | split
    | with_reducible refine frame_storePulse ?_ ?_
    | with_reducible refine frame_pulseFinal ?_ ?_
    | with_reducible refine frame_State_onVault ?_ ?_
    | with_reducible refine frame_trimEnd ?_ ?_
    | with_reducible refine frame_opEnd ?_ ?_)

theorem frame_doneLive {L : List Part} {s0 s : State} {handle : BitVec 16} (hL : ([.engine, .events] : List Part) ⊆ L) (hF : Alters L s0 s) :
    Alters L s0 (doneLive s handle) := by
  delta doneLive
  repeat (any_goals first
    | with_reducible assumption
    | exact List.Subset.trans (by decide) hL
    | split
    | with_reducible refine frame_opEnd ?_ ?_)

theorem frame_pulseCurve {L : List Part} {s0 s : State} {p : Pulse} {handle : BitVec 16} (hL : ([.straps, .engine, .vault, .events] : List Part) ⊆ L) (hF : Alters L s0 s) :
    Alters L s0 (pulseCurve s p handle) := by
  delta pulseCurve
  repeat (any_goals first
    | with_reducible assumption
    | exact List.Subset.trans (by decide) hL
    | (extract_lets +onlyGivenNames x; refine (have hx : Alters L s0 x := ?_; ?_); (on_goal 1 => subst x); (on_goal 2 => clear_value x))
    | (extract_lets +onlyGivenNames x; clear_value x)
    | split
    | with_reducible refine frame_storePulse ?_ ?_
    | with_reducible refine frame_State_onStraps ?_ ?_
    | with_reducible refine frame_onOp ?_ ?_
    | with_reducible refine frame_doneLive ?_ ?_)

theorem frame_pulseRepair {L : List Part} {s0 s : State} {p : Pulse} {handle : BitVec 16} (hL : ([.mem, .engine, .vault, .events] : List Part) ⊆ L) (hF : Alters L s0 s) :
    Alters L s0 (pulseRepair s p handle) := by
  delta pulseRepair
  repeat (any_goals first
    | with_reducible assumption
    | exact List.Subset.trans (by decide) hL
    | (extract_lets +onlyGivenNames x; refine (have hx : Alters L s0 x := ?_; ?_); (on_goal 1 => subst x); (on_goal 2 => clear_value x))
    | (extract_lets +onlyGivenNames x; clear_value x)
    | split
    | with_reducible refine frame_storePulse ?_ ?_
    | with_reducible refine frame_State_onMem ?_ ?_
    | with_reducible refine frame_doneLive ?_ ?_)

theorem frame_pulseGood {L : List Part} {s0 s : State} {p : Pulse} (hL : ([.free, .tiers, .straps, .portA, .portB, .tables, .queues, .hands, .streams, .chans, .mem, .engine, .vault, .seat, .events, .dbg, .counters] : List Part) ⊆ L) (hF : Alters L s0 s) :
    Alters L s0 (pulseGood s p) := by
  delta pulseGood
  repeat (any_goals first
    | with_reducible assumption
    | exact List.Subset.trans (by decide) hL
    | (extract_lets +onlyGivenNames x; refine (have hx : Alters L s0 x := ?_; ?_); (on_goal 1 => subst x); (on_goal 2 => clear_value x))
    | (extract_lets +onlyGivenNames x; clear_value x)
    | split
    | with_reducible refine frame_finalEffect ?_ ?_
    | with_reducible refine frame_storePulse ?_ ?_
    | with_reducible refine frame_pulseFinal ?_ ?_
    | with_reducible refine frame_respond ?_ ?_
    | with_reducible refine frame_State_onEngine ?_ ?_
    | with_reducible refine frame_slotWritten ?_ ?_
    | with_reducible refine frame_pulseTrim ?_ ?_
    | with_reducible refine frame_pulseCurve ?_ ?_
    | with_reducible refine frame_pulseRepair ?_ ?_
    | with_reducible refine frame_State_onVault ?_ ?_
    | with_reducible refine frame_wardChanged ?_ ?_
    | with_reducible refine frame_seatEnter ?_ ?_
    | with_reducible refine frame_State_onSeat ?_ ?_)

theorem frame_pulseBad {L : List Part} {s0 s : State} {p : Pulse} (hL : ([.free, .queues, .engine, .vault, .events, .dbg] : List Part) ⊆ L) (hF : Alters L s0 s) :
    Alters L s0 (pulseBad s p) := by
  delta pulseBad
  repeat (any_goals first
    | with_reducible assumption
    | exact List.Subset.trans (by decide) hL
    | (intro a x hx; beta_reduce)
    | (intro x hx; beta_reduce)
    | (extract_lets +onlyGivenNames x; refine (have hx : Alters L s0 x := ?_; ?_); (on_goal 1 => subst x); (on_goal 2 => clear_value x))
    | (extract_lets +onlyGivenNames x; refine (have hx : ∀ y, Alters L s0 y → Alters L s0 (x y) := ?_; ?_); (on_goal 1 => subst x); (on_goal 2 => clear_value x))
    | (extract_lets +onlyGivenNames x; clear_value x)
    | split
    | with_reducible refine frame_raise ?_ ?_
    | with_reducible refine frame_State_onVault ?_ ?_
    | with_reducible refine frame_pulseFinal ?_ ?_
    | with_reducible refine frame_respond ?_ ?_
    | with_reducible refine frame_State_onEngine ?_ ?_
    | with_reducible refine frame_onOp ?_ ?_
    | with_reducible apply_assumption
    | (intro v; beta_reduce))

theorem frame_execVaultWriteEnd {L : List Part} {s0 s : State} {good : Bool} (hL : ([.free, .tiers, .straps, .portA, .portB, .tables, .queues, .hands, .streams, .chans, .mem, .engine, .vault, .seat, .events, .dbg, .counters] : List Part) ⊆ L) (hF : Alters L s0 s) :
    Answers L s0 (execVaultWriteEnd good s) := by
  delta execVaultWriteEnd
  repeat (any_goals first
    | with_reducible assumption
    | exact List.Subset.trans (by decide) hL
    | (intro a x hx; beta_reduce)
    | (intro x hx; beta_reduce)
    | (extract_lets +onlyGivenNames x; refine (have hx : Alters L s0 x := ?_; ?_); (on_goal 1 => subst x); (on_goal 2 => clear_value x))
    | (extract_lets +onlyGivenNames x; clear_value x)
    | refine answers_next ?_
    | split
    | with_reducible refine frame_whenDue ?_ ?_
    | with_reducible refine frame_State_onVault ?_ ?_
    | with_reducible refine frame_pulseGood ?_ ?_
    | with_reducible refine frame_pulseBad ?_ ?_)

theorem frame_execCountersignExpiry {L : List Part} {s0 s : State} {h : Fin 16} (hL : ([.free, .queues, .engine, .events, .dbg] : List Part) ⊆ L) (hF : Alters L s0 s) :
    Answers L s0 (execCountersignExpiry h s) := by
  delta execCountersignExpiry
  repeat (any_goals first
    | with_reducible assumption
    | exact List.Subset.trans (by decide) hL
    | (intro a x hx; beta_reduce)
    | (intro x hx; beta_reduce)
    | (extract_lets +onlyGivenNames x; refine (have hx : Alters L s0 x := ?_; ?_); (on_goal 1 => subst x); (on_goal 2 => clear_value x))
    | (extract_lets +onlyGivenNames x; clear_value x)
    | refine answers_next ?_
    | split
    | with_reducible refine frame_whenDue ?_ ?_
    | with_reducible refine frame_State_onEngine ?_ ?_
    | with_reducible refine frame_finalResponse ?_ ?_
    | with_reducible refine frame_raise ?_ ?_)

theorem frame_execProposalLapse {L : List Part} {s0 s : State}  (hL : ([.engine] : List Part) ⊆ L) (hF : Alters L s0 s) :
    Answers L s0 (execProposalLapse s) := by
  delta execProposalLapse
  repeat (any_goals first
    | with_reducible assumption
    | exact List.Subset.trans (by decide) hL
    | refine answers_next ?_
    | with_reducible refine frame_State_onEngine ?_ ?_)

theorem frame_execCommissionChange {L : List Part} {s0 s : State} {high : Bool} (hL : ([.vault] : List Part) ⊆ L) (hF : Alters L s0 s) :
    Answers L s0 (execCommissionChange high s) := by
  delta execCommissionChange
  repeat (any_goals first
    | with_reducible assumption
    | exact List.Subset.trans (by decide) hL
    | refine answers_next ?_
    | with_reducible refine frame_State_onVault ?_ ?_)

theorem frame_execVaultClaim {L : List Part} {s0 s : State}  (hL : ([.vault, .events] : List Part) ⊆ L) (hF : Alters L s0 s) :
    Answers L s0 (execVaultClaim s) := by
  delta execVaultClaim
  repeat (any_goals first
    | with_reducible assumption
    | exact List.Subset.trans (by decide) hL
    | (intro a x hx; beta_reduce)
    | (intro x hx; beta_reduce)
    | (extract_lets +onlyGivenNames x; refine (have hx : Alters L s0 x := ?_; ?_); (on_goal 1 => subst x); (on_goal 2 => clear_value x))
    | (extract_lets +onlyGivenNames x; clear_value x)
    | refine answers_next ?_
    | with_reducible refine frame_whenDue ?_ ?_
    | with_reducible refine frame_State_onVault ?_ ?_
    | with_reducible refine frame_raise ?_ ?_)

theorem frame_execWardLockChange {L : List Part} {s0 s : State} {high : Bool} (hL : ([.free, .queues, .engine, .vault, .events, .dbg] : List Part) ⊆ L) (hF : Alters L s0 s) :
    Answers L s0 (execWardLockChange high s) := by
  delta execWardLockChange
  repeat (any_goals first
    | with_reducible assumption
    | exact List.Subset.trans (by decide) hL
    | (extract_lets +onlyGivenNames x; refine (have hx : Alters L s0 x := ?_; ?_); (on_goal 1 => subst x); (on_goal 2 => clear_value x))
    | (extract_lets +onlyGivenNames x; clear_value x)
    | refine answers_next ?_
    | split
    | with_reducible refine frame_State_onVault ?_ ?_
    | with_reducible refine frame_closeSession ?_ ?_
    | with_reducible refine frame_endAwaiting ?_ ?_
    | with_reducible refine frame_State_onEngine ?_ ?_)

end Sys2Proof.Laws
end

