-- ==== Sys2Proof/Laws/FrameHandCommands.lean ====
section
/-! SUPPORT. What each operation of Machine/HandCommands.lean may change: the parts of the state it names, and nothing else. -/

namespace Sys2Proof.Laws

open Sys2Proof Sys2Proof.Machine Sys2Proof.Safety

set_option linter.unusedTactic false
set_option linter.unreachableTactic false
set_option linter.unusedVariables false

theorem frame_statReadCmd {L : List Part} {s0 s : State} {f : CmdFrame}  (hL : ([] : List Part) ⊆ L) (hF : Alters L s0 s) :
    Alters L s0 (statReadCmd.run f s).2 := by
  delta statReadCmd
  repeat (any_goals first
    | with_reducible assumption
    | exact List.Subset.trans (by decide) hL
    | dsimp only)

theorem frame_statCountCmd {L : List Part} {s0 s : State} {f : CmdFrame}  (hL : ([] : List Part) ⊆ L) (hF : Alters L s0 s) :
    Alters L s0 (statCountCmd.run f s).2 := by
  delta statCountCmd
  repeat (any_goals first
    | with_reducible assumption
    | exact List.Subset.trans (by decide) hL
    | (extract_lets +onlyGivenNames x; refine (have hx : Alters L s0 x := ?_; ?_); (on_goal 1 => subst x); (on_goal 2 => clear_value x))
    | (extract_lets +onlyGivenNames x; refine (have hx : Alters L s0 x.2 := ?_; ?_); (on_goal 1 => subst x); (on_goal 2 => clear_value x))
    | (extract_lets +onlyGivenNames x; clear_value x)
    | split
    | dsimp only)

theorem frame_evReadCmd {L : List Part} {s0 s : State} {f : CmdFrame}  (hL : ([] : List Part) ⊆ L) (hF : Alters L s0 s) :
    Alters L s0 (evReadCmd.run f s).2 := by
  delta evReadCmd
  repeat (any_goals first
    | with_reducible assumption
    | exact List.Subset.trans (by decide) hL
    | (extract_lets +onlyGivenNames x; refine (have hx : Alters L s0 x := ?_; ?_); (on_goal 1 => subst x); (on_goal 2 => clear_value x))
    | (extract_lets +onlyGivenNames x; refine (have hx : Alters L s0 x.2 := ?_; ?_); (on_goal 1 => subst x); (on_goal 2 => clear_value x))
    | (extract_lets +onlyGivenNames x; clear_value x)
    | dsimp only)

theorem frame_ackEvents {L : List Part} {s0 s : State} {k : Nat} {n : Nat} (hL : ([.queues, .hands, .mem] : List Part) ⊆ L) (hF : Alters L s0 s) :
    Alters L s0 (ackEvents s k n) := by
  delta ackEvents
  repeat (any_goals first
    | with_reducible assumption
    | exact List.Subset.trans (by decide) hL
    | (extract_lets +onlyGivenNames x; refine (have hx : Alters L s0 x := ?_; ?_); (on_goal 1 => subst x); (on_goal 2 => clear_value x))
    | (extract_lets +onlyGivenNames x; clear_value x)
    | with_reducible refine frame_placeLost ?_ ?_
    | with_reducible refine frame_setEventHead ?_ ?_)

theorem frame_evAckCmd {L : List Part} {s0 s : State} {f : CmdFrame}  (hL : ([.queues, .hands, .mem] : List Part) ⊆ L) (hF : Alters L s0 s) :
    Alters L s0 (evAckCmd.run f s).2 := by
  delta evAckCmd
  repeat (any_goals first
    | with_reducible assumption
    | exact List.Subset.trans (by decide) hL
    | with_reducible refine frame_ackEvents ?_ ?_
    | dsimp only)

theorem frame_handClaimCmd {L : List Part} {s0 s : State} {f : CmdFrame}  (hL : ([.hands, .seat] : List Part) ⊆ L) (hF : Alters L s0 s) :
    Alters L s0 (handClaimCmd.run f s).2 := by
  delta handClaimCmd
  repeat (any_goals first
    | with_reducible assumption
    | exact List.Subset.trans (by decide) hL
    | split
    | with_reducible refine frame_mirrorStations ?_ ?_
    | with_reducible refine frame_State_onHand ?_ ?_
    | dsimp only)

theorem frame_handStationsCmd {L : List Part} {s0 s : State} {f : CmdFrame}  (hL : ([.hands, .seat] : List Part) ⊆ L) (hF : Alters L s0 s) :
    Alters L s0 (handStationsCmd.run f s).2 := by
  delta handStationsCmd
  repeat (any_goals first
    | with_reducible assumption
    | exact List.Subset.trans (by decide) hL
    | (extract_lets +onlyGivenNames x; refine (have hx : Alters L s0 x := ?_; ?_); (on_goal 1 => subst x); (on_goal 2 => clear_value x))
    | (extract_lets +onlyGivenNames x; refine (have hx : Alters L s0 x.2 := ?_; ?_); (on_goal 1 => subst x); (on_goal 2 => clear_value x))
    | (extract_lets +onlyGivenNames x; clear_value x)
    | split
    | with_reducible refine frame_mirrorStations ?_ ?_
    | with_reducible refine frame_State_onHand ?_ ?_
    | dsimp only)

theorem frame_handResetCmd {L : List Part} {s0 s : State} {f : CmdFrame}  (hL : ([.tables, .hands, .streams, .chans, .mem, .engine, .seat, .events, .dbg] : List Part) ⊆ L) (hF : Alters L s0 s) :
    Alters L s0 (handResetCmd.run f s).2 := by
  delta handResetCmd
  repeat (any_goals first
    | with_reducible assumption
    | exact List.Subset.trans (by decide) hL
    | with_reducible refine frame_handResetStart ?_ ?_
    | dsimp only)

theorem frame_queueEnds {L : List Part} {s0 s : State} {q : Nat} (hL : ([.free] : List Part) ⊆ L) (hF : Alters L s0 s) :
    Alters L s0 (queueEnds s q).2 := by
  delta queueEnds
  repeat (any_goals first
    | with_reducible assumption
    | exact List.Subset.trans (by decide) hL
    | (extract_lets +onlyGivenNames x; refine (have hx : Alters L s0 x := ?_; ?_); (on_goal 1 => subst x); (on_goal 2 => clear_value x))
    | (extract_lets +onlyGivenNames x; refine (have hx : Alters L s0 x.2 := ?_; ?_); (on_goal 1 => subst x); (on_goal 2 => clear_value x))
    | (extract_lets +onlyGivenNames x; clear_value x)
    | split
    | with_reducible refine frame_State_drawN ?_ ?_
    | refine frame_pair (by with_reducible assumption) ?_
    | dsimp only)

theorem frame_queueDescriptor {L : List Part} {s0 s : State} {q : Nat} {tb : Bool} (hL : ([.free] : List Part) ⊆ L) (hF : Alters L s0 s) :
    Alters L s0 (queueDescriptor s q tb).2 := by
  delta queueDescriptor
  repeat (any_goals first
    | with_reducible assumption
    | exact List.Subset.trans (by decide) hL
    | (extract_lets +onlyGivenNames x; refine (have hx : Alters L s0 x := ?_; ?_); (on_goal 1 => subst x); (on_goal 2 => clear_value x))
    | (extract_lets +onlyGivenNames x; refine (have hx : Alters L s0 x.2 := ?_; ?_); (on_goal 1 => subst x); (on_goal 2 => clear_value x))
    | (extract_lets +onlyGivenNames x; clear_value x)
    | split
    | with_reducible refine frame_queueEnds ?_ ?_
    | refine frame_pair (by with_reducible assumption) ?_
    | dsimp only)

theorem frame_qReadCmd {L : List Part} {s0 s : State} {f : CmdFrame}  (hL : ([.free] : List Part) ⊆ L) (hF : Alters L s0 s) :
    Alters L s0 (qReadCmd.run f s).2 := by
  delta qReadCmd
  repeat (any_goals first
    | with_reducible assumption
    | exact List.Subset.trans (by decide) hL
    | (extract_lets +onlyGivenNames x; refine (have hx : Alters L s0 x := ?_; ?_); (on_goal 1 => subst x); (on_goal 2 => clear_value x))
    | (extract_lets +onlyGivenNames x; refine (have hx : Alters L s0 x.2 := ?_; ?_); (on_goal 1 => subst x); (on_goal 2 => clear_value x))
    | (extract_lets +onlyGivenNames x; clear_value x)
    | with_reducible refine frame_queueDescriptor ?_ ?_
    | dsimp only)

theorem frame_qSetCmd {L : List Part} {s0 s : State} {f : CmdFrame}  (hL : ([.queues] : List Part) ⊆ L) (hF : Alters L s0 s) :
    Alters L s0 (qSetCmd.run f s).2 := by
  delta qSetCmd
  repeat (any_goals first
    | with_reducible assumption
    | exact List.Subset.trans (by decide) hL
    | (extract_lets +onlyGivenNames x; refine (have hx : Alters L s0 x := ?_; ?_); (on_goal 1 => subst x); (on_goal 2 => clear_value x))
    | (extract_lets +onlyGivenNames x; refine (have hx : Alters L s0 x.2 := ?_; ?_); (on_goal 1 => subst x); (on_goal 2 => clear_value x))
    | (extract_lets +onlyGivenNames x; clear_value x)
    | with_reducible refine frame_setQSet ?_ ?_
    | dsimp only)

theorem frame_execStatRead {L : List Part} {s0 s : State} {f : CmdFrame} (hL : ([.free, .tables, .queues, .hands, .engine, .events, .dbg, .counters] : List Part) ⊆ L) (hF : Alters L s0 s) :
    Answers L s0 (execStatRead f s) := by
  delta execStatRead
  repeat (any_goals first
    | with_reducible assumption
    | exact List.Subset.trans (by decide) hL
    | (intro a x hx; beta_reduce)
    | (intro x hx; beta_reduce)
    | refine answers_next ?_
    | with_reducible refine frame_runCommand ?_ ?_ ?_
    | with_reducible refine frame_statReadCmd ?_ ?_
    | dsimp only)

theorem frame_execStatCount {L : List Part} {s0 s : State} {f : CmdFrame} (hL : ([.free, .tables, .queues, .hands, .engine, .events, .dbg, .counters] : List Part) ⊆ L) (hF : Alters L s0 s) :
    Answers L s0 (execStatCount f s) := by
  delta execStatCount
  repeat (any_goals first
    | with_reducible assumption
    | exact List.Subset.trans (by decide) hL
    | (intro a x hx; beta_reduce)
    | (intro x hx; beta_reduce)
    | refine answers_next ?_
    | with_reducible refine frame_runCommand ?_ ?_ ?_
    | with_reducible refine frame_statCountCmd ?_ ?_
    | dsimp only)

theorem frame_execEvRead {L : List Part} {s0 s : State} {f : CmdFrame} (hL : ([.free, .tables, .queues, .hands, .engine, .events, .dbg, .counters] : List Part) ⊆ L) (hF : Alters L s0 s) :
    Answers L s0 (execEvRead f s) := by
  delta execEvRead
  repeat (any_goals first
    | with_reducible assumption
    | exact List.Subset.trans (by decide) hL
    | (intro a x hx; beta_reduce)
    | (intro x hx; beta_reduce)
    | refine answers_next ?_
    | with_reducible refine frame_runCommand ?_ ?_ ?_
    | with_reducible refine frame_evReadCmd ?_ ?_
    | dsimp only)

theorem frame_execEvAck {L : List Part} {s0 s : State} {f : CmdFrame} (hL : ([.free, .tables, .queues, .hands, .mem, .engine, .events, .dbg, .counters] : List Part) ⊆ L) (hF : Alters L s0 s) :
    Answers L s0 (execEvAck f s) := by
  delta execEvAck
  repeat (any_goals first
    | with_reducible assumption
    | exact List.Subset.trans (by decide) hL
    | (intro a x hx; beta_reduce)
    | (intro x hx; beta_reduce)
    | refine answers_next ?_
    | with_reducible refine frame_runCommand ?_ ?_ ?_
    | with_reducible refine frame_evAckCmd ?_ ?_
    | dsimp only)

theorem frame_execHandClaim {L : List Part} {s0 s : State} {f : CmdFrame} (hL : ([.free, .tables, .queues, .hands, .engine, .seat, .events, .dbg, .counters] : List Part) ⊆ L) (hF : Alters L s0 s) :
    Answers L s0 (execHandClaim f s) := by
  delta execHandClaim
  repeat (any_goals first
    | with_reducible assumption
    | exact List.Subset.trans (by decide) hL
    | (intro a x hx; beta_reduce)
    | (intro x hx; beta_reduce)
    | refine answers_next ?_
    | with_reducible refine frame_runCommand ?_ ?_ ?_
    | with_reducible refine frame_handClaimCmd ?_ ?_
    | dsimp only)

theorem frame_execHandStations {L : List Part} {s0 s : State} {f : CmdFrame} (hL : ([.free, .tables, .queues, .hands, .engine, .seat, .events, .dbg, .counters] : List Part) ⊆ L) (hF : Alters L s0 s) :
    Answers L s0 (execHandStations f s) := by
  delta execHandStations
  repeat (any_goals first
    | with_reducible assumption
    | exact List.Subset.trans (by decide) hL
    | (intro a x hx; beta_reduce)
    | (intro x hx; beta_reduce)
    | refine answers_next ?_
    | with_reducible refine frame_runCommand ?_ ?_ ?_
    | with_reducible refine frame_handStationsCmd ?_ ?_
    | dsimp only)

theorem frame_execHandReset {L : List Part} {s0 s : State} {f : CmdFrame} (hL : ([.free, .tables, .queues, .hands, .streams, .chans, .mem, .engine, .seat, .events, .dbg, .counters] : List Part) ⊆ L) (hF : Alters L s0 s) :
    Answers L s0 (execHandReset f s) := by
  delta execHandReset
  repeat (any_goals first
    | with_reducible assumption
    | exact List.Subset.trans (by decide) hL
    | (intro a x hx; beta_reduce)
    | (intro x hx; beta_reduce)
    | refine answers_next ?_
    | with_reducible refine frame_runCommand ?_ ?_ ?_
    | with_reducible refine frame_handResetCmd ?_ ?_
    | dsimp only)

theorem frame_execQRead {L : List Part} {s0 s : State} {f : CmdFrame} (hL : ([.free, .tables, .queues, .hands, .engine, .events, .dbg, .counters] : List Part) ⊆ L) (hF : Alters L s0 s) :
    Answers L s0 (execQRead f s) := by
  delta execQRead
  repeat (any_goals first
    | with_reducible assumption
    | exact List.Subset.trans (by decide) hL
    | (intro a x hx; beta_reduce)
    | (intro x hx; beta_reduce)
    | refine answers_next ?_
    | with_reducible refine frame_runCommand ?_ ?_ ?_
    | with_reducible refine frame_qReadCmd ?_ ?_
    | dsimp only)

theorem frame_execQSet {L : List Part} {s0 s : State} {f : CmdFrame} (hL : ([.free, .tables, .queues, .hands, .engine, .events, .dbg, .counters] : List Part) ⊆ L) (hF : Alters L s0 s) :
    Answers L s0 (execQSet f s) := by
  delta execQSet
  repeat (any_goals first
    | with_reducible assumption
    | exact List.Subset.trans (by decide) hL
    | (intro a x hx; beta_reduce)
    | (intro x hx; beta_reduce)
    | refine answers_next ?_
    | with_reducible refine frame_runCommand ?_ ?_ ?_
    | with_reducible refine frame_qSetCmd ?_ ?_
    | dsimp only)

end Sys2Proof.Laws
end

