-- ==== Sys2Proof/Laws/FrameStreamCommands.lean ====
section
/-! SUPPORT. What each operation of Machine/StreamCommands.lean may change: the parts of the state it names, and nothing else. -/

namespace Sys2Proof.Laws

open Sys2Proof Sys2Proof.Machine Sys2Proof.Safety

set_option linter.unusedTactic false
set_option linter.unreachableTactic false
set_option linter.unusedVariables false

theorem frame_subRun {L : List Part} {s0 s : State} {f : CmdFrame} (hL : ([.tables, .streams, .chans, .mem] : List Part) ⊆ L) (hF : Alters L s0 s) :
    Alters L s0 (subRun f s).2 := by
  have m_streams : Part.streams ∈ L := hL (by decide)
  delta subRun
  repeat (any_goals first
    | with_reducible assumption
    | exact List.Subset.trans (by decide) hL
    | (extract_lets +onlyGivenNames x; refine (have hx : Alters L s0 x := ?_; ?_); (on_goal 1 => subst x); (on_goal 2 => clear_value x))
    | (extract_lets +onlyGivenNames x; refine (have hx : Alters L s0 x.2 := ?_; ?_); (on_goal 1 => subst x); (on_goal 2 => clear_value x))
    | (extract_lets +onlyGivenNames x; clear_value x)
    | split
    | with_reducible refine frame_State_mapChans ?_ ?_
    | with_reducible refine frame_invertEpoch ?_ ?_
    | with_reducible refine frame_setStreamEntry ?_ ?_
    | simp only [frame_mk_streams m_streams]
    | refine frame_pair (by with_reducible assumption) ?_
    | dsimp only)

theorem frame_subOpenCmd {L : List Part} {s0 s : State} {f : CmdFrame}  (hL : ([.tables, .streams, .chans, .mem] : List Part) ⊆ L) (hF : Alters L s0 s) :
    Alters L s0 (subOpenCmd.run f s).2 := by
  delta subOpenCmd
  repeat (any_goals first
    | with_reducible assumption
    | exact List.Subset.trans (by decide) hL
    | with_reducible refine frame_subRun ?_ ?_
    | dsimp only)

theorem frame_subCloseCmd {L : List Part} {s0 s : State} {f : CmdFrame}  (hL : ([.free, .queues, .hands, .streams, .chans, .events, .counters] : List Part) ⊆ L) (hF : Alters L s0 s) :
    Alters L s0 (subCloseCmd.run f s).2 := by
  delta subCloseCmd
  repeat (any_goals first
    | with_reducible assumption
    | exact List.Subset.trans (by decide) hL
    | split
    | with_reducible refine frame_freeGrids ?_ ?_
    | with_reducible refine frame_closeStream ?_ ?_
    | refine frame_pair (by with_reducible assumption) ?_
    | dsimp only)

theorem frame_outTake {L : List Part} {s0 s : State} {n : Fin 24} {p : PendOut} (hL : ([.chans, .events] : List Part) ⊆ L) (hF : Alters L s0 s) :
    Alters L s0 (outTake s n p) := by
  delta outTake
  repeat (any_goals first
    | with_reducible assumption
    | exact List.Subset.trans (by decide) hL
    | split
    | with_reducible refine frame_applyOut ?_ ?_
    | with_reducible refine frame_State_onChan ?_ ?_)

theorem frame_outSetCmd {L : List Part} {s0 s : State} {f : CmdFrame}  (hL : ([.chans, .seat, .events] : List Part) ⊆ L) (hF : Alters L s0 s) :
    Alters L s0 (outSetCmd.run f s).2 := by
  delta outSetCmd
  repeat (any_goals first
    | with_reducible assumption
    | exact List.Subset.trans (by decide) hL
    | (extract_lets +onlyGivenNames x; refine (have hx : Alters L s0 x := ?_; ?_); (on_goal 1 => subst x); (on_goal 2 => clear_value x))
    | (extract_lets +onlyGivenNames x; refine (have hx : Alters L s0 x.2 := ?_; ?_); (on_goal 1 => subst x); (on_goal 2 => clear_value x))
    | (extract_lets +onlyGivenNames x; clear_value x)
    | split
    | with_reducible refine frame_mirrorMsg ?_ ?_
    | with_reducible refine frame_outTake ?_ ?_
    | dsimp only)

theorem frame_outAlarmdirCmd {L : List Part} {s0 s : State} {f : CmdFrame}  (hL : ([.chans, .seat] : List Part) ⊆ L) (hF : Alters L s0 s) :
    Alters L s0 (outAlarmdirCmd.run f s).2 := by
  delta outAlarmdirCmd
  repeat (any_goals first
    | with_reducible assumption
    | exact List.Subset.trans (by decide) hL
    | (extract_lets +onlyGivenNames x; refine (have hx : Alters L s0 x := ?_; ?_); (on_goal 1 => subst x); (on_goal 2 => clear_value x))
    | (extract_lets +onlyGivenNames x; refine (have hx : Alters L s0 x.2 := ?_; ?_); (on_goal 1 => subst x); (on_goal 2 => clear_value x))
    | (extract_lets +onlyGivenNames x; clear_value x)
    | with_reducible refine frame_State_onChan ?_ ?_
    | with_reducible refine frame_mirrorMsg ?_ ?_
    | dsimp only)

theorem frame_execSubOpen {L : List Part} {s0 s : State} {f : CmdFrame} (hL : ([.free, .tables, .queues, .hands, .streams, .chans, .mem, .engine, .events, .dbg, .counters] : List Part) ⊆ L) (hF : Alters L s0 s) :
    Answers L s0 (execSubOpen f s) := by
  delta execSubOpen
  repeat (any_goals first
    | with_reducible assumption
    | exact List.Subset.trans (by decide) hL
    | (intro a x hx; beta_reduce)
    | (intro x hx; beta_reduce)
    | refine answers_next ?_
    | with_reducible refine frame_runCommand ?_ ?_ ?_
    | with_reducible refine frame_subOpenCmd ?_ ?_
    | dsimp only)

theorem frame_execSubClose {L : List Part} {s0 s : State} {f : CmdFrame} (hL : ([.free, .tables, .queues, .hands, .streams, .chans, .engine, .events, .dbg, .counters] : List Part) ⊆ L) (hF : Alters L s0 s) :
    Answers L s0 (execSubClose f s) := by
  delta execSubClose
  repeat (any_goals first
    | with_reducible assumption
    | exact List.Subset.trans (by decide) hL
    | (intro a x hx; beta_reduce)
    | (intro x hx; beta_reduce)
    | refine answers_next ?_
    | with_reducible refine frame_runCommand ?_ ?_ ?_
    | with_reducible refine frame_subCloseCmd ?_ ?_
    | dsimp only)

theorem frame_execOutSet {L : List Part} {s0 s : State} {f : CmdFrame} (hL : ([.free, .tables, .queues, .hands, .chans, .engine, .seat, .events, .dbg, .counters] : List Part) ⊆ L) (hF : Alters L s0 s) :
    Answers L s0 (execOutSet f s) := by
  delta execOutSet
  repeat (any_goals first
    | with_reducible assumption
    | exact List.Subset.trans (by decide) hL
    | (intro a x hx; beta_reduce)
    | (intro x hx; beta_reduce)
    | refine answers_next ?_
    | with_reducible refine frame_runCommand ?_ ?_ ?_
    | with_reducible refine frame_outSetCmd ?_ ?_
    | dsimp only)

theorem frame_execOutAlarmdir {L : List Part} {s0 s : State} {f : CmdFrame} (hL : ([.free, .tables, .queues, .hands, .chans, .engine, .seat, .events, .dbg, .counters] : List Part) ⊆ L) (hF : Alters L s0 s) :
    Answers L s0 (execOutAlarmdir f s) := by
  delta execOutAlarmdir
  repeat (any_goals first
    | with_reducible assumption
    | exact List.Subset.trans (by decide) hL
    | (intro a x hx; beta_reduce)
    | (intro x hx; beta_reduce)
    | refine answers_next ?_
    | with_reducible refine frame_runCommand ?_ ?_ ?_
    | with_reducible refine frame_outAlarmdirCmd ?_ ?_
    | dsimp only)

end Sys2Proof.Laws
end

