-- ==== Sys2Proof/Laws/FrameTableCommands.lean ====
section
/-! SUPPORT. What each operation of Machine/TableCommands.lean may change: the parts of the state it names, and nothing else. -/

namespace Sys2Proof.Laws

open Sys2Proof Sys2Proof.Machine Sys2Proof.Safety

set_option linter.unusedTactic false
set_option linter.unreachableTactic false
set_option linter.unusedVariables false

theorem frame_tblSearchCmd {L : List Part} {s0 s : State} {f : CmdFrame}  (hL : ([] : List Part) ⊆ L) (hF : Alters L s0 s) :
    Alters L s0 (tblSearchCmd.run f s).2 := by
  delta tblSearchCmd
  repeat (any_goals first
    | with_reducible assumption
    | exact List.Subset.trans (by decide) hL
    | (extract_lets +onlyGivenNames x; refine (have hx : Alters L s0 x := ?_; ?_); (on_goal 1 => subst x); (on_goal 2 => clear_value x))
    | (extract_lets +onlyGivenNames x; refine (have hx : Alters L s0 x.2 := ?_; ?_); (on_goal 1 => subst x); (on_goal 2 => clear_value x))
    | (extract_lets +onlyGivenNames x; clear_value x)
    | split
    | refine frame_pair (by with_reducible assumption) ?_
    | dsimp only)

theorem frame_tblNextCmd {L : List Part} {s0 s : State} {f : CmdFrame}  (hL : ([] : List Part) ⊆ L) (hF : Alters L s0 s) :
    Alters L s0 (tblNextCmd.run f s).2 := by
  delta tblNextCmd
  repeat (any_goals first
    | with_reducible assumption
    | exact List.Subset.trans (by decide) hL
    | (extract_lets +onlyGivenNames x; refine (have hx : Alters L s0 x := ?_; ?_); (on_goal 1 => subst x); (on_goal 2 => clear_value x))
    | (extract_lets +onlyGivenNames x; refine (have hx : Alters L s0 x.2 := ?_; ?_); (on_goal 1 => subst x); (on_goal 2 => clear_value x))
    | (extract_lets +onlyGivenNames x; clear_value x)
    | split
    | refine frame_pair (by with_reducible assumption) ?_
    | dsimp only)

theorem frame_stage {L : List Part} {s0 s : State} {c : Change} (hL : ([.tables] : List Part) ⊆ L) (hF : Alters L s0 s) :
    Alters L s0 (stage s c) := by
  delta stage
  repeat (any_goals first
    | with_reducible assumption
    | exact List.Subset.trans (by decide) hL
    | with_reducible refine frame_State_onTables ?_ ?_)

theorem frame_addStatic {L : List Part} {s0 s : State} {p : Port} {tag : Nat} {h : Fin 16} (hL : ([.free, .tables, .mem, .events, .counters] : List Part) ⊆ L) (hF : Alters L s0 s) :
    Alters L s0 (addStatic s p tag h) := by
  delta addStatic
  repeat (any_goals first
    | with_reducible assumption
    | exact List.Subset.trans (by decide) hL
    | (intro a x hx; beta_reduce)
    | (intro x hx; beta_reduce)
    | (extract_lets +onlyGivenNames x; refine (have hx : Alters L s0 x := ?_; ?_); (on_goal 1 => subst x); (on_goal 2 => clear_value x))
    | (extract_lets +onlyGivenNames x; refine (have hx : Alters L s0 x.2 := ?_; ?_); (on_goal 1 => subst x); (on_goal 2 => clear_value x))
    | (extract_lets +onlyGivenNames x; refine (have hx : ∀ y v, Alters L s0 y → Alters L s0 (x y v) := ?_; ?_); (on_goal 1 => subst x); (on_goal 2 => clear_value x))
    | (extract_lets +onlyGivenNames x; clear_value x)
    | split
    | with_reducible refine frame_setHash ?_ ?_
    | with_reducible refine frame_countLearned ?_ ?_
    | with_reducible refine frame_hashPlace ?_ ?_
    | with_reducible refine frame_countPipe ?_ ?_
    | refine frame_pair (by with_reducible assumption) ?_
    | dsimp only
    | with_reducible apply_assumption
    | (intro v; beta_reduce))

theorem frame_tblAddCmd {L : List Part} {s0 s : State} {f : CmdFrame}  (hL : ([.free, .tables, .mem, .events, .counters] : List Part) ⊆ L) (hF : Alters L s0 s) :
    Alters L s0 (tblAddCmd.run f s).2 := by
  delta tblAddCmd
  repeat (any_goals first
    | with_reducible assumption
    | exact List.Subset.trans (by decide) hL
    | (extract_lets +onlyGivenNames x; refine (have hx : Alters L s0 x := ?_; ?_); (on_goal 1 => subst x); (on_goal 2 => clear_value x))
    | (extract_lets +onlyGivenNames x; refine (have hx : Alters L s0 x.2 := ?_; ?_); (on_goal 1 => subst x); (on_goal 2 => clear_value x))
    | (extract_lets +onlyGivenNames x; clear_value x)
    | split
    | with_reducible refine frame_addStatic ?_ ?_
    | with_reducible refine frame_State_onTables ?_ ?_
    | with_reducible refine frame_stage ?_ ?_
    | refine frame_pair (by with_reducible assumption) ?_
    | dsimp only)

theorem frame_tblDelCmd {L : List Part} {s0 s : State} {f : CmdFrame}  (hL : ([.tables, .mem] : List Part) ⊆ L) (hF : Alters L s0 s) :
    Alters L s0 (tblDelCmd.run f s).2 := by
  delta tblDelCmd
  repeat (any_goals first
    | with_reducible assumption
    | exact List.Subset.trans (by decide) hL
    | (extract_lets +onlyGivenNames x; refine (have hx : Alters L s0 x := ?_; ?_); (on_goal 1 => subst x); (on_goal 2 => clear_value x))
    | (extract_lets +onlyGivenNames x; refine (have hx : Alters L s0 x.2 := ?_; ?_); (on_goal 1 => subst x); (on_goal 2 => clear_value x))
    | (extract_lets +onlyGivenNames x; clear_value x)
    | split
    | with_reducible refine frame_invertEpoch ?_ ?_
    | with_reducible refine frame_freeHash ?_ ?_
    | with_reducible refine frame_State_onTables ?_ ?_
    | with_reducible refine frame_stage ?_ ?_
    | refine frame_pair (by with_reducible assumption) ?_
    | dsimp only)

theorem frame_tblFlushPortCmd {L : List Part} {s0 s : State} {f : CmdFrame}  (hL : ([.engine] : List Part) ⊆ L) (hF : Alters L s0 s) :
    Alters L s0 (tblFlushPortCmd.run f s).2 := by
  delta tblFlushPortCmd
  repeat (any_goals first
    | with_reducible assumption
    | exact List.Subset.trans (by decide) hL
    | (extract_lets +onlyGivenNames x; refine (have hx : Alters L s0 x := ?_; ?_); (on_goal 1 => subst x); (on_goal 2 => clear_value x))
    | (extract_lets +onlyGivenNames x; refine (have hx : Alters L s0 x.2 := ?_; ?_); (on_goal 1 => subst x); (on_goal 2 => clear_value x))
    | (extract_lets +onlyGivenNames x; clear_value x)
    | with_reducible refine frame_createOp ?_ ?_
    | dsimp only)

theorem frame_commitStart {L : List Part} {s0 s : State} {h : Fin 16} {a : Tick} (hL : ([.tables, .events] : List Part) ⊆ L) (hF : Alters L s0 s) :
    Alters L s0 (commitStart s h a) := by
  delta commitStart
  repeat (any_goals first
    | with_reducible assumption
    | exact List.Subset.trans (by decide) hL
    | (extract_lets +onlyGivenNames x; refine (have hx : Alters L s0 x := ?_; ?_); (on_goal 1 => subst x); (on_goal 2 => clear_value x))
    | (extract_lets +onlyGivenNames x; clear_value x)
    | split
    | with_reducible refine frame_State_onTables ?_ ?_
    | with_reducible refine frame_raise ?_ ?_)

theorem frame_tblCommitCmd {L : List Part} {s0 s : State} {f : CmdFrame}  (hL : ([.tables, .events] : List Part) ⊆ L) (hF : Alters L s0 s) :
    Alters L s0 (tblCommitCmd.run f s).2 := by
  delta tblCommitCmd
  repeat (any_goals first
    | with_reducible assumption
    | exact List.Subset.trans (by decide) hL
    | (extract_lets +onlyGivenNames x; refine (have hx : Alters L s0 x := ?_; ?_); (on_goal 1 => subst x); (on_goal 2 => clear_value x))
    | (extract_lets +onlyGivenNames x; refine (have hx : Alters L s0 x.2 := ?_; ?_); (on_goal 1 => subst x); (on_goal 2 => clear_value x))
    | (extract_lets +onlyGivenNames x; clear_value x)
    | with_reducible refine frame_commitStart ?_ ?_
    | dsimp only)

theorem frame_execTblSearch {L : List Part} {s0 s : State} {f : CmdFrame} (hL : ([.free, .tables, .queues, .hands, .engine, .events, .dbg, .counters] : List Part) ⊆ L) (hF : Alters L s0 s) :
    Answers L s0 (execTblSearch f s) := by
  delta execTblSearch
  repeat (any_goals first
    | with_reducible assumption
    | exact List.Subset.trans (by decide) hL
    | (intro a x hx; beta_reduce)
    | (intro x hx; beta_reduce)
    | refine answers_next ?_
    | with_reducible refine frame_runCommand ?_ ?_ ?_
    | with_reducible refine frame_tblSearchCmd ?_ ?_
    | dsimp only)

theorem frame_execTblNext {L : List Part} {s0 s : State} {f : CmdFrame} (hL : ([.free, .tables, .queues, .hands, .engine, .events, .dbg, .counters] : List Part) ⊆ L) (hF : Alters L s0 s) :
    Answers L s0 (execTblNext f s) := by
  delta execTblNext
  repeat (any_goals first
    | with_reducible assumption
    | exact List.Subset.trans (by decide) hL
    | (intro a x hx; beta_reduce)
    | (intro x hx; beta_reduce)
    | refine answers_next ?_
    | with_reducible refine frame_runCommand ?_ ?_ ?_
    | with_reducible refine frame_tblNextCmd ?_ ?_
    | dsimp only)

theorem frame_execTblAdd {L : List Part} {s0 s : State} {f : CmdFrame} (hL : ([.free, .tables, .queues, .hands, .mem, .engine, .events, .dbg, .counters] : List Part) ⊆ L) (hF : Alters L s0 s) :
    Answers L s0 (execTblAdd f s) := by
  delta execTblAdd
  repeat (any_goals first
    | with_reducible assumption
    | exact List.Subset.trans (by decide) hL
    | (intro a x hx; beta_reduce)
    | (intro x hx; beta_reduce)
    | refine answers_next ?_
    | with_reducible refine frame_runCommand ?_ ?_ ?_
    | with_reducible refine frame_tblAddCmd ?_ ?_
    | dsimp only)

theorem frame_execTblDel {L : List Part} {s0 s : State} {f : CmdFrame} (hL : ([.free, .tables, .queues, .hands, .mem, .engine, .events, .dbg, .counters] : List Part) ⊆ L) (hF : Alters L s0 s) :
    Answers L s0 (execTblDel f s) := by
  delta execTblDel
  repeat (any_goals first
    | with_reducible assumption
    | exact List.Subset.trans (by decide) hL
    | (intro a x hx; beta_reduce)
    | (intro x hx; beta_reduce)
    | refine answers_next ?_
    | with_reducible refine frame_runCommand ?_ ?_ ?_
    | with_reducible refine frame_tblDelCmd ?_ ?_
    | dsimp only)

theorem frame_execTblFlushPort {L : List Part} {s0 s : State} {f : CmdFrame} (hL : ([.free, .tables, .queues, .hands, .engine, .events, .dbg, .counters] : List Part) ⊆ L) (hF : Alters L s0 s) :
    Answers L s0 (execTblFlushPort f s) := by
  delta execTblFlushPort
  repeat (any_goals first
    | with_reducible assumption
    | exact List.Subset.trans (by decide) hL
    | (intro a x hx; beta_reduce)
    | (intro x hx; beta_reduce)
    | refine answers_next ?_
    | with_reducible refine frame_runCommand ?_ ?_ ?_
    | with_reducible refine frame_tblFlushPortCmd ?_ ?_
    | dsimp only)

theorem frame_execTblCommit {L : List Part} {s0 s : State} {f : CmdFrame} (hL : ([.free, .tables, .queues, .hands, .engine, .events, .dbg, .counters] : List Part) ⊆ L) (hF : Alters L s0 s) :
    Answers L s0 (execTblCommit f s) := by
  delta execTblCommit
  repeat (any_goals first
    | with_reducible assumption
    | exact List.Subset.trans (by decide) hL
    | (intro a x hx; beta_reduce)
    | (intro x hx; beta_reduce)
    | refine answers_next ?_
    | with_reducible refine frame_runCommand ?_ ?_ ?_
    | with_reducible refine frame_tblCommitCmd ?_ ?_
    | dsimp only)

end Sys2Proof.Laws
end

