-- ==== Sys2Proof/Laws/FrameChipCommands.lean ====
section
/-! SUPPORT. What each operation of Machine/ChipCommands.lean may change: the parts of the state it names, and nothing else. -/

namespace Sys2Proof.Laws

open Sys2Proof Sys2Proof.Machine Sys2Proof.Safety

set_option linter.unusedTactic false
set_option linter.unreachableTactic false
set_option linter.unusedVariables false

theorem frame_startWrite {L : List Part} {s0 s : State} {f : CmdFrame} {k : VKey} {data : List Byte} {why : PulseFor} (hL : ([.engine, .vault] : List Part) ⊆ L) (hF : Alters L s0 s) :
    Alters L s0 (startWrite s f k data why) := by
  delta startWrite
  repeat (any_goals first
    | with_reducible assumption
    | exact List.Subset.trans (by decide) hL
    | with_reducible refine frame_State_onVault ?_ ?_
    | with_reducible refine frame_State_onEngine ?_ ?_)

theorem frame_writeRun {L : List Part} {s0 s : State} {k : VKey} {data : CmdFrame → State → List Byte} {f : CmdFrame} (hL : ([.engine, .vault] : List Part) ⊆ L) (hF : Alters L s0 s) :
    Alters L s0 (writeRun k data f s).2 := by
  delta writeRun
  repeat (any_goals first
    | with_reducible assumption
    | exact List.Subset.trans (by decide) hL
    | split
    | with_reducible refine frame_startWrite ?_ ?_
    | refine frame_pair (by with_reducible assumption) ?_
    | dsimp only)

theorem frame_restrapRun {L : List Part} {s0 s : State} {f : CmdFrame} (hL : ([.straps, .chans, .engine] : List Part) ⊆ L) (hF : Alters L s0 s) :
    Alters L s0 (restrapRun f s).2 := by
  delta restrapRun
  repeat (any_goals first
    | with_reducible assumption
    | exact List.Subset.trans (by decide) hL
    | split
    | with_reducible refine frame_requestReread ?_ ?_
    | with_reducible refine frame_State_onEngine ?_ ?_
    | refine frame_pair (by with_reducible assumption) ?_
    | dsimp only)

theorem frame_chRestrapCmd {L : List Part} {s0 s : State} {f : CmdFrame}  (hL : ([.straps, .chans, .engine] : List Part) ⊆ L) (hF : Alters L s0 s) :
    Alters L s0 (chRestrapCmd.run f s).2 := by
  delta chRestrapCmd
  repeat (any_goals first
    | with_reducible assumption
    | exact List.Subset.trans (by decide) hL
    | with_reducible refine frame_restrapRun ?_ ?_
    | dsimp only)

theorem frame_chRekindleCmd {L : List Part} {s0 s : State} {f : CmdFrame}  (hL : ([.tables, .chans, .mem, .engine, .seat, .events] : List Part) ⊆ L) (hF : Alters L s0 s) :
    Alters L s0 (chRekindleCmd.run f s).2 := by
  delta chRekindleCmd
  repeat (any_goals first
    | with_reducible assumption
    | exact List.Subset.trans (by decide) hL
    | (extract_lets +onlyGivenNames x; refine (have hx : Alters L s0 x := ?_; ?_); (on_goal 1 => subst x); (on_goal 2 => clear_value x))
    | (extract_lets +onlyGivenNames x; refine (have hx : Alters L s0 x.2 := ?_; ?_); (on_goal 1 => subst x); (on_goal 2 => clear_value x))
    | (extract_lets +onlyGivenNames x; clear_value x)
    | split
    | with_reducible refine frame_State_onChan ?_ ?_
    | with_reducible refine frame_startRekindle ?_ ?_
    | dsimp only)

theorem frame_nodeResetCmd {L : List Part} {s0 s : State} {f : CmdFrame}  (hL : ([.engine] : List Part) ⊆ L) (hF : Alters L s0 s) :
    Alters L s0 (nodeResetCmd.run f s).2 := by
  delta nodeResetCmd
  repeat (any_goals first
    | with_reducible assumption
    | exact List.Subset.trans (by decide) hL
    | with_reducible refine frame_State_onEngine ?_ ?_
    | dsimp only)

theorem frame_nodeRestrapCmd {L : List Part} {s0 s : State} {f : CmdFrame}  (hL : ([.straps, .chans, .engine] : List Part) ⊆ L) (hF : Alters L s0 s) :
    Alters L s0 (nodeRestrapCmd.run f s).2 := by
  delta nodeRestrapCmd
  repeat (any_goals first
    | with_reducible assumption
    | exact List.Subset.trans (by decide) hL
    | with_reducible refine frame_restrapRun ?_ ?_
    | dsimp only)

theorem frame_nodeAdoptCmd {L : List Part} {s0 s : State} {f : CmdFrame}  (hL : ([.engine, .vault] : List Part) ⊆ L) (hF : Alters L s0 s) :
    Alters L s0 (nodeAdoptCmd.run f s).2 := by
  delta nodeAdoptCmd
  repeat (any_goals first
    | with_reducible assumption
    | exact List.Subset.trans (by decide) hL
    | with_reducible refine frame_writeRun ?_ ?_
    | dsimp only)

theorem frame_portResetTake {L : List Part} {s0 s : State} {p : Port} (hL : ([.portA, .portB, .tables, .chans, .mem, .engine, .seat, .events] : List Part) ⊆ L) (hF : Alters L s0 s) :
    Alters L s0 (portResetTake s p) := by
  delta portResetTake
  repeat (any_goals first
    | with_reducible assumption
    | exact List.Subset.trans (by decide) hL
    | (extract_lets +onlyGivenNames x; refine (have hx : Alters L s0 x := ?_; ?_); (on_goal 1 => subst x); (on_goal 2 => clear_value x))
    | (extract_lets +onlyGivenNames x; clear_value x)
    | with_reducible refine frame_endOps ?_ ?_
    | with_reducible refine frame_abortSounding ?_ ?_
    | with_reducible refine frame_State_onPort ?_ ?_)

theorem frame_portResetCmd {L : List Part} {s0 s : State} {f : CmdFrame}  (hL : ([.portA, .portB, .tables, .chans, .mem, .engine, .seat, .events] : List Part) ⊆ L) (hF : Alters L s0 s) :
    Alters L s0 (portResetCmd.run f s).2 := by
  delta portResetCmd
  repeat (any_goals first
    | with_reducible assumption
    | exact List.Subset.trans (by decide) hL
    | (extract_lets +onlyGivenNames x; refine (have hx : Alters L s0 x := ?_; ?_); (on_goal 1 => subst x); (on_goal 2 => clear_value x))
    | (extract_lets +onlyGivenNames x; refine (have hx : Alters L s0 x.2 := ?_; ?_); (on_goal 1 => subst x); (on_goal 2 => clear_value x))
    | (extract_lets +onlyGivenNames x; clear_value x)
    | split
    | with_reducible refine frame_portResetTake ?_ ?_
    | dsimp only)

theorem frame_pipeResetCmd {L : List Part} {s0 s : State} {f : CmdFrame}  (hL : ([.tables, .chans, .mem, .engine, .seat, .events] : List Part) ⊆ L) (hF : Alters L s0 s) :
    Alters L s0 (pipeResetCmd.run f s).2 := by
  delta pipeResetCmd
  repeat (any_goals first
    | with_reducible assumption
    | exact List.Subset.trans (by decide) hL
    | (extract_lets +onlyGivenNames x; refine (have hx : Alters L s0 x := ?_; ?_); (on_goal 1 => subst x); (on_goal 2 => clear_value x))
    | (extract_lets +onlyGivenNames x; refine (have hx : Alters L s0 x.2 := ?_; ?_); (on_goal 1 => subst x); (on_goal 2 => clear_value x))
    | (extract_lets +onlyGivenNames x; clear_value x)
    | split
    | with_reducible refine frame_endOps ?_ ?_
    | with_reducible refine frame_State_onPipe ?_ ?_
    | dsimp only)

theorem frame_created {L : List Part} {s0 : State} {r : BitVec 16 × State} (hL : ([] : List Part) ⊆ L) (hF : Alters L s0 r.2) :
    Alters L s0 (created r).2 := hF

theorem frame_joinSounding {L : List Part} {s0 s : State} {handle : Nat} (hL : ([.engine, .events] : List Part) ⊆ L) (hF : Alters L s0 s) :
    Alters L s0 (joinSounding s handle) := by
  delta joinSounding
  repeat (any_goals first
    | with_reducible assumption
    | exact List.Subset.trans (by decide) hL
    | with_reducible refine frame_opEnter ?_ ?_
    | with_reducible refine frame_onOp ?_ ?_)

theorem frame_phySoundCmd {L : List Part} {s0 s : State} {f : CmdFrame}  (hL : ([.engine, .events] : List Part) ⊆ L) (hF : Alters L s0 s) :
    Alters L s0 (phySoundCmd.run f s).2 := by
  delta phySoundCmd
  repeat (any_goals first
    | with_reducible assumption
    | exact List.Subset.trans (by decide) hL
    | (extract_lets +onlyGivenNames x; refine (have hx : Alters L s0 x := ?_; ?_); (on_goal 1 => subst x); (on_goal 2 => clear_value x))
    | (extract_lets +onlyGivenNames x; refine (have hx : Alters L s0 x.2 := ?_; ?_); (on_goal 1 => subst x); (on_goal 2 => clear_value x))
    | (extract_lets +onlyGivenNames x; clear_value x)
    | split
    | with_reducible refine frame_createOp ?_ ?_
    | with_reducible refine frame_created ?_ ?_
    | with_reducible refine frame_joinSounding ?_ ?_
    | dsimp only)

theorem frame_phyMarginCmd {L : List Part} {s0 s : State} {f : CmdFrame}  (hL : ([.portA, .portB, .tables] : List Part) ⊆ L) (hF : Alters L s0 s) :
    Alters L s0 (phyMarginCmd.run f s).2 := by
  delta phyMarginCmd
  repeat (any_goals first
    | with_reducible assumption
    | exact List.Subset.trans (by decide) hL
    | (extract_lets +onlyGivenNames x; refine (have hx : Alters L s0 x := ?_; ?_); (on_goal 1 => subst x); (on_goal 2 => clear_value x))
    | (extract_lets +onlyGivenNames x; refine (have hx : Alters L s0 x.2 := ?_; ?_); (on_goal 1 => subst x); (on_goal 2 => clear_value x))
    | (extract_lets +onlyGivenNames x; clear_value x)
    | with_reducible refine frame_marginTable ?_ ?_
    | with_reducible refine frame_State_onPort ?_ ?_
    | dsimp only)

theorem frame_phyMaskCmd {L : List Part} {s0 s : State} {f : CmdFrame}  (hL : ([.engine, .vault] : List Part) ⊆ L) (hF : Alters L s0 s) :
    Alters L s0 (phyMaskCmd.run f s).2 := by
  delta phyMaskCmd
  repeat (any_goals first
    | with_reducible assumption
    | exact List.Subset.trans (by decide) hL
    | with_reducible refine frame_writeRun ?_ ?_
    | dsimp only)

theorem frame_phySnrCmd {L : List Part} {s0 s : State} {f : CmdFrame}  (hL : ([] : List Part) ⊆ L) (hF : Alters L s0 s) :
    Alters L s0 (phySnrCmd.run f s).2 := by
  delta phySnrCmd
  repeat (any_goals first
    | with_reducible assumption
    | exact List.Subset.trans (by decide) hL
    | dsimp only)

theorem frame_execChRestrap {L : List Part} {s0 s : State} {f : CmdFrame} (hL : ([.free, .straps, .tables, .queues, .hands, .chans, .engine, .events, .dbg, .counters] : List Part) ⊆ L) (hF : Alters L s0 s) :
    Answers L s0 (execChRestrap f s) := by
  delta execChRestrap
  repeat (any_goals first
    | with_reducible assumption
    | exact List.Subset.trans (by decide) hL
    | (intro a x hx; beta_reduce)
    | (intro x hx; beta_reduce)
    | refine answers_next ?_
    | with_reducible refine frame_runCommand ?_ ?_ ?_
    | with_reducible refine frame_chRestrapCmd ?_ ?_
    | dsimp only)

theorem frame_execChRekindle {L : List Part} {s0 s : State} {f : CmdFrame} (hL : ([.free, .tables, .queues, .hands, .chans, .mem, .engine, .seat, .events, .dbg, .counters] : List Part) ⊆ L) (hF : Alters L s0 s) :
    Answers L s0 (execChRekindle f s) := by
  delta execChRekindle
  repeat (any_goals first
    | with_reducible assumption
    | exact List.Subset.trans (by decide) hL
    | (intro a x hx; beta_reduce)
    | (intro x hx; beta_reduce)
    | refine answers_next ?_
    | with_reducible refine frame_runCommand ?_ ?_ ?_
    | with_reducible refine frame_chRekindleCmd ?_ ?_
    | dsimp only)

theorem frame_execNodeReset {L : List Part} {s0 s : State} {f : CmdFrame} (hL : ([.free, .tables, .queues, .hands, .engine, .events, .dbg, .counters] : List Part) ⊆ L) (hF : Alters L s0 s) :
    Answers L s0 (execNodeReset f s) := by
  delta execNodeReset
  repeat (any_goals first
    | with_reducible assumption
    | exact List.Subset.trans (by decide) hL
    | (intro a x hx; beta_reduce)
    | (intro x hx; beta_reduce)
    | refine answers_next ?_
    | with_reducible refine frame_runCommand ?_ ?_ ?_
    | with_reducible refine frame_nodeResetCmd ?_ ?_
    | dsimp only)

theorem frame_execNodeRestrap {L : List Part} {s0 s : State} {f : CmdFrame} (hL : ([.free, .straps, .tables, .queues, .hands, .chans, .engine, .events, .dbg, .counters] : List Part) ⊆ L) (hF : Alters L s0 s) :
    Answers L s0 (execNodeRestrap f s) := by
  delta execNodeRestrap
  repeat (any_goals first
    | with_reducible assumption
    | exact List.Subset.trans (by decide) hL
    | (intro a x hx; beta_reduce)
    | (intro x hx; beta_reduce)
    | refine answers_next ?_
    | with_reducible refine frame_runCommand ?_ ?_ ?_
    | with_reducible refine frame_nodeRestrapCmd ?_ ?_
    | dsimp only)

theorem frame_execNodeAdopt {L : List Part} {s0 s : State} {f : CmdFrame} (hL : ([.free, .tables, .queues, .hands, .engine, .vault, .events, .dbg, .counters] : List Part) ⊆ L) (hF : Alters L s0 s) :
    Answers L s0 (execNodeAdopt f s) := by
  delta execNodeAdopt
  repeat (any_goals first
    | with_reducible assumption
    | exact List.Subset.trans (by decide) hL
    | (intro a x hx; beta_reduce)
    | (intro x hx; beta_reduce)
    | refine answers_next ?_
    | with_reducible refine frame_runCommand ?_ ?_ ?_
    | with_reducible refine frame_nodeAdoptCmd ?_ ?_
    | dsimp only)

theorem frame_execPortReset {L : List Part} {s0 s : State} {f : CmdFrame} (hL : ([.free, .portA, .portB, .tables, .queues, .hands, .chans, .mem, .engine, .seat, .events, .dbg, .counters] : List Part) ⊆ L) (hF : Alters L s0 s) :
    Answers L s0 (execPortReset f s) := by
  delta execPortReset
  repeat (any_goals first
    | with_reducible assumption
    | exact List.Subset.trans (by decide) hL
    | (intro a x hx; beta_reduce)
    | (intro x hx; beta_reduce)
    | refine answers_next ?_
    | with_reducible refine frame_runCommand ?_ ?_ ?_
    | with_reducible refine frame_portResetCmd ?_ ?_
    | dsimp only)

theorem frame_execPipeReset {L : List Part} {s0 s : State} {f : CmdFrame} (hL : ([.free, .tables, .queues, .hands, .chans, .mem, .engine, .seat, .events, .dbg, .counters] : List Part) ⊆ L) (hF : Alters L s0 s) :
    Answers L s0 (execPipeReset f s) := by
  delta execPipeReset
  repeat (any_goals first
    | with_reducible assumption
    | exact List.Subset.trans (by decide) hL
    | (intro a x hx; beta_reduce)
    | (intro x hx; beta_reduce)
    | refine answers_next ?_
    | with_reducible refine frame_runCommand ?_ ?_ ?_
    | with_reducible refine frame_pipeResetCmd ?_ ?_
    | dsimp only)

theorem frame_execPhySound {L : List Part} {s0 s : State} {f : CmdFrame} (hL : ([.free, .tables, .queues, .hands, .engine, .events, .dbg, .counters] : List Part) ⊆ L) (hF : Alters L s0 s) :
    Answers L s0 (execPhySound f s) := by
  delta execPhySound
  repeat (any_goals first
    | with_reducible assumption
    | exact List.Subset.trans (by decide) hL
    | (intro a x hx; beta_reduce)
    | (intro x hx; beta_reduce)
    | refine answers_next ?_
    | with_reducible refine frame_runCommand ?_ ?_ ?_
    | with_reducible refine frame_phySoundCmd ?_ ?_
    | dsimp only)

theorem frame_execPhyMargin {L : List Part} {s0 s : State} {f : CmdFrame} (hL : ([.free, .portA, .portB, .tables, .queues, .hands, .engine, .events, .dbg, .counters] : List Part) ⊆ L) (hF : Alters L s0 s) :
    Answers L s0 (execPhyMargin f s) := by
  delta execPhyMargin
  repeat (any_goals first
    | with_reducible assumption
    | exact List.Subset.trans (by decide) hL
    | (intro a x hx; beta_reduce)
    | (intro x hx; beta_reduce)
    | refine answers_next ?_
    | with_reducible refine frame_runCommand ?_ ?_ ?_
    | with_reducible refine frame_phyMarginCmd ?_ ?_
    | dsimp only)

theorem frame_execPhyMask {L : List Part} {s0 s : State} {f : CmdFrame} (hL : ([.free, .tables, .queues, .hands, .engine, .vault, .events, .dbg, .counters] : List Part) ⊆ L) (hF : Alters L s0 s) :
    Answers L s0 (execPhyMask f s) := by
  delta execPhyMask
  repeat (any_goals first
    | with_reducible assumption
    | exact List.Subset.trans (by decide) hL
    | (intro a x hx; beta_reduce)
    | (intro x hx; beta_reduce)
    | refine answers_next ?_
    | with_reducible refine frame_runCommand ?_ ?_ ?_
    | with_reducible refine frame_phyMaskCmd ?_ ?_
    | dsimp only)

theorem frame_execPhySnr {L : List Part} {s0 s : State} {f : CmdFrame} (hL : ([.free, .tables, .queues, .hands, .engine, .events, .dbg, .counters] : List Part) ⊆ L) (hF : Alters L s0 s) :
    Answers L s0 (execPhySnr f s) := by
  delta execPhySnr
  repeat (any_goals first
    | with_reducible assumption
    | exact List.Subset.trans (by decide) hL
    | (intro a x hx; beta_reduce)
    | (intro x hx; beta_reduce)
    | refine answers_next ?_
    | with_reducible refine frame_runCommand ?_ ?_ ?_
    | with_reducible refine frame_phySnrCmd ?_ ?_
    | dsimp only)

end Sys2Proof.Laws
end

