-- ==== Sys2Proof/Laws/FrameOpCommands.lean ====
section
/-! SUPPORT. What each operation of Machine/OpCommands.lean may change: the parts of the state it names, and nothing else. -/

namespace Sys2Proof.Laws

open Sys2Proof Sys2Proof.Machine Sys2Proof.Safety

set_option linter.unusedTactic false
set_option linter.unreachableTactic false
set_option linter.unusedVariables false

theorem frame_trimStartCmd {L : List Part} {s0 s : State} {f : CmdFrame}  (hL : ([.engine] : List Part) ⊆ L) (hF : Alters L s0 s) :
    Alters L s0 (trimStartCmd.run f s).2 := by
  delta trimStartCmd
  repeat (any_goals first
    | with_reducible assumption
    | exact List.Subset.trans (by decide) hL
    | with_reducible refine frame_created ?_ ?_
    | with_reducible refine frame_createOp ?_ ?_
    | dsimp only)

theorem frame_trimPointCmd {L : List Part} {s0 s : State} {f : CmdFrame}  (hL : ([.free, .tables, .chans, .mem, .engine, .seat, .events] : List Part) ⊆ L) (hF : Alters L s0 s) :
    Alters L s0 (trimPointCmd.run f s).2 := by
  delta trimPointCmd
  repeat (any_goals first
    | with_reducible assumption
    | exact List.Subset.trans (by decide) hL
    | (extract_lets +onlyGivenNames x; refine (have hx : Alters L s0 x := ?_; ?_); (on_goal 1 => subst x); (on_goal 2 => clear_value x))
    | (extract_lets +onlyGivenNames x; refine (have hx : Alters L s0 x.2 := ?_; ?_); (on_goal 1 => subst x); (on_goal 2 => clear_value x))
    | (extract_lets +onlyGivenNames x; clear_value x)
    | split
    | with_reducible refine frame_drivePoint ?_ ?_
    | with_reducible refine frame_onOp ?_ ?_
    | with_reducible refine frame_trimCompute ?_ ?_
    | refine frame_pair (by with_reducible assumption) ?_
    | dsimp only)

theorem frame_trimCommitCmd {L : List Part} {s0 s : State} {f : CmdFrame}  (hL : ([.engine] : List Part) ⊆ L) (hF : Alters L s0 s) :
    Alters L s0 (trimCommitCmd.run f s).2 := by
  delta trimCommitCmd
  repeat (any_goals first
    | with_reducible assumption
    | exact List.Subset.trans (by decide) hL
    | (extract_lets +onlyGivenNames x; refine (have hx : Alters L s0 x := ?_; ?_); (on_goal 1 => subst x); (on_goal 2 => clear_value x))
    | (extract_lets +onlyGivenNames x; refine (have hx : Alters L s0 x.2 := ?_; ?_); (on_goal 1 => subst x); (on_goal 2 => clear_value x))
    | (extract_lets +onlyGivenNames x; clear_value x)
    | split
    | with_reducible refine frame_onOp ?_ ?_
    | refine frame_pair (by with_reducible assumption) ?_
    | dsimp only)

theorem frame_curveLoadCmd {L : List Part} {s0 s : State} {f : CmdFrame}  (hL : ([.engine] : List Part) ⊆ L) (hF : Alters L s0 s) :
    Alters L s0 (curveLoadCmd.run f s).2 := by
  delta curveLoadCmd
  repeat (any_goals first
    | with_reducible assumption
    | exact List.Subset.trans (by decide) hL
    | with_reducible refine frame_created ?_ ?_
    | with_reducible refine frame_createOp ?_ ?_
    | dsimp only)

theorem frame_memRepairCmd {L : List Part} {s0 s : State} {f : CmdFrame}  (hL : ([.engine, .events] : List Part) ⊆ L) (hF : Alters L s0 s) :
    Alters L s0 (memRepairCmd.run f s).2 := by
  delta memRepairCmd
  repeat (any_goals first
    | with_reducible assumption
    | exact List.Subset.trans (by decide) hL
    | (extract_lets +onlyGivenNames x; refine (have hx : Alters L s0 x := ?_; ?_); (on_goal 1 => subst x); (on_goal 2 => clear_value x))
    | (extract_lets +onlyGivenNames x; refine (have hx : Alters L s0 x.2 := ?_; ?_); (on_goal 1 => subst x); (on_goal 2 => clear_value x))
    | (extract_lets +onlyGivenNames x; clear_value x)
    | split
    | with_reducible refine frame_createOp ?_ ?_
    | with_reducible refine frame_created ?_ ?_
    | with_reducible refine frame_opEnd ?_ ?_
    | dsimp only)

theorem frame_memSweepCmd {L : List Part} {s0 s : State} {f : CmdFrame}  (hL : ([.engine] : List Part) ⊆ L) (hF : Alters L s0 s) :
    Alters L s0 (memSweepCmd.run f s).2 := by
  delta memSweepCmd
  repeat (any_goals first
    | with_reducible assumption
    | exact List.Subset.trans (by decide) hL
    | with_reducible refine frame_created ?_ ?_
    | with_reducible refine frame_createOp ?_ ?_
    | dsimp only)

theorem frame_twinMirrorCmd {L : List Part} {s0 s : State} {f : CmdFrame}  (hL : ([.engine] : List Part) ⊆ L) (hF : Alters L s0 s) :
    Alters L s0 (twinMirrorCmd.run f s).2 := by
  delta twinMirrorCmd
  repeat (any_goals first
    | with_reducible assumption
    | exact List.Subset.trans (by decide) hL
    | with_reducible refine frame_created ?_ ?_
    | with_reducible refine frame_createOp ?_ ?_
    | dsimp only)

theorem frame_twinReleaseCmd {L : List Part} {s0 s : State} {f : CmdFrame}  (hL : ([.seat] : List Part) ⊆ L) (hF : Alters L s0 s) :
    Alters L s0 (twinReleaseCmd.run f s).2 := by
  delta twinReleaseCmd
  repeat (any_goals first
    | with_reducible assumption
    | exact List.Subset.trans (by decide) hL
    | with_reducible refine frame_State_onSeat ?_ ?_
    | dsimp only)

theorem frame_opStatusCmd {L : List Part} {s0 s : State} {f : CmdFrame}  (hL : ([] : List Part) ⊆ L) (hF : Alters L s0 s) :
    Alters L s0 (opStatusCmd.run f s).2 := by
  delta opStatusCmd
  repeat (any_goals first
    | with_reducible assumption
    | exact List.Subset.trans (by decide) hL
    | split
    | refine frame_pair (by with_reducible assumption) ?_
    | dsimp only)

theorem frame_suspendOp {L : List Part} {s0 s : State} {o : Op} (hL : ([.chans, .engine, .events] : List Part) ⊆ L) (hF : Alters L s0 s) :
    Alters L s0 (suspendOp s o) := by
  delta suspendOp
  repeat (any_goals first
    | with_reducible assumption
    | exact List.Subset.trans (by decide) hL
    | (extract_lets +onlyGivenNames x; refine (have hx : Alters L s0 x := ?_; ?_); (on_goal 1 => subst x); (on_goal 2 => clear_value x))
    | (extract_lets +onlyGivenNames x; clear_value x)
    | split
    | with_reducible refine frame_opEnter ?_ ?_
    | with_reducible refine frame_suspendTrim ?_ ?_
    | with_reducible refine frame_onOp ?_ ?_)

theorem frame_opSuspendCmd {L : List Part} {s0 s : State} {f : CmdFrame}  (hL : ([.chans, .engine, .events] : List Part) ⊆ L) (hF : Alters L s0 s) :
    Alters L s0 (opSuspendCmd.run f s).2 := by
  delta opSuspendCmd
  repeat (any_goals first
    | with_reducible assumption
    | exact List.Subset.trans (by decide) hL
    | split
    | with_reducible refine frame_suspendOp ?_ ?_
    | refine frame_pair (by with_reducible assumption) ?_
    | dsimp only)

theorem frame_resumeOp {L : List Part} {s0 s : State} {o : Op} (hL : ([.engine] : List Part) ⊆ L) (hF : Alters L s0 s) :
    Alters L s0 (resumeOp s o) := by
  delta resumeOp
  repeat (any_goals first
    | with_reducible assumption
    | exact List.Subset.trans (by decide) hL
    | (extract_lets +onlyGivenNames x; refine (have hx : Alters L s0 x := ?_; ?_); (on_goal 1 => subst x); (on_goal 2 => clear_value x))
    | (extract_lets +onlyGivenNames x; clear_value x)
    | split
    | with_reducible refine frame_onOp ?_ ?_)

theorem frame_opResumeCmd {L : List Part} {s0 s : State} {f : CmdFrame}  (hL : ([.engine] : List Part) ⊆ L) (hF : Alters L s0 s) :
    Alters L s0 (opResumeCmd.run f s).2 := by
  delta opResumeCmd
  repeat (any_goals first
    | with_reducible assumption
    | exact List.Subset.trans (by decide) hL
    | split
    | with_reducible refine frame_resumeOp ?_ ?_
    | refine frame_pair (by with_reducible assumption) ?_
    | dsimp only)

theorem frame_cancelOp {L : List Part} {s0 s : State} {o : Op} (hL : ([.tables, .chans, .mem, .engine, .seat, .events] : List Part) ⊆ L) (hF : Alters L s0 s) :
    Alters L s0 (cancelOp s o) := by
  delta cancelOp
  repeat (any_goals first
    | with_reducible assumption
    | exact List.Subset.trans (by decide) hL
    | split
    | with_reducible refine frame_onOp ?_ ?_
    | with_reducible refine frame_opRollback ?_ ?_)

theorem frame_opCancelCmd {L : List Part} {s0 s : State} {f : CmdFrame}  (hL : ([.tables, .chans, .mem, .engine, .seat, .events] : List Part) ⊆ L) (hF : Alters L s0 s) :
    Alters L s0 (opCancelCmd.run f s).2 := by
  delta opCancelCmd
  repeat (any_goals first
    | with_reducible assumption
    | exact List.Subset.trans (by decide) hL
    | split
    | with_reducible refine frame_cancelOp ?_ ?_
    | refine frame_pair (by with_reducible assumption) ?_
    | dsimp only)

theorem frame_execTrimStart {L : List Part} {s0 s : State} {f : CmdFrame} (hL : ([.free, .tables, .queues, .hands, .engine, .events, .dbg, .counters] : List Part) ⊆ L) (hF : Alters L s0 s) :
    Answers L s0 (execTrimStart f s) := by
  delta execTrimStart
  repeat (any_goals first
    | with_reducible assumption
    | exact List.Subset.trans (by decide) hL
    | (intro a x hx; beta_reduce)
    | (intro x hx; beta_reduce)
    | refine answers_next ?_
    | with_reducible refine frame_runCommand ?_ ?_ ?_
    | with_reducible refine frame_trimStartCmd ?_ ?_
    | dsimp only)

theorem frame_execTrimPoint {L : List Part} {s0 s : State} {f : CmdFrame} (hL : ([.free, .tables, .queues, .hands, .chans, .mem, .engine, .seat, .events, .dbg, .counters] : List Part) ⊆ L) (hF : Alters L s0 s) :
    Answers L s0 (execTrimPoint f s) := by
  delta execTrimPoint
  repeat (any_goals first
    | with_reducible assumption
    | exact List.Subset.trans (by decide) hL
    | (intro a x hx; beta_reduce)
    | (intro x hx; beta_reduce)
    | refine answers_next ?_
    | with_reducible refine frame_runCommand ?_ ?_ ?_
    | with_reducible refine frame_trimPointCmd ?_ ?_
    | dsimp only)

theorem frame_execTrimCommit {L : List Part} {s0 s : State} {f : CmdFrame} (hL : ([.free, .tables, .queues, .hands, .engine, .events, .dbg, .counters] : List Part) ⊆ L) (hF : Alters L s0 s) :
    Answers L s0 (execTrimCommit f s) := by
  delta execTrimCommit
  repeat (any_goals first
    | with_reducible assumption
    | exact List.Subset.trans (by decide) hL
    | (intro a x hx; beta_reduce)
    | (intro x hx; beta_reduce)
    | refine answers_next ?_
    | with_reducible refine frame_runCommand ?_ ?_ ?_
    | with_reducible refine frame_trimCommitCmd ?_ ?_
    | dsimp only)

theorem frame_execCurveLoad {L : List Part} {s0 s : State} {f : CmdFrame} (hL : ([.free, .tables, .queues, .hands, .engine, .events, .dbg, .counters] : List Part) ⊆ L) (hF : Alters L s0 s) :
    Answers L s0 (execCurveLoad f s) := by
  delta execCurveLoad
  repeat (any_goals first
    | with_reducible assumption
    | exact List.Subset.trans (by decide) hL
    | (intro a x hx; beta_reduce)
    | (intro x hx; beta_reduce)
    | refine answers_next ?_
    | with_reducible refine frame_runCommand ?_ ?_ ?_
    | with_reducible refine frame_curveLoadCmd ?_ ?_
    | dsimp only)

theorem frame_execMemRepair {L : List Part} {s0 s : State} {f : CmdFrame} (hL : ([.free, .tables, .queues, .hands, .engine, .events, .dbg, .counters] : List Part) ⊆ L) (hF : Alters L s0 s) :
    Answers L s0 (execMemRepair f s) := by
  delta execMemRepair
  repeat (any_goals first
    | with_reducible assumption
    | exact List.Subset.trans (by decide) hL
    | (intro a x hx; beta_reduce)
    | (intro x hx; beta_reduce)
    | refine answers_next ?_
    | with_reducible refine frame_runCommand ?_ ?_ ?_
    | with_reducible refine frame_memRepairCmd ?_ ?_
    | dsimp only)

theorem frame_execMemSweep {L : List Part} {s0 s : State} {f : CmdFrame} (hL : ([.free, .tables, .queues, .hands, .engine, .events, .dbg, .counters] : List Part) ⊆ L) (hF : Alters L s0 s) :
    Answers L s0 (execMemSweep f s) := by
  delta execMemSweep
  repeat (any_goals first
    | with_reducible assumption
    | exact List.Subset.trans (by decide) hL
    | (intro a x hx; beta_reduce)
    | (intro x hx; beta_reduce)
    | refine answers_next ?_
    | with_reducible refine frame_runCommand ?_ ?_ ?_
    | with_reducible refine frame_memSweepCmd ?_ ?_
    | dsimp only)

theorem frame_execTwinMirror {L : List Part} {s0 s : State} {f : CmdFrame} (hL : ([.free, .tables, .queues, .hands, .engine, .events, .dbg, .counters] : List Part) ⊆ L) (hF : Alters L s0 s) :
    Answers L s0 (execTwinMirror f s) := by
  delta execTwinMirror
  repeat (any_goals first
    | with_reducible assumption
    | exact List.Subset.trans (by decide) hL
    | (intro a x hx; beta_reduce)
    | (intro x hx; beta_reduce)
    | refine answers_next ?_
    | with_reducible refine frame_runCommand ?_ ?_ ?_
    | with_reducible refine frame_twinMirrorCmd ?_ ?_
    | dsimp only)

theorem frame_execTwinRelease {L : List Part} {s0 s : State} {f : CmdFrame} (hL : ([.free, .tables, .queues, .hands, .engine, .seat, .events, .dbg, .counters] : List Part) ⊆ L) (hF : Alters L s0 s) :
    Answers L s0 (execTwinRelease f s) := by
  delta execTwinRelease
  repeat (any_goals first
    | with_reducible assumption
    | exact List.Subset.trans (by decide) hL
    | (intro a x hx; beta_reduce)
    | (intro x hx; beta_reduce)
    | refine answers_next ?_
    | with_reducible refine frame_runCommand ?_ ?_ ?_
    | with_reducible refine frame_twinReleaseCmd ?_ ?_
    | dsimp only)

theorem frame_execOpStatus {L : List Part} {s0 s : State} {f : CmdFrame} (hL : ([.free, .tables, .queues, .hands, .engine, .events, .dbg, .counters] : List Part) ⊆ L) (hF : Alters L s0 s) :
    Answers L s0 (execOpStatus f s) := by
  delta execOpStatus
  repeat (any_goals first
    | with_reducible assumption
    | exact List.Subset.trans (by decide) hL
    | (intro a x hx; beta_reduce)
    | (intro x hx; beta_reduce)
    | refine answers_next ?_
    | with_reducible refine frame_runCommand ?_ ?_ ?_
    | with_reducible refine frame_opStatusCmd ?_ ?_
    | dsimp only)

theorem frame_execOpSuspend {L : List Part} {s0 s : State} {f : CmdFrame} (hL : ([.free, .tables, .queues, .hands, .chans, .engine, .events, .dbg, .counters] : List Part) ⊆ L) (hF : Alters L s0 s) :
    Answers L s0 (execOpSuspend f s) := by
  delta execOpSuspend
  repeat (any_goals first
    | with_reducible assumption
    | exact List.Subset.trans (by decide) hL
    | (intro a x hx; beta_reduce)
    | (intro x hx; beta_reduce)
    | refine answers_next ?_
    | with_reducible refine frame_runCommand ?_ ?_ ?_
    | with_reducible refine frame_opSuspendCmd ?_ ?_
    | dsimp only)

theorem frame_execOpResume {L : List Part} {s0 s : State} {f : CmdFrame} (hL : ([.free, .tables, .queues, .hands, .engine, .events, .dbg, .counters] : List Part) ⊆ L) (hF : Alters L s0 s) :
    Answers L s0 (execOpResume f s) := by
  delta execOpResume
  repeat (any_goals first
    | with_reducible assumption
    | exact List.Subset.trans (by decide) hL
    | (intro a x hx; beta_reduce)
    | (intro x hx; beta_reduce)
    | refine answers_next ?_
    | with_reducible refine frame_runCommand ?_ ?_ ?_
    | with_reducible refine frame_opResumeCmd ?_ ?_
    | dsimp only)

theorem frame_execOpCancel {L : List Part} {s0 s : State} {f : CmdFrame} (hL : ([.free, .tables, .queues, .hands, .chans, .mem, .engine, .seat, .events, .dbg, .counters] : List Part) ⊆ L) (hF : Alters L s0 s) :
    Answers L s0 (execOpCancel f s) := by
  delta execOpCancel
  repeat (any_goals first
    | with_reducible assumption
    | exact List.Subset.trans (by decide) hL
    | (intro a x hx; beta_reduce)
    | (intro x hx; beta_reduce)
    | refine answers_next ?_
    | with_reducible refine frame_runCommand ?_ ?_ ?_
    | with_reducible refine frame_opCancelCmd ?_ ?_
    | dsimp only)

end Sys2Proof.Laws
end

