-- ==== Sys2Proof/Laws/FrameWardCommands.lean ====
section
/-! SUPPORT. What each operation of Machine/WardCommands.lean may change: the parts of the state it names, and nothing else. -/

namespace Sys2Proof.Laws

open Sys2Proof Sys2Proof.Machine Sys2Proof.Safety

set_option linter.unusedTactic false
set_option linter.unreachableTactic false
set_option linter.unusedVariables false

theorem frame_wardSetCmd {L : List Part} {s0 s : State} {f : CmdFrame}  (hL : ([.engine, .vault] : List Part) ⊆ L) (hF : Alters L s0 s) :
    Alters L s0 (wardSetCmd.run f s).2 := by
  delta wardSetCmd
  repeat (any_goals first
    | with_reducible assumption
    | exact List.Subset.trans (by decide) hL
    | with_reducible refine frame_writeRun ?_ ?_
    | dsimp only)

theorem frame_wardReadCmd {L : List Part} {s0 s : State} {f : CmdFrame}  (hL : ([] : List Part) ⊆ L) (hF : Alters L s0 s) :
    Alters L s0 (wardReadCmd.run f s).2 := by
  delta wardReadCmd
  repeat (any_goals first
    | with_reducible assumption
    | exact List.Subset.trans (by decide) hL
    | dsimp only)

theorem frame_keySetCmd {L : List Part} {s0 s : State} {f : CmdFrame}  (hL : ([.engine, .vault] : List Part) ⊆ L) (hF : Alters L s0 s) :
    Alters L s0 (keySetCmd.run f s).2 := by
  delta keySetCmd
  repeat (any_goals first
    | with_reducible assumption
    | exact List.Subset.trans (by decide) hL
    | (extract_lets +onlyGivenNames x; refine (have hx : Alters L s0 x := ?_; ?_); (on_goal 1 => subst x); (on_goal 2 => clear_value x))
    | (extract_lets +onlyGivenNames x; refine (have hx : Alters L s0 x.2 := ?_; ?_); (on_goal 1 => subst x); (on_goal 2 => clear_value x))
    | (extract_lets +onlyGivenNames x; clear_value x)
    | split
    | with_reducible refine frame_State_onVault ?_ ?_
    | with_reducible refine frame_startWrite ?_ ?_
    | refine frame_pair (by with_reducible assumption) ?_
    | dsimp only)

theorem frame_dbgOpenCmd {L : List Part} {s0 s : State} {f : CmdFrame}  (hL : ([.events, .dbg] : List Part) ⊆ L) (hF : Alters L s0 s) :
    Alters L s0 (dbgOpenCmd.run f s).2 := by
  delta dbgOpenCmd
  repeat (any_goals first
    | with_reducible assumption
    | exact List.Subset.trans (by decide) hL
    | (extract_lets +onlyGivenNames x; refine (have hx : Alters L s0 x := ?_; ?_); (on_goal 1 => subst x); (on_goal 2 => clear_value x))
    | (extract_lets +onlyGivenNames x; refine (have hx : Alters L s0 x.2 := ?_; ?_); (on_goal 1 => subst x); (on_goal 2 => clear_value x))
    | (extract_lets +onlyGivenNames x; clear_value x)
    | with_reducible refine frame_State_onDebug ?_ ?_
    | with_reducible refine frame_raise ?_ ?_
    | dsimp only)

theorem frame_wardProposeCmd {L : List Part} {s0 s : State} {f : CmdFrame}  (hL : ([.engine] : List Part) ⊆ L) (hF : Alters L s0 s) :
    Alters L s0 (wardProposeCmd.run f s).2 := by
  delta wardProposeCmd
  repeat (any_goals first
    | with_reducible assumption
    | exact List.Subset.trans (by decide) hL
    | with_reducible refine frame_propose ?_ ?_
    | dsimp only)

theorem frame_countersigned {L : List Part} {s0 s : State} {c : Cmd} {f : CmdFrame} (hL : ([.straps, .chans, .engine, .vault, .seat, .events, .dbg] : List Part) ⊆ L)
    (hc : c ∈ countersigned) (hF : Alters L s0 s) : Alters L s0 (c.run f s).2 := by
  simp only [countersigned, List.mem_cons, List.not_mem_nil, or_false] at hc
  rcases hc with rfl | rfl | rfl | rfl | rfl | rfl | rfl | rfl | rfl | rfl | rfl
  · exact frame_chRestrapCmd (List.Subset.trans (by decide) hL) hF
  · exact frame_nodeRestrapCmd (List.Subset.trans (by decide) hL) hF
  · exact frame_nodeAdoptCmd (List.Subset.trans (by decide) hL) hF
  · exact frame_phyMaskCmd (List.Subset.trans (by decide) hL) hF
  · exact frame_trimCommitCmd (List.Subset.trans (by decide) hL) hF
  · exact frame_curveLoadCmd (List.Subset.trans (by decide) hL) hF
  · exact frame_memRepairCmd (List.Subset.trans (by decide) hL) hF
  · exact frame_twinReleaseCmd (List.Subset.trans (by decide) hL) hF
  · exact frame_wardSetCmd (List.Subset.trans (by decide) hL) hF
  · exact frame_keySetCmd (List.Subset.trans (by decide) hL) hF
  · exact frame_dbgOpenCmd (List.Subset.trans (by decide) hL) hF

theorem frame_runAwaited {L : List Part} {s0 s : State} {a : Await} (hL : ([.free, .straps, .queues, .chans, .engine, .vault, .seat, .events, .dbg] : List Part) ⊆ L) (hF : Alters L s0 s) :
    Alters L s0 (runAwaited s a) := by
  have hE : Alters L s0 (s.onEngine fun e => { e with awaiting := e.awaiting.filter fun x => x.f != a.f }) :=
    frame_State_onEngine (List.Subset.trans (by decide) hL) hF
  unfold runAwaited
  dsimp only
  generalize (s.onEngine fun e => { e with awaiting := e.awaiting.filter fun x => x.f != a.f }) = t at hE ⊢
  split
  · exact hE
  · next c hc =>
    have hr : Alters L s0 (c.run a.f t).2 :=
      frame_countersigned (List.Subset.trans (by decide) hL) (List.mem_of_find?_eq_some hc) hE
    split
    · exact frame_finalResponse (List.Subset.trans (by decide) hL) hE
    · split
      · next he => rw [he] at hr; exact frame_finalResponse (List.Subset.trans (by decide) hL) hr
      · next he => rw [he] at hr; exact hr

theorem frame_wardCountersignCmd {L : List Part} {s0 s : State} {f : CmdFrame}  (hL : ([.free, .straps, .queues, .chans, .engine, .vault, .seat, .events, .dbg] : List Part) ⊆ L) (hF : Alters L s0 s) :
    Alters L s0 (wardCountersignCmd.run f s).2 := by
  delta wardCountersignCmd
  repeat (any_goals first
    | with_reducible assumption
    | exact List.Subset.trans (by decide) hL
    | (extract_lets +onlyGivenNames x; refine (have hx : Alters L s0 x := ?_; ?_); (on_goal 1 => subst x); (on_goal 2 => clear_value x))
    | (extract_lets +onlyGivenNames x; refine (have hx : Alters L s0 x.2 := ?_; ?_); (on_goal 1 => subst x); (on_goal 2 => clear_value x))
    | (extract_lets +onlyGivenNames x; clear_value x)
    | split
    | with_reducible refine frame_runAwaited ?_ ?_
    | refine frame_pair (by with_reducible assumption) ?_
    | dsimp only)

theorem frame_execWardPropose {L : List Part} {s0 s : State} {f : CmdFrame} (hL : ([.free, .tables, .queues, .hands, .engine, .events, .dbg, .counters] : List Part) ⊆ L) (hF : Alters L s0 s) :
    Answers L s0 (execWardPropose f s) := by
  delta execWardPropose
  repeat (any_goals first
    | with_reducible assumption
    | exact List.Subset.trans (by decide) hL
    | (intro a x hx; beta_reduce)
    | (intro x hx; beta_reduce)
    | refine answers_next ?_
    | with_reducible refine frame_runCommand ?_ ?_ ?_
    | with_reducible refine frame_wardProposeCmd ?_ ?_
    | dsimp only)

theorem frame_execWardCountersign {L : List Part} {s0 s : State} {f : CmdFrame} (hL : ([.free, .straps, .tables, .queues, .hands, .chans, .engine, .vault, .seat, .events, .dbg, .counters] : List Part) ⊆ L) (hF : Alters L s0 s) :
    Answers L s0 (execWardCountersign f s) := by
  delta execWardCountersign
  repeat (any_goals first
    | with_reducible assumption
    | exact List.Subset.trans (by decide) hL
    | (intro a x hx; beta_reduce)
    | (intro x hx; beta_reduce)
    | refine answers_next ?_
    | with_reducible refine frame_runCommand ?_ ?_ ?_
    | with_reducible refine frame_wardCountersignCmd ?_ ?_
    | dsimp only)

theorem frame_execWardSet {L : List Part} {s0 s : State} {f : CmdFrame} (hL : ([.free, .tables, .queues, .hands, .engine, .vault, .events, .dbg, .counters] : List Part) ⊆ L) (hF : Alters L s0 s) :
    Answers L s0 (execWardSet f s) := by
  delta execWardSet
  repeat (any_goals first
    | with_reducible assumption
    | exact List.Subset.trans (by decide) hL
    | (intro a x hx; beta_reduce)
    | (intro x hx; beta_reduce)
    | refine answers_next ?_
    | with_reducible refine frame_runCommand ?_ ?_ ?_
    | with_reducible refine frame_wardSetCmd ?_ ?_
    | dsimp only)

theorem frame_execWardRead {L : List Part} {s0 s : State} {f : CmdFrame} (hL : ([.free, .tables, .queues, .hands, .engine, .events, .dbg, .counters] : List Part) ⊆ L) (hF : Alters L s0 s) :
    Answers L s0 (execWardRead f s) := by
  delta execWardRead
  repeat (any_goals first
    | with_reducible assumption
    | exact List.Subset.trans (by decide) hL
    | (intro a x hx; beta_reduce)
    | (intro x hx; beta_reduce)
    | refine answers_next ?_
    | with_reducible refine frame_runCommand ?_ ?_ ?_
    | with_reducible refine frame_wardReadCmd ?_ ?_
    | dsimp only)

theorem frame_execKeySet {L : List Part} {s0 s : State} {f : CmdFrame} (hL : ([.free, .tables, .queues, .hands, .engine, .vault, .events, .dbg, .counters] : List Part) ⊆ L) (hF : Alters L s0 s) :
    Answers L s0 (execKeySet f s) := by
  delta execKeySet
  repeat (any_goals first
    | with_reducible assumption
    | exact List.Subset.trans (by decide) hL
    | (intro a x hx; beta_reduce)
    | (intro x hx; beta_reduce)
    | refine answers_next ?_
    | with_reducible refine frame_runCommand ?_ ?_ ?_
    | with_reducible refine frame_keySetCmd ?_ ?_
    | dsimp only)

theorem frame_execDbgOpen {L : List Part} {s0 s : State} {f : CmdFrame} (hL : ([.free, .tables, .queues, .hands, .engine, .events, .dbg, .counters] : List Part) ⊆ L) (hF : Alters L s0 s) :
    Answers L s0 (execDbgOpen f s) := by
  delta execDbgOpen
  repeat (any_goals first
    | with_reducible assumption
    | exact List.Subset.trans (by decide) hL
    | (intro a x hx; beta_reduce)
    | (intro x hx; beta_reduce)
    | refine answers_next ?_
    | with_reducible refine frame_runCommand ?_ ?_ ?_
    | with_reducible refine frame_dbgOpenCmd ?_ ?_
    | dsimp only)

end Sys2Proof.Laws
end

