-- ==== Sys2Proof/Laws/FrameTwinSeat.lean ====
section
/-! SUPPORT. What each operation of Machine/TwinSeat.lean may change: the parts of the state it names, and nothing else. -/

namespace Sys2Proof.Laws

open Sys2Proof Sys2Proof.Machine Sys2Proof.Safety

set_option linter.unusedTactic false
set_option linter.unreachableTactic false
set_option linter.unusedVariables false

theorem frame_sendBlock {L : List Part} {s0 s : State}  (hL : ([.seat] : List Part) ⊆ L) (hF : Alters L s0 s) :
    Alters L s0 (sendBlock s) := by
  delta sendBlock
  repeat (any_goals first
    | with_reducible assumption
    | exact List.Subset.trans (by decide) hL
    | (extract_lets +onlyGivenNames x; refine (have hx : Alters L s0 x := ?_; ?_); (on_goal 1 => subst x); (on_goal 2 => clear_value x))
    | (extract_lets +onlyGivenNames x; clear_value x)
    | split
    | with_reducible refine frame_mirrorPut ?_ ?_
    | with_reducible refine frame_State_onSeat ?_ ?_)

theorem frame_mirrorBegin {L : List Part} {s0 s : State} {fresh : Bool} (hL : ([.seat] : List Part) ⊆ L) (hF : Alters L s0 s) :
    Alters L s0 (mirrorBegin s fresh) := by
  delta mirrorBegin
  repeat (any_goals first
    | with_reducible assumption
    | exact List.Subset.trans (by decide) hL
    | split
    | with_reducible refine frame_sendBlock ?_ ?_
    | with_reducible refine frame_State_onSeat ?_ ?_)

theorem frame_blockAcked {L : List Part} {s0 s : State} {n : Nat} (hL : ([.tables, .chans, .mem, .engine, .seat, .events] : List Part) ⊆ L) (hF : Alters L s0 s) :
    Alters L s0 (blockAcked s n) := by
  delta blockAcked
  repeat (any_goals first
    | with_reducible assumption
    | exact List.Subset.trans (by decide) hL
    | (extract_lets +onlyGivenNames x; refine (have hx : Alters L s0 x := ?_; ?_); (on_goal 1 => subst x); (on_goal 2 => clear_value x))
    | (extract_lets +onlyGivenNames x; clear_value x)
    | split
    | with_reducible refine frame_onOp ?_ ?_
    | with_reducible refine frame_State_onSeat ?_ ?_
    | with_reducible refine frame_opEnd ?_ ?_
    | with_reducible refine frame_opRollback ?_ ?_
    | with_reducible refine frame_opEnter ?_ ?_
    | with_reducible refine frame_sendBlock ?_ ?_)

theorem frame_mirrorValue {L : List Part} {s0 s : State} {n : Fin 24} {p : PendOut} (hL : ([.chans, .seat, .events] : List Part) ⊆ L) (hF : Alters L s0 s) :
    Alters L s0 (mirrorValue s n p) := by
  delta mirrorValue
  repeat (any_goals first
    | with_reducible assumption
    | exact List.Subset.trans (by decide) hL
    | (extract_lets +onlyGivenNames x; refine (have hx : Alters L s0 x := ?_; ?_); (on_goal 1 => subst x); (on_goal 2 => clear_value x))
    | (extract_lets +onlyGivenNames x; clear_value x)
    | split
    | with_reducible refine frame_State_onSeat ?_ ?_
    | with_reducible refine frame_applyOut ?_ ?_
    | with_reducible refine frame_State_onChan ?_ ?_)

theorem frame_mirrorStationsIn {L : List Part} {s0 s : State} {h : Fin 16} {b : List Byte} (hL : ([.hands] : List Part) ⊆ L) (hF : Alters L s0 s) :
    Alters L s0 (mirrorStationsIn s h b) := by
  delta mirrorStationsIn
  repeat (any_goals first
    | with_reducible assumption
    | exact List.Subset.trans (by decide) hL
    | (extract_lets +onlyGivenNames x; refine (have hx : Alters L s0 x := ?_; ?_); (on_goal 1 => subst x); (on_goal 2 => clear_value x))
    | (extract_lets +onlyGivenNames x; clear_value x)
    | split
    | with_reducible refine frame_State_onHand ?_ ?_)

theorem frame_mirrorWardIn {L : List Part} {s0 s : State} {h : Nat} {e : List Byte} (hL : ([.vault] : List Part) ⊆ L) (hF : Alters L s0 s) :
    Alters L s0 (mirrorWardIn s h e) := by
  delta mirrorWardIn
  repeat (any_goals first
    | with_reducible assumption
    | exact List.Subset.trans (by decide) hL
    | with_reducible refine frame_State_onVault ?_ ?_)

theorem frame_applyChange {L : List Part} {s0 s : State} {kind : Nat} {b : List Byte} (hL : ([.hands, .chans, .vault, .seat, .events] : List Part) ⊆ L) (hF : Alters L s0 s) :
    Alters L s0 (applyChange s kind b) := by
  delta applyChange
  repeat (any_goals first
    | with_reducible assumption
    | exact List.Subset.trans (by decide) hL
    | (extract_lets +onlyGivenNames x; refine (have hx : Alters L s0 x := ?_; ?_); (on_goal 1 => subst x); (on_goal 2 => clear_value x))
    | (extract_lets +onlyGivenNames x; clear_value x)
    | split
    | with_reducible refine frame_mirrorValue ?_ ?_
    | with_reducible refine frame_State_onChan ?_ ?_
    | with_reducible refine frame_mirrorStationsIn ?_ ?_
    | with_reducible refine frame_mirrorWardIn ?_ ?_)

theorem frame_compareStraps {L : List Part} {s0 s : State} {d : List Byte} (hL : ([.chans, .events] : List Part) ⊆ L) (hF : Alters L s0 s) :
    Alters L s0 (compareStraps s d) := by
  delta compareStraps
  repeat (any_goals first
    | with_reducible assumption
    | exact List.Subset.trans (by decide) hL
    | (intro a x hx; beta_reduce)
    | (intro x hx; beta_reduce)
    | (extract_lets +onlyGivenNames x; refine (have hx : Alters L s0 x := ?_; ?_); (on_goal 1 => subst x); (on_goal 2 => clear_value x))
    | (extract_lets +onlyGivenNames x; clear_value x)
    | split
    | with_reducible refine frame_each ?_ ?_
    | with_reducible refine frame_raise ?_ ?_
    | with_reducible refine frame_capChannel ?_ ?_
    | with_reducible refine frame_State_onChan ?_ ?_)

theorem frame_applyBlock41 {L : List Part} {s0 s : State} {e : Nat × List Byte} (hL : ([.hands, .chans, .vault, .seat, .events] : List Part) ⊆ L) (hF : Alters L s0 s) :
    Alters L s0 (applyBlock41 e s) := by
  delta applyBlock41
  repeat (any_goals first
    | with_reducible assumption
    | exact List.Subset.trans (by decide) hL
    | (extract_lets +onlyGivenNames x; refine (have hx : Alters L s0 x := ?_; ?_); (on_goal 1 => subst x); (on_goal 2 => clear_value x))
    | (extract_lets +onlyGivenNames x; clear_value x)
    | split
    | with_reducible refine frame_applyChange ?_ ?_
    | with_reducible refine frame_compareStraps ?_ ?_
    | with_reducible refine frame_mirrorWardIn ?_ ?_
    | with_reducible refine frame_mirrorStationsIn ?_ ?_
    | with_reducible refine frame_State_onChan ?_ ?_)

theorem frame_blockIn {L : List Part} {s0 s : State} {b : List Byte} (hL : ([.hands, .chans, .vault, .seat, .events] : List Part) ⊆ L) (hF : Alters L s0 s) :
    Alters L s0 (blockIn s b) := by
  delta blockIn
  repeat (any_goals first
    | with_reducible assumption
    | exact List.Subset.trans (by decide) hL
    | (intro a x hx; beta_reduce)
    | (intro x hx; beta_reduce)
    | (extract_lets +onlyGivenNames x; refine (have hx : Alters L s0 x := ?_; ?_); (on_goal 1 => subst x); (on_goal 2 => clear_value x))
    | (extract_lets +onlyGivenNames x; clear_value x)
    | split
    | with_reducible refine frame_each ?_ ?_
    | with_reducible refine frame_seatEnter ?_ ?_
    | with_reducible refine frame_State_onSeat ?_ ?_
    | with_reducible refine frame_mirrorPut ?_ ?_
    | with_reducible refine frame_applyBlock41 ?_ ?_)

theorem frame_mirrorIn {L : List Part} {s0 s : State} {kind : Nat} {b : List Byte} (hL : ([.tables, .hands, .chans, .mem, .engine, .vault, .seat, .events] : List Part) ⊆ L) (hF : Alters L s0 s) :
    Alters L s0 (mirrorIn s kind b) := by
  delta mirrorIn
  repeat (any_goals first
    | with_reducible assumption
    | exact List.Subset.trans (by decide) hL
    | split
    | with_reducible refine frame_blockIn ?_ ?_
    | with_reducible refine frame_blockAcked ?_ ?_
    | with_reducible refine frame_State_onSeat ?_ ?_
    | with_reducible refine frame_applyChange ?_ ?_)

theorem frame_mirrorMessages {L : List Part} {s0 s : State} {n : Nat} {bs : List Byte} (hL : ([.tables, .hands, .chans, .mem, .engine, .vault, .seat, .events] : List Part) ⊆ L)
    (hF : Alters L s0 s) : Alters L s0 (mirrorMessages n bs s) := by
  induction n generalizing s bs with
  | zero => exact hF
  | succ n ih =>
    unfold mirrorMessages
    dsimp only
    split
    · exact hF
    · refine ih ?_
      split
      · exact frame_mirrorIn (List.Subset.trans (by decide) hL) (frame_State_onSeat (List.Subset.trans (by decide) hL) hF)
      · exact hF

theorem frame_ackLast {L : List Part} {s0 s : State}  (hL : ([.seat] : List Part) ⊆ L) (hF : Alters L s0 s) :
    Alters L s0 (ackLast s) := by
  delta ackLast
  repeat (any_goals first
    | with_reducible assumption
    | exact List.Subset.trans (by decide) hL
    | split
    | with_reducible refine frame_mirrorPut ?_ ?_
    | with_reducible refine frame_State_onSeat ?_ ?_)

theorem frame_mirrorGone {L : List Part} {s0 s : State}  (hL : ([.chans, .seat, .events] : List Part) ⊆ L) (hF : Alters L s0 s) :
    Alters L s0 (mirrorGone s) := by
  delta mirrorGone
  repeat (any_goals first
    | with_reducible assumption
    | exact List.Subset.trans (by decide) hL
    | (extract_lets +onlyGivenNames x; refine (have hx : Alters L s0 x := ?_; ?_); (on_goal 1 => subst x); (on_goal 2 => clear_value x))
    | (extract_lets +onlyGivenNames x; clear_value x)
    | split
    | with_reducible refine frame_seatEnter ?_ ?_
    | with_reducible refine frame_State_onSeat ?_ ?_)

theorem frame_execSeatFrameSend {L : List Part} {s0 s : State}  (hL : ([.chans, .seat, .events] : List Part) ⊆ L) (hF : Alters L s0 s) :
    Answers L s0 (execSeatFrameSend s) := by
  delta execSeatFrameSend
  repeat (any_goals first
    | with_reducible assumption
    | exact List.Subset.trans (by decide) hL
    | (intro a x hx; beta_reduce)
    | (intro x hx; beta_reduce)
    | (extract_lets +onlyGivenNames x; refine (have hx : Alters L s0 x := ?_; ?_); (on_goal 1 => subst x); (on_goal 2 => clear_value x))
    | (extract_lets +onlyGivenNames x; clear_value x)
    | refine answers_next ?_
    | split
    | with_reducible refine frame_whenDue ?_ ?_
    | with_reducible refine frame_mirrorGone ?_ ?_
    | with_reducible refine frame_ackLast ?_ ?_
    | with_reducible refine frame_State_onSeat ?_ ?_)

theorem frame_train {L : List Part} {s0 s : State}  (hL : ([.tiers, .chans, .seat, .events] : List Part) ⊆ L) (hF : Alters L s0 s) :
    Alters L s0 (train s) := by
  delta train
  repeat (any_goals first
    | with_reducible assumption
    | exact List.Subset.trans (by decide) hL
    | (extract_lets +onlyGivenNames x; refine (have hx : Alters L s0 x := ?_; ?_); (on_goal 1 => subst x); (on_goal 2 => clear_value x))
    | (extract_lets +onlyGivenNames x; clear_value x)
    | split
    | with_reducible refine frame_State_onSeat ?_ ?_
    | with_reducible refine frame_seatEnter ?_ ?_
    | with_reducible refine frame_makeStranger ?_ ?_)

theorem frame_relock {L : List Part} {s0 s : State}  (hL : ([.chans, .seat, .events] : List Part) ⊆ L) (hF : Alters L s0 s) :
    Alters L s0 (relock s) := by
  delta relock
  repeat (any_goals first
    | with_reducible assumption
    | exact List.Subset.trans (by decide) hL
    | (extract_lets +onlyGivenNames x; refine (have hx : Alters L s0 x := ?_; ?_); (on_goal 1 => subst x); (on_goal 2 => clear_value x))
    | (extract_lets +onlyGivenNames x; clear_value x)
    | split
    | with_reducible refine frame_raise ?_ ?_
    | with_reducible refine frame_seatEnter ?_ ?_)

theorem frame_lockLink {L : List Part} {s0 s : State}  (hL : ([.chans, .seat, .events] : List Part) ⊆ L) (hF : Alters L s0 s) :
    Alters L s0 (lockLink s) := by
  delta lockLink
  repeat (any_goals first
    | with_reducible assumption
    | exact List.Subset.trans (by decide) hL
    | (extract_lets +onlyGivenNames x; refine (have hx : Alters L s0 x := ?_; ?_); (on_goal 1 => subst x); (on_goal 2 => clear_value x))
    | (extract_lets +onlyGivenNames x; clear_value x)
    | split
    | with_reducible refine frame_State_onSeat ?_ ?_
    | with_reducible refine frame_clearLatching ?_ ?_
    | with_reducible refine frame_relock ?_ ?_)

theorem frame_followPartner {L : List Part} {s0 s : State}  (hL : ([.tiers, .chans, .seat, .events] : List Part) ⊆ L) (hF : Alters L s0 s) :
    Alters L s0 (followPartner s) := by
  delta followPartner
  repeat (any_goals first
    | with_reducible assumption
    | exact List.Subset.trans (by decide) hL
    | (extract_lets +onlyGivenNames x; refine (have hx : Alters L s0 x := ?_; ?_); (on_goal 1 => subst x); (on_goal 2 => clear_value x))
    | (extract_lets +onlyGivenNames x; clear_value x)
    | split
    | with_reducible refine frame_train ?_ ?_
    | with_reducible refine frame_seatEnter ?_ ?_
    | with_reducible refine frame_State_onSeat ?_ ?_)

theorem frame_twinTime {L : List Part} {s0 s : State} {p : Partner} (hL : ([.events] : List Part) ⊆ L) (hF : Alters L s0 s) :
    Alters L s0 (twinTime s p) := by
  delta twinTime
  repeat (any_goals first
    | with_reducible assumption
    | exact List.Subset.trans (by decide) hL
    | (extract_lets +onlyGivenNames x; refine (have hx : Alters L s0 x := ?_; ?_); (on_goal 1 => subst x); (on_goal 2 => clear_value x))
    | (extract_lets +onlyGivenNames x; clear_value x)
    | split
    | with_reducible refine frame_raise ?_ ?_)

theorem frame_execSeatFrameReceive {L : List Part} {s0 s : State} {bytes : List Byte} (hL : ([.tiers, .tables, .hands, .chans, .mem, .engine, .vault, .seat, .events] : List Part) ⊆ L) (hF : Alters L s0 s) :
    Answers L s0 (execSeatFrameReceive bytes s) := by
  delta execSeatFrameReceive
  repeat (any_goals first
    | with_reducible assumption
    | exact List.Subset.trans (by decide) hL
    | (extract_lets +onlyGivenNames x; refine (have hx : Alters L s0 x := ?_; ?_); (on_goal 1 => subst x); (on_goal 2 => clear_value x))
    | (extract_lets +onlyGivenNames x; clear_value x)
    | refine answers_next ?_
    | split
    | with_reducible refine frame_State_onSeat ?_ ?_
    | with_reducible refine frame_lockLink ?_ ?_
    | with_reducible refine frame_followPartner ?_ ?_
    | with_reducible refine frame_mirrorMessages ?_ ?_
    | with_reducible refine frame_twinTime ?_ ?_)

theorem frame_mirrorFails {L : List Part} {s0 s : State}  (hL : ([.tables, .chans, .mem, .engine, .seat, .events] : List Part) ⊆ L) (hF : Alters L s0 s) :
    Alters L s0 (mirrorFails s) := by
  delta mirrorFails
  repeat (any_goals first
    | with_reducible assumption
    | exact List.Subset.trans (by decide) hL
    | (extract_lets +onlyGivenNames x; refine (have hx : Alters L s0 x := ?_; ?_); (on_goal 1 => subst x); (on_goal 2 => clear_value x))
    | (extract_lets +onlyGivenNames x; clear_value x)
    | with_reducible refine frame_endOps ?_ ?_
    | with_reducible refine frame_State_onSeat ?_ ?_)

theorem frame_releaseFails {L : List Part} {s0 s : State}  (hL : ([.free, .queues, .engine, .seat, .dbg] : List Part) ⊆ L) (hF : Alters L s0 s) :
    Alters L s0 (releaseFails s) := by
  delta releaseFails
  repeat (any_goals first
    | with_reducible assumption
    | exact List.Subset.trans (by decide) hL
    | split
    | with_reducible refine frame_finalResponse ?_ ?_
    | with_reducible refine frame_State_onSeat ?_ ?_)

theorem frame_execHeartbeatLoss {L : List Part} {s0 s : State}  (hL : ([.free, .tables, .queues, .chans, .mem, .engine, .seat, .events, .dbg] : List Part) ⊆ L) (hF : Alters L s0 s) :
    Answers L s0 (execHeartbeatLoss s) := by
  delta execHeartbeatLoss
  repeat (any_goals first
    | with_reducible assumption
    | exact List.Subset.trans (by decide) hL
    | (intro a x hx; beta_reduce)
    | (intro x hx; beta_reduce)
    | (extract_lets +onlyGivenNames x; refine (have hx : Alters L s0 x := ?_; ?_); (on_goal 1 => subst x); (on_goal 2 => clear_value x))
    | (extract_lets +onlyGivenNames x; clear_value x)
    | refine answers_next ?_
    | split
    | with_reducible refine frame_whenDue ?_ ?_
    | with_reducible refine frame_releaseFails ?_ ?_
    | with_reducible refine frame_mirrorFails ?_ ?_
    | with_reducible refine frame_State_onSeat ?_ ?_
    | with_reducible refine frame_raise ?_ ?_
    | with_reducible refine frame_seatEnter ?_ ?_)

theorem frame_execPairingWindowEnd {L : List Part} {s0 s : State}  (hL : ([.chans, .seat, .events] : List Part) ⊆ L) (hF : Alters L s0 s) :
    Answers L s0 (execPairingWindowEnd s) := by
  delta execPairingWindowEnd
  repeat (any_goals first
    | with_reducible assumption
    | exact List.Subset.trans (by decide) hL
    | (intro a x hx; beta_reduce)
    | (intro x hx; beta_reduce)
    | (extract_lets +onlyGivenNames x; refine (have hx : Alters L s0 x := ?_; ?_); (on_goal 1 => subst x); (on_goal 2 => clear_value x))
    | (extract_lets +onlyGivenNames x; clear_value x)
    | refine answers_next ?_
    | split
    | with_reducible refine frame_whenDue ?_ ?_
    | with_reducible refine frame_State_onSeat ?_ ?_
    | with_reducible refine frame_seatEnter ?_ ?_
    | with_reducible refine frame_raise ?_ ?_)

theorem frame_moveVoltage {L : List Part} {s0 s : State} {lead : Bool} (hL : ([.chans] : List Part) ⊆ L) (hF : Alters L s0 s) :
    Alters L s0 (moveVoltage s lead) := by
  delta moveVoltage
  repeat (any_goals first
    | with_reducible assumption
    | exact List.Subset.trans (by decide) hL
    | (intro a x hx; beta_reduce)
    | (intro x hx; beta_reduce)
    | (extract_lets +onlyGivenNames x; refine (have hx : Alters L s0 x := ?_; ?_); (on_goal 1 => subst x); (on_goal 2 => clear_value x))
    | (extract_lets +onlyGivenNames x; clear_value x)
    | split
    | with_reducible refine frame_each ?_ ?_
    | with_reducible refine frame_setDrive ?_ ?_)

theorem frame_execLeadChange {L : List Part} {s0 s : State}  (hL : ([.chans, .seat] : List Part) ⊆ L) (hF : Alters L s0 s) :
    Answers L s0 (execLeadChange s) := by
  delta execLeadChange
  repeat (any_goals first
    | with_reducible assumption
    | exact List.Subset.trans (by decide) hL
    | (intro a x hx; beta_reduce)
    | (intro x hx; beta_reduce)
    | (extract_lets +onlyGivenNames x; refine (have hx : Alters L s0 x := ?_; ?_); (on_goal 1 => subst x); (on_goal 2 => clear_value x))
    | (extract_lets +onlyGivenNames x; clear_value x)
    | refine answers_next ?_
    | with_reducible refine frame_whenDue ?_ ?_
    | with_reducible refine frame_State_onSeat ?_ ?_
    | with_reducible refine frame_State_mapChans ?_ ?_
    | with_reducible refine frame_moveVoltage ?_ ?_)

theorem frame_execShuntCatch {L : List Part} {s0 s : State} {ch : Fin 24} (hL : ([.chans] : List Part) ⊆ L) (hF : Alters L s0 s) :
    Answers L s0 (execShuntCatch ch s) := by
  delta execShuntCatch
  repeat (any_goals first
    | with_reducible assumption
    | exact List.Subset.trans (by decide) hL
    | (intro a x hx; beta_reduce)
    | (intro x hx; beta_reduce)
    | (extract_lets +onlyGivenNames x; refine (have hx : Alters L s0 x := ?_; ?_); (on_goal 1 => subst x); (on_goal 2 => clear_value x))
    | (extract_lets +onlyGivenNames x; clear_value x)
    | refine answers_next ?_
    | split
    | with_reducible refine frame_whenDue ?_ ?_
    | with_reducible refine frame_State_onChan ?_ ?_
    | with_reducible refine frame_setFrontEnd ?_ ?_)

theorem frame_execTakeoverTrip {L : List Part} {s0 s : State} {ch : Fin 24} (hL : ([.chans, .events] : List Part) ⊆ L) (hF : Alters L s0 s) :
    Answers L s0 (execTakeoverTrip ch s) := by
  delta execTakeoverTrip
  repeat (any_goals first
    | with_reducible assumption
    | exact List.Subset.trans (by decide) hL
    | (intro a x hx; beta_reduce)
    | (intro x hx; beta_reduce)
    | refine answers_next ?_
    | with_reducible refine frame_whenDue ?_ ?_
    | with_reducible refine frame_raise ?_ ?_
    | with_reducible refine frame_setDrive ?_ ?_)

theorem frame_takeTarget {L : List Part} {s0 s : State} {n : Fin 24} (hL : ([.chans] : List Part) ⊆ L) (hF : Alters L s0 s) :
    Alters L s0 (takeTarget s n) := by
  delta takeTarget
  repeat (any_goals first
    | with_reducible assumption
    | exact List.Subset.trans (by decide) hL
    | split
    | with_reducible refine frame_State_onChan ?_ ?_)

theorem frame_handbackOne {L : List Part} {s0 s : State} {n : Fin 24} (hL : ([.chans] : List Part) ⊆ L) (hF : Alters L s0 s) :
    Alters L s0 (handbackOne n s) := by
  delta handbackOne
  repeat (any_goals first
    | with_reducible assumption
    | exact List.Subset.trans (by decide) hL
    | (extract_lets +onlyGivenNames x; refine (have hx : Alters L s0 x := ?_; ?_); (on_goal 1 => subst x); (on_goal 2 => clear_value x))
    | (extract_lets +onlyGivenNames x; clear_value x)
    | split
    | with_reducible refine frame_takeTarget ?_ ?_
    | with_reducible refine frame_driveShell ?_ ?_
    | with_reducible refine frame_State_onChan ?_ ?_
    | with_reducible refine frame_setDrive ?_ ?_)

theorem frame_handbackDone {L : List Part} {s0 s : State} {n : Fin 24} (hL : ([.chans, .seat] : List Part) ⊆ L) (hF : Alters L s0 s) :
    Alters L s0 (handbackDone n s) := by
  delta handbackDone
  repeat (any_goals first
    | with_reducible assumption
    | exact List.Subset.trans (by decide) hL
    | split
    | with_reducible refine frame_setDrive ?_ ?_
    | with_reducible refine frame_State_onSeat ?_ ?_)

theorem frame_execHandback {L : List Part} {s0 s : State}  (hL : ([.chans, .seat] : List Part) ⊆ L) (hF : Alters L s0 s) :
    Answers L s0 (execHandback s) := by
  delta execHandback
  repeat (any_goals first
    | with_reducible assumption
    | exact List.Subset.trans (by decide) hL
    | (intro a x hx; beta_reduce)
    | (intro x hx; beta_reduce)
    | (extract_lets +onlyGivenNames x; refine (have hx : Alters L s0 x := ?_; ?_); (on_goal 1 => subst x); (on_goal 2 => clear_value x))
    | (extract_lets +onlyGivenNames x; clear_value x)
    | refine answers_next ?_
    | split
    | with_reducible refine frame_whenDue ?_ ?_
    | with_reducible refine frame_each ?_ ?_
    | with_reducible refine frame_handbackDone ?_ ?_
    | with_reducible refine frame_handbackOne ?_ ?_)

theorem frame_resendBlock {L : List Part} {s0 s : State}  (hL : ([.seat] : List Part) ⊆ L) (hF : Alters L s0 s) :
    Alters L s0 (resendBlock s) := by
  delta resendBlock
  repeat (any_goals first
    | with_reducible assumption
    | exact List.Subset.trans (by decide) hL
    | (extract_lets +onlyGivenNames x; refine (have hx : Alters L s0 x := ?_; ?_); (on_goal 1 => subst x); (on_goal 2 => clear_value x))
    | (extract_lets +onlyGivenNames x; clear_value x)
    | split
    | with_reducible refine frame_sendBlock ?_ ?_)

theorem frame_execMirrorResend {L : List Part} {s0 s : State}  (hL : ([.seat] : List Part) ⊆ L) (hF : Alters L s0 s) :
    Answers L s0 (execMirrorResend s) := by
  delta execMirrorResend
  repeat (any_goals first
    | with_reducible assumption
    | exact List.Subset.trans (by decide) hL
    | (intro a x hx; beta_reduce)
    | (intro x hx; beta_reduce)
    | refine answers_next ?_
    | with_reducible refine frame_whenDue ?_ ?_
    | with_reducible refine frame_resendBlock ?_ ?_
    | with_reducible refine frame_State_onSeat ?_ ?_)

theorem frame_execSeatRecordRewrite {L : List Part} {s0 s : State}  (hL : ([.vault] : List Part) ⊆ L) (hF : Alters L s0 s) :
    Answers L s0 (execSeatRecordRewrite s) := by
  delta execSeatRecordRewrite
  repeat (any_goals first
    | with_reducible assumption
    | exact List.Subset.trans (by decide) hL
    | (intro a x hx; beta_reduce)
    | (intro x hx; beta_reduce)
    | (extract_lets +onlyGivenNames x; refine (have hx : Alters L s0 x := ?_; ?_); (on_goal 1 => subst x); (on_goal 2 => clear_value x))
    | (extract_lets +onlyGivenNames x; clear_value x)
    | refine answers_next ?_
    | with_reducible refine frame_whenDue ?_ ?_
    | with_reducible refine frame_State_onVault ?_ ?_)

theorem frame_execReleaseComplete {L : List Part} {s0 s : State}  (hL : ([.free, .queues, .chans, .engine, .seat, .events, .dbg] : List Part) ⊆ L) (hF : Alters L s0 s) :
    Answers L s0 (execReleaseComplete s) := by
  delta execReleaseComplete
  repeat (any_goals first
    | with_reducible assumption
    | exact List.Subset.trans (by decide) hL
    | (intro a x hx; beta_reduce)
    | (intro x hx; beta_reduce)
    | (extract_lets +onlyGivenNames x; refine (have hx : Alters L s0 x := ?_; ?_); (on_goal 1 => subst x); (on_goal 2 => clear_value x))
    | (extract_lets +onlyGivenNames x; clear_value x)
    | refine answers_next ?_
    | split
    | with_reducible refine frame_whenDue ?_ ?_
    | with_reducible refine frame_seatEnter ?_ ?_
    | with_reducible refine frame_State_onSeat ?_ ?_
    | with_reducible refine frame_finalResponse ?_ ?_)

end Sys2Proof.Laws
end

