-- ==== Sys2Proof/Laws/FrameLongOps.lean ====
section
/-! SUPPORT. What each operation of Machine/LongOps.lean may change: the parts of the state it names, and nothing else. -/

namespace Sys2Proof.Laws

open Sys2Proof Sys2Proof.Machine Sys2Proof.Safety

set_option linter.unusedTactic false
set_option linter.unreachableTactic false
set_option linter.unusedVariables false

theorem frame_startSound {L : List Part} {s0 s : State} {p : Port} {handle : Nat} (hL : ([.portA, .portB, .tables, .engine, .events] : List Part) ⊆ L) (hF : Alters L s0 s) :
    Alters L s0 (startSound s p handle) := by
  delta startSound
  repeat (any_goals first
    | with_reducible assumption
    | exact List.Subset.trans (by decide) hL
    | split
    | with_reducible refine frame_resound ?_ ?_
    | with_reducible refine frame_State_onPort ?_ ?_
    | with_reducible refine frame_opEnd ?_ ?_)

theorem frame_startTrim {L : List Part} {s0 s : State} {o : Op} {n : Fin 24} (hL : ([.free, .tables, .chans, .mem, .engine, .seat, .events] : List Part) ⊆ L) (hF : Alters L s0 s) :
    Alters L s0 (startTrim s o n) := by
  delta startTrim
  repeat (any_goals first
    | with_reducible assumption
    | exact List.Subset.trans (by decide) hL
    | (extract_lets +onlyGivenNames x; refine (have hx : Alters L s0 x := ?_; ?_); (on_goal 1 => subst x); (on_goal 2 => clear_value x))
    | (extract_lets +onlyGivenNames x; clear_value x)
    | split
    | with_reducible refine frame_dropPending ?_ ?_
    | with_reducible refine frame_onOp ?_ ?_
    | with_reducible refine frame_trimCompute ?_ ?_
    | with_reducible refine frame_drivePoint ?_ ?_)

theorem frame_commitTrim {L : List Part} {s0 s : State} {o : Op} {n : Fin 24} {f : CmdFrame} (hL : ([.engine, .vault] : List Part) ⊆ L) (hF : Alters L s0 s) :
    Alters L s0 (commitTrim s o n f) := by
  delta commitTrim
  repeat (any_goals first
    | with_reducible assumption
    | exact List.Subset.trans (by decide) hL
    | with_reducible refine frame_startWrite ?_ ?_)

theorem frame_resumeTrim {L : List Part} {s0 s : State} {o : Op} {n : Fin 24} (hL : ([.chans, .engine] : List Part) ⊆ L) (hF : Alters L s0 s) :
    Alters L s0 (resumeTrim s o n) := by
  delta resumeTrim
  repeat (any_goals first
    | with_reducible assumption
    | exact List.Subset.trans (by decide) hL
    | (extract_lets +onlyGivenNames x; refine (have hx : Alters L s0 x := ?_; ?_); (on_goal 1 => subst x); (on_goal 2 => clear_value x))
    | (extract_lets +onlyGivenNames x; clear_value x)
    | split
    | with_reducible refine frame_drivePoint ?_ ?_
    | with_reducible refine frame_onOp ?_ ?_)

theorem frame_startCurve {L : List Part} {s0 s : State} {o : Op} {slot : Fin 16} (hL : ([.engine, .vault, .events] : List Part) ⊆ L) (hF : Alters L s0 s) :
    Alters L s0 (startCurve s o slot) := by
  delta startCurve
  repeat (any_goals first
    | with_reducible assumption
    | exact List.Subset.trans (by decide) hL
    | (extract_lets +onlyGivenNames x; refine (have hx : Alters L s0 x := ?_; ?_); (on_goal 1 => subst x); (on_goal 2 => clear_value x))
    | (extract_lets +onlyGivenNames x; clear_value x)
    | split
    | with_reducible refine frame_opEnd ?_ ?_
    | with_reducible refine frame_onOp ?_ ?_
    | with_reducible refine frame_State_onVault ?_ ?_)

theorem frame_writeRepair {L : List Part} {s0 s : State} {o : Op} {b : Fin 64} {row : Nat} {spare : Nat} (hL : ([.engine, .vault, .events] : List Part) ⊆ L) (hF : Alters L s0 s) :
    Alters L s0 (writeRepair s o b row spare) := by
  delta writeRepair
  repeat (any_goals first
    | with_reducible assumption
    | exact List.Subset.trans (by decide) hL
    | (extract_lets +onlyGivenNames x; refine (have hx : Alters L s0 x := ?_; ?_); (on_goal 1 => subst x); (on_goal 2 => clear_value x))
    | (extract_lets +onlyGivenNames x; clear_value x)
    | split
    | with_reducible refine frame_opEnd ?_ ?_
    | with_reducible refine frame_onOp ?_ ?_
    | with_reducible refine frame_State_onVault ?_ ?_)

theorem frame_repairStep {L : List Part} {s0 s : State} {o : Op} {b : Fin 64} {row : Nat} {spare : Nat} (hL : ([.engine, .vault, .events] : List Part) ⊆ L) (hF : Alters L s0 s) :
    Alters L s0 (repairStep s o b row spare) := by
  delta repairStep
  repeat (any_goals first
    | with_reducible assumption
    | exact List.Subset.trans (by decide) hL
    | (extract_lets +onlyGivenNames x; refine (have hx : Alters L s0 x := ?_; ?_); (on_goal 1 => subst x); (on_goal 2 => clear_value x))
    | (extract_lets +onlyGivenNames x; clear_value x)
    | split
    | with_reducible refine frame_writeRepair ?_ ?_
    | with_reducible refine frame_onOp ?_ ?_)

theorem frame_startRepair {L : List Part} {s0 s : State} {o : Op} {b : Fin 64} (hL : ([.mem, .engine, .vault, .events, .counters] : List Part) ⊆ L) (hF : Alters L s0 s) :
    Alters L s0 (startRepair s o b) := by
  have m_mem : Part.mem ∈ L := hL (by decide)
  delta startRepair
  repeat (any_goals first
    | with_reducible assumption
    | exact List.Subset.trans (by decide) hL
    | (extract_lets +onlyGivenNames x; refine (have hx : Alters L s0 x := ?_; ?_); (on_goal 1 => subst x); (on_goal 2 => clear_value x))
    | (extract_lets +onlyGivenNames x; clear_value x)
    | split
    | with_reducible refine frame_opEnd ?_ ?_
    | with_reducible refine frame_repairStep ?_ ?_
    | with_reducible refine frame_raise ?_ ?_
    | with_reducible refine frame_bump ?_ ?_
    | with_reducible refine frame_onOp ?_ ?_
    | simp only [frame_mk_mem m_mem])

theorem frame_startMirror {L : List Part} {s0 s : State} {o : Op} {fresh : Bool} (hL : ([.tables, .chans, .mem, .engine, .seat, .events] : List Part) ⊆ L) (hF : Alters L s0 s) :
    Alters L s0 (startMirror s o fresh) := by
  delta startMirror
  repeat (any_goals first
    | with_reducible assumption
    | exact List.Subset.trans (by decide) hL
    | (extract_lets +onlyGivenNames x; refine (have hx : Alters L s0 x := ?_; ?_); (on_goal 1 => subst x); (on_goal 2 => clear_value x))
    | (extract_lets +onlyGivenNames x; clear_value x)
    | split
    | with_reducible refine frame_mirrorBegin ?_ ?_
    | with_reducible refine frame_opRollback ?_ ?_)

theorem frame_opStart {L : List Part} {s0 s : State} {o : Op} (hL : ([.free, .portA, .portB, .tables, .chans, .mem, .engine, .vault, .seat, .events, .counters] : List Part) ⊆ L) (hF : Alters L s0 s) :
    Alters L s0 (opStart s o) := by
  delta opStart
  repeat (any_goals first
    | with_reducible assumption
    | exact List.Subset.trans (by decide) hL
    | (extract_lets +onlyGivenNames x; refine (have hx : Alters L s0 x := ?_; ?_); (on_goal 1 => subst x); (on_goal 2 => clear_value x))
    | (extract_lets +onlyGivenNames x; clear_value x)
    | split
    | with_reducible refine frame_opEnter ?_ ?_
    | with_reducible refine frame_onOp ?_ ?_
    | with_reducible refine frame_startSound ?_ ?_
    | with_reducible refine frame_commitTrim ?_ ?_
    | with_reducible refine frame_resumeTrim ?_ ?_
    | with_reducible refine frame_startTrim ?_ ?_
    | with_reducible refine frame_startCurve ?_ ?_
    | with_reducible refine frame_startRepair ?_ ?_
    | with_reducible refine frame_State_onMem ?_ ?_
    | with_reducible refine frame_startMirror ?_ ?_)

theorem frame_opTry {L : List Part} {s0 s : State} {handle : Nat} (hL : ([.free, .portA, .portB, .tables, .chans, .mem, .engine, .vault, .seat, .events, .counters] : List Part) ⊆ L) (hF : Alters L s0 s) :
    Alters L s0 (opTry handle s) := by
  delta opTry
  repeat (any_goals first
    | with_reducible assumption
    | exact List.Subset.trans (by decide) hL
    | (extract_lets +onlyGivenNames x; refine (have hx : Alters L s0 x := ?_; ?_); (on_goal 1 => subst x); (on_goal 2 => clear_value x))
    | (extract_lets +onlyGivenNames x; clear_value x)
    | split
    | with_reducible refine frame_opStart ?_ ?_
    | with_reducible refine frame_onOp ?_ ?_)

theorem frame_execOpStart {L : List Part} {s0 s : State} {handle : BitVec 16} (hL : ([.free, .portA, .portB, .tables, .chans, .mem, .engine, .vault, .seat, .events, .counters] : List Part) ⊆ L) (hF : Alters L s0 s) :
    Answers L s0 (execOpStart handle s) := by
  delta execOpStart
  repeat (any_goals first
    | with_reducible assumption
    | exact List.Subset.trans (by decide) hL
    | (intro a x hx; beta_reduce)
    | (intro x hx; beta_reduce)
    | refine answers_next ?_
    | with_reducible refine frame_whenDue ?_ ?_
    | with_reducible refine frame_opTry ?_ ?_)

theorem frame_startWardWrite {L : List Part} {s0 s : State} {e : Nat × List Byte} (hL : ([.vault] : List Part) ⊆ L) (hF : Alters L s0 s) :
    Alters L s0 (startWardWrite e s) := by
  delta startWardWrite
  repeat (any_goals first
    | with_reducible assumption
    | exact List.Subset.trans (by decide) hL
    | (extract_lets +onlyGivenNames x; refine (have hx : Alters L s0 x := ?_; ?_); (on_goal 1 => subst x); (on_goal 2 => clear_value x))
    | (extract_lets +onlyGivenNames x; clear_value x)
    | split
    | with_reducible refine frame_State_onVault ?_ ?_)

theorem frame_execEnergyCheck {L : List Part} {s0 s : State}  (hL : ([.free, .portA, .portB, .tables, .chans, .mem, .engine, .vault, .seat, .events, .counters] : List Part) ⊆ L) (hF : Alters L s0 s) :
    Answers L s0 (execEnergyCheck s) := by
  delta execEnergyCheck
  repeat (any_goals first
    | with_reducible assumption
    | exact List.Subset.trans (by decide) hL
    | (intro a x hx; beta_reduce)
    | (intro x hx; beta_reduce)
    | (extract_lets +onlyGivenNames x; refine (have hx : Alters L s0 x := ?_; ?_); (on_goal 1 => subst x); (on_goal 2 => clear_value x))
    | (extract_lets +onlyGivenNames x; clear_value x)
    | refine answers_next ?_
    | split
    | with_reducible refine frame_whenDue ?_ ?_
    | with_reducible refine frame_each ?_ ?_
    | with_reducible refine frame_opTry ?_ ?_
    | with_reducible refine frame_startWardWrite ?_ ?_)

theorem frame_execOpSuspendTimeout {L : List Part} {s0 s : State} {handle : BitVec 16} (hL : ([.tables, .chans, .mem, .engine, .seat, .events] : List Part) ⊆ L) (hF : Alters L s0 s) :
    Answers L s0 (execOpSuspendTimeout handle s) := by
  delta execOpSuspendTimeout
  repeat (any_goals first
    | with_reducible assumption
    | exact List.Subset.trans (by decide) hL
    | (intro a x hx; beta_reduce)
    | (intro x hx; beta_reduce)
    | refine answers_next ?_
    | split
    | with_reducible refine frame_whenDue ?_ ?_
    | with_reducible refine frame_opRollback ?_ ?_)

theorem frame_execOpRecordFree {L : List Part} {s0 s : State} {handle : BitVec 16} (hL : ([.engine] : List Part) ⊆ L) (hF : Alters L s0 s) :
    Answers L s0 (execOpRecordFree handle s) := by
  delta execOpRecordFree
  repeat (any_goals first
    | with_reducible assumption
    | exact List.Subset.trans (by decide) hL
    | (intro a x hx; beta_reduce)
    | (intro x hx; beta_reduce)
    | refine answers_next ?_
    | split
    | with_reducible refine frame_whenDue ?_ ?_
    | with_reducible refine frame_State_onEngine ?_ ?_)

end Sys2Proof.Laws
end

