-- ==== Sys2Proof/Laws/FrameDebugPort.lean ====
section
/-! SUPPORT. What each operation of Machine/DebugPort.lean may change: the parts of the state it names, and nothing else. -/

namespace Sys2Proof.Laws

open Sys2Proof Sys2Proof.Machine Sys2Proof.Safety

set_option linter.unusedTactic false
set_option linter.unreachableTactic false
set_option linter.unusedVariables false

theorem frame_execTapReset {L : List Part} {s0 s : State}  (hL : ([.dbg] : List Part) ⊆ L) (hF : Alters L s0 s) :
    Answers L s0 (execTapReset s) := by
  delta execTapReset
  repeat (any_goals first
    | with_reducible assumption
    | exact List.Subset.trans (by decide) hL
    | (intro a x hx; beta_reduce)
    | (intro x hx; beta_reduce)
    | refine answers_next ?_
    | with_reducible refine frame_whenDue ?_ ?_
    | with_reducible refine frame_State_onDebug ?_ ?_)

theorem frame_execExtest {L : List Part} {s0 s : State} {balls : BitVec 17} {drive : BitVec 17} (hL : ([.dbg] : List Part) ⊆ L) (hF : Alters L s0 s) :
    Answers L s0 (execExtest balls drive s) := by
  delta execExtest
  repeat (any_goals first
    | with_reducible assumption
    | exact List.Subset.trans (by decide) hL
    | (intro a x hx; beta_reduce)
    | (intro x hx; beta_reduce)
    | refine answers_next ?_
    | with_reducible refine frame_whenDue ?_ ?_
    | with_reducible refine frame_State_onDebug ?_ ?_)

theorem frame_execSamplePreload {L : List Part} {s0 s : State} {balls : BitVec 17} {preload : BitVec 17} (hL : ([.dbg] : List Part) ⊆ L) (hF : Alters L s0 s) :
    Answers L s0 (execSamplePreload balls preload s) := by
  delta execSamplePreload
  repeat (any_goals first
    | with_reducible assumption
    | exact List.Subset.trans (by decide) hL
    | (intro a x hx; beta_reduce)
    | (intro x hx; beta_reduce)
    | refine answers_next ?_
    | with_reducible refine frame_whenDue ?_ ?_
    | with_reducible refine frame_State_onDebug ?_ ?_)

theorem frame_execClamp {L : List Part} {s0 s : State}  (hL : ([.dbg] : List Part) ⊆ L) (hF : Alters L s0 s) :
    Answers L s0 (execClamp s) := by
  delta execClamp
  repeat (any_goals first
    | with_reducible assumption
    | exact List.Subset.trans (by decide) hL
    | (intro a x hx; beta_reduce)
    | (intro x hx; beta_reduce)
    | refine answers_next ?_
    | with_reducible refine frame_whenDue ?_ ?_
    | with_reducible refine frame_State_onDebug ?_ ?_)

theorem frame_execHighz {L : List Part} {s0 s : State}  (hL : ([.dbg] : List Part) ⊆ L) (hF : Alters L s0 s) :
    Answers L s0 (execHighz s) := by
  delta execHighz
  repeat (any_goals first
    | with_reducible assumption
    | exact List.Subset.trans (by decide) hL
    | (intro a x hx; beta_reduce)
    | (intro x hx; beta_reduce)
    | refine answers_next ?_
    | with_reducible refine frame_whenDue ?_ ?_
    | with_reducible refine frame_State_onDebug ?_ ?_)

theorem frame_dsResult {L : List Part} {s0 s : State} {r : Nat} (hL : ([.dbg] : List Part) ⊆ L) (hF : Alters L s0 s) :
    Alters L s0 (dsResult s r) := by
  delta dsResult
  repeat (any_goals first
    | with_reducible assumption
    | exact List.Subset.trans (by decide) hL
    | with_reducible refine frame_State_onDebug ?_ ?_)

theorem frame_haltUnits {L : List Part} {s0 s : State} {m : BitVec 16} {cause : Nat} (hL : ([.chans, .events, .dbg] : List Part) ⊆ L) (hF : Alters L s0 s) :
    Alters L s0 (haltUnits s m cause) := by
  delta haltUnits
  repeat (any_goals first
    | with_reducible assumption
    | exact List.Subset.trans (by decide) hL
    | (intro a x hx; beta_reduce)
    | (intro x hx; beta_reduce)
    | (extract_lets +onlyGivenNames x; refine (have hx : Alters L s0 x := ?_; ?_); (on_goal 1 => subst x); (on_goal 2 => clear_value x))
    | (extract_lets +onlyGivenNames x; clear_value x)
    | split
    | with_reducible refine frame_each ?_ ?_
    | with_reducible refine frame_State_onDebug ?_ ?_
    | with_reducible refine frame_staleBegin ?_ ?_
    | with_reducible refine frame_raise ?_ ?_)

theorem frame_queuesResume {L : List Part} {s0 s : State}  (hL : ([.streams] : List Part) ⊆ L) (hF : Alters L s0 s) :
    Alters L s0 (queuesResume s) := by
  have m_streams : Part.streams ∈ L := hL (by decide)
  delta queuesResume
  repeat (any_goals first
    | with_reducible assumption
    | exact List.Subset.trans (by decide) hL
    | (extract_lets +onlyGivenNames x; refine (have hx : Alters L s0 x := ?_; ?_); (on_goal 1 => subst x); (on_goal 2 => clear_value x))
    | (extract_lets +onlyGivenNames x; clear_value x)
    | simp only [frame_mk_streams m_streams])

theorem frame_engineResume {L : List Part} {s0 s : State}  (hL : ([.engine] : List Part) ⊆ L) (hF : Alters L s0 s) :
    Alters L s0 (engineResume s) := by
  delta engineResume
  repeat (any_goals first
    | with_reducible assumption
    | exact List.Subset.trans (by decide) hL
    | (extract_lets +onlyGivenNames x; refine (have hx : Alters L s0 x := ?_; ?_); (on_goal 1 => subst x); (on_goal 2 => clear_value x))
    | (extract_lets +onlyGivenNames x; clear_value x)
    | split
    | with_reducible refine frame_State_onEngine ?_ ?_)

theorem frame_backEndResume {L : List Part} {s0 s : State} {n : Fin 24} (hL : ([.tables, .chans, .mem, .engine, .seat, .events] : List Part) ⊆ L) (hF : Alters L s0 s) :
    Alters L s0 (backEndResume n s) := by
  delta backEndResume
  repeat (any_goals first
    | with_reducible assumption
    | exact List.Subset.trans (by decide) hL
    | (intro a x hx; beta_reduce)
    | (intro x hx; beta_reduce)
    | (extract_lets +onlyGivenNames x; refine (have hx : Alters L s0 x := ?_; ?_); (on_goal 1 => subst x); (on_goal 2 => clear_value x))
    | (extract_lets +onlyGivenNames x; refine (have hx : Alters L s0 x.2 := ?_; ?_); (on_goal 1 => subst x); (on_goal 2 => clear_value x))
    | (extract_lets +onlyGivenNames x; clear_value x)
    | split
    | with_reducible refine frame_staleEnd ?_ ?_
    | with_reducible refine frame_applyOut ?_ ?_
    | with_reducible refine frame_State_onChan ?_ ?_
    | with_reducible refine frame_startRekindle ?_ ?_
    | refine frame_pair (by with_reducible assumption) ?_
    | dsimp only)

theorem frame_runUnits {L : List Part} {s0 s : State} {m : BitVec 16} (hL : ([.tables, .streams, .chans, .mem, .engine, .seat, .events, .dbg] : List Part) ⊆ L) (hF : Alters L s0 s) :
    Alters L s0 (runUnits s m) := by
  delta runUnits
  repeat (any_goals first
    | with_reducible assumption
    | exact List.Subset.trans (by decide) hL
    | (intro a x hx; beta_reduce)
    | (intro x hx; beta_reduce)
    | (extract_lets +onlyGivenNames x; refine (have hx : Alters L s0 x := ?_; ?_); (on_goal 1 => subst x); (on_goal 2 => clear_value x))
    | (extract_lets +onlyGivenNames x; clear_value x)
    | split
    | with_reducible refine frame_each ?_ ?_
    | with_reducible refine frame_queuesResume ?_ ?_
    | with_reducible refine frame_engineResume ?_ ?_
    | with_reducible refine frame_State_onDebug ?_ ?_
    | with_reducible refine frame_backEndResume ?_ ?_)

theorem frame_resumeUnits {L : List Part} {s0 s : State} {m : BitVec 16} (hL : ([.tables, .streams, .chans, .mem, .engine, .seat, .events, .dbg] : List Part) ⊆ L) (hF : Alters L s0 s) :
    Alters L s0 (resumeUnits s m) := by
  delta resumeUnits
  repeat (any_goals first
    | with_reducible assumption
    | exact List.Subset.trans (by decide) hL
    | (extract_lets +onlyGivenNames x; refine (have hx : Alters L s0 x := ?_; ?_); (on_goal 1 => subst x); (on_goal 2 => clear_value x))
    | (extract_lets +onlyGivenNames x; clear_value x)
    | split
    | with_reducible refine frame_raise ?_ ?_
    | with_reducible refine frame_runUnits ?_ ?_)

theorem frame_stepTick {L : List Part} {s0 s : State}  (hL : ([.dbg] : List Part) ⊆ L) (hF : Alters L s0 s) :
    Alters L s0 (stepTick s) := by
  delta stepTick
  repeat (any_goals first
    | with_reducible assumption
    | exact List.Subset.trans (by decide) hL
    | split
    | with_reducible refine frame_State_onDebug ?_ ?_)

theorem frame_resumeDue {L : List Part} {s0 s : State}  (hL : ([.tables, .streams, .chans, .mem, .engine, .seat, .events, .dbg] : List Part) ⊆ L) (hF : Alters L s0 s) :
    Alters L s0 (resumeDue s) := by
  delta resumeDue
  repeat (any_goals first
    | with_reducible assumption
    | exact List.Subset.trans (by decide) hL
    | (extract_lets +onlyGivenNames x; refine (have hx : Alters L s0 x := ?_; ?_); (on_goal 1 => subst x); (on_goal 2 => clear_value x))
    | (extract_lets +onlyGivenNames x; clear_value x)
    | split
    | with_reducible refine frame_resumeUnits ?_ ?_
    | with_reducible refine frame_State_onDebug ?_ ?_
    | with_reducible refine frame_closeSession ?_ ?_)

theorem frame_haltDue {L : List Part} {s0 s : State}  (hL : ([.chans, .events, .dbg] : List Part) ⊆ L) (hF : Alters L s0 s) :
    Alters L s0 (haltDue s) := by
  delta haltDue
  repeat (any_goals first
    | with_reducible assumption
    | exact List.Subset.trans (by decide) hL
    | split
    | with_reducible refine frame_haltUnits ?_ ?_
    | with_reducible refine frame_State_onDebug ?_ ?_)

theorem frame_debugTick {L : List Part} {s0 s : State}  (hL : ([.tables, .streams, .chans, .mem, .engine, .seat, .events, .dbg] : List Part) ⊆ L) (hF : Alters L s0 s) :
    Alters L s0 (debugTick s) := by
  delta debugTick
  repeat (any_goals first
    | with_reducible assumption
    | exact List.Subset.trans (by decide) hL
    | (extract_lets +onlyGivenNames x; refine (have hx : Alters L s0 x := ?_; ?_); (on_goal 1 => subst x); (on_goal 2 => clear_value x))
    | (extract_lets +onlyGivenNames x; clear_value x)
    | split
    | with_reducible refine frame_stepTick ?_ ?_
    | with_reducible refine frame_haltDue ?_ ?_
    | with_reducible refine frame_resumeDue ?_ ?_)

theorem frame_dctrl {L : List Part} {s0 s : State} {r : BitVec 64} {op : Nat} {f : State → State} (hL : ([.dbg] : List Part) ⊆ L)
    (hf : ∀ x, Alters L s0 x → Alters L s0 (f x)) (hF : Alters L s0 s) : Alters L s0 (dctrl s r op f) := by
  delta dctrl
  repeat (any_goals first
    | with_reducible assumption
    | exact List.Subset.trans (by decide) hL
    | (extract_lets +onlyGivenNames x; refine (have hx : Alters L s0 x := ?_; ?_); (on_goal 1 => subst x); (on_goal 2 => clear_value x))
    | (extract_lets +onlyGivenNames x; clear_value x)
    | split
    | with_reducible refine hf _ ?_
    | with_reducible refine frame_State_onDebug ?_ ?_
    | with_reducible refine frame_dsResult ?_ ?_)

theorem frame_endStep {L : List Part} {s0 s : State}  (hL : ([.chans, .events, .dbg] : List Part) ⊆ L) (hF : Alters L s0 s) :
    Alters L s0 (endStep s) := by
  delta endStep
  repeat (any_goals first
    | with_reducible assumption
    | exact List.Subset.trans (by decide) hL
    | split
    | with_reducible refine frame_haltUnits ?_ ?_
    | with_reducible refine frame_State_onDebug ?_ ?_)

theorem frame_execDctrlHalt {L : List Part} {s0 s : State} {reg : BitVec 64} (hL : ([.chans, .events, .dbg] : List Part) ⊆ L) (hF : Alters L s0 s) :
    Answers L s0 (execDctrlHalt reg s) := by
  delta execDctrlHalt
  repeat (any_goals first
    | with_reducible assumption
    | exact List.Subset.trans (by decide) hL
    | (intro a x hx; beta_reduce)
    | (intro x hx; beta_reduce)
    | refine answers_next ?_
    | with_reducible refine frame_dctrl ?_ ?_ ?_
    | with_reducible refine frame_endStep ?_ ?_
    | with_reducible refine frame_State_onDebug ?_ ?_)

theorem frame_execDctrlResume {L : List Part} {s0 s : State} {reg : BitVec 64} (hL : ([.dbg] : List Part) ⊆ L) (hF : Alters L s0 s) :
    Answers L s0 (execDctrlResume reg s) := by
  delta execDctrlResume
  repeat (any_goals first
    | with_reducible assumption
    | exact List.Subset.trans (by decide) hL
    | (intro a x hx; beta_reduce)
    | (intro x hx; beta_reduce)
    | refine answers_next ?_
    | split
    | with_reducible refine frame_dctrl ?_ ?_ ?_
    | with_reducible refine frame_State_onDebug ?_ ?_)

theorem frame_execDctrlStep {L : List Part} {s0 s : State} {reg : BitVec 64} (hL : ([.tables, .streams, .chans, .mem, .engine, .seat, .events, .dbg] : List Part) ⊆ L) (hF : Alters L s0 s) :
    Answers L s0 (execDctrlStep reg s) := by
  delta execDctrlStep
  repeat (any_goals first
    | with_reducible assumption
    | exact List.Subset.trans (by decide) hL
    | (intro a x hx; beta_reduce)
    | (intro x hx; beta_reduce)
    | (extract_lets +onlyGivenNames x; refine (have hx : Alters L s0 x := ?_; ?_); (on_goal 1 => subst x); (on_goal 2 => clear_value x))
    | (extract_lets +onlyGivenNames x; clear_value x)
    | refine answers_next ?_
    | split
    | with_reducible refine frame_dctrl ?_ ?_ ?_
    | with_reducible refine frame_runUnits ?_ ?_
    | with_reducible refine frame_State_onDebug ?_ ?_)

theorem frame_execDctrlClose {L : List Part} {s0 s : State} {reg : BitVec 64} (hL : ([.dbg] : List Part) ⊆ L) (hF : Alters L s0 s) :
    Answers L s0 (execDctrlClose reg s) := by
  delta execDctrlClose
  repeat (any_goals first
    | with_reducible assumption
    | exact List.Subset.trans (by decide) hL
    | (intro a x hx; beta_reduce)
    | (intro x hx; beta_reduce)
    | refine answers_next ?_
    | with_reducible refine frame_dctrl ?_ ?_ ?_
    | with_reducible refine frame_State_onDebug ?_ ?_)

theorem frame_execDctrlClearBphit {L : List Part} {s0 s : State} {reg : BitVec 64} (hL : ([.dbg] : List Part) ⊆ L) (hF : Alters L s0 s) :
    Answers L s0 (execDctrlClearBphit reg s) := by
  delta execDctrlClearBphit
  repeat (any_goals first
    | with_reducible assumption
    | exact List.Subset.trans (by decide) hL
    | (intro a x hx; beta_reduce)
    | (intro x hx; beta_reduce)
    | refine answers_next ?_
    | with_reducible refine frame_dctrl ?_ ?_ ?_
    | with_reducible refine frame_State_onDebug ?_ ?_)

theorem frame_execStepEnd {L : List Part} {s0 s : State}  (hL : ([.chans, .events, .dbg] : List Part) ⊆ L) (hF : Alters L s0 s) :
    Answers L s0 (execStepEnd s) := by
  delta execStepEnd
  repeat (any_goals first
    | with_reducible assumption
    | exact List.Subset.trans (by decide) hL
    | refine answers_next ?_
    | split
    | with_reducible refine frame_haltUnits ?_ ?_
    | with_reducible refine frame_State_onDebug ?_ ?_)

theorem frame_execSessionLifetimeEnd {L : List Part} {s0 s : State}  (hL : ([.events, .dbg] : List Part) ⊆ L) (hF : Alters L s0 s) :
    Answers L s0 (execSessionLifetimeEnd s) := by
  delta execSessionLifetimeEnd
  repeat (any_goals first
    | with_reducible assumption
    | exact List.Subset.trans (by decide) hL
    | (intro a x hx; beta_reduce)
    | (intro x hx; beta_reduce)
    | refine answers_next ?_
    | split
    | with_reducible refine frame_whenDue ?_ ?_
    | with_reducible refine frame_closeSession ?_ ?_)

theorem frame_execDbrk {L : List Part} {s0 s : State} {reg : BitVec 168} (hL : ([.dbg] : List Part) ⊆ L) (hF : Alters L s0 s) :
    Answers L s0 (execDbrk reg s) := by
  delta execDbrk
  repeat (any_goals first
    | with_reducible assumption
    | exact List.Subset.trans (by decide) hL
    | (intro a x hx; beta_reduce)
    | (intro x hx; beta_reduce)
    | (extract_lets +onlyGivenNames x; refine (have hx : Alters L s0 x := ?_; ?_); (on_goal 1 => subst x); (on_goal 2 => clear_value x))
    | (extract_lets +onlyGivenNames x; clear_value x)
    | refine answers_next ?_
    | split
    | with_reducible refine frame_whenDue ?_ ?_
    | with_reducible refine frame_State_onDebug ?_ ?_
    | with_reducible refine frame_dsResult ?_ ?_)

theorem frame_fire {L : List Part} {s0 s : State} {n : Fin 8} {c : Cmp} {q : BitVec 64} (hL : ([.chans, .events, .dbg] : List Part) ⊆ L) (hF : Alters L s0 s) :
    Alters L s0 (fire s n c q) := by
  delta fire
  repeat (any_goals first
    | with_reducible assumption
    | exact List.Subset.trans (by decide) hL
    | (extract_lets +onlyGivenNames x; refine (have hx : Alters L s0 x := ?_; ?_); (on_goal 1 => subst x); (on_goal 2 => clear_value x))
    | (extract_lets +onlyGivenNames x; clear_value x)
    | split
    | with_reducible refine frame_State_onDebug ?_ ?_
    | with_reducible refine frame_haltUnits ?_ ?_
    | with_reducible refine frame_raise ?_ ?_)

theorem frame_execBreakpointFire {L : List Part} {s0 s : State} {n : Fin 8} {quantity : BitVec 64} (hL : ([.chans, .events, .dbg] : List Part) ⊆ L) (hF : Alters L s0 s) :
    Answers L s0 (execBreakpointFire n quantity s) := by
  delta execBreakpointFire
  repeat (any_goals first
    | with_reducible assumption
    | exact List.Subset.trans (by decide) hL
    | (intro a x hx; beta_reduce)
    | (intro x hx; beta_reduce)
    | (extract_lets +onlyGivenNames x; refine (have hx : Alters L s0 x := ?_; ?_); (on_goal 1 => subst x); (on_goal 2 => clear_value x))
    | (extract_lets +onlyGivenNames x; clear_value x)
    | refine answers_next ?_
    | split
    | with_reducible refine frame_whenDue ?_ ?_
    | with_reducible refine frame_fire ?_ ?_
    | with_reducible refine frame_State_onDebug ?_ ?_)

theorem frame_descriptorAt {L : List Part} {s0 s : State} {q : Nat} {i : Nat} (hL : ([.free] : List Part) ⊆ L) (hF : Alters L s0 s) :
    Alters L s0 (descriptorAt s q i).2 := by
  delta descriptorAt
  repeat (any_goals first
    | with_reducible assumption
    | exact List.Subset.trans (by decide) hL
    | (extract_lets +onlyGivenNames x; refine (have hx : Alters L s0 x := ?_; ?_); (on_goal 1 => subst x); (on_goal 2 => clear_value x))
    | (extract_lets +onlyGivenNames x; refine (have hx : Alters L s0 x.2 := ?_; ?_); (on_goal 1 => subst x); (on_goal 2 => clear_value x))
    | (extract_lets +onlyGivenNames x; clear_value x)
    | split
    | with_reducible refine frame_queueDescriptor ?_ ?_
    | dsimp only)

theorem frame_descriptorWord {L : List Part} {s0 s : State} {a : Nat} (hL : ([.free] : List Part) ⊆ L) (hF : Alters L s0 s) :
    Alters L s0 (descriptorWord s a).2 := by
  delta descriptorWord
  repeat (any_goals first
    | with_reducible assumption
    | exact List.Subset.trans (by decide) hL
    | with_reducible refine frame_descriptorAt ?_ ?_
    | dsimp only)

theorem frame_dmWord {L : List Part} {s0 s : State} {a : Nat} (hL : ([.free] : List Part) ⊆ L) (hF : Alters L s0 s) :
    Alters L s0 (dmWord s a).2 := by
  delta dmWord
  repeat (any_goals first
    | with_reducible assumption
    | exact List.Subset.trans (by decide) hL
    | (extract_lets +onlyGivenNames x; refine (have hx : Alters L s0 x := ?_; ?_); (on_goal 1 => subst x); (on_goal 2 => clear_value x))
    | (extract_lets +onlyGivenNames x; refine (have hx : Alters L s0 x.2 := ?_; ?_); (on_goal 1 => subst x); (on_goal 2 => clear_value x))
    | (extract_lets +onlyGivenNames x; clear_value x)
    | split
    | with_reducible refine frame_descriptorWord ?_ ?_
    | with_reducible refine frame_State_draw ?_ ?_
    | dsimp only)

theorem frame_dmem {L : List Part} {s0 s : State} {r : BitVec 104} {op : Nat} {f : State → State} (hL : ([.dbg] : List Part) ⊆ L)
    (hf : ∀ x, Alters L s0 x → Alters L s0 (f x)) (hF : Alters L s0 s) : Alters L s0 (dmem s r op f) := by
  delta dmem
  repeat (any_goals first
    | with_reducible assumption
    | exact List.Subset.trans (by decide) hL
    | (extract_lets +onlyGivenNames x; refine (have hx : Alters L s0 x := ?_; ?_); (on_goal 1 => subst x); (on_goal 2 => clear_value x))
    | (extract_lets +onlyGivenNames x; clear_value x)
    | split
    | with_reducible refine hf _ ?_
    | with_reducible refine frame_State_onDebug ?_ ?_
    | with_reducible refine frame_dsResult ?_ ?_)

theorem frame_execDmemRead {L : List Part} {s0 s : State} {reg : BitVec 104} {ecc : Ecc} (hL : ([.free, .supply, .tiers, .straps, .clock, .portA, .portB, .cut, .tables, .queues, .hands, .streams, .chans, .mem, .engine, .vault, .seat, .events, .dbg, .announce, .counters] : List Part) ⊆ L) (hF : Alters L s0 s) :
    Answers L s0 (execDmemRead reg ecc s) := by
  delta execDmemRead
  repeat (any_goals first
    | with_reducible assumption
    | exact List.Subset.trans (by decide) hL
    | (intro a x hx; beta_reduce)
    | (intro x hx; beta_reduce)
    | (extract_lets +onlyGivenNames x; refine (have hx : Alters L s0 x := ?_; ?_); (on_goal 1 => subst x); (on_goal 2 => clear_value x))
    | (extract_lets +onlyGivenNames x; refine (have hx : Alters L s0 x.2 := ?_; ?_); (on_goal 1 => subst x); (on_goal 2 => clear_value x))
    | (extract_lets +onlyGivenNames x; clear_value x)
    | refine answers_next ?_
    | split
    | with_reducible refine frame_dmem ?_ ?_ ?_
    | with_reducible refine frame_correctedWord ?_ ?_
    | with_reducible refine frame_poisonedRead ?_ ?_
    | with_reducible refine frame_dmWord ?_ ?_
    | with_reducible refine frame_State_onDebug ?_ ?_
    | dsimp only)

theorem frame_writeDescriptor {L : List Part} {s0 s : State} {a : Nat} {lanes : Nat} {data : Nat} (hL : ([.queues] : List Part) ⊆ L) (hF : Alters L s0 s) :
    Alters L s0 (writeDescriptor s a lanes data) := by
  delta writeDescriptor
  repeat (any_goals first
    | with_reducible assumption
    | exact List.Subset.trans (by decide) hL
    | (extract_lets +onlyGivenNames x; refine (have hx : Alters L s0 x := ?_; ?_); (on_goal 1 => subst x); (on_goal 2 => clear_value x))
    | (extract_lets +onlyGivenNames x; clear_value x)
    | split
    | with_reducible refine frame_setQSet ?_ ?_)

theorem frame_execDmemWrite {L : List Part} {s0 s : State} {reg : BitVec 104} (hL : ([.queues, .mem, .dbg] : List Part) ⊆ L) (hF : Alters L s0 s) :
    Answers L s0 (execDmemWrite reg s) := by
  delta execDmemWrite
  repeat (any_goals first
    | with_reducible assumption
    | exact List.Subset.trans (by decide) hL
    | (intro a x hx; beta_reduce)
    | (intro x hx; beta_reduce)
    | (extract_lets +onlyGivenNames x; refine (have hx : Alters L s0 x := ?_; ?_); (on_goal 1 => subst x); (on_goal 2 => clear_value x))
    | (extract_lets +onlyGivenNames x; clear_value x)
    | refine answers_next ?_
    | split
    | with_reducible refine frame_dmem ?_ ?_ ?_
    | with_reducible refine frame_State_onMem ?_ ?_
    | with_reducible refine frame_writeDescriptor ?_ ?_
    | with_reducible refine frame_State_onDebug ?_ ?_)

theorem frame_tapUpdate {L : List Part} {s0 s : State} {ir : Byte} {dr : BitVec 168} (hL : ([.dbg] : List Part) ⊆ L) (hF : Alters L s0 s) :
    Alters L s0 (tapUpdate s ir dr) := by
  delta tapUpdate
  repeat (any_goals first
    | with_reducible assumption
    | exact List.Subset.trans (by decide) hL
    | (intro a x hx; beta_reduce)
    | (intro x hx; beta_reduce)
    | (extract_lets +onlyGivenNames x; refine (have hx : Alters L s0 x := ?_; ?_); (on_goal 1 => subst x); (on_goal 2 => clear_value x))
    | (extract_lets +onlyGivenNames x; refine (have hx : ∀ v, Alters L s0 (x v) := ?_; ?_); (on_goal 1 => subst x); (on_goal 2 => clear_value x))
    | (extract_lets +onlyGivenNames x; clear_value x)
    | split
    | with_reducible refine frame_State_onDebug ?_ ?_
    | with_reducible refine frame_dctrl ?_ ?_ ?_
    | with_reducible refine frame_dmem ?_ ?_ ?_
    | with_reducible apply_assumption
    | (intro v; beta_reduce)
    | simp only [id])

theorem frame_execTapRegisterWrite {L : List Part} {s0 s : State} {ir : Byte} {dr : BitVec 168} (hL : ([.dbg] : List Part) ⊆ L) (hF : Alters L s0 s) :
    Answers L s0 (execTapRegisterWrite ir dr s) := by
  delta execTapRegisterWrite
  repeat (any_goals first
    | with_reducible assumption
    | exact List.Subset.trans (by decide) hL
    | (intro a x hx; beta_reduce)
    | (intro x hx; beta_reduce)
    | refine answers_next ?_
    | with_reducible refine frame_whenDue ?_ ?_
    | with_reducible refine frame_tapUpdate ?_ ?_)

end Sys2Proof.Laws
end

