-- ==== Sys2Proof/Laws/Memory.lean ====
section
/-! SUPPORT. The memory: the canonical form as an ordered list, read after write, and that every operation on the
memory keeps the form. -/

namespace Sys2Proof.Laws

open Sys2Proof Sys2Proof.Machine Sys2Proof.Safety

/-- The canonical form, one entry at a time. -/
theorem cellsWf_cons {c : Host.Cell} {l : List Host.Cell} :
    cellsWf (c :: l) = true ↔ c.1 < 0x1000000 ∧ c.2 ≠ 0 ∧ (∀ d ∈ l, c.1 < d.1) ∧ cellsWf l = true := by
  induction l generalizing c with
  | nil => simp [cellsWf]
  | cons d r ih =>
    have hd := @ih d
    simp only [cellsWf, Bool.and_eq_true, decide_eq_true_eq, bne_iff_ne]
    constructor
    · rintro ⟨⟨h1, h2⟩, h3⟩
      obtain ⟨k1, -, k3, -⟩ := hd.mp h3
      refine ⟨by omega, h2, ?_, h3⟩
      intro e he
      rcases List.mem_cons.mp he with rfl | he
      · exact h1
      · have := k3 e he; omega
    · rintro ⟨-, h2, h3, h4⟩
      exact ⟨⟨h3 d (List.mem_cons_self ..), h2⟩, h4⟩

/-- A write lists no address but those listed and its own. -/
theorem cellsWrite_mem {a : Nat} {v : Byte} {l : List Host.Cell} {d : Host.Cell} (h : d ∈ cellsWrite a v l) :
    d ∈ l ∨ d.1 = a := by
  induction l with
  | nil => unfold cellsWrite at h; split at h <;> simp_all
  | cons c r ih =>
    unfold cellsWrite at h
    split at h
    · split at h
      · exact .inl h
      · rcases List.mem_cons.mp h with rfl | h
        · exact .inr rfl
        · exact .inl h
    · split at h
      · split at h
        · exact .inl (List.mem_cons_of_mem _ h)
        · rcases List.mem_cons.mp h with rfl | h
          · exact .inr rfl
          · exact .inl (List.mem_cons_of_mem _ h)
      · rcases List.mem_cons.mp h with rfl | h
        · exact .inl (List.mem_cons_self ..)
        · rcases ih h with h | h
          · exact .inl (List.mem_cons_of_mem _ h)
          · exact .inr h

/-- A write keeps the canonical form. -/
theorem cellsWrite_wf {a : Nat} {v : Byte} {l : List Host.Cell} (ha : a < 0x1000000) (h : cellsWf l = true) :
    cellsWf (cellsWrite a v l) = true := by
  induction l with
  | nil =>
    unfold cellsWrite; split
    · rfl
    · rename_i hv
      exact cellsWf_cons.mpr ⟨ha, by simpa using hv, by simp, rfl⟩
  | cons c r ih =>
    obtain ⟨h1, h2, h3, h4⟩ := cellsWf_cons.mp h
    unfold cellsWrite
    split
    · next hlt =>
      split
      · exact h
      · rename_i hv
        refine cellsWf_cons.mpr ⟨ha, by simpa using hv, ?_, h⟩
        intro d hd
        rcases List.mem_cons.mp hd with rfl | hd
        · exact hlt
        · exact Nat.lt_trans hlt (h3 d hd)
    · next hlt =>
      split
      · next heq =>
        have heq : a = c.1 := by simpa using heq
        split
        · exact h4
        · rename_i hv
          exact cellsWf_cons.mpr ⟨ha, by simpa using hv, fun d hd => by have := h3 d hd; simp only [heq]; exact this, h4⟩
      · next hne =>
        have hne : a ≠ c.1 := by simpa using hne
        refine cellsWf_cons.mpr ⟨h1, h2, ?_, ih h4⟩
        intro d hd
        rcases cellsWrite_mem hd with hd | hd
        · exact h3 d hd
        · omega

/-- An address below every listed one reads as unlisted. -/
theorem cellsRead_below {a : Nat} {l : List Host.Cell} (h : ∀ d ∈ l, a < d.1) : cellsRead l a = 0 := by
  induction l with
  | nil => rfl
  | cons c r ih =>
    have hc := h c (List.mem_cons_self ..)
    have hne : ¬ c.1 = a := by omega
    simp only [cellsRead, beq_iff_eq, hne, if_false]
    exact ih fun d hd => h d (List.mem_cons_of_mem _ hd)

/-- The head of a list of cells, read. -/
theorem cellsRead_cons {c : Host.Cell} {l : List Host.Cell} {b : Nat} :
    cellsRead (c :: l) b = if c.1 = b then c.2 else cellsRead l b := by
  conv_lhs => unfold cellsRead
  by_cases h : c.1 = b <;> simp [h]

/-- Read after write: the address written reads the value, every other address as before. -/
theorem cellsRead_cellsWrite {a b : Nat} {v : Byte} {l : List Host.Cell} (h : cellsWf l = true) :
    cellsRead (cellsWrite a v l) b = if b = a then v else cellsRead l b := by
  induction l with
  | nil =>
    unfold cellsWrite
    split
    · next hv => have hv : v = 0 := by simpa using hv
                 subst hv; split <;> rfl
    · rw [cellsRead_cons]
      by_cases hb : b = a
      · rw [if_pos hb.symm, if_pos hb]
      · rw [if_neg (fun e => hb e.symm), if_neg hb]
  | cons c r ih =>
    obtain ⟨-, -, h3, h4⟩ := cellsWf_cons.mp h
    unfold cellsWrite
    split
    · next hlt =>
      have hz : cellsRead (c :: r) a = 0 := cellsRead_below fun d hd => by
        rcases List.mem_cons.mp hd with rfl | hd
        · exact hlt
        · exact Nat.lt_trans hlt (h3 d hd)
      split
      · next hv =>
        have hv : v = 0 := by simpa using hv
        by_cases hb : b = a
        · rw [if_pos hb, hb, hz, hv]
        · rw [if_neg hb]
      · rw [cellsRead_cons]
        by_cases hb : b = a
        · rw [if_pos hb.symm, if_pos hb]
        · rw [if_neg (fun e => hb e.symm), if_neg hb]
    · split
      · next _ he =>
        have he : a = c.1 := by simpa using he
        have hz : cellsRead r a = 0 := cellsRead_below fun d hd => by have := h3 d hd; omega
        split
        · next hv =>
          have hv : v = 0 := by simpa using hv
          by_cases hb : b = a
          · rw [if_pos hb, hb, hz, hv]
          · rw [if_neg hb, cellsRead_cons, if_neg (by omega)]
        · rw [cellsRead_cons, cellsRead_cons]
          by_cases hb : b = a
          · rw [if_pos hb.symm, if_pos hb]
          · rw [if_neg (fun e => hb e.symm), if_neg hb, if_neg (by omega)]
      · next _ he =>
        have he : a ≠ c.1 := by simpa using he
        rw [cellsRead_cons, cellsRead_cons, ih h4]
        by_cases hc : c.1 = b
        · rw [if_pos hc, if_neg (by omega), if_pos hc]
        · rw [if_neg hc, if_neg hc]

/-- Leaving entries out keeps the canonical form. -/
theorem cellsWf_filter {p : Host.Cell → Bool} {l : List Host.Cell} (h : cellsWf l = true) : cellsWf (l.filter p) = true := by
  induction l with
  | nil => rfl
  | cons c r ih =>
    obtain ⟨h1, h2, h3, h4⟩ := cellsWf_cons.mp h
    rw [List.filter_cons]
    split
    · exact cellsWf_cons.mpr ⟨h1, h2, fun d hd => h3 d (List.mem_filter.mp hd).1, ih h4⟩
    · exact ih h4

theorem write_wf {m : Memory} {a : Nat} {v : Byte} (h : m.wf = true) : (m.write a v).wf = true := by
  unfold Memory.write
  split
  · next ha => exact cellsWrite_wf ha h
  · exact h

theorem writeN_wf {m : Memory} {a : Nat} {bs : List Byte} (h : m.wf = true) : (m.writeN a bs).wf = true := by
  induction bs generalizing m a with
  | nil => exact h
  | cons b bs ih => exact ih (write_wf h)

theorem setEntry_wf {m : Memory} {a : Nat} {e : Entry} (h : m.wf = true) : (m.setEntry a e).wf = true :=
  writeN_wf (m := m) (a := a) (bs := beBytes 16 e.toNat) h

/-- A byte of SRAM after a write, inside the 16 MiB. -/
theorem read_write {m : Memory} {a b : Nat} {v : Byte} (h : m.wf = true) (ha : a < 0x1000000) :
    cellsRead (m.write a v).cells b = if b = a then v else cellsRead m.cells b := by
  unfold Memory.write
  rw [if_pos ha]
  exact cellsRead_cellsWrite h

/-- Bytes outside those written read as before. -/
theorem read_writeN_outside {m : Memory} {a b : Nat} {bs : List Byte} (h : m.wf = true) (ho : b < a ∨ a + bs.length ≤ b) :
    cellsRead (m.writeN a bs).cells b = cellsRead m.cells b := by
  induction bs generalizing m a with
  | nil => rfl
  | cons v bs ih =>
    have hne : ¬ b = a := by simp only [List.length_cons] at ho; omega
    have ho' : b < a + 1 ∨ a + 1 + bs.length ≤ b := by simp only [List.length_cons] at ho; omega
    show cellsRead ((m.write a v).writeN (a + 1) bs).cells b = _
    rw [ih (write_wf h) ho']
    unfold Memory.write
    split
    · simp [cellsRead_cellsWrite h, hne]
    · rfl

theorem writeLanes_fold_wf {a lanes data : Nat} {l : List Nat} {m : Memory} (h : m.wf = true) :
    (l.foldl (fun (m : Memory) n =>
      if lanes.testBit n then m.write (a + 7 - n) (BitVec.ofNat 8 (data / 2 ^ (8 * n))) else m) m).wf = true := by
  induction l generalizing m with
  | nil => exact h
  | cons n l ih =>
    refine ih ?_
    beta_reduce
    split
    · exact write_wf h
    · exact h

theorem writeLanes_wf {m : Memory} {a lanes data : Nat} (h : m.wf = true) : (writeLanes m a lanes data).wf = true :=
  writeLanes_fold_wf (l := List.range 8) h

theorem repairRow_wf {m m' : Memory} {bank row k : Nat} {p : Bool} (h : m.wf = true)
    (hr : repairRow m bank row p = some (k, m')) : m'.wf = true := by
  unfold repairRow at hr
  split at hr
  · cases hr
  · split at hr <;> (cases hr; exact h)

theorem windowWrap_wf {m : Memory} {w : Nat} (h : m.wf = true) : (windowWrap m w).wf = true := by
  unfold windowWrap
  split <;> exact h

/-- Memories with the same cells. -/
theorem wf_cells {m m' : Memory} (h : m.wf = true) (hc : m'.cells = m.cells) : m'.wf = true := by
  unfold Memory.wf at *; rw [hc]; exact h

/-- The memory of the state is in its canonical form. -/
structure MemWf (s : State) : Prop where
  wf : s.mem.wf = true

/-- The outcome is a next state whose memory is in its canonical form. -/
structure OutWf (o : Out) : Prop where
  wf : ∃ t, o = .next t ∧ MemWf t

theorem outWf_next {s : State} (h : MemWf s) : OutWf (.next s) := ⟨s, rfl, h⟩

/-- An operation that leaves the memory alone. -/
theorem memWf_of_alters {L : List Part} {s t : State} (h : Alters L s t) (hm : Part.mem ∉ L) (hs : MemWf s) : MemWf t :=
  ⟨by rw [same_mem h hm]; exact hs.wf⟩

theorem outWf_of_answers {L : List Part} {s : State} {o : Out} (h : Answers L s o) (hm : Part.mem ∉ L) (hs : MemWf s) : OutWf o := by
  obtain ⟨t, rfl, ht⟩ := h
  exact ⟨t, rfl, memWf_of_alters ht hm hs⟩

theorem memWf_onMem {s : State} {f : Memory → Memory} (hf : ∀ m, m.wf = true → (f m).wf = true) (h : MemWf s) : MemWf (s.onMem f) :=
  ⟨hf s.mem h.wf⟩

theorem memWf_with {s : State} {m : Memory} (hm : m.wf = true) : MemWf { s with mem := m } := ⟨hm⟩

theorem repairRow_memWf {s : State} {m' : Memory} {bank row k : Nat} {p : Bool}
    (hr : repairRow s.mem bank row p = some (k, m')) (h : MemWf s) : m'.wf = true := repairRow_wf h.wf hr

theorem memWf_whenDue {c : Bool} {f : State → State} {s : State} (hf : ∀ x, MemWf x → MemWf (f x)) (h : MemWf s) :
    MemWf (whenDue c f s) := by
  unfold whenDue; split
  · exact hf s h
  · exact h

theorem memWf_each {α : Type} {l : List α} {f : α → State → State} {s : State} (hf : ∀ a x, MemWf x → MemWf (f a x)) (h : MemWf s) :
    MemWf (s.each l f) := by
  unfold State.each
  induction l generalizing s with
  | nil => exact h
  | cons a l ih => exact ih (hf a s h)

theorem memWf_pair {α : Type} {p : α × State} {a : α} {s : State} (he : p = (a, s)) (hp : MemWf p.2) : MemWf s := by
  rw [he] at hp; exact hp

/-- The memory right after reset. -/
theorem reset_memWf : MemWf State.reset := ⟨rfl⟩

end Sys2Proof.Laws
end

