-- ==== Sys2Proof/Laws/MemoryOps.lean ====
section
/-! SUPPORT. Every operation keeps the canonical form of the memory. -/

namespace Sys2Proof.Laws

open Sys2Proof Sys2Proof.Machine Sys2Proof.Safety

set_option linter.unusedTactic false
set_option linter.unreachableTactic false
set_option linter.unusedVariables false

theorem memWf_State_onSupply {s : State} {f : Supply → Supply} (hF : MemWf s) : MemWf (State.onSupply s f) :=
  memWf_of_alters (frame_State_onSupply (List.Subset.refl _) (frame_refl _ _)) (by decide) hF

theorem memWf_State_onTiers {s : State} {f : TierState → TierState} (hF : MemWf s) : MemWf (State.onTiers s f) :=
  memWf_of_alters (frame_State_onTiers (List.Subset.refl _) (frame_refl _ _)) (by decide) hF

theorem memWf_State_onStraps {s : State} {f : Straps → Straps} (hF : MemWf s) : MemWf (State.onStraps s f) :=
  memWf_of_alters (frame_State_onStraps (List.Subset.refl _) (frame_refl _ _)) (by decide) hF

theorem memWf_State_onCut {s : State} {f : Cut → Cut} (hF : MemWf s) : MemWf (State.onCut s f) :=
  memWf_of_alters (frame_State_onCut (List.Subset.refl _) (frame_refl _ _)) (by decide) hF

theorem memWf_State_onTables {s : State} {f : Tables → Tables} (hF : MemWf s) : MemWf (State.onTables s f) :=
  memWf_of_alters (frame_State_onTables (List.Subset.refl _) (frame_refl _ _)) (by decide) hF

theorem memWf_State_onQueues {s : State} {f : Queues → Queues} (hF : MemWf s) : MemWf (State.onQueues s f) :=
  memWf_of_alters (frame_State_onQueues (List.Subset.refl _) (frame_refl _ _)) (by decide) hF

theorem memWf_State_onEngine {s : State} {f : Engine → Engine} (hF : MemWf s) : MemWf (State.onEngine s f) :=
  memWf_of_alters (frame_State_onEngine (List.Subset.refl _) (frame_refl _ _)) (by decide) hF

theorem memWf_State_onVault {s : State} {f : Vault → Vault} (hF : MemWf s) : MemWf (State.onVault s f) :=
  memWf_of_alters (frame_State_onVault (List.Subset.refl _) (frame_refl _ _)) (by decide) hF

theorem memWf_State_onSeat {s : State} {f : SeatState → SeatState} (hF : MemWf s) : MemWf (State.onSeat s f) :=
  memWf_of_alters (frame_State_onSeat (List.Subset.refl _) (frame_refl _ _)) (by decide) hF

theorem memWf_State_onEvents {s : State} {f : Events → Events} (hF : MemWf s) : MemWf (State.onEvents s f) :=
  memWf_of_alters (frame_State_onEvents (List.Subset.refl _) (frame_refl _ _)) (by decide) hF

theorem memWf_State_onDebug {s : State} {f : Debug → Debug} (hF : MemWf s) : MemWf (State.onDebug s f) :=
  memWf_of_alters (frame_State_onDebug (List.Subset.refl _) (frame_refl _ _)) (by decide) hF

theorem memWf_State_onAnnounce {s : State} {f : Announce → Announce} (hF : MemWf s) : MemWf (State.onAnnounce s f) :=
  memWf_of_alters (frame_State_onAnnounce (List.Subset.refl _) (frame_refl _ _)) (by decide) hF

theorem memWf_State_onPort {s : State} {p : Port} {f : PortState → PortState} (hF : MemWf s) : MemWf (State.onPort s p f) :=
  memWf_of_alters (frame_State_onPort (List.Subset.refl _) (frame_refl _ _)) (by decide) hF

theorem memWf_State_onPipe {s : State} {p : Port} {f : Pipe → Pipe} (hF : MemWf s) : MemWf (State.onPipe s p f) :=
  memWf_of_alters (frame_State_onPipe (List.Subset.refl _) (frame_refl _ _)) (by decide) hF

theorem memWf_State_onChan {s : State} {n : Fin 24} {f : Chan → Chan} (hF : MemWf s) : MemWf (State.onChan s n f) :=
  memWf_of_alters (frame_State_onChan (List.Subset.refl _) (frame_refl _ _)) (by decide) hF

theorem memWf_State_mapChans {s : State} {f : Fin 24 → Chan → Chan} (hF : MemWf s) : MemWf (State.mapChans s f) :=
  memWf_of_alters (frame_State_mapChans (List.Subset.refl _) (frame_refl _ _)) (by decide) hF

theorem memWf_State_onHand {s : State} {h : Fin 16} {f : Hand → Hand} (hF : MemWf s) : MemWf (State.onHand s h f) :=
  memWf_of_alters (frame_State_onHand (List.Subset.refl _) (frame_refl _ _)) (by decide) hF

theorem memWf_State_draw {s : State}  (hF : MemWf s) : MemWf (State.draw s).2 :=
  memWf_of_alters (frame_State_draw (List.Subset.refl _) (frame_refl _ _)) (by decide) hF

theorem memWf_bump {s : State} {src : Nat} {obj : Nat} {code : Nat} (hF : MemWf s) : MemWf (bump s src obj code) :=
  memWf_of_alters (frame_bump (List.Subset.refl _) (frame_refl _ _)) (by decide) hF

theorem memWf_clearCounters {s : State} {src : Nat} (hF : MemWf s) : MemWf (clearCounters s src) :=
  memWf_of_alters (frame_clearCounters (List.Subset.refl _) (frame_refl _ _)) (by decide) hF

theorem memWf_clearLatching {s : State} {code : Nat} {src : Nat} {obj : Nat} {detail : List Byte} (hF : MemWf s) : MemWf (clearLatching s code src obj detail) :=
  memWf_of_alters (frame_clearLatching (List.Subset.refl _) (frame_refl _ _)) (by decide) hF

theorem memWf_raise {s : State} {code : Nat} {src : Nat} {detail : List Byte} {obj : Nat} {owner : Option Nat} (hF : MemWf s) : MemWf (raise s code src detail obj owner) :=
  memWf_of_alters (frame_raise (List.Subset.refl _) (frame_refl _ _)) (by decide) hF

theorem memWf_countPort {s : State} {p : Port} {code : Nat} (hF : MemWf s) : MemWf (countPort s p code) :=
  memWf_of_alters (frame_countPort (List.Subset.refl _) (frame_refl _ _)) (by decide) hF

theorem memWf_countPipe {s : State} {p : Port} {code : Nat} (hF : MemWf s) : MemWf (countPipe s p code) :=
  memWf_of_alters (frame_countPipe (List.Subset.refl _) (frame_refl _ _)) (by decide) hF

theorem memWf_countCmd {s : State} {code : Nat} (hF : MemWf s) : MemWf (countCmd s code) :=
  memWf_of_alters (frame_countCmd (List.Subset.refl _) (frame_refl _ _)) (by decide) hF

theorem memWf_bankNow {s : State} {n : Fin 24} (hF : MemWf s) : MemWf (bankNow s n) :=
  memWf_of_alters (frame_bankNow (List.Subset.refl _) (frame_refl _ _)) (by decide) hF

theorem memWf_setStreamEntry {s : State} {sid : Nat} {e : Entry} (hF : MemWf s) : MemWf (setStreamEntry s sid e) := by
  delta setStreamEntry
  repeat (any_goals first
    | with_reducible assumption
    | (intro a x hx; beta_reduce)
    | (intro x hx; beta_reduce)
    | with_reducible refine memWf_onMem ?_ ?_
    | with_reducible refine memWf_State_onTables ?_
    | with_reducible exact setEntry_wf (by assumption)
    | with_reducible exact writeN_wf (by assumption)
    | with_reducible exact windowWrap_wf (by assumption)
    | with_reducible exact writeLanes_wf (by assumption)
    | exact repairRow_memWf (by assumption) (by assumption)
    | refine memWf_with ?_
    | dsimp only
    | exact wf_cells (by assumption) rfl
    | exact cellsWf_filter (by assumption))

theorem memWf_setHash {s : State} {p : Port} {l : HLoc} {e : Entry} (hF : MemWf s) : MemWf (setHash s p l e) := by
  delta setHash
  repeat (any_goals first
    | with_reducible assumption
    | (intro a x hx; beta_reduce)
    | (intro x hx; beta_reduce)
    | split
    | with_reducible refine memWf_onMem ?_ ?_
    | with_reducible refine memWf_State_onPipe ?_
    | with_reducible exact setEntry_wf (by assumption)
    | with_reducible exact writeN_wf (by assumption)
    | with_reducible exact windowWrap_wf (by assumption)
    | with_reducible exact writeLanes_wf (by assumption)
    | exact repairRow_memWf (by assumption) (by assumption)
    | refine memWf_with ?_
    | dsimp only
    | exact wf_cells (by assumption) rfl
    | exact cellsWf_filter (by assumption))

theorem memWf_hashPlace {s : State} {p : Port} {b : Nat} (hF : MemWf s) : MemWf (hashPlace s p b).2 :=
  memWf_of_alters (frame_hashPlace (List.Subset.refl _) (frame_refl _ _)) (by decide) hF

theorem memWf_countLearned {s : State} {p : Port} {d : Int} (hF : MemWf s) : MemWf (countLearned s p d) :=
  memWf_of_alters (frame_countLearned (List.Subset.refl _) (frame_refl _ _)) (by decide) hF

theorem memWf_learn {s : State} {p : Port} {tag : Nat} (hF : MemWf s) : MemWf (learn s p tag) := by
  delta learn
  repeat (any_goals first
    | with_reducible assumption
    | (extract_lets +onlyGivenNames x; refine (have hx : MemWf x := ?_; ?_); (on_goal 1 => subst x); (on_goal 2 => clear_value x))
    | (extract_lets +onlyGivenNames x; refine (have hx : MemWf x.2 := ?_; ?_); (on_goal 1 => subst x); (on_goal 2 => clear_value x))
    | (extract_lets +onlyGivenNames x; clear_value x)
    | split
    | with_reducible refine memWf_setHash ?_
    | with_reducible refine memWf_countPipe ?_
    | with_reducible refine memWf_hashPlace ?_
    | with_reducible refine memWf_countLearned ?_
    | refine memWf_pair (by with_reducible assumption) ?_
    | dsimp only)

theorem memWf_invertEpoch {s : State} {why : InvWhy} (hF : MemWf s) : MemWf (invertEpoch s why) :=
  memWf_of_alters (frame_invertEpoch (List.Subset.refl _) (frame_refl _ _)) (by decide) hF

theorem memWf_declineAll {s : State} {p : Port} (hF : MemWf s) : MemWf (declineAll s p) :=
  memWf_of_alters (frame_declineAll (List.Subset.refl _) (frame_refl _ _)) (by decide) hF

theorem memWf_fixedTake {s : State} {p : Port} {f : CmdFrame} (hF : MemWf s) : MemWf (fixedTake s p f) :=
  memWf_of_alters (frame_fixedTake (List.Subset.refl _) (frame_refl _ _)) (by decide) hF

theorem memWf_closeAllStreams {s : State} {cause : Nat} (hF : MemWf s) : MemWf (closeAllStreams s cause) :=
  memWf_of_alters (frame_closeAllStreams (List.Subset.refl _) (frame_refl _ _)) (by decide) hF

theorem memWf_freeGrids {s : State}  (hF : MemWf s) : MemWf (freeGrids s) :=
  memWf_of_alters (frame_freeGrids (List.Subset.refl _) (frame_refl _ _)) (by decide) hF

theorem memWf_setEventHead {s : State} {k : Nat} {head : Nat} {count : Nat} (hF : MemWf s) : MemWf (setEventHead s k head count) :=
  memWf_of_alters (frame_setEventHead (List.Subset.refl _) (frame_refl _ _)) (by decide) hF

theorem memWf_pushRecord {s : State} {k : Nat} {r : List Byte} (hF : MemWf s) : MemWf (pushRecord s k r) := by
  delta pushRecord
  repeat (any_goals first
    | with_reducible assumption
    | (intro a x hx; beta_reduce)
    | (intro x hx; beta_reduce)
    | (extract_lets +onlyGivenNames x; refine (have hx : MemWf x := ?_; ?_); (on_goal 1 => subst x); (on_goal 2 => clear_value x))
    | (extract_lets +onlyGivenNames x; clear_value x)
    | split
    | with_reducible refine memWf_onMem ?_ ?_
    | with_reducible refine memWf_setEventHead ?_
    | with_reducible exact setEntry_wf (by assumption)
    | with_reducible exact writeN_wf (by assumption)
    | with_reducible exact windowWrap_wf (by assumption)
    | with_reducible exact writeLanes_wf (by assumption)
    | exact repairRow_memWf (by assumption) (by assumption)
    | refine memWf_with ?_
    | dsimp only
    | exact wf_cells (by assumption) rfl
    | exact cellsWf_filter (by assumption))

theorem memWf_loseEvent {s : State} {k : Nat} {n : Nat} (hF : MemWf s) : MemWf (loseEvent s k n) :=
  memWf_of_alters (frame_loseEvent (List.Subset.refl _) (frame_refl _ _)) (by decide) hF

theorem memWf_pushEventRecords {s : State} {k : Nat} {rs : List (List Byte)} (hF : MemWf s) : MemWf (pushEventRecords s k rs) := by
  delta pushEventRecords
  repeat (any_goals first
    | with_reducible assumption
    | (intro a x hx; beta_reduce)
    | (intro x hx; beta_reduce)
    | split
    | with_reducible refine memWf_each ?_ ?_
    | with_reducible refine memWf_pushRecord ?_
    | with_reducible refine memWf_loseEvent ?_)

theorem memWf_placeLost {s : State} {k : Nat} (hF : MemWf s) : MemWf (placeLost s k) := by
  delta placeLost
  repeat (any_goals first
    | with_reducible assumption
    | (extract_lets +onlyGivenNames x; refine (have hx : MemWf x := ?_; ?_); (on_goal 1 => subst x); (on_goal 2 => clear_value x))
    | (extract_lets +onlyGivenNames x; clear_value x)
    | split
    | with_reducible refine memWf_pushRecord ?_
    | with_reducible refine memWf_State_onHand ?_
    | with_reducible refine memWf_State_onQueues ?_)

theorem memWf_onOp {s : State} {handle : Nat} {f : Op → Op} (hF : MemWf s) : MemWf (onOp s handle f) :=
  memWf_of_alters (frame_onOp (List.Subset.refl _) (frame_refl _ _)) (by decide) hF

theorem memWf_opEnter {s : State} {handle : Nat} {st : OpState} {reason : Nat} (hF : MemWf s) : MemWf (opEnter s handle st reason) :=
  memWf_of_alters (frame_opEnter (List.Subset.refl _) (frame_refl _ _)) (by decide) hF

theorem memWf_opEnd {s : State} {handle : Nat} {st : OpState} {reason : Nat} (hF : MemWf s) : MemWf (opEnd s handle st reason) :=
  memWf_of_alters (frame_opEnd (List.Subset.refl _) (frame_refl _ _)) (by decide) hF

theorem memWf_leaveUp {s : State} {p : Port} (hF : MemWf s) : MemWf (leaveUp s p) :=
  memWf_of_alters (frame_leaveUp (List.Subset.refl _) (frame_refl _ _)) (by decide) hF

theorem memWf_abortSounding {s : State} {p : Port} {reason : Nat} (hF : MemWf s) : MemWf (abortSounding s p reason) :=
  memWf_of_alters (frame_abortSounding (List.Subset.refl _) (frame_refl _ _)) (by decide) hF

theorem memWf_closeSession {s : State} {cause : Nat} (hF : MemWf s) : MemWf (closeSession s cause) :=
  memWf_of_alters (frame_closeSession (List.Subset.refl _) (frame_refl _ _)) (by decide) hF

theorem memWf_staleBegin {s : State} {n : Fin 24} {cause : Nat} (hF : MemWf s) : MemWf (staleBegin s n cause) :=
  memWf_of_alters (frame_staleBegin (List.Subset.refl _) (frame_refl _ _)) (by decide) hF

theorem memWf_staleEnd {s : State} {n : Fin 24} {cause : Nat} (hF : MemWf s) : MemWf (staleEnd s n cause) :=
  memWf_of_alters (frame_staleEnd (List.Subset.refl _) (frame_refl _ _)) (by decide) hF

theorem memWf_trimEnd {s : State} {n : Fin 24} {before : Int} (hF : MemWf s) : MemWf (trimEnd s n before) :=
  memWf_of_alters (frame_trimEnd (List.Subset.refl _) (frame_refl _ _)) (by decide) hF

theorem memWf_discardAwait {s : State} {p : Await → Bool} (hF : MemWf s) : MemWf (discardAwait s p) :=
  memWf_of_alters (frame_discardAwait (List.Subset.refl _) (frame_refl _ _)) (by decide) hF

theorem memWf_opRollback {s : State} {o : Op} {st : OpState} {reason : Nat} (hF : MemWf s) : MemWf (opRollback s o st reason) := by
  delta opRollback
  repeat (any_goals first
    | with_reducible assumption
    | (intro a x hx; beta_reduce)
    | (intro x hx; beta_reduce)
    | (extract_lets +onlyGivenNames x; refine (have hx : MemWf x := ?_; ?_); (on_goal 1 => subst x); (on_goal 2 => clear_value x))
    | (extract_lets +onlyGivenNames x; clear_value x)
    | split
    | with_reducible refine memWf_invertEpoch ?_
    | with_reducible refine memWf_onOp ?_
    | with_reducible refine memWf_opEnd ?_
    | with_reducible refine memWf_trimEnd ?_
    | with_reducible refine memWf_discardAwait ?_
    | with_reducible refine memWf_onMem ?_ ?_
    | with_reducible refine memWf_State_onSeat ?_
    | with_reducible exact setEntry_wf (by assumption)
    | with_reducible exact writeN_wf (by assumption)
    | with_reducible exact windowWrap_wf (by assumption)
    | with_reducible exact writeLanes_wf (by assumption)
    | exact repairRow_memWf (by assumption) (by assumption)
    | refine memWf_with ?_
    | dsimp only
    | exact wf_cells (by assumption) rfl
    | exact cellsWf_filter (by assumption))

theorem memWf_endOps {s : State} {p : Op → Bool} {st : OpState} {reason : Nat} (hF : MemWf s) : MemWf (endOps s p st reason) := by
  delta endOps
  repeat (any_goals first
    | with_reducible assumption
    | (intro a x hx; beta_reduce)
    | (intro x hx; beta_reduce)
    | with_reducible refine memWf_each ?_ ?_
    | with_reducible refine memWf_opRollback ?_)

theorem memWf_leaveFull {s : State}  (hF : MemWf s) : MemWf (leaveFull s) := by
  delta leaveFull
  repeat (any_goals first
    | with_reducible assumption
    | with_reducible refine memWf_endOps ?_
    | with_reducible refine memWf_closeSession ?_
    | with_reducible refine memWf_State_onEngine ?_)

theorem memWf_enterFixed {s : State}  (hF : MemWf s) : MemWf (enterFixed s) :=
  memWf_of_alters (frame_enterFixed (List.Subset.refl _) (frame_refl _ _)) (by decide) hF

theorem memWf_chipReset {s : State} {cause : Option Nat} (hF : MemWf s) : MemWf (chipReset s cause) :=
  ⟨by simp only [chipReset]; rfl⟩

theorem memWf_vanLost {s : State} (hF : MemWf s) : MemWf (vanLost s) := ⟨by simp only [vanLost]; rfl⟩

theorem memWf_enterPassThroughDown {s : State}  (hF : MemWf s) : MemWf (enterPassThroughDown s) :=
  memWf_of_alters (frame_enterPassThroughDown (List.Subset.refl _) (frame_refl _ _)) (by decide) hF

theorem memWf_tierEvent {s : State} {old : Tier} {new : Tier} {src : Nat} (hF : MemWf s) : MemWf (tierEvent s old new src) :=
  memWf_of_alters (frame_tierEvent (List.Subset.refl _) (frame_refl _ _)) (by decide) hF

theorem memWf_settleTier {s : State} {src : Nat} (hF : MemWf s) : MemWf (settleTier s src) := by
  delta settleTier
  repeat (any_goals first
    | with_reducible assumption
    | (extract_lets +onlyGivenNames x; refine (have hx : MemWf x := ?_; ?_); (on_goal 1 => subst x); (on_goal 2 => clear_value x))
    | (extract_lets +onlyGivenNames x; clear_value x)
    | split
    | with_reducible refine memWf_chipReset ?_
    | with_reducible refine memWf_leaveFull ?_
    | with_reducible refine memWf_State_onTiers ?_
    | with_reducible refine memWf_enterPassThroughDown ?_
    | with_reducible refine memWf_enterFixed ?_
    | with_reducible refine memWf_tierEvent ?_)

theorem memWf_unitFails {s : State} {u : UnitId} (hF : MemWf s) : MemWf (unitFails s u) :=
  memWf_of_alters (frame_unitFails (List.Subset.refl _) (frame_refl _ _)) (by decide) hF

theorem memWf_correctedWord {s : State} {a : Nat} (hF : MemWf s) : MemWf (correctedWord s a) := by
  delta correctedWord
  repeat (any_goals first
    | with_reducible assumption
    | (intro a x hx; beta_reduce)
    | (intro x hx; beta_reduce)
    | (extract_lets +onlyGivenNames x; refine (have hx : MemWf x := ?_; ?_); (on_goal 1 => subst x); (on_goal 2 => clear_value x))
    | (extract_lets +onlyGivenNames x; clear_value x)
    | split
    | with_reducible refine memWf_bump ?_
    | with_reducible refine memWf_onMem ?_ ?_
    | with_reducible refine memWf_raise ?_
    | with_reducible exact setEntry_wf (by assumption)
    | with_reducible exact writeN_wf (by assumption)
    | with_reducible exact windowWrap_wf (by assumption)
    | with_reducible exact writeLanes_wf (by assumption)
    | exact repairRow_memWf (by assumption) (by assumption)
    | refine memWf_with ?_
    | dsimp only
    | exact wf_cells (by assumption) rfl
    | exact cellsWf_filter (by assumption))

theorem memWf_poisonConsumer {s : State} {a : Nat} (hF : MemWf s) : MemWf (poisonConsumer s a) :=
  memWf_of_alters (frame_poisonConsumer (List.Subset.refl _) (frame_refl _ _)) (by decide) hF

theorem memWf_poisonedRead {s : State} {a : Nat} {debug : Bool} (hF : MemWf s) : MemWf (poisonedRead s a debug) := by
  delta poisonedRead
  repeat (any_goals first
    | with_reducible assumption
    | (intro a x hx; beta_reduce)
    | (intro x hx; beta_reduce)
    | (extract_lets +onlyGivenNames x; refine (have hx : MemWf x := ?_; ?_); (on_goal 1 => subst x); (on_goal 2 => clear_value x))
    | (extract_lets +onlyGivenNames x; clear_value x)
    | split
    | with_reducible refine memWf_bump ?_
    | with_reducible refine memWf_onMem ?_ ?_
    | with_reducible refine memWf_poisonConsumer ?_
    | with_reducible refine memWf_raise ?_
    | with_reducible refine memWf_unitFails ?_
    | with_reducible refine memWf_settleTier ?_
    | with_reducible exact setEntry_wf (by assumption)
    | with_reducible exact writeN_wf (by assumption)
    | with_reducible exact windowWrap_wf (by assumption)
    | with_reducible exact writeLanes_wf (by assumption)
    | exact repairRow_memWf (by assumption) (by assumption)
    | refine memWf_with ?_
    | dsimp only
    | exact wf_cells (by assumption) rfl
    | exact cellsWf_filter (by assumption))

theorem memWf_poisonedWord {s : State} {a : Nat} (hF : MemWf s) : MemWf (poisonedWord s a) := by
  delta poisonedWord
  repeat (any_goals first
    | with_reducible assumption
    | with_reducible refine memWf_poisonedRead ?_)

theorem memWf_eccApply {s : State} {e : Ecc} (hF : MemWf s) : MemWf (eccApply s e) := by
  delta eccApply
  repeat (any_goals first
    | with_reducible assumption
    | (intro a x hx; beta_reduce)
    | (intro x hx; beta_reduce)
    | (extract_lets +onlyGivenNames x; refine (have hx : MemWf x := ?_; ?_); (on_goal 1 => subst x); (on_goal 2 => clear_value x))
    | (extract_lets +onlyGivenNames x; clear_value x)
    | with_reducible refine memWf_each ?_ ?_
    | with_reducible refine memWf_correctedWord ?_
    | with_reducible refine memWf_poisonedWord ?_)

theorem memWf_configureChannel {s : State} {n : Fin 24} (hF : MemWf s) : MemWf (configureChannel s n) :=
  memWf_of_alters (frame_configureChannel (List.Subset.refl _) (frame_refl _ _)) (by decide) hF

theorem memWf_curveEmptyEvent {s : State} {n : Fin 24} (hF : MemWf s) : MemWf (curveEmptyEvent s n) :=
  memWf_of_alters (frame_curveEmptyEvent (List.Subset.refl _) (frame_refl _ _)) (by decide) hF

theorem memWf_clearChannelLatches {s : State} {n : Fin 24} (hF : MemWf s) : MemWf (clearChannelLatches s n) :=
  memWf_of_alters (frame_clearChannelLatches (List.Subset.refl _) (frame_refl _ _)) (by decide) hF

theorem memWf_startRekindle {s : State} {n : Fin 24} (hF : MemWf s) : MemWf (startRekindle s n) := by
  delta startRekindle
  repeat (any_goals first
    | with_reducible assumption
    | (extract_lets +onlyGivenNames x; refine (have hx : MemWf x := ?_; ?_); (on_goal 1 => subst x); (on_goal 2 => clear_value x))
    | (extract_lets +onlyGivenNames x; clear_value x)
    | split
    | with_reducible refine memWf_endOps ?_
    | with_reducible refine memWf_staleBegin ?_
    | with_reducible refine memWf_clearChannelLatches ?_
    | with_reducible refine memWf_State_onChan ?_
    | with_reducible refine memWf_bankNow ?_)

theorem memWf_strapEvents {s : State} {codes : List Code} {i : Nat} (hF : MemWf s) : MemWf (strapEvents s codes i) :=
  memWf_of_alters (frame_strapEvents (List.Subset.refl _) (frame_refl _ _)) (by decide) hF

theorem memWf_marginalEvent {s : State} {i : Nat} {convs : List (Option (Fin 16))} (hF : MemWf s) : MemWf (marginalEvent s i convs) :=
  memWf_of_alters (frame_marginalEvent (List.Subset.refl _) (frame_refl _ _)) (by decide) hF

theorem memWf_execRailOutOfWindow {s : State} {r : Rail} (hF : MemWf s) : OutWf (execRailOutOfWindow r s) := by
  delta execRailOutOfWindow
  repeat (any_goals first
    | with_reducible assumption
    | (extract_lets +onlyGivenNames x; refine (have hx : MemWf x := ?_; ?_); (on_goal 1 => subst x); (on_goal 2 => clear_value x))
    | (extract_lets +onlyGivenNames x; clear_value x)
    | refine outWf_next ?_
    | split
    | with_reducible refine memWf_vanLost ?_
    | with_reducible refine memWf_State_onSupply ?_
    | with_reducible refine memWf_chipReset ?_
    | with_reducible refine memWf_settleTier ?_)

theorem memWf_execVanLost {s : State}  (hF : MemWf s) : OutWf (execVanLost s) := by
  delta execVanLost
  repeat (any_goals first
    | with_reducible assumption
    | refine outWf_next ?_
    | with_reducible refine memWf_vanLost ?_)

theorem memWf_execRstNAssert {s : State}  (hF : MemWf s) : OutWf (execRstNAssert s) := by
  delta execRstNAssert
  repeat (any_goals first
    | with_reducible assumption
    | (extract_lets +onlyGivenNames x; refine (have hx : MemWf x := ?_; ?_); (on_goal 1 => subst x); (on_goal 2 => clear_value x))
    | (extract_lets +onlyGivenNames x; clear_value x)
    | refine outWf_next ?_
    | split
    | with_reducible refine memWf_State_onSupply ?_
    | with_reducible refine memWf_chipReset ?_)

theorem memWf_execTestEnHigh {s : State}  (hF : MemWf s) : OutWf (execTestEnHigh s) := by
  delta execTestEnHigh
  repeat (any_goals first
    | with_reducible assumption
    | (extract_lets +onlyGivenNames x; refine (have hx : MemWf x := ?_; ?_); (on_goal 1 => subst x); (on_goal 2 => clear_value x))
    | (extract_lets +onlyGivenNames x; clear_value x)
    | refine outWf_next ?_
    | split
    | with_reducible refine memWf_State_onSupply ?_
    | with_reducible refine memWf_chipReset ?_)

theorem memWf_vaultRecord {s : State} {e : VKey × VRec} (hF : MemWf s) : MemWf (vaultRecord s e) := by
  delta vaultRecord
  repeat (any_goals first
    | with_reducible assumption
    | (intro a x hx; beta_reduce)
    | (intro x hx; beta_reduce)
    | (extract_lets +onlyGivenNames x; refine (have hx : MemWf x := ?_; ?_); (on_goal 1 => subst x); (on_goal 2 => clear_value x))
    | (extract_lets +onlyGivenNames x; clear_value x)
    | split
    | with_reducible refine memWf_raise ?_
    | with_reducible refine memWf_State_onTiers ?_
    | with_reducible refine memWf_unitFails ?_
    | with_reducible refine memWf_onMem ?_ ?_
    | with_reducible exact setEntry_wf (by assumption)
    | with_reducible exact writeN_wf (by assumption)
    | with_reducible exact windowWrap_wf (by assumption)
    | with_reducible exact writeLanes_wf (by assumption)
    | exact repairRow_memWf (by assumption) (by assumption)
    | refine memWf_with ?_
    | dsimp only
    | exact wf_cells (by assumption) rfl
    | exact cellsWf_filter (by assumption))

theorem memWf_execVaultLoadDone {s : State} {damaged : List (VKey × Bool × Bool)} (hF : MemWf s) : OutWf (execVaultLoadDone damaged s) := by
  delta execVaultLoadDone
  repeat (any_goals first
    | with_reducible assumption
    | (intro a x hx; beta_reduce)
    | (intro x hx; beta_reduce)
    | (extract_lets +onlyGivenNames x; refine (have hx : MemWf x := ?_; ?_); (on_goal 1 => subst x); (on_goal 2 => clear_value x))
    | (extract_lets +onlyGivenNames x; clear_value x)
    | refine outWf_next ?_
    | split
    | with_reducible refine memWf_whenDue ?_ ?_
    | with_reducible refine memWf_each ?_ ?_
    | with_reducible refine memWf_State_onVault ?_
    | with_reducible refine memWf_vaultRecord ?_
    | with_reducible refine memWf_raise ?_
    | with_reducible refine memWf_State_onSupply ?_)

theorem memWf_clearBadRow {s : State} {b : Fin 64} {r : Fin 512} (hF : MemWf s) : MemWf (clearBadRow s b r) := by
  delta clearBadRow
  repeat (any_goals first
    | with_reducible assumption
    | (extract_lets +onlyGivenNames x; refine (have hx : MemWf x := ?_; ?_); (on_goal 1 => subst x); (on_goal 2 => clear_value x))
    | (extract_lets +onlyGivenNames x; clear_value x)
    | split
    | with_reducible refine memWf_raise ?_
    | with_reducible refine memWf_unitFails ?_
    | with_reducible exact setEntry_wf (by assumption)
    | with_reducible exact writeN_wf (by assumption)
    | with_reducible exact windowWrap_wf (by assumption)
    | with_reducible exact writeLanes_wf (by assumption)
    | exact repairRow_memWf (by assumption) (by assumption)
    | refine memWf_with ?_
    | dsimp only
    | exact wf_cells (by assumption) rfl
    | exact cellsWf_filter (by assumption))

theorem memWf_execMemoryClearDone {s : State} {bad : List (Fin 64 × Fin 512)} (hF : MemWf s) : OutWf (execMemoryClearDone bad s) := by
  delta execMemoryClearDone
  repeat (any_goals first
    | with_reducible assumption
    | (intro a x hx; beta_reduce)
    | (intro x hx; beta_reduce)
    | (extract_lets +onlyGivenNames x; refine (have hx : MemWf x := ?_; ?_); (on_goal 1 => subst x); (on_goal 2 => clear_value x))
    | (extract_lets +onlyGivenNames x; clear_value x)
    | refine outWf_next ?_
    | with_reducible refine memWf_whenDue ?_ ?_
    | with_reducible refine memWf_each ?_ ?_
    | with_reducible refine memWf_onMem ?_ ?_
    | with_reducible refine memWf_clearBadRow ?_
    | with_reducible refine memWf_State_onSupply ?_
    | with_reducible exact setEntry_wf (by assumption)
    | with_reducible exact writeN_wf (by assumption)
    | with_reducible exact windowWrap_wf (by assumption)
    | with_reducible exact writeLanes_wf (by assumption)
    | exact repairRow_memWf (by assumption) (by assumption)
    | refine memWf_with ?_
    | dsimp only
    | exact wf_cells (by assumption) rfl
    | exact cellsWf_filter (by assumption)
    | exact rfl)

theorem memWf_judgeStranger {s : State}  (hF : MemWf s) : MemWf (judgeStranger s) :=
  memWf_of_alters (frame_judgeStranger (List.Subset.refl _) (frame_refl _ _)) (by decide) hF

theorem memWf_seatStart {s : State}  (hF : MemWf s) : MemWf (seatStart s) :=
  memWf_of_alters (frame_seatStart (List.Subset.refl _) (frame_refl _ _)) (by decide) hF

theorem memWf_execKindleReadingDone {s : State}  (hF : MemWf s) : OutWf (execKindleReadingDone s) := by
  delta execKindleReadingDone
  repeat (any_goals first
    | with_reducible assumption
    | (intro a x hx; beta_reduce)
    | (intro x hx; beta_reduce)
    | (extract_lets +onlyGivenNames x; refine (have hx : MemWf x := ?_; ?_); (on_goal 1 => subst x); (on_goal 2 => clear_value x))
    | (extract_lets +onlyGivenNames x; clear_value x)
    | refine outWf_next ?_
    | split
    | with_reducible refine memWf_whenDue ?_ ?_
    | with_reducible refine memWf_each ?_ ?_
    | with_reducible refine memWf_judgeStranger ?_
    | with_reducible refine memWf_State_onTiers ?_
    | with_reducible refine memWf_seatStart ?_
    | with_reducible refine memWf_curveEmptyEvent ?_
    | with_reducible refine memWf_configureChannel ?_
    | with_reducible refine memWf_State_onPort ?_
    | with_reducible refine memWf_State_onTables ?_
    | with_reducible refine memWf_State_onQueues ?_
    | with_reducible refine memWf_onMem ?_ ?_
    | with_reducible refine memWf_State_onSupply ?_
    | with_reducible exact setEntry_wf (by assumption)
    | with_reducible exact writeN_wf (by assumption)
    | with_reducible exact windowWrap_wf (by assumption)
    | with_reducible exact writeLanes_wf (by assumption)
    | exact repairRow_memWf (by assumption) (by assumption)
    | refine memWf_with ?_
    | dsimp only
    | exact wf_cells (by assumption) rfl
    | exact cellsWf_filter (by assumption))

theorem memWf_execKindleAttemptFail {s : State} {why : KindleFail} (hF : MemWf s) : OutWf (execKindleAttemptFail why s) := by
  delta execKindleAttemptFail
  repeat (any_goals first
    | with_reducible assumption
    | (intro a x hx; beta_reduce)
    | (intro x hx; beta_reduce)
    | (extract_lets +onlyGivenNames x; refine (have hx : MemWf x := ?_; ?_); (on_goal 1 => subst x); (on_goal 2 => clear_value x))
    | (extract_lets +onlyGivenNames x; clear_value x)
    | refine outWf_next ?_
    | split
    | with_reducible refine memWf_whenDue ?_ ?_
    | with_reducible refine memWf_chipReset ?_
    | with_reducible refine memWf_State_onSupply ?_)

theorem memWf_execTierMoveDown {s : State} {lost : List UnitId} (hF : MemWf s) : OutWf (execTierMoveDown lost s) := by
  delta execTierMoveDown
  repeat (any_goals first
    | with_reducible assumption
    | (intro a x hx; beta_reduce)
    | (intro x hx; beta_reduce)
    | (extract_lets +onlyGivenNames x; refine (have hx : MemWf x := ?_; ?_); (on_goal 1 => subst x); (on_goal 2 => clear_value x))
    | (extract_lets +onlyGivenNames x; clear_value x)
    | refine outWf_next ?_
    | split
    | with_reducible refine memWf_each ?_ ?_
    | with_reducible refine memWf_vanLost ?_
    | with_reducible refine memWf_unitFails ?_
    | with_reducible refine memWf_settleTier ?_)

theorem memWf_enterPassThroughUp {s : State}  (hF : MemWf s) : MemWf (enterPassThroughUp s) := by
  delta enterPassThroughUp
  repeat (any_goals first
    | with_reducible assumption
    | (intro a x hx; beta_reduce)
    | (intro x hx; beta_reduce)
    | (extract_lets +onlyGivenNames x; refine (have hx : MemWf x := ?_; ?_); (on_goal 1 => subst x); (on_goal 2 => clear_value x))
    | (extract_lets +onlyGivenNames x; clear_value x)
    | with_reducible refine memWf_State_onSupply ?_
    | with_reducible refine memWf_State_onTiers ?_
    | with_reducible refine memWf_tierEvent ?_
    | with_reducible refine memWf_raise ?_
    | with_reducible refine memWf_State_onCut ?_
    | with_reducible refine memWf_State_onAnnounce ?_
    | with_reducible refine memWf_onMem ?_ ?_
    | with_reducible refine memWf_State_onSeat ?_
    | with_reducible exact setEntry_wf (by assumption)
    | with_reducible exact writeN_wf (by assumption)
    | with_reducible exact windowWrap_wf (by assumption)
    | with_reducible exact writeLanes_wf (by assumption)
    | exact repairRow_memWf (by assumption) (by assumption)
    | refine memWf_with ?_
    | dsimp only
    | exact wf_cells (by assumption) rfl
    | exact cellsWf_filter (by assumption))

theorem memWf_enterTierUp {s : State} {new : Tier} (hF : MemWf s) : MemWf (enterTierUp s new) :=
  memWf_of_alters (frame_enterTierUp (List.Subset.refl _) (frame_refl _ _)) (by decide) hF

theorem memWf_unitRecovers {s : State} {us : List UnitId} (hF : MemWf s) : MemWf (unitRecovers s us) :=
  memWf_of_alters (frame_unitRecovers (List.Subset.refl _) (frame_refl _ _)) (by decide) hF

theorem memWf_execTierMoveUp {s : State} {recovered : List UnitId} (hF : MemWf s) : OutWf (execTierMoveUp recovered s) := by
  delta execTierMoveUp
  repeat (any_goals first
    | with_reducible assumption
    | (intro a x hx; beta_reduce)
    | (intro x hx; beta_reduce)
    | (extract_lets +onlyGivenNames x; refine (have hx : MemWf x := ?_; ?_); (on_goal 1 => subst x); (on_goal 2 => clear_value x))
    | (extract_lets +onlyGivenNames x; clear_value x)
    | refine outWf_next ?_
    | split
    | with_reducible refine memWf_whenDue ?_ ?_
    | with_reducible refine memWf_unitRecovers ?_
    | with_reducible refine memWf_enterPassThroughUp ?_
    | with_reducible refine memWf_enterTierUp ?_
    | with_reducible refine memWf_State_onTiers ?_)

theorem memWf_dropPending {s : State} {n : Fin 24} {d : PendOut → Bool} (hF : MemWf s) : MemWf (dropPending s n d) :=
  memWf_of_alters (frame_dropPending (List.Subset.refl _) (frame_refl _ _)) (by decide) hF

theorem memWf_mirrorStations {s : State} {h : Fin 16} (hF : MemWf s) : MemWf (mirrorStations s h) :=
  memWf_of_alters (frame_mirrorStations (List.Subset.refl _) (frame_refl _ _)) (by decide) hF

theorem memWf_applyOut {s : State} {n : Fin 24} {v : Int} {a : Tick} (hF : MemWf s) : MemWf (applyOut s n v a) :=
  memWf_of_alters (frame_applyOut (List.Subset.refl _) (frame_refl _ _)) (by decide) hF

theorem memWf_seatEnter {s : State} {new : Seat} (hF : MemWf s) : MemWf (seatEnter s new) :=
  memWf_of_alters (frame_seatEnter (List.Subset.refl _) (frame_refl _ _)) (by decide) hF

theorem memWf_execStrapRereadEnd {s : State}  (hF : MemWf s) : OutWf (execStrapRereadEnd s) := by
  delta execStrapRereadEnd
  repeat (any_goals first
    | with_reducible assumption
    | (intro a x hx; beta_reduce)
    | (intro x hx; beta_reduce)
    | (extract_lets +onlyGivenNames x; refine (have hx : MemWf x := ?_; ?_); (on_goal 1 => subst x); (on_goal 2 => clear_value x))
    | (extract_lets +onlyGivenNames x; clear_value x)
    | refine outWf_next ?_
    | split
    | with_reducible refine memWf_whenDue ?_ ?_
    | with_reducible refine memWf_each ?_ ?_
    | with_reducible refine memWf_raise ?_
    | with_reducible refine memWf_marginalEvent ?_
    | with_reducible refine memWf_strapEvents ?_
    | with_reducible refine memWf_State_onStraps ?_
    | with_reducible refine memWf_State_onVault ?_
    | with_reducible refine memWf_startRekindle ?_)

theorem memWf_execEmberEntry {s : State}  (hF : MemWf s) : OutWf (execEmberEntry s) := by
  delta execEmberEntry
  repeat (any_goals first
    | with_reducible assumption
    | (intro a x hx; beta_reduce)
    | (intro x hx; beta_reduce)
    | (extract_lets +onlyGivenNames x; refine (have hx : MemWf x := ?_; ?_); (on_goal 1 => subst x); (on_goal 2 => clear_value x))
    | (extract_lets +onlyGivenNames x; subst x)
    | refine outWf_next ?_
    | split
    | with_reducible refine memWf_whenDue ?_ ?_
    | with_reducible refine memWf_leaveFull ?_
    | with_reducible refine memWf_closeSession ?_
    | with_reducible refine memWf_closeAllStreams ?_
    | with_reducible refine memWf_State_onTiers ?_
    | with_reducible refine memWf_State_mapChans ?_
    | with_reducible refine memWf_State_onTables ?_
    | with_reducible refine memWf_State_onSupply ?_
    | with_reducible exact setEntry_wf (by assumption)
    | with_reducible exact writeN_wf (by assumption)
    | with_reducible exact windowWrap_wf (by assumption)
    | with_reducible exact writeLanes_wf (by assumption)
    | exact repairRow_memWf (by assumption) (by assumption)
    | refine memWf_with ?_
    | dsimp only
    | exact wf_cells (by assumption) rfl
    | exact cellsWf_filter (by assumption)
    | exact ⟨wf_cells hx.wf rfl⟩)

theorem memWf_execBrownoutNoHearth {s : State}  (hF : MemWf s) : OutWf (execBrownoutNoHearth s) := by
  delta execBrownoutNoHearth
  repeat (any_goals first
    | with_reducible assumption
    | (intro a x hx; beta_reduce)
    | (intro x hx; beta_reduce)
    | (extract_lets +onlyGivenNames x; refine (have hx : MemWf x := ?_; ?_); (on_goal 1 => subst x); (on_goal 2 => clear_value x))
    | (extract_lets +onlyGivenNames x; clear_value x)
    | refine outWf_next ?_
    | split
    | with_reducible refine memWf_whenDue ?_ ?_
    | with_reducible refine memWf_chipReset ?_
    | with_reducible refine memWf_State_onSupply ?_)

theorem memWf_execEmberWake {s : State}  (hF : MemWf s) : OutWf (execEmberWake s) := by
  delta execEmberWake
  repeat (any_goals first
    | with_reducible assumption
    | (intro a x hx; beta_reduce)
    | (intro x hx; beta_reduce)
    | (extract_lets +onlyGivenNames x; refine (have hx : MemWf x := ?_; ?_); (on_goal 1 => subst x); (on_goal 2 => clear_value x))
    | (extract_lets +onlyGivenNames x; clear_value x)
    | refine outWf_next ?_
    | split
    | with_reducible refine memWf_whenDue ?_ ?_
    | with_reducible refine memWf_State_onSupply ?_
    | with_reducible refine memWf_State_mapChans ?_
    | with_reducible refine memWf_onMem ?_ ?_
    | with_reducible refine memWf_chipReset ?_
    | with_reducible exact setEntry_wf (by assumption)
    | with_reducible exact writeN_wf (by assumption)
    | with_reducible exact windowWrap_wf (by assumption)
    | with_reducible exact writeLanes_wf (by assumption)
    | exact repairRow_memWf (by assumption) (by assumption)
    | refine memWf_with ?_
    | dsimp only
    | exact wf_cells (by assumption) rfl
    | exact cellsWf_filter (by assumption))

theorem memWf_enterHoldover {s : State}  (hF : MemWf s) : MemWf (enterHoldover s) :=
  memWf_of_alters (frame_enterHoldover (List.Subset.refl _) (frame_refl _ _)) (by decide) hF

theorem memWf_execPllLockLost {s : State}  (hF : MemWf s) : OutWf (execPllLockLost s) := by
  delta execPllLockLost
  repeat (any_goals first
    | with_reducible assumption
    | (extract_lets +onlyGivenNames x; refine (have hx : MemWf x := ?_; ?_); (on_goal 1 => subst x); (on_goal 2 => clear_value x))
    | (extract_lets +onlyGivenNames x; clear_value x)
    | refine outWf_next ?_
    | split
    | with_reducible refine memWf_State_onSupply ?_
    | with_reducible refine memWf_chipReset ?_)

theorem memWf_queueRecords {s : State} {rs : List (List Byte)} {hands : BitVec 16} (hF : MemWf s) : MemWf (queueRecords s rs hands) := by
  delta queueRecords
  repeat (any_goals first
    | with_reducible assumption
    | (intro a x hx; beta_reduce)
    | (intro x hx; beta_reduce)
    | (extract_lets +onlyGivenNames x; refine (have hx : MemWf x := ?_; ?_); (on_goal 1 => subst x); (on_goal 2 => clear_value x))
    | (extract_lets +onlyGivenNames x; clear_value x)
    | with_reducible refine memWf_each ?_ ?_
    | with_reducible refine memWf_pushEventRecords ?_)

theorem memWf_drainHolding {s : State}  (hF : MemWf s) : MemWf (drainHolding s) := by
  delta drainHolding
  repeat (any_goals first
    | with_reducible assumption
    | (intro a x hx; beta_reduce)
    | (intro x hx; beta_reduce)
    | (extract_lets +onlyGivenNames x; refine (have hx : MemWf x := ?_; ?_); (on_goal 1 => subst x); (on_goal 2 => clear_value x))
    | (extract_lets +onlyGivenNames x; clear_value x)
    | split
    | with_reducible refine memWf_each ?_ ?_
    | with_reducible refine memWf_pushEventRecords ?_
    | with_reducible refine memWf_queueRecords ?_
    | with_reducible refine memWf_State_onEvents ?_)

theorem memWf_holdEvent {s : State} {e : Event} (hF : MemWf s) : MemWf (holdEvent s e) :=
  memWf_of_alters (frame_holdEvent (List.Subset.refl _) (frame_refl _ _)) (by decide) hF

theorem memWf_execEventRelease {s : State}  (hF : MemWf s) : OutWf (execEventRelease s) := by
  delta execEventRelease
  repeat (any_goals first
    | with_reducible assumption
    | (intro a x hx; beta_reduce)
    | (intro x hx; beta_reduce)
    | (extract_lets +onlyGivenNames x; refine (have hx : MemWf x := ?_; ?_); (on_goal 1 => subst x); (on_goal 2 => clear_value x))
    | (extract_lets +onlyGivenNames x; clear_value x)
    | refine outWf_next ?_
    | split
    | with_reducible refine memWf_whenDue ?_ ?_
    | with_reducible refine memWf_State_onEvents ?_
    | with_reducible refine memWf_queueRecords ?_
    | with_reducible refine memWf_drainHolding ?_
    | with_reducible refine memWf_holdEvent ?_)

theorem memWf_execHoldingStoreDrain {s : State}  (hF : MemWf s) : OutWf (execHoldingStoreDrain s) := by
  delta execHoldingStoreDrain
  repeat (any_goals first
    | with_reducible assumption
    | (intro a x hx; beta_reduce)
    | (intro x hx; beta_reduce)
    | refine outWf_next ?_
    | with_reducible refine memWf_whenDue ?_ ?_
    | with_reducible refine memWf_drainHolding ?_)

theorem memWf_execNodeResetApply {s : State}  (hF : MemWf s) : OutWf (execNodeResetApply s) := by
  delta execNodeResetApply
  repeat (any_goals first
    | with_reducible assumption
    | (intro a x hx; beta_reduce)
    | (intro x hx; beta_reduce)
    | (extract_lets +onlyGivenNames x; refine (have hx : MemWf x := ?_; ?_); (on_goal 1 => subst x); (on_goal 2 => clear_value x))
    | (extract_lets +onlyGivenNames x; clear_value x)
    | refine outWf_next ?_
    | with_reducible refine memWf_whenDue ?_ ?_
    | with_reducible refine memWf_chipReset ?_)

theorem memWf_stompCopies {s : State} {from_ : Port} (hF : MemWf s) : MemWf (stompCopies s from_) :=
  memWf_of_alters (frame_stompCopies (List.Subset.refl _) (frame_refl _ _)) (by decide) hF

theorem memWf_execPortResetApply {s : State} {p : Port} (hF : MemWf s) : OutWf (execPortResetApply p s) := by
  delta execPortResetApply
  repeat (any_goals first
    | with_reducible assumption
    | (intro a x hx; beta_reduce)
    | (intro x hx; beta_reduce)
    | (extract_lets +onlyGivenNames x; refine (have hx : MemWf x := ?_; ?_); (on_goal 1 => subst x); (on_goal 2 => clear_value x))
    | (extract_lets +onlyGivenNames x; clear_value x)
    | refine outWf_next ?_
    | split
    | with_reducible refine memWf_whenDue ?_ ?_
    | with_reducible refine memWf_declineAll ?_
    | with_reducible refine memWf_enterHoldover ?_
    | with_reducible refine memWf_endOps ?_
    | with_reducible refine memWf_stompCopies ?_
    | with_reducible refine memWf_leaveUp ?_
    | with_reducible refine memWf_clearCounters ?_
    | with_reducible refine memWf_State_onPort ?_)

theorem memWf_stopIngress {s : State} {p : Port} (hF : MemWf s) : MemWf (stopIngress s p) :=
  memWf_of_alters (frame_stopIngress (List.Subset.refl _) (frame_refl _ _)) (by decide) hF

theorem memWf_clearPipe {s : State} {p : Port} (hF : MemWf s) : MemWf (clearPipe s p) := by
  delta clearPipe
  repeat (any_goals first
    | with_reducible assumption
    | (intro a x hx; beta_reduce)
    | (intro x hx; beta_reduce)
    | (extract_lets +onlyGivenNames x; refine (have hx : MemWf x := ?_; ?_); (on_goal 1 => subst x); (on_goal 2 => clear_value x))
    | (extract_lets +onlyGivenNames x; refine (have hx : MemWf x.2 := ?_; ?_); (on_goal 1 => subst x); (on_goal 2 => clear_value x))
    | (extract_lets +onlyGivenNames x; clear_value x)
    | split
    | with_reducible refine memWf_State_draw ?_
    | with_reducible refine memWf_State_onPipe ?_
    | with_reducible refine memWf_onMem ?_ ?_
    | with_reducible exact setEntry_wf (by assumption)
    | with_reducible exact writeN_wf (by assumption)
    | with_reducible exact windowWrap_wf (by assumption)
    | with_reducible exact writeLanes_wf (by assumption)
    | exact repairRow_memWf (by assumption) (by assumption)
    | refine memWf_with ?_
    | dsimp only
    | exact wf_cells (by assumption) rfl
    | exact cellsWf_filter (by assumption))

theorem memWf_execPipeResetApply {s : State} {p : Port} (hF : MemWf s) : OutWf (execPipeResetApply p s) := by
  delta execPipeResetApply
  repeat (any_goals first
    | with_reducible assumption
    | (intro a x hx; beta_reduce)
    | (intro x hx; beta_reduce)
    | (extract_lets +onlyGivenNames x; refine (have hx : MemWf x := ?_; ?_); (on_goal 1 => subst x); (on_goal 2 => clear_value x))
    | (extract_lets +onlyGivenNames x; clear_value x)
    | refine outWf_next ?_
    | split
    | with_reducible refine memWf_whenDue ?_ ?_
    | with_reducible refine memWf_stopIngress ?_
    | with_reducible refine memWf_endOps ?_
    | with_reducible refine memWf_clearPipe ?_)

theorem memWf_reclaimBucket {s : State} {p : Port} {b : Nat} (hF : MemWf s) : MemWf (reclaimBucket s p b) := by
  delta reclaimBucket
  repeat (any_goals first
    | with_reducible assumption
    | (intro a x hx; beta_reduce)
    | (intro x hx; beta_reduce)
    | (extract_lets +onlyGivenNames x; refine (have hx : MemWf x := ?_; ?_); (on_goal 1 => subst x); (on_goal 2 => clear_value x))
    | (extract_lets +onlyGivenNames x; clear_value x)
    | split
    | with_reducible refine memWf_each ?_ ?_
    | with_reducible refine memWf_setHash ?_)

theorem memWf_execReclaimPassVisit {s : State}  (hF : MemWf s) : OutWf (execReclaimPassVisit s) := by
  delta execReclaimPassVisit
  repeat (any_goals first
    | with_reducible assumption
    | (intro a x hx; beta_reduce)
    | (intro x hx; beta_reduce)
    | refine outWf_next ?_
    | split
    | with_reducible refine memWf_whenDue ?_ ?_
    | with_reducible refine memWf_reclaimBucket ?_
    | with_reducible refine memWf_State_onTables ?_)

theorem memWf_takeHeader {s : State} {p : Port} {h : Header} (hF : MemWf s) : MemWf (takeHeader s p h) :=
  memWf_of_alters (frame_takeHeader (List.Subset.refl _) (frame_refl _ _)) (by decide) hF

theorem memWf_execHeaderDecision {s : State} {p : Port} {hdr : List Byte} {ecc : Ecc} (hF : MemWf s) : OutWf (execHeaderDecision p hdr ecc s) := by
  delta execHeaderDecision
  repeat (any_goals first
    | with_reducible assumption
    | (intro a x hx; beta_reduce)
    | (intro x hx; beta_reduce)
    | (extract_lets +onlyGivenNames x; refine (have hx : MemWf x := ?_; ?_); (on_goal 1 => subst x); (on_goal 2 => clear_value x))
    | (extract_lets +onlyGivenNames x; clear_value x)
    | refine outWf_next ?_
    | split
    | with_reducible refine memWf_whenDue ?_ ?_
    | with_reducible refine memWf_stompCopies ?_
    | with_reducible refine memWf_State_onPort ?_
    | with_reducible refine memWf_countPort ?_
    | with_reducible refine memWf_takeHeader ?_
    | with_reducible refine memWf_eccApply ?_)

theorem memWf_completeCopies {s : State} {from_ : Port} {payload : List Byte} {crc : Crc} (hF : MemWf s) : MemWf (completeCopies s from_ payload crc) :=
  memWf_of_alters (frame_completeCopies (List.Subset.refl _) (frame_refl _ _)) (by decide) hF

theorem memWf_countTimes {s : State} {p : Port} {code n : Nat} (hF : MemWf s) : MemWf (countTimes s p code n) :=
  memWf_of_alters (frame_countTimes (List.Subset.refl _) (frame_refl _ _)) (by decide) hF

theorem memWf_deliverLocal {s : State} {p : Port} {h : Header} {m : Meta} {payload : List Byte} (hF : MemWf s) : MemWf (deliverLocal s p h m payload) :=
  memWf_of_alters (frame_deliverLocal (List.Subset.refl _) (frame_refl _ _)) (by decide) hF

theorem memWf_learnPlace {s : State} {p : Port} {b : List Byte} (hF : MemWf s) : MemWf (learnPlace s p b) :=
  memWf_of_alters (frame_learnPlace (List.Subset.refl _) (frame_refl _ _)) (by decide) hF

theorem memWf_learnFrom {s : State} {p : Port} {h : Header} {payload : List Byte} (hF : MemWf s) : MemWf (learnFrom s p h payload) := by
  delta learnFrom
  repeat (any_goals first
    | with_reducible assumption
    | (extract_lets +onlyGivenNames x; refine (have hx : MemWf x := ?_; ?_); (on_goal 1 => subst x); (on_goal 2 => clear_value x))
    | (extract_lets +onlyGivenNames x; clear_value x)
    | split
    | with_reducible refine memWf_learn ?_
    | with_reducible refine memWf_learnPlace ?_)

theorem memWf_execPayloadCheck {s : State} {p : Port} {payload : List Byte} {pcrc : BitVec 32} (hF : MemWf s) : OutWf (execPayloadCheck p payload pcrc s) := by
  delta execPayloadCheck
  repeat (any_goals first
    | with_reducible assumption
    | (intro a x hx; beta_reduce)
    | (intro x hx; beta_reduce)
    | (extract_lets +onlyGivenNames x; refine (have hx : MemWf x := ?_; ?_); (on_goal 1 => subst x); (on_goal 2 => clear_value x))
    | (extract_lets +onlyGivenNames x; clear_value x)
    | refine outWf_next ?_
    | split
    | with_reducible refine memWf_whenDue ?_ ?_
    | with_reducible refine memWf_State_onPort ?_
    | with_reducible refine memWf_completeCopies ?_
    | with_reducible refine memWf_countTimes ?_
    | with_reducible refine memWf_deliverLocal ?_
    | with_reducible refine memWf_learnFrom ?_
    | with_reducible refine memWf_countPort ?_)

theorem memWf_respond {s : State} {f : CmdFrame} {status : Nat} {flags : Nat} {body : List Byte} (hF : MemWf s) : MemWf (respond s f status flags body) :=
  memWf_of_alters (frame_respond (List.Subset.refl _) (frame_refl _ _)) (by decide) hF

theorem memWf_respondPlain {s : State} {f : CmdFrame} {status : Nat} {body : List Byte} (hF : MemWf s) : MemWf (respondPlain s f status body) :=
  memWf_of_alters (frame_respondPlain (List.Subset.refl _) (frame_refl _ _)) (by decide) hF

theorem memWf_resendStored {s : State} {f : CmdFrame} {q : QFrame} (hF : MemWf s) : MemWf (resendStored s f q) :=
  memWf_of_alters (frame_resendStored (List.Subset.refl _) (frame_refl _ _)) (by decide) hF

theorem memWf_becomeAwaiting {s : State} {f : CmdFrame} {x : List Byte} (hF : MemWf s) : MemWf (becomeAwaiting s f x) :=
  memWf_of_alters (frame_becomeAwaiting (List.Subset.refl _) (frame_refl _ _)) (by decide) hF

theorem memWf_takeInput {s : State} {f : CmdFrame} (hF : MemWf s) : MemWf (takeInput s f) :=
  memWf_of_alters (frame_takeInput (List.Subset.refl _) (frame_refl _ _)) (by decide) hF

theorem memWf_acceptSeq {s : State} {f : CmdFrame} (hF : MemWf s) : MemWf (acceptSeq s f) :=
  memWf_of_alters (frame_acceptSeq (List.Subset.refl _) (frame_refl _ _)) (by decide) hF

theorem memWf_execute {s : State} {c : Cmd} {f : CmdFrame} (hc : ∀ x, MemWf x → MemWf (c.run f x).2) (hF : MemWf s) :
    MemWf (execute c f s) := by
  have h := hc s hF
  unfold execute
  split
  · exact memWf_becomeAwaiting hF
  · split
    · next he =>
      rw [he] at h
      exact memWf_respond h
    · next he => rw [he] at h; exact h

theorem memWf_runCommand {s : State} {c : Cmd} {f : CmdFrame} (hc : ∀ x, MemWf x → MemWf (c.run f x).2) (hF : MemWf s) :
    MemWf (runCommand c f s) := by
  delta runCommand
  repeat (any_goals first
    | with_reducible assumption
    | (extract_lets +onlyGivenNames x; refine (have hx : MemWf x := ?_; ?_); (on_goal 1 => subst x); (on_goal 2 => clear_value x))
    | (extract_lets +onlyGivenNames x; clear_value x)
    | split
    | with_reducible refine memWf_execute hc ?_
    | with_reducible refine memWf_takeInput ?_
    | with_reducible refine memWf_countCmd ?_
    | with_reducible refine memWf_fixedTake ?_
    | with_reducible refine memWf_respondPlain ?_
    | with_reducible refine memWf_resendStored ?_
    | with_reducible refine memWf_acceptSeq ?_
    | with_reducible refine memWf_respond ?_)

theorem memWf_freeHash {s : State} {p : Port} {l : HLoc} (hF : MemWf s) : MemWf (freeHash p l s) := by
  delta freeHash
  repeat (any_goals first
    | with_reducible assumption
    | (extract_lets +onlyGivenNames x; refine (have hx : MemWf x := ?_; ?_); (on_goal 1 => subst x); (on_goal 2 => clear_value x))
    | (extract_lets +onlyGivenNames x; clear_value x)
    | split
    | with_reducible refine memWf_setHash ?_
    | with_reducible refine memWf_countLearned ?_)

theorem memWf_agingVisit {s : State} {p : Port} (hF : MemWf s) : MemWf (agingVisit s p) := by
  delta agingVisit
  repeat (any_goals first
    | with_reducible assumption
    | (intro a x hx; beta_reduce)
    | (intro x hx; beta_reduce)
    | (extract_lets +onlyGivenNames x; refine (have hx : MemWf x := ?_; ?_); (on_goal 1 => subst x); (on_goal 2 => clear_value x))
    | (extract_lets +onlyGivenNames x; clear_value x)
    | with_reducible refine memWf_each ?_ ?_
    | with_reducible refine memWf_freeHash ?_
    | with_reducible refine memWf_State_onPipe ?_)

theorem memWf_execAgingScannerVisit {s : State} {p : Port} (hF : MemWf s) : OutWf (execAgingScannerVisit p s) := by
  delta execAgingScannerVisit
  repeat (any_goals first
    | with_reducible assumption
    | (intro a x hx; beta_reduce)
    | (intro x hx; beta_reduce)
    | refine outWf_next ?_
    | with_reducible refine memWf_whenDue ?_ ?_
    | with_reducible refine memWf_agingVisit ?_)

theorem memWf_writeShadow {s : State}  (hF : MemWf s) : MemWf (writeShadow s) := by
  delta writeShadow
  repeat (any_goals first
    | with_reducible assumption
    | (intro a x hx; beta_reduce)
    | (intro x hx; beta_reduce)
    | (extract_lets +onlyGivenNames x; refine (have hx : MemWf x := ?_; ?_); (on_goal 1 => subst x); (on_goal 2 => clear_value x))
    | (extract_lets +onlyGivenNames x; clear_value x)
    | with_reducible refine memWf_each ?_ ?_
    | with_reducible refine memWf_onMem ?_ ?_
    | with_reducible refine memWf_State_onTables ?_
    | with_reducible exact setEntry_wf (by assumption)
    | with_reducible exact writeN_wf (by assumption)
    | with_reducible exact windowWrap_wf (by assumption)
    | with_reducible exact writeLanes_wf (by assumption)
    | exact repairRow_memWf (by assumption) (by assumption)
    | refine memWf_with ?_
    | dsimp only
    | exact wf_cells (by assumption) rfl
    | exact cellsWf_filter (by assumption))

theorem memWf_batchDone {s : State}  (hF : MemWf s) : MemWf (batchDone s) :=
  memWf_of_alters (frame_batchDone (List.Subset.refl _) (frame_refl _ _)) (by decide) hF

theorem memWf_execCommitWritebackDone {s : State}  (hF : MemWf s) : OutWf (execCommitWritebackDone s) := by
  delta execCommitWritebackDone
  repeat (any_goals first
    | with_reducible assumption
    | (intro a x hx; beta_reduce)
    | (intro x hx; beta_reduce)
    | refine outWf_next ?_
    | with_reducible refine memWf_whenDue ?_ ?_
    | with_reducible refine memWf_batchDone ?_
    | with_reducible refine memWf_writeShadow ?_)

theorem memWf_flushBucket {s : State} {p : Port} {o : Op} (hF : MemWf s) : MemWf (flushBucket s p o) := by
  delta flushBucket
  repeat (any_goals first
    | with_reducible assumption
    | (intro a x hx; beta_reduce)
    | (intro x hx; beta_reduce)
    | with_reducible refine memWf_each ?_ ?_
    | with_reducible refine memWf_freeHash ?_)

theorem memWf_flushDrain {s : State} {o : Op} (hF : MemWf s) : MemWf (flushDrain s o) :=
  memWf_of_alters (frame_flushDrain (List.Subset.refl _) (frame_refl _ _)) (by decide) hF

theorem memWf_flushBoundary {s : State} {o : Op} (hF : MemWf s) : MemWf (flushBoundary s o) := by
  delta flushBoundary
  repeat (any_goals first
    | with_reducible assumption
    | (extract_lets +onlyGivenNames x; refine (have hx : MemWf x := ?_; ?_); (on_goal 1 => subst x); (on_goal 2 => clear_value x))
    | (extract_lets +onlyGivenNames x; clear_value x)
    | split
    | with_reducible refine memWf_onOp ?_
    | with_reducible refine memWf_opRollback ?_
    | with_reducible refine memWf_opEnter ?_
    | with_reducible refine memWf_flushDrain ?_)

theorem memWf_flushPrefixes {s : State} {p : Port} (hF : MemWf s) : MemWf (flushPrefixes s p) :=
  memWf_of_alters (frame_flushPrefixes (List.Subset.refl _) (frame_refl _ _)) (by decide) hF

theorem memWf_execFlushPortStep {s : State} {handle : BitVec 16} (hF : MemWf s) : OutWf (execFlushPortStep handle s) := by
  delta execFlushPortStep
  repeat (any_goals first
    | with_reducible assumption
    | (intro a x hx; beta_reduce)
    | (intro x hx; beta_reduce)
    | refine outWf_next ?_
    | split
    | with_reducible refine memWf_whenDue ?_ ?_
    | with_reducible refine memWf_flushBoundary ?_
    | with_reducible refine memWf_flushBucket ?_
    | with_reducible refine memWf_flushDrain ?_
    | with_reducible refine memWf_flushPrefixes ?_)

theorem memWf_execOriginEntryRemove {s : State} {sid : BitVec 16} (hF : MemWf s) : OutWf (execOriginEntryRemove sid s) := by
  delta execOriginEntryRemove
  repeat (any_goals first
    | with_reducible assumption
    | (intro a x hx; beta_reduce)
    | (intro x hx; beta_reduce)
    | (extract_lets +onlyGivenNames x; refine (have hx : MemWf x := ?_; ?_); (on_goal 1 => subst x); (on_goal 2 => clear_value x))
    | (extract_lets +onlyGivenNames x; clear_value x)
    | refine outWf_next ?_
    | split
    | with_reducible refine memWf_whenDue ?_ ?_
    | with_reducible refine memWf_setStreamEntry ?_
    | with_reducible refine memWf_invertEpoch ?_
    | with_reducible refine memWf_of_alters ((frame_mk_streams (L := [.streams]) (by decide)).mpr (frame_refl _ _)) (by decide) ?_
    | dsimp only)

theorem memWf_handResetStart {s : State} {h : Fin 16} (hF : MemWf s) : MemWf (handResetStart s h) := by
  delta handResetStart
  repeat (any_goals first
    | with_reducible assumption
    | (intro a x hx; beta_reduce)
    | (intro x hx; beta_reduce)
    | (extract_lets +onlyGivenNames x; refine (have hx : MemWf x := ?_; ?_); (on_goal 1 => subst x); (on_goal 2 => clear_value x))
    | (extract_lets +onlyGivenNames x; clear_value x)
    | split
    | with_reducible refine memWf_each ?_ ?_
    | with_reducible refine memWf_closeSession ?_
    | with_reducible refine memWf_State_onHand ?_
    | with_reducible refine memWf_dropPending ?_
    | with_reducible refine memWf_State_onTables ?_
    | with_reducible refine memWf_endOps ?_
    | with_reducible refine memWf_invertEpoch ?_
    | with_reducible refine memWf_setStreamEntry ?_
    | with_reducible refine memWf_mirrorStations ?_
    | with_reducible refine memWf_freeGrids ?_
    | with_reducible refine memWf_of_alters ((frame_mk_streams (L := [.streams]) (by decide)).mpr (frame_refl _ _)) (by decide) ?_
    | dsimp only)

theorem memWf_execScrubWrite {s : State}  (hF : MemWf s) : OutWf (execScrubWrite s) := by
  delta execScrubWrite
  repeat (any_goals first
    | with_reducible assumption
    | (intro a x hx; beta_reduce)
    | (intro x hx; beta_reduce)
    | refine outWf_next ?_
    | with_reducible refine memWf_whenDue ?_ ?_
    | with_reducible refine memWf_onMem ?_ ?_
    | with_reducible exact setEntry_wf (by assumption)
    | with_reducible exact writeN_wf (by assumption)
    | with_reducible exact windowWrap_wf (by assumption)
    | with_reducible exact writeLanes_wf (by assumption)
    | exact repairRow_memWf (by assumption) (by assumption)
    | refine memWf_with ?_
    | dsimp only
    | exact wf_cells (by assumption) rfl
    | exact cellsWf_filter (by assumption))

theorem memWf_sweepRegion {s : State} {r : Nat} {obs : SweepObs} (hF : MemWf s) : MemWf (sweepRegion s r obs) := by
  delta sweepRegion
  repeat (any_goals first
    | with_reducible assumption
    | (extract_lets +onlyGivenNames x; refine (have hx : MemWf x := ?_; ?_); (on_goal 1 => subst x); (on_goal 2 => clear_value x))
    | (extract_lets +onlyGivenNames x; clear_value x)
    | split
    | with_reducible refine memWf_eccApply ?_
    | with_reducible refine memWf_bump ?_
    | with_reducible refine memWf_raise ?_
    | with_reducible exact setEntry_wf (by assumption)
    | with_reducible exact writeN_wf (by assumption)
    | with_reducible exact windowWrap_wf (by assumption)
    | with_reducible exact writeLanes_wf (by assumption)
    | exact repairRow_memWf (by assumption) (by assumption)
    | refine memWf_with ?_
    | dsimp only
    | exact wf_cells (by assumption) rfl
    | exact cellsWf_filter (by assumption))

theorem memWf_sweepBoundary {s : State} {o : Op} {next : Nat} (hF : MemWf s) : MemWf (sweepBoundary s o next) := by
  delta sweepBoundary
  repeat (any_goals first
    | with_reducible assumption
    | (intro a x hx; beta_reduce)
    | (intro x hx; beta_reduce)
    | (extract_lets +onlyGivenNames x; refine (have hx : MemWf x := ?_; ?_); (on_goal 1 => subst x); (on_goal 2 => clear_value x))
    | (extract_lets +onlyGivenNames x; clear_value x)
    | split
    | with_reducible refine memWf_onOp ?_
    | with_reducible refine memWf_opEnd ?_
    | with_reducible refine memWf_onMem ?_ ?_
    | with_reducible refine memWf_opRollback ?_
    | with_reducible refine memWf_opEnter ?_
    | with_reducible exact setEntry_wf (by assumption)
    | with_reducible exact writeN_wf (by assumption)
    | with_reducible exact windowWrap_wf (by assumption)
    | with_reducible exact writeLanes_wf (by assumption)
    | exact repairRow_memWf (by assumption) (by assumption)
    | refine memWf_with ?_
    | dsimp only
    | exact wf_cells (by assumption) rfl
    | exact cellsWf_filter (by assumption))

theorem memWf_execSweepRegionStart {s : State} {obs : SweepObs} (hF : MemWf s) : OutWf (execSweepRegionStart obs s) := by
  delta execSweepRegionStart
  repeat (any_goals first
    | with_reducible assumption
    | (intro a x hx; beta_reduce)
    | (intro x hx; beta_reduce)
    | (extract_lets +onlyGivenNames x; refine (have hx : MemWf x := ?_; ?_); (on_goal 1 => subst x); (on_goal 2 => clear_value x))
    | (extract_lets +onlyGivenNames x; clear_value x)
    | refine outWf_next ?_
    | split
    | with_reducible refine memWf_whenDue ?_ ?_
    | with_reducible refine memWf_sweepRegion ?_
    | with_reducible refine memWf_onMem ?_ ?_
    | with_reducible refine memWf_sweepBoundary ?_
    | with_reducible exact setEntry_wf (by assumption)
    | with_reducible exact writeN_wf (by assumption)
    | with_reducible exact windowWrap_wf (by assumption)
    | with_reducible exact writeLanes_wf (by assumption)
    | exact repairRow_memWf (by assumption) (by assumption)
    | refine memWf_with ?_
    | dsimp only
    | exact wf_cells (by assumption) rfl
    | exact cellsWf_filter (by assumption))

theorem memWf_execWakeScrubEnd {s : State}  (hF : MemWf s) : OutWf (execWakeScrubEnd s) := by
  delta execWakeScrubEnd
  repeat (any_goals first
    | with_reducible assumption
    | (intro a x hx; beta_reduce)
    | (intro x hx; beta_reduce)
    | refine outWf_next ?_
    | with_reducible refine memWf_whenDue ?_ ?_
    | with_reducible refine memWf_onMem ?_ ?_
    | with_reducible exact setEntry_wf (by assumption)
    | with_reducible exact writeN_wf (by assumption)
    | with_reducible exact windowWrap_wf (by assumption)
    | with_reducible exact writeLanes_wf (by assumption)
    | exact repairRow_memWf (by assumption) (by assumption)
    | refine memWf_with ?_
    | dsimp only
    | exact wf_cells (by assumption) rfl
    | exact cellsWf_filter (by assumption))

theorem memWf_cjReference {s : State} {n : Fin 24} {obs : SampleObs} (hF : MemWf s) : MemWf (cjReference s n obs) :=
  memWf_of_alters (frame_cjReference (List.Subset.refl _) (frame_refl _ _)) (by decide) hF

theorem memWf_produce {s : State} {n : Fin 24} {t : Tick} {value : BitVec 24} {tag : BitVec 8} (hF : MemWf s) : MemWf (produce s n t value tag) := by
  delta produce
  repeat (any_goals first
    | with_reducible assumption
    | (intro a x hx; beta_reduce)
    | (intro x hx; beta_reduce)
    | (extract_lets +onlyGivenNames x; refine (have hx : MemWf x := ?_; ?_); (on_goal 1 => subst x); (on_goal 2 => clear_value x))
    | (extract_lets +onlyGivenNames x; clear_value x)
    | split
    | with_reducible refine memWf_onMem ?_ ?_
    | with_reducible refine memWf_State_onChan ?_
    | with_reducible refine memWf_of_alters ((frame_mk_streams (L := [.streams]) (by decide)).mpr (frame_refl _ _)) (by decide) ?_
    | with_reducible exact setEntry_wf (by assumption)
    | with_reducible exact writeN_wf (by assumption)
    | with_reducible exact windowWrap_wf (by assumption)
    | with_reducible exact writeLanes_wf (by assumption)
    | exact repairRow_memWf (by assumption) (by assumption)
    | refine memWf_with ?_
    | dsimp only
    | exact wf_cells (by assumption) rfl
    | exact cellsWf_filter (by assumption))

theorem memWf_produceStale {s : State} {n : Fin 24} {p : BitVec 8} {t : Tick} (hF : MemWf s) : MemWf (produceStale s n p t) := by
  delta produceStale
  repeat (any_goals first
    | with_reducible assumption
    | (extract_lets +onlyGivenNames x; refine (have hx : MemWf x := ?_; ?_); (on_goal 1 => subst x); (on_goal 2 => clear_value x))
    | (extract_lets +onlyGivenNames x; clear_value x)
    | with_reducible refine memWf_produce ?_
    | with_reducible refine memWf_State_onChan ?_)

theorem memWf_sensorChecks {s : State} {n : Fin 24} {p : BitVec 8} {obs : SampleObs} (hF : MemWf s) : MemWf (sensorChecks s n p obs) :=
  memWf_of_alters (frame_sensorChecks (List.Subset.refl _) (frame_refl _ _)) (by decide) hF

theorem memWf_pathChecks {s : State} {n : Fin 24} {p : BitVec 8} {obs : SampleObs} {k : Conv} (hF : MemWf s) : MemWf (pathChecks s n p obs k) :=
  memWf_of_alters (frame_pathChecks (List.Subset.refl _) (frame_refl _ _)) (by decide) hF

theorem memWf_produceFresh {s : State} {n : Fin 24} {p : BitVec 8} {k : Conv} {st : Ranging} {seam : Bool} {cj : Int} (hF : MemWf s) : MemWf (produceFresh s n p k st seam cj) := by
  delta produceFresh
  repeat (any_goals first
    | with_reducible assumption
    | (extract_lets +onlyGivenNames x; refine (have hx : MemWf x := ?_; ?_); (on_goal 1 => subst x); (on_goal 2 => clear_value x))
    | (extract_lets +onlyGivenNames x; refine (have hx : MemWf x.2 := ?_; ?_); (on_goal 1 => subst x); (on_goal 2 => clear_value x))
    | (extract_lets +onlyGivenNames x; clear_value x)
    | split
    | with_reducible refine memWf_State_draw ?_
    | with_reducible refine memWf_State_onChan ?_
    | with_reducible refine memWf_clearLatching ?_
    | with_reducible refine memWf_raise ?_
    | with_reducible refine memWf_produce ?_
    | refine memWf_pair (by with_reducible assumption) ?_
    | dsimp only)

theorem memWf_produceBlanked {s : State} {n : Fin 24} {p : BitVec 8} {t : Tick} (hF : MemWf s) : MemWf (produceBlanked s n p t) := by
  delta produceBlanked
  repeat (any_goals first
    | with_reducible assumption
    | (extract_lets +onlyGivenNames x; refine (have hx : MemWf x := ?_; ?_); (on_goal 1 => subst x); (on_goal 2 => clear_value x))
    | (extract_lets +onlyGivenNames x; clear_value x)
    | split
    | with_reducible refine memWf_produce ?_)

theorem memWf_inputSample {s : State} {n : Fin 24} {p : BitVec 8} {obs : SampleObs} (hF : MemWf s) : MemWf (inputSample s n p obs) := by
  delta inputSample
  repeat (any_goals first
    | with_reducible assumption
    | (extract_lets +onlyGivenNames x; refine (have hx : MemWf x := ?_; ?_); (on_goal 1 => subst x); (on_goal 2 => clear_value x))
    | (extract_lets +onlyGivenNames x; clear_value x)
    | split
    | with_reducible refine memWf_State_onChan ?_
    | with_reducible refine memWf_produceBlanked ?_
    | with_reducible refine memWf_produceStale ?_
    | with_reducible refine memWf_pathChecks ?_
    | with_reducible refine memWf_sensorChecks ?_
    | with_reducible refine memWf_produceFresh ?_)

theorem memWf_outputSample {s : State} {n : Fin 24} {p : BitVec 8} {t : Tick} (hF : MemWf s) : MemWf (outputSample s n p t) := by
  delta outputSample
  repeat (any_goals first
    | with_reducible assumption
    | (extract_lets +onlyGivenNames x; refine (have hx : MemWf x := ?_; ?_); (on_goal 1 => subst x); (on_goal 2 => clear_value x))
    | (extract_lets +onlyGivenNames x; refine (have hx : MemWf x.2 := ?_; ?_); (on_goal 1 => subst x); (on_goal 2 => clear_value x))
    | (extract_lets +onlyGivenNames x; clear_value x)
    | split
    | with_reducible refine memWf_State_onChan ?_
    | with_reducible refine memWf_State_draw ?_
    | with_reducible refine memWf_produce ?_
    | dsimp only)

theorem memWf_execSampleReady {s : State} {ch : Fin 24} {obs : SampleObs} (hF : MemWf s) : OutWf (execSampleReady ch obs s) := by
  delta execSampleReady
  repeat (any_goals first
    | with_reducible assumption
    | (intro a x hx; beta_reduce)
    | (intro x hx; beta_reduce)
    | (extract_lets +onlyGivenNames x; refine (have hx : MemWf x := ?_; ?_); (on_goal 1 => subst x); (on_goal 2 => clear_value x))
    | (extract_lets +onlyGivenNames x; clear_value x)
    | refine outWf_next ?_
    | split
    | with_reducible refine memWf_whenDue ?_ ?_
    | with_reducible refine memWf_cjReference ?_
    | with_reducible refine memWf_outputSample ?_
    | with_reducible refine memWf_inputSample ?_)

theorem memWf_drivePoint {s : State} {n : Fin 24} {v : Int} (hF : MemWf s) : MemWf (drivePoint s n v) :=
  memWf_of_alters (frame_drivePoint (List.Subset.refl _) (frame_refl _ _)) (by decide) hF

theorem memWf_trimWaits {s : State} {handle : Nat} {n : Fin 24} (hF : MemWf s) : MemWf (trimWaits s handle n) :=
  memWf_of_alters (frame_trimWaits (List.Subset.refl _) (frame_refl _ _)) (by decide) hF

theorem memWf_trimCompute {s : State} {o : Op} {n : Fin 24} {two : Bool} {low : Int} {high : Int} (hF : MemWf s) : MemWf (trimCompute s o n two low high) := by
  delta trimCompute
  repeat (any_goals first
    | with_reducible assumption
    | (extract_lets +onlyGivenNames x; refine (have hx : MemWf x := ?_; ?_); (on_goal 1 => subst x); (on_goal 2 => clear_value x))
    | (extract_lets +onlyGivenNames x; refine (have hx : MemWf x.2 := ?_; ?_); (on_goal 1 => subst x); (on_goal 2 => clear_value x))
    | (extract_lets +onlyGivenNames x; clear_value x)
    | split
    | with_reducible refine memWf_State_draw ?_
    | with_reducible refine memWf_onOp ?_
    | with_reducible refine memWf_trimWaits ?_
    | with_reducible refine memWf_opRollback ?_
    | refine memWf_pair (by with_reducible assumption) ?_
    | dsimp only)

theorem memWf_execTrimStepTimeout {s : State} {handle : BitVec 16} (hF : MemWf s) : OutWf (execTrimStepTimeout handle s) := by
  delta execTrimStepTimeout
  repeat (any_goals first
    | with_reducible assumption
    | (intro a x hx; beta_reduce)
    | (intro x hx; beta_reduce)
    | refine outWf_next ?_
    | split
    | with_reducible refine memWf_whenDue ?_ ?_
    | with_reducible refine memWf_opRollback ?_)

theorem memWf_pulseFinal {s : State} {f : CmdFrame} {x : List Byte} {status : Nat} (hF : MemWf s) : MemWf (pulseFinal s f x status) :=
  memWf_of_alters (frame_pulseFinal (List.Subset.refl _) (frame_refl _ _)) (by decide) hF

theorem memWf_slotWritten {s : State} {slot : Fin 20} (hF : MemWf s) : MemWf (slotWritten s slot) :=
  memWf_of_alters (frame_slotWritten (List.Subset.refl _) (frame_refl _ _)) (by decide) hF

theorem memWf_wardChanged {s : State} {h : Fin 16} {old : List Byte} {new : List Byte} (hF : MemWf s) : MemWf (wardChanged s h old new) :=
  memWf_of_alters (frame_wardChanged (List.Subset.refl _) (frame_refl _ _)) (by decide) hF

theorem memWf_finalEffect {s : State} {f : CmdFrame} {p : Pulse} {old : List Byte} (hF : MemWf s) : MemWf (finalEffect s f p old) :=
  memWf_of_alters (frame_finalEffect (List.Subset.refl _) (frame_refl _ _)) (by decide) hF

theorem memWf_storePulse {s : State} {p : Pulse} (hF : MemWf s) : MemWf (storePulse s p) :=
  memWf_of_alters (frame_storePulse (List.Subset.refl _) (frame_refl _ _)) (by decide) hF

theorem memWf_pulseTrim {s : State} {p : Pulse} {handle : BitVec 16} {f : CmdFrame} (hF : MemWf s) : MemWf (pulseTrim s p handle f) :=
  memWf_of_alters (frame_pulseTrim (List.Subset.refl _) (frame_refl _ _)) (by decide) hF

theorem memWf_doneLive {s : State} {handle : BitVec 16} (hF : MemWf s) : MemWf (doneLive s handle) :=
  memWf_of_alters (frame_doneLive (List.Subset.refl _) (frame_refl _ _)) (by decide) hF

theorem memWf_pulseCurve {s : State} {p : Pulse} {handle : BitVec 16} (hF : MemWf s) : MemWf (pulseCurve s p handle) :=
  memWf_of_alters (frame_pulseCurve (List.Subset.refl _) (frame_refl _ _)) (by decide) hF

theorem memWf_pulseRepair {s : State} {p : Pulse} {handle : BitVec 16} (hF : MemWf s) : MemWf (pulseRepair s p handle) := by
  delta pulseRepair
  repeat (any_goals first
    | with_reducible assumption
    | (intro a x hx; beta_reduce)
    | (intro x hx; beta_reduce)
    | (extract_lets +onlyGivenNames x; refine (have hx : MemWf x := ?_; ?_); (on_goal 1 => subst x); (on_goal 2 => clear_value x))
    | (extract_lets +onlyGivenNames x; clear_value x)
    | split
    | with_reducible refine memWf_storePulse ?_
    | with_reducible refine memWf_onMem ?_ ?_
    | with_reducible refine memWf_doneLive ?_
    | with_reducible exact setEntry_wf (by assumption)
    | with_reducible exact writeN_wf (by assumption)
    | with_reducible exact windowWrap_wf (by assumption)
    | with_reducible exact writeLanes_wf (by assumption)
    | exact repairRow_memWf (by assumption) (by assumption)
    | refine memWf_with ?_
    | dsimp only
    | exact wf_cells (by assumption) rfl
    | exact cellsWf_filter (by assumption))

theorem memWf_pulseGood {s : State} {p : Pulse} (hF : MemWf s) : MemWf (pulseGood s p) := by
  delta pulseGood
  repeat (any_goals first
    | with_reducible assumption
    | (extract_lets +onlyGivenNames x; refine (have hx : MemWf x := ?_; ?_); (on_goal 1 => subst x); (on_goal 2 => clear_value x))
    | (extract_lets +onlyGivenNames x; clear_value x)
    | split
    | with_reducible refine memWf_finalEffect ?_
    | with_reducible refine memWf_storePulse ?_
    | with_reducible refine memWf_pulseFinal ?_
    | with_reducible refine memWf_respond ?_
    | with_reducible refine memWf_State_onEngine ?_
    | with_reducible refine memWf_slotWritten ?_
    | with_reducible refine memWf_pulseTrim ?_
    | with_reducible refine memWf_pulseCurve ?_
    | with_reducible refine memWf_pulseRepair ?_
    | with_reducible refine memWf_State_onVault ?_
    | with_reducible refine memWf_wardChanged ?_
    | with_reducible refine memWf_seatEnter ?_
    | with_reducible refine memWf_State_onSeat ?_)

theorem memWf_pulseBad {s : State} {p : Pulse} (hF : MemWf s) : MemWf (pulseBad s p) :=
  memWf_of_alters (frame_pulseBad (List.Subset.refl _) (frame_refl _ _)) (by decide) hF

theorem memWf_execVaultWriteEnd {s : State} {good : Bool} (hF : MemWf s) : OutWf (execVaultWriteEnd good s) := by
  delta execVaultWriteEnd
  repeat (any_goals first
    | with_reducible assumption
    | (intro a x hx; beta_reduce)
    | (intro x hx; beta_reduce)
    | (extract_lets +onlyGivenNames x; refine (have hx : MemWf x := ?_; ?_); (on_goal 1 => subst x); (on_goal 2 => clear_value x))
    | (extract_lets +onlyGivenNames x; clear_value x)
    | refine outWf_next ?_
    | split
    | with_reducible refine memWf_whenDue ?_ ?_
    | with_reducible refine memWf_State_onVault ?_
    | with_reducible refine memWf_pulseGood ?_
    | with_reducible refine memWf_pulseBad ?_)

theorem memWf_ackEvents {s : State} {k : Nat} {n : Nat} (hF : MemWf s) : MemWf (ackEvents s k n) := by
  delta ackEvents
  repeat (any_goals first
    | with_reducible assumption
    | (extract_lets +onlyGivenNames x; refine (have hx : MemWf x := ?_; ?_); (on_goal 1 => subst x); (on_goal 2 => clear_value x))
    | (extract_lets +onlyGivenNames x; clear_value x)
    | with_reducible refine memWf_placeLost ?_
    | with_reducible refine memWf_setEventHead ?_)

theorem memWf_evAckCmd {s : State} {f : CmdFrame}  (hF : MemWf s) : MemWf (evAckCmd.run f s).2 := by
  delta evAckCmd
  repeat (any_goals first
    | with_reducible assumption
    | with_reducible refine memWf_ackEvents ?_
    | dsimp only)

theorem memWf_handResetCmd {s : State} {f : CmdFrame}  (hF : MemWf s) : MemWf (handResetCmd.run f s).2 := by
  delta handResetCmd
  repeat (any_goals first
    | with_reducible assumption
    | with_reducible refine memWf_handResetStart ?_
    | dsimp only)

theorem memWf_execEvAck {s : State} {f : CmdFrame} (hF : MemWf s) : OutWf (execEvAck f s) := by
  delta execEvAck
  repeat (any_goals first
    | with_reducible assumption
    | (intro a x hx; beta_reduce)
    | (intro x hx; beta_reduce)
    | refine outWf_next ?_
    | with_reducible refine memWf_runCommand ?_ ?_
    | with_reducible refine memWf_evAckCmd ?_
    | dsimp only)

theorem memWf_execHandReset {s : State} {f : CmdFrame} (hF : MemWf s) : OutWf (execHandReset f s) := by
  delta execHandReset
  repeat (any_goals first
    | with_reducible assumption
    | (intro a x hx; beta_reduce)
    | (intro x hx; beta_reduce)
    | refine outWf_next ?_
    | with_reducible refine memWf_runCommand ?_ ?_
    | with_reducible refine memWf_handResetCmd ?_
    | dsimp only)

theorem memWf_subRun {s : State} {f : CmdFrame} (hF : MemWf s) : MemWf (subRun f s).2 := by
  delta subRun
  repeat (any_goals first
    | with_reducible assumption
    | (extract_lets +onlyGivenNames x; refine (have hx : MemWf x := ?_; ?_); (on_goal 1 => subst x); (on_goal 2 => clear_value x))
    | (extract_lets +onlyGivenNames x; refine (have hx : MemWf x.2 := ?_; ?_); (on_goal 1 => subst x); (on_goal 2 => clear_value x))
    | (extract_lets +onlyGivenNames x; clear_value x)
    | split
    | with_reducible refine memWf_State_mapChans ?_
    | with_reducible refine memWf_invertEpoch ?_
    | with_reducible refine memWf_setStreamEntry ?_
    | with_reducible refine memWf_of_alters ((frame_mk_streams (L := [.streams]) (by decide)).mpr (frame_refl _ _)) (by decide) ?_
    | refine memWf_pair (by with_reducible assumption) ?_
    | dsimp only)

theorem memWf_subOpenCmd {s : State} {f : CmdFrame}  (hF : MemWf s) : MemWf (subOpenCmd.run f s).2 := by
  delta subOpenCmd
  repeat (any_goals first
    | with_reducible assumption
    | with_reducible refine memWf_subRun ?_
    | dsimp only)

theorem memWf_execSubOpen {s : State} {f : CmdFrame} (hF : MemWf s) : OutWf (execSubOpen f s) := by
  delta execSubOpen
  repeat (any_goals first
    | with_reducible assumption
    | (intro a x hx; beta_reduce)
    | (intro x hx; beta_reduce)
    | refine outWf_next ?_
    | with_reducible refine memWf_runCommand ?_ ?_
    | with_reducible refine memWf_subOpenCmd ?_
    | dsimp only)

theorem memWf_stage {s : State} {c : Change} (hF : MemWf s) : MemWf (stage s c) :=
  memWf_of_alters (frame_stage (List.Subset.refl _) (frame_refl _ _)) (by decide) hF

theorem memWf_addStatic {s : State} {p : Port} {tag : Nat} {h : Fin 16} (hF : MemWf s) : MemWf (addStatic s p tag h) := by
  delta addStatic
  repeat (any_goals first
    | with_reducible assumption
    | (intro a x hx; beta_reduce)
    | (intro x hx; beta_reduce)
    | (extract_lets +onlyGivenNames x; refine (have hx : MemWf x := ?_; ?_); (on_goal 1 => subst x); (on_goal 2 => clear_value x))
    | (extract_lets +onlyGivenNames x; refine (have hx : MemWf x.2 := ?_; ?_); (on_goal 1 => subst x); (on_goal 2 => clear_value x))
    | (extract_lets +onlyGivenNames x; refine (have hx : ∀ y v, MemWf y → MemWf (x y v) := ?_; ?_); (on_goal 1 => subst x); (on_goal 2 => clear_value x))
    | (extract_lets +onlyGivenNames x; clear_value x)
    | split
    | with_reducible refine memWf_setHash ?_
    | with_reducible refine memWf_countLearned ?_
    | with_reducible refine memWf_hashPlace ?_
    | with_reducible refine memWf_countPipe ?_
    | refine memWf_pair (by with_reducible assumption) ?_
    | dsimp only
    | with_reducible apply_assumption
    | (intro v; beta_reduce))

theorem memWf_tblAddCmd {s : State} {f : CmdFrame}  (hF : MemWf s) : MemWf (tblAddCmd.run f s).2 := by
  delta tblAddCmd
  repeat (any_goals first
    | with_reducible assumption
    | (extract_lets +onlyGivenNames x; refine (have hx : MemWf x := ?_; ?_); (on_goal 1 => subst x); (on_goal 2 => clear_value x))
    | (extract_lets +onlyGivenNames x; refine (have hx : MemWf x.2 := ?_; ?_); (on_goal 1 => subst x); (on_goal 2 => clear_value x))
    | (extract_lets +onlyGivenNames x; clear_value x)
    | split
    | with_reducible refine memWf_addStatic ?_
    | with_reducible refine memWf_State_onTables ?_
    | with_reducible refine memWf_stage ?_
    | refine memWf_pair (by with_reducible assumption) ?_
    | dsimp only)

theorem memWf_tblDelCmd {s : State} {f : CmdFrame}  (hF : MemWf s) : MemWf (tblDelCmd.run f s).2 := by
  delta tblDelCmd
  repeat (any_goals first
    | with_reducible assumption
    | (extract_lets +onlyGivenNames x; refine (have hx : MemWf x := ?_; ?_); (on_goal 1 => subst x); (on_goal 2 => clear_value x))
    | (extract_lets +onlyGivenNames x; refine (have hx : MemWf x.2 := ?_; ?_); (on_goal 1 => subst x); (on_goal 2 => clear_value x))
    | (extract_lets +onlyGivenNames x; clear_value x)
    | split
    | with_reducible refine memWf_invertEpoch ?_
    | with_reducible refine memWf_freeHash ?_
    | with_reducible refine memWf_State_onTables ?_
    | with_reducible refine memWf_stage ?_
    | refine memWf_pair (by with_reducible assumption) ?_
    | dsimp only)

theorem memWf_execTblAdd {s : State} {f : CmdFrame} (hF : MemWf s) : OutWf (execTblAdd f s) := by
  delta execTblAdd
  repeat (any_goals first
    | with_reducible assumption
    | (intro a x hx; beta_reduce)
    | (intro x hx; beta_reduce)
    | refine outWf_next ?_
    | with_reducible refine memWf_runCommand ?_ ?_
    | with_reducible refine memWf_tblAddCmd ?_
    | dsimp only)

theorem memWf_execTblDel {s : State} {f : CmdFrame} (hF : MemWf s) : OutWf (execTblDel f s) := by
  delta execTblDel
  repeat (any_goals first
    | with_reducible assumption
    | (intro a x hx; beta_reduce)
    | (intro x hx; beta_reduce)
    | refine outWf_next ?_
    | with_reducible refine memWf_runCommand ?_ ?_
    | with_reducible refine memWf_tblDelCmd ?_
    | dsimp only)

theorem memWf_chRekindleCmd {s : State} {f : CmdFrame}  (hF : MemWf s) : MemWf (chRekindleCmd.run f s).2 := by
  delta chRekindleCmd
  repeat (any_goals first
    | with_reducible assumption
    | (extract_lets +onlyGivenNames x; refine (have hx : MemWf x := ?_; ?_); (on_goal 1 => subst x); (on_goal 2 => clear_value x))
    | (extract_lets +onlyGivenNames x; refine (have hx : MemWf x.2 := ?_; ?_); (on_goal 1 => subst x); (on_goal 2 => clear_value x))
    | (extract_lets +onlyGivenNames x; clear_value x)
    | split
    | with_reducible refine memWf_State_onChan ?_
    | with_reducible refine memWf_startRekindle ?_
    | dsimp only)

theorem memWf_portResetTake {s : State} {p : Port} (hF : MemWf s) : MemWf (portResetTake s p) := by
  delta portResetTake
  repeat (any_goals first
    | with_reducible assumption
    | (extract_lets +onlyGivenNames x; refine (have hx : MemWf x := ?_; ?_); (on_goal 1 => subst x); (on_goal 2 => clear_value x))
    | (extract_lets +onlyGivenNames x; clear_value x)
    | with_reducible refine memWf_endOps ?_
    | with_reducible refine memWf_abortSounding ?_
    | with_reducible refine memWf_State_onPort ?_)

theorem memWf_portResetCmd {s : State} {f : CmdFrame}  (hF : MemWf s) : MemWf (portResetCmd.run f s).2 := by
  delta portResetCmd
  repeat (any_goals first
    | with_reducible assumption
    | (extract_lets +onlyGivenNames x; refine (have hx : MemWf x := ?_; ?_); (on_goal 1 => subst x); (on_goal 2 => clear_value x))
    | (extract_lets +onlyGivenNames x; refine (have hx : MemWf x.2 := ?_; ?_); (on_goal 1 => subst x); (on_goal 2 => clear_value x))
    | (extract_lets +onlyGivenNames x; clear_value x)
    | split
    | with_reducible refine memWf_portResetTake ?_
    | dsimp only)

theorem memWf_pipeResetCmd {s : State} {f : CmdFrame}  (hF : MemWf s) : MemWf (pipeResetCmd.run f s).2 := by
  delta pipeResetCmd
  repeat (any_goals first
    | with_reducible assumption
    | (extract_lets +onlyGivenNames x; refine (have hx : MemWf x := ?_; ?_); (on_goal 1 => subst x); (on_goal 2 => clear_value x))
    | (extract_lets +onlyGivenNames x; refine (have hx : MemWf x.2 := ?_; ?_); (on_goal 1 => subst x); (on_goal 2 => clear_value x))
    | (extract_lets +onlyGivenNames x; clear_value x)
    | split
    | with_reducible refine memWf_endOps ?_
    | with_reducible refine memWf_State_onPipe ?_
    | dsimp only)

theorem memWf_execChRekindle {s : State} {f : CmdFrame} (hF : MemWf s) : OutWf (execChRekindle f s) := by
  delta execChRekindle
  repeat (any_goals first
    | with_reducible assumption
    | (intro a x hx; beta_reduce)
    | (intro x hx; beta_reduce)
    | refine outWf_next ?_
    | with_reducible refine memWf_runCommand ?_ ?_
    | with_reducible refine memWf_chRekindleCmd ?_
    | dsimp only)

theorem memWf_execPortReset {s : State} {f : CmdFrame} (hF : MemWf s) : OutWf (execPortReset f s) := by
  delta execPortReset
  repeat (any_goals first
    | with_reducible assumption
    | (intro a x hx; beta_reduce)
    | (intro x hx; beta_reduce)
    | refine outWf_next ?_
    | with_reducible refine memWf_runCommand ?_ ?_
    | with_reducible refine memWf_portResetCmd ?_
    | dsimp only)

theorem memWf_execPipeReset {s : State} {f : CmdFrame} (hF : MemWf s) : OutWf (execPipeReset f s) := by
  delta execPipeReset
  repeat (any_goals first
    | with_reducible assumption
    | (intro a x hx; beta_reduce)
    | (intro x hx; beta_reduce)
    | refine outWf_next ?_
    | with_reducible refine memWf_runCommand ?_ ?_
    | with_reducible refine memWf_pipeResetCmd ?_
    | dsimp only)

theorem memWf_trimPointCmd {s : State} {f : CmdFrame}  (hF : MemWf s) : MemWf (trimPointCmd.run f s).2 := by
  delta trimPointCmd
  repeat (any_goals first
    | with_reducible assumption
    | (extract_lets +onlyGivenNames x; refine (have hx : MemWf x := ?_; ?_); (on_goal 1 => subst x); (on_goal 2 => clear_value x))
    | (extract_lets +onlyGivenNames x; refine (have hx : MemWf x.2 := ?_; ?_); (on_goal 1 => subst x); (on_goal 2 => clear_value x))
    | (extract_lets +onlyGivenNames x; clear_value x)
    | split
    | with_reducible refine memWf_drivePoint ?_
    | with_reducible refine memWf_onOp ?_
    | with_reducible refine memWf_trimCompute ?_
    | refine memWf_pair (by with_reducible assumption) ?_
    | dsimp only)

theorem memWf_cancelOp {s : State} {o : Op} (hF : MemWf s) : MemWf (cancelOp s o) := by
  delta cancelOp
  repeat (any_goals first
    | with_reducible assumption
    | split
    | with_reducible refine memWf_onOp ?_
    | with_reducible refine memWf_opRollback ?_)

theorem memWf_opCancelCmd {s : State} {f : CmdFrame}  (hF : MemWf s) : MemWf (opCancelCmd.run f s).2 := by
  delta opCancelCmd
  repeat (any_goals first
    | with_reducible assumption
    | split
    | with_reducible refine memWf_cancelOp ?_
    | refine memWf_pair (by with_reducible assumption) ?_
    | dsimp only)

theorem memWf_execTrimPoint {s : State} {f : CmdFrame} (hF : MemWf s) : OutWf (execTrimPoint f s) := by
  delta execTrimPoint
  repeat (any_goals first
    | with_reducible assumption
    | (intro a x hx; beta_reduce)
    | (intro x hx; beta_reduce)
    | refine outWf_next ?_
    | with_reducible refine memWf_runCommand ?_ ?_
    | with_reducible refine memWf_trimPointCmd ?_
    | dsimp only)

theorem memWf_execOpCancel {s : State} {f : CmdFrame} (hF : MemWf s) : OutWf (execOpCancel f s) := by
  delta execOpCancel
  repeat (any_goals first
    | with_reducible assumption
    | (intro a x hx; beta_reduce)
    | (intro x hx; beta_reduce)
    | refine outWf_next ?_
    | with_reducible refine memWf_runCommand ?_ ?_
    | with_reducible refine memWf_opCancelCmd ?_
    | dsimp only)

theorem memWf_sendBlock {s : State}  (hF : MemWf s) : MemWf (sendBlock s) :=
  memWf_of_alters (frame_sendBlock (List.Subset.refl _) (frame_refl _ _)) (by decide) hF

theorem memWf_mirrorBegin {s : State} {fresh : Bool} (hF : MemWf s) : MemWf (mirrorBegin s fresh) :=
  memWf_of_alters (frame_mirrorBegin (List.Subset.refl _) (frame_refl _ _)) (by decide) hF

theorem memWf_blockAcked {s : State} {n : Nat} (hF : MemWf s) : MemWf (blockAcked s n) := by
  delta blockAcked
  repeat (any_goals first
    | with_reducible assumption
    | (extract_lets +onlyGivenNames x; refine (have hx : MemWf x := ?_; ?_); (on_goal 1 => subst x); (on_goal 2 => clear_value x))
    | (extract_lets +onlyGivenNames x; clear_value x)
    | split
    | with_reducible refine memWf_onOp ?_
    | with_reducible refine memWf_State_onSeat ?_
    | with_reducible refine memWf_opEnd ?_
    | with_reducible refine memWf_opRollback ?_
    | with_reducible refine memWf_opEnter ?_
    | with_reducible refine memWf_sendBlock ?_)

theorem memWf_applyChange {s : State} {kind : Nat} {b : List Byte} (hF : MemWf s) : MemWf (applyChange s kind b) :=
  memWf_of_alters (frame_applyChange (List.Subset.refl _) (frame_refl _ _)) (by decide) hF

theorem memWf_blockIn {s : State} {b : List Byte} (hF : MemWf s) : MemWf (blockIn s b) :=
  memWf_of_alters (frame_blockIn (List.Subset.refl _) (frame_refl _ _)) (by decide) hF

theorem memWf_mirrorIn {s : State} {kind : Nat} {b : List Byte} (hF : MemWf s) : MemWf (mirrorIn s kind b) := by
  delta mirrorIn
  repeat (any_goals first
    | with_reducible assumption
    | split
    | with_reducible refine memWf_blockIn ?_
    | with_reducible refine memWf_blockAcked ?_
    | with_reducible refine memWf_State_onSeat ?_
    | with_reducible refine memWf_applyChange ?_)

theorem memWf_mirrorMessages {s : State} {n : Nat} {bs : List Byte} (hF : MemWf s) : MemWf (mirrorMessages n bs s) := by
  induction n generalizing s bs with
  | zero => exact hF
  | succ n ih =>
    unfold mirrorMessages
    dsimp only
    split
    · exact hF
    · refine ih ?_
      split
      · exact memWf_mirrorIn (memWf_State_onSeat hF)
      · exact hF

theorem memWf_lockLink {s : State}  (hF : MemWf s) : MemWf (lockLink s) :=
  memWf_of_alters (frame_lockLink (List.Subset.refl _) (frame_refl _ _)) (by decide) hF

theorem memWf_followPartner {s : State}  (hF : MemWf s) : MemWf (followPartner s) :=
  memWf_of_alters (frame_followPartner (List.Subset.refl _) (frame_refl _ _)) (by decide) hF

theorem memWf_twinTime {s : State} {p : Partner} (hF : MemWf s) : MemWf (twinTime s p) :=
  memWf_of_alters (frame_twinTime (List.Subset.refl _) (frame_refl _ _)) (by decide) hF

theorem memWf_execSeatFrameReceive {s : State} {bytes : List Byte} (hF : MemWf s) : OutWf (execSeatFrameReceive bytes s) := by
  delta execSeatFrameReceive
  repeat (any_goals first
    | with_reducible assumption
    | (extract_lets +onlyGivenNames x; refine (have hx : MemWf x := ?_; ?_); (on_goal 1 => subst x); (on_goal 2 => clear_value x))
    | (extract_lets +onlyGivenNames x; clear_value x)
    | refine outWf_next ?_
    | split
    | with_reducible refine memWf_State_onSeat ?_
    | with_reducible refine memWf_lockLink ?_
    | with_reducible refine memWf_followPartner ?_
    | with_reducible refine memWf_mirrorMessages ?_
    | with_reducible refine memWf_twinTime ?_)

theorem memWf_mirrorFails {s : State}  (hF : MemWf s) : MemWf (mirrorFails s) := by
  delta mirrorFails
  repeat (any_goals first
    | with_reducible assumption
    | (extract_lets +onlyGivenNames x; refine (have hx : MemWf x := ?_; ?_); (on_goal 1 => subst x); (on_goal 2 => clear_value x))
    | (extract_lets +onlyGivenNames x; clear_value x)
    | with_reducible refine memWf_endOps ?_
    | with_reducible refine memWf_State_onSeat ?_)

theorem memWf_releaseFails {s : State}  (hF : MemWf s) : MemWf (releaseFails s) :=
  memWf_of_alters (frame_releaseFails (List.Subset.refl _) (frame_refl _ _)) (by decide) hF

theorem memWf_execHeartbeatLoss {s : State}  (hF : MemWf s) : OutWf (execHeartbeatLoss s) := by
  delta execHeartbeatLoss
  repeat (any_goals first
    | with_reducible assumption
    | (intro a x hx; beta_reduce)
    | (intro x hx; beta_reduce)
    | (extract_lets +onlyGivenNames x; refine (have hx : MemWf x := ?_; ?_); (on_goal 1 => subst x); (on_goal 2 => clear_value x))
    | (extract_lets +onlyGivenNames x; clear_value x)
    | refine outWf_next ?_
    | split
    | with_reducible refine memWf_whenDue ?_ ?_
    | with_reducible refine memWf_releaseFails ?_
    | with_reducible refine memWf_mirrorFails ?_
    | with_reducible refine memWf_State_onSeat ?_
    | with_reducible refine memWf_raise ?_
    | with_reducible refine memWf_seatEnter ?_)

theorem memWf_startSound {s : State} {p : Port} {handle : Nat} (hF : MemWf s) : MemWf (startSound s p handle) :=
  memWf_of_alters (frame_startSound (List.Subset.refl _) (frame_refl _ _)) (by decide) hF

theorem memWf_startTrim {s : State} {o : Op} {n : Fin 24} (hF : MemWf s) : MemWf (startTrim s o n) := by
  delta startTrim
  repeat (any_goals first
    | with_reducible assumption
    | (extract_lets +onlyGivenNames x; refine (have hx : MemWf x := ?_; ?_); (on_goal 1 => subst x); (on_goal 2 => clear_value x))
    | (extract_lets +onlyGivenNames x; clear_value x)
    | split
    | with_reducible refine memWf_dropPending ?_
    | with_reducible refine memWf_onOp ?_
    | with_reducible refine memWf_trimCompute ?_
    | with_reducible refine memWf_drivePoint ?_)

theorem memWf_commitTrim {s : State} {o : Op} {n : Fin 24} {f : CmdFrame} (hF : MemWf s) : MemWf (commitTrim s o n f) :=
  memWf_of_alters (frame_commitTrim (List.Subset.refl _) (frame_refl _ _)) (by decide) hF

theorem memWf_resumeTrim {s : State} {o : Op} {n : Fin 24} (hF : MemWf s) : MemWf (resumeTrim s o n) :=
  memWf_of_alters (frame_resumeTrim (List.Subset.refl _) (frame_refl _ _)) (by decide) hF

theorem memWf_startCurve {s : State} {o : Op} {slot : Fin 16} (hF : MemWf s) : MemWf (startCurve s o slot) :=
  memWf_of_alters (frame_startCurve (List.Subset.refl _) (frame_refl _ _)) (by decide) hF

theorem memWf_repairStep {s : State} {o : Op} {b : Fin 64} {row : Nat} {spare : Nat} (hF : MemWf s) : MemWf (repairStep s o b row spare) :=
  memWf_of_alters (frame_repairStep (List.Subset.refl _) (frame_refl _ _)) (by decide) hF

theorem memWf_startRepair {s : State} {o : Op} {b : Fin 64} (hF : MemWf s) : MemWf (startRepair s o b) := by
  delta startRepair
  repeat (any_goals first
    | with_reducible assumption
    | (extract_lets +onlyGivenNames x; refine (have hx : MemWf x := ?_; ?_); (on_goal 1 => subst x); (on_goal 2 => clear_value x))
    | (extract_lets +onlyGivenNames x; clear_value x)
    | split
    | with_reducible refine memWf_opEnd ?_
    | with_reducible refine memWf_repairStep ?_
    | with_reducible refine memWf_raise ?_
    | with_reducible refine memWf_bump ?_
    | with_reducible refine memWf_onOp ?_
    | with_reducible exact setEntry_wf (by assumption)
    | with_reducible exact writeN_wf (by assumption)
    | with_reducible exact windowWrap_wf (by assumption)
    | with_reducible exact writeLanes_wf (by assumption)
    | exact repairRow_memWf (by assumption) (by assumption)
    | refine memWf_with ?_
    | dsimp only
    | exact wf_cells (by assumption) rfl
    | exact cellsWf_filter (by assumption))

theorem memWf_startMirror {s : State} {o : Op} {fresh : Bool} (hF : MemWf s) : MemWf (startMirror s o fresh) := by
  delta startMirror
  repeat (any_goals first
    | with_reducible assumption
    | (extract_lets +onlyGivenNames x; refine (have hx : MemWf x := ?_; ?_); (on_goal 1 => subst x); (on_goal 2 => clear_value x))
    | (extract_lets +onlyGivenNames x; clear_value x)
    | split
    | with_reducible refine memWf_mirrorBegin ?_
    | with_reducible refine memWf_opRollback ?_)

theorem memWf_opStart {s : State} {o : Op} (hF : MemWf s) : MemWf (opStart s o) := by
  delta opStart
  repeat (any_goals first
    | with_reducible assumption
    | (intro a x hx; beta_reduce)
    | (intro x hx; beta_reduce)
    | (extract_lets +onlyGivenNames x; refine (have hx : MemWf x := ?_; ?_); (on_goal 1 => subst x); (on_goal 2 => clear_value x))
    | (extract_lets +onlyGivenNames x; clear_value x)
    | split
    | with_reducible refine memWf_opEnter ?_
    | with_reducible refine memWf_onOp ?_
    | with_reducible refine memWf_startSound ?_
    | with_reducible refine memWf_commitTrim ?_
    | with_reducible refine memWf_resumeTrim ?_
    | with_reducible refine memWf_startTrim ?_
    | with_reducible refine memWf_startCurve ?_
    | with_reducible refine memWf_startRepair ?_
    | with_reducible refine memWf_onMem ?_ ?_
    | with_reducible refine memWf_startMirror ?_
    | with_reducible exact setEntry_wf (by assumption)
    | with_reducible exact writeN_wf (by assumption)
    | with_reducible exact windowWrap_wf (by assumption)
    | with_reducible exact writeLanes_wf (by assumption)
    | exact repairRow_memWf (by assumption) (by assumption)
    | refine memWf_with ?_
    | dsimp only
    | exact wf_cells (by assumption) rfl
    | exact cellsWf_filter (by assumption))

theorem memWf_opTry {s : State} {handle : Nat} (hF : MemWf s) : MemWf (opTry handle s) := by
  delta opTry
  repeat (any_goals first
    | with_reducible assumption
    | (extract_lets +onlyGivenNames x; refine (have hx : MemWf x := ?_; ?_); (on_goal 1 => subst x); (on_goal 2 => clear_value x))
    | (extract_lets +onlyGivenNames x; clear_value x)
    | split
    | with_reducible refine memWf_opStart ?_
    | with_reducible refine memWf_onOp ?_)

theorem memWf_execOpStart {s : State} {handle : BitVec 16} (hF : MemWf s) : OutWf (execOpStart handle s) := by
  delta execOpStart
  repeat (any_goals first
    | with_reducible assumption
    | (intro a x hx; beta_reduce)
    | (intro x hx; beta_reduce)
    | refine outWf_next ?_
    | with_reducible refine memWf_whenDue ?_ ?_
    | with_reducible refine memWf_opTry ?_)

theorem memWf_startWardWrite {s : State} {e : Nat × List Byte} (hF : MemWf s) : MemWf (startWardWrite e s) :=
  memWf_of_alters (frame_startWardWrite (List.Subset.refl _) (frame_refl _ _)) (by decide) hF

theorem memWf_execEnergyCheck {s : State}  (hF : MemWf s) : OutWf (execEnergyCheck s) := by
  delta execEnergyCheck
  repeat (any_goals first
    | with_reducible assumption
    | (intro a x hx; beta_reduce)
    | (intro x hx; beta_reduce)
    | (extract_lets +onlyGivenNames x; refine (have hx : MemWf x := ?_; ?_); (on_goal 1 => subst x); (on_goal 2 => clear_value x))
    | (extract_lets +onlyGivenNames x; clear_value x)
    | refine outWf_next ?_
    | split
    | with_reducible refine memWf_whenDue ?_ ?_
    | with_reducible refine memWf_each ?_ ?_
    | with_reducible refine memWf_opTry ?_
    | with_reducible refine memWf_startWardWrite ?_)

theorem memWf_execOpSuspendTimeout {s : State} {handle : BitVec 16} (hF : MemWf s) : OutWf (execOpSuspendTimeout handle s) := by
  delta execOpSuspendTimeout
  repeat (any_goals first
    | with_reducible assumption
    | (intro a x hx; beta_reduce)
    | (intro x hx; beta_reduce)
    | refine outWf_next ?_
    | split
    | with_reducible refine memWf_whenDue ?_ ?_
    | with_reducible refine memWf_opRollback ?_)

theorem memWf_dsResult {s : State} {r : Nat} (hF : MemWf s) : MemWf (dsResult s r) :=
  memWf_of_alters (frame_dsResult (List.Subset.refl _) (frame_refl _ _)) (by decide) hF

theorem memWf_queuesResume {s : State}  (hF : MemWf s) : MemWf (queuesResume s) :=
  memWf_of_alters (frame_queuesResume (List.Subset.refl _) (frame_refl _ _)) (by decide) hF

theorem memWf_engineResume {s : State}  (hF : MemWf s) : MemWf (engineResume s) :=
  memWf_of_alters (frame_engineResume (List.Subset.refl _) (frame_refl _ _)) (by decide) hF

theorem memWf_backEndResume {s : State} {n : Fin 24} (hF : MemWf s) : MemWf (backEndResume n s) := by
  delta backEndResume
  repeat (any_goals first
    | with_reducible assumption
    | (intro a x hx; beta_reduce)
    | (intro x hx; beta_reduce)
    | (extract_lets +onlyGivenNames x; refine (have hx : MemWf x := ?_; ?_); (on_goal 1 => subst x); (on_goal 2 => clear_value x))
    | (extract_lets +onlyGivenNames x; refine (have hx : MemWf x.2 := ?_; ?_); (on_goal 1 => subst x); (on_goal 2 => clear_value x))
    | (extract_lets +onlyGivenNames x; clear_value x)
    | split
    | with_reducible refine memWf_staleEnd ?_
    | with_reducible refine memWf_applyOut ?_
    | with_reducible refine memWf_State_onChan ?_
    | with_reducible refine memWf_startRekindle ?_
    | refine memWf_pair (by with_reducible assumption) ?_
    | dsimp only)

theorem memWf_runUnits {s : State} {m : BitVec 16} (hF : MemWf s) : MemWf (runUnits s m) := by
  delta runUnits
  repeat (any_goals first
    | with_reducible assumption
    | (intro a x hx; beta_reduce)
    | (intro x hx; beta_reduce)
    | (extract_lets +onlyGivenNames x; refine (have hx : MemWf x := ?_; ?_); (on_goal 1 => subst x); (on_goal 2 => clear_value x))
    | (extract_lets +onlyGivenNames x; clear_value x)
    | split
    | with_reducible refine memWf_each ?_ ?_
    | with_reducible refine memWf_queuesResume ?_
    | with_reducible refine memWf_engineResume ?_
    | with_reducible refine memWf_State_onDebug ?_
    | with_reducible refine memWf_backEndResume ?_)

theorem memWf_resumeUnits {s : State} {m : BitVec 16} (hF : MemWf s) : MemWf (resumeUnits s m) := by
  delta resumeUnits
  repeat (any_goals first
    | with_reducible assumption
    | (extract_lets +onlyGivenNames x; refine (have hx : MemWf x := ?_; ?_); (on_goal 1 => subst x); (on_goal 2 => clear_value x))
    | (extract_lets +onlyGivenNames x; clear_value x)
    | split
    | with_reducible refine memWf_raise ?_
    | with_reducible refine memWf_runUnits ?_)

theorem memWf_stepTick {s : State}  (hF : MemWf s) : MemWf (stepTick s) :=
  memWf_of_alters (frame_stepTick (List.Subset.refl _) (frame_refl _ _)) (by decide) hF

theorem memWf_resumeDue {s : State}  (hF : MemWf s) : MemWf (resumeDue s) := by
  delta resumeDue
  repeat (any_goals first
    | with_reducible assumption
    | (extract_lets +onlyGivenNames x; refine (have hx : MemWf x := ?_; ?_); (on_goal 1 => subst x); (on_goal 2 => clear_value x))
    | (extract_lets +onlyGivenNames x; clear_value x)
    | split
    | with_reducible refine memWf_resumeUnits ?_
    | with_reducible refine memWf_State_onDebug ?_
    | with_reducible refine memWf_closeSession ?_)

theorem memWf_haltDue {s : State}  (hF : MemWf s) : MemWf (haltDue s) :=
  memWf_of_alters (frame_haltDue (List.Subset.refl _) (frame_refl _ _)) (by decide) hF

theorem memWf_debugTick {s : State}  (hF : MemWf s) : MemWf (debugTick s) := by
  delta debugTick
  repeat (any_goals first
    | with_reducible assumption
    | (extract_lets +onlyGivenNames x; refine (have hx : MemWf x := ?_; ?_); (on_goal 1 => subst x); (on_goal 2 => clear_value x))
    | (extract_lets +onlyGivenNames x; clear_value x)
    | split
    | with_reducible refine memWf_stepTick ?_
    | with_reducible refine memWf_haltDue ?_
    | with_reducible refine memWf_resumeDue ?_)

theorem memWf_dctrl {s : State} {r : BitVec 64} {op : Nat} {f : State → State} (hf : ∀ x, MemWf x → MemWf (f x)) (hF : MemWf s) :
    MemWf (dctrl s r op f) := by
  delta dctrl
  repeat (any_goals first
    | with_reducible assumption
    | (extract_lets +onlyGivenNames x; refine (have hx : MemWf x := ?_; ?_); (on_goal 1 => subst x); (on_goal 2 => clear_value x))
    | (extract_lets +onlyGivenNames x; clear_value x)
    | split
    | with_reducible refine hf _ ?_
    | with_reducible refine memWf_State_onDebug ?_
    | with_reducible refine memWf_dsResult ?_)

theorem memWf_execDctrlStep {s : State} {reg : BitVec 64} (hF : MemWf s) : OutWf (execDctrlStep reg s) := by
  delta execDctrlStep
  repeat (any_goals first
    | with_reducible assumption
    | (intro a x hx; beta_reduce)
    | (intro x hx; beta_reduce)
    | (extract_lets +onlyGivenNames x; refine (have hx : MemWf x := ?_; ?_); (on_goal 1 => subst x); (on_goal 2 => clear_value x))
    | (extract_lets +onlyGivenNames x; clear_value x)
    | refine outWf_next ?_
    | split
    | with_reducible refine memWf_dctrl ?_ ?_
    | with_reducible refine memWf_runUnits ?_
    | with_reducible refine memWf_State_onDebug ?_)

theorem memWf_dmWord {s : State} {a : Nat} (hF : MemWf s) : MemWf (dmWord s a).2 :=
  memWf_of_alters (frame_dmWord (List.Subset.refl _) (frame_refl _ _)) (by decide) hF

theorem memWf_dmem {s : State} {r : BitVec 104} {op : Nat} {f : State → State} (hf : ∀ x, MemWf x → MemWf (f x)) (hF : MemWf s) :
    MemWf (dmem s r op f) := by
  delta dmem
  repeat (any_goals first
    | with_reducible assumption
    | (extract_lets +onlyGivenNames x; refine (have hx : MemWf x := ?_; ?_); (on_goal 1 => subst x); (on_goal 2 => clear_value x))
    | (extract_lets +onlyGivenNames x; clear_value x)
    | split
    | with_reducible refine hf _ ?_
    | with_reducible refine memWf_State_onDebug ?_
    | with_reducible refine memWf_dsResult ?_)

theorem memWf_execDmemRead {s : State} {reg : BitVec 104} {ecc : Ecc} (hF : MemWf s) : OutWf (execDmemRead reg ecc s) := by
  delta execDmemRead
  repeat (any_goals first
    | with_reducible assumption
    | (intro a x hx; beta_reduce)
    | (intro x hx; beta_reduce)
    | (extract_lets +onlyGivenNames x; refine (have hx : MemWf x := ?_; ?_); (on_goal 1 => subst x); (on_goal 2 => clear_value x))
    | (extract_lets +onlyGivenNames x; refine (have hx : MemWf x.2 := ?_; ?_); (on_goal 1 => subst x); (on_goal 2 => clear_value x))
    | (extract_lets +onlyGivenNames x; clear_value x)
    | refine outWf_next ?_
    | split
    | with_reducible refine memWf_dmem ?_ ?_
    | with_reducible refine memWf_correctedWord ?_
    | with_reducible refine memWf_poisonedRead ?_
    | with_reducible refine memWf_dmWord ?_
    | with_reducible refine memWf_State_onDebug ?_
    | dsimp only)

theorem memWf_writeDescriptor {s : State} {a : Nat} {lanes : Nat} {data : Nat} (hF : MemWf s) : MemWf (writeDescriptor s a lanes data) :=
  memWf_of_alters (frame_writeDescriptor (List.Subset.refl _) (frame_refl _ _)) (by decide) hF

theorem memWf_execDmemWrite {s : State} {reg : BitVec 104} (hF : MemWf s) : OutWf (execDmemWrite reg s) := by
  delta execDmemWrite
  repeat (any_goals first
    | with_reducible assumption
    | (intro a x hx; beta_reduce)
    | (intro x hx; beta_reduce)
    | (extract_lets +onlyGivenNames x; refine (have hx : MemWf x := ?_; ?_); (on_goal 1 => subst x); (on_goal 2 => clear_value x))
    | (extract_lets +onlyGivenNames x; clear_value x)
    | refine outWf_next ?_
    | split
    | with_reducible refine memWf_dmem ?_ ?_
    | with_reducible refine memWf_onMem ?_ ?_
    | with_reducible refine memWf_writeDescriptor ?_
    | with_reducible refine memWf_State_onDebug ?_
    | with_reducible exact setEntry_wf (by assumption)
    | with_reducible exact writeN_wf (by assumption)
    | with_reducible exact windowWrap_wf (by assumption)
    | with_reducible exact writeLanes_wf (by assumption)
    | exact repairRow_memWf (by assumption) (by assumption)
    | refine memWf_with ?_
    | dsimp only
    | exact wf_cells (by assumption) rfl
    | exact cellsWf_filter (by assumption))

end Sys2Proof.Laws
end

