-- ==== Sys2Proof/Laws/Resets.lean ====
section
/-! SUPPORT. What a chip reset and the loss of VAN leave, and what a keeper that takes control leaves alone. -/

namespace Sys2Proof.Laws

open Sys2Proof Sys2Proof.Machine Sys2Proof.Safety

theorem setTarget_keeps (c : Chan) (now : Tick) (v : Int) :
    (setTarget c now v).keeper = c.keeper ∧ (setTarget c now v).latch = c.latch ∧ (setTarget c now v).bankMon = c.bankMon ∧
    (setTarget c now v).commanded = c.commanded ∧ (setTarget c now v).pending = c.pending ∧
    (setTarget c now v).override = c.override ∧ (setTarget c now v).bankShell = c.bankShell := by
  unfold setTarget
  extract_lets
  split <;> simp

theorem keeperTakes_keeps (t : Trim) (now : Tick) (c : Chan) :
    (keeperTakes t now c).keeper = c.keeper ∧ (keeperTakes t now c).latch = c.latch ∧ (keeperTakes t now c).bankMon = c.bankMon ∧
    (keeperTakes t now c).commanded = c.commanded ∧ (keeperTakes t now c).pending = c.pending ∧
    (keeperTakes t now c).override = c.override ∧ (keeperTakes t now c).bankShell = c.bankShell ∧
    (keeperTakes t now c).inControl = true := by
  unfold keeperTakes
  split
  · next v code _ => simpa using setTarget_keeps c now v
  · simpa using setTarget_keeps c now 0

theorem reset_hand : ∀ h : Fin 16, (State.reset.hand h).state = .clean ∧ (State.reset.hand h).evCount = 0 := by decide

theorem chipReset_chan (s : State) (cause : Option Nat) (n : Fin 24) :
    (chipReset s cause).chan n = Chan.chipReset (trimOf s.vault n) (s.chan n) := by
  simp [State.chan, chipReset]

theorem chipReset_after (s : State) (cause : Option Nat) : AfterChipReset s (chipReset s cause) where
  tier := by simp only [chipReset]
  clock := by simp only [chipReset]; exact ⟨rfl, rfl, rfl⟩
  vault := by simp only [chipReset]
  keepers n := by
    have h := keeperTakes_keeps (trimOf s.vault n) 0
      { Chan.reset with keeper := (s.chan n).keeper, keptProfile := (s.chan n).keptProfile, latch := (s.chan n).latch, disc := (s.chan n).disc,
                        weakHigh := (s.chan n).weakHigh, yielded := (s.chan n).yielded, target := (s.chan n).target, dac := (s.chan n).dac,
                        stageOn := (s.chan n).stageOn, drive := (s.chan n).drive, bankMon := true }
    rw [chipReset_chan]
    exact ⟨h.1, h.2.1, h.2.2.1, h.2.2.2.2.2.2.2⟩
  outputs n := by
    have h := keeperTakes_keeps (trimOf s.vault n) 0
      { Chan.reset with keeper := (s.chan n).keeper, keptProfile := (s.chan n).keptProfile, latch := (s.chan n).latch, disc := (s.chan n).disc,
                        weakHigh := (s.chan n).weakHigh, yielded := (s.chan n).yielded, target := (s.chan n).target, dac := (s.chan n).dac,
                        stageOn := (s.chan n).stageOn, drive := (s.chan n).drive, bankMon := true }
    rw [chipReset_chan]
    exact ⟨h.2.2.2.1, h.2.2.2.2.1, h.2.2.2.2.2.1⟩
  streams := by simp only [chipReset]; rfl
  operations := by simp only [chipReset]; exact ⟨rfl, rfl⟩
  hands h := by
    have e : (chipReset s cause).hands = State.reset.hands := by simp only [chipReset]
    have k : (chipReset s cause).hand h = State.reset.hand h := by simp only [State.hand, e]
    rw [k]
    exact reset_hand h
  events := by simp only [chipReset]; exact ⟨rfl, rfl⟩
  memory := by simp only [chipReset]; exact ⟨rfl, rfl⟩
  flue := by cases cause <;> simp [chipReset, Supply.chipReset, noteCause]
  identity := by simp [chipReset]

end Sys2Proof.Laws
end

