-- ==== Sys2Proof/Laws/State.lean ====
section
/-! SUPPORT. One lemma per field of State and update of one part: what the update gives, and that it leaves the rest. -/

namespace Sys2Proof.Machine

variable (s : State)

/-! ## State.onSupply -/

@[simp] theorem State.onSupply_dieId (f : Supply → Supply) : (s.onSupply f).dieId = s.dieId := rfl
@[simp] theorem State.onSupply_free (f : Supply → Supply) : (s.onSupply f).free = s.free := rfl
@[simp] theorem State.onSupply_supply (f : Supply → Supply) : (s.onSupply f).supply = f s.supply := rfl
@[simp] theorem State.onSupply_tiers (f : Supply → Supply) : (s.onSupply f).tiers = s.tiers := rfl
@[simp] theorem State.onSupply_straps (f : Supply → Supply) : (s.onSupply f).straps = s.straps := rfl
@[simp] theorem State.onSupply_clock (f : Supply → Supply) : (s.onSupply f).clock = s.clock := rfl
@[simp] theorem State.onSupply_portA (f : Supply → Supply) : (s.onSupply f).portA = s.portA := rfl
@[simp] theorem State.onSupply_portB (f : Supply → Supply) : (s.onSupply f).portB = s.portB := rfl
@[simp] theorem State.onSupply_cut (f : Supply → Supply) : (s.onSupply f).cut = s.cut := rfl
@[simp] theorem State.onSupply_tables (f : Supply → Supply) : (s.onSupply f).tables = s.tables := rfl
@[simp] theorem State.onSupply_queues (f : Supply → Supply) : (s.onSupply f).queues = s.queues := rfl
@[simp] theorem State.onSupply_hands (f : Supply → Supply) : (s.onSupply f).hands = s.hands := rfl
@[simp] theorem State.onSupply_streams (f : Supply → Supply) : (s.onSupply f).streams = s.streams := rfl
@[simp] theorem State.onSupply_chans (f : Supply → Supply) : (s.onSupply f).chans = s.chans := rfl
@[simp] theorem State.onSupply_mem (f : Supply → Supply) : (s.onSupply f).mem = s.mem := rfl
@[simp] theorem State.onSupply_engine (f : Supply → Supply) : (s.onSupply f).engine = s.engine := rfl
@[simp] theorem State.onSupply_vault (f : Supply → Supply) : (s.onSupply f).vault = s.vault := rfl
@[simp] theorem State.onSupply_seat (f : Supply → Supply) : (s.onSupply f).seat = s.seat := rfl
@[simp] theorem State.onSupply_events (f : Supply → Supply) : (s.onSupply f).events = s.events := rfl
@[simp] theorem State.onSupply_dbg (f : Supply → Supply) : (s.onSupply f).dbg = s.dbg := rfl
@[simp] theorem State.onSupply_announce (f : Supply → Supply) : (s.onSupply f).announce = s.announce := rfl
@[simp] theorem State.onSupply_counters (f : Supply → Supply) : (s.onSupply f).counters = s.counters := rfl
@[simp] theorem State.onSupply_pending (f : Supply → Supply) : (s.onSupply f).pending = s.pending := rfl

/-! ## State.onTiers -/

@[simp] theorem State.onTiers_dieId (f : TierState → TierState) : (s.onTiers f).dieId = s.dieId := rfl
@[simp] theorem State.onTiers_free (f : TierState → TierState) : (s.onTiers f).free = s.free := rfl
@[simp] theorem State.onTiers_supply (f : TierState → TierState) : (s.onTiers f).supply = s.supply := rfl
@[simp] theorem State.onTiers_tiers (f : TierState → TierState) : (s.onTiers f).tiers = f s.tiers := rfl
@[simp] theorem State.onTiers_straps (f : TierState → TierState) : (s.onTiers f).straps = s.straps := rfl
@[simp] theorem State.onTiers_clock (f : TierState → TierState) : (s.onTiers f).clock = s.clock := rfl
@[simp] theorem State.onTiers_portA (f : TierState → TierState) : (s.onTiers f).portA = s.portA := rfl
@[simp] theorem State.onTiers_portB (f : TierState → TierState) : (s.onTiers f).portB = s.portB := rfl
@[simp] theorem State.onTiers_cut (f : TierState → TierState) : (s.onTiers f).cut = s.cut := rfl
@[simp] theorem State.onTiers_tables (f : TierState → TierState) : (s.onTiers f).tables = s.tables := rfl
@[simp] theorem State.onTiers_queues (f : TierState → TierState) : (s.onTiers f).queues = s.queues := rfl
@[simp] theorem State.onTiers_hands (f : TierState → TierState) : (s.onTiers f).hands = s.hands := rfl
@[simp] theorem State.onTiers_streams (f : TierState → TierState) : (s.onTiers f).streams = s.streams := rfl
@[simp] theorem State.onTiers_chans (f : TierState → TierState) : (s.onTiers f).chans = s.chans := rfl
@[simp] theorem State.onTiers_mem (f : TierState → TierState) : (s.onTiers f).mem = s.mem := rfl
@[simp] theorem State.onTiers_engine (f : TierState → TierState) : (s.onTiers f).engine = s.engine := rfl
@[simp] theorem State.onTiers_vault (f : TierState → TierState) : (s.onTiers f).vault = s.vault := rfl
@[simp] theorem State.onTiers_seat (f : TierState → TierState) : (s.onTiers f).seat = s.seat := rfl
@[simp] theorem State.onTiers_events (f : TierState → TierState) : (s.onTiers f).events = s.events := rfl
@[simp] theorem State.onTiers_dbg (f : TierState → TierState) : (s.onTiers f).dbg = s.dbg := rfl
@[simp] theorem State.onTiers_announce (f : TierState → TierState) : (s.onTiers f).announce = s.announce := rfl
@[simp] theorem State.onTiers_counters (f : TierState → TierState) : (s.onTiers f).counters = s.counters := rfl
@[simp] theorem State.onTiers_pending (f : TierState → TierState) : (s.onTiers f).pending = s.pending := rfl

/-! ## State.onStraps -/

@[simp] theorem State.onStraps_dieId (f : Straps → Straps) : (s.onStraps f).dieId = s.dieId := rfl
@[simp] theorem State.onStraps_free (f : Straps → Straps) : (s.onStraps f).free = s.free := rfl
@[simp] theorem State.onStraps_supply (f : Straps → Straps) : (s.onStraps f).supply = s.supply := rfl
@[simp] theorem State.onStraps_tiers (f : Straps → Straps) : (s.onStraps f).tiers = s.tiers := rfl
@[simp] theorem State.onStraps_straps (f : Straps → Straps) : (s.onStraps f).straps = f s.straps := rfl
@[simp] theorem State.onStraps_clock (f : Straps → Straps) : (s.onStraps f).clock = s.clock := rfl
@[simp] theorem State.onStraps_portA (f : Straps → Straps) : (s.onStraps f).portA = s.portA := rfl
@[simp] theorem State.onStraps_portB (f : Straps → Straps) : (s.onStraps f).portB = s.portB := rfl
@[simp] theorem State.onStraps_cut (f : Straps → Straps) : (s.onStraps f).cut = s.cut := rfl
@[simp] theorem State.onStraps_tables (f : Straps → Straps) : (s.onStraps f).tables = s.tables := rfl
@[simp] theorem State.onStraps_queues (f : Straps → Straps) : (s.onStraps f).queues = s.queues := rfl
@[simp] theorem State.onStraps_hands (f : Straps → Straps) : (s.onStraps f).hands = s.hands := rfl
@[simp] theorem State.onStraps_streams (f : Straps → Straps) : (s.onStraps f).streams = s.streams := rfl
@[simp] theorem State.onStraps_chans (f : Straps → Straps) : (s.onStraps f).chans = s.chans := rfl
@[simp] theorem State.onStraps_mem (f : Straps → Straps) : (s.onStraps f).mem = s.mem := rfl
@[simp] theorem State.onStraps_engine (f : Straps → Straps) : (s.onStraps f).engine = s.engine := rfl
@[simp] theorem State.onStraps_vault (f : Straps → Straps) : (s.onStraps f).vault = s.vault := rfl
@[simp] theorem State.onStraps_seat (f : Straps → Straps) : (s.onStraps f).seat = s.seat := rfl
@[simp] theorem State.onStraps_events (f : Straps → Straps) : (s.onStraps f).events = s.events := rfl
@[simp] theorem State.onStraps_dbg (f : Straps → Straps) : (s.onStraps f).dbg = s.dbg := rfl
@[simp] theorem State.onStraps_announce (f : Straps → Straps) : (s.onStraps f).announce = s.announce := rfl
@[simp] theorem State.onStraps_counters (f : Straps → Straps) : (s.onStraps f).counters = s.counters := rfl
@[simp] theorem State.onStraps_pending (f : Straps → Straps) : (s.onStraps f).pending = s.pending := rfl

/-! ## State.onClock -/

@[simp] theorem State.onClock_dieId (f : Clock → Clock) : (s.onClock f).dieId = s.dieId := rfl
@[simp] theorem State.onClock_free (f : Clock → Clock) : (s.onClock f).free = s.free := rfl
@[simp] theorem State.onClock_supply (f : Clock → Clock) : (s.onClock f).supply = s.supply := rfl
@[simp] theorem State.onClock_tiers (f : Clock → Clock) : (s.onClock f).tiers = s.tiers := rfl
@[simp] theorem State.onClock_straps (f : Clock → Clock) : (s.onClock f).straps = s.straps := rfl
@[simp] theorem State.onClock_clock (f : Clock → Clock) : (s.onClock f).clock = f s.clock := rfl
@[simp] theorem State.onClock_portA (f : Clock → Clock) : (s.onClock f).portA = s.portA := rfl
@[simp] theorem State.onClock_portB (f : Clock → Clock) : (s.onClock f).portB = s.portB := rfl
@[simp] theorem State.onClock_cut (f : Clock → Clock) : (s.onClock f).cut = s.cut := rfl
@[simp] theorem State.onClock_tables (f : Clock → Clock) : (s.onClock f).tables = s.tables := rfl
@[simp] theorem State.onClock_queues (f : Clock → Clock) : (s.onClock f).queues = s.queues := rfl
@[simp] theorem State.onClock_hands (f : Clock → Clock) : (s.onClock f).hands = s.hands := rfl
@[simp] theorem State.onClock_streams (f : Clock → Clock) : (s.onClock f).streams = s.streams := rfl
@[simp] theorem State.onClock_chans (f : Clock → Clock) : (s.onClock f).chans = s.chans := rfl
@[simp] theorem State.onClock_mem (f : Clock → Clock) : (s.onClock f).mem = s.mem := rfl
@[simp] theorem State.onClock_engine (f : Clock → Clock) : (s.onClock f).engine = s.engine := rfl
@[simp] theorem State.onClock_vault (f : Clock → Clock) : (s.onClock f).vault = s.vault := rfl
@[simp] theorem State.onClock_seat (f : Clock → Clock) : (s.onClock f).seat = s.seat := rfl
@[simp] theorem State.onClock_events (f : Clock → Clock) : (s.onClock f).events = s.events := rfl
@[simp] theorem State.onClock_dbg (f : Clock → Clock) : (s.onClock f).dbg = s.dbg := rfl
@[simp] theorem State.onClock_announce (f : Clock → Clock) : (s.onClock f).announce = s.announce := rfl
@[simp] theorem State.onClock_counters (f : Clock → Clock) : (s.onClock f).counters = s.counters := rfl
@[simp] theorem State.onClock_pending (f : Clock → Clock) : (s.onClock f).pending = s.pending := rfl

/-! ## State.onCut -/

@[simp] theorem State.onCut_dieId (f : Cut → Cut) : (s.onCut f).dieId = s.dieId := rfl
@[simp] theorem State.onCut_free (f : Cut → Cut) : (s.onCut f).free = s.free := rfl
@[simp] theorem State.onCut_supply (f : Cut → Cut) : (s.onCut f).supply = s.supply := rfl
@[simp] theorem State.onCut_tiers (f : Cut → Cut) : (s.onCut f).tiers = s.tiers := rfl
@[simp] theorem State.onCut_straps (f : Cut → Cut) : (s.onCut f).straps = s.straps := rfl
@[simp] theorem State.onCut_clock (f : Cut → Cut) : (s.onCut f).clock = s.clock := rfl
@[simp] theorem State.onCut_portA (f : Cut → Cut) : (s.onCut f).portA = s.portA := rfl
@[simp] theorem State.onCut_portB (f : Cut → Cut) : (s.onCut f).portB = s.portB := rfl
@[simp] theorem State.onCut_cut (f : Cut → Cut) : (s.onCut f).cut = f s.cut := rfl
@[simp] theorem State.onCut_tables (f : Cut → Cut) : (s.onCut f).tables = s.tables := rfl
@[simp] theorem State.onCut_queues (f : Cut → Cut) : (s.onCut f).queues = s.queues := rfl
@[simp] theorem State.onCut_hands (f : Cut → Cut) : (s.onCut f).hands = s.hands := rfl
@[simp] theorem State.onCut_streams (f : Cut → Cut) : (s.onCut f).streams = s.streams := rfl
@[simp] theorem State.onCut_chans (f : Cut → Cut) : (s.onCut f).chans = s.chans := rfl
@[simp] theorem State.onCut_mem (f : Cut → Cut) : (s.onCut f).mem = s.mem := rfl
@[simp] theorem State.onCut_engine (f : Cut → Cut) : (s.onCut f).engine = s.engine := rfl
@[simp] theorem State.onCut_vault (f : Cut → Cut) : (s.onCut f).vault = s.vault := rfl
@[simp] theorem State.onCut_seat (f : Cut → Cut) : (s.onCut f).seat = s.seat := rfl
@[simp] theorem State.onCut_events (f : Cut → Cut) : (s.onCut f).events = s.events := rfl
@[simp] theorem State.onCut_dbg (f : Cut → Cut) : (s.onCut f).dbg = s.dbg := rfl
@[simp] theorem State.onCut_announce (f : Cut → Cut) : (s.onCut f).announce = s.announce := rfl
@[simp] theorem State.onCut_counters (f : Cut → Cut) : (s.onCut f).counters = s.counters := rfl
@[simp] theorem State.onCut_pending (f : Cut → Cut) : (s.onCut f).pending = s.pending := rfl

/-! ## State.onTables -/

@[simp] theorem State.onTables_dieId (f : Tables → Tables) : (s.onTables f).dieId = s.dieId := rfl
@[simp] theorem State.onTables_free (f : Tables → Tables) : (s.onTables f).free = s.free := rfl
@[simp] theorem State.onTables_supply (f : Tables → Tables) : (s.onTables f).supply = s.supply := rfl
@[simp] theorem State.onTables_tiers (f : Tables → Tables) : (s.onTables f).tiers = s.tiers := rfl
@[simp] theorem State.onTables_straps (f : Tables → Tables) : (s.onTables f).straps = s.straps := rfl
@[simp] theorem State.onTables_clock (f : Tables → Tables) : (s.onTables f).clock = s.clock := rfl
@[simp] theorem State.onTables_portA (f : Tables → Tables) : (s.onTables f).portA = s.portA := rfl
@[simp] theorem State.onTables_portB (f : Tables → Tables) : (s.onTables f).portB = s.portB := rfl
@[simp] theorem State.onTables_cut (f : Tables → Tables) : (s.onTables f).cut = s.cut := rfl
@[simp] theorem State.onTables_tables (f : Tables → Tables) : (s.onTables f).tables = f s.tables := rfl
@[simp] theorem State.onTables_queues (f : Tables → Tables) : (s.onTables f).queues = s.queues := rfl
@[simp] theorem State.onTables_hands (f : Tables → Tables) : (s.onTables f).hands = s.hands := rfl
@[simp] theorem State.onTables_streams (f : Tables → Tables) : (s.onTables f).streams = s.streams := rfl
@[simp] theorem State.onTables_chans (f : Tables → Tables) : (s.onTables f).chans = s.chans := rfl
@[simp] theorem State.onTables_mem (f : Tables → Tables) : (s.onTables f).mem = s.mem := rfl
@[simp] theorem State.onTables_engine (f : Tables → Tables) : (s.onTables f).engine = s.engine := rfl
@[simp] theorem State.onTables_vault (f : Tables → Tables) : (s.onTables f).vault = s.vault := rfl
@[simp] theorem State.onTables_seat (f : Tables → Tables) : (s.onTables f).seat = s.seat := rfl
@[simp] theorem State.onTables_events (f : Tables → Tables) : (s.onTables f).events = s.events := rfl
@[simp] theorem State.onTables_dbg (f : Tables → Tables) : (s.onTables f).dbg = s.dbg := rfl
@[simp] theorem State.onTables_announce (f : Tables → Tables) : (s.onTables f).announce = s.announce := rfl
@[simp] theorem State.onTables_counters (f : Tables → Tables) : (s.onTables f).counters = s.counters := rfl
@[simp] theorem State.onTables_pending (f : Tables → Tables) : (s.onTables f).pending = s.pending := rfl

/-! ## State.onQueues -/

@[simp] theorem State.onQueues_dieId (f : Queues → Queues) : (s.onQueues f).dieId = s.dieId := rfl
@[simp] theorem State.onQueues_free (f : Queues → Queues) : (s.onQueues f).free = s.free := rfl
@[simp] theorem State.onQueues_supply (f : Queues → Queues) : (s.onQueues f).supply = s.supply := rfl
@[simp] theorem State.onQueues_tiers (f : Queues → Queues) : (s.onQueues f).tiers = s.tiers := rfl
@[simp] theorem State.onQueues_straps (f : Queues → Queues) : (s.onQueues f).straps = s.straps := rfl
@[simp] theorem State.onQueues_clock (f : Queues → Queues) : (s.onQueues f).clock = s.clock := rfl
@[simp] theorem State.onQueues_portA (f : Queues → Queues) : (s.onQueues f).portA = s.portA := rfl
@[simp] theorem State.onQueues_portB (f : Queues → Queues) : (s.onQueues f).portB = s.portB := rfl
@[simp] theorem State.onQueues_cut (f : Queues → Queues) : (s.onQueues f).cut = s.cut := rfl
@[simp] theorem State.onQueues_tables (f : Queues → Queues) : (s.onQueues f).tables = s.tables := rfl
@[simp] theorem State.onQueues_queues (f : Queues → Queues) : (s.onQueues f).queues = f s.queues := rfl
@[simp] theorem State.onQueues_hands (f : Queues → Queues) : (s.onQueues f).hands = s.hands := rfl
@[simp] theorem State.onQueues_streams (f : Queues → Queues) : (s.onQueues f).streams = s.streams := rfl
@[simp] theorem State.onQueues_chans (f : Queues → Queues) : (s.onQueues f).chans = s.chans := rfl
@[simp] theorem State.onQueues_mem (f : Queues → Queues) : (s.onQueues f).mem = s.mem := rfl
@[simp] theorem State.onQueues_engine (f : Queues → Queues) : (s.onQueues f).engine = s.engine := rfl
@[simp] theorem State.onQueues_vault (f : Queues → Queues) : (s.onQueues f).vault = s.vault := rfl
@[simp] theorem State.onQueues_seat (f : Queues → Queues) : (s.onQueues f).seat = s.seat := rfl
@[simp] theorem State.onQueues_events (f : Queues → Queues) : (s.onQueues f).events = s.events := rfl
@[simp] theorem State.onQueues_dbg (f : Queues → Queues) : (s.onQueues f).dbg = s.dbg := rfl
@[simp] theorem State.onQueues_announce (f : Queues → Queues) : (s.onQueues f).announce = s.announce := rfl
@[simp] theorem State.onQueues_counters (f : Queues → Queues) : (s.onQueues f).counters = s.counters := rfl
@[simp] theorem State.onQueues_pending (f : Queues → Queues) : (s.onQueues f).pending = s.pending := rfl

/-! ## State.onMem -/

@[simp] theorem State.onMem_dieId (f : Memory → Memory) : (s.onMem f).dieId = s.dieId := rfl
@[simp] theorem State.onMem_free (f : Memory → Memory) : (s.onMem f).free = s.free := rfl
@[simp] theorem State.onMem_supply (f : Memory → Memory) : (s.onMem f).supply = s.supply := rfl
@[simp] theorem State.onMem_tiers (f : Memory → Memory) : (s.onMem f).tiers = s.tiers := rfl
@[simp] theorem State.onMem_straps (f : Memory → Memory) : (s.onMem f).straps = s.straps := rfl
@[simp] theorem State.onMem_clock (f : Memory → Memory) : (s.onMem f).clock = s.clock := rfl
@[simp] theorem State.onMem_portA (f : Memory → Memory) : (s.onMem f).portA = s.portA := rfl
@[simp] theorem State.onMem_portB (f : Memory → Memory) : (s.onMem f).portB = s.portB := rfl
@[simp] theorem State.onMem_cut (f : Memory → Memory) : (s.onMem f).cut = s.cut := rfl
@[simp] theorem State.onMem_tables (f : Memory → Memory) : (s.onMem f).tables = s.tables := rfl
@[simp] theorem State.onMem_queues (f : Memory → Memory) : (s.onMem f).queues = s.queues := rfl
@[simp] theorem State.onMem_hands (f : Memory → Memory) : (s.onMem f).hands = s.hands := rfl
@[simp] theorem State.onMem_streams (f : Memory → Memory) : (s.onMem f).streams = s.streams := rfl
@[simp] theorem State.onMem_chans (f : Memory → Memory) : (s.onMem f).chans = s.chans := rfl
@[simp] theorem State.onMem_mem (f : Memory → Memory) : (s.onMem f).mem = f s.mem := rfl
@[simp] theorem State.onMem_engine (f : Memory → Memory) : (s.onMem f).engine = s.engine := rfl
@[simp] theorem State.onMem_vault (f : Memory → Memory) : (s.onMem f).vault = s.vault := rfl
@[simp] theorem State.onMem_seat (f : Memory → Memory) : (s.onMem f).seat = s.seat := rfl
@[simp] theorem State.onMem_events (f : Memory → Memory) : (s.onMem f).events = s.events := rfl
@[simp] theorem State.onMem_dbg (f : Memory → Memory) : (s.onMem f).dbg = s.dbg := rfl
@[simp] theorem State.onMem_announce (f : Memory → Memory) : (s.onMem f).announce = s.announce := rfl
@[simp] theorem State.onMem_counters (f : Memory → Memory) : (s.onMem f).counters = s.counters := rfl
@[simp] theorem State.onMem_pending (f : Memory → Memory) : (s.onMem f).pending = s.pending := rfl

/-! ## State.onEngine -/

@[simp] theorem State.onEngine_dieId (f : Engine → Engine) : (s.onEngine f).dieId = s.dieId := rfl
@[simp] theorem State.onEngine_free (f : Engine → Engine) : (s.onEngine f).free = s.free := rfl
@[simp] theorem State.onEngine_supply (f : Engine → Engine) : (s.onEngine f).supply = s.supply := rfl
@[simp] theorem State.onEngine_tiers (f : Engine → Engine) : (s.onEngine f).tiers = s.tiers := rfl
@[simp] theorem State.onEngine_straps (f : Engine → Engine) : (s.onEngine f).straps = s.straps := rfl
@[simp] theorem State.onEngine_clock (f : Engine → Engine) : (s.onEngine f).clock = s.clock := rfl
@[simp] theorem State.onEngine_portA (f : Engine → Engine) : (s.onEngine f).portA = s.portA := rfl
@[simp] theorem State.onEngine_portB (f : Engine → Engine) : (s.onEngine f).portB = s.portB := rfl
@[simp] theorem State.onEngine_cut (f : Engine → Engine) : (s.onEngine f).cut = s.cut := rfl
@[simp] theorem State.onEngine_tables (f : Engine → Engine) : (s.onEngine f).tables = s.tables := rfl
@[simp] theorem State.onEngine_queues (f : Engine → Engine) : (s.onEngine f).queues = s.queues := rfl
@[simp] theorem State.onEngine_hands (f : Engine → Engine) : (s.onEngine f).hands = s.hands := rfl
@[simp] theorem State.onEngine_streams (f : Engine → Engine) : (s.onEngine f).streams = s.streams := rfl
@[simp] theorem State.onEngine_chans (f : Engine → Engine) : (s.onEngine f).chans = s.chans := rfl
@[simp] theorem State.onEngine_mem (f : Engine → Engine) : (s.onEngine f).mem = s.mem := rfl
@[simp] theorem State.onEngine_engine (f : Engine → Engine) : (s.onEngine f).engine = f s.engine := rfl
@[simp] theorem State.onEngine_vault (f : Engine → Engine) : (s.onEngine f).vault = s.vault := rfl
@[simp] theorem State.onEngine_seat (f : Engine → Engine) : (s.onEngine f).seat = s.seat := rfl
@[simp] theorem State.onEngine_events (f : Engine → Engine) : (s.onEngine f).events = s.events := rfl
@[simp] theorem State.onEngine_dbg (f : Engine → Engine) : (s.onEngine f).dbg = s.dbg := rfl
@[simp] theorem State.onEngine_announce (f : Engine → Engine) : (s.onEngine f).announce = s.announce := rfl
@[simp] theorem State.onEngine_counters (f : Engine → Engine) : (s.onEngine f).counters = s.counters := rfl
@[simp] theorem State.onEngine_pending (f : Engine → Engine) : (s.onEngine f).pending = s.pending := rfl

/-! ## State.onVault -/

@[simp] theorem State.onVault_dieId (f : Vault → Vault) : (s.onVault f).dieId = s.dieId := rfl
@[simp] theorem State.onVault_free (f : Vault → Vault) : (s.onVault f).free = s.free := rfl
@[simp] theorem State.onVault_supply (f : Vault → Vault) : (s.onVault f).supply = s.supply := rfl
@[simp] theorem State.onVault_tiers (f : Vault → Vault) : (s.onVault f).tiers = s.tiers := rfl
@[simp] theorem State.onVault_straps (f : Vault → Vault) : (s.onVault f).straps = s.straps := rfl
@[simp] theorem State.onVault_clock (f : Vault → Vault) : (s.onVault f).clock = s.clock := rfl
@[simp] theorem State.onVault_portA (f : Vault → Vault) : (s.onVault f).portA = s.portA := rfl
@[simp] theorem State.onVault_portB (f : Vault → Vault) : (s.onVault f).portB = s.portB := rfl
@[simp] theorem State.onVault_cut (f : Vault → Vault) : (s.onVault f).cut = s.cut := rfl
@[simp] theorem State.onVault_tables (f : Vault → Vault) : (s.onVault f).tables = s.tables := rfl
@[simp] theorem State.onVault_queues (f : Vault → Vault) : (s.onVault f).queues = s.queues := rfl
@[simp] theorem State.onVault_hands (f : Vault → Vault) : (s.onVault f).hands = s.hands := rfl
@[simp] theorem State.onVault_streams (f : Vault → Vault) : (s.onVault f).streams = s.streams := rfl
@[simp] theorem State.onVault_chans (f : Vault → Vault) : (s.onVault f).chans = s.chans := rfl
@[simp] theorem State.onVault_mem (f : Vault → Vault) : (s.onVault f).mem = s.mem := rfl
@[simp] theorem State.onVault_engine (f : Vault → Vault) : (s.onVault f).engine = s.engine := rfl
@[simp] theorem State.onVault_vault (f : Vault → Vault) : (s.onVault f).vault = f s.vault := rfl
@[simp] theorem State.onVault_seat (f : Vault → Vault) : (s.onVault f).seat = s.seat := rfl
@[simp] theorem State.onVault_events (f : Vault → Vault) : (s.onVault f).events = s.events := rfl
@[simp] theorem State.onVault_dbg (f : Vault → Vault) : (s.onVault f).dbg = s.dbg := rfl
@[simp] theorem State.onVault_announce (f : Vault → Vault) : (s.onVault f).announce = s.announce := rfl
@[simp] theorem State.onVault_counters (f : Vault → Vault) : (s.onVault f).counters = s.counters := rfl
@[simp] theorem State.onVault_pending (f : Vault → Vault) : (s.onVault f).pending = s.pending := rfl

/-! ## State.onSeat -/

@[simp] theorem State.onSeat_dieId (f : SeatState → SeatState) : (s.onSeat f).dieId = s.dieId := rfl
@[simp] theorem State.onSeat_free (f : SeatState → SeatState) : (s.onSeat f).free = s.free := rfl
@[simp] theorem State.onSeat_supply (f : SeatState → SeatState) : (s.onSeat f).supply = s.supply := rfl
@[simp] theorem State.onSeat_tiers (f : SeatState → SeatState) : (s.onSeat f).tiers = s.tiers := rfl
@[simp] theorem State.onSeat_straps (f : SeatState → SeatState) : (s.onSeat f).straps = s.straps := rfl
@[simp] theorem State.onSeat_clock (f : SeatState → SeatState) : (s.onSeat f).clock = s.clock := rfl
@[simp] theorem State.onSeat_portA (f : SeatState → SeatState) : (s.onSeat f).portA = s.portA := rfl
@[simp] theorem State.onSeat_portB (f : SeatState → SeatState) : (s.onSeat f).portB = s.portB := rfl
@[simp] theorem State.onSeat_cut (f : SeatState → SeatState) : (s.onSeat f).cut = s.cut := rfl
@[simp] theorem State.onSeat_tables (f : SeatState → SeatState) : (s.onSeat f).tables = s.tables := rfl
@[simp] theorem State.onSeat_queues (f : SeatState → SeatState) : (s.onSeat f).queues = s.queues := rfl
@[simp] theorem State.onSeat_hands (f : SeatState → SeatState) : (s.onSeat f).hands = s.hands := rfl
@[simp] theorem State.onSeat_streams (f : SeatState → SeatState) : (s.onSeat f).streams = s.streams := rfl
@[simp] theorem State.onSeat_chans (f : SeatState → SeatState) : (s.onSeat f).chans = s.chans := rfl
@[simp] theorem State.onSeat_mem (f : SeatState → SeatState) : (s.onSeat f).mem = s.mem := rfl
@[simp] theorem State.onSeat_engine (f : SeatState → SeatState) : (s.onSeat f).engine = s.engine := rfl
@[simp] theorem State.onSeat_vault (f : SeatState → SeatState) : (s.onSeat f).vault = s.vault := rfl
@[simp] theorem State.onSeat_seat (f : SeatState → SeatState) : (s.onSeat f).seat = f s.seat := rfl
@[simp] theorem State.onSeat_events (f : SeatState → SeatState) : (s.onSeat f).events = s.events := rfl
@[simp] theorem State.onSeat_dbg (f : SeatState → SeatState) : (s.onSeat f).dbg = s.dbg := rfl
@[simp] theorem State.onSeat_announce (f : SeatState → SeatState) : (s.onSeat f).announce = s.announce := rfl
@[simp] theorem State.onSeat_counters (f : SeatState → SeatState) : (s.onSeat f).counters = s.counters := rfl
@[simp] theorem State.onSeat_pending (f : SeatState → SeatState) : (s.onSeat f).pending = s.pending := rfl

/-! ## State.onEvents -/

@[simp] theorem State.onEvents_dieId (f : Events → Events) : (s.onEvents f).dieId = s.dieId := rfl
@[simp] theorem State.onEvents_free (f : Events → Events) : (s.onEvents f).free = s.free := rfl
@[simp] theorem State.onEvents_supply (f : Events → Events) : (s.onEvents f).supply = s.supply := rfl
@[simp] theorem State.onEvents_tiers (f : Events → Events) : (s.onEvents f).tiers = s.tiers := rfl
@[simp] theorem State.onEvents_straps (f : Events → Events) : (s.onEvents f).straps = s.straps := rfl
@[simp] theorem State.onEvents_clock (f : Events → Events) : (s.onEvents f).clock = s.clock := rfl
@[simp] theorem State.onEvents_portA (f : Events → Events) : (s.onEvents f).portA = s.portA := rfl
@[simp] theorem State.onEvents_portB (f : Events → Events) : (s.onEvents f).portB = s.portB := rfl
@[simp] theorem State.onEvents_cut (f : Events → Events) : (s.onEvents f).cut = s.cut := rfl
@[simp] theorem State.onEvents_tables (f : Events → Events) : (s.onEvents f).tables = s.tables := rfl
@[simp] theorem State.onEvents_queues (f : Events → Events) : (s.onEvents f).queues = s.queues := rfl
@[simp] theorem State.onEvents_hands (f : Events → Events) : (s.onEvents f).hands = s.hands := rfl
@[simp] theorem State.onEvents_streams (f : Events → Events) : (s.onEvents f).streams = s.streams := rfl
@[simp] theorem State.onEvents_chans (f : Events → Events) : (s.onEvents f).chans = s.chans := rfl
@[simp] theorem State.onEvents_mem (f : Events → Events) : (s.onEvents f).mem = s.mem := rfl
@[simp] theorem State.onEvents_engine (f : Events → Events) : (s.onEvents f).engine = s.engine := rfl
@[simp] theorem State.onEvents_vault (f : Events → Events) : (s.onEvents f).vault = s.vault := rfl
@[simp] theorem State.onEvents_seat (f : Events → Events) : (s.onEvents f).seat = s.seat := rfl
@[simp] theorem State.onEvents_events (f : Events → Events) : (s.onEvents f).events = f s.events := rfl
@[simp] theorem State.onEvents_dbg (f : Events → Events) : (s.onEvents f).dbg = s.dbg := rfl
@[simp] theorem State.onEvents_announce (f : Events → Events) : (s.onEvents f).announce = s.announce := rfl
@[simp] theorem State.onEvents_counters (f : Events → Events) : (s.onEvents f).counters = s.counters := rfl
@[simp] theorem State.onEvents_pending (f : Events → Events) : (s.onEvents f).pending = s.pending := rfl

/-! ## State.onDebug -/

@[simp] theorem State.onDebug_dieId (f : Debug → Debug) : (s.onDebug f).dieId = s.dieId := rfl
@[simp] theorem State.onDebug_free (f : Debug → Debug) : (s.onDebug f).free = s.free := rfl
@[simp] theorem State.onDebug_supply (f : Debug → Debug) : (s.onDebug f).supply = s.supply := rfl
@[simp] theorem State.onDebug_tiers (f : Debug → Debug) : (s.onDebug f).tiers = s.tiers := rfl
@[simp] theorem State.onDebug_straps (f : Debug → Debug) : (s.onDebug f).straps = s.straps := rfl
@[simp] theorem State.onDebug_clock (f : Debug → Debug) : (s.onDebug f).clock = s.clock := rfl
@[simp] theorem State.onDebug_portA (f : Debug → Debug) : (s.onDebug f).portA = s.portA := rfl
@[simp] theorem State.onDebug_portB (f : Debug → Debug) : (s.onDebug f).portB = s.portB := rfl
@[simp] theorem State.onDebug_cut (f : Debug → Debug) : (s.onDebug f).cut = s.cut := rfl
@[simp] theorem State.onDebug_tables (f : Debug → Debug) : (s.onDebug f).tables = s.tables := rfl
@[simp] theorem State.onDebug_queues (f : Debug → Debug) : (s.onDebug f).queues = s.queues := rfl
@[simp] theorem State.onDebug_hands (f : Debug → Debug) : (s.onDebug f).hands = s.hands := rfl
@[simp] theorem State.onDebug_streams (f : Debug → Debug) : (s.onDebug f).streams = s.streams := rfl
@[simp] theorem State.onDebug_chans (f : Debug → Debug) : (s.onDebug f).chans = s.chans := rfl
@[simp] theorem State.onDebug_mem (f : Debug → Debug) : (s.onDebug f).mem = s.mem := rfl
@[simp] theorem State.onDebug_engine (f : Debug → Debug) : (s.onDebug f).engine = s.engine := rfl
@[simp] theorem State.onDebug_vault (f : Debug → Debug) : (s.onDebug f).vault = s.vault := rfl
@[simp] theorem State.onDebug_seat (f : Debug → Debug) : (s.onDebug f).seat = s.seat := rfl
@[simp] theorem State.onDebug_events (f : Debug → Debug) : (s.onDebug f).events = s.events := rfl
@[simp] theorem State.onDebug_dbg (f : Debug → Debug) : (s.onDebug f).dbg = f s.dbg := rfl
@[simp] theorem State.onDebug_announce (f : Debug → Debug) : (s.onDebug f).announce = s.announce := rfl
@[simp] theorem State.onDebug_counters (f : Debug → Debug) : (s.onDebug f).counters = s.counters := rfl
@[simp] theorem State.onDebug_pending (f : Debug → Debug) : (s.onDebug f).pending = s.pending := rfl

/-! ## State.onAnnounce -/

@[simp] theorem State.onAnnounce_dieId (f : Announce → Announce) : (s.onAnnounce f).dieId = s.dieId := rfl
@[simp] theorem State.onAnnounce_free (f : Announce → Announce) : (s.onAnnounce f).free = s.free := rfl
@[simp] theorem State.onAnnounce_supply (f : Announce → Announce) : (s.onAnnounce f).supply = s.supply := rfl
@[simp] theorem State.onAnnounce_tiers (f : Announce → Announce) : (s.onAnnounce f).tiers = s.tiers := rfl
@[simp] theorem State.onAnnounce_straps (f : Announce → Announce) : (s.onAnnounce f).straps = s.straps := rfl
@[simp] theorem State.onAnnounce_clock (f : Announce → Announce) : (s.onAnnounce f).clock = s.clock := rfl
@[simp] theorem State.onAnnounce_portA (f : Announce → Announce) : (s.onAnnounce f).portA = s.portA := rfl
@[simp] theorem State.onAnnounce_portB (f : Announce → Announce) : (s.onAnnounce f).portB = s.portB := rfl
@[simp] theorem State.onAnnounce_cut (f : Announce → Announce) : (s.onAnnounce f).cut = s.cut := rfl
@[simp] theorem State.onAnnounce_tables (f : Announce → Announce) : (s.onAnnounce f).tables = s.tables := rfl
@[simp] theorem State.onAnnounce_queues (f : Announce → Announce) : (s.onAnnounce f).queues = s.queues := rfl
@[simp] theorem State.onAnnounce_hands (f : Announce → Announce) : (s.onAnnounce f).hands = s.hands := rfl
@[simp] theorem State.onAnnounce_streams (f : Announce → Announce) : (s.onAnnounce f).streams = s.streams := rfl
@[simp] theorem State.onAnnounce_chans (f : Announce → Announce) : (s.onAnnounce f).chans = s.chans := rfl
@[simp] theorem State.onAnnounce_mem (f : Announce → Announce) : (s.onAnnounce f).mem = s.mem := rfl
@[simp] theorem State.onAnnounce_engine (f : Announce → Announce) : (s.onAnnounce f).engine = s.engine := rfl
@[simp] theorem State.onAnnounce_vault (f : Announce → Announce) : (s.onAnnounce f).vault = s.vault := rfl
@[simp] theorem State.onAnnounce_seat (f : Announce → Announce) : (s.onAnnounce f).seat = s.seat := rfl
@[simp] theorem State.onAnnounce_events (f : Announce → Announce) : (s.onAnnounce f).events = s.events := rfl
@[simp] theorem State.onAnnounce_dbg (f : Announce → Announce) : (s.onAnnounce f).dbg = s.dbg := rfl
@[simp] theorem State.onAnnounce_announce (f : Announce → Announce) : (s.onAnnounce f).announce = f s.announce := rfl
@[simp] theorem State.onAnnounce_counters (f : Announce → Announce) : (s.onAnnounce f).counters = s.counters := rfl
@[simp] theorem State.onAnnounce_pending (f : Announce → Announce) : (s.onAnnounce f).pending = s.pending := rfl

/-! ## State.onChan -/

@[simp] theorem State.onChan_dieId (n : Fin 24) (f : Chan → Chan) : (s.onChan n f).dieId = s.dieId := rfl
@[simp] theorem State.onChan_free (n : Fin 24) (f : Chan → Chan) : (s.onChan n f).free = s.free := rfl
@[simp] theorem State.onChan_supply (n : Fin 24) (f : Chan → Chan) : (s.onChan n f).supply = s.supply := rfl
@[simp] theorem State.onChan_tiers (n : Fin 24) (f : Chan → Chan) : (s.onChan n f).tiers = s.tiers := rfl
@[simp] theorem State.onChan_straps (n : Fin 24) (f : Chan → Chan) : (s.onChan n f).straps = s.straps := rfl
@[simp] theorem State.onChan_clock (n : Fin 24) (f : Chan → Chan) : (s.onChan n f).clock = s.clock := rfl
@[simp] theorem State.onChan_portA (n : Fin 24) (f : Chan → Chan) : (s.onChan n f).portA = s.portA := rfl
@[simp] theorem State.onChan_portB (n : Fin 24) (f : Chan → Chan) : (s.onChan n f).portB = s.portB := rfl
@[simp] theorem State.onChan_cut (n : Fin 24) (f : Chan → Chan) : (s.onChan n f).cut = s.cut := rfl
@[simp] theorem State.onChan_tables (n : Fin 24) (f : Chan → Chan) : (s.onChan n f).tables = s.tables := rfl
@[simp] theorem State.onChan_queues (n : Fin 24) (f : Chan → Chan) : (s.onChan n f).queues = s.queues := rfl
@[simp] theorem State.onChan_hands (n : Fin 24) (f : Chan → Chan) : (s.onChan n f).hands = s.hands := rfl
@[simp] theorem State.onChan_streams (n : Fin 24) (f : Chan → Chan) : (s.onChan n f).streams = s.streams := rfl
@[simp] theorem State.onChan_mem (n : Fin 24) (f : Chan → Chan) : (s.onChan n f).mem = s.mem := rfl
@[simp] theorem State.onChan_engine (n : Fin 24) (f : Chan → Chan) : (s.onChan n f).engine = s.engine := rfl
@[simp] theorem State.onChan_vault (n : Fin 24) (f : Chan → Chan) : (s.onChan n f).vault = s.vault := rfl
@[simp] theorem State.onChan_seat (n : Fin 24) (f : Chan → Chan) : (s.onChan n f).seat = s.seat := rfl
@[simp] theorem State.onChan_events (n : Fin 24) (f : Chan → Chan) : (s.onChan n f).events = s.events := rfl
@[simp] theorem State.onChan_dbg (n : Fin 24) (f : Chan → Chan) : (s.onChan n f).dbg = s.dbg := rfl
@[simp] theorem State.onChan_announce (n : Fin 24) (f : Chan → Chan) : (s.onChan n f).announce = s.announce := rfl
@[simp] theorem State.onChan_counters (n : Fin 24) (f : Chan → Chan) : (s.onChan n f).counters = s.counters := rfl
@[simp] theorem State.onChan_pending (n : Fin 24) (f : Chan → Chan) : (s.onChan n f).pending = s.pending := rfl

/-! ## State.onHand -/

@[simp] theorem State.onHand_dieId (h : Fin 16) (f : Hand → Hand) : (s.onHand h f).dieId = s.dieId := rfl
@[simp] theorem State.onHand_free (h : Fin 16) (f : Hand → Hand) : (s.onHand h f).free = s.free := rfl
@[simp] theorem State.onHand_supply (h : Fin 16) (f : Hand → Hand) : (s.onHand h f).supply = s.supply := rfl
@[simp] theorem State.onHand_tiers (h : Fin 16) (f : Hand → Hand) : (s.onHand h f).tiers = s.tiers := rfl
@[simp] theorem State.onHand_straps (h : Fin 16) (f : Hand → Hand) : (s.onHand h f).straps = s.straps := rfl
@[simp] theorem State.onHand_clock (h : Fin 16) (f : Hand → Hand) : (s.onHand h f).clock = s.clock := rfl
@[simp] theorem State.onHand_portA (h : Fin 16) (f : Hand → Hand) : (s.onHand h f).portA = s.portA := rfl
@[simp] theorem State.onHand_portB (h : Fin 16) (f : Hand → Hand) : (s.onHand h f).portB = s.portB := rfl
@[simp] theorem State.onHand_cut (h : Fin 16) (f : Hand → Hand) : (s.onHand h f).cut = s.cut := rfl
@[simp] theorem State.onHand_tables (h : Fin 16) (f : Hand → Hand) : (s.onHand h f).tables = s.tables := rfl
@[simp] theorem State.onHand_queues (h : Fin 16) (f : Hand → Hand) : (s.onHand h f).queues = s.queues := rfl
@[simp] theorem State.onHand_streams (h : Fin 16) (f : Hand → Hand) : (s.onHand h f).streams = s.streams := rfl
@[simp] theorem State.onHand_chans (h : Fin 16) (f : Hand → Hand) : (s.onHand h f).chans = s.chans := rfl
@[simp] theorem State.onHand_mem (h : Fin 16) (f : Hand → Hand) : (s.onHand h f).mem = s.mem := rfl
@[simp] theorem State.onHand_engine (h : Fin 16) (f : Hand → Hand) : (s.onHand h f).engine = s.engine := rfl
@[simp] theorem State.onHand_vault (h : Fin 16) (f : Hand → Hand) : (s.onHand h f).vault = s.vault := rfl
@[simp] theorem State.onHand_seat (h : Fin 16) (f : Hand → Hand) : (s.onHand h f).seat = s.seat := rfl
@[simp] theorem State.onHand_events (h : Fin 16) (f : Hand → Hand) : (s.onHand h f).events = s.events := rfl
@[simp] theorem State.onHand_dbg (h : Fin 16) (f : Hand → Hand) : (s.onHand h f).dbg = s.dbg := rfl
@[simp] theorem State.onHand_announce (h : Fin 16) (f : Hand → Hand) : (s.onHand h f).announce = s.announce := rfl
@[simp] theorem State.onHand_counters (h : Fin 16) (f : Hand → Hand) : (s.onHand h f).counters = s.counters := rfl
@[simp] theorem State.onHand_pending (h : Fin 16) (f : Hand → Hand) : (s.onHand h f).pending = s.pending := rfl

/-! ## State.mapChans -/

@[simp] theorem State.mapChans_dieId (f : Fin 24 → Chan → Chan) : (s.mapChans f).dieId = s.dieId := by rw [State.mapChans]
@[simp] theorem State.mapChans_free (f : Fin 24 → Chan → Chan) : (s.mapChans f).free = s.free := by rw [State.mapChans]
@[simp] theorem State.mapChans_supply (f : Fin 24 → Chan → Chan) : (s.mapChans f).supply = s.supply := by rw [State.mapChans]
@[simp] theorem State.mapChans_tiers (f : Fin 24 → Chan → Chan) : (s.mapChans f).tiers = s.tiers := by rw [State.mapChans]
@[simp] theorem State.mapChans_straps (f : Fin 24 → Chan → Chan) : (s.mapChans f).straps = s.straps := by rw [State.mapChans]
@[simp] theorem State.mapChans_clock (f : Fin 24 → Chan → Chan) : (s.mapChans f).clock = s.clock := by rw [State.mapChans]
@[simp] theorem State.mapChans_portA (f : Fin 24 → Chan → Chan) : (s.mapChans f).portA = s.portA := by rw [State.mapChans]
@[simp] theorem State.mapChans_portB (f : Fin 24 → Chan → Chan) : (s.mapChans f).portB = s.portB := by rw [State.mapChans]
@[simp] theorem State.mapChans_cut (f : Fin 24 → Chan → Chan) : (s.mapChans f).cut = s.cut := by rw [State.mapChans]
@[simp] theorem State.mapChans_tables (f : Fin 24 → Chan → Chan) : (s.mapChans f).tables = s.tables := by rw [State.mapChans]
@[simp] theorem State.mapChans_queues (f : Fin 24 → Chan → Chan) : (s.mapChans f).queues = s.queues := by rw [State.mapChans]
@[simp] theorem State.mapChans_hands (f : Fin 24 → Chan → Chan) : (s.mapChans f).hands = s.hands := by rw [State.mapChans]
@[simp] theorem State.mapChans_streams (f : Fin 24 → Chan → Chan) : (s.mapChans f).streams = s.streams := by rw [State.mapChans]
@[simp] theorem State.mapChans_mem (f : Fin 24 → Chan → Chan) : (s.mapChans f).mem = s.mem := by rw [State.mapChans]
@[simp] theorem State.mapChans_engine (f : Fin 24 → Chan → Chan) : (s.mapChans f).engine = s.engine := by rw [State.mapChans]
@[simp] theorem State.mapChans_vault (f : Fin 24 → Chan → Chan) : (s.mapChans f).vault = s.vault := by rw [State.mapChans]
@[simp] theorem State.mapChans_seat (f : Fin 24 → Chan → Chan) : (s.mapChans f).seat = s.seat := by rw [State.mapChans]
@[simp] theorem State.mapChans_events (f : Fin 24 → Chan → Chan) : (s.mapChans f).events = s.events := by rw [State.mapChans]
@[simp] theorem State.mapChans_dbg (f : Fin 24 → Chan → Chan) : (s.mapChans f).dbg = s.dbg := by rw [State.mapChans]
@[simp] theorem State.mapChans_announce (f : Fin 24 → Chan → Chan) : (s.mapChans f).announce = s.announce := by rw [State.mapChans]
@[simp] theorem State.mapChans_counters (f : Fin 24 → Chan → Chan) : (s.mapChans f).counters = s.counters := by rw [State.mapChans]
@[simp] theorem State.mapChans_pending (f : Fin 24 → Chan → Chan) : (s.mapChans f).pending = s.pending := by rw [State.mapChans]

/-! ## State.onPort and State.onPipe -/

@[simp] theorem State.onPort_dieId (p : Port) (f : PortState → PortState) : (s.onPort p f).dieId = s.dieId := by cases p <;> rfl
@[simp] theorem State.onPort_free (p : Port) (f : PortState → PortState) : (s.onPort p f).free = s.free := by cases p <;> rfl
@[simp] theorem State.onPort_supply (p : Port) (f : PortState → PortState) : (s.onPort p f).supply = s.supply := by cases p <;> rfl
@[simp] theorem State.onPort_tiers (p : Port) (f : PortState → PortState) : (s.onPort p f).tiers = s.tiers := by cases p <;> rfl
@[simp] theorem State.onPort_straps (p : Port) (f : PortState → PortState) : (s.onPort p f).straps = s.straps := by cases p <;> rfl
@[simp] theorem State.onPort_clock (p : Port) (f : PortState → PortState) : (s.onPort p f).clock = s.clock := by cases p <;> rfl
@[simp] theorem State.onPort_cut (p : Port) (f : PortState → PortState) : (s.onPort p f).cut = s.cut := by cases p <;> rfl
@[simp] theorem State.onPort_tables (p : Port) (f : PortState → PortState) : (s.onPort p f).tables = s.tables := by cases p <;> rfl
@[simp] theorem State.onPort_queues (p : Port) (f : PortState → PortState) : (s.onPort p f).queues = s.queues := by cases p <;> rfl
@[simp] theorem State.onPort_hands (p : Port) (f : PortState → PortState) : (s.onPort p f).hands = s.hands := by cases p <;> rfl
@[simp] theorem State.onPort_streams (p : Port) (f : PortState → PortState) : (s.onPort p f).streams = s.streams := by cases p <;> rfl
@[simp] theorem State.onPort_chans (p : Port) (f : PortState → PortState) : (s.onPort p f).chans = s.chans := by cases p <;> rfl
@[simp] theorem State.onPort_mem (p : Port) (f : PortState → PortState) : (s.onPort p f).mem = s.mem := by cases p <;> rfl
@[simp] theorem State.onPort_engine (p : Port) (f : PortState → PortState) : (s.onPort p f).engine = s.engine := by cases p <;> rfl
@[simp] theorem State.onPort_vault (p : Port) (f : PortState → PortState) : (s.onPort p f).vault = s.vault := by cases p <;> rfl
@[simp] theorem State.onPort_seat (p : Port) (f : PortState → PortState) : (s.onPort p f).seat = s.seat := by cases p <;> rfl
@[simp] theorem State.onPort_events (p : Port) (f : PortState → PortState) : (s.onPort p f).events = s.events := by cases p <;> rfl
@[simp] theorem State.onPort_dbg (p : Port) (f : PortState → PortState) : (s.onPort p f).dbg = s.dbg := by cases p <;> rfl
@[simp] theorem State.onPort_announce (p : Port) (f : PortState → PortState) : (s.onPort p f).announce = s.announce := by cases p <;> rfl
@[simp] theorem State.onPort_counters (p : Port) (f : PortState → PortState) : (s.onPort p f).counters = s.counters := by cases p <;> rfl
@[simp] theorem State.onPort_pending (p : Port) (f : PortState → PortState) : (s.onPort p f).pending = s.pending := by cases p <;> rfl
@[simp] theorem State.onPipe_dieId (p : Port) (f : Pipe → Pipe) : (s.onPipe p f).dieId = s.dieId := by cases p <;> rfl
@[simp] theorem State.onPipe_free (p : Port) (f : Pipe → Pipe) : (s.onPipe p f).free = s.free := by cases p <;> rfl
@[simp] theorem State.onPipe_supply (p : Port) (f : Pipe → Pipe) : (s.onPipe p f).supply = s.supply := by cases p <;> rfl
@[simp] theorem State.onPipe_tiers (p : Port) (f : Pipe → Pipe) : (s.onPipe p f).tiers = s.tiers := by cases p <;> rfl
@[simp] theorem State.onPipe_straps (p : Port) (f : Pipe → Pipe) : (s.onPipe p f).straps = s.straps := by cases p <;> rfl
@[simp] theorem State.onPipe_clock (p : Port) (f : Pipe → Pipe) : (s.onPipe p f).clock = s.clock := by cases p <;> rfl
@[simp] theorem State.onPipe_portA (p : Port) (f : Pipe → Pipe) : (s.onPipe p f).portA = s.portA := by cases p <;> rfl
@[simp] theorem State.onPipe_portB (p : Port) (f : Pipe → Pipe) : (s.onPipe p f).portB = s.portB := by cases p <;> rfl
@[simp] theorem State.onPipe_cut (p : Port) (f : Pipe → Pipe) : (s.onPipe p f).cut = s.cut := by cases p <;> rfl
@[simp] theorem State.onPipe_queues (p : Port) (f : Pipe → Pipe) : (s.onPipe p f).queues = s.queues := by cases p <;> rfl
@[simp] theorem State.onPipe_hands (p : Port) (f : Pipe → Pipe) : (s.onPipe p f).hands = s.hands := by cases p <;> rfl
@[simp] theorem State.onPipe_streams (p : Port) (f : Pipe → Pipe) : (s.onPipe p f).streams = s.streams := by cases p <;> rfl
@[simp] theorem State.onPipe_chans (p : Port) (f : Pipe → Pipe) : (s.onPipe p f).chans = s.chans := by cases p <;> rfl
@[simp] theorem State.onPipe_mem (p : Port) (f : Pipe → Pipe) : (s.onPipe p f).mem = s.mem := by cases p <;> rfl
@[simp] theorem State.onPipe_engine (p : Port) (f : Pipe → Pipe) : (s.onPipe p f).engine = s.engine := by cases p <;> rfl
@[simp] theorem State.onPipe_vault (p : Port) (f : Pipe → Pipe) : (s.onPipe p f).vault = s.vault := by cases p <;> rfl
@[simp] theorem State.onPipe_seat (p : Port) (f : Pipe → Pipe) : (s.onPipe p f).seat = s.seat := by cases p <;> rfl
@[simp] theorem State.onPipe_events (p : Port) (f : Pipe → Pipe) : (s.onPipe p f).events = s.events := by cases p <;> rfl
@[simp] theorem State.onPipe_dbg (p : Port) (f : Pipe → Pipe) : (s.onPipe p f).dbg = s.dbg := by cases p <;> rfl
@[simp] theorem State.onPipe_announce (p : Port) (f : Pipe → Pipe) : (s.onPipe p f).announce = s.announce := by cases p <;> rfl
@[simp] theorem State.onPipe_counters (p : Port) (f : Pipe → Pipe) : (s.onPipe p f).counters = s.counters := by cases p <;> rfl
@[simp] theorem State.onPipe_pending (p : Port) (f : Pipe → Pipe) : (s.onPipe p f).pending = s.pending := by cases p <;> rfl

/-! ## Reading back one port, channel and hand -/

@[simp] theorem State.onPort_port (p : Port) (f : PortState → PortState) : (s.onPort p f).port p = f (s.port p) := by
  cases p <;> rfl

@[simp] theorem State.onPort_port_other (p : Port) (f : PortState → PortState) : (s.onPort p f).port p.other = s.port p.other := by
  cases p <;> rfl

@[simp] theorem State.onChan_chan (n : Fin 24) (f : Chan → Chan) : (s.onChan n f).chan n = f (s.chan n) := by
  simp [State.chan, State.onChan]

theorem State.onChan_chan_other (n m : Fin 24) (f : Chan → Chan) (h : m ≠ n) : (s.onChan n f).chan m = s.chan m := by
  simp only [State.chan, State.onChan, Fin.getElem_fin]
  exact Vector.getElem_set_ne n.isLt m.isLt (fun e => h (Fin.ext e.symm))

@[simp] theorem State.onHand_hand (h : Fin 16) (f : Hand → Hand) : (s.onHand h f).hand h = f (s.hand h) := by
  simp [State.hand, State.onHand]

theorem State.onHand_hand_other (h k : Fin 16) (f : Hand → Hand) (n : k ≠ h) : (s.onHand h f).hand k = s.hand k := by
  simp only [State.hand, State.onHand, Fin.getElem_fin]
  exact Vector.getElem_set_ne h.isLt k.isLt (fun e => n (Fin.ext e.symm))

@[simp] theorem State.mapChans_chan (n : Fin 24) (f : Fin 24 → Chan → Chan) : (s.mapChans f).chan n = f n (s.chan n) := by
  simp [State.chan, State.mapChans]

/-! ## Other reads through an update -/

@[simp] theorem State.onSupply_chan (f : Supply → Supply) (n : Fin 24) : (s.onSupply f).chan n = s.chan n := rfl
@[simp] theorem State.onSupply_hand (f : Supply → Supply) (h : Fin 16) : (s.onSupply f).hand h = s.hand h := rfl
@[simp] theorem State.onSupply_port (f : Supply → Supply) (p : Port) : (s.onSupply f).port p = s.port p := by cases p <;> rfl
@[simp] theorem State.onTiers_chan (f : TierState → TierState) (n : Fin 24) : (s.onTiers f).chan n = s.chan n := rfl
@[simp] theorem State.onTiers_hand (f : TierState → TierState) (h : Fin 16) : (s.onTiers f).hand h = s.hand h := rfl
@[simp] theorem State.onTiers_port (f : TierState → TierState) (p : Port) : (s.onTiers f).port p = s.port p := by cases p <;> rfl
@[simp] theorem State.onStraps_chan (f : Straps → Straps) (n : Fin 24) : (s.onStraps f).chan n = s.chan n := rfl
@[simp] theorem State.onStraps_hand (f : Straps → Straps) (h : Fin 16) : (s.onStraps f).hand h = s.hand h := rfl
@[simp] theorem State.onStraps_port (f : Straps → Straps) (p : Port) : (s.onStraps f).port p = s.port p := by cases p <;> rfl
@[simp] theorem State.onClock_chan (f : Clock → Clock) (n : Fin 24) : (s.onClock f).chan n = s.chan n := rfl
@[simp] theorem State.onClock_hand (f : Clock → Clock) (h : Fin 16) : (s.onClock f).hand h = s.hand h := rfl
@[simp] theorem State.onClock_port (f : Clock → Clock) (p : Port) : (s.onClock f).port p = s.port p := by cases p <;> rfl
@[simp] theorem State.onCut_chan (f : Cut → Cut) (n : Fin 24) : (s.onCut f).chan n = s.chan n := rfl
@[simp] theorem State.onCut_hand (f : Cut → Cut) (h : Fin 16) : (s.onCut f).hand h = s.hand h := rfl
@[simp] theorem State.onCut_port (f : Cut → Cut) (p : Port) : (s.onCut f).port p = s.port p := by cases p <;> rfl
@[simp] theorem State.onTables_chan (f : Tables → Tables) (n : Fin 24) : (s.onTables f).chan n = s.chan n := rfl
@[simp] theorem State.onTables_hand (f : Tables → Tables) (h : Fin 16) : (s.onTables f).hand h = s.hand h := rfl
@[simp] theorem State.onTables_port (f : Tables → Tables) (p : Port) : (s.onTables f).port p = s.port p := by cases p <;> rfl
@[simp] theorem State.onQueues_chan (f : Queues → Queues) (n : Fin 24) : (s.onQueues f).chan n = s.chan n := rfl
@[simp] theorem State.onQueues_hand (f : Queues → Queues) (h : Fin 16) : (s.onQueues f).hand h = s.hand h := rfl
@[simp] theorem State.onQueues_port (f : Queues → Queues) (p : Port) : (s.onQueues f).port p = s.port p := by cases p <;> rfl
@[simp] theorem State.onMem_chan (f : Memory → Memory) (n : Fin 24) : (s.onMem f).chan n = s.chan n := rfl
@[simp] theorem State.onMem_hand (f : Memory → Memory) (h : Fin 16) : (s.onMem f).hand h = s.hand h := rfl
@[simp] theorem State.onMem_port (f : Memory → Memory) (p : Port) : (s.onMem f).port p = s.port p := by cases p <;> rfl
@[simp] theorem State.onEngine_chan (f : Engine → Engine) (n : Fin 24) : (s.onEngine f).chan n = s.chan n := rfl
@[simp] theorem State.onEngine_hand (f : Engine → Engine) (h : Fin 16) : (s.onEngine f).hand h = s.hand h := rfl
@[simp] theorem State.onEngine_port (f : Engine → Engine) (p : Port) : (s.onEngine f).port p = s.port p := by cases p <;> rfl
@[simp] theorem State.onVault_chan (f : Vault → Vault) (n : Fin 24) : (s.onVault f).chan n = s.chan n := rfl
@[simp] theorem State.onVault_hand (f : Vault → Vault) (h : Fin 16) : (s.onVault f).hand h = s.hand h := rfl
@[simp] theorem State.onVault_port (f : Vault → Vault) (p : Port) : (s.onVault f).port p = s.port p := by cases p <;> rfl
@[simp] theorem State.onSeat_chan (f : SeatState → SeatState) (n : Fin 24) : (s.onSeat f).chan n = s.chan n := rfl
@[simp] theorem State.onSeat_hand (f : SeatState → SeatState) (h : Fin 16) : (s.onSeat f).hand h = s.hand h := rfl
@[simp] theorem State.onSeat_port (f : SeatState → SeatState) (p : Port) : (s.onSeat f).port p = s.port p := by cases p <;> rfl
@[simp] theorem State.onEvents_chan (f : Events → Events) (n : Fin 24) : (s.onEvents f).chan n = s.chan n := rfl
@[simp] theorem State.onEvents_hand (f : Events → Events) (h : Fin 16) : (s.onEvents f).hand h = s.hand h := rfl
@[simp] theorem State.onEvents_port (f : Events → Events) (p : Port) : (s.onEvents f).port p = s.port p := by cases p <;> rfl
@[simp] theorem State.onDebug_chan (f : Debug → Debug) (n : Fin 24) : (s.onDebug f).chan n = s.chan n := rfl
@[simp] theorem State.onDebug_hand (f : Debug → Debug) (h : Fin 16) : (s.onDebug f).hand h = s.hand h := rfl
@[simp] theorem State.onDebug_port (f : Debug → Debug) (p : Port) : (s.onDebug f).port p = s.port p := by cases p <;> rfl
@[simp] theorem State.onAnnounce_chan (f : Announce → Announce) (n : Fin 24) : (s.onAnnounce f).chan n = s.chan n := rfl
@[simp] theorem State.onAnnounce_hand (f : Announce → Announce) (h : Fin 16) : (s.onAnnounce f).hand h = s.hand h := rfl
@[simp] theorem State.onAnnounce_port (f : Announce → Announce) (p : Port) : (s.onAnnounce f).port p = s.port p := by cases p <;> rfl

end Sys2Proof.Machine
end

