-- ==== Sys2Proof/WellFormed.lean ====
section
/-! DEFINITION. Well-formed commands: the operands a row can carry. Exec is total on every term; an ill-formed
one stands for no command the outside can send. -/

namespace Sys2Proof

/-- A command frame's payload fits a frame (Table 8.1). -/
def CmdFrame.wf (f : CmdFrame) : Bool := f.payload.length ≤ 4096

/-- A link-local message body has 1 to 255 bytes (R234). -/
def bodyWf (body : List Byte) : Bool := 1 ≤ body.length && body.length ≤ 255

/-- An SNR list has one byte for each of the 471 data carriers (R181, R186). -/
def snrWf (snr : List Nat) : Bool := snr.length == 471 && snr.all (· ≤ 255)

/-- A word list of the banks names word addresses inside 16 MiB (R339). -/
def eccWf (e : Ecc) : Bool := (e.corrected ++ e.poisoned).all fun a => a < 0x1000000 && a % 8 == 0

/-- The operands of a command are in the ranges its row gives. -/
def Instr.wf : Instr → Bool
  | .strapRound r => r.pins.length ≤ 72
  | .ledgerUpdate vh vbus => vh < 0x10000 && vbus < 0x10000
  | .trunkVUpdate n => 0 < n
  | .keeperCheck diffs => diffs.all fun d => d.2.1 < 0x10000 && d.2.2 < 0x10000
  | .beaconReceive _ body _ => bodyWf body
  | .trainReq _ body => bodyWf body
  | .trainAck _ body => bodyWf body
  | .delay _ body _ => bodyWf body
  | .table _ body => bodyWf body
  | .tableAck _ body => bodyWf body
  | .abort _ body => bodyWf body
  | .bid _ body => bodyWf body
  | .clash _ body => bodyWf body
  | .tally _ body => bodyWf body
  | .deal _ body => bodyWf body
  | .break_ _ body => bodyWf body
  | .call _ body => bodyWf body
  | .soundingTableSend _ snr => snrWf snr
  | .linkAdapt _ snr _ _ => snrWf snr
  | .headerDecision _ hdr ecc => hdr.length == 58 && eccWf ecc
  | .payloadCheck _ payload _ => payload.length ≤ 4096
  | .sweepRegionStart obs => eccWf obs.ecc
  | .seatFrameReceive bytes => bytes.length == 576
  | .dmemRead _ ecc => eccWf ecc
  | .fixedResponder f | .statRead f | .statCount f | .evRead f | .evAck f | .handClaim f | .handStations f
  | .handReset f | .qRead f | .qSet f | .subOpen f | .subClose f | .outSet f | .outAlarmdir f | .tblSearch f
  | .tblNext f | .tblAdd f | .tblDel f | .tblFlushPort f | .tblCommit f | .chRestrap f | .chRekindle f
  | .nodeReset f | .nodeRestrap f | .nodeAdopt f | .portReset f | .pipeReset f | .phySound f | .phyMargin f
  | .phyMask f | .phySnr f | .trimStart f | .trimPoint f | .trimCommit f | .curveLoad f | .memRepair f
  | .memSweep f | .twinMirror f | .twinRelease f | .wardPropose f | .wardCountersign f | .wardSet f | .wardRead f
  | .keySet f | .dbgOpen f | .opStatus f | .opSuspend f | .opResume f | .opCancel f => f.wf
  | _ => true

end Sys2Proof
end

