-- ==== Sys2Proof/Tests/Slice0.lean ====
section
/-! SUPPORT. The model's own tests: a few values of the spec's worked cases and check values, each with its source; an ill-formed command for
each check of WellFormed; and for every statement with hypotheses one witness theorem, `test_witness_<Name>`, that shows states and operands which
meet them (the hypotheses of its nested clauses too). -/

namespace Sys2Proof.Tests

set_option maxRecDepth 8192
set_option Elab.async false

open Sys2Proof Sys2Proof.Machine Sys2Proof.Safety

/-! ## A node for the tests: place and node of Line Kestrel's first node (02, Worked case), two hands, HEARTH 4; channel 0 a loop input, 1 a
voltage input without look-ahead, 2 a Pt1000, 12 and 13 current outputs, 14 a voltage output. -/

/-- Resolved codes from their numbers. -/
def codesOf (l : List Nat) : List Code := l.map fun n => .code (Fin.ofNat 16 n)

/-- The straps of the node, TWIN given. -/
def nodeCodes (twin : Nat) : List Code :=
  codesOf ([4, 1, 2, 0, 0, 4, 4, 4, 8, 0, 7, 0, 3, 0, 0, 0, 9, 10, 1, 3, 4, 0, twin, 1]
    ++ [0, 3, 7, 15, 15, 15, 15, 15, 15, 15, 15, 15] ++ [11, 12, 13, 15, 15, 15, 15, 15, 15, 15, 15, 15]
    ++ [0, 8, 10, 0, 0, 0, 0, 0, 0, 0, 0, 0] ++ [0, 3, 0, 0, 0, 0, 0, 0, 0, 0, 0, 0])

/-- An input channel of a profile, on and active. -/
def inChan (p : BitVec 8) : Chan :=
  { Chan.reset with profile := some p, inControl := false, bankMon := false, disc := [false, false, false, false], sources := true,
                    shunt := true, switches := true, ranging := .fine }

/-- An output channel of a profile that the shell drives to 10.0000 mA (or V). -/
def outChan (p : BitVec 8) : Chan :=
  { Chan.reset with
      profile := some p, inControl := false, bankMon := false, disc := [false, false, false, false], sources := true, switches := true,
      keeper := some { kind := outKindOf p, safe := safeOf p, dirHigh := dirDefault p, low := 36000, high := 216000, lowCode := 36000,
                       highCode := 216000, zeroCode := 0, subst := false, part := .whole },
      commanded := true, applied := 100000, target := 100000, dac := 100000, stageOn := true, checks := true }

/-- The keeper of the voltage output. -/
def voltKeeper : KeeperCfg where
  kind := .voltage
  safe := .zero
  dirHigh := false
  low := 0
  high := 0
  lowCode := 0
  highCode := 0
  zeroCode := 0
  subst := false
  part := .whole

/-- The voltage output of the node. -/
def voltChan : Chan := { outChan 0xD0 with keeper := some voltKeeper }

/-- A vault record with one good copy. -/
def vrec (d : List Byte) : VRec where
  a := { gen := 1, data := d, crc := crc32 (d ++ beBytes 2 1) }
  b := { gen := 0, data := [], crc := 1 }
  writes := 1

/-- A ward entry: every group, outputs 12 to 14 owned, every channel readable, the quota and every permission. -/
def wardAll : List Byte := beBytes 4 0x000FFFFF ++ beBytes 3 0x7000 ++ [0] ++ beBytes 3 0xFFFFFF ++ [0] ++ beBytes 2 128 ++ [0xFF, 0]

/-- The vault of the node: claimed, keys of hands 0 and 1 and of wardens 0 and 1. -/
def nodeVault : Vault :=
  { Vault.reset with recs :=
      [(.protection, vrec (protectionBytes true 0x1122334455667788 none)), (.key 0, vrec (beBytes 16 0x10)), (.key 1, vrec (beBytes 16 0x11)),
       (.key 16, vrec (beBytes 16 0x20)), (.key 17, vrec (beBytes 16 0x21)), (.ward 0, vrec wardAll), (.ward 1, vrec wardAll)] }

/-- A port in service. -/
def upPort : PortState :=
  { PortState.reset with link := .up, lock := true, tx0 := defaultTable, tx1 := defaultTable, rx0 := defaultTable, rx1 := defaultTable,
                         linkD := some 100, nbr := 0x0215 }

/-- The session of every key slot. -/
def slot0 : KeySess := { KeySess.reset with session := 0xB7000001, lastSeq := 100 }

/-- The node at Full, at a trick boundary whose number is a multiple of 16384. -/
def up : State :=
  let s : State := { State.reset with
    dieId := 0x59024C0011223344
    supply := { State.reset.supply with
      vbus := true, good := [.vcore, .vsram, .vio, .van, .vfp, .vfn], pll := true, kindle := .up, vaultDone := true, clearDone := true,
      retention := true, coreReady := true, flueEn := true, flueLim := true, d := 25, trunkV := 4800, lastTrunkV := 4800, l := 2400000,
      vbusV := 1200, vh := 2800, ledger := 1000000000, bypHold := true }
    tiers := { State.reset.tiers with tier := .full }
    straps := { State.reset.straps with resolved := true, codes := nodeCodes 0, digest := 0x1122334455667788, blankmap := .code 1 }
    clock := { State.reset.clock with counter := 1200000000000, line := 9663676416, age := 400000000000, state := .disciplined, facing := some .ta,
                                      hops := some 1, epoch := 3 }
    portA := upPort, portB := upPort
    cut := { State.reset.cut with state := .following, blkLo := 0x0200, blkHi := 0x02FF, dealer := some (5, 0x99, 0x0210) }
    queues := { State.reset.queues with ready := true }
    engine := { State.reset.engine with slots := Vector.replicate 20 slot0 }
    vault := nodeVault }
  let s := ((s.onChan 0 fun _ => inChan 0x00).onChan 1 fun _ => inChan 0x38).onChan 2 fun _ => inChan 0x7A
  let s := ((s.onChan 12 fun _ => outChan 0xB0).onChan 13 fun _ => outChan 0xC3).onChan 14 fun _ => voltChan
  s.onHand 0 fun h => { h with master := some 0x0A0000000001 }

/-- The rails, before kindling. -/
def rails : State :=
  { State.reset with supply := { State.reset.supply with vbus := true, kindle := .rails, good := [.vcore, .vsram, .vio, .van, .vfp, .vfn] } }

/-- The node in Reading, before anything was read. -/
def reading : State :=
  { rails with
      dieId := 0x59024C0011223344
      supply := { rails.supply with kindle := .reading, pll := true }
      vault := nodeVault }

/-- Conversions in milliohm that give the codes. -/
def ohms (l : List Nat) : List Nat := l.map fun n => if n == 0 then 0 else if n == 15 then 70000000 else nominalOhms.getD (n - 1) 0 * 1000

/-- A clean round of the node's straps. -/
def cleanRound : StrapRound where
  ref3 := 3320000
  ref12 := 22600000
  almUp := true
  almDown := false
  dbgEn := false
  pins := ohms ((nodeCodes 0).map fun c => (c.val?).getD 0)

/-- The node in Joining, the analogue core started 5 ms ago, 16 trick boundaries counted. -/
def joining : State :=
  { up with
      supply := { up.supply with kindle := .joining, bypHold := false, coreReady := false, coreAt := 400000000000 - 15000000 }
      tiers := { up.tiers with tier := .banked, upCount := some 16 } }

/-- The node one tick on from its trick boundary. -/
def offTrick : State := { up with clock := { up.clock with line := up.clock.line + 1 } }

/-- A command under a key slot, with its `MAC`: the next sequence number, from station 0x0A0000000001. -/
def cmd (s : State) (h : Fin 16) (key : Nat) (op : Nat) (body : List Byte) : CmdFrame :=
  let env : List Byte := [1, BitVec.ofNat 8 key] ++ beBytes 2 op ++ beBytes 2 body.length ++ [0, 0] ++ body
  let f : CmdFrame := { port := .ta, byPlace := false, hand := h, seq := 101, srcTag := 0x0A0000000001, payload := env ++ zeros 8 }
  { f with payload := env ++ beBytes 8 (slotMac s f 0 env).toNat }

/-- A CH.RESTRAP of channel 12 by hand 0. -/
def restrap12 : CmdFrame := cmd up 0 0 0x0801 [12]

/-- The two pins of channel 12, read eight times as codes 11 and 2. -/
def reread12 : Reread where
  f := restrap12
  pins := restrapPins restrap12
  rounds := List.replicate 8 { cleanRound with pins := ohms [11, 2] }
  at_ := 400000000000 - 55506000

/-- The node with that re-read just at its end. -/
def rereadEnd : State :=
  { up.onChan 12 (fun c => { c with restrap := true, bankShell := true, inControl := true }) with
      straps := { up.straps with reread := some reread12 } }

/-- The node with its re-read over, at the boundary where it takes effect. -/
def restrapDue : State :=
  { up.onChan 12 (fun c => { c with restrap := true, bankShell := true, inControl := true }) with
      straps := { up.straps with fresh := [(36, .code 11), (60, .code 2)], dueCh := [(12, some 0xB2)] } }

/-- A beacon: line time, epoch, `TIME_Q`, hops. -/
def beaconBytes (line epoch q hops : Nat) : List Byte := beBytes 8 line ++ [BitVec.ofNat 8 epoch, BitVec.ofNat 8 (16 * q), BitVec.ofNat 8 hops]

/-- An event of channel 12, released at a tick. -/
def ev12 (t : Nat) : Event where
  tick := BitVec.ofNat 64 t
  src := 0x02140C
  epoch := 3
  code := 0x0D03
  hands := 1
  timeQ := 4
  sev := 2
  clear := false
  rpt := 0
  detail := [0, 0, 1, 0]

/-- A long operation of hand 0. -/
def op (h op : Nat) (st : OpState) (obj : OpObject) : Op where
  handle := BitVec.ofNat 16 h
  hand := 0
  opcode := BitVec.ofNat 16 op
  state := st
  reason := 0
  progress := 0
  object := obj
  f := restrap12
  suspendPending := false
  cancelPending := false
  since := 0
  timing := false
  r1 := 0
  m1 := 0
  r2 := 0
  m2 := 0
  before := 0
  trim := []
  gated := true
  committing := false
  holds := false
  commit := none

/-- The node with these operations. -/
def withOps (l : List Op) : State := { up with engine := { up.engine with ops := l } }

/-- A port in sounding as initiator or responder, at this slot. -/
def soundAt (i : Bool) (k : Nat) (steps : List Nat) : State :=
  up.onPort .ta fun q => { q with link := .sounding i, slot0 := BitVec.ofNat 64 (9663676416 - k * 9216), steps := steps, margin := 0,
                                  t1 := 1000, a1 := 2000, a2 := 3000 }

/-- A carrier report of 20 dB everywhere. -/
def snr20 : List Nat := List.replicate 471 80

/-- A change of the table that waits. -/
def pendTab (acked : Bool) (age resends : Nat) : PendingTable where
  seq := 7
  slot := true
  tbl := tableFor snr20 600
  msg := [4, 8, 0, 7]
  at_ := BitVec.ofNat 64 (9663676416 - age)
  ns := 48
  acked := acked
  resends := resends

/-- A nominal instant of a profile that is ready, some periods back. -/
def instOf (p : BitVec 8) (back : Nat) : Tick :=
  BitVec.ofNat 64 (((1200000000000 - readySpan p - 3000) / periodOf p - back) * periodOf p)

/-- A conversion of these values without overload. -/
def convOf (t : Tick) (coarse fine : Int) : Conv where
  instant := t
  coarse := coarse
  fine := fine
  fineOvl := false
  coarseOvl := false

/-- What a sample observes with nothing amiss. -/
def obsOf (k : Conv) : SampleObs where
  conv := k
  cj := 25000
  excLimit := false
  tcOpen := false
  lead := 0
  gainDev := 0
  stepInWindow := false
  settled := true

/-- A stream of channel 0 for hand 0 in queue 256. -/
def stream0 : Stream where
  id := 0x4000
  hand := 0
  queue := 256
  chmap := 1
  div := 1
  phase := 0
  period := 6000
  nsamp := 2
  egTa := true
  egTb := false
  first := 1199000000000
  seq := 7
  rows := []
  closing := none

/-- Instants of that stream from a tick on, a period apart. -/
def rows0 (t : Nat) (k : Nat) : List (Tick × List (Nat × Sample)) :=
  (List.range k).map fun i => (BitVec.ofNat 64 (t + 6000 * i), [(0, { value := 5, tag := 0, pos := i })])

/-- The node with that stream. -/
def withStream (x : Stream) : State := { up with streams := [{ stream0 with id := 0x4001 }, x] }

/-- A header for tests: a data frame. -/
def hdr0 : Header where
  version := 1
  tclass := 3
  btSlot := false
  akind := 0
  defer := false
  hand := 0
  hopCount := 5
  payLen := 40
  carryB := 464
  dest := 0x0A0000000009
  srcTag := 0x0A0000000002
  srcPlace := 0x07084440
  seq := 9
  originTick := 1199999000000
  epoch := 3
  timeQ := 4
  rsv36 := 0
  srcNode := 0x0216
  rsv := zeros 17

/-- A queued frame of some opcode and length. -/
def qf (opc len : Nat) : QFrame where
  hdr := hdr0
  payload := [1, 0] ++ beBytes 2 opc ++ zeros (len - 4)
  cell := 0
  ta := .waiting
  tb := .waiting
  debited := false
  sid := 0
  direct := false

/-- A node with a command waiting in its hand's input queue. -/
def given (s : State) (f : CmdFrame) : State := s.onHand f.hand fun h => { h with input := [f] }

/-- A seat frame of a partner with die identity 77 that names this chip, with bit 5 of its flags set. -/
def testFrame : List Byte :=
  let b : List Byte := [20, 1] ++ beBytes 8 77 ++ beBytes 8 5 ++ [0x82, 0xA0] ++ beBytes 8 1200000000000 ++ [3, 0x40] ++ zeros 14
    ++ zeros 192 ++ zeros 332
  seatScramble (beBytes 4 0x3A5C96F1 ++ b ++ beBytes 4 (crc32 b).toNat)

theorem testFrame_good : frameBad (seatScramble testFrame) = false ∧ byteAt (seatScramble testFrame) 240 = 0 ∧
    (readFrame (seatScramble testFrame)).flags.toNat.testBit 5 = true := by decide +kernel

/-! ## Reset and the queue -/

theorem test_idle_reset : ∃ t, step State.reset = .next t := ⟨_, rfl⟩

theorem test_no_word_spells_a_command : decodeTableWord 16 0x1234 = none ∧ State.reset.withFetchWord 16 0x1234 = State.reset :=
  ⟨rfl, rfl⟩

/-! ## Well-formed commands: one ill-formed term for each check -/

/-- A frame whose payload is one byte too long (Table 8.1). -/
def tooLong : CmdFrame := { port := .ta, byPlace := false, hand := 0, seq := 1, srcTag := 0, payload := zeros 4097 }

theorem test_wf_refuses_frames : (Instr.outSet tooLong).wf = false ∧ (Instr.statRead tooLong).wf = false ∧ (Instr.opCancel tooLong).wf = false ∧
    (Instr.outSet { tooLong with payload := zeros 4096 }).wf = true := by decide +kernel

theorem test_wf_refuses_bodies : (Instr.beaconReceive .ta [] 0).wf = false ∧ (Instr.deal .tb (zeros 256)).wf = false ∧
    (Instr.deal .tb (zeros 255)).wf = true := by decide +kernel

theorem test_wf_refuses_snr_lists : (Instr.soundingTableSend .ta (List.replicate 470 0)).wf = false ∧
    (Instr.soundingTableSend .ta (List.replicate 471 256)).wf = false ∧ (Instr.soundingTableSend .ta (List.replicate 471 255)).wf = true := by
  decide +kernel

theorem test_wf_refuses_word_lists : (Instr.dmemRead 0 { corrected := [4], poisoned := [] }).wf = false ∧
    (Instr.dmemRead 0 { corrected := [], poisoned := [0x1000000] }).wf = false ∧
    (Instr.dmemRead 0 { corrected := [8], poisoned := [0xFFFFF8] }).wf = true := by decide +kernel

theorem test_wf_refuses_supplies : (Instr.trunkVUpdate 0).wf = false ∧ (Instr.ledgerUpdate 65536 0).wf = false ∧
    (Instr.ledgerUpdate 0 65536).wf = false := by decide

theorem test_wf_refuses_seat_frames : (Instr.seatFrameReceive (zeros 575)).wf = false ∧ (Instr.seatFrameReceive (zeros 576)).wf = true := by
  decide +kernel

/-! ## Checksums, AES-CMAC and scramblers. Expected values: R228, R229, R263 (check values), R155 and R159 (sequences); the block cipher against
the example of FIPS 197, Appendix C.1, and the code against RFC 4493, example 2. -/

/-- "123456789". -/
def digits : List Byte := [0x31, 0x32, 0x33, 0x34, 0x35, 0x36, 0x37, 0x38, 0x39]

theorem test_crc_check_values : crc16 digits = 0x29B1 ∧ crc32 digits = 0xCBF43926 ∧ crc32 [] = 0 ∧ crc32c digits = 0xE3069283 := by decide +kernel

theorem test_aes_block : aesEnc 0x000102030405060708090A0B0C0D0E0F 0x00112233445566778899AABBCCDDEEFF = 0x69C4E0D86A7B0430D8CDB78070B4C55A := by
  decide +kernel

theorem test_cmac_block : cmac 0x2B7E151628AED2A6ABF7158809CF4F3C (beBytes 16 0x6BC1BEE22E409F96E93D7E117393172A) =
    0x070A16B46B4D4144F79BDD9DD04A287C := by decide +kernel

theorem test_scrambler_check : (scramble 29).drop 22 = [true, false, false, false, false, false, true] := by decide +kernel

theorem test_preamble_check : preambleSeq 16 =
    [true, true, true, true, true, true, true, true, true, false, false, false, false, true, true, true] := by decide +kernel

/-! ## Straps: Table 2.11 and R38 -/

theorem test_strap_place : placeOf (nodeCodes 0) = some 0x07084440 ∧ nodeNumberOf (nodeCodes 0) = 0x0214 := by decide +kernel

/-- Code 7 is 9.53 k; 12.4 k lies between the windows of codes 8 and 9 (Worked case of 02). -/
theorem test_strap_windows : convCode 8200000 ≠ some 7 ∧ convCode 12400000 = none ∧ convCode 11500000 = some 8 ∧ convCode 3320000 = some 3 := by
  decide +kernel

/-- The profiles of the worked case: a 4,800 S/s bridge without look-ahead, a 12,000 S/s voltage, a 12,000 S/s output. -/
theorem test_profiles : periodOf 91 = 625000 ∧ lookAhead 91 = false ∧ periodOf 50 = 250000 ∧ lookAhead 50 = true ∧ isOutput 186 = true ∧
    dirDefault 186 = false ∧ safeOf 186 = .holdLast ∧ periodOf 186 = 250000 := by decide +kernel

/-! ## Supplies (Worked case of 03) -/

theorem test_trunk_voltage : trunkVolt 1000000 = 4800 := by decide

theorem test_damper_steps : damperD 2400000 4800 = 25 := by decide

theorem test_ledger_full : ledgerOf 4 2800 = 354960000 ∧ ledgerOf 4 1930 = 177480000 := by decide

/-! ## Links (Worked case of 06): entries at a margin of 6 dB, symbols of a frame -/

theorem test_bit_entries : [204, 160, 134, 88, 108].map (fun v => entryFor v 600) = [10, 7, 5, 1, 3] := by decide +kernel

theorem test_worst_margin : worstMargin [204, 160, 134, 88] [10, 7, 5, 1] = some 609 ∧ lqOf (some 609) = 24 := by decide +kernel

theorem test_frame_length : frameSymbols 1024 2318 = 6 ∧ frameSymbols 1028 1900 = 7 := by decide

/-! ## Frames, queues and streams (Worked cases of 08, 10 and 20) -/

/-- F1 as stand 4 sends it. -/
def f1 : Header :=
  { hdr0 with tclass := 5, btSlot := true, akind := 2, hopCount := 0x3F, payLen := 1028, carryB := 1900, dest := 0x0140,
              srcPlace := 0x07083440, srcNode := 0x0213 }

theorem test_header_bytes : slice (f1.encode) 0 13 = [0x1B, 0x40, 0x3F, 0x04, 0x04, 0x07, 0x6C, 0, 0, 0, 0, 1, 0x40] ∧
    slice (f1.encode) 19 4 = [0x07, 0x08, 0x34, 0x40] ∧ slice (f1.encode) 37 2 = [0x02, 0x13] ∧ headerCrcGood f1.encode = true := by decide +kernel

theorem test_first_instant : firstInstant (1200000100000 + 589824) 250000 125000 = 1200000875000 := by decide +kernel

theorem test_cells : cellsOf 212 = 2 ∧ planFirst 3 3 = 49216 ∧ planCells 3 = [7680, 7680, 7680, 7680] := by decide +kernel

/-- The compliance record of 20, Worked case. -/
def compliance : Event where
  tick := 2000000000000
  src := 0x021403
  epoch := 1
  code := 0x0D01
  hands := 1
  timeQ := 2
  sev := 2
  clear := false
  rpt := 0
  detail := beBytes 3 140000 ++ beBytes 3 139300

theorem test_event_record : compliance.records = [beBytes 8 0x000001D1A94A2000
    ++ [0x02, 0x14, 0x03, 0x01, 0x0D, 0x01, 0x00, 0x01, 0x28, 0x00, 0x02, 0x22, 0xE0, 0x02, 0x20, 0x24] ++ zeros 8] := by decide +kernel

theorem test_event_severity : evSev 0x0D01 = 2 ∧ evLatching 0x0D01 = true := by decide +kernel

/-! ## Measuring and driving (Worked cases of 12 and 14) -/

/-- 35.0 degC is 113.608 ohm on a Pt100. -/
theorem test_rtd : rtdAtMost 1 35000 1136090 = true ∧ rtdAtMost 1 35000 1136080 = false ∧ rtdAtMost 1 0 1000000 = true ∧
    rtdAtMost 1 0 999999 = false := by decide +kernel

/-- The trim of 14: gain 0.9995 and offset 140 drive 199,960 for 200,000 and deliver 200,000. -/
theorem test_trim : Trim.code { Trim.none with g := 1073204953, o := 140 } 200000 = 199960 ∧
    Trim.value { Trim.none with g := 1073204953, o := 140 } 199960 = 200000 := by decide +kernel

/-! ## The command frame of 15, Worked case: OUT.SET of channel 3 to 12.5000 mA -/

theorem test_out_set_fields : bodyByte (cmd up 0 0 0x0601 ([3, 0x01, 0xE8, 0x48] ++ beBytes 8 1000000585728)) 0 = 3 ∧
    bodyField (cmd up 0 0 0x0601 ([3, 0x01, 0xE8, 0x48] ++ beBytes 8 1000000585728)) 1 3 = 125000 ∧
    envelopeOf (cmd up 0 0 0x0601 ([3, 0x01, 0xE8, 0x48] ++ beBytes 8 1000000585728)) =
      [1, 0, 6, 1, 0, 0x0C, 0, 0, 3, 0x01, 0xE8, 0x48, 0, 0, 0, 0xE8, 0xD4, 0xAE, 0, 0] := by decide +kernel

/-- The `MAC` message of a command has 24 bytes before its payload's. -/
theorem test_mac_message : (macMessage up restrap12 0 (envelopeOf restrap12)).length = 24 + 9 := by decide +kernel

/-! ## The debug port (Worked case of 21): the entry of stream 0x0140 and its address -/

theorem test_stream_entry : streamAddr 0x0140 = 0x1400 ∧ (originEntry 0 1).toNat >>> 64 = 0xC100000000000000 := by decide +kernel

/-! ## A witness for every statement with hypotheses -/

theorem test_witness_StepRunsFront :
    (∃ (c : Instr) (rest : List Instr) (s : State), s.pending = c :: rest) :=
  ⟨.powerUp, [.vanLost], { rails with pending := [.powerUp, .vanLost] }, by decide +kernel⟩

theorem test_witness_StepKeepsMemoryFormAndDieId :
    (∃ (d : BitVec 64) (s : State) (t : State), Inv d s ∧ step s = .next t) :=
  ⟨0, { State.reset with pending := [.powerUp] }, match exec .powerUp State.reset with | .next t => t | _ => State.reset, ⟨by decide +kernel, rfl⟩, rfl⟩

theorem test_witness_IdleTickAdvancesTheClocks :
    (∃ (s : State), s.pending = [] ∧ shellRuns s = true ∧ s.clock.slew = none ∧ s.dbg.haltNext = none ∧ s.dbg.resumeNext = none ∧ s.dbg.step = none) :=
  ⟨up, by decide +kernel⟩

theorem test_witness_PowerAndPins :
    (∃ (s : State), s.supply.kindle = .off ∧ s.supply.causeNext = none) :=
  ⟨State.reset, by decide +kernel⟩

theorem test_witness_ShellReleaseStartsReading :
    (∃ (s : State), s.supply.kindle = .rails ∧ s.supply.vbus = true ∧ s.supply.rstN = true ∧ s.supply.testEn = false) :=
  ⟨rails, by decide +kernel⟩

theorem test_witness_ChipResetClearsAndKeeps :
    (∃ (s : State), s.supply.kindle ≠ .off ∧ s.supply.kindle ≠ .ember) ∧
    (∃ (s : State), atTrick s = true ∧ s.engine.nodeReset = true ∧ (∀ h < 16, responseOut s h 0x0901 = false)) ∧
    (∃ (r : Rail) (s : State), r ≠ .van ∧ (s.supply.kindle = .reading ∨ s.supply.kindle = .joining)) ∧
    (∃ (s : State), shellRuns s = true) ∧
    (∃ (_w : KindleFail) (s : State), (s.supply.kindle = .rails ∨ s.supply.kindle = .reading ∨ s.supply.kindle = .joining)) :=
  ⟨⟨up, by decide +kernel⟩,
   ⟨{ up with engine := { up.engine with nodeReset := true } }, by decide +kernel⟩,
   ⟨.vcore, joining, by decide +kernel⟩,
   ⟨up, by decide +kernel⟩,
   ⟨.pllLock, { rails with supply := { rails.supply with attempts := 2 } }, by decide +kernel⟩⟩

theorem test_witness_StrapRoundsResolveByMajority :
    (∃ (_r : StrapRound) (s : State), s.supply.kindle = .reading ∧ s.straps.resolved = false ∧ s.straps.rounds.length < 8) ∧
    (∃ (s : State), s.supply.kindle = .reading ∧ s.straps.resolved = false ∧ s.straps.rounds.length = 8) :=
  ⟨⟨cleanRound, reading, by decide +kernel⟩,
   ⟨{ reading with straps := { reading.straps with rounds := List.replicate 8 cleanRound } }, by decide +kernel⟩⟩

theorem test_witness_VaultLoadJudgesRecords :
    (∃ (s : State), s.supply.kindle = .reading ∧ s.supply.vaultDone = false) :=
  ⟨reading, by decide +kernel⟩

theorem test_witness_MemoryClearZeroesEveryByte :
    (∃ (s : State), s.supply.kindle = .reading ∧ s.supply.vaultDone = true ∧ s.supply.clearDone = false) ∧
    (∃ (_bad : List (Fin 64 × Fin 512)) (s : State), s.supply.kindle = .reading ∧ s.supply.vaultDone = true ∧ s.supply.clearDone = false) :=
  ⟨⟨{ reading with supply := { reading.supply with vaultDone := true }, mem := { reading.mem with cells := [(5, 7)], poison := [8] } }, by decide +kernel⟩,
   ⟨[(3, 4)], { reading with supply := { reading.supply with vaultDone := true }, mem := { reading.mem with cells := [(5, 7)], poison := [8] } }, by decide +kernel⟩⟩

theorem test_witness_ReadingDoneConfiguresTheChip :
    (∃ (s : State), s.supply.kindle = .reading ∧ s.straps.resolved = true ∧ s.supply.vaultDone = true ∧ s.supply.clearDone = true) ∧
    (∃ (s : State), (s.supply.kindle = .joining ∨ s.supply.kindle = .up) ∧ s.supply.coreReady = false ∧ 15000000 ≤ since s s.supply.coreAt) :=
  ⟨⟨{ reading with supply := { reading.supply with vaultDone := true, clearDone := true }, straps := { reading.straps with resolved := true, codes := nodeCodes 0, digest := 0x1122334455667788 } }, by decide +kernel⟩,
   ⟨joining, by decide +kernel⟩⟩

theorem test_witness_TierMovesUpOneAtATime :
    (∃ (s : State) (k : Nat), atTrick s = true ∧ s.tiers.upCount = some k ∧ 16 ≤ k ∧ s.supply.kindle = .joining ∧ Tier.passThrough.rank ≤ (allowedTier s).rank) ∧
    (∃ (s : State) (k : Nat), atTrick s = true ∧ s.tiers.upCount = some k ∧ 16 ≤ k ∧ s.supply.kindle = .up ∧ (s.tiers.tier = .passThrough ∨ s.tiers.tier = .measure) ∧ s.tiers.tier.up.rank ≤ (allowedTier s).rank) ∧
    (∃ (_us : List UnitId) (s : State), (atTrick s = false ∨ ∀ k, s.tiers.upCount = some k → k < 16)) :=
  ⟨⟨joining, 16, by decide +kernel⟩,
   ⟨{ up with tiers := { up.tiers with tier := .measure, upCount := some 16 } }, 16, by decide +kernel⟩,
   ⟨[.flue], { up with tiers := { up.tiers with tier := .measure, upCount := some 15 } }, .inr (fun k h => by have h : some 15 = some k := h; cases h; decide)⟩⟩

theorem test_witness_TierMovesDownAtOnce :
    (∃ (lost : List UnitId) (s : State), UnitId.rail .van ∉ lost ∧ s.supply.kindle = .up) :=
  ⟨[], up, by decide +kernel⟩

theorem test_witness_KeepersRefreshEachTrick :
    (∃ (s : State), atTrick s = true ∧ (s.supply.kindle = .joining ∨ s.supply.kindle = .up)) :=
  ⟨up.onChan 13 fun c => { c with bankShell := true }, by decide +kernel⟩

theorem test_witness_KeeperTimersAndChecks :
    (∃ (ch : Fin 24) (_a : Bool) (_b : Bool) (_own : Int) (_total : Int) (s : State), isOutChan (s.chan ch) = true ∧ (shellRuns s = false ∨ 60000000 ≤ since s (s.chan ch).refreshed)) ∧
    (∃ (n : Fin 24) (_k : Nat) (_r : Nat) (s : State), atTrick s = true ∧ inService s = true ∧ trickNo s % 16384 = 0 ∧ isOutChan (s.chan n) = true ∧ (s.chan n).inControl = false) ∧
    (∃ (s : State), atTrick s = true ∧ inService s = true) ∧
    (∃ (n : Fin 24) (_q : Fin 4) (s : State), atTrick s = true ∧ inService s = true ∧ (s.chan n).crossSeen = true) :=
  ⟨⟨12, true, false, 0, 0, rails.onChan 12 fun _ => outChan 0xB0, by decide +kernel⟩,
   ⟨12, 11, 20, up, by decide +kernel⟩,
   ⟨up.onChan 12 fun c => { c with crossSeen := true }, by decide +kernel⟩,
   ⟨12, 1, up.onChan 12 fun c => { c with crossSeen := true }, by decide +kernel⟩⟩

theorem test_witness_StrapRereadResolvesTheNamedPins :
    (∃ (s : State) (q : Reread), s.straps.reread = some q ∧ q.rounds.length = 8 ∧ 55500000 + 3000 * q.pins.length ≤ since s q.at_) ∧
    (∃ (s : State) (q : Reread), s.straps.reread = some q ∧ since s q.at_ < 55500000 + 3000 * q.pins.length) :=
  ⟨⟨rereadEnd, reread12, by decide +kernel⟩,
   ⟨{ rereadEnd with clock := { rereadEnd.clock with age := 399999999999 } }, reread12, by decide +kernel⟩⟩

theorem test_witness_RereadsRunOneAtATime :
    (∃ (s : State) (f : CmdFrame) (rest : List CmdFrame), s.straps.reread = none ∧ s.straps.rereadQueue = f :: rest) ∧
    (∃ (s : State), (s.straps.reread ≠ none ∨ s.straps.rereadQueue = [])) :=
  ⟨⟨{ up with straps := { up.straps with rereadQueue := [restrap12, restrap12] } }, restrap12, [restrap12], by decide +kernel⟩,
   ⟨rereadEnd, by decide +kernel⟩⟩

theorem test_witness_RestrapTakesEffectAtTheBoundary :
    (∃ (s : State), atTrick s = true ∧ (s.straps.dueCh ≠ [] ∨ s.straps.dueFn ≠ [])) ∧
    (∃ (s : State) (n : Fin 24) (p : Option (BitVec 8)), atTrick s = true ∧ s.straps.dueFn = [] ∧ s.straps.dueCh = [(n, p)] ∧ strapProfile (overlay s.straps.codes s.straps.fresh) n.val = p ∧ (s.chan n).commanded = true ∧ (s.chan n).rekindle = none) ∧
    (∃ (s : State), (atTrick s = false ∨ (s.straps.dueCh = [] ∧ s.straps.dueFn = []))) :=
  ⟨⟨restrapDue, by decide +kernel⟩,
   ⟨restrapDue, 12, some 0xB2, by decide +kernel⟩,
   ⟨up, by decide +kernel⟩⟩

theorem test_witness_DeferredStrapEffects :
    (∃ (s : State) (c : Code), atTrick s = true ∧ s.straps.blankmapNext = some c ∧ (∀ k : Fin 4, s.supply.blank[k].1 = false)) ∧
    (∃ (s : State), atTrick s = true) ∧
    (∃ (p : Port) (s : State), atTrick s = true ∧ (s.port p).maskDue = true ∧ isSounding (s.port p) = false) :=
  ⟨⟨{ up with straps := { up.straps with blankmapNext := some (.code 2) } }, .code 2, by decide +kernel⟩,
   ⟨up.onChan 3 fun c => { c with profile := some 0xE5, capCurve := true }, by decide +kernel⟩,
   ⟨.tb, up.onPort .tb fun q => { q with maskDue := true, mask := 9 }, by decide +kernel⟩⟩

theorem test_witness_ResetsByCommandTakeEffect :
    (∃ (p : Port) (s : State), atSymbol s = true ∧ (s.port p).resetDue = true ∧ (s.port p).tx = none ∧ abortWaits (s.port p) = false) ∧
    (∃ (p : Port) (s : State) (q : Tick), (s.port p).quietUntil = some q ∧ q.toNat ≤ s.clock.line.toNat) ∧
    (∃ (p : Port) (s : State), (s.pipe p).resetting = 1 ∧ atSymbol s = true ∧ halted s (portNum p) = false) ∧
    (∃ (p : Port) (s : State), (s.pipe p).resetting = 2 ∧ 4096 ≤ since s (s.pipe p).resetAt) ∧
    (∃ (p : Port) (s : State), atTrick s = true ∧ (s.pipe p).resetting = 3 ∧ (s.port p).quietUntil = none) ∧
    (∃ (ch : Fin 24) (s : State) (q : Tick), (s.chan ch).rekindle = some q ∧ q.toNat ≤ s.clock.age.toNat) :=
  ⟨⟨.ta, up.onPort .ta fun q => { q with resetDue := true }, by decide +kernel⟩,
   ⟨.tb, up.onPort .tb fun q => { q with link := .off, quietUntil := some 9663676416 }, 9663676416, by decide +kernel⟩,
   ⟨.ta, up.onPipe .ta fun q => { q with resetting := 1 }, by decide +kernel⟩,
   ⟨.ta, { up with tables := { up.tables with pa := { up.tables.pa with resetting := 2, resetAt := 399999995904 } } }, by decide +kernel⟩,
   ⟨.ta, up.onPipe .ta fun q => { q with resetting := 3 }, by decide +kernel⟩,
   ⟨12, up.onChan 12 fun c => { c with rekindle := some 400000000000, bankShell := true }, 400000000000, by decide +kernel⟩⟩

theorem test_witness_TrunkVoltageDrivesTheDamper :
    (∃ (n : Nat) (s : State), shellRuns s = true ∧ n ≠ 0 ∧ trunkVolt n < 65535) ∧
    (∃ (s : State), shellRuns s = true) ∧
    (∃ (s : State), shellRuns s = true ∧ s.supply.trunkAbsent = true ∧ 1185 ≤ s.supply.vbusV) ∧
    (∃ (s : State) (v : Nat) (cap : Nat), v = (if s.supply.trunkAbsent = true then s.supply.lastTrunkV else s.supply.trunkV) ∧ cap = 400 * drawOf s.straps.codes ∧ v ≠ 0 ∧ atTrick s = true ∧ shellRuns s = true ∧ s.supply.flueLim = true) ∧
    (∃ (s : State) (v : Nat) (cap : Nat), v = (if s.supply.trunkAbsent = true then s.supply.lastTrunkV else s.supply.trunkV) ∧ cap = 400 * drawOf s.straps.codes ∧ v ≠ 0 ∧ atTrick s = true ∧ (s.supply.kindle = .joining ∨ s.supply.kindle = .up) ∧ s.supply.flueLim = false ∧ s.supply.lastTrunkV ≠ 0) :=
  ⟨⟨1000000, up, by decide +kernel⟩,
   ⟨up, by decide +kernel⟩,
   ⟨{ up with supply := { up.supply with trunkAbsent := true } }, by decide +kernel⟩,
   ⟨{ up with supply := { up.supply with trunkV := 4800, lastTrunkV := 4800, l := 2400000, flueLim := true } }, 4800, 400 * drawOf up.straps.codes, by decide +kernel⟩,
   ⟨{ up with supply := { up.supply with trunkV := 4800, lastTrunkV := 4800, l := 5, flueLim := false } }, 4800, 400 * drawOf up.straps.codes, by decide +kernel⟩⟩

theorem test_witness_HearthLedgerAndCharging :
    (∃ (_vh : Nat) (_vbus : Nat) (s : State), shellRuns s = true) ∧
    (∃ (s : State), atTrick s = true ∧ (s.supply.kindle = .joining ∨ s.supply.kindle = .up) ∧ hearthClass s ≠ 0 ∧ s.supply.hearthOv = false ∧ 1185 ≤ s.supply.vbusV ∧ s.supply.chargeOffUntil.toNat ≤ s.clock.age.toNat ∧ s.supply.hearthChg = false) ∧
    (∃ (s : State), (hearthClass s = 0 ∨ s.supply.hearthOv = true ∨ s.supply.vbusV < 1185 ∨ s.clock.age.toNat < s.supply.chargeOffUntil.toNat)) ∧
    (∃ (s : State), shellRuns s = true) ∧
    (∃ (s : State), shellRuns s = true) ∧
    (∃ (vh : Nat) (s : State) (q : Tick), shellRuns s = true ∧ s.supply.chargeSince = some q ∧ 30000000000 ≤ since s q ∧ vh < 2700) ∧
    (∃ (_v : Nat) (s : State), s.supply.kindle ≠ .off ∧ s.supply.flueLatched = false) :=
  ⟨⟨2800, 1200, up, by decide +kernel⟩,
   ⟨{ up with supply := { up.supply with chargeOffUntil := 400000000000 } }, by decide +kernel⟩,
   ⟨{ up with supply := { up.supply with vbusV := 1184 } }, by decide +kernel⟩,
   ⟨{ up with supply := { up.supply with hearthChg := true } }, by decide +kernel⟩,
   ⟨{ up with supply := { up.supply with hearthChg := true } }, by decide +kernel⟩,
   ⟨2699, { up with supply := { up.supply with hearthChg := true, chargeSince := some 370000000000 } }, 370000000000, by decide +kernel⟩,
   ⟨1500, up, by decide +kernel⟩⟩

theorem test_witness_RidingThroughAndEmber :
    (∃ (vbus : Nat) (s : State), atTrick s = true ∧ (s.supply.kindle = .joining ∨ s.supply.kindle = .up) ∧ s.supply.riding = false ∧ vbus < 1170) ∧
    (∃ (vbus : Nat) (s : State), s.supply.riding = true ∧ 1185 ≤ vbus) ∧
    (∃ (s : State), (s.supply.kindle = .joining ∨ s.supply.kindle = .up) ∧ s.supply.retention = true ∧ hearthClass s ≠ 0 ∧ s.supply.hearthOv = false) ∧
    (∃ (s : State), (s.supply.kindle = .joining ∨ s.supply.kindle = .up) ∧ (hearthClass s = 0 ∨ s.supply.hearthOv = true)) ∧
    (∃ (s : State), s.supply.kindle = .ember ∧ s.supply.retention = true) ∧
    (∃ (s : State), s.supply.kindle = .ember ∧ s.supply.retention = false) :=
  ⟨⟨1169, up, by decide +kernel⟩,
   ⟨1185, { up with supply := { up.supply with riding := true } }, by decide +kernel⟩,
   ⟨up, by decide +kernel⟩,
   ⟨{ up with supply := { up.supply with hearthOv := true } }, by decide +kernel⟩,
   ⟨{ up with supply := { up.supply with kindle := .ember } }, by decide +kernel⟩,
   ⟨{ up with supply := { up.supply with kindle := .ember, retention := false } }, by decide +kernel⟩⟩

theorem test_witness_ClockFollowsTheDealer :
    (∃ (s : State) (p : Port), (s.clock.state = .crystal ∨ s.clock.state = .holdover) ∧ s.clock.facing = some p ∧ (s.port p).lock = true ∧ s.clock.hops ≠ none) ∧
    (∃ (_want : Int) (_freqErr : Int) (_phaseErr : Int) (s : State), atTrick s = true ∧ (s.clock.state = .acquiring ∨ s.clock.state = .disciplined) ∧ -1000000000 ≤ s.clock.corr ∧ s.clock.corr ≤ 1000000000) ∧
    (∃ (s : State), s.clock.state = .acquiring ∧ 64 ≤ s.clock.goodTricks) ∧
    (∃ (p : Port) (s : State), s.clock.facing = some p ∧ (s.clock.state = .disciplined ∨ s.clock.state = .acquiring)) ∧
    (∃ (s : State), shellRuns s = true) :=
  ⟨⟨{ up with clock := { up.clock with state := .crystal } }, .ta, by decide +kernel⟩,
   ⟨98304, 50, -16, up, by decide +kernel⟩,
   ⟨{ up with clock := { up.clock with state := .acquiring, goodTricks := 64 } }, by decide +kernel⟩,
   ⟨.ta, up, by decide +kernel⟩,
   ⟨up, by decide +kernel⟩⟩

theorem test_witness_BeaconsAndRealignment :
    (∃ (s : State), inService s = true ∧ atTrick s = true ∧ trickNo s % 16 = 0) ∧
    (∃ (p : Port) (b : List Byte) (_a64 : Nat) (s : State), b.length = 11 ∧ 5 ≤ byteAt b 9 / 16 % 8 ∨ s.clock.facing ≠ some p ∨ 64 ≤ byteAt b 10 % 128) ∧
    (∃ (s : State) (r : Realign), s.clock.realign = some r ∧ atTrick s = true ∧ r.jump = true) ∧
    (∃ (s : State) (n : Nat) (k : Nat), s.clock.slew = some (n, k) ∧ 100 * n ≤ k) ∧
    (∃ (s : State) (n : Nat) (k : Nat), s.clock.slew = some (n, k) ∧ k < 100 * n) ∧
    (∃ (s : State) (r : Realign), s.clock.realign = some r ∧ atTrick s = true ∧ r.jump = false) :=
  ⟨⟨{ up with clock := { up.clock with state := .dealer, facing := none, hops := none } }, by decide +kernel⟩,
   ⟨.ta, beaconBytes 9663676416 3 5 0, 0, up, by decide +kernel⟩,
   ⟨{ up with clock := { up.clock with realign := some { delta := 1000000000000000, epoch := 7, jump := true } } }, { delta := 1000000000000000, epoch := 7, jump := true }, by decide +kernel⟩,
   ⟨{ up with clock := { up.clock with slew := some (7, 700) } }, 7, 700, by decide +kernel⟩,
   ⟨{ up with clock := { up.clock with slew := some (7, 699) } }, 7, 699, by decide +kernel⟩,
   ⟨{ up with clock := { up.clock with realign := some { delta := 3, epoch := 9, jump := false } } }, { delta := 3, epoch := 9, jump := false }, by decide +kernel⟩⟩

theorem test_witness_EventsReachTheQueuesInOrder :
    (∃ (s : State) (e : Event) (rest : List Event), s.events.merge = e :: rest ∧ shellRuns s = true ∧ s.clock.counter.toNat < e.tick.toNat + 4096) ∧
    (∃ (s : State) (e : Event) (rest : List Event), s.events.merge = e :: rest ∧ shellRuns s = true ∧ e.tick.toNat + 4096 ≤ s.clock.counter.toNat) ∧
    (∃ (s : State), shellRuns s = true ∧ queuesTake s = true) ∧
    (∃ (s : State), shellRuns s = true ∧ queuesTake s = false) ∧
    (∃ (code : BitVec 16) (src : Nat) (obj : Nat) (s : State) (l : Latch), s.events.latches.find? (sameLatch code.toNat src obj) = some l ∧ l.clearing = true ∧ 256 * 589824 ≤ since s l.at_) ∧
    (∃ (code : BitVec 16) (src : Nat) (obj : Nat) (s : State) (l : Latch), s.events.latches.find? (sameLatch code.toNat src obj) = some l ∧ l.clearing = true ∧ since s l.at_ < 256 * 589824) :=
  ⟨⟨{ up with events := { up.events with merge := [ev12 1199999995905], holding := [] } }, ev12 1199999995905, [], by decide +kernel⟩,
   ⟨{ up with events := { up.events with merge := [ev12 1199999995904], holding := [] } }, ev12 1199999995904, [], by decide +kernel⟩,
   ⟨{ up with events := { up.events with merge := [ev12 1], holding := [(zeros 32, 1)] } }, by decide +kernel⟩,
   ⟨{ up with events := { up.events with merge := [ev12 1], holding := [(zeros 32, 1)] }, queues := { up.queues with ready := false } }, by decide +kernel⟩,
   ⟨0x0301, 0x30, 0, { up with events := { up.events with latches := [{ code := 0x0301, src := 0x30, obj := 0, at_ := 399849005056, clearing := true, detail := [1, 2], rpt := 3 }] } }, { code := 0x0301, src := 0x30, obj := 0, at_ := 399849005056, clearing := true, detail := [1, 2], rpt := 3 }, by decide +kernel⟩,
   ⟨0x0301, 0x30, 0, { up with events := { up.events with latches := [{ code := 0x0301, src := 0x30, obj := 0, at_ := 399849005057, clearing := true, detail := [1, 2], rpt := 3 }] } }, { code := 0x0301, src := 0x30, obj := 0, at_ := 399849005057, clearing := true, detail := [1, 2], rpt := 3 }, by decide +kernel⟩⟩

theorem test_witness_OperationsStartWaitAndEnd :
    (∃ (h : BitVec 16) (s : State) (o : Op), opsRun s = true ∧ opOf s h.toNat = some o ∧ o.state = .queued ∧ flushStopping s o.handle = false ∧ objectHeld s o = true) ∧
    (∃ (h : BitVec 16) (s : State) (o : Op), opsRun s = true ∧ opOf s h.toNat = some o ∧ o.state = .queued ∧ flushStopping s o.handle = false ∧ objectHeld s o = false ∧ earlierQueued s o = [] ∧ o.gated = true ∧ energyOk s (opEnergy o) = false) ∧
    (∃ (h : BitVec 16) (s : State) (o : Op), opsRun s = true ∧ opOf s h.toNat = some o ∧ o.state = .queued ∧ flushStopping s o.handle = false ∧ objectHeld s o = false ∧ earlierQueued s o = [] ∧ o.gated = true ∧ energyOk s (opEnergy o) = true ∧ ungated s = false ∧ o.opcode = 0x0F02 ∧ o.holds = false) ∧
    (∃ (s : State), atTrick s = true ∧ shellRuns s = true ∧ s.vault.wardNext = [] ∧ (∀ o ∈ s.engine.ops, o.state ≠ .queued)) ∧
    (∃ (h : BitVec 16) (s : State) (o : Op), opOf s h.toNat = some o ∧ o.state = .suspended ∧ o.timing = true ∧ o.opcode = 0x0F02 ∧ halted s 3 = false ∧ flushStopping s h = false ∧ 180000000000 ≤ since s o.since) ∧
    (∃ (h : BitVec 16) (s : State) (o : Op), opOf s h.toNat = some o ∧ since s o.since < 180000000000) ∧
    (∃ (h : BitVec 16) (s : State) (o : Op), opOf s h.toNat = some o ∧ o.state.live = false ∧ 16384 * 589824 ≤ since s o.since) ∧
    (∃ (h : BitVec 16) (s : State) (o : Op), opOf s h.toNat = some o ∧ since s o.since < 16384 * 589824) :=
  ⟨⟨5, withOps [{ op 4 0x0F02 .running .sweep with holds := true }, (op 5 0x0F02 .queued .sweep)], (op 5 0x0F02 .queued .sweep), by decide +kernel⟩,
   ⟨5, { withOps [(op 5 0x0F02 .queued .sweep)] with supply := { up.supply with ledger := 0 } }, (op 5 0x0F02 .queued .sweep), by decide +kernel⟩,
   ⟨5, withOps [(op 5 0x0F02 .queued .sweep)], (op 5 0x0F02 .queued .sweep), by decide +kernel⟩,
   ⟨withOps [op 4 0x0F02 .done .sweep], by decide +kernel⟩,
   ⟨5, withOps [op 4 0x0F02 .running .sweep, { op 5 0x0F02 .suspended .sweep with since := 220000000000, timing := true }], { op 5 0x0F02 .suspended .sweep with since := 220000000000, timing := true }, by decide +kernel⟩,
   ⟨5, withOps [op 4 0x0F02 .running .sweep, { op 5 0x0F02 .suspended .sweep with since := 220000000001, timing := true }], { op 5 0x0F02 .suspended .sweep with since := 220000000001, timing := true }, by decide +kernel⟩,
   ⟨5, withOps [op 4 0x0F02 .running .sweep, { op 5 0x0F02 .done .sweep with since := 390336323584 }], { op 5 0x0F02 .done .sweep with since := 390336323584 }, by decide +kernel⟩,
   ⟨5, withOps [op 4 0x0F02 .running .sweep, { op 5 0x0F02 .done .sweep with since := 390336323585 }], { op 5 0x0F02 .done .sweep with since := 390336323585 }, by decide +kernel⟩⟩

theorem test_witness_LinkStatesOfAPort :
    (∃ (p : Port) (s : State), (s.port p).link = .off ∧ inService s = true ∧ (s.port p).quietUntil = none) ∧
    (∃ (p : Port) (s : State), (s.port p).link = .listen) ∧
    (∃ (p : Port) (s : State), ((s.port p).link = .untrained ∨ (s.port p).link = .up ∨ isSounding (s.port p) = true)) :=
  ⟨⟨.tb, up.onPort .tb fun q => { q with link := .off }, by decide +kernel⟩,
   ⟨.tb, up.onPort .tb fun q => { q with link := .listen }, by decide +kernel⟩,
   ⟨.tb, up, by decide +kernel⟩⟩

theorem test_witness_SoundingBeginsByRequestAndAck :
    (∃ (p : Port) (s : State), (s.port p).link = .untrained ∧ (s.port p).idClash = false ∧ (s.port p).retryAt.toNat ≤ s.clock.line.toNat) ∧
    (∃ (p : Port) (b : List Byte) (s : State), trainOk 1 b = true ∧ ((s.port p).link = .untrained ∨ (s.port p).link = .up) ∧ (s.port p).idClash = false ∧ fieldAt b 1 8 ≠ s.dieId.toNat ∧ ((s.port p).reqOut = false ∨ s.dieId.toNat < fieldAt b 1 8)) ∧
    (∃ (p : Port) (b : List Byte) (s : State), trainOk 1 b = true ∧ ((s.port p).link = .untrained ∨ (s.port p).link = .up) ∧ (s.port p).idClash = false ∧ (s.port p).reqOut = true ∧ fieldAt b 1 8 < s.dieId.toNat) ∧
    (∃ (p : Port) (b : List Byte) (s : State), trainOk 1 b = true ∧ ((s.port p).link = .untrained ∨ (s.port p).link = .up) ∧ (s.port p).idClash = false ∧ fieldAt b 1 8 = s.dieId.toNat) ∧
    (∃ (p : Port) (b : List Byte) (s : State), trainOk 2 b = true ∧ (s.port p).link = .untrained ∧ (s.port p).reqOut = true ∧ (s.port p).idClash = false ∧ fieldAt b 1 8 ≠ s.dieId.toNat) ∧
    (∃ (_p : Port) (b : List Byte) (_s : State), trainOk 1 b = false) ∧
    (∃ (p : Port) (i : Bool) (s : State), (s.port p).link = .sounding i ∧ (∃ e ∈ expectedSteps i, e.1 ∉ (s.port p).steps ∧ e.2 + 8 < soundingSlotNo s (s.port p))) ∧
    (∃ (p : Port) (r : Byte) (s : State), isSounding (s.port p) = true ∧ (r = 1 ∨ r = 2 ∨ r = 4 ∨ r = 5)) :=
  ⟨⟨.tb, up.onPort .tb fun q => { q with link := .untrained, retryAt := 9663676416, reqOut := false }, by decide +kernel⟩,
   ⟨.tb, ([1] ++ beBytes 8 5 ++ [1, 1, 0]), up.onPort .tb fun q => { q with link := .untrained, retryAt := 9663676416, reqOut := false }, by decide +kernel⟩,
   ⟨.tb, ([1] ++ beBytes 8 5 ++ [1, 1, 0]), up.onPort .tb fun q => { q with link := .untrained, retryAt := 9663676416, reqOut := true }, by decide +kernel⟩,
   ⟨.tb, ([1] ++ beBytes 8 0x59024C0011223344 ++ [1, 1, 0]), up.onPort .tb fun q => { q with link := .untrained, retryAt := 9663676416, reqOut := true }, by decide +kernel⟩,
   ⟨.tb, ([2] ++ beBytes 8 5 ++ [1, 1, 0]), up.onPort .tb fun q => { q with link := .untrained, retryAt := 9663676416, reqOut := true }, by decide +kernel⟩,
   ⟨.tb, [1, 2], up, by decide +kernel⟩,
   ⟨.ta, true, soundAt true 25 [], by decide +kernel⟩,
   ⟨.ta, 4, soundAt true 25 [2], by decide +kernel⟩⟩

theorem test_witness_DelayAndSoundingSlots :
    (∃ (p : Port) (e : Nat) (i : Bool) (s : State), (s.port p).link = .sounding i ∧ atSymbol s = true ∧ 180 ≤ e) ∧
    (∃ (p : Port) (b : List Byte) (a64 : Nat) (d : Int) (s : State), (s.port p).link = .sounding true ∧ b.length = 14 ∧ byteAt b 0 = 3 ∧ byteAt b 13 = 2 ∧ d = ((BitVec.ofNat 48 (fieldAt b 7 6) - (s.port p).t1).toInt + (BitVec.ofNat 48 a64 - BitVec.ofNat 48 (fieldAt b 1 6)).toInt) / 2 ∧ d ≤ dMax (s.port p)) ∧
    (∃ (p : Port) (snr : List Nat) (i : Bool) (s : State), (s.port p).link = .sounding i ∧ atSymbol s = true ∧ soundingSlotNo s (s.port p) = (if i = true then 392 else 384) ∧ headerBelow snr 0 = false ∧ 464 ≤ tableB (tableFor snr (marginDb (s.port p).margin))) ∧
    (∃ (p : Port) (snr : List Nat) (i : Bool) (s : State), (s.port p).link = .sounding i ∧ atSymbol s = true ∧ soundingSlotNo s (s.port p) = (if i = true then 392 else 384) ∧ tableB (tableFor snr (marginDb (s.port p).margin)) < 464) :=
  ⟨⟨.ta, 180, true, soundAt true 8 [], by decide +kernel⟩,
   ⟨.ta, [3] ++ beBytes 6 1100 ++ beBytes 6 1040 ++ [2], 1260, 100, soundAt true 17 [], by decide +kernel⟩,
   ⟨.ta, snr20, true, soundAt true 392 [], by decide +kernel⟩,
   ⟨.ta, List.replicate 471 4, true, soundAt true 392 [], by decide +kernel⟩⟩

theorem test_witness_TablesSwitchTogether :
    (∃ (p : Port) (_b : List Byte) (s : State) (_seq : BitVec 16) (_slot : Bool), (s.port p).pendTx = none ∧ (s.port p).lastAck = none) ∧
    (∃ (p : Port) (b : List Byte) (s : State) (q : PendingTable), b.length = 6 ∧ byteAt b 0 = 5 ∧ 32 ≤ fieldAt b 4 2 ∧ fieldAt b 4 2 ≤ 1024 ∧ (s.port p).pendRx = some q ∧ q.acked = false ∧ fieldAt b 1 2 = q.seq.toNat ∧ byteAt b 3 = b2n q.slot) ∧
    (∃ (p : Port) (s : State) (q : PendingTable), (s.port p).pendRx = some q ∧ (s.port p).pendTx = none ∧ isSounding (s.port p) = false ∧ q.acked = true ∧ q.at_.toNat + q.ns * 9216 ≤ s.clock.line.toNat) ∧
    (∃ (p : Port) (s : State) (q : PendingTable), (s.port p).pendRx = some q ∧ (s.port p).pendTx = none ∧ isSounding (s.port p) = false ∧ (q.acked = false ∨ s.clock.line.toNat < q.at_.toNat + q.ns * 9216)) ∧
    (∃ (p : Port) (s : State) (q : PendingTable), (s.port p).pendRx = some q ∧ (s.port p).pendTx = none ∧ isSounding (s.port p) = false ∧ q.acked = false ∧ q.resends < 3 ∧ q.at_.toNat + 128 * 9216 ≤ s.clock.line.toNat) ∧
    (∃ (p : Port) (s : State) (q : PendingTable), (s.port p).pendRx = some q ∧ (s.port p).pendTx = none ∧ isSounding (s.port p) = false ∧ 3 ≤ q.resends) ∧
    (∃ (p : Port) (s : State), (s.port p).rxOtherReleased = false ∧ (s.port p).pendRx = none ∧ (s.port p).rxSwitchAt.toNat + 589824 ≤ s.clock.line.toNat) :=
  ⟨⟨.tb, [4, 8, 0, 9] ++ (chunks 2 240 ((tableFor snr20 600) ++ [0])).map (fun l => BitVec.ofNat 8 (l.getD 0 0 * 16 + l.getD 1 0)), up, 9, true, by decide +kernel⟩,
   ⟨.tb, [5, 0, 7, 1, 0, 48], up.onPort .tb fun q => { q with pendRx := some (pendTab false 0 0) }, pendTab false 0 0, by decide +kernel⟩,
   ⟨.tb, up.onPort .tb fun q => { q with pendRx := some (pendTab true 442368 0) }, pendTab true 442368 0, by decide +kernel⟩,
   ⟨.tb, up.onPort .tb fun q => { q with pendRx := some (pendTab true 442367 0) }, pendTab true 442367 0, by decide +kernel⟩,
   ⟨.tb, up.onPort .tb fun q => { q with pendRx := some (pendTab false 1179648 2) }, pendTab false 1179648 2, by decide +kernel⟩,
   ⟨.tb, up.onPort .tb fun q => { q with pendRx := some (pendTab false 1179648 3) }, pendTab false 1179648 3, by decide +kernel⟩,
   ⟨.tb, up.onPort .tb fun q => { q with rxOtherReleased := false, rxSwitchAt := 9663086592 }, by decide +kernel⟩⟩

theorem test_witness_BidsElectTheHighest :
    (∃ (s : State), inService s = true ∧ s.cut.state = .cut ∧ s.cut.provisional = false ∧ eligible s = true ∧ s.clock.line.toNat = s.cut.bidTrick.toNat + s.cut.slot * 9216 ∧ (∀ b, s.cut.best = some b → b.value ≤ (ownBid s).value) ∧ isTwin? s (ownBid s) = false) ∧
    (∃ (_p : Port) (m : List Byte) (s : State) (b : Bid), cutOk 1 m = true ∧ inService s = true ∧ s.cut.state = .cut ∧ byteAt m 1 = s.cut.round.toNat ∧ b.rank.toNat = byteAt m 2 ∧ b.die.toNat = fieldAt m 3 8 ∧ b.node.toNat = fieldAt m 11 2 ∧ b.nonce.toNat = fieldAt m 13 4 ∧ isTwin? s b = false ∧ (∀ x, s.cut.best = some x → x.value < b.value)) ∧
    (∃ (_p : Port) (m : List Byte) (s : State) (die : BitVec 64), cutOk 2 m = true ∧ inService s = true ∧ s.cut.state = .cut ∧ die.toNat = fieldAt m 3 8 ∧ byteAt m 1 = s.cut.round.toNat ∧ s.cut.round.toNat < 255 ∧ (die, s.cut.round) ∉ s.cut.clashSeen) ∧
    (∃ (_p : Port) (m : List Byte) (s : State) (b : Bid), cutOk 3 m = true ∧ inService s = true ∧ s.cut.state = .cut ∧ s.cut.provisional = true ∧ s.cut.best = some b ∧ fieldAt m 2 8 = b.die.toNat) ∧
    (∃ (_p : Port) (m : List Byte) (_s : State), cutOk 1 m = false) ∧
    (∃ (_p : Port) (m : List Byte) (_s : State), cutOk 2 m = false) ∧
    (∃ (_p : Port) (m : List Byte) (_s : State), cutOk 3 m = false) :=
  ⟨⟨{ up with cut := { up.cut with state := .cut, round := 2, entered := 399000000000, bidTrick := 9663676416 } }, by decide +kernel, by decide +kernel, by decide +kernel, by decide +kernel, by decide +kernel, (by intro k h; exact nomatch (show none = some k from h)), by decide +kernel⟩,
   ⟨.ta, ([1, 2, 5] ++ beBytes 8 7 ++ beBytes 2 4 ++ beBytes 4 1 ++ [1] ++ beBytes 2 532), { up with cut := { up.cut with state := .cut, round := 2, entered := 399000000000, bidTrick := 9663676416 } }, { rank := 5, die := 7, node := 4, nonce := 1 }, by decide +kernel, by decide +kernel, by decide +kernel, by decide +kernel, by decide +kernel, by decide +kernel, by decide +kernel, by decide +kernel, by decide +kernel, (by intro k h; exact nomatch (show none = some k from h))⟩,
   ⟨.tb, ([2, 2, 5] ++ beBytes 8 99), { up with cut := { up.cut with state := .cut, round := 2, entered := 399000000000, bidTrick := 9663676416 } }, 99, by decide +kernel⟩,
   ⟨.ta, ([3, 2] ++ beBytes 8 7 ++ beBytes 2 0x0216 ++ [4, 200, 1] ++ beBytes 2 5 ++ beBytes 2 6), { up with cut := { up.cut with state := .cut, round := 2, entered := 399000000000, bidTrick := 9663676416, provisional := true, best := some ({ rank := 3, die := 7, node := 3, nonce := 9 }) } }, { rank := 3, die := 7, node := 3, nonce := 9 }, by decide +kernel⟩,
   ⟨.ta, [1, 2], up, by decide +kernel⟩,
   ⟨.ta, [1, 2], up, by decide +kernel⟩,
   ⟨.ta, [1, 2], up, by decide +kernel⟩⟩

theorem test_witness_TheCutBeginsAndSettles :
    (∃ (s : State), inService s = true ∧ (s.cut.state = .waiting ∨ s.cut.state = .following) ∧ 60000000 ≤ since s s.cut.silence) ∧
    (∃ (s : State), inService s = true ∧ (s.cut.state = .waiting ∨ s.cut.state = .following) ∧ since s s.cut.silence < 60000000) ∧
    (∃ (s : State), inService s = true ∧ s.cut.state = .cut ∧ s.cut.provisional = true ∧ 75000000 ≤ since s s.cut.entered) ∧
    (∃ (s : State), inService s = true ∧ s.cut.state = .cut ∧ s.cut.provisional = false ∧ 150000000 ≤ since s s.cut.entered) :=
  ⟨⟨{ up with cut := { up.cut with silence := 399000000000 } }, by decide +kernel⟩,
   ⟨{ up with cut := { up.cut with state := .waiting, silence := 399940000001 } }, by decide +kernel⟩,
   ⟨{ up with clock := { up.clock with epoch := 3 }, cut := { up.cut with state := .cut, round := 2, entered := 399000000000, bidTrick := 9663676416, provisional := true, best := some ({ rank := 3, die := 7, node := 3, nonce := 9 }), tallies := [{ node := 3, hops := 1, epoch := 5, meet := 0, nbrA := 1, nbrB := 2 }, { node := 4, hops := 1, epoch := 4, meet := 1, nbrA := 1, nbrB := 2 }] } }, by decide +kernel⟩,
   ⟨{ up with cut := { up.cut with state := .cut, round := 2, entered := 399000000000, bidTrick := 9663676416 } }, by decide +kernel⟩⟩

theorem test_witness_DealsBreaksAndCalls :
    (∃ (s : State), inService s = true ∧ s.cut.state = .dealer ∧ s.clock.line.toNat % 9437184 = 9216) ∧
    (∃ (p : Port) (m : List Byte) (s : State), cutOk 4 m = true ∧ inService s = true ∧ byteAt m 13 ≤ 64 ∧ (s.port p).blocked = false ∧ (s.port p).held = false ∧ s.cut.state = .waiting) ∧
    (∃ (p : Port) (m : List Byte) (s : State), cutOk 4 m = true ∧ inService s = true ∧ byteAt m 13 ≤ 64 ∧ (s.port p).blocked = false ∧ (s.port p).held = false ∧ s.cut.state = .following ∧ s.cut.dealer ≠ none ∧ fieldAt m 2 8 = dealerDie s ∧ byteAt m 12 = dealerEpoch s) ∧
    (∃ (p : Port) (m : List Byte) (s : State), cutOk 4 m = true ∧ inService s = true ∧ byteAt m 13 ≤ 64 ∧ (s.port p).blocked = false ∧ (s.port p).held = false ∧ (s.cut.state = .following ∨ s.cut.state = .dealer) ∧ (fieldAt m 2 8 ≠ dealerDie s ∨ byteAt m 12 ≠ dealerEpoch s)) ∧
    (∃ (_p : Port) (m : List Byte) (s : State), cutOk 4 m = true ∧ inService s = true ∧ 64 < byteAt m 13) ∧
    (∃ (p : Port) (s : State), s.clock.facing = some p ∧ s.cut.state = .following ∧ s.clock.line.toNat % 9437184 = 0 ∧ (s.port p).dealSeen = false ∧ (s.port p.other).dealSeen = true) ∧
    (∃ (p : Port) (s : State), s.clock.facing = some p ∧ s.cut.state = .following ∧ s.clock.line.toNat % 9437184 = 0 ∧ (s.port p).dealSeen = true) ∧
    (∃ (_p : Port) (m : List Byte) (s : State), cutOk 6 m = true ∧ inService s = true ∧ (s.cut.state = .following ∨ s.cut.state = .dealer) ∧ (∀ x ∈ s.cut.breakSeen, x.1.toNat ≠ fieldAt m 10 2 ∨ x.2.1.toNat ≠ byteAt m 1)) ∧
    (∃ (_p : Port) (m : List Byte) (s : State), cutOk 5 m = true ∧ inService s = true ∧ s.cut.state ≠ .cut ∧ (∀ x ∈ s.cut.callSeen, x.1.toNat ≠ fieldAt m 2 8 ∨ x.2.toNat ≠ byteAt m 1)) ∧
    (∃ (p : Port) (s : State) (m : Tick × List Byte), (s.port p).llOut.find? (fun x => byteAt x.2 0 == 3) = some m ∧ atSymbol s = true ∧ inService s = true ∧ (s.port p).tx = none ∧ carries (s.port p) = true ∧ m.1.toNat ≤ s.clock.line.toNat ∧ (∀ n, n ≤ 4 → maySpan s p n = true) ∧ tableB ((s.port p).txTable (s.port p).txSlot) ≥ 464 ∧ m.2.length ≤ 58) :=
  ⟨⟨{ up with clock := { up.clock with line := 9663676416 + 9216 }, cut := { up.cut with state := .dealer } }, by decide +kernel⟩,
   ⟨.ta, ([4, 5] ++ beBytes 8 0x99 ++ beBytes 2 0x0210 ++ [3, 1, 9] ++ [2, 0, 2, 0xFF, 2, 0x14]), { up with cut := { up.cut with state := .waiting } }, by decide +kernel⟩,
   ⟨.ta, ([4, 5] ++ beBytes 8 0x99 ++ beBytes 2 0x0210 ++ [3, 1, 9] ++ [2, 0, 2, 0xFF, 2, 0x14]), { up with cut := { up.cut with lastDeal := ([4, 5] ++ beBytes 8 0x99 ++ beBytes 2 0x0210 ++ [3, 1, 9] ++ [2, 0, 2, 0xFF, 2, 0x14]) } }, by decide +kernel⟩,
   ⟨.ta, ([4, 5] ++ beBytes 8 0x99 ++ beBytes 2 0x0210 ++ [3, 1, 9] ++ [2, 0, 2, 0xFF, 2, 0x14]), up, by decide +kernel⟩,
   ⟨.tb, ([4, 5] ++ beBytes 8 0x99 ++ beBytes 2 0x0210 ++ [3, 65, 9] ++ [2, 0, 2, 0xFF, 2, 0x14]), up, by decide +kernel⟩,
   ⟨.ta, { (up.onPort .tb fun q => { q with dealSeen := true }) with clock := { up.clock with state := .disciplined }, cut := { up.cut with lastDeal := ([4, 5] ++ beBytes 8 0x99 ++ beBytes 2 0x0210 ++ [3, 7, 9] ++ [2, 0, 2, 0xFF, 2, 0x14]) } }, by decide +kernel⟩,
   ⟨.ta, up.onPort .ta fun q => { q with dealSeen := true }, by decide +kernel⟩,
   ⟨.ta, ([6, 7] ++ beBytes 8 5 ++ beBytes 2 0x0216), up.onPort .tb fun q => { q with blocked := true, held := true }, by decide +kernel, by decide +kernel, by decide +kernel, (fun x h => nomatch (show x ∈ ([] : List (BitVec 16 × BitVec 8 × Tick)) from h))⟩,
   ⟨.ta, ([5, 7] ++ beBytes 8 5), up, by decide +kernel, by decide +kernel, by decide +kernel, (fun x h => nomatch (show x ∈ ([] : List (BitVec 64 × BitVec 8)) from h))⟩,
   ⟨.tb, { (up.onPort .tb fun q => { q with llOut := [(9663676416, [2, 1]), (9663676416, 3 :: ([4, 5] ++ beBytes 8 0x99 ++ beBytes 2 0x0210 ++ [3, 2, 9] ++ [2, 0, 2, 0xFF, 2, 0x14]))] }) with clock := { up.clock with line := 9663676416 + 9216 * 20 } }, (9663676416, 3 :: ([4, 5] ++ beBytes 8 0x99 ++ beBytes 2 0x0210 ++ [3, 2, 9] ++ [2, 0, 2, 0xFF, 2, 0x14])), by decide +kernel⟩⟩

theorem test_witness_TopologyFlushForgetsWhatWasLearned :
    (∃ (s : State), atTrick s = true ∧ inService s = true ∧ s.tables.flushDue = true ∧ s.tables.reclaim = none) ∧
    (∃ (s : State), (s.tables.flushDue = false ∨ s.tables.reclaim ≠ none ∨ atTrick s = false)) ∧
    (∃ (s : State) (b : Nat), s.mem.wf = true ∧ s.tables.reclaim = some b ∧ inService s = true ∧ b < 8192) ∧
    (∃ (s : State), s.tables.reclaim = some 8192) :=
  ⟨⟨{ up with tables := { up.tables with flushDue := true, prefixes := [ownPrefix 0x07084440, learnedPrefix 0x07080040 5 9 .ta] } }, by decide +kernel⟩,
   ⟨up, by decide +kernel⟩,
   ⟨{ up with tables := { up.tables with pa := { up.tables.pa with gen := true }, reclaim := some 0 }, mem := ((up.mem.setEntry (wayAddr .ta 0 2) (heMake 0x0A0000000002 false false 0 5 0)).setEntry (wayAddr .tb 0 0) (heMake 0x0A0000000003 false true 0 5 0)).setEntry (wayAddr .ta 0 1) (heMake 0x0A0000000004 true false 0 5 0) }, 0, by decide +kernel⟩,
   ⟨{ up with tables := { up.tables with reclaim := some 8192 } }, by decide +kernel⟩⟩

theorem test_witness_HeaderDecisionTakesOrDiscards :
    (∃ (p : Port) (hdr : List Byte) (_ecc : Ecc) (s : State), inService s = true ∧ carries (s.port p) = true ∧ (s.port p).rx = none ∧ headerCrcGood hdr = false) ∧
    (∃ (p : Port) (hdr : List Byte) (_ecc : Ecc) (s : State), inService s = true ∧ carries (s.port p) = true ∧ (s.port p).rx = none ∧ headerCrcGood hdr = true ∧ (Header.decode hdr).btSlot ≠ (s.port p).rxSlot ∧ (s.port p).rxOtherReleased = true) ∧
    (∃ (p : Port) (hdr : List Byte) (_ecc : Ecc) (s : State), inService s = true ∧ carries (s.port p) = true ∧ (s.port p).rx = none ∧ headerCrcGood hdr = true ∧ (Header.decode hdr).btSlot = (s.port p).rxSlot ∧ headerBad (Header.decode hdr) (tableB ((s.port p).rxTable (s.port p).rxSlot)) = true) ∧
    (∃ (p : Port) (hdr : List Byte) (ecc : Ecc) (h : Header) (s : State), inService s = true ∧ carries (s.port p) = true ∧ (s.port p).rx = none ∧ headerCrcGood hdr = true ∧ h = Header.decode hdr ∧ h.btSlot = (s.port p).rxSlot ∧ headerBad h (tableB ((s.port p).rxTable h.btSlot)) = false ∧ ingressOpen s p = true ∧ linkBlocked (s.port p) = false ∧ eccApply s ecc = s ∧ h.akind = 0 ∧ h.srcTag ≠ ownTag s ∧ (hashFind s p h.srcTag.toNat).isSome = true ∧ 1 < h.hopCount.toNat ∧ s.cut.state ≠ .cut ∧ linkBlocked (s.port p.other) = false ∧ s.clock.realign = none ∧ s.clock.quietUntil = none ∧ s.dbg.step = none ∧ carries (s.port p.other) = true) ∧
    (∃ (p : Port) (r : RxFrame) (s : State), inService s = true ∧ (s.port p).rx = some r) :=
  ⟨⟨.ta, hdr0.encode.set 20 1, { corrected := [], poisoned := [] }, up, by decide +kernel⟩,
   ⟨.ta, ({ hdr0 with btSlot := true } : Header).encode, { corrected := [], poisoned := [] }, up, by decide +kernel⟩,
   ⟨.ta, ({ hdr0 with hopCount := 65 } : Header).encode, { corrected := [], poisoned := [] }, up, by decide +kernel⟩,
   ⟨.ta, hdr0.encode, { corrected := [], poisoned := [] }, hdr0, { up with mem := up.mem.setEntry (wayAddr .ta (bucketOf 0 0x0A0000000002) 2) (heMake 0x0A0000000002 false false 0 5 (bucketOf 0 0x0A0000000002)) }, by decide +kernel⟩,
   ⟨.ta, ({ hdr := hdr0, meta_ := { egress := otherPort .ta, cls := none, policer := 0, epoch := false, queue := 0, excess := false } } : RxFrame), ((up.onPort .ta fun q => { q with rx := some ({ hdr := hdr0, meta_ := { egress := otherPort .ta, cls := none, policer := 0, epoch := false, queue := 0, excess := false } } : RxFrame) }).onPort .tb fun q => { q with due := some ({ frame := { hdr := hdr0, payload := [], crc := .good }, epoch := false, from_ := .ta, complete := false, due := 9663676416 } : Transit) }), by decide +kernel⟩⟩

theorem test_witness_TransitPayloadAndSymbols :
    (∃ (p : Port) (d : Transit) (s : State), atSymbol s = true ∧ shellRuns s = true ∧ (s.port p).due = some d ∧ d.due.toNat ≤ s.clock.line.toNat ∧ carries (s.port p) = true ∧ inBeaconSlot s p = false ∧ soundingSpan s (s.port p) = false ∧ (s.port p).tx = none ∧ (s.port p).hold = []) ∧
    (∃ (p : Port) (d : Transit) (s : State), atSymbol s = true ∧ shellRuns s = true ∧ (s.port p).due = some d ∧ d.due.toNat ≤ s.clock.line.toNat ∧ carries (s.port p) = true ∧ inBeaconSlot s p = false ∧ soundingSpan s (s.port p) = false ∧ (s.port p).hold ≠ [] ∧ (s.port p).hold.length < 64 ∧ holdCells (s.port p) + cellsOf d.frame.hdr.payLen.toNat ≤ 512 ∧ halted s 2 = false) ∧
    (∃ (p : Port) (pay : List Byte) (crc : BitVec 32) (r : RxFrame) (s : State), inService s = true ∧ (s.port p).rx = some r ∧ pay.length = r.hdr.payLen.toNat ∧ crc ≠ crc32 pay) ∧
    (∃ (p : Port) (pay : List Byte) (r : RxFrame) (s : State), inService s = true ∧ (s.port p).rx = some r ∧ pay.length = r.hdr.payLen.toNat ∧ r.hdr.akind = 3 ∧ llBad 4096 pay = 0) ∧
    (∃ (p : Port) (s : State), atSymbol s = true ∧ shellRuns s = true ∧ (s.port p).link = .off) ∧
    (∃ (s : State), inService s = true ∧ placeOf s.straps.codes ≠ none ∧ s.cut.state ≠ .cut ∧ s.queues.ready = true ∧ (s.announce.dueTa = true ∨ s.announce.dueTb = true)) :=
  ⟨⟨.tb, ({ frame := { hdr := ({ hdr0 with hopCount := 4 } : Header), payload := [], crc := .good }, epoch := false, from_ := .ta, complete := false, due := 9663676416 } : Transit), { (up.onPort .tb fun q => { q with due := some ({ frame := { hdr := ({ hdr0 with hopCount := 4 } : Header), payload := [], crc := .good }, epoch := false, from_ := .ta, complete := false, due := 9663676416 } : Transit) }) with clock := { up.clock with line := 9663676416 + 9216 * 20 } }, by decide +kernel⟩,
   ⟨.tb, ({ frame := { hdr := ({ hdr0 with hopCount := 4 } : Header), payload := [], crc := .good }, epoch := false, from_ := .ta, complete := false, due := 9663676416 } : Transit), { (up.onPort .tb fun q => { q with due := some ({ frame := { hdr := ({ hdr0 with hopCount := 4 } : Header), payload := [], crc := .good }, epoch := false, from_ := .ta, complete := false, due := 9663676416 } : Transit), hold := [({ frame := { hdr := hdr0, payload := [], crc := .good }, epoch := false, from_ := .ta, complete := false, due := 9663000000 } : Transit)] }) with clock := { up.clock with line := 9663676416 + 9216 * 20 } }, by decide +kernel⟩,
   ⟨.ta, (zeros 40), 5, ({ hdr := hdr0, meta_ := { egress := otherPort .ta, cls := none, policer := 0, epoch := false, queue := 0, excess := false } } : RxFrame), (up.onPort .ta fun q => { q with rx := some ({ hdr := hdr0, meta_ := { egress := otherPort .ta, cls := none, policer := 0, epoch := false, queue := 0, excess := false } } : RxFrame) }), by decide +kernel⟩,
   ⟨.ta, (([2, 18] ++ zeros 18) ++ ([3, 18] ++ zeros 18)), ({ hdr := ({ hdr0 with dest := 0xFFFFFFFFFFFF, akind := 3, tclass := 7, hopCount := 1 } : Header), meta_ := { egress := otherPort .ta, cls := none, policer := 0, epoch := false, queue := 0, excess := false } } : RxFrame), (up.onPort .ta fun q => { q with rx := some ({ hdr := ({ hdr0 with dest := 0xFFFFFFFFFFFF, akind := 3, tclass := 7, hopCount := 1 } : Header), meta_ := { egress := otherPort .ta, cls := none, policer := 0, epoch := false, queue := 0, excess := false } } : RxFrame) }), by decide +kernel⟩,
   ⟨.ta, up.onPort .ta fun q => { q with link := .off }, by decide +kernel⟩,
   ⟨{ up with announce := { up.announce with dueTa := true } }, by decide +kernel⟩⟩

theorem test_witness_LinkAdaptsAtTheTrickEnd :
    (∃ (p : Port) (_snr : List Nat) (_evm : Int) (_drift : Int) (s : State), atTrick s = true ∧ ((s.port p).link = .untrained ∨ (s.port p).link = .up ∨ isSounding (s.port p) = true)) ∧
    (∃ (p : Port) (snr : List Nat) (_evm : Int) (_drift : Int) (s : State), atTrick s = true ∧ (s.port p).link = .up ∧ (16 ≤ (s.port p).crcFails ∨ (headerBelow snr 0 = true ∧ 15 ≤ (s.port p).hdrLow))) ∧
    (∃ (p : Port) (snr : List Nat) (_evm : Int) (_drift : Int) (s : State), atTrick s = true ∧ (s.port p).link = .up ∧ (s.port p).crcFails < 16 ∧ headerBelow snr 0 = false ∧ (s.port p).marginDue = false ∧ adaptChanges snr (goodCounts snr (s.port p).goodTricks ((s.port p).rxTable (s.port p).rxSlot) (marginDb (s.port p).margin)) ((s.port p).rxTable (s.port p).rxSlot) (marginDb (s.port p).margin) = []) :=
  ⟨⟨.ta, snr20, 5, 0, up, by decide +kernel⟩,
   ⟨.ta, List.replicate 471 60, 5, 0, (up.onPort .ta fun q => { q with crcFails := 16 }), by decide +kernel⟩,
   ⟨.ta, List.replicate 471 255, 5, 0, (up.onPort .ta fun q => { q with crcFails := 15 }), by decide +kernel⟩⟩

theorem test_witness_TablesAgeRefillAndDrain :
    (∃ (p : Port) (s : State), s.mem.wf = true ∧ inService s = true ∧ halted s 5 = false ∧ (s.pipe p).scan < 8192 ∧ agingLimit s.straps.codes * 65536 ≤ since s (s.pipe p).scanAt) ∧
    (∃ (p : Port) (s : State), s.mem.wf = true ∧ inService s = true ∧ halted s 5 = false ∧ (s.pipe p).scan < 8192 ∧ since s (s.pipe p).scanAt < agingLimit s.straps.codes * 65536) ∧
    (∃ (s : State), atTrick s = true ∧ inService s = true ∧ halted s 5 = false ∧ trickNo s % 4096 = 0) ∧
    (∃ (s : State), atTrick s = true ∧ inService s = true) ∧
    (∃ (s : State), atTrick s = true ∧ inService s = true ∧ halted s 2 = false) ∧
    (∃ (w : InvWhy) (f : Tick) (s : State), s.tables.draining = some (w, f) ∧ since s f < 4096) ∧
    (∃ (w : InvWhy) (f : Tick) (s : State), s.tables.draining = some (w, f) ∧ 4096 ≤ since s f ∧ insidePort s.portA (!s.tables.epoch) = false ∧ insidePort s.portB (!s.tables.epoch) = false ∧ s.tables.waiting = []) :=
  ⟨⟨.ta, { up with tables := { up.tables with pa := { up.tables.pa with scan := 0, scanAt := 5 } }, mem := (up.mem.setEntry (wayAddr .ta 0 2) (heMake 0x0A0000000002 false false 0 5 1)).setEntry (wayAddr .ta 0 1) (heMake 0x0A0000000003 true true 0 5 1) }, by decide +kernel⟩,
   ⟨.ta, { up with tables := { up.tables with pa := { up.tables.pa with scan := 3, scanAt := 399999999999 } }, mem := (up.mem.setEntry (wayAddr .ta 3 2) (heMake 0x0A0000000002 false false 0 5 1)).setEntry (wayAddr .ta 3 1) (heMake 0x0A0000000003 true true 0 5 1) }, by decide +kernel⟩,
   ⟨{ up with tables := { up.tables with prefixes := [ownPrefix 0x07084440, learnedPrefix 0x07080040 5 9 .ta, learnedPrefix 0x07090040 5 (prefixUnit up) .ta, learnedPrefix 0x070A0040 5 (prefixUnit up - 7) .ta, learnedPrefix 0x070B0040 5 (prefixUnit up + 65528) .ta] } }, by decide +kernel⟩,
   ⟨{ up with tables := { up.tables with policers := [(1, entryOf [128, 0, 0, 100, 0, 0, 3, 0, 0, 0, 2, 200, 0, 0, 0, 9]), (63, entryOf [129, 0, 1, 0, 0, 0, 0, 3, 0, 0, 0, 0, 0, 0, 0, 9]), (2, entryOf [0, 0, 1, 0, 0, 0, 0, 3, 0, 0, 0, 0, 0, 0, 0, 9])] } }, by decide +kernel⟩,
   ⟨{ up with queues := { up.queues with settings := [(5, { cls := 2, rate := 100, paused := false, credit := 4000 }), (70, { cls := 2, rate := 0, paused := true, credit := -7 })] } }, by decide +kernel⟩,
   ⟨.topology, 399999995905, { up with tables := { up.tables with draining := some (.topology, 399999995905), epoch := true } }, by decide +kernel⟩,
   ⟨.commit, 399999995904, { up with tables := { up.tables with draining := some (.commit, 399999995904), epoch := true } }, by decide +kernel⟩⟩

theorem test_witness_CommitsSwitchWhole :
    (∃ (s : State) (b : List Change) (r : List (List Change)), s.tables.commit.batches = b :: r ∧ s.tables.commit.state = .preparing ∧ s.tables.commit.prepared = false ∧ halted s 3 = false ∧ since s s.tables.commit.since < 16 * 589824 ∧ copiesFit s.tables.prefixes b = true) ∧
    (∃ (s : State) (b : List Change) (r : List (List Change)), s.tables.commit.batches = b :: r ∧ s.tables.commit.state = .preparing ∧ s.tables.commit.prepared = false ∧ 16 * 589824 ≤ since s s.tables.commit.since) ∧
    (∃ (s : State) (b : List Change) (r : List (List Change)) (late : Bool), s.tables.commit.batches = b :: r ∧ s.tables.commit.state = .preparing ∧ s.tables.commit.prepared = true ∧ s.tables.draining = none ∧ switchTime s = some late) ∧
    (∃ (s : State) (b : List Change), s.mem.wf = true ∧ s.tables.commit.batches = [b] ∧ s.tables.commit.state = .switched ∧ commitDraining s = false ∧ (∀ e ∈ s.tables.shadow, e.1 < 65536) ∧ (s.tables.shadow.map (·.1)).Nodup) ∧
    (∃ (h : BitVec 16) (s : State) (o : Op) (p : Port), s.mem.wf = true ∧ opOf s h.toNat = some o ∧ o.object = .pipe p ∧ o.opcode = 0x0705 ∧ o.state = .running ∧ o.progress.toNat < 0x1FFF ∧ o.cancelPending = false ∧ o.suspendPending = false ∧ halted s 3 = false ∧ flushStopping s h = false) :=
  ⟨⟨{ up with tables := { up.tables with commit := { up.tables.commit with state := .preparing, prepared := false, batches := [[({ hand := 0, table := 4, key := 0x070840401A, entry := some (entryOf [0x07,8,0x40,0x40,26,0,1,0,0,0,0,0,0,0,0,0]) } : Change), ({ hand := 0, table := 1, key := 0x123400000000, entry := some (entryOf [128,1,0,0,0,0,0,0,0,0,0,0,0,0,0,1]) } : Change)]], since := 399999000000, apply := 1199999999999 }, staged := [({ hand := 0, table := 4, key := 0x070840405A, entry := none } : Change)] } }, [({ hand := 0, table := 4, key := 0x070840401A, entry := some (entryOf [0x07,8,0x40,0x40,26,0,1,0,0,0,0,0,0,0,0,0]) } : Change), ({ hand := 0, table := 1, key := 0x123400000000, entry := some (entryOf [128,1,0,0,0,0,0,0,0,0,0,0,0,0,0,1]) } : Change)], [], by decide +kernel⟩,
   ⟨{ up with tables := { up.tables with commit := { up.tables.commit with state := .preparing, prepared := false, batches := [[({ hand := 0, table := 4, key := 0x070840401A, entry := some (entryOf [0x07,8,0x40,0x40,26,0,1,0,0,0,0,0,0,0,0,0]) } : Change), ({ hand := 0, table := 1, key := 0x123400000000, entry := some (entryOf [128,1,0,0,0,0,0,0,0,0,0,0,0,0,0,1]) } : Change)]], since := 5, apply := 1199999999999 }, staged := [({ hand := 0, table := 4, key := 0x070840405A, entry := none } : Change)] } }, [({ hand := 0, table := 4, key := 0x070840401A, entry := some (entryOf [0x07,8,0x40,0x40,26,0,1,0,0,0,0,0,0,0,0,0]) } : Change), ({ hand := 0, table := 1, key := 0x123400000000, entry := some (entryOf [128,1,0,0,0,0,0,0,0,0,0,0,0,0,0,1]) } : Change)], [], by decide +kernel⟩,
   ⟨{ up with tables := { up.tables with commit := { up.tables.commit with state := .preparing, prepared := true, batches := [[({ hand := 0, table := 4, key := 0x070840401A, entry := some (entryOf [0x07,8,0x40,0x40,26,0,1,0,0,0,0,0,0,0,0,0]) } : Change), ({ hand := 0, table := 1, key := 0x123400000000, entry := some (entryOf [128,1,0,0,0,0,0,0,0,0,0,0,0,0,0,1]) } : Change)]], since := 399999000000, apply := 1199999999999 }, staged := [({ hand := 0, table := 4, key := 0x070840405A, entry := none } : Change)], shadow := batchShadow up [({ hand := 0, table := 4, key := 0x070840401A, entry := some (entryOf [0x07,8,0x40,0x40,26,0,1,0,0,0,0,0,0,0,0,0]) } : Change), ({ hand := 0, table := 1, key := 0x123400000000, entry := some (entryOf [128,1,0,0,0,0,0,0,0,0,0,0,0,0,0,1]) } : Change)] } }, [({ hand := 0, table := 4, key := 0x070840401A, entry := some (entryOf [0x07,8,0x40,0x40,26,0,1,0,0,0,0,0,0,0,0,0]) } : Change), ({ hand := 0, table := 1, key := 0x123400000000, entry := some (entryOf [128,1,0,0,0,0,0,0,0,0,0,0,0,0,0,1]) } : Change)], [], true, by decide +kernel⟩,
   ⟨{ up with tables := { up.tables with commit := { up.tables.commit with state := .switched, prepared := true, batches := [[({ hand := 0, table := 4, key := 0x070840401A, entry := some (entryOf [0x07,8,0x40,0x40,26,0,1,0,0,0,0,0,0,0,0,0]) } : Change), ({ hand := 0, table := 1, key := 0x123400000000, entry := some (entryOf [128,1,0,0,0,0,0,0,0,0,0,0,0,0,0,1]) } : Change)]], since := 399999000000, apply := 1199999999999 }, staged := [({ hand := 0, table := 4, key := 0x070840405A, entry := none } : Change)], shadow := batchShadow up [({ hand := 0, table := 4, key := 0x070840401A, entry := some (entryOf [0x07,8,0x40,0x40,26,0,1,0,0,0,0,0,0,0,0,0]) } : Change), ({ hand := 0, table := 1, key := 0x123400000000, entry := some (entryOf [128,1,0,0,0,0,0,0,0,0,0,0,0,0,0,1]) } : Change)], epoch := true } }, [({ hand := 0, table := 4, key := 0x070840401A, entry := some (entryOf [0x07,8,0x40,0x40,26,0,1,0,0,0,0,0,0,0,0,0]) } : Change), ({ hand := 0, table := 1, key := 0x123400000000, entry := some (entryOf [128,1,0,0,0,0,0,0,0,0,0,0,0,0,0,1]) } : Change)], by decide +kernel⟩,
   ⟨5, { withOps [{ op 5 0x0705 .running (.pipe .ta) with progress := 0, r1 := 0 }] with mem := ((up.mem.setEntry (wayAddr .ta 0 2) (heMake 0x0A0000000002 false false 0 5 1)).setEntry (wayAddr .ta 0 1) (heMake 0x0A0000000003 true true 0 5 1)).setEntry (wayAddr .ta 0 3) (heMake 0x0A0000000003 true true 3 5 1) }, { op 5 0x0705 .running (.pipe .ta) with progress := 0, r1 := 0 }, .ta, by decide +kernel⟩⟩

theorem test_witness_StreamsOutputsAndHandsRun :
    (∃ (sid : BitVec 16) (s : State) (x : Stream) (n : Nat) (h : Nat), streamOf s sid.toNat = some x ∧ frameRows x = some n ∧ inService s = true ∧ halted s 2 = false ∧ queueHand s x.queue.toNat = some h ∧ ((s.hand (Fin.ofNat 16 h)).state = .clean ∨ (s.hand (Fin.ofNat 16 h)).state = .faulted) ∧ handCells s h + cellsOf (streamPayload x (x.rows.take n)).length ≤ handQuota s h) ∧
    (∃ (sid : BitVec 16) (s : State) (x : Stream), s.mem.wf = true ∧ streamOf s sid.toNat = some x ∧ inService s = true ∧ x.closing ≠ none ∧ streamQueued s sid = true) ∧
    (∃ (sid : BitVec 16) (s : State) (x : Stream), s.mem.wf = true ∧ streamOf s sid.toNat = some x ∧ inService s = true ∧ x.closing ≠ none ∧ streamQueued s sid = false ∧ x.rows = []) ∧
    (∃ (n : Fin 24) (s : State) (v : PendOut) (rest : List PendOut), (s.chan n).pending = v :: rest ∧ s.clock.counter.toNat < v.at_.toNat) ∧
    (∃ (n : Fin 24) (s : State) (v : PendOut) (rest : List PendOut), (s.chan n).pending = v :: rest ∧ Tier.measure.rank ≤ s.tiers.tier.rank ∧ v.at_.toNat ≤ s.clock.counter.toNat ∧ halted s 6 = false ∧ (s.chan n).restrap = false) ∧
    (∃ (s : State) (e : Nat × QFrame) (rest : List (Nat × QFrame)), s.queues.heldOut = e :: rest ∧ shellRuns s = true ∧ halted s 2 = false ∧ heldFits s e = true) ∧
    (∃ (s : State) (e : Nat × QFrame) (rest : List (Nat × QFrame)), s.queues.heldOut = e :: rest ∧ shellRuns s = true ∧ halted s 2 = false ∧ heldFits s e = false) ∧
    (∃ (h : Fin 16) (s : State), halted s 2 = false ∧ (s.hand h).state = .resetting ∧ (s.hand h).resetInv ≠ 0) ∧
    (∃ (h : Fin 16) (s : State), halted s 2 = false ∧ (s.hand h).state = .resetting ∧ (s.hand h).resetInv = 0 ∧ liveOps s h = 0 ∧ responseOut s h.val 0x0303 = false) :=
  ⟨⟨0x4000, withStream { stream0 with rows := rows0 1199000000000 3 }, { stream0 with rows := rows0 1199000000000 3 }, 2, 0, by decide +kernel⟩,
   ⟨0x4000, { (withStream { stream0 with closing := some 5 }) with queues := { up.queues with frames := [(256, [{ qf 1 40 with sid := 0x4000 }])] } }, { stream0 with closing := some 5 }, by decide +kernel⟩,
   ⟨0x4000, withStream { stream0 with closing := some 5 }, { stream0 with closing := some 5 }, by decide +kernel⟩,
   ⟨12, up.onChan 12 fun c => { c with pending := [({ value := 120000, at_ := 1200000000001, accepted := 5, hand := 0 } : PendOut), ({ value := 120000, at_ := 1200000000006, accepted := 5, hand := 0 } : PendOut)] }, ({ value := 120000, at_ := 1200000000001, accepted := 5, hand := 0 } : PendOut), [({ value := 120000, at_ := 1200000000006, accepted := 5, hand := 0 } : PendOut)], by decide +kernel⟩,
   ⟨12, up.onChan 12 fun c => { c with pending := [({ value := 120000, at_ := 1200000000000, accepted := 5, hand := 0 } : PendOut), ({ value := 120000, at_ := 1200000000005, accepted := 5, hand := 0 } : PendOut)] }, ({ value := 120000, at_ := 1200000000000, accepted := 5, hand := 0 } : PendOut), [({ value := 120000, at_ := 1200000000005, accepted := 5, hand := 0 } : PendOut)], by decide +kernel⟩,
   ⟨{ up with queues := { up.queues with heldOut := [(33, qf 1 40), (32, qf 2 50)] } }, (33, qf 1 40), [(32, qf 2 50)], by decide +kernel⟩,
   ⟨{ up with queues := { up.queues with heldOut := [(33, qf 1 40), (32, qf 2 50)], frames := [(33, List.replicate 8 (qf 3 9))] } }, (33, qf 1 40), [(32, qf 2 50)], by decide +kernel⟩,
   ⟨0, { (up.onHand 0 fun h => { h with state := .resetting, resetInv := 1, evHead := 3, evCount := 2 }) with queues := { up.queues with frames := [(32, [qf 3 9]), (33, [qf 5 8]), (256, [qf 5 8])] } }, by decide +kernel⟩,
   ⟨0, { (up.onHand 0 fun h => { h with state := .resetting, evHead := 3, evCount := 2 }) with queues := { up.queues with frames := [(32, [qf 3 9]), (33, [qf 5 8]), (256, [qf 5 8])] } }, by decide +kernel⟩⟩

theorem test_witness_MemorySweepsItself :
    (∃ (s : State), shellRuns s = true ∧ halted s 4 = false) ∧
    (∃ (s : State) (_e : SweepObs), inService s = true ∧ halted s 4 = false ∧ s.mem.wakeScrub = false ∧ sweepOp s = none ∧ since s s.mem.sweepAt < 30000) ∧
    (∃ (s : State) (e : SweepObs), inService s = true ∧ halted s 4 = false ∧ s.mem.wakeScrub = false ∧ sweepOp s = none ∧ 30000 ≤ since s s.mem.sweepAt ∧ s.mem.sweep < 262144 ∧ works s (.group (Fin.ofNat 8 (s.mem.sweep / 32768))) = true ∧ e.ecc.corrected = [] ∧ e.ecc.poisoned = []) ∧
    (∃ (s : State) (e : SweepObs) (o : Op) (r : Nat), inService s = true ∧ halted s 4 = false ∧ halted s 3 = false ∧ s.mem.wakeScrub = false ∧ sweepOp s = some o ∧ opOf s o.handle.toNat = some o ∧ o.cancelPending = false ∧ o.suspendPending = false ∧ s.mem.fast = some r ∧ r % 32768 + 1 < 32768 ∧ r < 262143 ∧ works s (.group (Fin.ofNat 8 (r / 32768))) = true ∧ e.ecc.corrected = [] ∧ e.ecc.poisoned = [] ∧ e.march = false ∧ since s s.mem.sweepAt < 600) ∧
    (∃ (s : State) (e : SweepObs) (o : Op) (r : Nat), inService s = true ∧ halted s 4 = false ∧ halted s 3 = false ∧ s.mem.wakeScrub = false ∧ sweepOp s = some o ∧ opOf s o.handle.toNat = some o ∧ o.cancelPending = false ∧ o.suspendPending = false ∧ s.mem.fast = some r ∧ r % 32768 + 1 < 32768 ∧ r < 262143 ∧ works s (.group (Fin.ofNat 8 (r / 32768))) = true ∧ e.ecc.corrected = [] ∧ e.ecc.poisoned = [] ∧ e.march = false ∧ 600 ≤ since s s.mem.sweepAt) ∧
    (∃ (s : State), s.mem.wakeScrub = true ∧ since s s.supply.coreAt < 524288) ∧
    (∃ (s : State), s.mem.wakeScrub = true ∧ 524288 ≤ since s s.supply.coreAt) :=
  ⟨⟨{ up with mem := { up.mem with scrub := [3, 4] } }, by decide +kernel⟩,
   ⟨{ up with mem := { up.mem with sweep := 7, sweepAt := 399999999999 } }, { ecc := { corrected := [], poisoned := [] }, march := true, retest := true }, by decide +kernel⟩,
   ⟨{ up with mem := { up.mem with sweep := 0, sweepAt := 5 } }, { ecc := { corrected := [], poisoned := [] }, march := false, retest := false }, by decide +kernel⟩,
   ⟨{ withOps [op 5 0x0F02 .running .sweep] with mem := { up.mem with fast := some 5, sweepAt := 399999999999 } }, { ecc := { corrected := [], poisoned := [] }, march := false, retest := false }, op 5 0x0F02 .running .sweep, 5, by decide +kernel⟩,
   ⟨{ withOps [op 5 0x0F02 .running .sweep] with mem := { up.mem with fast := some 5, sweepAt := 5 } }, { ecc := { corrected := [], poisoned := [] }, march := false, retest := false }, op 5 0x0F02 .running .sweep, 5, by decide +kernel⟩,
   ⟨{ ({ up with mem := { up.mem with wakeScrub := true } }) with supply := { up.supply with coreAt := 399999900000 } }, by decide +kernel⟩,
   ⟨{ up with mem := { up.mem with wakeScrub := true } }, by decide +kernel⟩⟩

theorem test_witness_TerminalsLoopSuppliesAndRoles :
    (∃ (ft : Fin 96) (s : State), s.supply.good.contains .van = true ∧ (s.chan (termChan ft)).disc.length = 4 ∧ (s.chan (termChan ft)).disc.getD (ft.val % 4) false = false) ∧
    (∃ (ft : Fin 96) (s : State) (p : BitVec 8), s.supply.good.contains .van = true ∧ (s.chan (termChan ft)).disc.getD (ft.val % 4) false = true ∧ shellRuns s = true ∧ (s.chan (termChan ft)).profile = some p ∧ Tier.measure.rank ≤ s.tiers.tier.rank ∧ capped (s.chan (termChan ft)) = false ∧ (s.chan (termChan ft)).restrap = false ∧ (s.chan (termChan ft)).roleStep = none) ∧
    (∃ (n : Fin 24) (s : State), hasLoop (s.chan n) = true ∧ (s.chan n).sources = true ∧ (s.chan n).folded = false) ∧
    (∃ (n : Fin 24) (s : State), (s.chan n).folded = true) ∧
    (∃ (n : Fin 24) (s : State) (p : BitVec 8), (s.chan n).profile = some p ∧ isTwin s = true ∧ isInput p = true ∧ Tier.measure.rank ≤ s.tiers.tier.rank ∧ (s.chan n).roleStep = none ∧ (s.chan n).caught = false ∧ (s.chan n).active ≠ s.seat.lead ∧ capped (s.chan n) = false ∧ (s.chan n).restrap = false ∧ atTrick s = false) ∧
    (∃ (n : Fin 24) (s : State) (p : BitVec 8), (s.chan n).profile = some p ∧ isTwin s = true ∧ isInput p = true ∧ Tier.measure.rank ≤ s.tiers.tier.rank ∧ (s.chan n).roleStep = none ∧ (s.chan n).caught = false ∧ (s.chan n).active ≠ s.seat.lead ∧ capped (s.chan n) = false ∧ (s.chan n).restrap = false ∧ atTrick s = true) ∧
    (∃ (n : Fin 24) (s : State) (b : Bool) (e : Tick), (s.chan n).roleStep = some (b, e) ∧ s.clock.age.toNat < e.toNat) ∧
    (∃ (n : Fin 24) (s : State) (b : Bool) (e : Tick), (s.chan n).roleStep = some (b, e) ∧ e.toNat ≤ s.clock.age.toNat) :=
  ⟨⟨0, up, by decide +kernel⟩,
   ⟨0, up.onChan 0 fun c => { c with disc := [true, false, false, false], sources := false, shunt := false, checks := false }, 0x00, by decide +kernel⟩,
   ⟨0, up, by decide +kernel⟩,
   ⟨0, up.onChan 0 fun c => { c with folded := true }, by decide +kernel⟩,
   ⟨0, { (({ up with straps := { up.straps with codes := nodeCodes 1 }, seat := { up.seat with lead := true } }).onChan 0 fun c => { c with active := false }) with clock := offTrick.clock }, 0x00, by decide +kernel⟩,
   ⟨0, ({ up with straps := { up.straps with codes := nodeCodes 1 }, seat := { up.seat with lead := true } }).onChan 0 fun c => { c with active := false }, 0x00, by decide +kernel⟩,
   ⟨0, up.onChan 0 fun c => { c with roleStep := some (false, 400000000001), stale := [(1, 1199999000000, none)] }, false, 400000000001, by decide +kernel⟩,
   ⟨0, up.onChan 0 fun c => { c with roleStep := some (false, 400000000000), stale := [(1, 1199999000000, none)] }, false, 400000000000, by decide +kernel⟩⟩

theorem test_witness_SamplesFollowTheRangingState :
    (∃ (n : Fin 24) (p : BitVec 8) (s : State) (e : SampleObs), (s.chan n).profile = some p ∧ isCjRef s n = false ∧ ((∃ l, (s.chan n).lastInstant = some l ∧ e.conv.instant.toNat ≤ l.toNat) ∨ s.tiers.tier.rank < Tier.measure.rank ∨ s.clock.counter.toNat < e.conv.instant.toNat + readySpan p + 3000)) ∧
    (∃ (n : Fin 24) (p : BitVec 8) (s : State) (e : SampleObs), SampleDue s n p e ∧ s.mem.wf = true ∧ isInput p = true ∧ (s.chan n).buffer.length ≤ 4) ∧
    (∃ (n : Fin 24) (p : BitVec 8) (s : State) (e : SampleObs), SampleDue s n p e ∧ s.mem.wf = true ∧ isInput p = true ∧ lookAhead p = false ∧ cpaOf p ∈ [0, 1, 3, 4] ∧ Fresh s n e e.conv.instant ∧ (s.chan n).ranging ∈ [.fine, .coarse]) ∧
    (∃ (n : Fin 24) (p : BitVec 8) (s : State) (e : SampleObs) (k : Conv) (r : List Conv), SampleDue s n p e ∧ s.mem.wf = true ∧ isInput p = true ∧ lookAhead p = true ∧ cpaOf p ∈ [0, 1, 3, 4] ∧ (s.chan n).buffer = k :: r ∧ r.length = 3 ∧ Fresh s n e k.instant ∧ (s.chan n).ranging = .fine ∧ convTrigger e.conv (coarseFs p) = true ∧ k.coarseOvl = false ∧ (readable p).1 ≤ k.coarse ∧ k.coarse ≤ (readable p).2) ∧
    (∃ (n : Fin 24) (p : BitVec 8) (s : State) (e : SampleObs), SampleDue s n p e ∧ s.mem.wf = true ∧ isOutput p = true) ∧
    (∃ (n : Fin 24) (s : State) (e : SampleObs), (s.chan n).profile ≠ none ∧ isCjRef s n = true ∧ Tier.measure.rank ≤ s.tiers.tier.rank ∧ (∀ l, (s.chan n).lastInstant = some l → l.toNat < e.conv.instant.toNat) ∧ e.conv.instant.toNat % 300000000 = (s.chan n).grid.getD 0 ∧ e.conv.instant.toNat + 450003000 ≤ s.clock.counter.toNat ∧ halted s 6 = false ∧ (s.chan n).rekindle = none ∧ (s.chan n).sensorOpen = false ∧ e.excLimit = false ∧ -50000 ≤ e.cj ∧ e.cj ≤ 150000) :=
  ⟨⟨1, 0x38, up, obsOf (convOf 1200000000000 0 0), by decide +kernel, by decide +kernel, .inr (.inr (by decide +kernel))⟩,
   ⟨0, 0x00, up, obsOf (convOf (instOf 0x00 3) 100000 (100000)), ⟨by decide +kernel, by decide +kernel, by decide +kernel, by decide +kernel, (fun l h => nomatch (show (none : Option Tick) = some l from h)), by decide +kernel, by decide +kernel, by decide +kernel⟩, by decide +kernel, by decide +kernel, by decide +kernel⟩,
   ⟨1, 0x38, up.onChan 1 fun c => { c with ranging := .fine }, obsOf (convOf (instOf 0x38 3) (100000) (100000)), ⟨by decide +kernel, by decide +kernel, by decide +kernel, by decide +kernel, (fun l h => nomatch (show (none : Option Tick) = some l from h)), by decide +kernel, by decide +kernel, by decide +kernel⟩, by decide +kernel, by decide +kernel, by decide +kernel, by decide +kernel, ⟨by decide +kernel, by decide +kernel, by decide +kernel, by decide +kernel, by decide +kernel⟩, by decide +kernel⟩,
   ⟨0, 0x00, up.onChan 0 fun c => { c with buffer := [convOf (instOf 0x00 6) 5 6, convOf (instOf 0x00 5) 9 9, convOf (instOf 0x00 4) 9 9, convOf (instOf 0x00 3) 9 9] }, obsOf (convOf (instOf 0x00 2) 200000 (200000)), convOf (instOf 0x00 6) 5 6, [convOf (instOf 0x00 5) 9 9, convOf (instOf 0x00 4) 9 9, convOf (instOf 0x00 3) 9 9], ⟨by decide +kernel, by decide +kernel, by decide +kernel, by decide +kernel, (fun l h => nomatch (show (none : Option Tick) = some l from h)), by decide +kernel, by decide +kernel, by decide +kernel⟩, by decide +kernel, by decide +kernel, by decide +kernel, by decide +kernel, by decide +kernel, by decide +kernel, ⟨by decide +kernel, by decide +kernel, by decide +kernel, by decide +kernel, by decide +kernel⟩, by decide +kernel, by decide +kernel, by decide +kernel, by decide +kernel, by decide +kernel⟩,
   ⟨12, 0xB0, up.onChan 12 fun c => { c with readings := [] }, obsOf (convOf (instOf 0xB0 3) 100000 (100000)), ⟨by decide +kernel, by decide +kernel, by decide +kernel, by decide +kernel, (fun l h => nomatch (show (none : Option Tick) = some l from h)), by decide +kernel, by decide +kernel, by decide +kernel⟩, by decide +kernel, by decide +kernel⟩,
   ⟨23, ({ up with straps := { up.straps with codes := up.straps.codes.set pinRoute (.code 1) } }).onChan 23 fun _ => inChan 0x7A, obsOf (convOf 1199400000000 0 0), by decide +kernel, by decide +kernel, by decide +kernel, (by intro l h; have h2 : none = some l := h; cases h2), by decide +kernel, by decide +kernel, by decide +kernel, by decide +kernel, by decide +kernel, by decide +kernel, by decide +kernel, by decide +kernel⟩⟩

theorem test_witness_BlanksReferenceLossAndCurveSwitch :
    (∃ (k : Fin 4) (s : State), shellRuns s = true ∧ s.supply.blank[k].1 = false) ∧
    (∃ (k : Fin 4) (s : State), shellRuns s = true ∧ s.supply.blank[k].1 = true) ∧
    (∃ (k : Fin 4) (s : State), shellRuns s = true ∧ s.supply.blank[k].1 = true ∧ s.supply.blank[k].2.2.1 = false ∧ since s s.supply.blank[k].2.1 < 30000000) ∧
    (∃ (k : Fin 4) (s : State), shellRuns s = true ∧ s.supply.blank[k].1 = true ∧ s.supply.blank[k].2.2.1 = false ∧ 30000000 ≤ since s s.supply.blank[k].2.1) ∧
    (∃ (k : Fin 4) (s : State), shellRuns s = true ∧ s.supply.blank[k].1 = false ∧ s.supply.blank[k].2.2.1 = true ∧ since s s.supply.blank[k].2.2.2 < 589824) ∧
    (∃ (k : Fin 4) (s : State), shellRuns s = true ∧ s.supply.blank[k].1 = false ∧ s.supply.blank[k].2.2.1 = true ∧ 589824 ≤ since s s.supply.blank[k].2.2.2) ∧
    (∃ (s : State), s.supply.cjLost = true ∧ s.supply.cjStale = false ∧ since s s.supply.cjLostAt < 30000000000) ∧
    (∃ (s : State), s.supply.cjLost = true ∧ s.supply.cjStale = false ∧ 30000000000 ≤ since s s.supply.cjLostAt) ∧
    (∃ (k : Fin 16) (s : State) (old : List Byte) (new : List Byte), s.vault.look (.curve k) = .data new ∧ s.straps.curveUse.filter (fun e => e.1 = k) = [(k, old, none)] ∧ atTrick s = false) ∧
    (∃ (k : Fin 16) (s : State) (old : List Byte) (new : List Byte), s.vault.look (.curve k) = .data new ∧ s.straps.curveUse.filter (fun e => e.1 = k) = [(k, old, none)] ∧ atTrick s = true) :=
  ⟨⟨0, { up with supply := { up.supply with blank := Vector.replicate 4 (false, 5, false, 7), blanks := Vector.replicate 4 [(3, some 7)] } }, by decide +kernel⟩,
   ⟨0, { up with supply := { up.supply with blank := Vector.replicate 4 (true, 5, false, 7), blanks := Vector.replicate 4 [(1199999000000, none)] } }, by decide +kernel⟩,
   ⟨0, { up with supply := { up.supply with blank := Vector.replicate 4 (true, 399999999999, false, 7), blanks := Vector.replicate 4 [(1199999000000, none)] } }, by decide +kernel⟩,
   ⟨0, { up with supply := { up.supply with blank := Vector.replicate 4 (true, 5, false, 7), blanks := Vector.replicate 4 [(1199999000000, none)] } }, by decide +kernel⟩,
   ⟨0, { up with supply := { up.supply with blank := Vector.replicate 4 (false, 5, true, 399999999999), blanks := Vector.replicate 4 [] } }, by decide +kernel⟩,
   ⟨0, { up with supply := { up.supply with blank := Vector.replicate 4 (false, 5, true, 7), blanks := Vector.replicate 4 [] } }, by decide +kernel⟩,
   ⟨{ up with supply := { up.supply with cjLost := true, cjLostAt := 370000000001 } }, by decide +kernel⟩,
   ⟨{ up with supply := { up.supply with cjLost := true, cjLostAt := 370000000000 } }, by decide +kernel⟩,
   ⟨5, { ({ up with vault := { nodeVault with recs := (.curve 5, vrec ([1, 2, 3])) :: nodeVault.recs }, straps := { up.straps with curveUse := [(4, [1], none), (5, [7, 8], none)] } }) with clock := offTrick.clock }, [7, 8], [1, 2, 3], by decide +kernel⟩,
   ⟨5, { up with vault := { nodeVault with recs := (.curve 5, vrec ([1, 2, 3])) :: nodeVault.recs }, straps := { up.straps with curveUse := [(4, [1], none), (5, [7, 8], none)] } }, [7, 8], [1, 2, 3], by decide +kernel⟩⟩

theorem test_witness_ReadbackJudgesTheOutput :
    (∃ (n : Fin 24) (s : State), shellRuns s = true ∧ isOutChan (s.chan n) = true ∧ (s.chan n).checks = false ∧ (s.chan n).disc.contains true = false ∧ s.clock.age.toNat < (s.chan n).settleEnd.toNat) ∧
    (∃ (n : Fin 24) (s : State), shellRuns s = true ∧ isOutChan (s.chan n) = true ∧ (s.chan n).checks = false ∧ (s.chan n).disc.contains true = false ∧ (s.chan n).settleEnd.toNat ≤ s.clock.age.toNat) ∧
    (∃ (n : Fin 24) (p : BitVec 8) (_r : Readback) (s : State), ReadbackDue s n p) :=
  ⟨⟨12, up.onChan 12 fun c => { c with checks := false, settleEnd := 400000000001 }, by decide +kernel⟩,
   ⟨12, up.onChan 12 fun c => { c with checks := false, settleEnd := 400000000000 }, by decide +kernel⟩,
   ⟨12, 0xB0, { own := 100000, total := 100000, load := 100000, atLimit := false, atCurrentLimit := false }, up.onChan 12 fun c => { c with checks := false }, ⟨by decide +kernel, by decide +kernel, by decide +kernel, by decide +kernel, (fun e r h => nomatch (show ([] : List (Tick × Int)) = e :: r from h)), by decide +kernel⟩⟩⟩

theorem test_witness_TrimStepsWaitAndApply :
    (∃ (n : Fin 24) (_v : Int) (s : State) (o : Op), trimOn s n = some o ∧ opOf s o.handle.toNat = some o ∧ o.state = .running ∧ (o.progress = 2 ∨ o.progress = 4) ∧ halted s 3 = false ∧ o.suspendPending = false ∧ s.clock.age.toNat < (s.chan n).settleEnd.toNat + 4000000) ∧
    (∃ (n : Fin 24) (_v : Int) (s : State) (o : Op), trimOn s n = some o ∧ opOf s o.handle.toNat = some o ∧ o.state = .running ∧ (o.progress = 2 ∨ o.progress = 4) ∧ halted s 3 = false ∧ o.suspendPending = false ∧ (s.chan n).settleEnd.toNat + 4000000 ≤ s.clock.age.toNat) ∧
    (∃ (h : BitVec 16) (s : State) (o : Op) (n : Fin 24), opOf s h.toNat = some o ∧ o.opcode = 0x0D01 ∧ o.object = .chan n ∧ o.state = .running ∧ o.reason = 3 ∧ o.timing = true ∧ halted s 3 = false ∧ (s.engine.ops.map (·.handle)).Nodup ∧ (s.engine.ops.filter fun x => !x.state.live).length < 64 ∧ since s o.since ≤ 180000000000) ∧
    (∃ (h : BitVec 16) (s : State) (o : Op) (n : Fin 24), opOf s h.toNat = some o ∧ o.opcode = 0x0D01 ∧ o.object = .chan n ∧ o.state = .running ∧ o.reason = 3 ∧ o.timing = true ∧ halted s 3 = false ∧ (s.engine.ops.map (·.handle)).Nodup ∧ (s.engine.ops.filter fun x => !x.state.live).length < 64 ∧ 180000000000 < since s o.since) ∧
    (∃ (n : Fin 24) (s : State), (atTrick s = false ∨ sparseGet s.vault.trimOld n.val = none)) ∧
    (∃ (n : Fin 24) (s : State) (old : List Byte) (new : List Byte), atTrick s = true ∧ sparseGet s.vault.trimOld n.val = some old ∧ s.vault.look (.trim n) = .data new) :=
  ⟨⟨12, 100100, (withOps [{ op 5 0x0D01 .running (.chan 12) with progress := 2 }]).onChan 12 fun c => { c with inTrim := true, settleEnd := 399996000001 }, { op 5 0x0D01 .running (.chan 12) with progress := 2 }, by decide +kernel⟩,
   ⟨12, 100100, (withOps [{ op 5 0x0D01 .running (.chan 12) with progress := 2 }]).onChan 12 fun c => { c with inTrim := true, settleEnd := 5 }, { op 5 0x0D01 .running (.chan 12) with progress := 2 }, by decide +kernel⟩,
   ⟨5, (withOps [op 4 1 .done .sweep, { op 5 0x0D01 .running (.chan 12) with progress := 2, reason := 3, timing := true, before := 77, since := 220000000000 }]).onChan 12 fun c => { c with inTrim := true }, { op 5 0x0D01 .running (.chan 12) with progress := 2, reason := 3, timing := true, before := 77, since := 220000000000 }, 12, by decide +kernel⟩,
   ⟨5, (withOps [op 4 1 .done .sweep, { op 5 0x0D01 .running (.chan 12) with progress := 2, reason := 3, timing := true, before := 77, since := 219999999999 }]).onChan 12 fun c => { c with inTrim := true }, { op 5 0x0D01 .running (.chan 12) with progress := 2, reason := 3, timing := true, before := 77, since := 219999999999 }, 12, by decide +kernel⟩,
   ⟨12, up, by decide +kernel⟩,
   ⟨12, { up with vault := { nodeVault with recs := (.trim 12, vrec (beBytes 4 1000000 ++ beBytes 4 1000000 ++ zeros 8 ++ beBytes 4 36100 ++ beBytes 4 216100)) :: nodeVault.recs, trimOld := [(12, beBytes 4 1000000 ++ beBytes 4 1000000 ++ zeros 8 ++ beBytes 4 36000 ++ beBytes 4 216000)] } }, beBytes 4 1000000 ++ beBytes 4 1000000 ++ zeros 8 ++ beBytes 4 36000 ++ beBytes 4 216000, beBytes 4 1000000 ++ beBytes 4 1000000 ++ zeros 8 ++ beBytes 4 36100 ++ beBytes 4 216100, by decide +kernel⟩⟩

theorem test_witness_CommandsThatReadAnswerWhatTheyRead :
    (∃ (f : CmdFrame) (s : State), Accepted statReadCmd f s) ∧
    (∃ (f : CmdFrame) (s : State), Accepted statCountCmd f s) ∧
    (∃ (f : CmdFrame) (s : State), Accepted evReadCmd f s) ∧
    (∃ (f : CmdFrame) (s : State), Accepted qReadCmd f s) ∧
    (∃ (f : CmdFrame) (s : State), Accepted opStatusCmd f s) ∧
    (∃ (f : CmdFrame) (s : State), Accepted wardReadCmd f s) ∧
    (∃ (f : CmdFrame) (s : State), Accepted phySnrCmd f s) :=
  ⟨⟨cmd up 0 0 0x0101 ([]), given (up) (cmd up 0 0 0x0101 ([])), ⟨by decide +kernel, by decide +kernel, by decide +kernel, by decide +kernel⟩⟩,
   ⟨cmd up 0 0 0x0102 ([0x20, 0, 2, 5, 3]), given (up) (cmd up 0 0 0x0102 ([0x20, 0, 2, 5, 3])), ⟨by decide +kernel, by decide +kernel, by decide +kernel, by decide +kernel⟩⟩,
   ⟨cmd up 0 0 0x0201 ([0, 32]), given ({ (up.onHand 0 fun h => { h with evHead := 0, evCount := 0, lost := 0 }) with mem := up.mem.writeN (eventBase 0 + 32 * 3) (zeros 64 ++ [7, 8, 9]), queues := { up.queues with evHead := 4090, evCount := 9 } }) (cmd up 0 0 0x0201 ([0, 32])), ⟨by decide +kernel, by decide +kernel, by decide +kernel, by decide +kernel⟩⟩,
   ⟨cmd up 0 0 0x0401 ([1, 0, 0]), given ({ up with queues := { up.queues with settings := [(256, { cls := 2, rate := 100, paused := true, credit := 9 })], frames := [(256, [qf 1 40, qf 2 50])] } }) (cmd up 0 0 0x0401 ([1, 0, 0])), ⟨by decide +kernel, by decide +kernel, by decide +kernel, by decide +kernel⟩⟩,
   ⟨cmd up 0 0 0x1401 ([0, 5]), given (withOps [op 4 0x0F02 .done .sweep, { op 5 0x0D01 .running (.chan 12) with progress := 9, reason := 3 }]) (cmd up 0 0 0x1401 ([0, 5])), ⟨by decide +kernel, by decide +kernel, by decide +kernel, by decide +kernel⟩⟩,
   ⟨cmd up 0 0 0x1104 ([0]), given (up) (cmd up 0 0 0x1104 ([0])), ⟨by decide +kernel, by decide +kernel, by decide +kernel, by decide +kernel⟩⟩,
   ⟨cmd up 0 0 0x0C04 ([0]), given (up.onPort .ta fun q => { q with snr := snr20 }) (cmd up 0 0 0x0C04 ([0])), ⟨by decide +kernel, by decide +kernel, by decide +kernel, by decide +kernel⟩⟩⟩

theorem test_witness_HandsQueuesAndOperationsObeyTheirCommands :
    (∃ (f : CmdFrame) (s : State), Accepted evAckCmd f s) ∧
    (∃ (f : CmdFrame) (s : State), Accepted handClaimCmd f s) ∧
    (∃ (f : CmdFrame) (s : State), Accepted handStationsCmd f s) ∧
    (∃ (f : CmdFrame) (s : State), Accepted handResetCmd f s ∧ let h : Fin 16 := Fin.ofNat 16 (bodyByte f 0); sessionOf s h = false) ∧
    (∃ (f : CmdFrame) (s : State), Accepted qSetCmd f s) ∧
    (∃ (f : CmdFrame) (s : State), Accepted opSuspendCmd f s) ∧
    (∃ (f : CmdFrame) (s : State), Accepted opResumeCmd f s) ∧
    (∃ (f : CmdFrame) (s : State), Accepted opCancelCmd f s ∧ (s.engine.ops.map (·.handle)).Nodup ∧ (s.engine.ops.filter fun x => !x.state.live).length < 64) :=
  ⟨⟨cmd up 0 0 0x0202 ([0, 1]), given ({ (up.onHand 0 fun h => { h with evHead := 3, evCount := 2, lost := 0 }) with mem := up.mem.writeN (eventBase 0 + 32 * 3) (zeros 64 ++ [7, 8, 9]), queues := { up.queues with evHead := 4090, evCount := 9 } }) (cmd up 0 0 0x0202 ([0, 1])), ⟨by decide +kernel, by decide +kernel, by decide +kernel, by decide +kernel⟩⟩,
   ⟨cmd up 0 0 0x0301 ([]), given (up) (cmd up 0 0 0x0301 ([])), ⟨by decide +kernel, by decide +kernel, by decide +kernel, by decide +kernel⟩⟩,
   ⟨cmd up 0 0 0x0302 (beBytes 6 0x0A0000000005 ++ [0, 1] ++ beBytes 6 0 ++ beBytes 6 0 ++ beBytes 6 0), given (up) (cmd up 0 0 0x0302 (beBytes 6 0x0A0000000005 ++ [0, 1] ++ beBytes 6 0 ++ beBytes 6 0 ++ beBytes 6 0)), ⟨by decide +kernel, by decide +kernel, by decide +kernel, by decide +kernel⟩⟩,
   ⟨cmd up 0 0 0x0303 ([0]), given (withStream { stream0 with hand := 1 }) (cmd up 0 0 0x0303 ([0])), ⟨by decide +kernel, by decide +kernel, by decide +kernel, by decide +kernel⟩, by decide +kernel⟩,
   ⟨cmd up 0 0 0x0402 ([1, 0, 0x60, 0, 1, 0]), given ({ up with queues := { up.queues with settings := [(256, { cls := 2, rate := 100, paused := true, credit := 9 })], frames := [(256, [qf 1 40, qf 2 50])] } }) (cmd up 0 0 0x0402 ([1, 0, 0x60, 0, 1, 0])), ⟨by decide +kernel, by decide +kernel, by decide +kernel, by decide +kernel⟩⟩,
   ⟨cmd up 0 0 0x1402 ([0, 5]), given (withOps [op 4 0x0F02 .done .sweep, { op 5 0x0F02 .queued .sweep with progress := 3 }]) (cmd up 0 0 0x1402 ([0, 5])), ⟨by decide +kernel, by decide +kernel, by decide +kernel, by decide +kernel⟩⟩,
   ⟨cmd up 0 0 0x1403 ([0, 5]), given (withOps [op 4 0x0F02 .done .sweep, { op 5 0x0F02 .suspended .sweep with progress := 3, reason := 4 }]) (cmd up 0 0 0x1403 ([0, 5])), ⟨by decide +kernel, by decide +kernel, by decide +kernel, by decide +kernel⟩⟩,
   ⟨cmd up 0 0 0x1404 ([0, 5]), given (withOps [op 4 0x0F02 .done .sweep, { op 5 0x0F02 .suspended .sweep with progress := 3, reason := 4 }]) (cmd up 0 0 0x1404 ([0, 5])), ⟨by decide +kernel, by decide +kernel, by decide +kernel, by decide +kernel⟩, by decide +kernel, by decide +kernel⟩⟩

theorem test_witness_StreamsAndOutputsTakeTheirCommands :
    (∃ (f : CmdFrame) (s : State), Accepted subOpenCmd f s ∧ s.mem.wf = true ∧ s.clock.counter.toNat < 2 ^ 63 ∧ soStart f < 2 ^ 63) ∧
    (∃ (f : CmdFrame) (s : State), Accepted subCloseCmd f s) ∧
    (∃ (f : CmdFrame) (s : State), Accepted outSetCmd f s ∧ (s.chan (chanArg f)).restrap = false ∧ osTick f < 2 ^ 64) ∧
    (∃ (f : CmdFrame) (s : State), Accepted outAlarmdirCmd f s) :=
  ⟨⟨cmd up 0 0 0x0501 (beBytes 2 256 ++ beBytes 2 0 ++ beBytes 3 2 ++ [1] ++ beBytes 2 3 ++ beBytes 2 4 ++ beBytes 4 500 ++ beBytes 8 0), given (up) (cmd up 0 0 0x0501 (beBytes 2 256 ++ beBytes 2 0 ++ beBytes 3 2 ++ [1] ++ beBytes 2 3 ++ beBytes 2 4 ++ beBytes 4 500 ++ beBytes 8 0)), ⟨by decide +kernel, by decide +kernel, by decide +kernel, by decide +kernel⟩, by decide +kernel, by decide +kernel, by decide +kernel⟩,
   ⟨cmd up 0 0 0x0502 ([0x40, 0]), given (withStream stream0) (cmd up 0 0 0x0502 ([0x40, 0])), ⟨by decide +kernel, by decide +kernel, by decide +kernel, by decide +kernel⟩⟩,
   ⟨cmd up 0 0 0x0601 ([12] ++ beBytes 3 125000 ++ beBytes 8 0), given (up) (cmd up 0 0 0x0601 ([12] ++ beBytes 3 125000 ++ beBytes 8 0)), ⟨by decide +kernel, by decide +kernel, by decide +kernel, by decide +kernel⟩, by decide +kernel, by decide +kernel⟩,
   ⟨cmd up 0 0 0x0602 ([12, 0]), given (up) (cmd up 0 0 0x0602 ([12, 0])), ⟨by decide +kernel, by decide +kernel, by decide +kernel, by decide +kernel⟩⟩⟩

theorem test_witness_TableCommandsSearchStageAndCommit :
    (∃ (f : CmdFrame) (s : State), Accepted tblSearchCmd f s) ∧
    (∃ (f : CmdFrame) (s : State), Accepted tblNextCmd f s) ∧
    (∃ (f : CmdFrame) (s : State), Accepted tblAddCmd f s ∧ s.mem.wf = true) ∧
    (∃ (f : CmdFrame) (s : State), Accepted tblDelCmd f s) ∧
    (∃ (f : CmdFrame) (s : State), Accepted tblFlushPortCmd f s ∧ s.engine.ops.length ≤ 80) ∧
    (∃ (f : CmdFrame) (s : State), Accepted tblCommitCmd f s ∧ let mine := s.tables.staged.filter fun c => c.hand == f.hand; mine.length ≤ 4096) :=
  ⟨⟨cmd up 0 0 0x0701 ([1, 0] ++ zeros 6 ++ beBytes 8 0xFFFF), given ({ up with tables := { up.tables with prefixes := [ownPrefix 0x07084440, learnedPrefix 0x07080040 5 9 .ta], policers := [(1, entryOf [128, 0, 0, 100, 0, 0, 3, 0, 0, 0, 2, 200, 0, 0, 0, 9])] }, mem := ((up.mem.setEntry (wayAddr .ta (bucketOf 0 0x0A0000000002) 2) (heMake 0x0A0000000002 false false 0 5 (bucketOf 0 0x0A0000000002))).setEntry (wayAddr .tb (bucketOf 0 0x0A0000000003) 0) (heMake 0x0A0000000003 true false 0 5 (bucketOf 0 0x0A0000000003))).setEntry (16 * 0x1234) (entryOf ([0x81] ++ zeros 15)) }) (cmd up 0 0 0x0701 ([1, 0] ++ zeros 6 ++ beBytes 8 0xFFFF)), ⟨by decide +kernel, by decide +kernel, by decide +kernel, by decide +kernel⟩⟩,
   ⟨cmd up 0 0 0x0702 ([1] ++ zeros 7 ++ [5]), given ({ up with tables := { up.tables with prefixes := [ownPrefix 0x07084440, learnedPrefix 0x07080040 5 9 .ta], policers := [(1, entryOf [128, 0, 0, 100, 0, 0, 3, 0, 0, 0, 2, 200, 0, 0, 0, 9])] }, mem := ((up.mem.setEntry (wayAddr .ta (bucketOf 0 0x0A0000000002) 2) (heMake 0x0A0000000002 false false 0 5 (bucketOf 0 0x0A0000000002))).setEntry (wayAddr .tb (bucketOf 0 0x0A0000000003) 0) (heMake 0x0A0000000003 true false 0 5 (bucketOf 0 0x0A0000000003))).setEntry (16 * 0x1234) (entryOf ([0x81] ++ zeros 15)) }) (cmd up 0 0 0x0702 ([1] ++ zeros 7 ++ [5])), ⟨by decide +kernel, by decide +kernel, by decide +kernel, by decide +kernel⟩⟩,
   ⟨cmd up 0 0 0x0703 ([1, 0] ++ beBytes 2 8738 ++ zeros 4 ++ ([0x81, 0] ++ zeros 14)), given ({ up with tables := { up.tables with prefixes := [ownPrefix 0x07084440, learnedPrefix 0x07080040 5 9 .ta], policers := [(1, entryOf [128, 0, 0, 100, 0, 0, 3, 0, 0, 0, 2, 200, 0, 0, 0, 9])] }, mem := ((up.mem.setEntry (wayAddr .ta (bucketOf 0 0x0A0000000002) 2) (heMake 0x0A0000000002 false false 0 5 (bucketOf 0 0x0A0000000002))).setEntry (wayAddr .tb (bucketOf 0 0x0A0000000003) 0) (heMake 0x0A0000000003 true false 0 5 (bucketOf 0 0x0A0000000003))).setEntry (16 * 0x1234) (entryOf ([0x81] ++ zeros 15)) }) (cmd up 0 0 0x0703 ([1, 0] ++ beBytes 2 8738 ++ zeros 4 ++ ([0x81, 0] ++ zeros 14))), ⟨by decide +kernel, by decide +kernel, by decide +kernel, by decide +kernel⟩, by decide +kernel⟩,
   ⟨cmd up 0 0 0x0704 ([1, 0] ++ zeros 6 ++ beBytes 8 0x1234), given ({ up with tables := { up.tables with prefixes := [entryOf ((beBytes 4 0x07084000 ++ [0x80 + 20, 1] ++ zeros 10)), ownPrefix 0x07084440, learnedPrefix 0x07080040 5 9 .ta], policers := [(1, entryOf [128, 0, 0, 100, 0, 0, 3, 0, 0, 0, 2, 200, 0, 0, 0, 9])] }, mem := ((up.mem.setEntry (wayAddr .ta (bucketOf 0 0x0A0000000002) 2) (heMake 0x0A0000000002 false false 0 5 (bucketOf 0 0x0A0000000002))).setEntry (wayAddr .tb (bucketOf 0 0x0A0000000003) 0) (heMake 0x0A0000000003 true false 0 5 (bucketOf 0 0x0A0000000003))).setEntry (16 * 0x1234) (entryOf ([0x81] ++ zeros 15)) }) (cmd up 0 0 0x0704 ([1, 0] ++ zeros 6 ++ beBytes 8 0x1234)), ⟨by decide +kernel, by decide +kernel, by decide +kernel, by decide +kernel⟩⟩,
   ⟨cmd up 0 0 0x0705 ([0, 0]), given (withOps [op 4 0x0F02 .done .sweep, { op 5 0x0D01 .running (.chan 12) with progress := 9, reason := 3 }]) (cmd up 0 0 0x0705 ([0, 0])), ⟨by decide +kernel, by decide +kernel, by decide +kernel, by decide +kernel⟩, by decide +kernel⟩,
   ⟨cmd up 0 0 0x0706 (zeros 8), given ({ up with tables := { up.tables with prefixes := [ownPrefix 0x07084440, learnedPrefix 0x07080040 5 9 .ta], policers := [(1, entryOf [128, 0, 0, 100, 0, 0, 3, 0, 0, 0, 2, 200, 0, 0, 0, 9])] }, mem := ((up.mem.setEntry (wayAddr .ta (bucketOf 0 0x0A0000000002) 2) (heMake 0x0A0000000002 false false 0 5 (bucketOf 0 0x0A0000000002))).setEntry (wayAddr .tb (bucketOf 0 0x0A0000000003) 0) (heMake 0x0A0000000003 true false 0 5 (bucketOf 0 0x0A0000000003))).setEntry (16 * 0x1234) (entryOf ([0x81] ++ zeros 15)) }) (cmd up 0 0 0x0706 (zeros 8)), ⟨by decide +kernel, by decide +kernel, by decide +kernel, by decide +kernel⟩, by decide +kernel⟩⟩

theorem test_witness_ChipCommandsStartTheirWork :
    (∃ (f : CmdFrame) (s : State), Accepted chRekindleCmd f s) ∧
    (∃ (f : CmdFrame) (s : State), Accepted nodeResetCmd f s) ∧
    (∃ (f : CmdFrame) (s : State), Accepted portResetCmd f s) ∧
    (∃ (f : CmdFrame) (s : State), Accepted pipeResetCmd f s) ∧
    (∃ (f : CmdFrame) (s : State), Accepted phySoundCmd f s ∧ s.engine.ops.length ≤ 80) ∧
    (∃ (f : CmdFrame) (s : State), Accepted phyMarginCmd f s) ∧
    (∃ (f : CmdFrame) (s : State), s.engine.ops.length ≤ 80 ∧ Accepted trimStartCmd f s) ∧
    (∃ (f : CmdFrame) (s : State), s.engine.ops.length ≤ 80 ∧ Accepted memRepairCmd f s ∧ bodyByte f 4 = 0 ∧ remapOf s.mem (bodyByte f 0) (bodyField f 2 2) = none) ∧
    (∃ (f : CmdFrame) (s : State), s.engine.ops.length ≤ 80 ∧ Accepted memSweepCmd f s) ∧
    (∃ (f : CmdFrame) (s : State), s.engine.ops.length ≤ 80 ∧ Accepted twinMirrorCmd f s) ∧
    (∃ (f : CmdFrame) (s : State), Accepted trimPointCmd f s ∧ (s.engine.ops.map (·.handle)).Nodup ∧ (s.engine.ops.filter fun x => !x.state.live).length < 64) ∧
    (∃ (f : CmdFrame) (s : State), Accepted keySetCmd f s ∧ firstInstall f (atExecution f s) = true ∧ shortEnergy (atExecution f s) = none) :=
  ⟨⟨cmd up 0 0 0x0802 ([12]), given (withOps [op 4 0x0F02 .done .sweep, { op 5 0x0D01 .running (.chan 12) with progress := 9, reason := 3 }]) (cmd up 0 0 0x0802 ([12])), ⟨by decide +kernel, by decide +kernel, by decide +kernel, by decide +kernel⟩⟩,
   ⟨cmd up 0 0 0x0901 ([]), given (up) (cmd up 0 0 0x0901 ([])), ⟨by decide +kernel, by decide +kernel, by decide +kernel, by decide +kernel⟩⟩,
   ⟨cmd up 0 0 0x0A01 ([1]), given ((up.onPort .tb fun q => { q with resetDue := false })) (cmd up 0 0 0x0A01 ([1])), ⟨by decide +kernel, by decide +kernel, by decide +kernel, by decide +kernel⟩⟩,
   ⟨cmd up 0 0 0x0B01 ([1]), given (up.onPipe .tb fun q => { q with resetting := 0 }) (cmd up 0 0 0x0B01 ([1])), ⟨by decide +kernel, by decide +kernel, by decide +kernel, by decide +kernel⟩⟩,
   ⟨cmd up 0 0 0x0C01 ([1]), given (up) (cmd up 0 0 0x0C01 ([1])), ⟨by decide +kernel, by decide +kernel, by decide +kernel, by decide +kernel⟩, by decide +kernel⟩,
   ⟨cmd up 0 0 0x0C02 ([0, 0]), given (up.onPort .ta fun q => { q with snr := snr20 }) (cmd up 0 0 0x0C02 ([0, 0])), ⟨by decide +kernel, by decide +kernel, by decide +kernel, by decide +kernel⟩⟩,
   ⟨cmd up 0 0 0x0D01 ([12, 0, 0, 0] ++ zeros 8), given (up) (cmd up 0 0 0x0D01 ([12, 0, 0, 0] ++ zeros 8)), by decide +kernel, ⟨by decide +kernel, by decide +kernel, by decide +kernel, by decide +kernel⟩⟩,
   ⟨cmd up 0 0 0x0F01 ([3, 0, 0, 5, 0]), given (up) (cmd up 0 0 0x0F01 ([3, 0, 0, 5, 0])), by decide +kernel, ⟨by decide +kernel, by decide +kernel, by decide +kernel, by decide +kernel⟩, by decide +kernel, by decide +kernel⟩,
   ⟨cmd up 0 0 0x0F02 ([]), given (up) (cmd up 0 0 0x0F02 ([])), by decide +kernel, ⟨by decide +kernel, by decide +kernel, by decide +kernel, by decide +kernel⟩⟩,
   ⟨cmd up 0 0 0x1001 ([]), given ({ up with straps := { up.straps with codes := nodeCodes 1 }, seat := { up.seat with state := .seated, locked := true, lead := true, partner := some { state := 2, seq := 1, die := 77, digest := 5, tier := 4, twin := 2, flags := 0x80, tick := 7, timeQ := 4, active := 0, carry := 0, share := 0, falm := 0, mmAck := 0, chans := [] } } }) (cmd up 0 0 0x1001 ([])), by decide +kernel, ⟨by decide +kernel, by decide +kernel, by decide +kernel, by decide +kernel⟩⟩,
   ⟨cmd up 0 0 0x0D02 ([0, 5, 1, 0] ++ beBytes 4 40010), given ((withOps [op 4 0x0F02 .done .sweep, { op 5 0x0D01 .running (.chan 12) with progress := 3, reason := 3, timing := true, r1 := 40000, m1 := 40010, r2 := 200000 }]).onChan 12 fun c => { c with inTrim := true }) (cmd up 0 0 0x0D02 ([0, 5, 1, 0] ++ beBytes 4 40010)), ⟨by decide +kernel, by decide +kernel, by decide +kernel, by decide +kernel⟩, by decide +kernel, by decide +kernel⟩,
   ⟨cmd ({ up with vault := { nodeVault with commission := true, recs := nodeVault.recs.filter fun e => e.1 != .protection && e.1 != .key 16 && e.1 != .key 17 } }) 0 16 0x1201 ([16] ++ zeros 15 ++ beBytes 16 0x1234567890ABCDEF1234567890ABCDEF), given ({ up with vault := { nodeVault with commission := true, recs := nodeVault.recs.filter fun e => e.1 != .protection && e.1 != .key 16 && e.1 != .key 17 } }) (cmd ({ up with vault := { nodeVault with commission := true, recs := nodeVault.recs.filter fun e => e.1 != .protection && e.1 != .key 16 && e.1 != .key 17 } }) 0 16 0x1201 ([16] ++ zeros 15 ++ beBytes 16 0x1234567890ABCDEF1234567890ABCDEF)), ⟨by decide +kernel, by decide +kernel, by decide +kernel, by decide +kernel⟩, by decide +kernel, by decide +kernel⟩⟩

theorem test_witness_ChecksDecideInOrderForEveryCommand :
    (∃ (f : CmdFrame) (s : State), engineTakes s f = true ∧ opcodeOf f = statReadCmd.op) ∧
    (∃ (f : CmdFrame) (s : State), inService s = true ∧ (s.pipe f.port).fixedBuf = some f ∧ (∀ k, (s.pipe f.port).fixedAt = some k → 589824 ≤ since s k)) ∧
    (∃ (f : CmdFrame) (s : State), (inService s = false ∨ ((s.pipe f.port).fixedBuf ≠ some f ∧ engineMode s ≠ .fixed))) :=
  ⟨⟨cmd up 0 0 0x0101 ([]), up, by decide +kernel⟩,
   ⟨cmd up 0 0 0x0101 ([]), { up with tiers := { up.tiers with tier := .passThrough }, tables := { up.tables with pa := { up.tables.pa with fixedBuf := some (cmd up 0 0 0x0101 ([])), fixedAt := none } } }, by decide +kernel, by decide +kernel, (by intro k h; exact nomatch (show none = some k from h))⟩,
   ⟨cmd up 0 0 0x0101 ([]), up, by decide +kernel⟩⟩

theorem test_witness_CountersignedCommandsAwaitAndRun :
    (∃ (f : CmdFrame) (s : State), Accepted wardSetCmd f s ∧ wardSetCmd.cs f (atExecution f s) = true ∧ let x := wardSetCmd.x f s; let d := changeDigest s f x; awaitBusy (atExecution f s) f d = false) ∧
    (∃ (f : CmdFrame) (s : State), Accepted wardSetCmd f s ∧ wardSetCmd.cs f (atExecution f s) = true ∧ let x := wardSetCmd.x f s; let d := changeDigest s f x; awaitBusy (atExecution f s) f d = true) ∧
    (∃ (f : CmdFrame) (s : State), Accepted wardProposeCmd f s) ∧
    (∃ (f : CmdFrame) (s : State), Accepted wardCountersignCmd f s) :=
  ⟨⟨cmd up 0 16 0x1103 ([1] ++ zeros 16), given (up) (cmd up 0 16 0x1103 ([1] ++ zeros 16)), ⟨by decide +kernel, by decide +kernel, by decide +kernel, by decide +kernel⟩, by decide +kernel, by decide +kernel⟩,
   ⟨cmd up 0 16 0x1103 ([1] ++ zeros 16), given ({ (up) with engine := { (up).engine with awaiting := [{ f := cmd up 0 16 0x1103 ([1] ++ zeros 16), digest := 7, at_ := 1199999999999 }] } }) (cmd up 0 16 0x1103 ([1] ++ zeros 16)), ⟨by decide +kernel, by decide +kernel, by decide +kernel, by decide +kernel⟩, by decide +kernel, by decide +kernel⟩,
   ⟨cmd up 0 16 0x1101 (beBytes 32 99), given (up) (cmd up 0 16 0x1101 (beBytes 32 99)), ⟨by decide +kernel, by decide +kernel, by decide +kernel, by decide +kernel⟩⟩,
   ⟨cmd up 0 17 0x1102 (beBytes 32 99), given ({ (up) with engine := { (up).engine with awaiting := [{ f := cmd up 0 0 0x0801 ([12]), digest := 99, at_ := 1199999999999 }, { f := { (cmd up 0 0 0x0801 ([12])) with hand := 1 }, digest := 98, at_ := 1199999999999 }], proposals := [{ warden := 0, digest := 99, at_ := 1199999999998 }] } }) (cmd up 0 17 0x1102 (beBytes 32 99)), ⟨by decide +kernel, by decide +kernel, by decide +kernel, by decide +kernel⟩⟩⟩

theorem test_witness_VaultWritesProposalsAndTheClaim :
    (∃ (_good : Bool) (s : State), (s.vault.pulses = [] ∨ (s.supply.good.contains .van = false ∧ s.supply.kindle ≠ .ember))) ∧
    (∃ (s : State) (p : Pulse) (rest : List Pulse), s.vault.pulses = p :: rest ∧ (s.supply.good.contains .van = true ∨ s.supply.kindle = .ember)) ∧
    (∃ (s : State) (p : Pulse) (rest : List Pulse), s.vault.pulses = p :: rest ∧ (s.supply.good.contains .van = true ∨ s.supply.kindle = .ember)) ∧
    (∃ (h : Fin 16) (s : State) (a : Await), s.engine.awaiting.find? (fun a => a.f.hand == h) = some a ∧ s.clock.counter.toNat ≤ a.at_.toNat + 15000000000) ∧
    (∃ (h : Fin 16) (s : State) (a : Await), s.engine.awaiting.find? (fun a => a.f.hand == h) = some a ∧ a.at_.toNat + 15000000000 < s.clock.counter.toNat ∧ halted s 3 = false) ∧
    (∃ (s : State), (vaultClaimed s.vault = true ∨ shellRuns s = false ∨ (wardenKeys s ≠ 4 ∧ (atTrick s = false ∨ s.vault.commission = true ∨ wardensCounted s < 2)))) ∧
    (∃ (s : State), vaultClaimed s.vault = false ∧ shellRuns s = true ∧ s.straps.resolved = true ∧ energyOk s 15 = true ∧ (wardenKeys s = 4 ∨ (atTrick s = true ∧ s.vault.commission = false ∧ 2 ≤ wardensCounted s))) ∧
    (∃ (s : State), shellRuns s = true) :=
  ⟨⟨true, up, by decide +kernel⟩,
   ⟨{ (up) with vault := { nodeVault with pulses := [{ key := .ward 1, data := zeros 16, why := .final (cmd up 0 16 0x1103 ([1] ++ zeros 16)) }, { key := .mask, data := [9], why := .claim }] }, engine := { (up).engine with writing := [0], awaiting := [{ f := { (cmd up 0 16 0x1103 ([1] ++ zeros 16)) with payload := [1, 3] }, digest := 98, at_ := 1199999999999 }] } }, { key := .ward 1, data := zeros 16, why := .final (cmd up 0 16 0x1103 ([1] ++ zeros 16)) }, [{ key := .mask, data := [9], why := .claim }], by decide +kernel⟩,
   ⟨{ (up) with vault := { nodeVault with pulses := [{ key := .ward 1, data := zeros 16, why := .final (cmd up 0 16 0x1103 ([1] ++ zeros 16)) }, { key := .mask, data := [9], why := .claim }] }, engine := { (up).engine with writing := [0], awaiting := [{ f := { (cmd up 0 16 0x1103 ([1] ++ zeros 16)) with payload := [1, 3] }, digest := 98, at_ := 1199999999999 }] } }, { key := .ward 1, data := zeros 16, why := .final (cmd up 0 16 0x1103 ([1] ++ zeros 16)) }, [{ key := .mask, data := [9], why := .claim }], by decide +kernel⟩,
   ⟨0, { (up) with engine := { (up).engine with awaiting := [{ f := { restrap12 with hand := 1 }, digest := 98, at_ := 5 }, { f := restrap12, digest := 99, at_ := 1185000000000 }] } }, { f := restrap12, digest := 99, at_ := 1185000000000 }, by decide +kernel⟩,
   ⟨0, { (up) with engine := { (up).engine with awaiting := [{ f := { restrap12 with hand := 1 }, digest := 98, at_ := 5 }, { f := restrap12, digest := 99, at_ := 1184999999999 }] } }, { f := restrap12, digest := 99, at_ := 1184999999999 }, by decide +kernel⟩,
   ⟨up, by decide +kernel⟩,
   ⟨{ (up) with vault := { nodeVault with commission := false, installed := [], recs := nodeVault.recs.filter fun e => e.1 != .protection } }, by decide +kernel⟩,
   ⟨{ (up) with engine := { (up).engine with awaiting := [{ f := { restrap12 with hand := 1 }, digest := 98, at_ := 5 }, { f := restrap12, digest := 99, at_ := 1199999999999 }] } }, by decide +kernel⟩⟩

theorem test_witness_SeatFollowsItsTables :
    (∃ (s : State), (isTwin s = false ∨ atSymbol s = false ∨ (s.supply.kindle ≠ .joining ∧ s.supply.kindle ≠ .up))) ∧
    (∃ (s : State), isTwin s = true ∧ atSymbol s = true ∧ (s.supply.kindle = .joining ∨ s.supply.kindle = .up) ∧ s.seat.state ≠ .mirroring) ∧
    (∃ (bytes : List Byte) (s : State), (isTwin s = false ∨ frameBad (seatScramble bytes) = true)) ∧
    (∃ (bytes : List Byte) (s : State), isTwin s = true ∧ s.supply.kindle = .up ∧ frameBad (seatScramble bytes) = false ∧ s.seat.locked = false ∧ s.seat.good < 63) ∧
    (∃ (bytes : List Byte) (s : State), isTwin s = true ∧ s.supply.kindle = .up ∧ frameBad (seatScramble bytes) = false ∧ byteAt (seatScramble bytes) 240 = 0 ∧ s.seat.locked = false ∧ s.seat.good = 63 ∧ s.seat.trained = false ∧ s.seat.windowOver = false ∧ s.seat.state = .unpaired ∧ s.tiers.stranger = false) ∧
    (∃ (bytes : List Byte) (s : State), isTwin s = true ∧ s.supply.kindle = .up ∧ frameBad (seatScramble bytes) = false ∧ byteAt (seatScramble bytes) 240 = 0 ∧ s.seat.locked = true ∧ s.seat.state = .seated ∧ (readFrame (seatScramble bytes)).flags.toNat.testBit 5 = true) ∧
    (∃ (s : State), (isTwin s = false ∨ s.seat.locked = false ∨ s.seat.bad < 16)) ∧
    (∃ (s : State) (p : Partner), isTwin s = true ∧ shellRuns s = true ∧ s.seat.locked = true ∧ 16 ≤ s.seat.bad ∧ s.seat.state = .seated ∧ s.seat.release = none ∧ (∀ x ∈ s.engine.ops, x.opcode ≠ 0x1001) ∧ s.seat.partner = some p) ∧
    (∃ (s : State), (isTwin s = false ∨ s.seat.locked = true ∨ since s s.seat.windowAt < 3000000000)) ∧
    (∃ (s : State), isTwin s = true ∧ s.supply.kindle = .up ∧ s.seat.state = .unpaired ∧ s.seat.windowOver = false ∧ s.seat.locked = false ∧ 3000000000 ≤ since s s.seat.windowAt) ∧
    (∃ (s : State), (isTwin s = false ∨ atTrick s = false ∨ s.seat.lead = leadWanted s ∨ inHandback s = true ∨ shownLead s ≠ leadWanted s)) ∧
    (∃ (s : State), isTwin s = true ∧ atTrick s = true ∧ s.seat.lead ≠ leadWanted s ∧ shownLead s = leadWanted s ∧ inHandback s = false ∧ s.seat.state = .seated ∧ (leadWanted s = true → partnerFlag s 6 = false)) ∧
    (∃ (n : Fin 24) (s : State), (isTwin s = false ∨ (s.chan n).active = true ∨ ∀ p, (s.chan n).profile = some p → 2 < cpaOf p)) ∧
    (∃ (n : Fin 24) (p : BitVec 8) (s : State), isTwin s = true ∧ shellRuns s = true ∧ (s.chan n).profile = some p ∧ cpaOf p ≤ 2 ∧ (s.chan n).active = false) ∧
    (∃ (n : Fin 24) (s : State), (isTwin s = false ∨ shellRuns s = false ∨ (s.seat.state ≠ .seated ∧ s.seat.state ≠ .alone) ∨ (s.chan n).forced = true ∨ (s.chan n).drive = .carrying ∨ ((s.chan n).drive = .sharing ∧ ((s.chan n).pathBad = true ∨ (s.chan n).atLimit = true)))) ∧
    (∃ (n : Fin 24) (s : State), isTwin s = true ∧ shellRuns s = true ∧ (s.seat.state = .seated ∨ s.seat.state = .alone) ∧ isOutChan (s.chan n) = true ∧ (s.chan n).forced = false ∧ (∀ x, sparseGet s.seat.disarmed n.val = some x → x.toNat ≤ s.clock.age.toNat) ∧ ((s.chan n).drive = .out ∨ ((s.chan n).drive = .sharing ∧ (s.chan n).pathBad = false ∧ (s.chan n).atLimit = false))) ∧
    (∃ (s : State), (isTwin s = false ∨ s.seat.state ≠ .seated ∨ s.seat.locked = false)) ∧
    (∃ (s : State), isTwin s = true ∧ s.seat.state = .seated ∧ s.seat.locked = true ∧ partnerState s = some 4 ∧ shellRuns s = true) ∧
    (∃ (s : State), (isTwin s = false ∨ s.seat.locked = false)) ∧
    (∃ (s : State), isTwin s = true ∧ s.seat.locked = true ∧ (∀ x ∈ s.engine.ops, x.opcode ≠ 0x1001)) ∧
    (∃ (s : State), (s.seat.rewriteDue = false ∨ s.seat.state ≠ .alone ∨ shortEnergy s ≠ none)) ∧
    (∃ (s : State) (p : Partner), s.seat.rewriteDue = true ∧ s.seat.state = .alone ∧ s.seat.partner = some p ∧ shortEnergy s = none ∧ vaultFull s .protection = false ∧ (∀ x ∈ s.vault.pulses, x.why ≠ .seatRecord)) ∧
    (∃ (s : State), (s.seat.release = none ∨ s.seat.state ≠ .seated ∨ partnerState s ≠ some 5)) ∧
    (∃ (s : State) (f : CmdFrame), s.seat.release = some f ∧ s.seat.state = .seated ∧ partnerState s = some 5 ∧ inService s = true) :=
  ⟨⟨up, by decide +kernel⟩,
   ⟨{ (up) with straps := { up.straps with codes := nodeCodes 1 }, seat := { up.seat with state := .seated, locked := true, partner := (some { state := 4, seq := 1, die := 77, digest := 5, tier := 4, twin := 2, flags := 0x80, tick := 7, timeQ := 4, active := 0, carry := 0, share := 0, falm := 0, mmAck := 0, chans := List.replicate 24 { target := 100000, flags := 0, cal := 0 } }), seq := 9, bad := 15 } }, by decide +kernel⟩,
   ⟨[1, 2], up, by decide +kernel⟩,
   ⟨testFrame, { (up) with straps := { up.straps with codes := nodeCodes 1 }, seat := { up.seat with good := 62, state := .unpaired } }, by decide +kernel, by decide +kernel, testFrame_good.1, by decide +kernel, by decide +kernel⟩,
   ⟨testFrame, { (up) with straps := { up.straps with codes := nodeCodes 1 }, seat := { up.seat with good := 63, state := .unpaired } }, by decide +kernel, by decide +kernel, testFrame_good.1, testFrame_good.2.1, by decide +kernel, by decide +kernel, by decide +kernel, by decide +kernel, by decide +kernel, by decide +kernel⟩,
   ⟨testFrame, { (up) with straps := { up.straps with codes := nodeCodes 1 }, seat := { up.seat with state := .seated, locked := true, trained := true, partner := (some { state := 4, seq := 1, die := 77, digest := 5, tier := 4, twin := 2, flags := 0x80, tick := 7, timeQ := 4, active := 0, carry := 0, share := 0, falm := 0, mmAck := 0, chans := List.replicate 24 { target := 100000, flags := 0, cal := 0 } }) } }, by decide +kernel, by decide +kernel, testFrame_good.1, testFrame_good.2.1, by decide +kernel, by decide +kernel, testFrame_good.2.2⟩,
   ⟨up, by decide +kernel⟩,
   ⟨{ (up) with straps := { up.straps with codes := nodeCodes 1 }, seat := { up.seat with state := .seated, locked := true, bad := 16, partner := (some { state := 4, seq := 1, die := 77, digest := 5, tier := 4, twin := 2, flags := 0x80, tick := 7, timeQ := 4, active := 0, carry := 0, share := 0, falm := 0, mmAck := 0, chans := List.replicate 24 { target := 100000, flags := 0, cal := 0 } }) } }, { state := 4, seq := 1, die := 77, digest := 5, tier := 4, twin := 2, flags := 0x80, tick := 7, timeQ := 4, active := 0, carry := 0, share := 0, falm := 0, mmAck := 0, chans := List.replicate 24 { target := 100000, flags := 0, cal := 0 } }, by decide +kernel⟩,
   ⟨up, by decide +kernel⟩,
   ⟨{ (up) with straps := { up.straps with codes := nodeCodes 1 }, seat := { up.seat with state := .unpaired, windowAt := 5 } }, by decide +kernel⟩,
   ⟨up, by decide +kernel⟩,
   ⟨(let s : State := { (up) with straps := { up.straps with codes := nodeCodes 1 }, seat := { up.seat with state := .seated, locked := true, trained := true, partner := (some { state := 4, seq := 1, die := 77, digest := 5, tier := 4, twin := 2, flags := 0x80, tick := 7, timeQ := 4, active := 0, carry := 0, share := 0, falm := 0, mmAck := 0, chans := List.replicate 24 { target := 100000, flags := 0, cal := 0 } }), lead := false } }; { s with seat := { s.seat with frame := seatFrame s false [] } }), by decide +kernel⟩,
   ⟨0, up, .inl (by decide +kernel)⟩,
   ⟨0, 0x00, ({ (up) with straps := { up.straps with codes := nodeCodes 1 }, seat := { up.seat with state := .seated, locked := true, trained := true, partner := (some { state := 4, seq := 1, die := 77, digest := 5, tier := 4, twin := 2, flags := 0x80, tick := 7, timeQ := 4, active := 0, carry := 0, share := 0, falm := 0, mmAck := 0, chans := List.replicate 24 { target := 100000, flags := 0, cal := 0 } }) } }).onChan 0 fun c => { c with active := false, roleStep := some (false, 5) }, by decide +kernel⟩,
   ⟨12, up, by decide +kernel⟩,
   ⟨12, ({ (up) with straps := { up.straps with codes := nodeCodes 1 }, seat := { up.seat with state := .seated, locked := true, trained := true, partner := (some { state := 4, seq := 1, die := 77, digest := 5, tier := 4, twin := 2, flags := 0x80, tick := 7, timeQ := 4, active := 0, carry := 0, share := 0, falm := 0, mmAck := 0, chans := List.replicate 24 { target := 100000, flags := 0, cal := 0 } }) } }).onChan 12 fun c => { c with drive := .out }, by decide +kernel, by decide +kernel, by decide +kernel, by decide +kernel, by decide +kernel, (by intro x h; have h2 : none = some x := h; cases h2), by decide +kernel⟩,
   ⟨up, by decide +kernel⟩,
   ⟨({ (up) with straps := { up.straps with codes := nodeCodes 1 }, seat := { up.seat with state := .seated, locked := true, handback := [], partner := (some { state := 4, seq := 1, die := 77, digest := 5, tier := 4, twin := 2, flags := 0x80, tick := 7, timeQ := 4, active := 0, carry := 0x3000, share := 0, falm := 0, mmAck := 0, chans := List.replicate 24 { target := 100000, flags := 0, cal := 0 } }) } }).onChan 13 fun c => { c with drive := .out }, by decide +kernel⟩,
   ⟨up, by decide +kernel⟩,
   ⟨{ (up) with straps := { up.straps with codes := nodeCodes 1 }, seat := { up.seat with locked := true, out := [{ kind := 1, seq := 3, body := [1], sent := none }, { kind := 1, seq := 4, body := [1], sent := some 9663676416 }] } }, by decide +kernel⟩,
   ⟨up, by decide +kernel⟩,
   ⟨{ (up) with straps := { up.straps with codes := nodeCodes 1 }, seat := { up.seat with state := .alone, rewriteDue := true, partner := (some { state := 4, seq := 1, die := 77, digest := 5, tier := 4, twin := 2, flags := 0x80, tick := 7, timeQ := 4, active := 0, carry := 0, share := 0, falm := 0, mmAck := 0, chans := List.replicate 24 { target := 100000, flags := 0, cal := 0 } }) } }, { state := 4, seq := 1, die := 77, digest := 5, tier := 4, twin := 2, flags := 0x80, tick := 7, timeQ := 4, active := 0, carry := 0, share := 0, falm := 0, mmAck := 0, chans := List.replicate 24 { target := 100000, flags := 0, cal := 0 } }, by decide +kernel⟩,
   ⟨up, by decide +kernel⟩,
   ⟨{ (up) with straps := { up.straps with codes := nodeCodes 1 }, seat := { up.seat with state := .seated, locked := true, release := some (cmd up 0 0 0x1002 ([])), partner := (some { state := 5, seq := 1, die := 77, digest := 5, tier := 4, twin := 2, flags := 0x80, tick := 7, timeQ := 4, active := 0, carry := 0, share := 0, falm := 0, mmAck := 0, chans := List.replicate 24 { target := 100000, flags := 0, cal := 0 } }) } }, cmd up 0 0 0x1002 ([]), by decide +kernel⟩⟩

theorem test_witness_DebugPortRegistersFollowTheirTables :
    (∃ (s : State), tapWorks s = false) ∧
    (∃ (_x : BitVec 17) (_y : BitVec 17) (_r : BitVec 104) (_b : BitVec 168) (_i : Byte) (_e : Ecc) (s : State), tapWorks s = false) ∧
    (∃ (_x : BitVec 17) (_y : BitVec 17) (s : State), tapWorks s = true) ∧
    (∃ (_b : BitVec 168) (s : State), tapWorks s = true ∧ s.straps.dbgEn = false) ∧
    (∃ (_b : BitVec 168) (s : State), tapWorks s = true ∧ s.straps.dbgEn = true) ∧
    (∃ (_r : BitVec 168) (s : State), tapWorks s = true ∧ s.straps.dbgEn = false) ∧
    (∃ (_r : BitVec 168) (s : State), tapWorks s = true ∧ s.straps.dbgEn = true) ∧
    (∃ (r : BitVec 104) (_e : Ecc) (s : State), tapWorks s = true ∧ s.straps.dbgEn = true ∧ r.extractLsb' 101 3 = 1 ∧ r.extractLsb' 88 2 = 0 ∧ r.extractLsb' 64 3 = 0 ∧ shellRuns s = true ∧ let a := (r.extractLsb' 64 24).toNat; ((0x330000 ≤ a ∧ a < 0x400000) ∨ works s (.group (Fin.ofNat 8 (a / 2 ^ 21))) = false)) ∧
    (∃ (r : BitVec 104) (e : Ecc) (s : State), tapWorks s = true ∧ s.straps.dbgEn = true ∧ r.extractLsb' 101 3 = 1 ∧ r.extractLsb' 88 2 = 0 ∧ r.extractLsb' 64 3 = 0 ∧ shellRuns s = true ∧ let a := (r.extractLsb' 64 24).toNat; (a < 0x200000 ∨ (0xC00000 ≤ a ∧ a < 0xF00000)) ∧ works s (.group (Fin.ofNat 8 (a / 2 ^ 21))) = true ∧ a ∉ e.poisoned ∧ a ∉ s.mem.poison ∧ a ∉ e.corrected) ∧
    (∃ (r : BitVec 104) (_e : Ecc) (s : State), tapWorks s = true ∧ s.straps.dbgEn = true ∧ r.extractLsb' 101 3 = 1 ∧ r.extractLsb' 88 2 = 0 ∧ r.extractLsb' 64 3 = 0 ∧ shellRuns s = true ∧ let a := (r.extractLsb' 64 24).toNat; (a < 0x200000 ∨ (0xC00000 ≤ a ∧ a < 0xF00000)) ∧ works s (.group (Fin.ofNat 8 (a / 2 ^ 21))) = true ∧ a ∈ s.mem.poison) ∧
    (∃ (r : BitVec 104) (s : State), tapWorks s = true ∧ s.straps.dbgEn = true ∧ r.extractLsb' 101 3 = 2 ∧ r.extractLsb' 88 2 = 0 ∧ r.extractLsb' 64 3 = 0 ∧ s.dbg.session = none) :=
  ⟨⟨State.reset, by decide +kernel⟩,
   ⟨1, 2, 3, 4, 5, { corrected := [], poisoned := [] }, State.reset, by decide +kernel⟩,
   ⟨0x1ABCD, 0x12345, up, by decide +kernel⟩,
   ⟨7, up, by decide +kernel⟩,
   ⟨7, { up with straps := { up.straps with dbgEn := true }, dbg := { up.dbg with session := none } }, by decide +kernel⟩,
   ⟨7, up, by decide +kernel⟩,
   ⟨BitVec.ofNat 168 (1 * 2 ^ 165 + 1 * 2 ^ 161 + 1 * 2 ^ 159 + 5 * 2 ^ 151 + 3 * 2 ^ 135 + 0 * 2 ^ 128 + 77 * 2 ^ 64 + 255), { up with straps := { up.straps with dbgEn := true }, dbg := { up.dbg with session := none } }, by decide +kernel⟩,
   ⟨BitVec.ofNat 104 (1 * 2 ^ 101 + 255 * 2 ^ 93 + 0 * 2 ^ 88 + 0x330000 * 2 ^ 64 + 72623859790382856), { corrected := [], poisoned := [] }, { ({ up with straps := { up.straps with dbgEn := true }, dbg := { up.dbg with session := none } }) with mem := { (up.mem.writeN 0xC00008 [1, 2, 3, 4, 5, 6, 7, 8]) with poison := [0x100000] } }, by decide +kernel⟩,
   ⟨BitVec.ofNat 104 (1 * 2 ^ 101 + 255 * 2 ^ 93 + 0 * 2 ^ 88 + 0xC00008 * 2 ^ 64 + 72623859790382856), { corrected := [], poisoned := [] }, { ({ up with straps := { up.straps with dbgEn := true }, dbg := { up.dbg with session := none } }) with mem := { (up.mem.writeN 0xC00008 [1, 2, 3, 4, 5, 6, 7, 8]) with poison := [0x100000] } }, by decide +kernel⟩,
   ⟨BitVec.ofNat 104 (1 * 2 ^ 101 + 255 * 2 ^ 93 + 0 * 2 ^ 88 + 0x100000 * 2 ^ 64 + 72623859790382856), { corrected := [], poisoned := [] }, { ({ up with straps := { up.straps with dbgEn := true }, dbg := { up.dbg with session := none } }) with mem := { (up.mem.writeN 0xC00008 [1, 2, 3, 4, 5, 6, 7, 8]) with poison := [0x100000] } }, by decide +kernel⟩,
   ⟨BitVec.ofNat 104 (2 * 2 ^ 101 + 255 * 2 ^ 93 + 0 * 2 ^ 88 + 0xC00008 * 2 ^ 64 + 72623859790382856), { ({ up with straps := { up.straps with dbgEn := true }, dbg := { up.dbg with session := none } }) with mem := up.mem.writeN 0xC00008 [1, 2, 3, 4, 5, 6, 7, 8] }, by decide +kernel⟩⟩

theorem test_witness_DebugControlHaltsStepsAndEnds :
    (∃ (reg : BitVec 64) (s : State) (op : BitVec 4) (c : Instr), (op, c) ∈ [((1 : BitVec 4), Instr.dctrlHalt reg), (2, .dctrlResume reg), (3, .dctrlStep reg), (4, .dctrlClose reg), (5, .dctrlClearBphit reg)] ∧ reg.extractLsb' 12 4 = op ∧ tapWorks s = false) ∧
    (∃ (reg : BitVec 64) (s : State) (op : BitVec 4) (c : Instr), (op, c) ∈ [((1 : BitVec 4), Instr.dctrlHalt reg), (2, .dctrlResume reg), (3, .dctrlStep reg), (4, .dctrlClose reg), (5, .dctrlClearBphit reg)] ∧ reg.extractLsb' 12 4 = op ∧ tapWorks s = true ∧ s.straps.dbgEn = false) ∧
    (∃ (reg : BitVec 64) (s : State) (op : BitVec 4) (c : Instr), (op, c) ∈ [((1 : BitVec 4), Instr.dctrlHalt reg), (2, .dctrlResume reg), (3, .dctrlStep reg), (4, .dctrlClose reg), (5, .dctrlClearBphit reg)] ∧ reg.extractLsb' 12 4 = op ∧ tapWorks s = true ∧ s.straps.dbgEn = true) ∧
    (∃ (reg : BitVec 64) (s : State) (al : BitVec 16) (fl : BitVec 8) (tag : BitVec 16) (h : Fin 16) (e : Tick), tapWorks s = true ∧ s.straps.dbgEn = true ∧ s.dbg.session = some (al, fl, tag, h, e) ∧ reg.extractLsb' 48 16 = tag ∧ reg.extractLsb' 32 16 &&& ~~~al = 0 ∧ reg.extractLsb' 0 10 = 0 ∧ reg.extractLsb' 12 4 = 1 ∧ s.dbg.step = none ∧ s.dbg.resumeNext = none) ∧
    (∃ (reg : BitVec 64) (s : State) (al : BitVec 16) (fl : BitVec 8) (tag : BitVec 16) (h : Fin 16) (e : Tick), tapWorks s = true ∧ s.straps.dbgEn = true ∧ s.dbg.session = some (al, fl, tag, h, e) ∧ reg.extractLsb' 48 16 = tag ∧ reg.extractLsb' 32 16 &&& ~~~al = 0 ∧ reg.extractLsb' 0 10 = 0 ∧ reg.extractLsb' 12 4 = 2 ∧ s.dbg.haltNext = none ∧ s.dbg.resumeNext = none) ∧
    (∃ (reg : BitVec 64) (s : State) (al : BitVec 16) (fl : BitVec 8) (tag : BitVec 16) (h : Fin 16) (e : Tick), tapWorks s = true ∧ s.straps.dbgEn = true ∧ s.dbg.session = some (al, fl, tag, h, e) ∧ reg.extractLsb' 48 16 = tag ∧ reg.extractLsb' 32 16 &&& ~~~al = 0 ∧ reg.extractLsb' 0 10 = 0 ∧ reg.extractLsb' 12 4 = 4) ∧
    (∃ (reg : BitVec 64) (s : State) (al : BitVec 16) (fl : BitVec 8) (tag : BitVec 16) (h : Fin 16) (e : Tick), tapWorks s = true ∧ s.straps.dbgEn = true ∧ s.dbg.session = some (al, fl, tag, h, e) ∧ reg.extractLsb' 48 16 = tag ∧ reg.extractLsb' 32 16 &&& ~~~al = 0 ∧ reg.extractLsb' 0 10 = 0 ∧ reg.extractLsb' 12 4 = 5) ∧
    (∃ (reg : BitVec 64) (s : State) (al : BitVec 16) (fl : BitVec 8) (tag : BitVec 16) (h : Fin 16) (e : Tick), tapWorks s = true ∧ s.straps.dbgEn = true ∧ s.dbg.session = some (al, fl, tag, h, e) ∧ reg.extractLsb' 48 16 = tag ∧ reg.extractLsb' 32 16 &&& ~~~al = 0 ∧ reg.extractLsb' 0 10 = 0 ∧ let m := reg.extractLsb' 32 16; reg.extractLsb' 12 4 = 3 ∧ reg.extractLsb' 16 16 ≠ 0 ∧ m &&& s.dbg.halted ≠ 0 ∧ s.dbg.step = none ∧ (reg.extractLsb' 10 2 = 2 → m &&& 0xFFF8 = 0) ∧ (reg.extractLsb' 10 2 = 3 → m &&& 0xFFF7 = 0)) ∧
    (∃ (s : State) (m : BitVec 16), s.pending = [] ∧ shellRuns s = true ∧ atSymbol (idleTick s) = true ∧ s.dbg.resumeNext = none ∧ s.dbg.step = none ∧ s.dbg.haltNext = some m) ∧
    (∃ (s : State) (m : BitVec 16), s.pending = [] ∧ shellRuns s = true ∧ atSymbol (idleTick s) = true ∧ s.dbg.haltNext = none ∧ s.dbg.step = none ∧ s.dbg.resumeNext = some (m, none)) ∧
    (∃ (s : State), (∀ m k, s.dbg.step ≠ some (m, k, 0))) ∧
    (∃ (s : State) (m : BitVec 16) (k : BitVec 2), s.dbg.step = some (m, k, 0)) ∧
    (∃ (s : State), (s.dbg.session = none ∨ ∃ a b c d e, s.dbg.session = some (a, b, c, d, e) ∧ s.clock.age.toNat < e.toNat)) ∧
    (∃ (s : State) (a : BitVec 16) (b : BitVec 8) (c : BitVec 16) (d : Fin 16) (e : Tick), s.dbg.session = some (a, b, c, d, e) ∧ e.toNat ≤ s.clock.age.toNat) ∧
    (∃ (n : Fin 8) (q : BitVec 64) (s : State), (shellRuns s = false ∨ s.dbg.cmps[n].act = 0 ∨ q &&& s.dbg.cmps[n].mask ≠ s.dbg.cmps[n].value &&& s.dbg.cmps[n].mask ∨ (s.dbg.cmps[n].kind = 4 ∧ s.clock.counter.toNat < q.toNat))) ∧
    (∃ (n : Fin 8) (q : BitVec 64) (s : State), shellRuns s = true ∧ s.dbg.cmps[n].act ≠ 0 ∧ q &&& s.dbg.cmps[n].mask = s.dbg.cmps[n].value &&& s.dbg.cmps[n].mask ∧ (s.dbg.cmps[n].kind = 4 → q.toNat ≤ s.clock.counter.toNat)) :=
  ⟨⟨BitVec.ofNat 64 (99 * 2 ^ 48 + 4 * 2 ^ 32 + 0 * 2 ^ 16 + 1 * 2 ^ 12 + 0 * 2 ^ 10 + 0), State.reset, 1, .dctrlHalt (BitVec.ofNat 64 (99 * 2 ^ 48 + 4 * 2 ^ 32 + 0 * 2 ^ 16 + 1 * 2 ^ 12 + 0 * 2 ^ 10 + 0)), by decide +kernel⟩,
   ⟨BitVec.ofNat 64 (99 * 2 ^ 48 + 4 * 2 ^ 32 + 0 * 2 ^ 16 + 1 * 2 ^ 12 + 0 * 2 ^ 10 + 0), up, 1, .dctrlHalt (BitVec.ofNat 64 (99 * 2 ^ 48 + 4 * 2 ^ 32 + 0 * 2 ^ 16 + 1 * 2 ^ 12 + 0 * 2 ^ 10 + 0)), by decide +kernel⟩,
   ⟨BitVec.ofNat 64 (99 * 2 ^ 48 + 4 * 2 ^ 32 + 0 * 2 ^ 16 + 1 * 2 ^ 12 + 0 * 2 ^ 10 + 0), { up with straps := { up.straps with dbgEn := true }, dbg := { up.dbg with session := none } }, 1, .dctrlHalt (BitVec.ofNat 64 (99 * 2 ^ 48 + 4 * 2 ^ 32 + 0 * 2 ^ 16 + 1 * 2 ^ 12 + 0 * 2 ^ 10 + 0)), by decide +kernel⟩,
   ⟨BitVec.ofNat 64 (99 * 2 ^ 48 + 4 * 2 ^ 32 + 5 * 2 ^ 16 + 1 * 2 ^ 12 + 0 * 2 ^ 10 + 0), { up with straps := { up.straps with dbgEn := true }, dbg := { up.dbg with session := some (0x7F, 1, 99, 0, 500000000000) } }, 0x7F, 1, 99, 0, 500000000000, by decide +kernel⟩,
   ⟨BitVec.ofNat 64 (99 * 2 ^ 48 + 4 * 2 ^ 32 + 5 * 2 ^ 16 + 2 * 2 ^ 12 + 0 * 2 ^ 10 + 0), { up with straps := { up.straps with dbgEn := true }, dbg := { up.dbg with session := some (0x7F, 1, 99, 0, 500000000000) } }, 0x7F, 1, 99, 0, 500000000000, by decide +kernel⟩,
   ⟨BitVec.ofNat 64 (99 * 2 ^ 48 + 4 * 2 ^ 32 + 5 * 2 ^ 16 + 4 * 2 ^ 12 + 0 * 2 ^ 10 + 0), { up with straps := { up.straps with dbgEn := true }, dbg := { up.dbg with session := some (0x7F, 1, 99, 0, 500000000000) } }, 0x7F, 1, 99, 0, 500000000000, by decide +kernel⟩,
   ⟨BitVec.ofNat 64 (99 * 2 ^ 48 + 4 * 2 ^ 32 + 5 * 2 ^ 16 + 5 * 2 ^ 12 + 0 * 2 ^ 10 + 0), { up with straps := { up.straps with dbgEn := true }, dbg := { up.dbg with session := some (0x7F, 1, 99, 0, 500000000000) } }, 0x7F, 1, 99, 0, 500000000000, by decide +kernel⟩,
   ⟨BitVec.ofNat 64 (99 * 2 ^ 48 + 4 * 2 ^ 32 + 5 * 2 ^ 16 + 3 * 2 ^ 12 + 0 * 2 ^ 10 + 0), { up with straps := { up.straps with dbgEn := true }, dbg := { up.dbg with halted := 0x6F, session := some (0x7F, 1, 99, 0, 500000000000) } }, 0x7F, 1, 99, 0, 500000000000, by decide +kernel⟩,
   ⟨{ ({ up with straps := { up.straps with dbgEn := true }, dbg := { up.dbg with haltNext := some 8, session := some (0x7F, 1, 99, 0, 500000000000) } }) with clock := { up.clock with line := 9663676416 - 1 } }, 8, by decide +kernel⟩,
   ⟨{ ({ up with straps := { up.straps with dbgEn := true }, dbg := { up.dbg with resumeNext := some (8, none), session := some (0x7F, 1, 99, 0, 500000000000) } }) with clock := { up.clock with line := 9663676416 - 1 } }, 8, by decide +kernel⟩,
   ⟨up, (fun m k h => nomatch (show (none : Option (BitVec 16 × BitVec 2 × Nat)) = some (m, k, 0) from h))⟩,
   ⟨{ up with straps := { up.straps with dbgEn := true }, dbg := { up.dbg with step := some (4, 1, 0) } }, 4, 1, by decide +kernel⟩,
   ⟨up, .inl rfl⟩,
   ⟨{ up with straps := { up.straps with dbgEn := true }, dbg := { up.dbg with session := some (0x7F, 1, 99, 0, 400000000000), halted := 0, haltNext := some 3 } }, 0x7F, 1, 99, 0, 400000000000, by decide +kernel⟩,
   ⟨1, 5, up, by decide +kernel⟩,
   ⟨3, 0x4377, { up with straps := { up.straps with dbgEn := true }, dbg := { up.dbg with cmps := Vector.replicate 8 { kind := 1, act := 1, wher := 7, count := 0, value := 0x77, mask := 0xFF }, session := some (0x7F, 1, 99, 0, 500000000000) } }, by decide +kernel⟩⟩

theorem test_witness_ChecksDecideInOrderForEveryCommand_bad :
    ∃ (f : CmdFrame) (s : State), engineTakes s f = true ∧ authenticate (takeInput s f) f = .bad :=
  ⟨{ (cmd up 0 0 0x0101 ([])) with payload := [2, 0, 1, 1, 0, 0, 0, 0] ++ zeros 8 }, given up ({ (cmd up 0 0 0x0101 ([])) with payload := [2, 0, 1, 1, 0, 0, 0, 0] ++ zeros 8 }), by decide +kernel⟩

theorem test_witness_ChecksDecideInOrderForEveryCommand_unauth :
    ∃ (f : CmdFrame) (s : State), engineTakes s f = true ∧ authenticate (takeInput s f) f = .unauth ∧ opcodeOf f ≠ 0x0101 :=
  ⟨{ (cmd up 0 0 0x0201 ([0, 5])) with payload := [1, 0, 2, 1, 0, 2, 0, 0, 0, 5] ++ zeros 8 }, given up ({ (cmd up 0 0 0x0201 ([0, 5])) with payload := [1, 0, 2, 1, 0, 2, 0, 0, 0, 5] ++ zeros 8 }), by decide +kernel⟩

theorem test_witness_ChecksDecideInOrderForEveryCommand_stale :
    ∃ (f : CmdFrame) (s : State), engineTakes s f = true ∧ authenticate (takeInput s f) f = .stale :=
  ⟨cmd up 0 0 0x0201 ([0, 5]), given ({ up with engine := { up.engine with slots := up.engine.slots.set 0 { slot0 with lastSeq := 102 } } }) (cmd up 0 0 0x0201 ([0, 5])), by decide +kernel⟩

theorem test_witness_ChecksDecideInOrderForEveryCommand_duplicate :
    ∃ (f : CmdFrame) (s : State) (q : QFrame), engineTakes s f = true ∧ authenticate (takeInput s f) f = .duplicate q :=
  ⟨cmd up 0 0 0x0201 ([0, 5]), given ({ up with engine := { up.engine with slots := up.engine.slots.set 0 { slot0 with lastSeq := 101, lastMac := some (macField (cmd up 0 0 0x0201 ([0, 5]))), lastResp := some { qf 0x0201 40 with payload := responsePayload up (cmd up 0 0 0x0201 ([0, 5])) 0 0 [1, 2, 3] true } } } }) (cmd up 0 0 0x0201 ([0, 5])), { qf 0x0201 40 with payload := responsePayload up (cmd up 0 0 0x0201 ([0, 5])) 0 0 [1, 2, 3] true }, by decide +kernel⟩

theorem test_witness_ChecksDecideInOrderForEveryCommand_refused :
    ∃ (f : CmdFrame) (s : State), engineTakes s f = true ∧ opcodeOf f = outSetCmd.op ∧ authenticate (takeInput s f) f = .ok ∧ checksOf outSetCmd f (atExecution f s) = some 0x16 :=
  ⟨cmd up 0 0 0x0601 ([50] ++ zeros 11), given up (cmd up 0 0 0x0601 ([50] ++ zeros 11)), by decide +kernel⟩

end Sys2Proof.Tests
end

section
/-! The keepers' refresh at a trick start (01_architecture.md, R16): what one channel's refresh writes and keeps, the walk over the
channels, and the statement on KEEPER_REFRESH. -/

namespace Sys2Proof.Proofs

open Sys2Proof Sys2Proof.Machine Sys2Proof.Safety Sys2Proof.Laws

/-! ## A walk that treats one channel at a time -/

section Walk

variable {f : Fin 24 → State → State} {l : List (Fin 24)} {n : Fin 24} {s : State}

theorem each_chan_of_not_mem (others : ∀ k x m, m ≠ k → (f k x).chan m = x.chan m) (hn : n ∉ l) :
    (s.each l f).chan n = s.chan n := by
  unfold State.each
  induction l generalizing s with
  | nil => rfl
  | cons k l ih =>
    have keptByVisit := others k s n (List.ne_of_not_mem_cons hn)
    exact (ih (List.not_mem_of_not_mem_cons hn)).trans keptByVisit

/-- A walk that visits a channel once treats it as its own visit does, in a state that has the same channel and, where each visit
keeps it, the same clock. -/
theorem each_chan_of_mem {R : Clock → Chan → Chan → Prop} (others : ∀ k x m, m ≠ k → (f k x).chan m = x.chan m)
    (clock : ∀ k x, (f k x).clock = x.clock) (visit : ∀ k x, R x.clock (x.chan k) ((f k x).chan k))
    (nodup : l.Nodup) (hn : n ∈ l) : R s.clock (s.chan n) ((s.each l f).chan n) := by
  induction l generalizing s with
  | nil => cases hn
  | cons k l ih =>
    obtain ⟨hk, hl⟩ := List.nodup_cons.mp nodup
    change R s.clock (s.chan n) (((f k s).each l f).chan n)
    by_cases h : n = k
    · rw [h, each_chan_of_not_mem others hk]
      exact visit k s
    · rw [← clock k s, ← others k s n h]
      exact ih hl (List.mem_of_ne_of_mem h hn)

end Walk

/-! ## Operations on an output that leave its timer, its hold latch and its bank-now -/

/-- The channel's timer, hold latch and bank-now are as they were. -/
structure KeepsHold (c c' : Chan) : Prop where
  refreshed : c'.refreshed = c.refreshed
  latch : c'.latch = c.latch
  banked : banked c' = banked c

theorem setTarget_keepsHold (c : Chan) (now : Tick) (v : Int) : KeepsHold c (setTarget c now v) := by
  unfold setTarget
  extract_lets
  split <;> exact ⟨rfl, rfl, rfl⟩

theorem keeperTakes_keepsHold (t : Trim) (now : Tick) (c : Chan) : KeepsHold c (keeperTakes t now c) := by
  unfold keeperTakes
  split
  · next v _ _ =>
    obtain ⟨hr, hl, hb⟩ := setTarget_keepsHold c now v
    exact ⟨hr, hl, hb⟩
  · obtain ⟨hr, hl, hb⟩ := setTarget_keepsHold c now 0
    exact ⟨hr, hl, hb⟩

theorem keeperTakes_inControl (t : Trim) (now : Tick) (c : Chan) : (keeperTakes t now c).inControl = true := by
  obtain ⟨_, _, _, _, _, _, _, control⟩ := keeperTakes_keeps t now c
  exact control

theorem driveValue_keepsHold (t : Trim) (now : Tick) (v : Int) (c : Chan) : KeepsHold c (driveValue t now v c) := by
  obtain ⟨hr, hl, hb⟩ := setTarget_keepsHold c now v
  unfold driveValue
  cases drivePart c.drive <;> exact ⟨hr, hl, hb⟩

/-- From `s` to `t` no channel but `n` changed, and `n` kept its timer, its hold latch and its bank-now. -/
structure HoldsAt (n : Fin 24) (s t : State) : Prop where
  others : ∀ m, m ≠ n → t.chan m = s.chan m
  keeps : KeepsHold (s.chan n) (t.chan n)

theorem HoldsAt.trans {n : Fin 24} {s t u : State} (h : HoldsAt n s t) (k : HoldsAt n t u) : HoldsAt n s u where
  others m hm := (k.others m hm).trans (h.others m hm)
  keeps := ⟨k.keeps.refreshed.trans h.keeps.refreshed, k.keeps.latch.trans h.keeps.latch, k.keeps.banked.trans h.keeps.banked⟩

theorem holdsAt_of_chans {n : Fin 24} {s t : State} (h : t.chans = s.chans) : HoldsAt n s t := by
  have hc : ∀ m, t.chan m = s.chan m := fun m => by rw [State.chan, State.chan, h]
  exact ⟨fun m _ => hc m, by rw [hc n]; exact ⟨rfl, rfl, rfl⟩⟩

theorem holdsAt_refl (n : Fin 24) (s : State) : HoldsAt n s s := holdsAt_of_chans rfl

theorem holdsAt_onChan {n : Fin 24} {s : State} {f : Chan → Chan} (h : KeepsHold (s.chan n) (f (s.chan n))) :
    HoldsAt n s (s.onChan n f) where
  others m hm := State.onChan_chan_other _ n m f hm
  keeps := by rw [State.onChan_chan]; exact h

theorem holdsAt_clearLatching (n : Fin 24) (s : State) (code src obj : Nat) (detail : List Byte) :
    HoldsAt n s (clearLatching s code src obj detail) :=
  holdsAt_of_chans (same_chans (frame_clearLatching (L := [.events]) (List.Subset.refl _) (frame_refl _ s)) (by decide))

theorem holdsAt_endSubst (n : Fin 24) (s : State) (v : Int) : HoldsAt n s (endSubst s n v) := by
  unfold endSubst
  extract_lets c s1 s2
  have h1 : HoldsAt n s s1 := by
    unfold s1
    split
    · exact holdsAt_clearLatching n s ..
    · exact holdsAt_refl n s
  have h2 : HoldsAt n s1 s2 := holdsAt_clearLatching n s1 ..
  exact (h1.trans h2).trans (holdsAt_onChan ⟨rfl, rfl, rfl⟩)

theorem holdsAt_driveShell (n : Fin 24) (s : State) : HoldsAt n s (driveShell s n) := by
  unfold driveShell
  extract_lets
  split
  · exact holdsAt_refl n s
  · exact holdsAt_onChan (driveValue_keepsHold ..)

/-! ## One keeper's refresh -/

/-- What a refresh writes on an output channel: the timer restarts and the latch takes the present code of a stage that is on (R16);
bank-now stays. -/
structure Restarted (k : Clock) (c c' : Chan) : Prop where
  timer : c'.refreshed = k.age
  latch : c'.latch = if c.stageOn then c.dac else c.latch
  banked : banked c' = banked c

theorem Restarted.keepsHold {k : Clock} {c c' c'' : Chan} (h : Restarted k c c') (g : KeepsHold c' c'') : Restarted k c c'' :=
  ⟨g.refreshed.trans h.timer, g.latch.trans h.latch, g.banked.trans h.banked⟩

/-- From `s` to `t` no channel but `n` changed, and the keeper of `n` was refreshed; under bank-now it is in control. -/
structure RefreshedAt (n : Fin 24) (s t : State) : Prop where
  others : ∀ m, m ≠ n → t.chan m = s.chan m
  restarted : Restarted s.clock (s.chan n) (t.chan n)
  held : banked (s.chan n) = true → (t.chan n).inControl = true

theorem refreshOne_of_not_output {n : Fin 24} {s : State} (h : isOutChan (s.chan n) = false) : refreshOne n s = s := by
  simp [refreshOne, h]

theorem refreshOne_of_output {n : Fin 24} {s : State} (h : isOutChan (s.chan n) = true) : RefreshedAt n s (refreshOne n s) := by
  unfold refreshOne
  extract_lets c s1 dir turned s2 s3
  rw [if_neg (by simp [c, h])]
  have written : Restarted s.clock (s.chan n) (s1.chan n) := by
    rw [State.onChan_chan]
    exact ⟨rfl, rfl, rfl⟩
  have directed : HoldsAt n s1 s2 := holdsAt_onChan ⟨rfl, rfl, rfl⟩
  have ended : HoldsAt n s2 s3 := by
    unfold s3
    split
    · exact holdsAt_endSubst n s2 _
    · exact holdsAt_refl n s2
  obtain ⟨others, keeps⟩ := directed.trans ended
  have bank : banked (s3.chan n) = banked (s.chan n) := (written.keepsHold keeps).banked
  have refreshed : ∀ t, HoldsAt n s3 t → (banked (s3.chan n) = true → (t.chan n).inControl = true) → RefreshedAt n s t :=
    fun t last held =>
      { others := fun m hm => ((last.others m hm).trans (others m hm)).trans (State.onChan_chan_other s n m _ hm)
        restarted := (written.keepsHold keeps).keepsHold last.keeps
        held := fun hb => held (bank.trans hb) }
  split
  · next trim => exact refreshed s3 (holdsAt_refl n s3) fun hb => by simp [hb] at trim
  · split
    · refine refreshed _ (holdsAt_onChan (keeperTakes_keepsHold ..)) fun _ => ?_
      rw [State.onChan_chan]
      exact keeperTakes_inControl ..
    · next free => exact refreshed _ (holdsAt_driveShell n s3) fun hb => by simp [hb] at free

theorem refreshOne_chan_other (n : Fin 24) (s : State) (m : Fin 24) (hm : m ≠ n) : (refreshOne n s).chan m = s.chan m := by
  cases h : isOutChan (s.chan n) with
  | false => rw [refreshOne_of_not_output h]
  | true => exact (refreshOne_of_output h).others m hm

theorem refreshOne_clock (n : Fin 24) (s : State) : (refreshOne n s).clock = s.clock :=
  same_clock (frame_refreshOne (L := [.chans, .events]) (List.Subset.refl _) (frame_refl _ s)) (by decide)

/-! ## KEEPER_REFRESH -/

/-- A trick start's effect on one channel: an output is refreshed, any other channel stays. -/
structure RefreshedIfOutput (k : Clock) (c c' : Chan) : Prop where
  other : isOutChan c = false → c' = c
  restarted : isOutChan c = true → Restarted k c c'
  held : isOutChan c = true → banked c = true → c'.inControl = true

theorem refreshOne_refreshes (n : Fin 24) (s : State) :
    RefreshedIfOutput s.clock (s.chan n) ((refreshOne n s).chan n) where
  other h := by rw [refreshOne_of_not_output h]
  restarted h := (refreshOne_of_output h).restarted
  held h := (refreshOne_of_output h).held

theorem execKeeperRefresh_due {s : State} (trick : atTrick s = true) (runs : s.supply.kindle = .joining ∨ s.supply.kindle = .up) :
    execKeeperRefresh s = .next (s.each (List.finRange 24) refreshOne) := by
  have due : (atTrick s && (s.supply.kindle == .joining || s.supply.kindle == .up)) = true := by
    rcases runs with h | h <;> rw [trick, h] <;> rfl
  simp only [execKeeperRefresh, whenDue, due, if_true]

/-- Settles O15: each channel is visited once, so the walk leaves it as its own refresh does (R16). -/
theorem keepersRefreshEachTrick : Obligations.KeepersRefreshEachTrick := by
  unfold Obligations.KeepersRefreshEachTrick
  intro s trick runs
  refine ⟨s.each (List.finRange 24) refreshOne, execKeeperRefresh_due trick runs, ?_, fun n => ?_⟩
  · exact frame_each (fun _ _ hx => frame_refreshOne (List.Subset.refl _) hx) (frame_refl _ s)
  · obtain ⟨other, restarted, held⟩ := each_chan_of_mem (R := RefreshedIfOutput) (s := s) refreshOne_chan_other
      refreshOne_clock refreshOne_refreshes (List.nodup_finRange 24) (List.mem_finRange n)
    exact ⟨other, fun out => ⟨(restarted out).timer, (restarted out).latch, fun bank _ => held out bank⟩⟩

end Sys2Proof.Proofs
end

section
/-! The resistor codes' windows (02_straps_and_resistor_codes.md, R38 and Table 2.1): the windows lie apart, so a conversion reads as
a code exactly when it lies in that code's window, and the statement on one conversion. -/

namespace Sys2Proof.Proofs

open Sys2Proof Sys2Proof.Machine Sys2Proof.Safety Sys2Proof.Laws

section Windows

variable {r : Nat} {m n : Fin 16}

/-! ## The windows of Table 2.1 -/

/-- Code `n` has a nominal resistor: neither the short (0) nor the open pin (15). -/
def HasResistor (n : Fin 16) : Prop := 1 ≤ n.val ∧ n.val ≤ 14

theorem hasResistor_iff : HasResistor n ↔ n.val ≠ 0 ∧ n.val ≠ 15 := by
  unfold HasResistor
  omega

theorem inWindow_iff (n r : Nat) :
    inWindow n r = true ↔ 950 * nominalOhms.getD (n - 1) 0 ≤ r ∧ r ≤ 1050 * nominalOhms.getD (n - 1) 0 := by
  simp only [inWindow, Bool.and_eq_true, decide_eq_true_eq]
  omega

/-- Every resistor's window lies between the short's and the open pin's. -/
theorem window_ends : ∀ n : Fin 16, 1 ≤ n.val → n.val ≤ 14 →
    250000 ≤ 950 * nominalOhms.getD (n.val - 1) 0 ∧ 1050 * nominalOhms.getD (n.val - 1) 0 ≤ 60000000 := by
  decide

/-- A smaller code's window ends below the start of a larger code's. -/
theorem windows_ascend : ∀ m n : Fin 16, 1 ≤ m.val → m.val < n.val → n.val ≤ 14 →
    1050 * nominalOhms.getD (m.val - 1) 0 < 950 * nominalOhms.getD (n.val - 1) 0 := by
  decide

theorem between_of_inWindow (hn : HasResistor n) (h : inWindow n r = true) : 250000 ≤ r ∧ r ≤ 60000000 := by
  obtain ⟨low, high⟩ := (inWindow_iff n r).mp h
  obtain ⟨above, below⟩ := window_ends n hn.1 hn.2
  exact ⟨above.trans low, high.trans below⟩

theorem not_inWindow_of_lt (hm : HasResistor m) (hn : HasResistor n) (lt : m.val < n.val) (h : inWindow m r = true) :
    inWindow n r ≠ true := fun h' =>
  have apart := windows_ascend m n hm.1 lt hn.2
  absurd (((inWindow_iff n r).mp h').1.trans ((inWindow_iff m r).mp h).2) (Nat.not_le.mpr apart)

/-! ## The code of a conversion -/

/-- Resistance `r`, in milliohm, lies in the window that R38 gives code `n`. -/
def CodeWindow (n : Fin 16) (r : Nat) : Prop :=
  (n = 0 ∧ r < 250000) ∨ (n = 15 ∧ 60000000 < r) ∨ (HasResistor n ∧ inWindow n r = true)

theorem codeWindow_zero_iff : CodeWindow 0 r ↔ r < 250000 := by
  simp [CodeWindow, HasResistor]

theorem codeWindow_fifteen_iff : CodeWindow 15 r ↔ 60000000 < r := by
  simp [CodeWindow, HasResistor]

theorem codeWindow_iff_inWindow (hn : HasResistor n) : CodeWindow n r ↔ inWindow n r = true := by
  obtain ⟨not_short, not_open⟩ := hasResistor_iff.mp hn
  simp [CodeWindow, hn, Fin.ext_iff, not_short, not_open]

theorem convCode_of_short (short : r < 250000) : convCode r = some 0 := if_pos short

theorem convCode_of_open (open_ : 60000000 < r) : convCode r = some 15 := by
  have not_short : ¬ r < 250000 := by omega
  rw [convCode, if_neg not_short, if_pos open_]

/-- What `convCode` searches for between the ends. -/
theorem searched_iff : (n.val != 0 && n.val != 15 && inWindow n.val r) = true ↔ HasResistor n ∧ inWindow n r = true := by
  simp [hasResistor_iff]

/-- Between the ends the search finds the first code with a fitting window, and no window before it fits as well. -/
theorem convCode_eq_some_iff_of_between (low : 250000 ≤ r) (high : r ≤ 60000000) :
    convCode r = some n ↔ HasResistor n ∧ inWindow n r = true := by
  rw [convCode, if_neg (Nat.not_lt.mpr low), if_neg (Nat.not_lt.mpr high), ← Fin.find?_eq_find?_finRange,
    Fin.find?_eq_some_iff, searched_iff]
  refine and_iff_left_of_imp fun ⟨hn, fits⟩ m before => Bool.eq_false_iff.mpr fun earlier => ?_
  obtain ⟨hm, fitsEarlier⟩ := searched_iff.mp earlier
  exact not_inWindow_of_lt hm hn before fitsEarlier fits

/-- R38: a conversion reads as a code exactly when it lies in the code's window. -/
theorem convCode_eq_some_iff : convCode r = some n ↔ CodeWindow n r := by
  constructor
  · intro h
    rcases Nat.lt_or_ge r 250000 with short | low
    · rw [convCode_of_short short] at h
      exact .inl ⟨(Option.some.inj h).symm, short⟩
    · rcases Nat.lt_or_ge 60000000 r with open_ | high
      · rw [convCode_of_open open_] at h
        exact .inr (.inl ⟨(Option.some.inj h).symm, open_⟩)
      · exact .inr (.inr ((convCode_eq_some_iff_of_between low high).mp h))
  · rintro (⟨rfl, short⟩ | ⟨rfl, open_⟩ | ⟨hn, fits⟩)
    · exact convCode_of_short short
    · exact convCode_of_open open_
    · obtain ⟨low, high⟩ := between_of_inWindow hn fits
      exact (convCode_eq_some_iff_of_between low high).mpr ⟨hn, fits⟩

/-- R38: a conversion in no window is ambiguous. -/
theorem convCode_eq_none_iff :
    convCode r = none ↔ 250000 ≤ r ∧ r ≤ 60000000 ∧ ∀ n : Fin 16, HasResistor n → ¬ inWindow n r = true := by
  simp only [Option.eq_none_iff_forall_ne_some, ne_eq, convCode_eq_some_iff]
  constructor
  · intro outside
    exact ⟨Nat.not_lt.mp (codeWindow_zero_iff.not.mp (outside 0)), Nat.not_lt.mp (codeWindow_fifteen_iff.not.mp (outside 15)),
      fun n hn => (codeWindow_iff_inWindow hn).not.mp (outside n)⟩
  · rintro ⟨low, high, windows⟩ n (⟨-, short⟩ | ⟨-, open_⟩ | ⟨hn, fits⟩)
    · exact Nat.not_lt.mpr low short
    · exact Nat.not_lt.mpr high open_
    · exact windows n hn fits

end Windows

/-- Settles O21: one resistance reads as the code in whose window it lies, and the windows are those of R38. -/
theorem resistorCodeWindows : Obligations.ResistorCodeWindows := by
  unfold Obligations.ResistorCodeWindows
  intro r
  refine ⟨fun n first last => ?_, convCode_eq_some_iff.trans codeWindow_zero_iff,
    convCode_eq_some_iff.trans codeWindow_fifteen_iff, ?_⟩
  · exact convCode_eq_some_iff.trans ((codeWindow_iff_inWindow ⟨first, last⟩).trans (inWindow_iff n r))
  · simp only [convCode_eq_none_iff, HasResistor, and_imp, inWindow_iff]

end Sys2Proof.Proofs
end

section
/-! The trunk voltage and the damper (03_flue_hearth_ember.md, R69 to R72, R92): what raising and clearing leave of the latching
codes, the judgement of a measured voltage, the damper's target and slew, and the statement on them. -/

namespace Sys2Proof.Proofs

open Sys2Proof Sys2Proof.Machine Sys2Proof.Safety Sys2Proof.Laws

/-! ## Latching codes -/

section Latches

variable {s : State} {code src obj code' src' obj' : Nat} {owner : Option Nat} {detail : List Byte}

theorem sameLatch_iff {l : Latch} : sameLatch code src obj l = true ↔ (l.code.toNat, l.src, l.obj) = (code, src, obj) := by
  simp [sameLatch, and_assoc]

theorem sameLatch_of_other {l : Latch} (other : (code', src', obj') ≠ (code, src, obj))
    (h : sameLatch code' src' obj' l = true) : sameLatch code src obj l = false :=
  Bool.eq_false_iff.mpr fun h' => other ((sameLatch_iff.mp h).symm.trans (sameLatch_iff.mp h'))

/-- An update of latches that keeps what each stands for keeps every code as it is raised. -/
theorem any_sameLatch_map {g : Latch → Latch} (keeps : ∀ l, sameLatch code src obj (g l) = sameLatch code src obj l)
    (ls : List Latch) : (ls.map g).any (sameLatch code src obj) = ls.any (sameLatch code src obj) := by
  simp only [List.any_map, Function.comp_def, keeps]

/-- Removing the latches of one code keeps every other as it is raised. -/
theorem any_sameLatch_filter (other : (code', src', obj') ≠ (code, src, obj)) (ls : List Latch) :
    (ls.filter fun l => !sameLatch code src obj l).any (sameLatch code' src' obj') = ls.any (sameLatch code' src' obj') := by
  rw [List.any_filter]
  congr 1
  funext l
  cases h : sameLatch code' src' obj' l with
  | false => exact Bool.and_false _
  | true => rw [sameLatch_of_other other h]; rfl

theorem raiseLatching_latched (fits : code < 65536) : latched (raiseLatching s code src obj owner detail) code src obj = true := by
  unfold raiseLatching
  split
  · have code16 : (BitVec.ofNat 16 code).toNat = code := Nat.mod_eq_of_lt fits
    simp [latched, sameLatch, code16]
  · next l found =>
    have raised : latched s code src obj = true := List.any_eq_true.mpr ⟨l, List.mem_of_find?_eq_some found, List.find?_some found⟩
    split
    · exact (any_sameLatch_map (fun x => by split <;> rfl) _).trans raised
    · exact raised

theorem raise_latched (latching : evLatching code = true) (fits : code < 65536) :
    latched (raise s code src detail obj owner) code src obj = true := by
  rw [raise, if_pos latching]
  exact raiseLatching_latched fits

theorem clearLatching_latched_other (other : (code', src', obj') ≠ (code, src, obj)) :
    latched (clearLatching s code src obj detail) code' src' obj' = latched s code' src' obj' := by
  unfold clearLatching
  split
  · rfl
  · split
    · rfl
    · split
      · exact any_sameLatch_map (fun x => by split <;> rfl) _
      · exact any_sameLatch_filter other _

end Latches

/-! ## The measured trunk voltage -/

/-- R69: a value that fits its field is 4,800,000,000 / N rounded to nearest. -/
theorem trunkVolt_to_nearest {n : Nat} (counted : n ≠ 0) (fits : trunkVolt n < 65535) :
    2 * trunkVolt n * n ≤ 9600000000 + n ∧ 9600000000 < 2 * trunkVolt n * n + n := by
  have quotient : trunkVolt n = (9600000000 + n) / (2 * n) := by
    change min 65535 ((9600000000 + n) / (2 * n)) < 65535 at fits
    change min 65535 ((9600000000 + n) / (2 * n)) = _
    omega
  have shape : 2 * trunkVolt n * n = 2 * n * ((9600000000 + n) / (2 * n)) := by
    rw [quotient]
    ring
  have below := Nat.mul_div_le (9600000000 + n) (2 * n)
  have above := Nat.lt_mul_div_succ (9600000000 + n) (show 0 < 2 * n by omega)
  rw [Nat.mul_succ] at above
  omega

/-- TRUNK_V_UPDATE's write: the voltage, which stands as the last non-zero one unless it is zero, and no trunk-absent (R69, R70). -/
def measureTrunk (v : Nat) (s : State) : State :=
  s.onSupply fun u => { u with trunkV := v, lastTrunkV := if v == 0 then u.lastTrunkV else v, trunkAbsent := false }

/-- TRUNK_V_UPDATE's judgement of a measured voltage for one fault of Table 3.10, which it begins or ends. -/
def judgeTrunk (code v : Nat) (begins ends : Prop) [Decidable begins] [Decidable ends] (s : State) : State :=
  if begins then raise s code 0x30 (beBytes 2 v) else if ends then clearLatching s code 0x30 0 (beBytes 2 v) else s

/-- TRUNK_V_UPDATE's judgement of a measured voltage: telemetry lost ends, then trunk low and trunk high (Table 3.10). -/
def judgeMeasured (v : Nat) (s : State) : State :=
  judgeTrunk 0x0305 v (6200 < v) (v ≤ 6100) (judgeTrunk 0x0304 v (v < 2200) (2250 ≤ v) (clearLatching s 0x0303 0x30 0 []))

theorem execTrunkVUpdate_due {n : Nat} {s : State} (runs : shellRuns s = true) (counted : n ≠ 0) :
    execTrunkVUpdate n s = .next (judgeMeasured (trunkVolt n) (measureTrunk (trunkVolt n) s)) := by
  have due : (shellRuns s && n != 0) = true := by simp [runs, counted]
  simp only [execTrunkVUpdate, whenDue, due, if_true]
  rfl

section Judged

variable {code other v : Nat} {begins ends : Prop} [Decidable begins] [Decidable ends] {s : State}

theorem judgeTrunk_alters : Alters [.events] s (judgeTrunk code v begins ends s) := by
  unfold judgeTrunk
  split
  · exact frame_raise (List.Subset.refl _) (frame_refl _ s)
  · split
    · exact frame_clearLatching (List.Subset.refl _) (frame_refl _ s)
    · exact frame_refl _ s

theorem judgeTrunk_latched (latching : evLatching code = true) (fits : code < 65536) (h : begins) :
    latched (judgeTrunk code v begins ends s) code 0x30 0 = true := by
  rw [judgeTrunk, if_pos h]
  exact raise_latched latching fits

/-- A fault that does not begin leaves the others as they are raised. -/
theorem judgeTrunk_latched_other (ne : other ≠ code) (h : ¬ begins) :
    latched (judgeTrunk code v begins ends s) other 0x30 0 = latched s other 0x30 0 := by
  rw [judgeTrunk, if_neg h]
  split
  · exact clearLatching_latched_other fun same => ne (congrArg Prod.fst same)
  · rfl

theorem judgeMeasured_alters : Alters [.events] s (judgeMeasured v s) :=
  frame_trans (frame_trans (frame_clearLatching (List.Subset.refl _) (frame_refl _ s)) judgeTrunk_alters) judgeTrunk_alters

theorem judgeMeasured_supply : (judgeMeasured v s).supply = s.supply := same_supply judgeMeasured_alters (by decide)

/-- Trunk low is raised before trunk high is judged, which a low voltage does not begin. -/
theorem judgeMeasured_latched_low (low : v < 2200) : latched (judgeMeasured v s) 0x0304 0x30 0 = true :=
  (judgeTrunk_latched_other (by decide) (by omega)).trans (judgeTrunk_latched (by decide) (by decide) low)

theorem judgeMeasured_latched_high (high : 6200 < v) : latched (judgeMeasured v s) 0x0305 0x30 0 = true :=
  judgeTrunk_latched (by decide) (by decide) high

end Judged

/-! ## Absence and lost telemetry -/

theorem execTrunkAbsent_due {s : State} (runs : shellRuns s = true) :
    execTrunkAbsent s = .next { s with supply := { s.supply with trunkV := 0, trunkAbsent := true } } := by
  simp only [execTrunkAbsent, whenDue, runs, if_true]
  rfl

theorem execTelemetryLost_due {s : State} (runs : shellRuns s = true) (absent : s.supply.trunkAbsent = true)
    (powered : 1185 ≤ s.supply.vbusV) : execTelemetryLost s = .next (raise s 0x0303 0x30 []) := by
  simp only [execTelemetryLost, whenDue, runs, absent, powered, Bool.and_self, decide_true, if_true]

/-! ## The damper -/

section Damper

variable {draw v l target : Nat} {s : State}

theorem damperTarget_of_full (full : 2200 ≤ v) : damperTarget draw v = 400 * draw := by
  rw [damperTarget, if_pos full, Nat.mul_comm]

theorem damperTarget_of_foldback (low : 1800 ≤ v) (high : v < 2200) : damperTarget draw v * 400 = 400 * draw * (v - 1800) := by
  rw [damperTarget, if_neg (Nat.not_le.mpr high), if_neg (Nat.not_lt.mpr low)]
  ring

theorem damperTarget_of_low (low : v < 1800) : damperTarget draw v = 0 := by
  rw [damperTarget, if_neg (by omega), if_pos low]

theorem damperSlew_up (below : l ≤ target) : damperSlew l target = min target (l + 100000) := if_pos below

theorem damperSlew_down (above : target ≤ l) : damperSlew l target = max target (l - 100000) := by
  unfold damperSlew
  split <;> omega

theorem damperD_of_volt (volt : v ≠ 0) : damperD l v = max 1 (min 255 (l / (20 * v))) :=
  if_neg (by simpa using volt)

/-- The supply after L was set to `l` (R71). -/
def setL (l : Nat) (u : Supply) : Supply := { u with l := l, d := damperD l (damperVolt u) }

theorem execDamperUpdate_due (trick : atTrick s = true) (runs : shellRuns s = true) (driven : s.supply.flueLim = true) :
    execDamperUpdate s = .next (s.onSupply fun u =>
      setL (damperSlew u.l (damperTarget (drawOf s.straps.codes) (damperVolt u))) u) := by
  simp only [execDamperUpdate, whenDue, trick, runs, driven, Bool.and_self, if_true]
  rfl

theorem execFlueLimStart_due (trick : atTrick s = true) (kindle : s.supply.kindle = .joining ∨ s.supply.kindle = .up)
    (still : s.supply.flueLim = false) (measured : s.supply.lastTrunkV ≠ 0) :
    execFlueLimStart s = .next (s.onSupply fun u =>
      { setL (damperTarget (drawOf s.straps.codes) (damperVolt u)) u with flueLim := true }) := by
  have due : (atTrick s && (s.supply.kindle == .joining || s.supply.kindle == .up) && !s.supply.flueLim &&
      s.supply.lastTrunkV != 0) = true := by
    simpa [trick, still, measured] using kindle
  simp only [execFlueLimStart, whenDue, due, if_true]
  rfl

theorem onSupply_alters (f : Supply → Supply) : Alters [.supply] s (s.onSupply f) :=
  frame_State_onSupply (List.Subset.refl _) (frame_refl _ s)

end Damper

/-! ## The statement -/

/-- Settles O23: a measured voltage is judged after it is written, and the damper's L moves to or towards the target of the voltage
in use. -/
theorem trunkVoltageDrivesTheDamper : Obligations.TrunkVoltageDrivesTheDamper := by
  unfold Obligations.TrunkVoltageDrivesTheDamper
  refine ⟨fun n s runs counted fits => ?_, fun s runs => execTrunkAbsent_due runs, fun s runs absent powered => ?_, ?_⟩
  · obtain ⟨below, above⟩ := trunkVolt_to_nearest counted fits
    refine ⟨_, execTrunkVUpdate_due runs counted, ?_, ?_⟩
    · exact frame_trans (frame_mono (by decide) (onSupply_alters _)) (frame_mono (by decide) judgeMeasured_alters)
    · rw [judgeMeasured_supply]
      exact ⟨rfl, below, above, fun nonzero => if_neg fun zero => nonzero (beq_iff_eq.mp zero),
        judgeMeasured_latched_low, judgeMeasured_latched_high⟩
  · exact ⟨_, execTelemetryLost_due runs absent powered, frame_raise (List.Subset.refl _) (frame_refl _ s),
      raise_latched (by decide) (by decide)⟩
  · rintro s v cap inUse rfl volt trick
    have used : damperVolt s.supply = v := inUse.symm
    subst used
    refine ⟨fun runs driven => ?_, fun kindle still measured => ?_⟩
    · exact ⟨_, execDamperUpdate_due trick runs driven, onSupply_alters _,
        ⟨damperTarget (drawOf s.straps.codes) (damperVolt s.supply), damperTarget_of_full, damperTarget_of_foldback,
          damperTarget_of_low, damperSlew_up, damperSlew_down⟩,
        damperD_of_volt volt, rfl, driven⟩
    · exact ⟨_, execFlueLimStart_due trick kindle still measured, onSupply_alters _, rfl,
        damperTarget_of_full, damperTarget_of_foldback, damperTarget_of_low, damperD_of_volt volt⟩

end Sys2Proof.Proofs
end

section
/-! The block's step: what no command touches (the waiting commands and DIE_ID, R514), the memory's canonical form under every command
and the idle tick, and the idle tick's clocks. -/

namespace Sys2Proof.Proofs

open Sys2Proof Sys2Proof.Machine Sys2Proof.Safety Sys2Proof.Laws

/-! ## What a command may change -/

/-- Every part of the state but the die identity and the waiting commands. -/
def commandParts : List Part :=
  [.free, .supply, .tiers, .straps, .clock, .portA, .portB, .cut, .tables, .queues, .hands, .streams, .chans, .mem, .engine, .vault,
    .seat, .events, .dbg, .announce, .counters]

/-- Each row's frame names only parts a command may change. -/
theorem exec_answers (c : Instr) (s : State) : Answers commandParts s (exec c s) :=
  match c with
  | .powerUp => frame_execPowerUp (by decide) (frame_refl _ s)
  | .shellRelease => frame_execShellRelease (by decide) (frame_refl _ s)
  | .railOutOfWindow _ => frame_execRailOutOfWindow (by decide) (frame_refl _ s)
  | .vanLost => frame_execVanLost (by decide) (frame_refl _ s)
  | .rstNAssert => frame_execRstNAssert (by decide) (frame_refl _ s)
  | .rstNRelease => frame_execRstNRelease (by decide) (frame_refl _ s)
  | .testEnHigh => frame_execTestEnHigh (by decide) (frame_refl _ s)
  | .strapRound _ => frame_execStrapRound (by decide) (frame_refl _ s)
  | .strapReadingResolved => frame_execStrapReadingResolved (by decide) (frame_refl _ s)
  | .vaultLoadDone _ => frame_execVaultLoadDone (by decide) (frame_refl _ s)
  | .memoryClearDone _ => frame_execMemoryClearDone (by decide) (frame_refl _ s)
  | .kindleReadingDone => frame_execKindleReadingDone (by decide) (frame_refl _ s)
  | .analogCoreStartDone _ => frame_execAnalogCoreStartDone (by decide) (frame_refl _ s)
  | .kindleAttemptFail _ => frame_execKindleAttemptFail (by decide) (frame_refl _ s)
  | .tierMoveDown _ => frame_execTierMoveDown (by decide) (frame_refl _ s)
  | .tierMoveUp _ => frame_execTierMoveUp (by decide) (frame_refl _ s)
  | .keeperRefresh => frame_execKeeperRefresh (by decide) (frame_refl _ s)
  | .keeperTimerExpiry _ _ _ _ _ => frame_execKeeperTimerExpiry (by decide) (frame_refl _ s)
  | .keeperCheck _ => frame_execKeeperCheck (by decide) (frame_refl _ s)
  | .crosspointCheck _ => frame_execCrosspointCheck (by decide) (frame_refl _ s)
  | .strapRereadEnd => frame_execStrapRereadEnd (by decide) (frame_refl _ s)
  | .rereadHeldStart => frame_execRereadHeldStart (by decide) (frame_refl _ s)
  | .restrapApply => frame_execRestrapApply (by decide) (frame_refl _ s)
  | .blankmapDeferredApply => frame_execBlankmapDeferredApply (by decide) (frame_refl _ s)
  | .curveCapLift => frame_execCurveCapLift (by decide) (frame_refl _ s)
  | .trunkVUpdate _ => frame_execTrunkVUpdate (by decide) (frame_refl _ s)
  | .trunkAbsent => frame_execTrunkAbsent (by decide) (frame_refl _ s)
  | .telemetryLost => frame_execTelemetryLost (by decide) (frame_refl _ s)
  | .damperUpdate => frame_execDamperUpdate (by decide) (frame_refl _ s)
  | .flueLimStart => frame_execFlueLimStart (by decide) (frame_refl _ s)
  | .ledgerUpdate _ _ => frame_execLedgerUpdate (by decide) (frame_refl _ s)
  | .chargeEnable => frame_execChargeEnable (by decide) (frame_refl _ s)
  | .chargePause => frame_execChargePause (by decide) (frame_refl _ s)
  | .hearthOvervoltage => frame_execHearthOvervoltage (by decide) (frame_refl _ s)
  | .hearthWeak _ => frame_execHearthWeak (by decide) (frame_refl _ s)
  | .vbusOvervoltage _ => frame_execVbusOvervoltage (by decide) (frame_refl _ s)
  | .ridingEnter _ => frame_execRidingEnter (by decide) (frame_refl _ s)
  | .ridingEnd _ => frame_execRidingEnd (by decide) (frame_refl _ s)
  | .energyCheck => frame_execEnergyCheck (by decide) (frame_refl _ s)
  | .emberEntry => frame_execEmberEntry (by decide) (frame_refl _ s)
  | .brownoutNoHearth => frame_execBrownoutNoHearth (by decide) (frame_refl _ s)
  | .emberVsramLoss => frame_execEmberVsramLoss (by decide) (frame_refl _ s)
  | .emberWake => frame_execEmberWake (by decide) (frame_refl _ s)
  | .acquireStart => frame_execAcquireStart (by decide) (frame_refl _ s)
  | .disciplineLoopUpdate _ _ _ => frame_execDisciplineLoopUpdate (by decide) (frame_refl _ s)
  | .disciplined => frame_execDisciplined (by decide) (frame_refl _ s)
  | .holdoverEnter _ => frame_execHoldoverEnter (by decide) (frame_refl _ s)
  | .pllLockLost => frame_execPllLockLost (by decide) (frame_refl _ s)
  | .beaconSend => frame_execBeaconSend (by decide) (frame_refl _ s)
  | .beaconReceive _ _ _ => frame_execBeaconReceive (by decide) (frame_refl _ s)
  | .realignJump => frame_execRealignJump (by decide) (frame_refl _ s)
  | .slewEnd => frame_execSlewEnd (by decide) (frame_refl _ s)
  | .epochChangeNoJump => frame_execEpochChangeNoJump (by decide) (frame_refl _ s)
  | .eventRelease => frame_execEventRelease (by decide) (frame_refl _ s)
  | .holdingStoreDrain => frame_execHoldingStoreDrain (by decide) (frame_refl _ s)
  | .heldClearRelease _ _ _ => frame_execHeldClearRelease (by decide) (frame_refl _ s)
  | .nodeResetApply => frame_execNodeResetApply (by decide) (frame_refl _ s)
  | .portResetApply _ => frame_execPortResetApply (by decide) (frame_refl _ s)
  | .portQuietEnd _ => frame_execPortQuietEnd (by decide) (frame_refl _ s)
  | .pipeResetApply _ => frame_execPipeResetApply (by decide) (frame_refl _ s)
  | .pipeIngressResume _ => frame_execPipeIngressResume (by decide) (frame_refl _ s)
  | .chRekindleCalDone _ _ => frame_execChRekindleCalDone (by decide) (frame_refl _ s)
  | .pilotLock _ => frame_execPilotLock (by decide) (frame_refl _ s)
  | .pilotsLost _ => frame_execPilotsLost (by decide) (frame_refl _ s)
  | .linkStart _ => frame_execLinkStart (by decide) (frame_refl _ s)
  | .trainReqSend _ => frame_execTrainReqSend (by decide) (frame_refl _ s)
  | .trainReq _ _ => frame_execTrainReq (by decide) (frame_refl _ s)
  | .trainAck _ _ => frame_execTrainAck (by decide) (frame_refl _ s)
  | .soundingSlot _ _ => frame_execSoundingSlot (by decide) (frame_refl _ s)
  | .delay _ _ _ => frame_execDelay (by decide) (frame_refl _ s)
  | .soundingTableSend _ _ => frame_execSoundingTableSend (by decide) (frame_refl _ s)
  | .table _ _ => frame_execTable (by decide) (frame_refl _ s)
  | .tableAck _ _ => frame_execTableAck (by decide) (frame_refl _ s)
  | .tableSwitch _ => frame_execTableSwitch (by decide) (frame_refl _ s)
  | .oldSlotRelease _ => frame_execOldSlotRelease (by decide) (frame_refl _ s)
  | .tableResend _ => frame_execTableResend (by decide) (frame_refl _ s)
  | .soundingStepMissed _ => frame_execSoundingStepMissed (by decide) (frame_refl _ s)
  | .abort _ _ => frame_execAbort (by decide) (frame_refl _ s)
  | .linkAdapt _ _ _ _ => frame_execLinkAdapt (by decide) (frame_refl _ s)
  | .silenceTimerExpiry => frame_execSilenceTimerExpiry (by decide) (frame_refl _ s)
  | .bidSend => frame_execBidSend (by decide) (frame_refl _ s)
  | .bid _ _ => frame_execBid (by decide) (frame_refl _ s)
  | .clash _ _ => frame_execClash (by decide) (frame_refl _ s)
  | .tally _ _ => frame_execTally (by decide) (frame_refl _ s)
  | .cutMessagePassOn _ => frame_execCutMessagePassOn (by decide) (frame_refl _ s)
  | .cutSettle => frame_execCutSettle (by decide) (frame_refl _ s)
  | .cutFollowTimeout => frame_execCutFollowTimeout (by decide) (frame_refl _ s)
  | .dealSend => frame_execDealSend (by decide) (frame_refl _ s)
  | .deal _ _ => frame_execDeal (by decide) (frame_refl _ s)
  | .dealerFacingChange => frame_execDealerFacingChange (by decide) (frame_refl _ s)
  | .break_ _ _ => frame_execBreak (by decide) (frame_refl _ s)
  | .call _ _ => frame_execCall (by decide) (frame_refl _ s)
  | .topologyFlush => frame_execTopologyFlush (by decide) (frame_refl _ s)
  | .reclaimPassEnd => frame_execReclaimPassEnd (by decide) (frame_refl _ s)
  | .headerDecision _ _ _ => frame_execHeaderDecision (by decide) (frame_refl _ s)
  | .transitEgress _ => frame_execTransitEgress (by decide) (frame_refl _ s)
  | .payloadCheck _ _ _ => frame_execPayloadCheck (by decide) (frame_refl _ s)
  | .rxPreempt _ => frame_execRxPreempt (by decide) (frame_refl _ s)
  | .portSymbolSchedule _ => frame_execPortSymbolSchedule (by decide) (frame_refl _ s)
  | .placeAnnounceSend => frame_execPlaceAnnounceSend (by decide) (frame_refl _ s)
  | .agingScannerVisit _ => frame_execAgingScannerVisit (by decide) (frame_refl _ s)
  | .learnedPrefixAging => frame_execLearnedPrefixAging (by decide) (frame_refl _ s)
  | .policerRefill => frame_execPolicerRefill (by decide) (frame_refl _ s)
  | .shaperRefill => frame_execShaperRefill (by decide) (frame_refl _ s)
  | .epochDrained => frame_execEpochDrained (by decide) (frame_refl _ s)
  | .commitPrepared => frame_execCommitPrepared (by decide) (frame_refl _ s)
  | .commitSwitch => frame_execCommitSwitch (by decide) (frame_refl _ s)
  | .commitWritebackDone => frame_execCommitWritebackDone (by decide) (frame_refl _ s)
  | .commitDefer => frame_execCommitDefer (by decide) (frame_refl _ s)
  | .flushPortStep _ => frame_execFlushPortStep (by decide) (frame_refl _ s)
  | .streamFrameBuild _ => frame_execStreamFrameBuild (by decide) (frame_refl _ s)
  | .originEntryRemove _ => frame_execOriginEntryRemove (by decide) (frame_refl _ s)
  | .outApply _ => frame_execOutApply (by decide) (frame_refl _ s)
  | .responseHeldRelease => frame_execResponseHeldRelease (by decide) (frame_refl _ s)
  | .handResetDrain _ => frame_execHandResetDrain (by decide) (frame_refl _ s)
  | .scrubWrite => frame_execScrubWrite (by decide) (frame_refl _ s)
  | .sweepRegionStart _ => frame_execSweepRegionStart (by decide) (frame_refl _ s)
  | .wakeScrubEnd => frame_execWakeScrubEnd (by decide) (frame_refl _ s)
  | .disconnectOpen _ => frame_execDisconnectOpen (by decide) (frame_refl _ s)
  | .disconnectReclose _ => frame_execDisconnectReclose (by decide) (frame_refl _ s)
  | .loopSupplyFoldback _ => frame_execLoopSupplyFoldback (by decide) (frame_refl _ s)
  | .loopSupplyRetry _ _ => frame_execLoopSupplyRetry (by decide) (frame_refl _ s)
  | .roleChangeStart _ => frame_execRoleChangeStart (by decide) (frame_refl _ s)
  | .roleChangeStep _ => frame_execRoleChangeStep (by decide) (frame_refl _ s)
  | .sampleReady _ _ => frame_execSampleReady (by decide) (frame_refl _ s)
  | .blankRise _ => frame_execBlankRise (by decide) (frame_refl _ s)
  | .blankFall _ => frame_execBlankFall (by decide) (frame_refl _ s)
  | .blankTooLong _ => frame_execBlankTooLong (by decide) (frame_refl _ s)
  | .blankIgnoreEnd _ => frame_execBlankIgnoreEnd (by decide) (frame_refl _ s)
  | .cjReferenceLossTimeout => frame_execCjReferenceLossTimeout (by decide) (frame_refl _ s)
  | .curveSwitch _ => frame_execCurveSwitch (by decide) (frame_refl _ s)
  | .settlingAllowanceEnd _ => frame_execSettlingAllowanceEnd (by decide) (frame_refl _ s)
  | .readbackResult _ _ => frame_execReadbackResult (by decide) (frame_refl _ s)
  | .trimPointReady _ _ => frame_execTrimPointReady (by decide) (frame_refl _ s)
  | .trimStepTimeout _ => frame_execTrimStepTimeout (by decide) (frame_refl _ s)
  | .trimApply _ => frame_execTrimApply (by decide) (frame_refl _ s)
  | .vaultWriteEnd _ => frame_execVaultWriteEnd (by decide) (frame_refl _ s)
  | .countersignExpiry _ => frame_execCountersignExpiry (by decide) (frame_refl _ s)
  | .proposalLapse => frame_execProposalLapse (by decide) (frame_refl _ s)
  | .commissionChange _ => frame_execCommissionChange (by decide) (frame_refl _ s)
  | .vaultClaim => frame_execVaultClaim (by decide) (frame_refl _ s)
  | .wardLockChange _ => frame_execWardLockChange (by decide) (frame_refl _ s)
  | .fixedResponder _ => frame_execFixedResponder (by decide) (frame_refl _ s)
  | .statRead _ => frame_execStatRead (by decide) (frame_refl _ s)
  | .statCount _ => frame_execStatCount (by decide) (frame_refl _ s)
  | .evRead _ => frame_execEvRead (by decide) (frame_refl _ s)
  | .evAck _ => frame_execEvAck (by decide) (frame_refl _ s)
  | .handClaim _ => frame_execHandClaim (by decide) (frame_refl _ s)
  | .handStations _ => frame_execHandStations (by decide) (frame_refl _ s)
  | .handReset _ => frame_execHandReset (by decide) (frame_refl _ s)
  | .qRead _ => frame_execQRead (by decide) (frame_refl _ s)
  | .qSet _ => frame_execQSet (by decide) (frame_refl _ s)
  | .subOpen _ => frame_execSubOpen (by decide) (frame_refl _ s)
  | .subClose _ => frame_execSubClose (by decide) (frame_refl _ s)
  | .outSet _ => frame_execOutSet (by decide) (frame_refl _ s)
  | .outAlarmdir _ => frame_execOutAlarmdir (by decide) (frame_refl _ s)
  | .tblSearch _ => frame_execTblSearch (by decide) (frame_refl _ s)
  | .tblNext _ => frame_execTblNext (by decide) (frame_refl _ s)
  | .tblAdd _ => frame_execTblAdd (by decide) (frame_refl _ s)
  | .tblDel _ => frame_execTblDel (by decide) (frame_refl _ s)
  | .tblFlushPort _ => frame_execTblFlushPort (by decide) (frame_refl _ s)
  | .tblCommit _ => frame_execTblCommit (by decide) (frame_refl _ s)
  | .chRestrap _ => frame_execChRestrap (by decide) (frame_refl _ s)
  | .chRekindle _ => frame_execChRekindle (by decide) (frame_refl _ s)
  | .nodeReset _ => frame_execNodeReset (by decide) (frame_refl _ s)
  | .nodeRestrap _ => frame_execNodeRestrap (by decide) (frame_refl _ s)
  | .nodeAdopt _ => frame_execNodeAdopt (by decide) (frame_refl _ s)
  | .portReset _ => frame_execPortReset (by decide) (frame_refl _ s)
  | .pipeReset _ => frame_execPipeReset (by decide) (frame_refl _ s)
  | .phySound _ => frame_execPhySound (by decide) (frame_refl _ s)
  | .phyMargin _ => frame_execPhyMargin (by decide) (frame_refl _ s)
  | .phyMask _ => frame_execPhyMask (by decide) (frame_refl _ s)
  | .phySnr _ => frame_execPhySnr (by decide) (frame_refl _ s)
  | .trimStart _ => frame_execTrimStart (by decide) (frame_refl _ s)
  | .trimPoint _ => frame_execTrimPoint (by decide) (frame_refl _ s)
  | .trimCommit _ => frame_execTrimCommit (by decide) (frame_refl _ s)
  | .curveLoad _ => frame_execCurveLoad (by decide) (frame_refl _ s)
  | .memRepair _ => frame_execMemRepair (by decide) (frame_refl _ s)
  | .memSweep _ => frame_execMemSweep (by decide) (frame_refl _ s)
  | .twinMirror _ => frame_execTwinMirror (by decide) (frame_refl _ s)
  | .twinRelease _ => frame_execTwinRelease (by decide) (frame_refl _ s)
  | .wardPropose _ => frame_execWardPropose (by decide) (frame_refl _ s)
  | .wardCountersign _ => frame_execWardCountersign (by decide) (frame_refl _ s)
  | .wardSet _ => frame_execWardSet (by decide) (frame_refl _ s)
  | .wardRead _ => frame_execWardRead (by decide) (frame_refl _ s)
  | .keySet _ => frame_execKeySet (by decide) (frame_refl _ s)
  | .dbgOpen _ => frame_execDbgOpen (by decide) (frame_refl _ s)
  | .opStatus _ => frame_execOpStatus (by decide) (frame_refl _ s)
  | .opSuspend _ => frame_execOpSuspend (by decide) (frame_refl _ s)
  | .opResume _ => frame_execOpResume (by decide) (frame_refl _ s)
  | .opCancel _ => frame_execOpCancel (by decide) (frame_refl _ s)
  | .opStart _ => frame_execOpStart (by decide) (frame_refl _ s)
  | .opSuspendTimeout _ => frame_execOpSuspendTimeout (by decide) (frame_refl _ s)
  | .opRecordFree _ => frame_execOpRecordFree (by decide) (frame_refl _ s)
  | .seatFrameSend => frame_execSeatFrameSend (by decide) (frame_refl _ s)
  | .seatFrameReceive _ => frame_execSeatFrameReceive (by decide) (frame_refl _ s)
  | .heartbeatLoss => frame_execHeartbeatLoss (by decide) (frame_refl _ s)
  | .pairingWindowEnd => frame_execPairingWindowEnd (by decide) (frame_refl _ s)
  | .leadChange => frame_execLeadChange (by decide) (frame_refl _ s)
  | .shuntCatch _ => frame_execShuntCatch (by decide) (frame_refl _ s)
  | .takeoverTrip _ => frame_execTakeoverTrip (by decide) (frame_refl _ s)
  | .handback => frame_execHandback (by decide) (frame_refl _ s)
  | .mirrorResend => frame_execMirrorResend (by decide) (frame_refl _ s)
  | .seatRecordRewrite => frame_execSeatRecordRewrite (by decide) (frame_refl _ s)
  | .releaseComplete => frame_execReleaseComplete (by decide) (frame_refl _ s)
  | .tapReset => frame_execTapReset (by decide) (frame_refl _ s)
  | .tapRegisterWrite _ _ => frame_execTapRegisterWrite (by decide) (frame_refl _ s)
  | .extest _ _ => frame_execExtest (by decide) (frame_refl _ s)
  | .samplePreload _ _ => frame_execSamplePreload (by decide) (frame_refl _ s)
  | .clamp => frame_execClamp (by decide) (frame_refl _ s)
  | .highz => frame_execHighz (by decide) (frame_refl _ s)
  | .dctrlHalt _ => frame_execDctrlHalt (by decide) (frame_refl _ s)
  | .dctrlResume _ => frame_execDctrlResume (by decide) (frame_refl _ s)
  | .dctrlStep _ => frame_execDctrlStep (by decide) (frame_refl _ s)
  | .dctrlClose _ => frame_execDctrlClose (by decide) (frame_refl _ s)
  | .dctrlClearBphit _ => frame_execDctrlClearBphit (by decide) (frame_refl _ s)
  | .stepEnd => frame_execStepEnd (by decide) (frame_refl _ s)
  | .dbrk _ => frame_execDbrk (by decide) (frame_refl _ s)
  | .breakpointFire _ _ => frame_execBreakpointFire (by decide) (frame_refl _ s)
  | .dmemRead _ _ => frame_execDmemRead (by decide) (frame_refl _ s)
  | .dmemWrite _ => frame_execDmemWrite (by decide) (frame_refl _ s)
  | .sessionLifetimeEnd => frame_execSessionLifetimeEnd (by decide) (frame_refl _ s)
  | .reclaimPassVisit => frame_execReclaimPassVisit (by decide) (frame_refl _ s)
  | .phyMaskDeferredApply _ => frame_execPhyMaskDeferredApply (by decide) (frame_refl _ s)
  | .testEnLow => frame_execTestEnLow (by decide) (frame_refl _ s)

/-- Each row keeps the memory's canonical form: by its own law where it writes the memory, else since its frame leaves the memory out. -/
theorem exec_outWf (c : Instr) {s : State} (h : MemWf s) : OutWf (exec c s) :=
  match c with
  | .powerUp => outWf_of_answers (frame_execPowerUp (List.Subset.refl _) (frame_refl _ s)) (by decide) h
  | .shellRelease => outWf_of_answers (frame_execShellRelease (List.Subset.refl _) (frame_refl _ s)) (by decide) h
  | .railOutOfWindow _ => memWf_execRailOutOfWindow h
  | .vanLost => memWf_execVanLost h
  | .rstNAssert => memWf_execRstNAssert h
  | .rstNRelease => outWf_of_answers (frame_execRstNRelease (List.Subset.refl _) (frame_refl _ s)) (by decide) h
  | .testEnHigh => memWf_execTestEnHigh h
  | .strapRound _ => outWf_of_answers (frame_execStrapRound (List.Subset.refl _) (frame_refl _ s)) (by decide) h
  | .strapReadingResolved => outWf_of_answers (frame_execStrapReadingResolved (List.Subset.refl _) (frame_refl _ s)) (by decide) h
  | .vaultLoadDone _ => memWf_execVaultLoadDone h
  | .memoryClearDone _ => memWf_execMemoryClearDone h
  | .kindleReadingDone => memWf_execKindleReadingDone h
  | .analogCoreStartDone _ => outWf_of_answers (frame_execAnalogCoreStartDone (List.Subset.refl _) (frame_refl _ s)) (by decide) h
  | .kindleAttemptFail _ => memWf_execKindleAttemptFail h
  | .tierMoveDown _ => memWf_execTierMoveDown h
  | .tierMoveUp _ => memWf_execTierMoveUp h
  | .keeperRefresh => outWf_of_answers (frame_execKeeperRefresh (List.Subset.refl _) (frame_refl _ s)) (by decide) h
  | .keeperTimerExpiry _ _ _ _ _ => outWf_of_answers (frame_execKeeperTimerExpiry (List.Subset.refl _) (frame_refl _ s)) (by decide) h
  | .keeperCheck _ => outWf_of_answers (frame_execKeeperCheck (List.Subset.refl _) (frame_refl _ s)) (by decide) h
  | .crosspointCheck _ => outWf_of_answers (frame_execCrosspointCheck (List.Subset.refl _) (frame_refl _ s)) (by decide) h
  | .strapRereadEnd => memWf_execStrapRereadEnd h
  | .rereadHeldStart => outWf_of_answers (frame_execRereadHeldStart (List.Subset.refl _) (frame_refl _ s)) (by decide) h
  | .restrapApply => outWf_of_answers (frame_execRestrapApply (List.Subset.refl _) (frame_refl _ s)) (by decide) h
  | .blankmapDeferredApply => outWf_of_answers (frame_execBlankmapDeferredApply (List.Subset.refl _) (frame_refl _ s)) (by decide) h
  | .curveCapLift => outWf_of_answers (frame_execCurveCapLift (List.Subset.refl _) (frame_refl _ s)) (by decide) h
  | .trunkVUpdate _ => outWf_of_answers (frame_execTrunkVUpdate (List.Subset.refl _) (frame_refl _ s)) (by decide) h
  | .trunkAbsent => outWf_of_answers (frame_execTrunkAbsent (List.Subset.refl _) (frame_refl _ s)) (by decide) h
  | .telemetryLost => outWf_of_answers (frame_execTelemetryLost (List.Subset.refl _) (frame_refl _ s)) (by decide) h
  | .damperUpdate => outWf_of_answers (frame_execDamperUpdate (List.Subset.refl _) (frame_refl _ s)) (by decide) h
  | .flueLimStart => outWf_of_answers (frame_execFlueLimStart (List.Subset.refl _) (frame_refl _ s)) (by decide) h
  | .ledgerUpdate _ _ => outWf_of_answers (frame_execLedgerUpdate (List.Subset.refl _) (frame_refl _ s)) (by decide) h
  | .chargeEnable => outWf_of_answers (frame_execChargeEnable (List.Subset.refl _) (frame_refl _ s)) (by decide) h
  | .chargePause => outWf_of_answers (frame_execChargePause (List.Subset.refl _) (frame_refl _ s)) (by decide) h
  | .hearthOvervoltage => outWf_of_answers (frame_execHearthOvervoltage (List.Subset.refl _) (frame_refl _ s)) (by decide) h
  | .hearthWeak _ => outWf_of_answers (frame_execHearthWeak (List.Subset.refl _) (frame_refl _ s)) (by decide) h
  | .vbusOvervoltage _ => outWf_of_answers (frame_execVbusOvervoltage (List.Subset.refl _) (frame_refl _ s)) (by decide) h
  | .ridingEnter _ => outWf_of_answers (frame_execRidingEnter (List.Subset.refl _) (frame_refl _ s)) (by decide) h
  | .ridingEnd _ => outWf_of_answers (frame_execRidingEnd (List.Subset.refl _) (frame_refl _ s)) (by decide) h
  | .energyCheck => memWf_execEnergyCheck h
  | .emberEntry => memWf_execEmberEntry h
  | .brownoutNoHearth => memWf_execBrownoutNoHearth h
  | .emberVsramLoss => outWf_of_answers (frame_execEmberVsramLoss (List.Subset.refl _) (frame_refl _ s)) (by decide) h
  | .emberWake => memWf_execEmberWake h
  | .acquireStart => outWf_of_answers (frame_execAcquireStart (List.Subset.refl _) (frame_refl _ s)) (by decide) h
  | .disciplineLoopUpdate _ _ _ => outWf_of_answers (frame_execDisciplineLoopUpdate (List.Subset.refl _) (frame_refl _ s)) (by decide) h
  | .disciplined => outWf_of_answers (frame_execDisciplined (List.Subset.refl _) (frame_refl _ s)) (by decide) h
  | .holdoverEnter _ => outWf_of_answers (frame_execHoldoverEnter (List.Subset.refl _) (frame_refl _ s)) (by decide) h
  | .pllLockLost => memWf_execPllLockLost h
  | .beaconSend => outWf_of_answers (frame_execBeaconSend (List.Subset.refl _) (frame_refl _ s)) (by decide) h
  | .beaconReceive _ _ _ => outWf_of_answers (frame_execBeaconReceive (List.Subset.refl _) (frame_refl _ s)) (by decide) h
  | .realignJump => outWf_of_answers (frame_execRealignJump (List.Subset.refl _) (frame_refl _ s)) (by decide) h
  | .slewEnd => outWf_of_answers (frame_execSlewEnd (List.Subset.refl _) (frame_refl _ s)) (by decide) h
  | .epochChangeNoJump => outWf_of_answers (frame_execEpochChangeNoJump (List.Subset.refl _) (frame_refl _ s)) (by decide) h
  | .eventRelease => memWf_execEventRelease h
  | .holdingStoreDrain => memWf_execHoldingStoreDrain h
  | .heldClearRelease _ _ _ => outWf_of_answers (frame_execHeldClearRelease (List.Subset.refl _) (frame_refl _ s)) (by decide) h
  | .nodeResetApply => memWf_execNodeResetApply h
  | .portResetApply _ => memWf_execPortResetApply h
  | .portQuietEnd _ => outWf_of_answers (frame_execPortQuietEnd (List.Subset.refl _) (frame_refl _ s)) (by decide) h
  | .pipeResetApply _ => memWf_execPipeResetApply h
  | .pipeIngressResume _ => outWf_of_answers (frame_execPipeIngressResume (List.Subset.refl _) (frame_refl _ s)) (by decide) h
  | .chRekindleCalDone _ _ => outWf_of_answers (frame_execChRekindleCalDone (List.Subset.refl _) (frame_refl _ s)) (by decide) h
  | .pilotLock _ => outWf_of_answers (frame_execPilotLock (List.Subset.refl _) (frame_refl _ s)) (by decide) h
  | .pilotsLost _ => outWf_of_answers (frame_execPilotsLost (List.Subset.refl _) (frame_refl _ s)) (by decide) h
  | .linkStart _ => outWf_of_answers (frame_execLinkStart (List.Subset.refl _) (frame_refl _ s)) (by decide) h
  | .trainReqSend _ => outWf_of_answers (frame_execTrainReqSend (List.Subset.refl _) (frame_refl _ s)) (by decide) h
  | .trainReq _ _ => outWf_of_answers (frame_execTrainReq (List.Subset.refl _) (frame_refl _ s)) (by decide) h
  | .trainAck _ _ => outWf_of_answers (frame_execTrainAck (List.Subset.refl _) (frame_refl _ s)) (by decide) h
  | .soundingSlot _ _ => outWf_of_answers (frame_execSoundingSlot (List.Subset.refl _) (frame_refl _ s)) (by decide) h
  | .delay _ _ _ => outWf_of_answers (frame_execDelay (List.Subset.refl _) (frame_refl _ s)) (by decide) h
  | .soundingTableSend _ _ => outWf_of_answers (frame_execSoundingTableSend (List.Subset.refl _) (frame_refl _ s)) (by decide) h
  | .table _ _ => outWf_of_answers (frame_execTable (List.Subset.refl _) (frame_refl _ s)) (by decide) h
  | .tableAck _ _ => outWf_of_answers (frame_execTableAck (List.Subset.refl _) (frame_refl _ s)) (by decide) h
  | .tableSwitch _ => outWf_of_answers (frame_execTableSwitch (List.Subset.refl _) (frame_refl _ s)) (by decide) h
  | .oldSlotRelease _ => outWf_of_answers (frame_execOldSlotRelease (List.Subset.refl _) (frame_refl _ s)) (by decide) h
  | .tableResend _ => outWf_of_answers (frame_execTableResend (List.Subset.refl _) (frame_refl _ s)) (by decide) h
  | .soundingStepMissed _ => outWf_of_answers (frame_execSoundingStepMissed (List.Subset.refl _) (frame_refl _ s)) (by decide) h
  | .abort _ _ => outWf_of_answers (frame_execAbort (List.Subset.refl _) (frame_refl _ s)) (by decide) h
  | .linkAdapt _ _ _ _ => outWf_of_answers (frame_execLinkAdapt (List.Subset.refl _) (frame_refl _ s)) (by decide) h
  | .silenceTimerExpiry => outWf_of_answers (frame_execSilenceTimerExpiry (List.Subset.refl _) (frame_refl _ s)) (by decide) h
  | .bidSend => outWf_of_answers (frame_execBidSend (List.Subset.refl _) (frame_refl _ s)) (by decide) h
  | .bid _ _ => outWf_of_answers (frame_execBid (List.Subset.refl _) (frame_refl _ s)) (by decide) h
  | .clash _ _ => outWf_of_answers (frame_execClash (List.Subset.refl _) (frame_refl _ s)) (by decide) h
  | .tally _ _ => outWf_of_answers (frame_execTally (List.Subset.refl _) (frame_refl _ s)) (by decide) h
  | .cutMessagePassOn _ => outWf_of_answers (frame_execCutMessagePassOn (List.Subset.refl _) (frame_refl _ s)) (by decide) h
  | .cutSettle => outWf_of_answers (frame_execCutSettle (List.Subset.refl _) (frame_refl _ s)) (by decide) h
  | .cutFollowTimeout => outWf_of_answers (frame_execCutFollowTimeout (List.Subset.refl _) (frame_refl _ s)) (by decide) h
  | .dealSend => outWf_of_answers (frame_execDealSend (List.Subset.refl _) (frame_refl _ s)) (by decide) h
  | .deal _ _ => outWf_of_answers (frame_execDeal (List.Subset.refl _) (frame_refl _ s)) (by decide) h
  | .dealerFacingChange => outWf_of_answers (frame_execDealerFacingChange (List.Subset.refl _) (frame_refl _ s)) (by decide) h
  | .break_ _ _ => outWf_of_answers (frame_execBreak (List.Subset.refl _) (frame_refl _ s)) (by decide) h
  | .call _ _ => outWf_of_answers (frame_execCall (List.Subset.refl _) (frame_refl _ s)) (by decide) h
  | .topologyFlush => outWf_of_answers (frame_execTopologyFlush (List.Subset.refl _) (frame_refl _ s)) (by decide) h
  | .reclaimPassEnd => outWf_of_answers (frame_execReclaimPassEnd (List.Subset.refl _) (frame_refl _ s)) (by decide) h
  | .headerDecision _ _ _ => memWf_execHeaderDecision h
  | .transitEgress _ => outWf_of_answers (frame_execTransitEgress (List.Subset.refl _) (frame_refl _ s)) (by decide) h
  | .payloadCheck _ _ _ => memWf_execPayloadCheck h
  | .rxPreempt _ => outWf_of_answers (frame_execRxPreempt (List.Subset.refl _) (frame_refl _ s)) (by decide) h
  | .portSymbolSchedule _ => outWf_of_answers (frame_execPortSymbolSchedule (List.Subset.refl _) (frame_refl _ s)) (by decide) h
  | .placeAnnounceSend => outWf_of_answers (frame_execPlaceAnnounceSend (List.Subset.refl _) (frame_refl _ s)) (by decide) h
  | .agingScannerVisit _ => memWf_execAgingScannerVisit h
  | .learnedPrefixAging => outWf_of_answers (frame_execLearnedPrefixAging (List.Subset.refl _) (frame_refl _ s)) (by decide) h
  | .policerRefill => outWf_of_answers (frame_execPolicerRefill (List.Subset.refl _) (frame_refl _ s)) (by decide) h
  | .shaperRefill => outWf_of_answers (frame_execShaperRefill (List.Subset.refl _) (frame_refl _ s)) (by decide) h
  | .epochDrained => outWf_of_answers (frame_execEpochDrained (List.Subset.refl _) (frame_refl _ s)) (by decide) h
  | .commitPrepared => outWf_of_answers (frame_execCommitPrepared (List.Subset.refl _) (frame_refl _ s)) (by decide) h
  | .commitSwitch => outWf_of_answers (frame_execCommitSwitch (List.Subset.refl _) (frame_refl _ s)) (by decide) h
  | .commitWritebackDone => memWf_execCommitWritebackDone h
  | .commitDefer => outWf_of_answers (frame_execCommitDefer (List.Subset.refl _) (frame_refl _ s)) (by decide) h
  | .flushPortStep _ => memWf_execFlushPortStep h
  | .streamFrameBuild _ => outWf_of_answers (frame_execStreamFrameBuild (List.Subset.refl _) (frame_refl _ s)) (by decide) h
  | .originEntryRemove _ => memWf_execOriginEntryRemove h
  | .outApply _ => outWf_of_answers (frame_execOutApply (List.Subset.refl _) (frame_refl _ s)) (by decide) h
  | .responseHeldRelease => outWf_of_answers (frame_execResponseHeldRelease (List.Subset.refl _) (frame_refl _ s)) (by decide) h
  | .handResetDrain _ => outWf_of_answers (frame_execHandResetDrain (List.Subset.refl _) (frame_refl _ s)) (by decide) h
  | .scrubWrite => memWf_execScrubWrite h
  | .sweepRegionStart _ => memWf_execSweepRegionStart h
  | .wakeScrubEnd => memWf_execWakeScrubEnd h
  | .disconnectOpen _ => outWf_of_answers (frame_execDisconnectOpen (List.Subset.refl _) (frame_refl _ s)) (by decide) h
  | .disconnectReclose _ => outWf_of_answers (frame_execDisconnectReclose (List.Subset.refl _) (frame_refl _ s)) (by decide) h
  | .loopSupplyFoldback _ => outWf_of_answers (frame_execLoopSupplyFoldback (List.Subset.refl _) (frame_refl _ s)) (by decide) h
  | .loopSupplyRetry _ _ => outWf_of_answers (frame_execLoopSupplyRetry (List.Subset.refl _) (frame_refl _ s)) (by decide) h
  | .roleChangeStart _ => outWf_of_answers (frame_execRoleChangeStart (List.Subset.refl _) (frame_refl _ s)) (by decide) h
  | .roleChangeStep _ => outWf_of_answers (frame_execRoleChangeStep (List.Subset.refl _) (frame_refl _ s)) (by decide) h
  | .sampleReady _ _ => memWf_execSampleReady h
  | .blankRise _ => outWf_of_answers (frame_execBlankRise (List.Subset.refl _) (frame_refl _ s)) (by decide) h
  | .blankFall _ => outWf_of_answers (frame_execBlankFall (List.Subset.refl _) (frame_refl _ s)) (by decide) h
  | .blankTooLong _ => outWf_of_answers (frame_execBlankTooLong (List.Subset.refl _) (frame_refl _ s)) (by decide) h
  | .blankIgnoreEnd _ => outWf_of_answers (frame_execBlankIgnoreEnd (List.Subset.refl _) (frame_refl _ s)) (by decide) h
  | .cjReferenceLossTimeout => outWf_of_answers (frame_execCjReferenceLossTimeout (List.Subset.refl _) (frame_refl _ s)) (by decide) h
  | .curveSwitch _ => outWf_of_answers (frame_execCurveSwitch (List.Subset.refl _) (frame_refl _ s)) (by decide) h
  | .settlingAllowanceEnd _ => outWf_of_answers (frame_execSettlingAllowanceEnd (List.Subset.refl _) (frame_refl _ s)) (by decide) h
  | .readbackResult _ _ => outWf_of_answers (frame_execReadbackResult (List.Subset.refl _) (frame_refl _ s)) (by decide) h
  | .trimPointReady _ _ => outWf_of_answers (frame_execTrimPointReady (List.Subset.refl _) (frame_refl _ s)) (by decide) h
  | .trimStepTimeout _ => memWf_execTrimStepTimeout h
  | .trimApply _ => outWf_of_answers (frame_execTrimApply (List.Subset.refl _) (frame_refl _ s)) (by decide) h
  | .vaultWriteEnd _ => memWf_execVaultWriteEnd h
  | .countersignExpiry _ => outWf_of_answers (frame_execCountersignExpiry (List.Subset.refl _) (frame_refl _ s)) (by decide) h
  | .proposalLapse => outWf_of_answers (frame_execProposalLapse (List.Subset.refl _) (frame_refl _ s)) (by decide) h
  | .commissionChange _ => outWf_of_answers (frame_execCommissionChange (List.Subset.refl _) (frame_refl _ s)) (by decide) h
  | .vaultClaim => outWf_of_answers (frame_execVaultClaim (List.Subset.refl _) (frame_refl _ s)) (by decide) h
  | .wardLockChange _ => outWf_of_answers (frame_execWardLockChange (List.Subset.refl _) (frame_refl _ s)) (by decide) h
  | .fixedResponder _ => outWf_of_answers (frame_execFixedResponder (List.Subset.refl _) (frame_refl _ s)) (by decide) h
  | .statRead _ => outWf_of_answers (frame_execStatRead (List.Subset.refl _) (frame_refl _ s)) (by decide) h
  | .statCount _ => outWf_of_answers (frame_execStatCount (List.Subset.refl _) (frame_refl _ s)) (by decide) h
  | .evRead _ => outWf_of_answers (frame_execEvRead (List.Subset.refl _) (frame_refl _ s)) (by decide) h
  | .evAck _ => memWf_execEvAck h
  | .handClaim _ => outWf_of_answers (frame_execHandClaim (List.Subset.refl _) (frame_refl _ s)) (by decide) h
  | .handStations _ => outWf_of_answers (frame_execHandStations (List.Subset.refl _) (frame_refl _ s)) (by decide) h
  | .handReset _ => memWf_execHandReset h
  | .qRead _ => outWf_of_answers (frame_execQRead (List.Subset.refl _) (frame_refl _ s)) (by decide) h
  | .qSet _ => outWf_of_answers (frame_execQSet (List.Subset.refl _) (frame_refl _ s)) (by decide) h
  | .subOpen _ => memWf_execSubOpen h
  | .subClose _ => outWf_of_answers (frame_execSubClose (List.Subset.refl _) (frame_refl _ s)) (by decide) h
  | .outSet _ => outWf_of_answers (frame_execOutSet (List.Subset.refl _) (frame_refl _ s)) (by decide) h
  | .outAlarmdir _ => outWf_of_answers (frame_execOutAlarmdir (List.Subset.refl _) (frame_refl _ s)) (by decide) h
  | .tblSearch _ => outWf_of_answers (frame_execTblSearch (List.Subset.refl _) (frame_refl _ s)) (by decide) h
  | .tblNext _ => outWf_of_answers (frame_execTblNext (List.Subset.refl _) (frame_refl _ s)) (by decide) h
  | .tblAdd _ => memWf_execTblAdd h
  | .tblDel _ => memWf_execTblDel h
  | .tblFlushPort _ => outWf_of_answers (frame_execTblFlushPort (List.Subset.refl _) (frame_refl _ s)) (by decide) h
  | .tblCommit _ => outWf_of_answers (frame_execTblCommit (List.Subset.refl _) (frame_refl _ s)) (by decide) h
  | .chRestrap _ => outWf_of_answers (frame_execChRestrap (List.Subset.refl _) (frame_refl _ s)) (by decide) h
  | .chRekindle _ => memWf_execChRekindle h
  | .nodeReset _ => outWf_of_answers (frame_execNodeReset (List.Subset.refl _) (frame_refl _ s)) (by decide) h
  | .nodeRestrap _ => outWf_of_answers (frame_execNodeRestrap (List.Subset.refl _) (frame_refl _ s)) (by decide) h
  | .nodeAdopt _ => outWf_of_answers (frame_execNodeAdopt (List.Subset.refl _) (frame_refl _ s)) (by decide) h
  | .portReset _ => memWf_execPortReset h
  | .pipeReset _ => memWf_execPipeReset h
  | .phySound _ => outWf_of_answers (frame_execPhySound (List.Subset.refl _) (frame_refl _ s)) (by decide) h
  | .phyMargin _ => outWf_of_answers (frame_execPhyMargin (List.Subset.refl _) (frame_refl _ s)) (by decide) h
  | .phyMask _ => outWf_of_answers (frame_execPhyMask (List.Subset.refl _) (frame_refl _ s)) (by decide) h
  | .phySnr _ => outWf_of_answers (frame_execPhySnr (List.Subset.refl _) (frame_refl _ s)) (by decide) h
  | .trimStart _ => outWf_of_answers (frame_execTrimStart (List.Subset.refl _) (frame_refl _ s)) (by decide) h
  | .trimPoint _ => memWf_execTrimPoint h
  | .trimCommit _ => outWf_of_answers (frame_execTrimCommit (List.Subset.refl _) (frame_refl _ s)) (by decide) h
  | .curveLoad _ => outWf_of_answers (frame_execCurveLoad (List.Subset.refl _) (frame_refl _ s)) (by decide) h
  | .memRepair _ => outWf_of_answers (frame_execMemRepair (List.Subset.refl _) (frame_refl _ s)) (by decide) h
  | .memSweep _ => outWf_of_answers (frame_execMemSweep (List.Subset.refl _) (frame_refl _ s)) (by decide) h
  | .twinMirror _ => outWf_of_answers (frame_execTwinMirror (List.Subset.refl _) (frame_refl _ s)) (by decide) h
  | .twinRelease _ => outWf_of_answers (frame_execTwinRelease (List.Subset.refl _) (frame_refl _ s)) (by decide) h
  | .wardPropose _ => outWf_of_answers (frame_execWardPropose (List.Subset.refl _) (frame_refl _ s)) (by decide) h
  | .wardCountersign _ => outWf_of_answers (frame_execWardCountersign (List.Subset.refl _) (frame_refl _ s)) (by decide) h
  | .wardSet _ => outWf_of_answers (frame_execWardSet (List.Subset.refl _) (frame_refl _ s)) (by decide) h
  | .wardRead _ => outWf_of_answers (frame_execWardRead (List.Subset.refl _) (frame_refl _ s)) (by decide) h
  | .keySet _ => outWf_of_answers (frame_execKeySet (List.Subset.refl _) (frame_refl _ s)) (by decide) h
  | .dbgOpen _ => outWf_of_answers (frame_execDbgOpen (List.Subset.refl _) (frame_refl _ s)) (by decide) h
  | .opStatus _ => outWf_of_answers (frame_execOpStatus (List.Subset.refl _) (frame_refl _ s)) (by decide) h
  | .opSuspend _ => outWf_of_answers (frame_execOpSuspend (List.Subset.refl _) (frame_refl _ s)) (by decide) h
  | .opResume _ => outWf_of_answers (frame_execOpResume (List.Subset.refl _) (frame_refl _ s)) (by decide) h
  | .opCancel _ => memWf_execOpCancel h
  | .opStart _ => memWf_execOpStart h
  | .opSuspendTimeout _ => memWf_execOpSuspendTimeout h
  | .opRecordFree _ => outWf_of_answers (frame_execOpRecordFree (List.Subset.refl _) (frame_refl _ s)) (by decide) h
  | .seatFrameSend => outWf_of_answers (frame_execSeatFrameSend (List.Subset.refl _) (frame_refl _ s)) (by decide) h
  | .seatFrameReceive _ => memWf_execSeatFrameReceive h
  | .heartbeatLoss => memWf_execHeartbeatLoss h
  | .pairingWindowEnd => outWf_of_answers (frame_execPairingWindowEnd (List.Subset.refl _) (frame_refl _ s)) (by decide) h
  | .leadChange => outWf_of_answers (frame_execLeadChange (List.Subset.refl _) (frame_refl _ s)) (by decide) h
  | .shuntCatch _ => outWf_of_answers (frame_execShuntCatch (List.Subset.refl _) (frame_refl _ s)) (by decide) h
  | .takeoverTrip _ => outWf_of_answers (frame_execTakeoverTrip (List.Subset.refl _) (frame_refl _ s)) (by decide) h
  | .handback => outWf_of_answers (frame_execHandback (List.Subset.refl _) (frame_refl _ s)) (by decide) h
  | .mirrorResend => outWf_of_answers (frame_execMirrorResend (List.Subset.refl _) (frame_refl _ s)) (by decide) h
  | .seatRecordRewrite => outWf_of_answers (frame_execSeatRecordRewrite (List.Subset.refl _) (frame_refl _ s)) (by decide) h
  | .releaseComplete => outWf_of_answers (frame_execReleaseComplete (List.Subset.refl _) (frame_refl _ s)) (by decide) h
  | .tapReset => outWf_of_answers (frame_execTapReset (List.Subset.refl _) (frame_refl _ s)) (by decide) h
  | .tapRegisterWrite _ _ => outWf_of_answers (frame_execTapRegisterWrite (List.Subset.refl _) (frame_refl _ s)) (by decide) h
  | .extest _ _ => outWf_of_answers (frame_execExtest (List.Subset.refl _) (frame_refl _ s)) (by decide) h
  | .samplePreload _ _ => outWf_of_answers (frame_execSamplePreload (List.Subset.refl _) (frame_refl _ s)) (by decide) h
  | .clamp => outWf_of_answers (frame_execClamp (List.Subset.refl _) (frame_refl _ s)) (by decide) h
  | .highz => outWf_of_answers (frame_execHighz (List.Subset.refl _) (frame_refl _ s)) (by decide) h
  | .dctrlHalt _ => outWf_of_answers (frame_execDctrlHalt (List.Subset.refl _) (frame_refl _ s)) (by decide) h
  | .dctrlResume _ => outWf_of_answers (frame_execDctrlResume (List.Subset.refl _) (frame_refl _ s)) (by decide) h
  | .dctrlStep _ => memWf_execDctrlStep h
  | .dctrlClose _ => outWf_of_answers (frame_execDctrlClose (List.Subset.refl _) (frame_refl _ s)) (by decide) h
  | .dctrlClearBphit _ => outWf_of_answers (frame_execDctrlClearBphit (List.Subset.refl _) (frame_refl _ s)) (by decide) h
  | .stepEnd => outWf_of_answers (frame_execStepEnd (List.Subset.refl _) (frame_refl _ s)) (by decide) h
  | .dbrk _ => outWf_of_answers (frame_execDbrk (List.Subset.refl _) (frame_refl _ s)) (by decide) h
  | .breakpointFire _ _ => outWf_of_answers (frame_execBreakpointFire (List.Subset.refl _) (frame_refl _ s)) (by decide) h
  | .dmemRead _ _ => memWf_execDmemRead h
  | .dmemWrite _ => memWf_execDmemWrite h
  | .sessionLifetimeEnd => outWf_of_answers (frame_execSessionLifetimeEnd (List.Subset.refl _) (frame_refl _ s)) (by decide) h
  | .reclaimPassVisit => memWf_execReclaimPassVisit h
  | .phyMaskDeferredApply _ => outWf_of_answers (frame_execPhyMaskDeferredApply (List.Subset.refl _) (frame_refl _ s)) (by decide) h
  | .testEnLow => outWf_of_answers (frame_execTestEnLow (List.Subset.refl _) (frame_refl _ s)) (by decide) h

/-- Settles O2: the die identity and the waiting commands stand in no row's frame. -/
theorem everyCommandAnswersAndLeavesTheQueue : Obligations.EveryCommandAnswersAndLeavesTheQueue := by
  unfold Obligations.EveryCommandAnswersAndLeavesTheQueue
  intro c s
  obtain ⟨t, runs, alters⟩ := exec_answers c s
  exact ⟨t, runs, same_pending alters (by decide), same_dieId alters (by decide)⟩

/-! ## One step -/

/-- Settles O1. -/
theorem stepRunsFront : Obligations.StepRunsFront := by
  unfold Obligations.StepRunsFront
  intro c rest s front
  rw [step, front]

theorem step_of_empty {s : State} (empty : s.pending = []) : step s = .next (debugTick (idleTick s)) := by
  rw [step, empty]

theorem idleTick_alters (s : State) : Alters [.tiers, .clock] s (idleTick s) := frame_idleTick (List.Subset.refl _) (frame_refl _ s)

theorem exec_inv {c : Instr} {d : BitVec 64} {s t : State} (inv : Inv d s) (runs : exec c s = .next t) : Inv d t := by
  obtain ⟨wf, identity⟩ := inv
  obtain ⟨t', runs', ⟨wf'⟩⟩ := exec_outWf c ⟨wf⟩
  obtain ⟨u, ran, -, same⟩ := everyCommandAnswersAndLeavesTheQueue c s
  cases runs.symm.trans runs'
  cases runs.symm.trans ran
  exact ⟨wf', same.trans identity⟩

theorem tick_inv {d : BitVec 64} {s : State} (inv : Inv d s) : Inv d (debugTick (idleTick s)) := by
  obtain ⟨wf, identity⟩ := inv
  have ticked : MemWf (idleTick s) := memWf_of_alters (idleTick_alters s) (by decide) ⟨wf⟩
  have same : (debugTick (idleTick s)).dieId = s.dieId :=
    (same_dieId (frame_debugTick (List.Subset.refl _) (frame_refl _ _)) (by decide)).trans (same_dieId (idleTick_alters s) (by decide))
  exact ⟨(memWf_debugTick ticked).wf, same.trans identity⟩

/-- Settles O3: a step is a command on the state with the queue's rest, or an idle tick, and both keep the invariant. -/
theorem stepKeepsMemoryFormAndDieId : Obligations.StepKeepsMemoryFormAndDieId := by
  unfold Obligations.StepKeepsMemoryFormAndDieId
  intro d s t inv stepped
  cases front : s.pending with
  | nil =>
    cases (step_of_empty front).symm.trans stepped
    exact tick_inv inv
  | cons c rest =>
    have start : Inv d { s with pending := rest } := inv
    exact exec_inv start ((stepRunsFront c rest s front).symm.trans stepped)

/-- Settles O4. -/
theorem resetHoldsTheInvariant : Obligations.ResetHoldsTheInvariant := by
  unfold Obligations.ResetHoldsTheInvariant
  exact ⟨⟨reset_memWf.wf, rfl⟩, rfl, rfl, rfl, rfl, rfl, rfl, rfl, rfl⟩

/-! ## The idle tick -/

theorem counterTick_of_no_slew {c : Clock} (still : c.slew = none) : counterTick c = { c with counter := c.counter + 1 } := by
  rw [counterTick, still]

/-- The clock one tick on, with no slew under way (R86, R108). -/
def clockTick (c : Clock) : Clock :=
  { c with counter := c.counter + 1, line := c.line + 1, age := c.age + 1 }

theorem not_ember_of_shellRuns {s : State} (runs : shellRuns s = true) : ¬ (s.supply.kindle == .ember) = true := by
  intro ember
  rw [shellRuns, beq_iff_eq.mp ember] at runs
  cases runs

theorem idleTick_clock {s : State} (runs : shellRuns s = true) (still : s.clock.slew = none) :
    (idleTick s).clock = clockTick s.clock := by
  rw [idleTick, if_neg (not_ember_of_shellRuns runs), if_pos runs]
  extract_lets x
  have ticked : x.clock = clockTick s.clock := by
    rw [State.onClock_clock, counterTick_of_no_slew still]
    rfl
  split <;> exact ticked

theorem debugTick_of_idle {s : State} (halt : s.dbg.haltNext = none) (resume : s.dbg.resumeNext = none) (step : s.dbg.step = none) :
    debugTick s = s := by
  have stepped : stepTick s = s := by simp only [stepTick, step]
  simp only [debugTick, stepped, resumeDue, resume, haltDue, halt, ite_self]

/-- Settles O5: without a halt, resume or step the debug port's tick does nothing, and the clocks tick once. -/
theorem idleTickAdvancesTheClocks : Obligations.IdleTickAdvancesTheClocks := by
  unfold Obligations.IdleTickAdvancesTheClocks
  intro s empty runs still halt resume step
  have dbg : (idleTick s).dbg = s.dbg := same_dbg (idleTick_alters s) (by decide)
  refine ⟨idleTick s, ?_, frame_mono (by decide) (idleTick_alters s), ?_⟩
  · rw [step_of_empty empty, debugTick_of_idle] <;> rwa [dbg]
  · rw [idleTick_clock runs still]
    exact ⟨rfl, rfl, rfl, rfl, rfl⟩

end Sys2Proof.Proofs
end

section
/-! Reading one channel, hand, port or pipeline through a frame, what raising and clearing an event leaves, and how a walk over a list
keeps or establishes a property. -/

namespace Sys2Proof.Proofs

open Sys2Proof Sys2Proof.Machine Sys2Proof.Safety Sys2Proof.Laws

/-! ## One object of a part that a frame leaves -/

section Same

variable {L : List Part} {s t : State}

theorem same_chan (h : Alters L s t) (hp : Part.chans ∉ L) (n : Fin 24) : t.chan n = s.chan n := by
  rw [State.chan, State.chan, same_chans h hp]

theorem same_hand (h : Alters L s t) (hp : Part.hands ∉ L) (k : Fin 16) : t.hand k = s.hand k := by
  rw [State.hand, State.hand, same_hands h hp]

theorem same_port (h : Alters L s t) (ha : Part.portA ∉ L) (hb : Part.portB ∉ L) (p : Port) : t.port p = s.port p := by
  cases p
  · exact same_portA h ha
  · exact same_portB h hb

theorem same_pipe (h : Alters L s t) (hp : Part.tables ∉ L) (p : Port) : t.pipe p = s.pipe p := by
  cases p
  · exact congrArg Tables.pa (same_tables h hp)
  · exact congrArg Tables.pb (same_tables h hp)

end Same

theorem alters_of_answers {L : List Part} {s t : State} {o : Out} (h : Answers L s o) (runs : o = .next t) : Alters L s t := by
  obtain ⟨u, ran, alters⟩ := h
  have same : u = t := Host.Outcome.next.inj (ran.symm.trans runs)
  exact same ▸ alters

theorem whenDue_pos {c : Bool} {f : State → State} {s : State} (due : c = true) : whenDue c f s = f s := if_pos due

theorem whenDue_neg {c : Bool} {f : State → State} {s : State} (idle : c = false) : whenDue c f s = s :=
  if_neg (Bool.eq_false_iff.mp idle)

/-! ## One object read through an update of another part -/

section Reads

variable {s : State}

@[simp] theorem onPort_chan (p : Port) (f : PortState → PortState) (n : Fin 24) : (s.onPort p f).chan n = s.chan n := by cases p <;> rfl
@[simp] theorem onPort_hand (p : Port) (f : PortState → PortState) (h : Fin 16) : (s.onPort p f).hand h = s.hand h := by cases p <;> rfl
@[simp] theorem onPort_pipe (p q : Port) (f : PortState → PortState) : (s.onPort p f).pipe q = s.pipe q := by cases p <;> cases q <;> rfl
@[simp] theorem onPipe_chan (p : Port) (f : Pipe → Pipe) (n : Fin 24) : (s.onPipe p f).chan n = s.chan n := by cases p <;> rfl
@[simp] theorem onPipe_hand (p : Port) (f : Pipe → Pipe) (h : Fin 16) : (s.onPipe p f).hand h = s.hand h := by cases p <;> rfl
@[simp] theorem onPipe_port (p q : Port) (f : Pipe → Pipe) : (s.onPipe p f).port q = s.port q := by cases p <;> cases q <;> rfl
@[simp] theorem onPipe_pipe (p : Port) (f : Pipe → Pipe) : (s.onPipe p f).pipe p = f (s.pipe p) := by cases p <;> rfl
@[simp] theorem onPipe_pipe_other (p : Port) (f : Pipe → Pipe) : (s.onPipe p f).pipe p.other = s.pipe p.other := by cases p <;> rfl
@[simp] theorem onChan_hand (n : Fin 24) (f : Chan → Chan) (h : Fin 16) : (s.onChan n f).hand h = s.hand h := rfl
@[simp] theorem onChan_port (n : Fin 24) (f : Chan → Chan) (p : Port) : (s.onChan n f).port p = s.port p := by cases p <;> rfl
@[simp] theorem onChan_pipe (n : Fin 24) (f : Chan → Chan) (p : Port) : (s.onChan n f).pipe p = s.pipe p := by cases p <;> rfl

end Reads

/-! ## Events -/

section Raise

variable {s : State} {code src obj : Nat} {detail : List Byte} {owner : Option Nat}

theorem raise_alters : Alters [.events] s (raise s code src detail obj owner) := frame_raise (List.Subset.refl _) (frame_refl _ s)

@[simp] theorem raise_dieId : (raise s code src detail obj owner).dieId = s.dieId := same_dieId raise_alters (by decide)
@[simp] theorem raise_free : (raise s code src detail obj owner).free = s.free := same_free raise_alters (by decide)
@[simp] theorem raise_supply : (raise s code src detail obj owner).supply = s.supply := same_supply raise_alters (by decide)
@[simp] theorem raise_tiers : (raise s code src detail obj owner).tiers = s.tiers := same_tiers raise_alters (by decide)
@[simp] theorem raise_straps : (raise s code src detail obj owner).straps = s.straps := same_straps raise_alters (by decide)
@[simp] theorem raise_clock : (raise s code src detail obj owner).clock = s.clock := same_clock raise_alters (by decide)
@[simp] theorem raise_portA : (raise s code src detail obj owner).portA = s.portA := same_portA raise_alters (by decide)
@[simp] theorem raise_portB : (raise s code src detail obj owner).portB = s.portB := same_portB raise_alters (by decide)
@[simp] theorem raise_cut : (raise s code src detail obj owner).cut = s.cut := same_cut raise_alters (by decide)
@[simp] theorem raise_tables : (raise s code src detail obj owner).tables = s.tables := same_tables raise_alters (by decide)
@[simp] theorem raise_queues : (raise s code src detail obj owner).queues = s.queues := same_queues raise_alters (by decide)
@[simp] theorem raise_hands : (raise s code src detail obj owner).hands = s.hands := same_hands raise_alters (by decide)
@[simp] theorem raise_streams : (raise s code src detail obj owner).streams = s.streams := same_streams raise_alters (by decide)
@[simp] theorem raise_chans : (raise s code src detail obj owner).chans = s.chans := same_chans raise_alters (by decide)
@[simp] theorem raise_mem : (raise s code src detail obj owner).mem = s.mem := same_mem raise_alters (by decide)
@[simp] theorem raise_engine : (raise s code src detail obj owner).engine = s.engine := same_engine raise_alters (by decide)
@[simp] theorem raise_vault : (raise s code src detail obj owner).vault = s.vault := same_vault raise_alters (by decide)
@[simp] theorem raise_seat : (raise s code src detail obj owner).seat = s.seat := same_seat raise_alters (by decide)
@[simp] theorem raise_dbg : (raise s code src detail obj owner).dbg = s.dbg := same_dbg raise_alters (by decide)
@[simp] theorem raise_announce : (raise s code src detail obj owner).announce = s.announce := same_announce raise_alters (by decide)
@[simp] theorem raise_counters : (raise s code src detail obj owner).counters = s.counters := same_counters raise_alters (by decide)
@[simp] theorem raise_pending : (raise s code src detail obj owner).pending = s.pending := same_pending raise_alters (by decide)
@[simp] theorem raise_chan (n : Fin 24) : (raise s code src detail obj owner).chan n = s.chan n := same_chan raise_alters (by decide) n
@[simp] theorem raise_hand (h : Fin 16) : (raise s code src detail obj owner).hand h = s.hand h := same_hand raise_alters (by decide) h
@[simp] theorem raise_port (p : Port) : (raise s code src detail obj owner).port p = s.port p := same_port raise_alters (by decide) (by decide) p
@[simp] theorem raise_pipe (p : Port) : (raise s code src detail obj owner).pipe p = s.pipe p := same_pipe raise_alters (by decide) p

theorem clearLatching_alters : Alters [.events] s (clearLatching s code src obj detail) :=
  frame_clearLatching (List.Subset.refl _) (frame_refl _ s)

@[simp] theorem clearLatching_dieId : (clearLatching s code src obj detail).dieId = s.dieId := same_dieId clearLatching_alters (by decide)
@[simp] theorem clearLatching_free : (clearLatching s code src obj detail).free = s.free := same_free clearLatching_alters (by decide)
@[simp] theorem clearLatching_supply : (clearLatching s code src obj detail).supply = s.supply := same_supply clearLatching_alters (by decide)
@[simp] theorem clearLatching_tiers : (clearLatching s code src obj detail).tiers = s.tiers := same_tiers clearLatching_alters (by decide)
@[simp] theorem clearLatching_straps : (clearLatching s code src obj detail).straps = s.straps := same_straps clearLatching_alters (by decide)
@[simp] theorem clearLatching_clock : (clearLatching s code src obj detail).clock = s.clock := same_clock clearLatching_alters (by decide)
@[simp] theorem clearLatching_portA : (clearLatching s code src obj detail).portA = s.portA := same_portA clearLatching_alters (by decide)
@[simp] theorem clearLatching_portB : (clearLatching s code src obj detail).portB = s.portB := same_portB clearLatching_alters (by decide)
@[simp] theorem clearLatching_cut : (clearLatching s code src obj detail).cut = s.cut := same_cut clearLatching_alters (by decide)
@[simp] theorem clearLatching_tables : (clearLatching s code src obj detail).tables = s.tables := same_tables clearLatching_alters (by decide)
@[simp] theorem clearLatching_queues : (clearLatching s code src obj detail).queues = s.queues := same_queues clearLatching_alters (by decide)
@[simp] theorem clearLatching_hands : (clearLatching s code src obj detail).hands = s.hands := same_hands clearLatching_alters (by decide)
@[simp] theorem clearLatching_streams : (clearLatching s code src obj detail).streams = s.streams := same_streams clearLatching_alters (by decide)
@[simp] theorem clearLatching_chans : (clearLatching s code src obj detail).chans = s.chans := same_chans clearLatching_alters (by decide)
@[simp] theorem clearLatching_mem : (clearLatching s code src obj detail).mem = s.mem := same_mem clearLatching_alters (by decide)
@[simp] theorem clearLatching_engine : (clearLatching s code src obj detail).engine = s.engine := same_engine clearLatching_alters (by decide)
@[simp] theorem clearLatching_vault : (clearLatching s code src obj detail).vault = s.vault := same_vault clearLatching_alters (by decide)
@[simp] theorem clearLatching_seat : (clearLatching s code src obj detail).seat = s.seat := same_seat clearLatching_alters (by decide)
@[simp] theorem clearLatching_dbg : (clearLatching s code src obj detail).dbg = s.dbg := same_dbg clearLatching_alters (by decide)
@[simp] theorem clearLatching_announce : (clearLatching s code src obj detail).announce = s.announce := same_announce clearLatching_alters (by decide)
@[simp] theorem clearLatching_counters : (clearLatching s code src obj detail).counters = s.counters := same_counters clearLatching_alters (by decide)
@[simp] theorem clearLatching_pending : (clearLatching s code src obj detail).pending = s.pending := same_pending clearLatching_alters (by decide)
@[simp] theorem clearLatching_chan (n : Fin 24) : (clearLatching s code src obj detail).chan n = s.chan n := same_chan clearLatching_alters (by decide) n
@[simp] theorem clearLatching_hand (h : Fin 16) : (clearLatching s code src obj detail).hand h = s.hand h := same_hand clearLatching_alters (by decide) h
@[simp] theorem clearLatching_port (p : Port) : (clearLatching s code src obj detail).port p = s.port p := same_port clearLatching_alters (by decide) (by decide) p
@[simp] theorem clearLatching_pipe (p : Port) : (clearLatching s code src obj detail).pipe p = s.pipe p := same_pipe clearLatching_alters (by decide) p

end Raise

/-! ## Walks -/

section Each

variable {α : Type} {f : α → State → State} {l : List α} {s : State}

@[simp] theorem each_nil : s.each [] f = s := rfl

@[simp] theorem each_cons (a : α) : s.each (a :: l) f = (f a s).each l f := rfl

theorem each_keeps {P : State → Prop} (keeps : ∀ a x, P x → P (f a x)) (start : P s) : P (s.each l f) := by
  induction l generalizing s with
  | nil => exact start
  | cons a l ih => exact ih (keeps a s start)

/-- What one visit brings about and every visit keeps holds at the end of the walk. -/
theorem each_establishes {P : State → Prop} {a : α} (visited : a ∈ l) (brings : ∀ x, P (f a x)) (keeps : ∀ b x, P x → P (f b x)) :
    P (s.each l f) := by
  induction l generalizing s with
  | nil => cases visited
  | cons b l ih =>
    rcases List.mem_cons.mp visited with rfl | later
    · exact each_keeps (l := l) keeps (brings s)
    · exact ih later

end Each

/-- A walk over all channels whose visits touch only their own channel and keep `I` treats each channel as its visit does. -/
theorem each_chans {f : Fin 24 → State → State} {s : State} {I : State → Prop} {R : Fin 24 → Chan → Chan → Prop}
    (others : ∀ k x m, m ≠ k → (f k x).chan m = x.chan m) (keeps : ∀ k x, I x → I (f k x))
    (visit : ∀ k x, I x → R k (x.chan k) ((f k x).chan k)) (start : I s) (n : Fin 24) :
    R n (s.chan n) ((s.each (List.finRange 24) f).chan n) := by
  have walk : ∀ (l : List (Fin 24)) (x : State), l.Nodup → n ∈ l → I x → R n (x.chan n) ((x.each l f).chan n) := by
    intro l
    induction l with
    | nil => intro _ _ mem; cases mem
    | cons k l ih =>
      intro x nodup mem inv
      obtain ⟨fresh, nodup⟩ := List.nodup_cons.mp nodup
      rw [each_cons]
      by_cases h : n = k
      · rw [h, each_chan_of_not_mem others fresh]
        exact visit k x inv
      · rw [← others k x n h]
        exact ih _ nodup (List.mem_of_ne_of_mem h mem) (keeps k x inv)
  exact walk _ s (List.nodup_finRange 24) (List.mem_finRange n) start

end Sys2Proof.Proofs
end

section
/-! Power, the shell's release and the chip resets (05_kindling_and_resets.md, Table 5.1, R126, R139, R143, R148). -/

namespace Sys2Proof.Proofs

open Sys2Proof Sys2Proof.Machine Sys2Proof.Safety Sys2Proof.Laws

/-! ## Power and pins -/

/-- A channel when VAN comes up: under the rail monitor's bank-now with its disconnects closed (R126, R383). -/
def Chan.poweredUp (t : Trim) (now : Tick) (c : Chan) : Chan :=
  keeperTakes t now { c with bankMon := true, disc := [false, false, false, false] }

/-- The chip from Off when VBUS comes up (Table 5.1). -/
def poweredUp (s : State) : State :=
  { s with
    supply := { noteCause s.supply 0x01 with vbus := true, good := [.van], kindle := .rails,
                                             flueEn := !s.supply.flueLatched, hearthDis := false },
    tiers := { s.tiers with tier := .banked },
    chans := Vector.ofFn fun n => Chan.poweredUp (trimOf s.vault n) s.clock.age s.chans[n] }

theorem execPowerUp_off {s : State} (off : s.supply.kindle = .off) : execPowerUp s = .next (poweredUp s) := by
  simp only [execPowerUp, off, beq_self_eq_true, if_true]
  rfl

theorem poweredUp_chan (s : State) (n : Fin 24) :
    (poweredUp s).chan n = Chan.poweredUp (trimOf s.vault n) s.clock.age (s.chan n) := by
  simp [State.chan, poweredUp]

theorem poweredUp_causeNext {s : State} (fresh : s.supply.causeNext = none) : (poweredUp s).supply.causeNext = some 1 := by
  simp only [poweredUp, noteCause, fresh]
  rfl

/-- Settles O6. -/
theorem powerAndPins : Obligations.PowerAndPins := by
  unfold Obligations.PowerAndPins
  refine ⟨fun s off fresh => ?_, fun s => ?_, fun s => rfl, fun s => rfl⟩
  · have alters := alters_of_answers (frame_execPowerUp (List.Subset.refl _) (frame_refl _ s)) (execPowerUp_off off)
    refine ⟨poweredUp s, execPowerUp_off off, alters, rfl, rfl, poweredUp_causeNext fresh, rfl, rfl, rfl, fun n => ?_⟩
    obtain ⟨keeper, latch, mon, _, _, _, _, control⟩ := keeperTakes_keeps (trimOf s.vault n) s.clock.age
      { s.chan n with bankMon := true, disc := [false, false, false, false] }
    rw [poweredUp_chan]
    exact ⟨mon, control, keeper, latch⟩
  · exact ⟨vanLost s, rfl, rfl, rfl, rfl, rfl, rfl, rfl, rfl, rfl, by simp [vanLost]⟩

/-! ## The shell's release -/

theorem newSession_ne (v : BitVec 64) (k : KeySess) : (newSession v k).session ≠ k.session := by
  unfold newSession
  extract_lets n
  dsimp only
  split
  · next same => rw [beq_iff_eq.mp same]; bv_omega
  · next other => simpa using other

theorem redrawSession_slot (s : State) (k : Fin 20) :
    (redrawSession s k).engine.slots[k].session ≠ s.engine.slots[k].session := by
  simp only [redrawSession, State.onEngine, State.draw]
  simpa using newSession_ne _ _

theorem redrawSession_slot_other (s : State) {k j : Fin 20} (other : j ≠ k) :
    (redrawSession s k).engine.slots[j] = s.engine.slots[j] :=
  Vector.getElem_set_ne k.isLt j.isLt fun e => other (Fin.ext e.symm)

/-- A new session drawn for every key slot (R468). -/
def resessioned (s : State) : State := s.each (List.finRange 20) fun k s => redrawSession s k

theorem resessioned_alters (s : State) : Alters [.free, .engine] s (resessioned s) :=
  frame_each (fun _ _ hx => frame_redrawSession (List.Subset.refl _) hx) (frame_refl _ s)

/-- The redraw of every slot in turn leaves each slot with another session than before. -/
theorem resessioned_slot (s : State) (j : Fin 20) :
    (resessioned s).engine.slots[j].session ≠ s.engine.slots[j].session := by
  have untouched : ∀ (l : List (Fin 20)) (x : State), j ∉ l →
      (x.each l fun k s => redrawSession s k).engine.slots[j] = x.engine.slots[j] := by
    intro l
    induction l with
    | nil => intro x _; rfl
    | cons k l ih =>
      intro x fresh
      have ne := List.ne_of_not_mem_cons fresh
      exact (ih _ (List.not_mem_of_not_mem_cons fresh)).trans (redrawSession_slot_other x ne)
  have walk : ∀ (l : List (Fin 20)) (x : State), l.Nodup → j ∈ l →
      (x.each l fun k s => redrawSession s k).engine.slots[j].session ≠ x.engine.slots[j].session := by
    intro l
    induction l with
    | nil => intro x _ mem; cases mem
    | cons k l ih =>
      intro x nodup mem
      obtain ⟨fresh, nodup⟩ := List.nodup_cons.mp nodup
      rw [each_cons]
      by_cases h : j = k
      · subst h
        rw [untouched l _ fresh]
        exact redrawSession_slot x j
      · rw [← redrawSession_slot_other x h]
        exact ih _ nodup (List.mem_of_ne_of_mem h mem)
  exact walk _ s (List.nodup_finRange 20) (List.mem_finRange j)

theorem drawSeeds_seeds (s : State) : (drawSeeds s).tables.pb.seed = (drawSeeds s).tables.pa.seed ^^^ 0x9E37 := rfl

theorem drawSeeds_alters (s : State) : Alters [.free, .tables] s (drawSeeds s) :=
  frame_drawSeeds (List.Subset.refl _) (frame_refl _ s)

/-- The shell as its release leaves it, before sessions and seeds are drawn (Table 5.1, Rails). -/
def released (s : State) : State :=
  let s := { s with
    supply := { s.supply with kindle := .reading, good := [.vcore, .vsram, .vio, .van, .vfp, .vfn], pll := true,
                              retention := false, vaultDone := false, clearDone := false, coreReady := false },
    clock := Clock.reset,
    straps := Straps.reset,
    dbg := if s.supply.pll then s.dbg else Debug.reset }
  s.mapChans fun _ c => { c with bankMon := false, bankShell := true, refreshed := 0 }

@[simp] theorem released_engine (s : State) : (released s).engine = s.engine := rfl

theorem released_chan (s : State) (n : Fin 24) : ((released s).chan n).bankMon = false ∧ ((released s).chan n).bankShell = true := by
  rw [released, State.mapChans_chan]
  exact ⟨rfl, rfl⟩

theorem execShellRelease_due {s : State} (rails : s.supply.kindle = .rails) (vbus : s.supply.vbus = true)
    (rstN : s.supply.rstN = true) (testEn : s.supply.testEn = false) :
    execShellRelease s = .next (drawSeeds (resessioned (released s))) := by
  have due : (s.supply.kindle == .rails && s.supply.vbus && s.supply.rstN && !s.supply.testEn) = true := by
    simp [rails, vbus, rstN, testEn]
  exact congrArg Host.Outcome.next (whenDue_pos due)

/-- Settles O7: the draws of sessions and seeds change no other part of the released state. -/
theorem shellReleaseStartsReading : Obligations.ShellReleaseStartsReading := by
  unfold Obligations.ShellReleaseStartsReading
  intro s rails vbus rstN testEn
  have runs := execShellRelease_due rails vbus rstN testEn
  have alters := alters_of_answers (frame_execShellRelease (List.Subset.refl _) (frame_refl _ s)) runs
  have rest : Alters [.free, .engine, .tables] (released s) (drawSeeds (resessioned (released s))) :=
    frame_trans (frame_mono (by decide) (resessioned_alters _)) (frame_mono (by decide) (drawSeeds_alters _))
  have supply := same_supply rest (by decide)
  have clock := same_clock rest (by decide)
  have straps := same_straps rest (by decide)
  have engine := same_engine (drawSeeds_alters (resessioned (released s))) (by decide)
  have sessions := resessioned_slot (released s)
  rw [released_engine] at sessions
  refine ⟨_, runs, alters, ?_⟩
  rw [supply, clock, straps, engine]
  refine ⟨rfl, rfl, rfl, rfl, rfl, rfl, fun n => ?_, drawSeeds_seeds _, sessions⟩
  rw [same_chan rest (by decide)]
  exact released_chan s n

/-! ## Chip resets -/

/-- A chip reset of a state that differs only where the reset keeps nothing, or in what the always-on domain holds. -/
theorem afterChipReset_of_start {s s' t : State} (after : AfterChipReset s' t) (vault : s'.vault = s.vault)
    (chans : s'.chans = s.chans) (flue : s'.supply.flueLatched = s.supply.flueLatched) (die : s'.dieId = s.dieId)
    (pending : s'.pending = s.pending) : AfterChipReset s t := by
  have chan : ∀ n, s'.chan n = s.chan n := fun n => by rw [State.chan, State.chan, chans]
  exact
    { after with
      vault := after.vault.trans (by rw [vault])
      keepers := fun n => chan n ▸ after.keepers n
      flue := after.flue.trans flue
      identity := ⟨after.identity.1.trans die, after.identity.2.trans pending⟩ }

theorem afterChipReset_onSupply_start {s t : State} {f : Supply → Supply} (after : AfterChipReset (s.onSupply f) t)
    (flue : (f s.supply).flueLatched = s.supply.flueLatched) : AfterChipReset s t :=
  afterChipReset_of_start after rfl rfl flue rfl rfl

theorem afterChipReset_onSupply_end {s t : State} {f : Supply → Supply} (after : AfterChipReset s t)
    (flue : (f t.supply).flueLatched = t.supply.flueLatched) : AfterChipReset s (t.onSupply f) :=
  { after with flue := flue.trans after.flue }

/-- A state after a supply update, then reset. -/
theorem chipReset_onSupply_after (s : State) (f : Supply → Supply) (cause : Option Nat)
    (flue : (f s.supply).flueLatched = s.supply.flueLatched) : AfterChipReset s (chipReset (s.onSupply f) cause) :=
  afterChipReset_onSupply_start (chipReset_after _ cause) flue

@[simp] theorem chipReset_kindle (s : State) (cause : Option Nat) : (chipReset s cause).supply.kindle = .rails := rfl

@[simp] theorem chipReset_rstN (s : State) (cause : Option Nat) : (chipReset s cause).supply.rstN = s.supply.rstN := by
  cases cause <;> rfl

@[simp] theorem chipReset_testEn (s : State) (cause : Option Nat) : (chipReset s cause).supply.testEn = s.supply.testEn := by
  cases cause <;> rfl

@[simp] theorem chipReset_good (s : State) (cause : Option Nat) : (chipReset s cause).supply.good = s.supply.good := by
  cases cause <;> rfl

@[simp] theorem chipReset_pll (s : State) (cause : Option Nat) : (chipReset s cause).supply.pll = s.supply.pll := by
  cases cause <;> rfl

@[simp] theorem chipReset_vbus (s : State) (cause : Option Nat) : (chipReset s cause).supply.vbus = s.supply.vbus := by
  cases cause <;> rfl

theorem execRstNAssert_reset {s : State} (on : s.supply.kindle ≠ .off) (awake : s.supply.kindle ≠ .ember) :
    execRstNAssert s = .next (chipReset (s.onSupply fun u => { u with rstN := false }) (some 0x03)) := by
  unfold execRstNAssert
  dsimp only [State.onSupply_supply]
  split
  · next off => exact absurd off on
  · next ember => exact absurd ember awake
  · rfl

theorem execNodeResetApply_due {s : State} (trick : atTrick s = true) (asked : s.engine.nodeReset = true)
    (left : ∀ h < 16, responseOut s h 0x0901 = false) : execNodeResetApply s = .next (chipReset s (some 0x07)) := by
  have out : ((List.range 16).any fun h => responseOut s h 0x0901) = false := by simpa using left
  simp only [execNodeResetApply, whenDue, trick, asked, out, Bool.not_false, Bool.and_self, if_true]

theorem execRailOutOfWindow_reset {r : Rail} {s : State} (other : r ≠ .van)
    (kindling : s.supply.kindle = .reading ∨ s.supply.kindle = .joining) :
    execRailOutOfWindow r s = .next (chipReset (s.onSupply fun u => { u with good := u.good.filter (· != r) }) (some 0x04)) := by
  have van : (r == .van) = false := beq_false_of_ne other
  simp only [execRailOutOfWindow, van, State.onSupply_supply]
  rcases kindling with k | k <;> rw [k] <;> rfl

theorem execTestEnHigh_reset {s : State} (runs : shellRuns s = true) :
    execTestEnHigh s = .next (chipReset (s.onSupply fun u => { u with testEn := true }) none) := by
  have still : shellRuns (s.onSupply fun u => { u with testEn := true }) = true := runs
  simp only [execTestEnHigh, still, if_true]

/-- The state after a failed kindling attempt, the `n`-th in a row (R148). -/
def attemptFailed (w : KindleFail) (n : Nat) (s : State) : State :=
  let t := (chipReset s (some 0x06)).onSupply fun u => { u with attempts := n }
  if 3 ≤ n then t.onSupply fun u => { u with kindle := .halted, haltReason := some w } else t

theorem execKindleAttemptFail_due {w : KindleFail} {s : State}
    (kindling : s.supply.kindle = .rails ∨ s.supply.kindle = .reading ∨ s.supply.kindle = .joining) :
    execKindleAttemptFail w s = .next (attemptFailed w (s.supply.attempts + 1) s) := by
  unfold execKindleAttemptFail
  rcases kindling with k | k | k <;> rw [k] <;> rfl

theorem attemptFailed_after (w : KindleFail) (n : Nat) (s : State) : AfterChipReset s (attemptFailed w n s) ∧
    (attemptFailed w n s).supply.attempts = n ∧ (attemptFailed w n s).supply.kindle = if n < 3 then .rails else .halted := by
  have counted := afterChipReset_onSupply_end (chipReset_after s (some 0x06)) (f := fun u => { u with attempts := n }) rfl
  unfold attemptFailed
  split
  · next last => exact ⟨afterChipReset_onSupply_end counted rfl, rfl, (if_neg (Nat.not_lt.mpr last)).symm⟩
  · next early => exact ⟨counted, rfl, (if_pos (Nat.not_le.mp early)).symm⟩

/-- Settles O8: each of the five rows is the chip reset of the state in which its pin, rail or count is noted. -/
theorem chipResetClearsAndKeeps : Obligations.ChipResetClearsAndKeeps := by
  unfold Obligations.ChipResetClearsAndKeeps
  refine ⟨fun s on awake => ?_, fun s trick asked left => ?_, fun r s other kindling => ?_, fun s runs => ?_,
    fun w s kindling => ?_⟩
  · exact ⟨_, execRstNAssert_reset on awake, chipReset_onSupply_after s _ _ rfl, rfl, by simp⟩
  · exact ⟨_, execNodeResetApply_due trick asked left, chipReset_after s _, rfl⟩
  · exact ⟨_, execRailOutOfWindow_reset other kindling, chipReset_onSupply_after s _ _ rfl, rfl, by simp⟩
  · exact ⟨_, execTestEnHigh_reset runs, chipReset_onSupply_after s _ _ rfl, rfl, by simp⟩
  · obtain ⟨after, attempts, kindle⟩ := attemptFailed_after w (s.supply.attempts + 1) s
    refine ⟨_, execKindleAttemptFail_due kindling, after, attempts, kindle.trans ?_⟩
    simp only [Nat.add_lt_iff_lt_sub_right]

end Sys2Proof.Proofs
end

section
/-! Reading the straps: majority of eight conversions, references, and what STRAP_READING_RESOLVED writes
(02_straps_and_resistor_codes.md, R40 to R43, R53). -/

namespace Sys2Proof.Proofs

open Sys2Proof Sys2Proof.Machine Sys2Proof.Safety Sys2Proof.Laws

/-! ## The majority -/

/-- Two different codes share no conversion. -/
theorem agreeing_add_le {m n : Fin 16} (ne : m ≠ n) (convs : List (Option (Fin 16))) :
    agreeing convs m + agreeing convs n ≤ convs.length := by
  simp only [agreeing]
  induction convs with
  | nil => exact Nat.le_refl _
  | cons c convs ih =>
    simp only [List.filter_cons, beq_iff_eq]
    by_cases hm : c = some m
    · have hn : c ≠ some n := fun h => ne (Option.some.inj (hm.symm.trans h))
      rw [if_pos hm, if_neg hn, List.length_cons, List.length_cons]
      omega
    · rw [if_neg hm]
      split <;> simp only [List.length_cons] <;> omega

theorem majority_eq_code {convs : List (Option (Fin 16))} {n : Fin 16} (eight : convs.length = 8) (most : 5 ≤ agreeing convs n) :
    majority convs = .code n := by
  unfold majority
  split
  · next m found =>
    have agrees : 5 ≤ agreeing convs m := by simpa using List.find?_some found
    by_contra h
    have ne : m ≠ n := fun e => h (congrArg Code.code e)
    have := agreeing_add_le ne convs
    omega
  · next none =>
    have := List.find?_eq_none.mp none n (List.mem_finRange n)
    simp [most] at this

theorem majority_eq_ambiguous {convs : List (Option (Fin 16))} (few : ∀ n, agreeing convs n < 5) : majority convs = .ambiguous := by
  unfold majority
  split
  · next m found =>
    have agrees : 5 ≤ agreeing convs m := by simpa using List.find?_some found
    exact absurd agrees (Nat.not_le.mpr (few m))
  · rfl

@[simp] theorem pinConvs_length (rs : List StrapRound) (i : Nat) : (pinConvs rs i).length = rs.length := List.length_map _

/-! ## The references -/

theorem badReference_eq_none_iff {rs : List StrapRound} : badReference rs = none ↔ ∀ r ∈ rs, strapRefsGood r = true := by
  have each : ∀ e : Nat × StrapRound, (if !inWindow 3 e.2.ref3 then some (e.1 + 1, 0)
      else if !inWindow 12 e.2.ref12 then some (e.1 + 1, 1) else none) = none ↔ strapRefsGood e.2 = true := by
    intro e
    cases h3 : inWindow 3 e.2.ref3 <;> cases h12 : inWindow 12 e.2.ref12 <;> simp [strapRefsGood, h3, h12]
  simp only [badReference, List.findSome?_eq_none_iff, each]
  constructor
  · intro good r hr
    have rounds : ((List.range rs.length).zip rs).map Prod.snd = rs := List.map_snd_zip (by simp)
    obtain ⟨e, he, rfl⟩ := List.mem_map.mp (rounds ▸ hr)
    exact good e he
  · intro good e he
    exact good e.2 (List.of_mem_zip he).2

/-! ## The resolved straps -/

/-- The codes the eight rounds give (R41, R42). -/
def resolvedCodes (rs : List StrapRound) : List Code :=
  (List.range 72).map fun i => if (badReference rs).isSome then Code.ambiguous else majority (pinConvs rs i)

theorem codeAt_resolvedCodes {rs : List StrapRound} {i : Nat} (pin : i < 72) :
    codeAt (resolvedCodes rs) i = if (badReference rs).isSome then Code.ambiguous else majority (pinConvs rs i) := by
  simp [codeAt, resolvedCodes, pin]

theorem codeAt_resolvedCodes_good {rs : List StrapRound} {i : Nat} (pin : i < 72) (good : ∀ r ∈ rs, strapRefsGood r = true) :
    codeAt (resolvedCodes rs) i = majority (pinConvs rs i) := by
  simp [codeAt_resolvedCodes pin, badReference_eq_none_iff.mpr good]

theorem codeAt_resolvedCodes_bad {rs : List StrapRound} (bad : ∃ r ∈ rs, strapRefsGood r = false) (i : Nat) :
    codeAt (resolvedCodes rs) i = .ambiguous := by
  have some : (badReference rs).isSome := by
    rw [Option.isSome_iff_ne_none]
    intro none
    obtain ⟨r, hr, notGood⟩ := bad
    simp [badReference_eq_none_iff.mp none r hr] at notGood
  by_cases pin : i < 72
  · rw [codeAt_resolvedCodes pin, if_pos some]
  · simp [codeAt, resolvedCodes, pin]

/-- What STRAP_READING_RESOLVED writes in the straps. -/
def resolvedStraps (t : Straps) : Straps :=
  let alm := (almMajority t.rounds).getD .open_
  let dbg := (dbgMajority t.rounds).getD false
  { t with codes := resolvedCodes t.rounds, almSel := alm, dbgEn := dbg, resolved := true, rounds := [],
           digest := strapDigest (resolvedCodes t.rounds) alm dbg, blankmap := codeAt (resolvedCodes t.rounds) pinBlankmap }

theorem execStrapReadingResolved_due {s : State} (reading : s.supply.kindle = .reading) (fresh : s.straps.resolved = false)
    (eight : s.straps.rounds.length = 8) :
    ∃ t, execStrapReadingResolved s = .next t ∧ t.straps = resolvedStraps s.straps := by
  have due : (s.supply.kindle == .reading && !s.straps.resolved && s.straps.rounds.length == 8) = true := by
    simp [reading, fresh, eight]
  refine ⟨_, congrArg Host.Outcome.next (whenDue_pos due), ?_⟩
  extract_lets rs alm dbg bad codes s1 s2 s3
  have events : Alters [.events] s2 (digitalEvent (digitalEvent s3 alm.isSome) dbg.isSome) := by
    refine frame_digitalEvent (List.Subset.refl _) (frame_digitalEvent (List.Subset.refl _) ?_)
    unfold s3
    generalize bad = b
    split
    · exact frame_raise (List.Subset.refl _) (frame_refl _ _)
    · exact frame_each (fun _ _ hx => frame_marginalEvent (List.Subset.refl _) (frame_strapEvents (List.Subset.refl _) hx)) (frame_refl _ _)
  exact same_straps events (by decide)

theorem execStrapRound_reading {r : StrapRound} {s : State} (reading : s.supply.kindle = .reading) (fresh : s.straps.resolved = false)
    (room : s.straps.rounds.length < 8) :
    execStrapRound r s = .next (s.onStraps fun t => { t with rounds := t.rounds ++ [r] }) := by
  simp only [execStrapRound, reading, fresh, beq_self_eq_true, Bool.not_false, Bool.and_self, if_true, whenDue, room, decide_true]

/-- Settles O9: the codes are the majorities of the eight rounds unless a reference fails. -/
theorem strapRoundsResolveByMajority : Obligations.StrapRoundsResolveByMajority := by
  unfold Obligations.StrapRoundsResolveByMajority
  refine ⟨fun r s reading fresh room => execStrapRound_reading reading fresh room, fun s reading fresh eight => ?_⟩
  obtain ⟨t, runs, straps⟩ := execStrapReadingResolved_due reading fresh eight
  refine ⟨t, runs, alters_of_answers (frame_execStrapReadingResolved (List.Subset.refl _) (frame_refl _ s)) runs, ?_⟩
  rw [straps]
  refine ⟨rfl, fun i pin good => ⟨fun n most => ?_, fun few => ?_⟩, fun bad => codeAt_resolvedCodes_bad bad, rfl⟩
  · exact (codeAt_resolvedCodes_good pin good).trans (majority_eq_code ((pinConvs_length ..).trans eight) most)
  · exact (codeAt_resolvedCodes_good pin good).trans (majority_eq_ambiguous few)

end Sys2Proof.Proofs
end

section
/-! What the shared operations on one channel write: a target, a keeper or the shell taking over, bank-now, staleness and the front end.
Every field they do not write is read off the record of their lemma. -/

namespace Sys2Proof.Proofs

open Sys2Proof Sys2Proof.Machine Sys2Proof.Safety Sys2Proof.Laws

variable {s : State} {n m : Fin 24}

/-! ## On a channel's record -/

/-- Channel `c'` is `c` but for its target with the ramp and the checks that a new target restarts (R437, R441), its stage, its
stale spans and its front end. -/
structure Redriven (c c' : Chan) : Prop where
  eta : c' = { c with rampFrom := c'.rampFrom, target := c'.target, rampAt := c'.rampAt, settleEnd := c'.settleEnd, checks := c'.checks,
                      shortSince := c'.shortSince, weakSince := c'.weakSince, rangeSince := c'.rangeSince, delSince := c'.delSince,
                      pathSince := c'.pathSince, inControl := c'.inControl, dac := c'.dac, stageOn := c'.stageOn,
                      stale := c'.stale, sources := c'.sources, shunt := c'.shunt, switches := c'.switches }

theorem redriven_refl (c : Chan) : Redriven c c := ⟨rfl⟩

theorem redriven_trans {c c' c'' : Chan} (h : Redriven c c') (k : Redriven c' c'') : Redriven c c'' :=
  ⟨by rw [k.eta, h.eta]⟩

section Fields

variable {c c' : Chan}

theorem redriven_profile (h : Redriven c c') : c'.profile = c.profile := by rw [h.eta]
theorem redriven_capStrap (h : Redriven c c') : c'.capStrap = c.capStrap := by rw [h.eta]
theorem redriven_capBlank (h : Redriven c c') : c'.capBlank = c.capBlank := by rw [h.eta]
theorem redriven_capCurve (h : Redriven c c') : c'.capCurve = c.capCurve := by rw [h.eta]
theorem redriven_capCross (h : Redriven c c') : c'.capCross = c.capCross := by rw [h.eta]
theorem redriven_keeper (h : Redriven c c') : c'.keeper = c.keeper := by rw [h.eta]
theorem redriven_keptProfile (h : Redriven c c') : c'.keptProfile = c.keptProfile := by rw [h.eta]
theorem redriven_latch (h : Redriven c c') : c'.latch = c.latch := by rw [h.eta]
theorem redriven_bankShell (h : Redriven c c') : c'.bankShell = c.bankShell := by rw [h.eta]
theorem redriven_bankMon (h : Redriven c c') : c'.bankMon = c.bankMon := by rw [h.eta]
theorem redriven_commanded (h : Redriven c c') : c'.commanded = c.commanded := by rw [h.eta]
theorem redriven_applied (h : Redriven c c') : c'.applied = c.applied := by rw [h.eta]
theorem redriven_pending (h : Redriven c c') : c'.pending = c.pending := by rw [h.eta]
theorem redriven_override (h : Redriven c c') : c'.override = c.override := by rw [h.eta]
theorem redriven_comp (h : Redriven c c') : c'.comp = c.comp := by rw [h.eta]
theorem redriven_forced (h : Redriven c c') : c'.forced = c.forced := by rw [h.eta]
theorem redriven_inTrim (h : Redriven c c') : c'.inTrim = c.inTrim := by rw [h.eta]
theorem redriven_drive (h : Redriven c c') : c'.drive = c.drive := by rw [h.eta]
theorem redriven_disc (h : Redriven c c') : c'.disc = c.disc := by rw [h.eta]
theorem redriven_active (h : Redriven c c') : c'.active = c.active := by rw [h.eta]
theorem redriven_restrap (h : Redriven c c') : c'.restrap = c.restrap := by rw [h.eta]
theorem redriven_rekindle (h : Redriven c c') : c'.rekindle = c.rekindle := by rw [h.eta]
theorem redriven_refreshed (h : Redriven c c') : c'.refreshed = c.refreshed := by rw [h.eta]
theorem redriven_lastApply (h : Redriven c c') : c'.lastApply = c.lastApply := by rw [h.eta]

end Fields

theorem setTarget_redrives (c : Chan) (now : Tick) (v : Int) : Redriven c (setTarget c now v) := by
  unfold setTarget
  extract_lets
  split <;> exact ⟨rfl⟩

theorem keeperTakes_redrives (t : Trim) (now : Tick) (c : Chan) : Redriven c (keeperTakes t now c) := by
  unfold keeperTakes
  split <;> exact redriven_trans (setTarget_redrives c now _) ⟨rfl⟩

theorem driveValue_redrives (t : Trim) (now : Tick) (v : Int) (c : Chan) : Redriven c (driveValue t now v c) := by
  unfold driveValue
  dsimp only
  split <;> exact redriven_trans (setTarget_redrives c now v) ⟨rfl⟩

/-! ## On the state -/

@[simp] theorem bankNow_chan_other (h : m ≠ n) : (bankNow s n).chan m = s.chan m := State.onChan_chan_other _ n m _ h

theorem bankNow_chan (s : State) (n : Fin 24) :
    (bankNow s n).chan n = keeperTakes (trimOf s.vault n) s.clock.age { s.chan n with bankShell := true } :=
  State.onChan_chan ..

@[simp] theorem driveShell_chan_other (h : m ≠ n) : (driveShell s n).chan m = s.chan m := by
  unfold driveShell
  extract_lets c
  split
  · rfl
  · exact State.onChan_chan_other _ n m _ h

theorem driveShell_redrives (s : State) (n : Fin 24) : Redriven (s.chan n) ((driveShell s n).chan n) := by
  unfold driveShell
  extract_lets c
  split
  · exact redriven_refl _
  · rw [State.onChan_chan]
    exact driveValue_redrives ..

@[simp] theorem staleBegin_chan_other {cause : Nat} (h : m ≠ n) : (staleBegin s n cause).chan m = s.chan m :=
  State.onChan_chan_other _ n m _ h

theorem staleBegin_redrives (s : State) (n : Fin 24) (cause : Nat) : Redriven (s.chan n) ((staleBegin s n cause).chan n) := by
  unfold staleBegin
  extract_lets now
  rw [State.onChan_chan]
  split <;> exact ⟨rfl⟩

@[simp] theorem staleEnd_chan_other {cause : Nat} (h : m ≠ n) : (staleEnd s n cause).chan m = s.chan m :=
  State.onChan_chan_other _ n m _ h

theorem staleEnd_redrives (s : State) (n : Fin 24) (cause : Nat) : Redriven (s.chan n) ((staleEnd s n cause).chan n) := by
  unfold staleEnd
  extract_lets now
  rw [State.onChan_chan]
  exact ⟨rfl⟩

@[simp] theorem setFrontEnd_chan_other (h : m ≠ n) : (setFrontEnd s n).chan m = s.chan m := State.onChan_chan_other _ n m _ h

theorem setFrontEnd_chan (s : State) (n : Fin 24) :
    (setFrontEnd s n).chan n = { s.chan n with sources := ((setFrontEnd s n).chan n).sources, shunt := ((setFrontEnd s n).chan n).shunt,
                                               switches := ((setFrontEnd s n).chan n).switches } := by
  unfold setFrontEnd
  rw [State.onChan_chan]
  split
  · split <;> rfl
  · rfl

theorem setFrontEnd_redrives (s : State) (n : Fin 24) : Redriven (s.chan n) ((setFrontEnd s n).chan n) := ⟨by
  rw [setFrontEnd_chan]⟩

end Sys2Proof.Proofs
end

section
/-! The vault load, the memory clear and the end of Reading (05_kindling_and_resets.md, R130 to R133, Table 17.4). -/

namespace Sys2Proof.Proofs

open Sys2Proof Sys2Proof.Machine Sys2Proof.Safety Sys2Proof.Laws

/-! ## The vault load -/

@[simp] theorem damageVault_nil (v : Vault) : damageVault v [] = v := by simp [damageVault]

theorem unitFails_failed (s : State) (u : UnitId) : u ∈ (unitFails s u).tiers.failed := by
  unfold unitFails
  split
  · next known => simpa using known
  · simp

theorem unitFails_keeps_failed {s : State} {u v : UnitId} (h : v ∈ s.tiers.failed) : v ∈ (unitFails s u).tiers.failed := by
  unfold unitFails
  split
  · exact h
  · exact List.mem_append_left _ h

@[simp] theorem unitFails_capVault (s : State) (u : UnitId) : (unitFails s u).tiers.capVault = s.tiers.capVault := by
  unfold unitFails
  split <;> rfl

/-- What one record brings to the tier: only an unreadable one touches it (Table 17.4). -/
theorem vaultRecord_tiers_of_readable {s : State} {e : VKey × VRec} (h : e.2.look ≠ .unreadable) :
    (vaultRecord s e).tiers = s.tiers := by
  unfold vaultRecord
  split
  · next bad => exact absurd bad h
  · split <;> rfl
  · rfl

theorem vaultRecord_keeps_capVault {s : State} {e : VKey × VRec} (h : s.tiers.capVault = true) :
    (vaultRecord s e).tiers.capVault = true := by
  by_cases bad : e.2.look = .unreadable
  · simp only [vaultRecord, bad]
    split <;> simp [h]
  · rw [vaultRecord_tiers_of_readable bad, h]

theorem vaultRecord_keeps_failed {s : State} {e : VKey × VRec} {u : UnitId} (h : u ∈ s.tiers.failed) :
    u ∈ (vaultRecord s e).tiers.failed := by
  by_cases bad : e.2.look = .unreadable
  · simp only [vaultRecord, bad]
    split <;> simp [h, unitFails_keeps_failed]
  · rwa [vaultRecord_tiers_of_readable bad]

/-- The kinds of record whose loss caps the tier. -/
def capsVault (k : VKey) : Prop := (∃ n, k = .trim n) ∨ (∃ n, k = .curve n) ∨ k = .mask

theorem vaultRecord_caps {s : State} {k : VKey} {r : VRec} (kind : capsVault k) (bad : r.look = .unreadable) :
    (vaultRecord s (k, r)).tiers.capVault = true := by
  rcases kind with ⟨n, rfl⟩ | ⟨n, rfl⟩ | rfl <;> simp [vaultRecord, bad]

theorem vaultRecord_ward {s : State} {h : Fin 16} {r : VRec} (bad : r.look = .unreadable) :
    UnitId.ward ∈ (vaultRecord s (.ward h, r)).tiers.failed := by
  simp only [vaultRecord, bad]
  exact unitFails_failed _ _

/-- The records judged one after another (R131). -/
def vaultJudged (s : State) : State := s.each s.vault.recs fun e s => vaultRecord s e

theorem vaultJudged_alters (s : State) : Alters [.tiers, .mem, .events] s (vaultJudged s) :=
  frame_each (fun _ _ hx => frame_vaultRecord (List.Subset.refl _) hx) (frame_refl _ s)

theorem vaultJudged_caps {s : State} {k : VKey} {r : VRec} (stored : (k, r) ∈ s.vault.recs) (kind : capsVault k)
    (bad : r.look = .unreadable) : (vaultJudged s).tiers.capVault = true :=
  each_establishes (P := fun x => x.tiers.capVault = true) stored (fun _ => vaultRecord_caps kind bad)
    (fun _ _ => vaultRecord_keeps_capVault)

theorem vaultJudged_ward {s : State} {h : Fin 16} {r : VRec} (stored : (.ward h, r) ∈ s.vault.recs) (bad : r.look = .unreadable) :
    UnitId.ward ∈ (vaultJudged s).tiers.failed :=
  each_establishes (P := fun x => UnitId.ward ∈ x.tiers.failed) stored (fun _ => vaultRecord_ward bad)
    (fun _ _ => vaultRecord_keeps_failed)

theorem execVaultLoadDone_due {s : State} (reading : s.supply.kindle = .reading) (fresh : s.supply.vaultDone = false) :
    ∃ t, execVaultLoadDone [] s = .next t ∧ t.supply.vaultDone = true ∧ t.vault = s.vault ∧ t.tiers = (vaultJudged s).tiers := by
  have due : (s.supply.kindle == .reading && !s.supply.vaultDone) = true := by simp [reading, fresh]
  refine ⟨_, congrArg Host.Outcome.next (whenDue_pos due), rfl, ?_⟩
  have undamaged : (s.onVault fun v => damageVault v []) = s := by simp [State.onVault]
  rw [undamaged]
  dsimp only
  have judged : (vaultJudged s).vault = s.vault := same_vault (vaultJudged_alters s) (by decide)
  split
  · exact ⟨raise_vault.trans judged, raise_tiers⟩
  · exact ⟨judged, rfl⟩

/-- Settles O10: the load judges each record, and no later record takes a cap or a failure back. -/
theorem vaultLoadJudgesRecords : Obligations.VaultLoadJudgesRecords := by
  unfold Obligations.VaultLoadJudgesRecords
  intro s reading fresh
  obtain ⟨t, runs, done, vault, tiers⟩ := execVaultLoadDone_due reading fresh
  refine ⟨t, runs, alters_of_answers (frame_execVaultLoadDone (List.Subset.refl _) (frame_refl _ s)) runs, done, by rw [vault], ?_⟩
  rw [tiers]
  exact ⟨fun n _ stored bad => vaultJudged_caps stored (.inl ⟨n, rfl⟩) bad,
    fun n _ stored bad => vaultJudged_caps stored (.inr (.inl ⟨n, rfl⟩)) bad,
    fun _ stored bad => vaultJudged_caps stored (.inr (.inr rfl)) bad, fun _ _ stored bad => vaultJudged_ward stored bad⟩

/-! ## The memory clear -/

theorem repairRow_cells {m m' : Memory} {bank row k : Nat} {p : Bool} (repaired : repairRow m bank row p = some (k, m')) :
    m'.cells = m.cells := by
  unfold repairRow at repaired
  split at repaired
  · cases repaired
  · split at repaired <;> (cases repaired; rfl)

theorem clearBadRow_cells (s : State) (b : Fin 64) (r : Fin 512) : (clearBadRow s b r).mem.cells = s.mem.cells := by
  unfold clearBadRow
  extract_lets src d
  split
  · next k m repaired => rw [raise_mem]; exact repairRow_cells repaired
  · unfold unitFails
    split <;> simp

/-- The memory after the clear (R130). -/
def memoryCleared (s : State) : State := s.onMem fun m => { m with cells := [], poison := [], scrub := [] }

theorem execMemoryClearDone_due {bad : List (Fin 64 × Fin 512)} {s : State} (reading : s.supply.kindle = .reading)
    (loaded : s.supply.vaultDone = true) (fresh : s.supply.clearDone = false) :
    execMemoryClearDone bad s = .next (((memoryCleared s).each bad fun e s => clearBadRow s e.1 e.2).onSupply
      fun u => { u with clearDone := true }) := by
  have due : (s.supply.kindle == .reading && s.supply.vaultDone && !s.supply.clearDone) = true := by simp [reading, loaded, fresh]
  exact congrArg Host.Outcome.next (whenDue_pos due)

/-- Settles O11: the repair of bad rows after the clear writes no byte. -/
theorem memoryClearZeroesEveryByte : Obligations.MemoryClearZeroesEveryByte := by
  unfold Obligations.MemoryClearZeroesEveryByte
  refine ⟨fun s reading loaded fresh => ?_, fun bad s reading loaded fresh => ?_⟩
  · have runs := execMemoryClearDone_due (bad := []) reading loaded fresh
    rw [each_nil] at runs
    refine ⟨_, runs, ?_, rfl, fun a => rfl, rfl, rfl⟩
    exact frame_State_onSupply (L := [.supply, .mem]) (by decide)
      (frame_State_onMem (L := [.supply, .mem]) (by decide) (frame_refl _ s))
  · refine ⟨_, execMemoryClearDone_due reading loaded fresh, rfl, ?_⟩
    rw [State.onSupply_mem]
    exact each_keeps (P := fun x => x.mem.cells = []) (fun e x empty => (clearBadRow_cells x e.1 e.2).trans empty) rfl

/-! ## The end of Reading -/

section ConfigureChannel

variable {s : State} {n m : Fin 24} {p : BitVec 8}

theorem configureKeeper_chan_other (h : m ≠ n) : (configureKeeper s n p).chan m = s.chan m := State.onChan_chan_other _ n m _ h

theorem configureKeeper_chan_straps : ((configureKeeper s n p).chan n).profile = (s.chan n).profile ∧
    ((configureKeeper s n p).chan n).capStrap = (s.chan n).capStrap := by
  unfold configureKeeper
  extract_lets k t
  rw [State.onChan_chan]
  extract_lets latch c
  split
  · have kept : Redriven c _ := keeperTakes_redrives t s.clock.age c
    exact ⟨(redriven_profile kept).trans rfl, (redriven_capStrap kept).trans rfl⟩
  · exact ⟨rfl, rfl⟩

theorem configureChannel_chan_other (h : m ≠ n) : (configureChannel s n).chan m = s.chan m := by
  unfold configureChannel
  extract_lets codes p capS s1
  have first : s1.chan m = s.chan m := State.onChan_chan_other _ n m _ h
  clear_value s1 p
  split
  · split
    · exact first
    · split
      · exact (configureKeeper_chan_other h).trans first
      · exact (State.onChan_chan_other _ n m _ h).trans first
  · exact first

/-- A configured channel has the profile and the strap cap of its codes (R23, R50). -/
theorem configureChannel_chan : ((configureChannel s n).chan n).profile = strapProfile s.straps.codes n.val ∧
    ((configureChannel s n).chan n).capStrap = chanStrapCap s.straps.codes n.val := by
  unfold configureChannel
  extract_lets codes p capS s1
  have first : (s1.chan n).profile = p ∧ (s1.chan n).capStrap = capS := by
    unfold s1
    rw [State.onChan_chan]
    exact ⟨rfl, rfl⟩
  obtain ⟨profile, cap⟩ := first
  change (State.chan _ n).profile = p ∧ (State.chan _ n).capStrap = capS
  clear_value s1 p capS
  split
  · split
    · exact ⟨profile, cap⟩
    · split
      · exact ⟨configureKeeper_chan_straps.1.trans profile, configureKeeper_chan_straps.2.trans cap⟩
      · rw [State.onChan_chan]
        exact ⟨profile, cap⟩
  · exact ⟨profile, cap⟩

theorem curveEmptyEvent_alters : Alters [.events] s (curveEmptyEvent s n) := frame_curveEmptyEvent (List.Subset.refl _) (frame_refl _ s)

end ConfigureChannel

/-- Every channel configured from its straps, with its events (R49 to R52). -/
def channelsConfigured (s : State) : State := s.each (List.finRange 24) fun n s => curveEmptyEvent (configureChannel s n) n

theorem channelsConfigured_alters (s : State) : Alters [.chans, .events] s (channelsConfigured s) :=
  frame_each (fun _ _ hx => frame_curveEmptyEvent (by decide) (frame_configureChannel (by decide) hx)) (frame_refl _ s)

theorem channelsConfigured_chan (s : State) (n : Fin 24) :
    ((channelsConfigured s).chan n).profile = strapProfile s.straps.codes n.val ∧
    ((channelsConfigured s).chan n).capStrap = chanStrapCap s.straps.codes n.val := by
  have same : ∀ (k m : Fin 24) (x : State), (curveEmptyEvent (configureChannel x k) k).chan m = (configureChannel x k).chan m :=
    fun k m x => same_chan curveEmptyEvent_alters (by decide) m
  refine each_chans (I := fun x => x.straps.codes = s.straps.codes)
    (R := fun k _ c' => c'.profile = strapProfile s.straps.codes k.val ∧ c'.capStrap = chanStrapCap s.straps.codes k.val)
    (fun k x m h => (same k m x).trans (configureChannel_chan_other h)) (fun k x codes => ?_) (fun k x codes => ?_) rfl n
  · have straps : (curveEmptyEvent (configureChannel x k) k).straps = x.straps :=
      same_straps (frame_curveEmptyEvent (L := [.chans, .events]) (by decide) (frame_configureChannel (by decide) (frame_refl _ x)))
        (by decide)
    rw [straps, codes]
  · rw [same, ← codes]
    exact configureChannel_chan

/-- The chip judged, capped and seated before its channels are configured. -/
def readingJudged (s : State) : State :=
  seatStart ((judgeStranger s).onTiers fun t => { t with capStrap := strapCap s.straps.codes, upCount := none })

theorem readingJudged_alters (s : State) : Alters [.tiers, .vault, .events, .chans, .seat] s (readingJudged s) :=
  frame_seatStart (by decide) (frame_State_onTiers (by decide) (frame_judgeStranger (by decide) (frame_refl _ s)))

theorem judgeStranger_recs (s : State) : (judgeStranger s).vault.recs = s.vault.recs := by
  unfold judgeStranger makeStranger
  dsimp only
  repeat' split
  all_goals simp

theorem readingJudged_recs (s : State) : (readingJudged s).vault.recs = s.vault.recs := by
  have seated := frame_seatStart (L := [.chans, .seat]) (List.Subset.refl _)
    (frame_refl _ ((judgeStranger s).onTiers fun t => { t with capStrap := strapCap s.straps.codes, upCount := none }))
  exact (congrArg Vault.recs (same_vault seated (by decide))).trans (judgeStranger_recs s)

/-- A port as its detection strap and the mask in use set it. -/
def portStrapped (s : State) (pin : Nat) (q : PortState) : PortState :=
  { q with eMode := eModeOf s.straps.codes pin, mask := maskInUse (channelsConfigured (readingJudged s)) }

/-- The chip at the end of Reading (Table 5.1). -/
def readingDone (s : State) : State :=
  let t := channelsConfigured (readingJudged s)
  let t := (t.onPort .ta (portStrapped s pinDetA)).onPort .tb (portStrapped s pinDetB)
  let t := t.onTables fun u =>
    { u with prefixes := match placeOf s.straps.codes with | some p => [ownPrefix p] | none => [] }
  let t := (t.onQueues fun u => { u with ready := true }).onMem fun m => { m with windows := windowTable }
  t.onSupply fun u => { u with kindle := .joining, retention := true }

theorem readingDone_vault (s : State) : (readingDone s).vault = (channelsConfigured (readingJudged s)).vault := by
  simp [readingDone]

theorem readingDone_cells (s : State) : (readingDone s).mem.cells = (channelsConfigured (readingJudged s)).mem.cells := by
  simp [readingDone]

theorem readingDone_chan (s : State) (n : Fin 24) : (readingDone s).chan n = (channelsConfigured (readingJudged s)).chan n := by
  simp [readingDone]

theorem execKindleReadingDone_due {s : State} (reading : s.supply.kindle = .reading) (resolved : s.straps.resolved = true)
    (loaded : s.supply.vaultDone = true) (cleared : s.supply.clearDone = true) :
    execKindleReadingDone s = .next (readingDone s) := by
  have due : (s.supply.kindle == .reading && s.straps.resolved && s.supply.vaultDone && s.supply.clearDone) = true := by
    simp [reading, resolved, loaded, cleared]
  exact congrArg Host.Outcome.next (whenDue_pos due)

/-- Settles O12, the clause on KINDLE_READING_DONE: the judgement writes no strap, byte or vault record, and each channel is configured
from the codes. -/
theorem kindleReadingDone_configures {s : State} (reading : s.supply.kindle = .reading) (resolved : s.straps.resolved = true)
    (loaded : s.supply.vaultDone = true) (cleared : s.supply.clearDone = true) :
    ∃ t, exec .kindleReadingDone s = .next t ∧
      Alters [.supply, .tiers, .portA, .portB, .tables, .queues, .chans, .mem, .vault, .seat, .events] s t ∧
      t.supply.kindle = .joining ∧ t.supply.retention = true ∧ t.queues.ready = true ∧
      (∀ n : Fin 24, (t.chan n).profile = strapProfile s.straps.codes n.val ∧
        (t.chan n).capStrap = chanStrapCap s.straps.codes n.val) ∧
      t.portA.eMode = eModeOf s.straps.codes pinDetA ∧ t.portB.eMode = eModeOf s.straps.codes pinDetB ∧
      t.tables.prefixes = (match placeOf s.straps.codes with | some p => [ownPrefix p] | none => []) ∧
      t.mem.windows = windowTable ∧ t.mem.cells = s.mem.cells ∧ t.vault.recs = s.vault.recs := by
  have runs := execKindleReadingDone_due reading resolved loaded cleared
  have alters := alters_of_answers (frame_execKindleReadingDone (List.Subset.refl _) (frame_refl _ s)) runs
  have judged := readingJudged_alters s
  have walked := channelsConfigured_alters (readingJudged s)
  have straps : (readingJudged s).straps = s.straps := same_straps judged (by decide)
  refine ⟨_, runs, alters, rfl, rfl, rfl, fun n => ?_, rfl, rfl, rfl, rfl, ?_, ?_⟩
  · rw [readingDone_chan, ← straps]
    exact channelsConfigured_chan (readingJudged s) n
  · rw [readingDone_cells, same_mem walked (by decide), same_mem judged (by decide)]
  · rw [readingDone_vault, same_vault walked (by decide), readingJudged_recs]

/-- Settles O12. -/
theorem readingDoneConfiguresTheChip : Obligations.ReadingDoneConfiguresTheChip := by
  unfold Obligations.ReadingDoneConfiguresTheChip
  refine ⟨fun s reading resolved loaded cleared => kindleReadingDone_configures reading resolved loaded cleared,
    fun s kindle pending waited => ?_⟩
  have due : ((s.supply.kindle == .joining || s.supply.kindle == .up) && !s.supply.coreReady &&
      15000000 ≤ since s s.supply.coreAt) = true := by
    simpa [pending, waited] using kindle
  exact congrArg Host.Outcome.next (whenDue_pos due)

end Sys2Proof.Proofs
end

section
/-! Moves between the tiers (01_architecture.md, R19, R26, R27, R31; 05_kindling_and_resets.md, R132). -/

namespace Sys2Proof.Proofs

open Sys2Proof Sys2Proof.Machine Sys2Proof.Safety Sys2Proof.Laws

/-! ## What the tier allowed depends on -/

/-- The state with another list of failed units. -/
def withFailed (s : State) (l : List UnitId) : State := { s with tiers := { s.tiers with failed := l } }

theorem works_withFailed {s : State} {l l' : List UnitId} (same : ∀ u, u ∈ l ↔ u ∈ l') (u : UnitId) :
    works (withFailed s l) u = works (withFailed s l') u := by
  have contains : l.contains u = l'.contains u := by simp only [List.contains_eq_mem, same u]
  exact congrArg not contains

/-- The tier allowed sees which units have failed, not how they are listed. -/
theorem allowedTier_withFailed {s : State} {l l' : List UnitId} (same : ∀ u, u ∈ l ↔ u ∈ l') :
    allowedTier (withFailed s l) = allowedTier (withFailed s l') := by
  have rails : ∀ r, railGood (withFailed s l) r = railGood (withFailed s l') r := fun r =>
    congrArg (s.supply.good.contains r && ·) (works_withFailed same _)
  have banked : reqBanked (withFailed s l) = reqBanked (withFailed s l') := by
    simp only [reqBanked, rails]
    rfl
  have pass : reqPass (withFailed s l) = reqPass (withFailed s l') := by
    simp only [reqPass, rails, works_withFailed same]
    rfl
  have measure : reqMeasure (withFailed s l) = reqMeasure (withFailed s l') := by
    simp only [reqMeasure, rails, works_withFailed same]
    rfl
  have full : reqFull (withFailed s l) = reqFull (withFailed s l') := by
    simp only [reqFull, works_withFailed same]
    rfl
  simp only [allowedTier, reqTier, banked, pass, measure, full]
  rfl

/-- Units reported lost one after another are all listed, and nothing else changes (R26). -/
theorem unitsFail_eq (s : State) (lost : List UnitId) :
    ∃ l, (s.each lost fun u s => unitFails s u) = withFailed s l ∧ ∀ u, u ∈ l ↔ u ∈ s.tiers.failed ++ lost := by
  induction lost generalizing s with
  | nil => exact ⟨s.tiers.failed, rfl, by simp⟩
  | cons v lost ih =>
    obtain ⟨l, rest, mem⟩ := ih (unitFails s v)
    have first : ∃ k, unitFails s v = withFailed s k ∧ ∀ u, u ∈ k ↔ u ∈ s.tiers.failed ∨ u = v := by
      unfold unitFails
      split
      · next known => exact ⟨s.tiers.failed, rfl, fun u => ⟨.inl, fun h => h.elim id fun e => e ▸ List.contains_iff_mem.mp known⟩⟩
      · exact ⟨s.tiers.failed ++ [v], rfl, by simp⟩
    obtain ⟨k, eq, memk⟩ := first
    refine ⟨l, ?_, fun u => ?_⟩
    · rw [each_cons, rest, eq]
      rfl
    · have failed : (unitFails s v).tiers.failed = k := by rw [eq]; rfl
      rw [mem u, failed, List.mem_append, memk u, List.mem_append, List.mem_cons, or_assoc]

/-! ## Down -/

theorem settleTier_stays {s : State} {src : Nat} (allowed : s.tiers.tier.rank ≤ (allowedTier s).rank) : settleTier s src = s := by
  simp only [settleTier, allowed, decide_true, Bool.or_true, if_true]

section Lower

variable {s : State} {src : Nat}

theorem not_stays (up : s.supply.kindle = .up) (lower : (allowedTier s).rank < s.tiers.tier.rank) :
    ¬ (s.supply.kindle != .up || s.tiers.tier.rank ≤ (allowedTier s).rank) = true := by
  simp [up, lower]

theorem settleTier_resets (up : s.supply.kindle = .up) (lower : (allowedTier s).rank < s.tiers.tier.rank)
    (low : (allowedTier s).rank < 2) : settleTier s src = chipReset s (some 0x04) :=
  (if_neg (not_stays up lower)).trans (if_pos (Nat.le_of_lt_succ low : (allowedTier s).rank ≤ Tier.banked.rank))

/-- The tier allowed is taken, a tier of Full being left first (R33). -/
def tierLowered (s : State) : State :=
  (if s.tiers.tier == .full then leaveFull s else s).onTiers fun t => { t with tier := allowedTier s, upCount := none }

/-- The outputs and streams of a chip that leaves Measure or Full for Pass-through (R34), and the event. -/
def tierLeft (s : State) (src : Nat) : State :=
  tierEvent (if Tier.measure.rank ≤ s.tiers.tier.rank && allowedTier s == .passThrough then enterPassThroughDown (tierLowered s)
    else tierLowered s) s.tiers.tier (allowedTier s) src

theorem settleTier_moves (up : s.supply.kindle = .up) (lower : (allowedTier s).rank < s.tiers.tier.rank)
    (high : 2 ≤ (allowedTier s).rank) : settleTier s src = enterFixed (tierLeft s src) :=
  have notBanked : ¬ (allowedTier s).rank ≤ Tier.banked.rank := fun h => absurd (Nat.lt_succ_of_le h) (Nat.not_lt.mpr high)
  (if_neg (not_stays up lower)).trans (if_neg notBanked)

theorem tierLeft_alters (s : State) (src : Nat) :
    Alters [.events, .chans, .tables, .free, .queues, .hands, .streams, .counters] (tierLowered s) (tierLeft s src) := by
  refine frame_tierEvent (by decide) ?_
  split
  · exact frame_enterPassThroughDown (by decide) (frame_refl _ _)
  · exact frame_refl _ _

theorem enterFixed_alters (s : State) : Alters [.engine] s (enterFixed s) := frame_enterFixed (List.Subset.refl _) (frame_refl _ s)

theorem enterFixed_awaiting (s : State) : (enterFixed s).engine.awaiting = s.engine.awaiting := by
  unfold enterFixed
  split <;> rfl

theorem tierLowered_awaiting (full : s.tiers.tier = .full) : (tierLowered s).engine.awaiting = [] := by
  have left : (s.tiers.tier == .full) = true := beq_iff_eq.mpr full
  rw [tierLowered, if_pos left]
  rfl

theorem settled_tier (s : State) (src : Nat) : (enterFixed (tierLeft s src)).tiers.tier = allowedTier s := by
  rw [same_tiers (enterFixed_alters _) (by decide), same_tiers (tierLeft_alters s src) (by decide)]
  rfl

theorem settled_awaiting (src : Nat) (full : s.tiers.tier = .full) : (enterFixed (tierLeft s src)).engine.awaiting = [] := by
  rw [enterFixed_awaiting, same_engine (tierLeft_alters s src) (by decide), tierLowered_awaiting full]

end Lower

theorem execTierMoveDown_of_van {lost : List UnitId} {s : State} (van : UnitId.rail .van ∉ lost) :
    execTierMoveDown lost s = .next (settleTier (s.each lost fun u s => unitFails s u) ((lost.map unitSrc).foldl min 0x70)) := by
  have none : ¬ lost.contains (.rail .van) = true := by simpa using van
  exact if_neg none

/-- Settles O14: the units lost are noted, and the tier settles at the highest then allowed. -/
theorem tierMovesDownAtOnce : Obligations.TierMovesDownAtOnce := by
  unfold Obligations.TierMovesDownAtOnce
  intro lost s van up f
  obtain ⟨l, noted, mem⟩ := unitsFail_eq s lost
  have allowed : allowedTier (withFailed s l) = allowedTier f := allowedTier_withFailed mem
  have runs := execTierMoveDown_of_van (s := s) van
  rw [noted] at runs
  rw [← allowed]
  refine ⟨_, runs, fun stays => ?_, fun lower high => ?_, fun lower low => ?_⟩
  · rw [settleTier_stays stays]
    exact ⟨(frame_mk_tiers (List.Subset.refl _ (List.mem_singleton_self _))).mpr (frame_refl _ s), rfl⟩
  · rw [settleTier_moves (s := withFailed s l) up lower high]
    exact ⟨settled_tier (withFailed s l) _, settled_awaiting (s := withFailed s l) _⟩
  · rw [settleTier_resets (s := withFailed s l) up lower low]
    exact afterChipReset_of_start (chipReset_after _ _) rfl rfl rfl rfl rfl

/-! ## Up -/

theorem unitRecovers_alters (s : State) (us : List UnitId) : Alters [.supply, .tiers] s (unitRecovers s us) :=
  frame_unitRecovers (List.Subset.refl _) (frame_refl _ s)

@[simp] theorem unitRecovers_tier (s : State) (us : List UnitId) : (unitRecovers s us).tiers.tier = s.tiers.tier := rfl

@[simp] theorem unitRecovers_upCount (s : State) (us : List UnitId) : (unitRecovers s us).tiers.upCount = s.tiers.upCount := rfl

@[simp] theorem unitRecovers_kindle (s : State) (us : List UnitId) : (unitRecovers s us).supply.kindle = s.supply.kindle := rfl

/-- With no unit reported, the tier allowed stays. -/
theorem allowedTier_unitRecovers_nil (s : State) : allowedTier (unitRecovers s []) = allowedTier s := by
  have works : ∀ u, works (unitRecovers s []) u = works s u := fun u => by simp [works, unitRecovers]
  have rails : ∀ r, railGood (unitRecovers s []) r = railGood s r := fun r => by
    simp only [railGood, works]
    simp [unitRecovers, List.contains_eq_mem]
  have banked : reqBanked (unitRecovers s []) = reqBanked s := by
    simp only [reqBanked, rails]
    rfl
  have pass : reqPass (unitRecovers s []) = reqPass s := by
    simp only [reqPass, rails, works]
    rfl
  have measure : reqMeasure (unitRecovers s []) = reqMeasure s := by
    simp only [reqMeasure, rails, works]
    rfl
  have full : reqFull (unitRecovers s []) = reqFull s := by
    simp only [reqFull, works]
    rfl
  simp only [allowedTier, reqTier, banked, pass, measure, full]
  rfl

/-- The count for the next tier starts again at the boundary of a move (R27). -/
def upCounted (s : State) : State :=
  s.onTiers fun t => { t with upCount := if t.tier != .full && t.tier.up.rank ≤ (allowedTier s).rank then some 0 else none }

theorem upCounted_alters (s : State) : Alters [.tiers] s (upCounted s) := frame_State_onTiers (List.Subset.refl _) (frame_refl _ s)

theorem execTierMoveUp_joining {s : State} {k : Nat} (trick : atTrick s = true) (counted : s.tiers.upCount = some k) (held : 16 ≤ k)
    (joining : s.supply.kindle = .joining) (allowed : Tier.passThrough.rank ≤ (allowedTier s).rank) :
    execTierMoveUp [] s = .next (upCounted (enterPassThroughUp (unitRecovers s []))) := by
  have trick' : atTrick (unitRecovers s []) = true := trick
  simp only [execTierMoveUp, whenDue, unitRecovers_upCount, counted, held, decide_true, unitRecovers_kindle, joining,
    beq_self_eq_true, if_true, allowedTier_unitRecovers_nil, allowed, trick', Bool.true_or, Bool.and_self]
  rfl

theorem execTierMoveUp_up {s : State} {k : Nat} (trick : atTrick s = true) (counted : s.tiers.upCount = some k) (held : 16 ≤ k)
    (up : s.supply.kindle = .up) (below : s.tiers.tier ≠ .full) (allowed : s.tiers.tier.up.rank ≤ (allowedTier s).rank) :
    execTierMoveUp [] s = .next (upCounted (enterTierUp (unitRecovers s []) s.tiers.tier.up)) := by
  have trick' : atTrick (unitRecovers s []) = true := trick
  have notFull : (s.tiers.tier != .full) = true := bne_iff_ne.mpr below
  have notJoining : (Kindle.up == .joining) = false := rfl
  simp only [execTierMoveUp, whenDue, unitRecovers_upCount, counted, held, decide_true, unitRecovers_kindle, up, unitRecovers_tier,
    beq_self_eq_true, if_true, allowedTier_unitRecovers_nil, allowed, trick', notFull, notJoining, Bool.false_or, Bool.and_self,
    Bool.false_eq_true, if_false]
  rfl

theorem execTierMoveUp_idle {us : List UnitId} {s : State} (early : atTrick s = false ∨ ∀ k, s.tiers.upCount = some k → k < 16) :
    execTierMoveUp us s = .next (unitRecovers s us) := by
  unfold execTierMoveUp
  extract_lets s1 ready nxt
  refine congrArg Host.Outcome.next (whenDue_neg ?_)
  rcases early with between | few
  · have between' : atTrick s1 = false := between
    simp only [between', Bool.false_and]
  · have notReady : ready = false := by
      unfold ready
      split
      · next n counted => simpa using few n counted
      · rfl
    simp only [notReady, Bool.and_false, Bool.false_and]

theorem enterPassThroughUp_alters (s : State) :
    Alters [.supply, .tiers, .cut, .mem, .seat, .events, .announce] s (enterPassThroughUp s) :=
  frame_enterPassThroughUp (List.Subset.refl _) (frame_refl _ s)

theorem tierEvent_alters (s : State) (old new : Tier) (src : Nat) : Alters [.events] s (tierEvent s old new src) :=
  frame_tierEvent (List.Subset.refl _) (frame_refl _ s)

/-- What the entry into Pass-through writes (Table 5.1). -/
theorem enterPassThroughUp_fields (s : State) : (enterPassThroughUp s).tiers.tier = .passThrough ∧
    (enterPassThroughUp s).supply.kindle = .up ∧ (enterPassThroughUp s).supply.bypHold = true ∧
    (enterPassThroughUp s).supply.attempts = 0 ∧ (enterPassThroughUp s).cut.state = .waiting ∧
    (enterPassThroughUp s).supply.cause = s.supply.causeNext.getD s.supply.cause := by
  simp [enterPassThroughUp, tierEvent]

theorem enterTierUp_tier (s : State) (new : Tier) : (enterTierUp s new).tiers.tier = new := by
  unfold enterTierUp
  extract_lets old s1 s2
  have tiers : s2.tiers = s1.tiers := same_tiers (tierEvent_alters ..) (by decide)
  split
  · rw [same_tiers (frame_setFrontEnds (L := [.chans]) (List.Subset.refl _) (frame_refl _ s2)) (by decide), tiers]
    rfl
  · rw [tiers]
    rfl

/-- Settles O13. -/
theorem tierMovesUpOneAtATime : Obligations.TierMovesUpOneAtATime := by
  unfold Obligations.TierMovesUpOneAtATime
  refine ⟨fun s k trick counted held joining allowed => ?_, fun s k trick counted held up tier allowed => ?_, fun us s early => ?_⟩
  · obtain ⟨tier, kindle, byp, attempts, cut, cause⟩ := enterPassThroughUp_fields (unitRecovers s [])
    refine ⟨_, execTierMoveUp_joining trick counted held joining allowed, ?_, tier, kindle, byp, attempts, cut, cause⟩
    exact frame_trans (frame_mono (by decide) (unitRecovers_alters s []))
      (frame_trans (enterPassThroughUp_alters _) (frame_mono (by decide) (upCounted_alters _)))
  · have below : s.tiers.tier ≠ .full := by rcases tier with h | h <;> rw [h] <;> decide
    refine ⟨_, execTierMoveUp_up trick counted held up below allowed, ?_, enterTierUp_tier _ _⟩
    exact frame_trans (frame_mono (by decide) (unitRecovers_alters s []))
      (frame_trans (frame_enterTierUp (by decide) (frame_refl _ _)) (frame_mono (by decide) (upCounted_alters _)))
  · exact ⟨_, execTierMoveUp_idle early, unitRecovers_alters s us, rfl⟩

end Sys2Proof.Proofs
end

section
/-! The keepers' timer and checks (01_architecture.md, R17; 12_universal_channels.md, R390, R391), and the straps read again in service
(02_straps_and_resistor_codes.md, R52, R56 to R65, R190). -/

namespace Sys2Proof.Proofs

open Sys2Proof Sys2Proof.Machine Sys2Proof.Safety Sys2Proof.Laws

/-! ## The keeper's timer -/

section KeeperTimer

variable {ch : Fin 24} {a b : Bool} {own total : Int} {s : State}

theorem execKeeperTimerExpiry_due (out : isOutChan (s.chan ch) = true)
    (silent : shellRuns s = false ∨ 60000000 ≤ since s (s.chan ch).refreshed) :
    ∃ t, execKeeperTimerExpiry ch a b own total s = .next t ∧ (t.chan ch).inControl = true ∧
      (t.chan ch).latch = (s.chan ch).latch ∧ ∀ m, m ≠ ch → t.chan m = s.chan m := by
  have due : (isOutChan (s.chan ch) && (!shellRuns s || 60000000 ≤ since s (s.chan ch).refreshed)) = true := by
    simpa [out] using silent
  refine ⟨_, congrArg Host.Outcome.next (whenDue_pos due), ?_⟩
  extract_lets yield s1 s2
  have first : (s1.chan ch).latch = (s.chan ch).latch ∧ ∀ m, m ≠ ch → s1.chan m = s.chan m :=
    ⟨by rw [State.onChan_chan], fun m h => State.onChan_chan_other _ ch m _ h⟩
  have second : (s2.chan ch).latch = (s1.chan ch).latch ∧ ∀ m, m ≠ ch → s2.chan m = s1.chan m := by
    unfold s2
    split
    · exact ⟨rfl, fun m _ => rfl⟩
    · refine ⟨?_, fun m h => State.onChan_chan_other _ ch m _ h⟩
      rw [State.onChan_chan]
      split <;> rfl
  have last := State.onChan_chan s2 ch fun c => keeperTakes (trimOf s2.vault ch) s2.clock.age c
  refine ⟨?_, ?_, fun m h => ?_⟩
  · rw [last]
    exact keeperTakes_inControl ..
  · rw [last, redriven_latch (keeperTakes_redrives ..), second.1, first.1]
  · rw [State.onChan_chan_other _ ch m _ h, second.2 m h, first.2 m h]

end KeeperTimer

/-! ## The checks of keepers and crosspoints -/

theorem keeperCheckOne_released {n : Fin 24} {k r : Nat} {s : State} (out : isOutChan (s.chan n) = true)
    (free : (s.chan n).inControl = false) :
    (keeperCheckOne (n, k, r) s).chan n = { s.chan n with keeperFault := 10 < k, refFault := 20 < r } ∧
      ∀ m, m ≠ n → (keeperCheckOne (n, k, r) s).chan m = s.chan m := by
  have checked : ¬ (!isOutChan (s.chan n) || ((s.chan n).inControl && decide (since s (s.chan n).rampAt < trickTicks))) = true := by
    simp [out, free]
  unfold keeperCheckOne
  extract_lets n' c kd rd s1 s2
  rw [if_neg checked]
  have raised : ∀ m, s2.chan m = s1.chan m := by
    intro m
    unfold s2
    split
    · exact raise_chan m
    · exact clearLatching_chan m
  have last : ∀ m, State.chan (if 20 < r then raise s2 0x0D04 n.val rd else clearLatching s2 0x0D04 n.val 0 rd) m = s1.chan m := by
    intro m
    split
    · exact (raise_chan m).trans (raised m)
    · exact (clearLatching_chan m).trans (raised m)
  refine ⟨(last n).trans (State.onChan_chan ..), fun m h => (last m).trans (State.onChan_chan_other _ n m _ h)⟩

theorem capChannel_chan_other {s : State} {n m : Fin 24} (h : m ≠ n) : (capChannel s n).chan m = s.chan m := by
  unfold capChannel
  extract_lets s1
  have front : s1.chan m = s.chan m := setFrontEnd_chan_other h
  split
  · rw [State.onChan_chan_other _ n m _ h, bankNow_chan_other h, front]
  · exact front

theorem capChannel_capCross (s : State) (n : Fin 24) : ((capChannel s n).chan n).capCross = (s.chan n).capCross := by
  unfold capChannel
  extract_lets s1
  have front : (s1.chan n).capCross = (s.chan n).capCross := redriven_capCross (setFrontEnd_redrives s n)
  split
  · rw [State.onChan_chan, bankNow_chan]
    exact (redriven_capCross (keeperTakes_redrives ..)).trans front
  · exact front

theorem crosspointOne_chan_other {bad : List (Fin 24 × Fin 4)} {n m : Fin 24} {s : State} (h : m ≠ n) :
    (crosspointOne bad n s).chan m = s.chan m := by
  unfold crosspointOne
  split
  · exact State.onChan_chan_other _ n m _ h
  · extract_lets s1
    split
    · rw [capChannel_chan_other h, State.onChan_chan_other _ n m _ h]
      exact raise_chan m
    · rw [setFrontEnd_chan_other h, State.onChan_chan_other _ n m _ h]

/-- A second mismatch in a row caps the channel (R391). -/
theorem crosspointOne_second {bad : List (Fin 24 × Fin 4)} {n : Fin 24} {q : Fin 4} {s : State}
    (found : bad.find? (fun e => e.1 == n) = some (n, q)) (seen : (s.chan n).crossSeen = true) :
    ((crosspointOne bad n s).chan n).capCross = true := by
  unfold crosspointOne
  rw [found]
  dsimp only
  split
  · rw [capChannel_capCross, State.onChan_chan]
  · next known =>
    have capped : (s.chan n).capCross = true := by simpa [seen] using known
    rw [redriven_capCross (setFrontEnd_redrives _ n), State.onChan_chan]
    exact capped

theorem execCrosspointCheck_due {bad : List (Fin 24 × Fin 4)} {s : State} (trick : atTrick s = true) (service : inService s = true) :
    execCrosspointCheck bad s = .next (s.each (List.finRange 24) (crosspointOne bad)) :=
  congrArg Host.Outcome.next (whenDue_pos (by simp [trick, service]))

theorem execKeeperCheck_due {diffs : List (Fin 24 × Nat × Nat)} {s : State} (trick : atTrick s = true) (service : inService s = true)
    (turn : trickNo s % 16384 = 0) : execKeeperCheck diffs s = .next (s.each diffs keeperCheckOne) :=
  congrArg Host.Outcome.next (whenDue_pos (by simp [trick, service, turn]))

/-- Settles O16. -/
theorem keeperTimersAndChecks : Obligations.KeeperTimersAndChecks := by
  unfold Obligations.KeeperTimersAndChecks
  refine ⟨fun ch a b own total s out silent => ?_, fun n k r s trick service turn out free => ?_, fun s trick service => ?_,
    fun n q s trick service seen => ?_⟩
  · obtain ⟨t, runs, fields⟩ := execKeeperTimerExpiry_due (a := a) (b := b) (own := own) (total := total) out silent
    exact ⟨t, runs, alters_of_answers (frame_execKeeperTimerExpiry (List.Subset.refl _) (frame_refl _ s)) runs, fields⟩
  · have runs := execKeeperCheck_due (diffs := [(n, k, r)]) trick service turn
    exact ⟨_, runs, alters_of_answers (frame_execKeeperCheck (List.Subset.refl _) (frame_refl _ s)) runs,
      keeperCheckOne_released out free⟩
  · refine ⟨_, execCrosspointCheck_due trick service, ?_, ?_⟩
    · exact frame_each (fun n x hx => frame_State_onChan (f := fun c => { c with crossSeen := false }) (List.Subset.refl _) hx)
        (frame_refl _ s)
    · exact each_chans (I := fun _ => True) (R := fun _ c c' => c' = { c with crossSeen := false })
        (fun k x m h => crosspointOne_chan_other h) (fun _ _ _ => trivial) (fun k x _ => State.onChan_chan x k _) trivial
  · have runs := execCrosspointCheck_due (bad := [(n, q)]) trick service
    refine ⟨_, runs, alters_of_answers (frame_execCrosspointCheck (List.Subset.refl _) (frame_refl _ s)) runs, ?_⟩
    have walked := each_chans (s := s) (I := fun _ => True)
      (R := fun k c c' => k = n → c.crossSeen = true → c'.capCross = true)
      (fun k x m h => crosspointOne_chan_other (bad := [(n, q)]) h) (fun _ _ _ => trivial)
      (fun k x _ same mark => by subst same; exact crosspointOne_second (q := q) (by simp) mark) trivial n
    exact walked rfl seen

end Sys2Proof.Proofs
end

section
/-! The straps read again in service (02_straps_and_resistor_codes.md, R52, R56 to R65, R190). -/

namespace Sys2Proof.Proofs

open Sys2Proof Sys2Proof.Machine Sys2Proof.Safety Sys2Proof.Laws

/-! ## The end of a re-read -/

/-- The code a re-read finds for the `k`-th pin it names (R41, R59). -/
def rereadCode (q : Reread) (k : Nat) : Code :=
  if (badReference q.rounds).isSome then .ambiguous else majority (pinConvs q.rounds k)

/-- The fresh codes after a re-read: those it found, and those of other pins that still wait (R60). -/
def rereadFresh (s : State) (q : Reread) : List (Nat × Code) :=
  (s.straps.fresh.filter fun e => !q.pins.contains e.1) ++ (List.range q.pins.length).map fun k => (q.pins.getD k 0, rereadCode q k)

theorem mem_rereadFresh {s : State} {q : Reread} {k : Nat} (pin : k < q.pins.length) (good : ∀ r ∈ q.rounds, strapRefsGood r = true) :
    (q.pins.getD k 0, majority (pinConvs q.rounds k)) ∈ rereadFresh s q := by
  refine List.mem_append_right _ (List.mem_map.mpr ⟨k, List.mem_range.mpr pin, ?_⟩)
  rw [rereadCode, badReference_eq_none_iff.mpr good]
  rfl

theorem execStrapRereadEnd_due {s : State} {q : Reread} (running : s.straps.reread = some q) (eight : q.rounds.length = 8)
    (waited : 55500000 + 3000 * q.pins.length ≤ since s q.at_) :
    ∃ t, execStrapRereadEnd s = .next t ∧ t.straps.reread = none ∧ t.straps.codes = s.straps.codes ∧
      t.straps.fresh = rereadFresh s q ∧
      t.straps.digest = strapDigest (overlay s.straps.codes (rereadFresh s q)) s.straps.almSel s.straps.dbgEn ∧
      t.vault.pulses.length = s.vault.pulses.length + 1 ∧ t.vault.recs = s.vault.recs := by
  have due : (q.rounds.length == 8 && decide (55500000 + 3000 * q.pins.length ≤ since s q.at_)) = true := by simp [eight, waited]
  unfold execStrapRereadEnd
  rw [running]
  refine ⟨_, congrArg Host.Outcome.next (whenDue_pos due), ?_⟩
  extract_lets bad new fresh codes digest s1 s2 s3
  have events : Alters [.events] s s1 := by
    unfold s1
    generalize bad = b
    split
    · exact frame_raise (List.Subset.refl _) (frame_refl _ _)
    · exact frame_each (fun _ _ hx => frame_marginalEvent (List.Subset.refl _) (frame_strapEvents (List.Subset.refl _) hx)) (frame_refl _ _)
  have rekindled : ∀ t, (t = s3 ∨ ∃ n, t = startRekindle s3 n) → t.straps = s3.straps ∧ t.vault = s3.vault := by
    rintro t (rfl | ⟨n, rfl⟩)
    · exact ⟨rfl, rfl⟩
    · have alters := frame_startRekindle (n := n) (List.Subset.refl _) (frame_refl _ s3)
      exact ⟨same_straps alters (by decide), same_vault alters (by decide)⟩
  have ends : ∀ t, (t = s3 ∨ ∃ n, t = startRekindle s3 n) → t.straps.reread = none ∧ t.straps.codes = s.straps.codes ∧
      t.straps.fresh = rereadFresh s q ∧
      t.straps.digest = strapDigest (overlay s.straps.codes (rereadFresh s q)) s.straps.almSel s.straps.dbgEn ∧
      t.vault.pulses.length = s.vault.pulses.length + 1 ∧ t.vault.recs = s.vault.recs := by
    intro t ht
    obtain ⟨straps, vault⟩ := rekindled t ht
    have strapsBefore : s1.straps = s.straps := same_straps events (by decide)
    have vaultBefore : s1.vault = s.vault := same_vault events (by decide)
    rw [straps, vault]
    have codes : s1.straps.codes = s.straps.codes := congrArg Straps.codes strapsBefore
    have recs : s1.vault.recs = s.vault.recs := congrArg Vault.recs vaultBefore
    refine ⟨rfl, codes, rfl, rfl, ?_, recs⟩
    rw [← vaultBefore]
    exact List.length_append
  split
  · split
    · exact ends _ (.inr ⟨_, rfl⟩)
    · exact ends _ (.inl rfl)
  · exact ends _ (.inl rfl)

/-- Settles O17: the fresh codes, the digest over them and the pulse are written at once; a re-kindle that was held touches neither
straps nor vault. -/
theorem strapRereadResolvesTheNamedPins : Obligations.StrapRereadResolvesTheNamedPins := by
  unfold Obligations.StrapRereadResolvesTheNamedPins
  refine fun s q running => ⟨fun eight waited => ?_, fun early => ?_⟩
  · obtain ⟨t, runs, reread, codes, fresh, digest, pulses, recs⟩ := execStrapRereadEnd_due running eight waited
    refine ⟨t, runs, alters_of_answers (frame_execStrapRereadEnd (List.Subset.refl _) (frame_refl _ s)) runs, reread, codes, ?_, ?_,
      pulses, recs⟩
    · rw [fresh]
      exact fun k pin good => mem_rereadFresh pin good
    · rw [fresh, digest]
  · have idle : (q.rounds.length == 8 && decide (55500000 + 3000 * q.pins.length ≤ since s q.at_)) = false := by
      simp only [Bool.and_eq_false_iff, decide_eq_false_iff_not, Nat.not_le]
      exact .inr early
    show execStrapRereadEnd s = _
    rw [execStrapRereadEnd, running]
    exact congrArg Host.Outcome.next (whenDue_neg idle)

/-! ## A held re-read starts -/

/-- What a re-read writes when it starts: its pins and its time, and its channel under CH.RESTRAP (R56, R57). -/
theorem startReread_started (s : State) (f : CmdFrame) :
    (startReread s f).straps = { s.straps with reread := some { f := f, pins := restrapPins f, rounds := [], at_ := s.clock.age } } ∧
    ∀ n, restrapChan f = some n → ((startReread s f).chan n).restrap = true ∧
      (isOutChan (s.chan n) = true → ((startReread s f).chan n).bankShell = true ∧ ((startReread s f).chan n).inControl = true) := by
  unfold startReread
  extract_lets s1
  split
  · next n named =>
    extract_lets s2 s3
    have straps : s3.straps = s1.straps := by
      have alters : Alters [.chans] s1 s3 :=
        frame_State_onChan (List.Subset.refl _) (frame_staleBegin (List.Subset.refl _) (frame_refl _ s1))
      exact same_straps alters (by decide)
    have stale := staleBegin_redrives s1 n 3
    have marked : (s3.chan n).restrap = true ∧ isOutChan (s3.chan n) = isOutChan (s.chan n) := by
      unfold s3
      rw [State.onChan_chan]
      refine ⟨rfl, ?_⟩
      simp only [isOutChan, s2, redriven_profile stale, redriven_keeper stale]
      rfl
    refine ⟨?_, fun m hm => ?_⟩
    · split
      · exact straps
      · exact straps
    · cases hm.symm.trans named
      split
      · rw [bankNow_chan]
        have taken := keeperTakes_redrives (trimOf s3.vault n) s3.clock.age { s3.chan n with bankShell := true }
        exact ⟨(redriven_restrap taken).trans marked.1, fun _ => ⟨redriven_bankShell taken, keeperTakes_inControl ..⟩⟩
      · next input => exact ⟨marked.1, fun out => absurd (marked.2.trans out) input⟩
  · next none => exact ⟨rfl, fun n named => absurd (named.symm.trans none) (by simp)⟩

/-- Settles O18. -/
theorem rereadsRunOneAtATime : Obligations.RereadsRunOneAtATime := by
  unfold Obligations.RereadsRunOneAtATime
  refine ⟨fun s f rest idle held => ?_, fun s busy => ?_⟩
  · have runs : execRereadHeldStart s = .next (startReread (s.onStraps fun t => { t with rereadQueue := rest }) f) := by
      rw [execRereadHeldStart, held]
      exact congrArg Host.Outcome.next (whenDue_pos (by rw [idle]; rfl))
    obtain ⟨straps, chan⟩ := startReread_started (s.onStraps fun t => { t with rereadQueue := rest }) f
    refine ⟨_, runs, alters_of_answers (frame_execRereadHeldStart (List.Subset.refl _) (frame_refl _ s)) runs, ?_, ?_, chan⟩
    · rw [straps]
      rfl
    · rw [straps]
      rfl
  · show execRereadHeldStart s = _
    unfold execRereadHeldStart
    split
    · rfl
    · next f rest held =>
      have running : s.straps.reread.isNone = false := by
        rcases busy with running | empty
        · simpa [Option.isSome_iff_ne_none] using running
        · exact absurd (held.symm.trans empty) (by simp)
      exact congrArg Host.Outcome.next (whenDue_neg running)

/-! ## The codes take effect -/

/-- The straps with the fresh codes laid over and nothing due (R57, R58). -/
def strapsApplied (t : Straps) : Straps := { t with codes := overlay t.codes t.fresh, fresh := [], dueCh := [], dueFn := [] }

theorem execRestrapApply_due {s : State} (trick : atTrick s = true) (waits : s.straps.dueCh ≠ [] ∨ s.straps.dueFn ≠ []) :
    execRestrapApply s =
      .next (((s.onStraps strapsApplied).each s.straps.dueFn applyFunction).each s.straps.dueCh applyChannel) := by
  have due : (atTrick s && !(s.straps.dueCh.isEmpty && s.straps.dueFn.isEmpty)) = true := by
    rcases waits with h | h <;> simp [trick, h]
  exact congrArg Host.Outcome.next (whenDue_pos due)

/-- Nothing of a re-read is left to apply, and the codes in force are `codes`. -/
def CodesInForce (codes : List Code) (t : Straps) : Prop := t.codes = codes ∧ t.fresh = [] ∧ t.dueCh = [] ∧ t.dueFn = []

theorem applyBlankmap_straps (s : State) (c : Code) :
    (applyBlankmap s c).straps = { s.straps with blankmap := c, blankmapNext := none } := by
  unfold applyBlankmap
  extract_lets s1 s2
  have fronts : Alters [.chans] s1 (setFrontEnds s2) :=
    frame_setFrontEnds (List.Subset.refl _) (frame_State_mapChans (List.Subset.refl _) (frame_refl _ s1))
  exact same_straps fronts (by decide)

/-- A function's change touches the straps only in its blanking map (R58, R65). -/
theorem applyFunction_codesInForce {codes : List Code} {fn : Nat} {s : State} (h : CodesInForce codes s.straps) :
    CodesInForce codes (applyFunction fn s).straps := by
  have same : ∀ t : State, t.straps = s.straps → CodesInForce codes t.straps := fun t e => e ▸ h
  unfold applyFunction
  split
  · split
    · exact h
    · have masks : Alters [.portA, .portB, .tables] s (applyMask .tb (applyMask .ta s)) :=
        frame_applyMask (List.Subset.refl _) (frame_applyMask (List.Subset.refl _) (frame_refl _ s))
      exact same _ (same_straps masks (by decide))
  · have detection : Alters [.portA, .portB, .tables, .events] s (applyDetection (applyDetection s .ta pinDetA) .tb pinDetB) :=
      frame_applyDetection (by decide) (frame_applyDetection (by decide) (frame_refl _ s))
    exact same _ (same_straps detection (by decide))
  · rw [State.onSupply_straps, clearLatching_straps]
    exact h
  · extract_lets c
    split
    · exact h
    · rw [applyBlankmap_straps]
      exact h
  · exact h

theorem applyChannel_straps (e : Fin 24 × Option (BitVec 8)) (s : State) : (applyChannel e s).straps = s.straps :=
  same_straps (frame_applyChannel (List.Subset.refl _) (frame_refl _ s)) (by decide)

theorem restrapApplied_straps (s : State) (fns : List Nat) (chs : List (Fin 24 × Option (BitVec 8))) :
    CodesInForce (overlay s.straps.codes s.straps.fresh)
      (((s.onStraps strapsApplied).each fns applyFunction).each chs applyChannel).straps := by
  have functions : CodesInForce (overlay s.straps.codes s.straps.fresh) ((s.onStraps strapsApplied).each fns applyFunction).straps :=
    each_keeps (P := fun x => CodesInForce (overlay s.straps.codes s.straps.fresh) x.straps)
      (fun fn x h => applyFunction_codesInForce h) ⟨rfl, rfl, rfl, rfl⟩
  exact each_keeps (P := fun x => CodesInForce (overlay s.straps.codes s.straps.fresh) x.straps)
    (fun e x h => (applyChannel_straps e x).symm ▸ h) functions

/-- A channel whose profile the re-read left: out of CH.RESTRAP and, where it is commanded and no re-kindle runs, out of bank-now
(R57). -/
theorem applyChannel_unchanged {s : State} {n : Fin 24} {p : Option (BitVec 8)} (same : strapProfile s.straps.codes n.val = p)
    (commanded : (s.chan n).commanded = true) (quiet : (s.chan n).rekindle = none) :
    Alters [.chans] s (applyChannel (n, p) s) ∧ ((applyChannel (n, p) s).chan n).restrap = false ∧
      ((applyChannel (n, p) s).chan n).bankShell = false ∧ ∀ m, m ≠ n → (applyChannel (n, p) s).chan m = s.chan m := by
  have unchanged : (strapProfile s.straps.codes n.val == p) = true := beq_iff_eq.mpr same
  unfold applyChannel
  dsimp only
  rw [if_pos unchanged]
  have stale := staleEnd_redrives s n 3
  have drive := fun x => driveShell_redrives x n
  have front := fun x => setFrontEnd_redrives x n
  refine ⟨?_, ?_, ?_, fun m h => ?_⟩
  · exact frame_setFrontEnd (List.Subset.refl _) (frame_driveShell (List.Subset.refl _)
      (frame_State_onChan (List.Subset.refl _) (frame_staleEnd (List.Subset.refl _) (frame_refl _ s))))
  · rw [redriven_restrap (front _), redriven_restrap (drive _), State.onChan_chan]
  · rw [redriven_bankShell (front _), redriven_bankShell (drive _), State.onChan_chan]
    exact if_pos (by rw [redriven_commanded stale, redriven_rekindle stale, commanded, quiet]; rfl)
  · rw [setFrontEnd_chan_other h, driveShell_chan_other h, State.onChan_chan_other _ n m _ h, staleEnd_chan_other h]

/-- Settles O19. -/
theorem restrapTakesEffectAtTheBoundary : Obligations.RestrapTakesEffectAtTheBoundary := by
  unfold Obligations.RestrapTakesEffectAtTheBoundary
  refine ⟨fun s trick waits => ?_, fun s n p trick noFn oneCh same commanded quiet => ?_, fun s idle => ?_⟩
  · have runs := execRestrapApply_due trick waits
    have alters := alters_of_answers (frame_execRestrapApply (List.Subset.refl _) (frame_refl _ s)) runs
    obtain ⟨codes, fresh, dueCh, dueFn⟩ := restrapApplied_straps s s.straps.dueFn s.straps.dueCh
    exact ⟨_, runs, codes, fresh, dueCh, dueFn, same_vault alters (by decide), same_clock alters (by decide),
      same_mem alters (by decide)⟩
  · have runs := execRestrapApply_due trick (.inl (by simp [oneCh]))
    rw [noFn, oneCh, each_nil, each_cons, each_nil] at runs
    obtain ⟨alters, restrap, bank, others⟩ := applyChannel_unchanged (s := s.onStraps strapsApplied) same commanded quiet
    refine ⟨_, runs, ?_, restrap, bank, others⟩
    exact frame_trans (frame_State_onStraps (L := [.straps, .chans]) (f := strapsApplied) (by decide) (frame_refl _ s))
      (frame_mono (by decide) alters)
  · have due : (atTrick s && !(s.straps.dueCh.isEmpty && s.straps.dueFn.isEmpty)) = false := by
      rcases idle with h | ⟨h, k⟩
      · simp [h]
      · simp [h, k]
    exact congrArg Host.Outcome.next (whenDue_neg due)

/-! ## The deferred effects -/

theorem anyBlank_eq_false {s : State} (quiet : ∀ k : Fin 4, s.supply.blank[k].1 = false) : anyBlank s = false := by
  simp only [anyBlank, List.any_eq_false, Vector.mem_toList_iff, Vector.mem_iff_getElem]
  rintro b ⟨i, hi, rfl⟩
  simpa using quiet ⟨i, hi⟩

theorem execBlankmapDeferredApply_due {s : State} {c : Code} (trick : atTrick s = true) (held : s.straps.blankmapNext = some c)
    (quiet : ∀ k : Fin 4, s.supply.blank[k].1 = false) : execBlankmapDeferredApply s = .next (applyBlankmap s c) := by
  rw [execBlankmapDeferredApply, held]
  exact congrArg Host.Outcome.next (whenDue_pos (by simp [trick, anyBlank_eq_false quiet]))

/-- The channel's curve slot holds a block (R52). -/
def curveLoaded (v : Vault) (c : Chan) : Bool :=
  match c.profile with
  | some p => curveFilled v (cpbOf p)
  | none => false

/-- CURVE_CAP_LIFT on one channel. -/
def curveLift (n : Fin 24) (s : State) : State :=
  match (s.chan n).profile with
  | some p =>
    if (s.chan n).capCurve && curveFilled s.vault (cpbOf p) then
      let s := clearLatching s 0x0206 n.val 0 (beBytes 1 (cpbOf p))
      setFrontEnd (s.onChan n fun c => { c with capCurve := false }) n
    else s
  | none => s

theorem curveLift_chan_other {n m : Fin 24} {s : State} (h : m ≠ n) : (curveLift n s).chan m = s.chan m := by
  unfold curveLift
  split
  · split
    · rw [setFrontEnd_chan_other h, State.onChan_chan_other _ n m _ h, clearLatching_chan]
    · rfl
  · rfl

theorem curveLift_vault (n : Fin 24) (s : State) : (curveLift n s).vault = s.vault := by
  unfold curveLift
  split
  · split
    · exact same_vault (L := [.chans, .events]) (frame_setFrontEnd (by decide) (frame_State_onChan (by decide)
        (frame_clearLatching (by decide) (frame_refl _ s)))) (by decide)
    · rfl
  · rfl

theorem curveLift_capCurve (n : Fin 24) (s : State) :
    ((curveLift n s).chan n).capCurve = ((s.chan n).capCurve && !curveLoaded s.vault (s.chan n)) := by
  unfold curveLift curveLoaded
  split
  · next p profile =>
    split
    · next lifted =>
      rw [redriven_capCurve (setFrontEnd_redrives ..), State.onChan_chan, (Bool.and_eq_true_iff.mp lifted).2]
      simp
    · next kept =>
      cases filled : curveFilled s.vault (cpbOf p)
      · simp
      · simpa [filled] using kept
  · simp

theorem execCurveCapLift_due {s : State} (trick : atTrick s = true) :
    execCurveCapLift s = .next (s.each (List.finRange 24) curveLift) :=
  congrArg Host.Outcome.next (whenDue_pos trick)

theorem resound_port (s : State) (p : Port) (reason : Nat) : ((resound s p reason).port p).mask = (s.port p).mask ∧
    ((resound s p reason).port p).maskDue = (s.port p).maskDue ∧ (resound s p reason).port p.other = s.port p.other := by
  unfold resound
  split
  · have flush : ∀ q, (topologyFlushDue s).port q = s.port q := fun q =>
      same_port (frame_topologyFlushDue (L := [.tables]) (List.Subset.refl _) (frame_refl _ s)) (by decide) (by decide) q
    rw [State.onPort_port, State.onPort_port_other, flush, flush]
    exact ⟨rfl, rfl, rfl⟩
  · exact ⟨rfl, rfl, rfl⟩

theorem applyMask_port {s : State} {p : Port} (silent : isSounding (s.port p) = false) :
    ((applyMask p s).port p).mask = maskInUse s ∧ ((applyMask p s).port p).maskDue = false ∧
      (applyMask p s).port p.other = s.port p.other := by
  unfold applyMask
  rw [if_neg (by simp [silent])]
  obtain ⟨mask, due, other⟩ := resound_port (s.onPort p fun q => { q with mask := maskInUse s, maskDue := false }) p 2
  rw [State.onPort_port] at mask due
  rw [State.onPort_port_other] at other
  exact ⟨mask, due, other⟩

/-- Settles O20. -/
theorem deferredStrapEffects : Obligations.DeferredStrapEffects := by
  unfold Obligations.DeferredStrapEffects
  refine ⟨fun s c trick held quiet => ?_, fun s trick => ?_, fun p s trick waits silent => ?_⟩
  · have runs := execBlankmapDeferredApply_due trick held quiet
    refine ⟨_, runs, alters_of_answers (frame_execBlankmapDeferredApply (List.Subset.refl _) (frame_refl _ s)) runs, ?_⟩
    rw [applyBlankmap_straps]
    exact ⟨rfl, rfl, rfl⟩
  · have runs := execCurveCapLift_due trick
    refine ⟨_, runs, alters_of_answers (frame_execCurveCapLift (List.Subset.refl _) (frame_refl _ s)) runs, fun n => ?_⟩
    exact each_chans (I := fun x => x.vault = s.vault)
      (R := fun _ c c' => c'.capCurve = (c.capCurve && !curveLoaded s.vault c))
      (fun k x m h => curveLift_chan_other h) (fun k x h => (curveLift_vault k x).trans h)
      (fun k x h => h ▸ curveLift_capCurve k x) rfl n
  · have runs : execPhyMaskDeferredApply p s = .next (applyMask p s) :=
      congrArg Host.Outcome.next (whenDue_pos (by simp [trick, waits, silent]))
    exact ⟨_, runs, alters_of_answers (frame_execPhyMaskDeferredApply (List.Subset.refl _) (frame_refl _ s)) runs,
      applyMask_port silent⟩

end Sys2Proof.Proofs
end

section
/-! The resets by command as they take effect (05_kindling_and_resets.md, R137 to R146, Table 5.4). -/

namespace Sys2Proof.Proofs

open Sys2Proof Sys2Proof.Machine Sys2Proof.Safety Sys2Proof.Laws

/-! ## Ports -/

section PortReset

variable {s : State} {p : Port}

theorem endOps_alters (s : State) (pick : Op → Bool) (st : OpState) (reason : Nat) :
    Alters [.tables, .chans, .mem, .engine, .seat, .events] s (endOps s pick st reason) :=
  frame_endOps (List.Subset.refl _) (frame_refl _ s)

theorem enterHoldover_line (s : State) : (enterHoldover s).clock.line = s.clock.line := by
  simp [enterHoldover]

theorem execPortResetApply_due (symbol : atSymbol s = true) (waits : (s.port p).resetDue = true) (free : (s.port p).tx = none)
    (left : abortWaits (s.port p) = false) :
    ∃ t, execPortResetApply p s = .next t ∧
      ∃ x : State, t = clearCounters (x.onPort p fun q => q.afterReset (lineIn s trickTicks)) (portSrc p) := by
  have due : (atSymbol s && (s.port p).resetDue && (s.port p).tx.isNone && !abortWaits (s.port p)) = true := by
    simp [symbol, waits, free, left]
  refine ⟨_, congrArg Host.Outcome.next (whenDue_pos due), ?_⟩
  extract_lets s1 s2 s3 s4
  have declined : s1.clock = s.clock :=
    same_clock (frame_declineAll (L := [.queues]) (List.Subset.refl _) (frame_refl _ s)) (by decide)
  have held : s2.clock.line = s1.clock.line := by
    unfold s2
    split
    · exact enterHoldover_line s1
    · rfl
  have ended : s3.clock = s2.clock := same_clock (endOps_alters ..) (by decide)
  have stomped : s4.clock = s3.clock :=
    same_clock (frame_stompCopies (L := [.portA, .portB, .tables]) (by decide) (frame_leaveUp (by decide) (frame_refl _ s3))) (by decide)
  have line : lineIn s4 trickTicks = lineIn s trickTicks := by
    rw [lineIn, lineIn, stomped, ended, held, declined]
  exact ⟨s4, by rw [line]⟩

theorem afterReset_fields (q : PortState) (quiet : Tick) : (q.afterReset quiet).link = .off ∧ (q.afterReset quiet).linkD = none ∧
    (q.afterReset quiet).margin = 1 ∧ (q.afterReset quiet).resetDue = false ∧ (q.afterReset quiet).quietUntil = some quiet :=
  ⟨rfl, rfl, rfl, rfl, rfl⟩

@[simp] theorem clearCounters_port (src : Nat) (q : Port) : (clearCounters s src).port q = s.port q := by cases q <;> rfl

/-- A port at the end of its quiet trick (R140). -/
def quietEnded (service : Bool) (q : PortState) : PortState :=
  let q := { q with quietUntil := none }
  if service then { defaultSlots q with link := .listen, echoStart := 32, lock := false } else q

theorem quietEnded_quietUntil (service : Bool) (q : PortState) : (quietEnded service q).quietUntil = none := by
  cases service <;> rfl

theorem execPortQuietEnd_due {q : Tick} (quiet : (s.port p).quietUntil = some q) (elapsed : q.toNat ≤ s.clock.line.toNat) :
    execPortQuietEnd p s = .next (s.onPort p (quietEnded (inService s))) := by
  unfold execPortQuietEnd
  extract_lets ended
  have due : ended = true := by
    unfold ended
    rw [quiet]
    exact decide_eq_true elapsed
  exact congrArg Host.Outcome.next (whenDue_pos due)

end PortReset

/-! ## Pipelines -/

section PipeReset

variable {s : State} {p : Port}

theorem execPipeResetApply_first (accepted : (s.pipe p).resetting = 1) (symbol : atSymbol s = true)
    (runs : halted s (portNum p) = false) :
    execPipeResetApply p s = .next (stopIngress (endOps s (fun o => o.object == .pipe p) .cancelled 0x11) p) := by
  unfold execPipeResetApply
  extract_lets q
  refine congrArg Host.Outcome.next ((if_pos (beq_iff_eq.mpr accepted)).trans (whenDue_pos ?_))
  simp [symbol, runs]

theorem execPipeResetApply_second (stopped : (s.pipe p).resetting = 2) (drained : 4096 ≤ since s (s.pipe p).resetAt) :
    execPipeResetApply p s = .next (clearPipe s p) := by
  unfold execPipeResetApply
  extract_lets q
  have notFirst : ¬ (q.resetting == 1) = true := by simp [q, stopped]
  refine congrArg Host.Outcome.next ((if_neg notFirst).trans ((if_pos (beq_iff_eq.mpr stopped)).trans (whenDue_pos ?_)))
  exact decide_eq_true drained

/-- Bytes after the cells of a span are dropped: those inside read zero, the others as before. -/
theorem cellsRead_filter (l : List Host.Cell) (keep : Nat → Bool) (a : Nat) :
    cellsRead (l.filter fun c => keep c.1) a = if keep a then cellsRead l a else 0 := by
  induction l with
  | nil => cases keep a <;> rfl
  | cons c l ih =>
    rw [List.filter_cons, cellsRead_cons]
    by_cases here : c.1 = a
    · subst here
      cases kept : keep c.1
      · simpa [kept] using ih
      · simp [cellsRead_cons]
    · rw [if_neg here, ← ih]
      split
      · rw [cellsRead_cons, if_neg here]
      · rfl

theorem xor_const_ne {x c : BitVec 16} (h : c ≠ 0) : x ^^^ c ≠ x := by
  intro e
  have same : x ^^^ (x ^^^ c) = x ^^^ x := congrArg (x ^^^ ·) e
  rw [← BitVec.xor_assoc, BitVec.xor_self, BitVec.zero_xor] at same
  exact h same

/-- What the second stage of a pipeline reset writes in the tables (R141, R264). -/
theorem clearPipe_pipe (s : State) (p : Port) : ((clearPipe s p).pipe p).resetting = 3 ∧ ((clearPipe s p).pipe p).learned = 0 ∧
    ((clearPipe s p).pipe p).overflow = [] ∧ (clearPipe s p).pipe p.other = s.pipe p.other ∧
    ((clearPipe s p).pipe p).seed ≠ (s.pipe p.other).seed := by
  have seed : ∀ v o : BitVec 16, (if v == o then o ^^^ 0x9E37 else v) ≠ o := by
    intro v o
    split
    · exact xor_const_ne (by decide)
    · next differ => simpa using differ
  cases p <;> exact ⟨rfl, rfl, rfl, rfl, seed _ _⟩

theorem clearPipe_cells (s : State) (p : Port) (a : Nat) : cellsRead (clearPipe s p).mem.cells a =
    if wayAddr p 0 0 ≤ a ∧ a < wayAddr p 0 0 + 0x80000 then 0 else cellsRead s.mem.cells a := by
  have cells : (clearPipe s p).mem.cells =
      s.mem.cells.filter fun c => !(wayAddr p 0 0 ≤ c.1 && c.1 < wayAddr p 0 0 + 0x80000) := by cases p <;> rfl
  rw [cells, cellsRead_filter s.mem.cells fun a => !(wayAddr p 0 0 ≤ a && a < wayAddr p 0 0 + 0x80000)]
  by_cases inside : wayAddr p 0 0 ≤ a ∧ a < wayAddr p 0 0 + 0x80000
  · simp [inside]
  · rw [if_neg inside, if_pos]
    simp only [Bool.not_eq_true', Bool.and_eq_false_iff, decide_eq_false_iff_not]
    omega

end PipeReset

/-! ## Channels -/

theorem execChRekindleCalDone_due {ch : Fin 24} {s : State} {q : Tick} (running : (s.chan ch).rekindle = some q)
    (elapsed : q.toNat ≤ s.clock.age.toNat) :
    ∃ t, execChRekindleCalDone ch false s = .next t ∧ Alters [.chans] s t ∧ (t.chan ch).rekindle = none ∧ ∀ m, m ≠ ch → t.chan m = s.chan m := by
  unfold execChRekindleCalDone
  extract_lets ended
  have due : ended = true := by
    unfold ended
    rw [running]
    exact decide_eq_true elapsed
  refine ⟨_, congrArg Host.Outcome.next (whenDue_pos due), ?_⟩
  dsimp only
  rw [if_neg Bool.false_ne_true]
  refine ⟨?_, ?_, fun m h => ?_⟩
  · exact frame_setFrontEnd (List.Subset.refl _) (frame_driveShell (List.Subset.refl _)
      (frame_State_onChan (List.Subset.refl _) (frame_staleEnd (List.Subset.refl _) (frame_refl _ s))))
  · rw [redriven_rekindle (setFrontEnd_redrives ..), redriven_rekindle (driveShell_redrives ..), State.onChan_chan]
  · rw [setFrontEnd_chan_other h, driveShell_chan_other h, State.onChan_chan_other _ ch m _ h, staleEnd_chan_other h]

/-- Settles O22. -/
theorem resetsByCommandTakeEffect : Obligations.ResetsByCommandTakeEffect := by
  unfold Obligations.ResetsByCommandTakeEffect
  refine ⟨fun p s symbol waits free left => ?_, fun p s q quiet elapsed => ?_, fun p s accepted symbol run => ?_,
    fun p s stopped drained => ?_, fun p s trick cleared loud => ?_, fun ch s q running elapsed => ?_⟩
  · obtain ⟨t, runs, x, rfl⟩ := execPortResetApply_due symbol waits free left
    refine ⟨_, runs, alters_of_answers (frame_execPortResetApply (List.Subset.refl _) (frame_refl _ s)) runs, ?_⟩
    rw [clearCounters_port, State.onPort_port]
    exact afterReset_fields ..
  · have runs := execPortQuietEnd_due quiet elapsed
    refine ⟨_, runs, alters_of_answers (frame_execPortQuietEnd (List.Subset.refl _) (frame_refl _ s)) runs, ?_⟩
    rw [State.onPort_port, State.onPort_port_other]
    exact ⟨quietEnded_quietUntil .., fun service => by rw [service]; rfl, rfl⟩
  · refine ⟨_, execPipeResetApply_first accepted symbol run, ?_⟩
    rw [stopIngress, onPipe_pipe]
    exact ⟨rfl, congrArg Clock.age (same_clock (endOps_alters ..) (by decide))⟩
  · obtain ⟨resetting, learned, overflow, other, seed⟩ := clearPipe_pipe s p
    refine ⟨_, execPipeResetApply_second stopped drained, frame_clearPipe (List.Subset.refl _) (frame_refl _ s), resetting, learned,
      overflow, by rw [other]; exact seed, by rw [other], fun a low high => ?_, fun a outside => ?_⟩
    · rw [clearPipe_cells, if_pos ⟨low, high⟩]
    · rw [clearPipe_cells, if_neg (by omega)]
  · have runs : execPipeIngressResume p s = .next (s.onPipe p fun q => { q with resetting := 0 }) :=
      congrArg Host.Outcome.next (whenDue_pos (by simp [trick, cleared, loud]))
    refine ⟨_, runs, alters_of_answers (frame_execPipeIngressResume (List.Subset.refl _) (frame_refl _ s)) runs, ?_⟩
    rw [onPipe_pipe]
  · exact execChRekindleCalDone_due running elapsed

end Sys2Proof.Proofs
end

section
/-! Events that enter the merge (20_events_and_faults.md, R592, R599, R600): which raise logs its event, and what a later raise or clear
leaves of it. -/

namespace Sys2Proof.Proofs

open Sys2Proof Sys2Proof.Machine Sys2Proof.Safety Sys2Proof.Laws

section Logged

variable {s t x : State} {code src obj : Nat} {owner : Option Nat} {detail : List Byte} {clear : Bool} {rpt : Nat}

theorem mem_insertEvent {e d : Event} {l : List Event} : d ∈ insertEvent e l ↔ d = e ∨ d ∈ l := by
  induction l with
  | nil => simp [insertEvent]
  | cons x xs ih =>
    rw [insertEvent]
    split
    · simp
    · simp only [List.mem_cons, ih]
      tauto

theorem pushEvent_merge_subset {e : Event} (h : e ∈ s.events.merge) : e ∈ (pushEvent s code src owner clear rpt detail).events.merge :=
  mem_insertEvent.mpr (.inr h)

theorem pushEvent_logs (fits : code < 65536) (local_ : src < 256) : Logs s (pushEvent s code src owner false rpt detail) code src detail :=
  ⟨_, mem_insertEvent.mpr (.inl rfl), Nat.mod_eq_of_lt fits, by simp only [BitVec.toNat_ofNat]; omega, rfl, rfl, rfl⟩

theorem logs_of_merge (h : Logs x t code src detail) (counter : x.clock.counter = s.clock.counter) {u : State}
    (merge : ∀ e ∈ t.events.merge, e ∈ u.events.merge) : Logs s u code src detail := by
  obtain ⟨e, mem, hcode, hsrc, hdetail, htick, hclear⟩ := h
  exact ⟨e, merge e mem, hcode, hsrc, hdetail, htick.trans counter, hclear⟩

/-- The merge, and so what is logged, reads the counter of the state before alone. -/
theorem logs_at (h : Logs x t code src detail) (counter : x.clock.counter = s.clock.counter) : Logs s t code src detail :=
  logs_of_merge h counter fun _ mem => mem

theorem raise_merge_subset {e : Event} (h : e ∈ s.events.merge) : e ∈ (raise s code src detail obj owner).events.merge := by
  unfold raise
  split
  · unfold raiseLatching
    split
    · exact pushEvent_merge_subset h
    · split <;> exact h
  · split
    · unfold raiseCounting
      extract_lets same
      split
      · exact pushEvent_merge_subset h
      · split
        · exact h
        · exact pushEvent_merge_subset h
    · exact pushEvent_merge_subset h

/-- A code of severity 0 or 3 that does not latch is logged whenever it is raised. -/
theorem raise_logs_plain (plain : evLatching code = false) (severity : evSev code = 0 ∨ evSev code = 3) (fits : code < 65536)
    (local_ : src < 256) : Logs s (raise s code src detail obj owner) code src detail := by
  have uncounted : ¬ (evSev code == 1 || evSev code == 2) = true := by rcases severity with h | h <;> simp [h]
  rw [raise, if_neg (Bool.eq_false_iff.mp plain), if_neg uncounted]
  exact pushEvent_logs fits local_

/-- A latching code that is not raised is logged when its condition begins (R600). -/
theorem raise_logs_latching (latching : evLatching code = true) (fresh : latched s code src obj = false) (fits : code < 65536)
    (local_ : src < 256) : Logs s (raise s code src detail obj owner) code src detail := by
  have none : s.events.latches.find? (sameLatch code src obj) = none := by
    rw [List.find?_eq_none]
    exact List.any_eq_false.mp fresh
  rw [raise, if_pos latching, raiseLatching, none]
  exact pushEvent_logs fits local_

/-- A counting code with no rate limit running is logged (R599). -/
theorem raise_logs_counting (counting : evLatching code = false) (severity : evSev code = 1 ∨ evSev code = 2)
    (fresh : ∀ r ∈ s.events.rates, r.code.toNat ≠ code ∨ r.obj ≠ obj) (fits : code < 65536) (local_ : src < 256) :
    Logs s (raise s code src detail obj owner) code src detail := by
  have counted : (evSev code == 1 || evSev code == 2) = true := by rcases severity with h | h <;> simp [h]
  rw [raise, if_neg (Bool.eq_false_iff.mp counting), if_pos counted, raiseCounting]
  have none : s.events.rates.find? (fun r => r.code.toNat == code && r.src == src && r.obj == obj) = none := by
    rw [List.find?_eq_none]
    intro r mem
    rcases fresh r mem with h | h <;> simp [h]
  rw [none]
  exact pushEvent_logs fits local_

theorem raise_latched_other {code' src' obj' : Nat} (h : latched s code' src' obj' = true) :
    latched (raise s code src detail obj owner) code' src' obj' = true := by
  unfold raise
  split
  · unfold raiseLatching
    split
    · exact List.any_eq_true.mpr (by
        obtain ⟨l, mem, found⟩ := List.any_eq_true.mp h
        exact ⟨l, List.mem_append_left _ mem, found⟩)
    · split
      · exact (any_sameLatch_map (fun x => by split <;> rfl) _).trans h
      · exact h
  · split
    · unfold raiseCounting
      extract_lets same
      split
      · exact h
      · split <;> exact h
    · exact h

end Logged

end Sys2Proof.Proofs
end

section
/-! The hearth and its ledger (03_flue_hearth_ember.md, R73, R76, R77, R93, Table 3.10). -/

namespace Sys2Proof.Proofs

open Sys2Proof Sys2Proof.Machine Sys2Proof.Safety Sys2Proof.Laws

/-- The class of a hearth, R76's Table 2.3: at most 8. -/
theorem hearthClass_le (s : State) : hearthClass s ≤ 8 := by
  unfold hearthClass hearthOf
  split
  · split <;> omega
  · exact Nat.zero_le _

theorem eFull_pos {cls : Nat} (present : cls ≠ 0) (known : cls ≤ 8) : 0 < eFull cls := by
  unfold eFull ledgerOf hearthCap
  interval_cases cls <;> simp at present ⊢

/-! ## The ledger and HEARTH_DIS -/

section HearthDis

variable {cls ledger : Nat} {weak was : Bool}

theorem hearthDisNext_of_weak (h : cls = 0 ∨ weak = true) : hearthDisNext cls ledger weak was = false := if_pos (by simpa using h)

theorem hearthDisNext_of_strong (present : cls ≠ 0) (strong : weak = false) : hearthDisNext cls ledger weak was =
    if 11 * eFull cls ≤ 20 * ledger then true else if 2 * ledger ≤ eFull cls then false else was :=
  if_neg (by simp [present, strong])

end HearthDis

section Rows

variable {s : State}

theorem execLedgerUpdate_due {vh vbus : Nat} (runs : shellRuns s = true) : execLedgerUpdate vh vbus s = .next (s.onSupply fun u =>
    { u with vh := vh, vbusV := vbus, ledger := ledgerOf (hearthClass s) vh,
             hearthDis := hearthDisNext (hearthClass s) (ledgerOf (hearthClass s) vh) u.hearthWeak u.hearthDis }) :=
  congrArg Host.Outcome.next (whenDue_pos runs)

/-! ## Charging -/

theorem execChargeEnable_due (trick : atTrick s = true) (kindled : s.supply.kindle = .joining ∨ s.supply.kindle = .up)
    (present : hearthClass s ≠ 0) (sound : s.supply.hearthOv = false) (fed : 1185 ≤ s.supply.vbusV)
    (paused : s.supply.chargeOffUntil.toNat ≤ s.clock.age.toNat) (idle : s.supply.hearthChg = false) :
    execChargeEnable s = .next (s.onSupply fun u => { u with hearthChg := true, chargeSince := some s.clock.age }) := by
  refine congrArg Host.Outcome.next (whenDue_pos ?_)
  simpa [trick, present, sound, fed, paused, idle] using kindled

theorem execChargeEnable_idle (h : hearthClass s = 0 ∨ s.supply.hearthOv = true ∨ s.supply.vbusV < 1185 ∨
    s.clock.age.toNat < s.supply.chargeOffUntil.toNat) : execChargeEnable s = .next s := by
  refine congrArg Host.Outcome.next (whenDue_neg ?_)
  rcases h with h | h | h | h <;> simp [h]

/-! ## Faults of hearth and VBUS (Table 3.10) -/

theorem execHearthWeak_due {vh : Nat} {q : Tick} (runs : shellRuns s = true) (charging : s.supply.chargeSince = some q)
    (long : 30000000000 ≤ since s q) (low : vh < 2700) : execHearthWeak vh s =
      .next (raise (s.onSupply fun u => { u with hearthWeak := true, hearthDis := false }) 0x0307 0x30 (beBytes 2 vh)) := by
  unfold execHearthWeak
  extract_lets waited
  refine congrArg Host.Outcome.next (whenDue_pos ?_)
  simp [waited, runs, charging, long, low]

/-- The event of an over-voltage leaves only from a shell that runs; the latch is the always-on domain's. -/
theorem execVbusOvervoltage_due {v : Nat} (on : s.supply.kindle ≠ .off) (unlatched : s.supply.flueLatched = false) :
    ∃ x, Alters [.events] s x ∧
      execVbusOvervoltage v s = .next (x.onSupply fun u => { u with flueEn := false, flueLatched := true }) := by
  refine ⟨_, ?_, congrArg Host.Outcome.next (whenDue_pos (by simp [on, unlatched]))⟩
  split
  · exact raise_alters
  · exact frame_refl _ s

end Rows

/-- Settles O24. -/
theorem hearthLedgerAndCharging : Obligations.HearthLedgerAndCharging := by
  unfold Obligations.HearthLedgerAndCharging
  refine ⟨fun vh vbus s runs => ?_, fun s => execChargeEnable_due, fun s => execChargeEnable_idle, fun s runs => ?_, fun s runs => ?_,
    fun vh s q runs charging long low => ?_, fun v s on unlatched => ?_⟩
  · refine ⟨_, execLedgerUpdate_due runs, frame_State_onSupply (List.Subset.refl _) (frame_refl _ s), rfl, rfl, rfl,
      fun weak => hearthDisNext_of_weak weak, fun present strong => ?_⟩
    have full : 0 < ledgerOf (hearthClass s) 2800 := eFull_pos present (hearthClass_le s)
    dsimp only [State.onSupply]
    rw [hearthDisNext_of_strong present strong, eFull]
    refine ⟨fun above => if_pos above, fun below => ?_, fun above below => ?_⟩
    · rw [if_neg (by omega), if_pos below]
    · rw [if_neg (by omega), if_neg (by omega)]
  · exact ⟨_, congrArg Host.Outcome.next (whenDue_pos runs), frame_State_onSupply (List.Subset.refl _) (frame_refl _ s), rfl, rfl⟩
  · refine ⟨_, congrArg Host.Outcome.next (whenDue_pos runs), ?_, ?_, ?_⟩
    · exact frame_raise (by decide) (frame_State_onSupply (by decide) (frame_refl _ s))
    · rw [raise_supply]; rfl
    · rw [raise_supply]; rfl
  · refine ⟨_, execHearthWeak_due runs charging long low, ?_, ?_, ?_, ?_, raise_latched (by decide) (by decide)⟩
    · exact frame_raise (by decide) (frame_State_onSupply (by decide) (frame_refl _ s))
    · rw [raise_supply]; rfl
    · rw [raise_supply]; rfl
    · rw [raise_supply]; rfl
  · obtain ⟨x, logged, ran⟩ := execVbusOvervoltage_due (v := v) on unlatched
    exact ⟨_, ran, frame_State_onSupply (by decide) (frame_mono (by decide) logged), rfl, rfl⟩

end Sys2Proof.Proofs
end

section
/-! Riding through and the ember (03_flue_hearth_ember.md, R81 to R85, Tables 3.6 to 3.8). -/

namespace Sys2Proof.Proofs

open Sys2Proof Sys2Proof.Machine Sys2Proof.Safety Sys2Proof.Laws

section Riding

variable {vbus : Nat} {s : State}

theorem execRidingEnter_due (trick : atTrick s = true) (kindled : s.supply.kindle = .joining ∨ s.supply.kindle = .up)
    (steady : s.supply.riding = false) (low : vbus < 1170) : execRidingEnter vbus s =
      .next (raise (s.onSupply fun u => { u with riding := true, ridingAt := s.clock.age, vbusV := vbus }) 0x0301 0x30
        (beBytes 2 vbus ++ beBytes 2 (ledgerField s.supply))) := by
  refine congrArg Host.Outcome.next (whenDue_pos ?_)
  simpa [trick, steady, low] using kindled

theorem execRidingEnd_due (riding : s.supply.riding = true) (back : 1185 ≤ vbus) : execRidingEnd vbus s =
    .next (clearLatching (s.onSupply fun u => { u with riding := false, vbusV := vbus }) 0x0301 0x30 0
      (beBytes 4 (since s s.supply.ridingAt / trickTicks))) :=
  congrArg Host.Outcome.next (whenDue_pos (by simp [riding, back]))

end Riding

/-! ## Ember entry -/

theorem enterEmber_fields (t : Trim) (now : Tick) (c : Chan) : (Chan.enterEmber t now c).bankMon = true ∧
    (Chan.enterEmber t now c).inControl = true ∧ (Chan.enterEmber t now c).pending = [] := by
  obtain ⟨_, _, mon, _, _, _, _, control⟩ := keeperTakes_keeps t now { c with bankMon := true }
  exact ⟨mon, control, rfl⟩

/-- What every live part of the chip gives up before the shell loses its power: the debug session, the operations, the streams (R81). -/
def emberLeft (s : State) : State := closeAllStreams (leaveFull (closeSession s 7)) 4

theorem emberLeft_alters (s : State) : Alters [.free, .tables, .queues, .hands, .streams, .chans, .mem, .engine, .seat, .events, .dbg,
    .counters] s (emberLeft s) :=
  frame_closeAllStreams (by decide) (frame_leaveFull (by decide) (frame_closeSession (by decide) (frame_refl _ s)))

/-- A seated chip's outputs leave the pair (R81). -/
def outIfSeated (s : State) : State := if s.seat.state == .seated then s.mapChans fun _ c => { c with drive := .out } else s

theorem outIfSeated_alters (s : State) : Alters [.chans] s (outIfSeated s) := by
  unfold outIfSeated
  split
  · exact frame_State_mapChans (List.Subset.refl _) (frame_refl _ s)
  · exact frame_refl _ s

theorem outIfSeated_chan (s : State) (n : Fin 24) : ∃ d, (outIfSeated s).chan n = { s.chan n with drive := d } := by
  unfold outIfSeated
  split
  · exact ⟨.out, State.mapChans_chan ..⟩
  · exact ⟨(s.chan n).drive, rfl⟩

/-- What EMBER_ENTRY leaves of a state (Tables 3.7 and 3.8), apart from the lines it drives. -/
structure InEmber (s t : State) : Prop where
  tier : t.tiers.tier = .banked
  chan : ∀ n : Fin 24, (t.chan n).bankMon = true ∧ (t.chan n).inControl = true ∧ (t.chan n).pending = []
  supply : t.supply = s.supply
  frames : t.queues.frames = []
  links : t.portA.link = .off ∧ t.portB.link = .off
  awaiting : t.engine.awaiting = []
  clock : t.clock = Clock.enterEmber s.clock
  straps : t.straps = { s.straps with reread := none, rereadQueue := [] }
  vault : t.vault.recs = s.vault.recs
  identity : t.dieId = s.dieId

theorem inEmber_outIfSeated {s t : State} (h : InEmber s t) : InEmber s (outIfSeated t) where
  tier := by rw [same_tiers (outIfSeated_alters t) (by decide)]; exact h.tier
  chan := fun n => by
    obtain ⟨d, same⟩ := outIfSeated_chan t n
    rw [same]
    exact h.chan n
  supply := (same_supply (outIfSeated_alters t) (by decide)).trans h.supply
  frames := by rw [same_queues (outIfSeated_alters t) (by decide)]; exact h.frames
  links := by rw [same_portA (outIfSeated_alters t) (by decide), same_portB (outIfSeated_alters t) (by decide)]; exact h.links
  awaiting := by rw [same_engine (outIfSeated_alters t) (by decide)]; exact h.awaiting
  clock := (same_clock (outIfSeated_alters t) (by decide)).trans h.clock
  straps := (same_straps (outIfSeated_alters t) (by decide)).trans h.straps
  vault := by rw [same_vault (outIfSeated_alters t) (by decide)]; exact h.vault
  identity := (same_dieId (outIfSeated_alters t) (by decide)).trans h.identity

/-- The supply in the ember (Table 3.7). -/
def emberSupply (u : Supply) : Supply :=
  { u with kindle := .ember, bypHold := false, emberSet := true, flueLim := false, hearthChg := false, hearthDis := false,
           chargeSince := none, riding := false, pll := false, coreReady := false }

theorem execEmberEntry_due {s : State} (kindled : s.supply.kindle = .joining ∨ s.supply.kindle = .up)
    (latch : s.supply.retention = true) (present : hearthClass s ≠ 0) (sound : s.supply.hearthOv = false) :
    ∃ t, execEmberEntry s = .next t ∧ ∃ x f, t = (x.onTables f).onSupply emberSupply ∧ InEmber s x := by
  have due : ((s.supply.kindle == .joining || s.supply.kindle == .up) && s.supply.retention && hearthClass s != 0 &&
      !s.supply.hearthOv) = true := by simpa [latch, present, sound] using kindled
  refine ⟨_, congrArg Host.Outcome.next (whenDue_pos due), ?_⟩
  extract_lets s1 s2 s3 _ _ _ _ _ _ _ s4 s5 s6
  have left : Alters [.free, .tables, .queues, .hands, .streams, .chans, .mem, .engine, .seat, .events, .dbg, .counters] s s2 :=
    emberLeft_alters s
  have supply : s2.supply = s.supply := same_supply left (by decide)
  have clock : s2.clock = s.clock := same_clock left (by decide)
  have straps : s2.straps = s.straps := same_straps left (by decide)
  have vault : s2.vault = s.vault := same_vault left (by decide)
  have identity : s2.dieId = s.dieId := same_dieId left (by decide)
  have entered : InEmber s s4 := {
    tier := rfl
    chan := fun n => by
      have here : s4.chan n = Chan.enterEmber (trimOf s3.vault n) s3.clock.age s3.chans[n] := Vector.getElem_ofFn n.isLt
      rw [here]
      exact enterEmber_fields ..
    supply := supply
    frames := rfl
    links := ⟨rfl, rfl⟩
    awaiting := rfl
    clock := congrArg Clock.enterEmber clock
    straps := congrArg (fun x : Straps => { x with reread := none, rereadQueue := [] }) straps
    vault := congrArg (fun v => v.recs) vault
    identity := identity }
  have out : s5 = outIfSeated s4 := rfl
  clear_value s4
  refine ⟨s5, _, rfl, ?_⟩
  rw [out]
  exact inEmber_outIfSeated entered

/-! ## The other ends of VBUS -/

theorem execBrownoutNoHearth_due {s : State} (kindled : s.supply.kindle = .joining ∨ s.supply.kindle = .up)
    (unusable : hearthClass s = 0 ∨ s.supply.hearthOv = true) : execBrownoutNoHearth s =
      .next ((chipReset s (if shellRuns s then some 0x05 else none)).onSupply fun u => { u with vbus := false, kindle := .rails }) := by
  unfold execBrownoutNoHearth
  extract_lets k usable
  have dead : usable = false := by rcases unusable with h | h <;> simp [usable, h]
  refine congrArg Host.Outcome.next ((whenDue_pos ?_).trans ?_)
  · rcases kindled with h | h <;> simp [k, h, dead]
  · rcases kindled with h | h <;> simp only [k, h] <;> rfl

/-- The supply at the wake from the ember with the latch set (R85, R135). -/
def wokenSupply (now : Tick) (u : Supply) : Supply :=
  { noteCause u 0x08 with
    kindle := .joining, emberSet := false, pll := true, good := [.vcore, .vsram, .vio, .van, .vfp, .vfn], coreAt := now,
    trunkV := 0, lastTrunkV := 0, trunkAbsent := false, ledger := 0, l := 0, chargeOffUntil := now }

/-- The wake from the ember with the latch set: Joining, every channel under the shell's bank-now, the memory scrubbed (R85). -/
def woken (s : State) : State :=
  ((s.onSupply (wokenSupply s.clock.age)).mapChans fun _ c =>
    { c with bankMon := false, bankShell := true, refreshed := s.clock.age }).onMem fun m => { m with wakeScrub := true }

theorem execEmberWake_kept {s : State} (ember : s.supply.kindle = .ember) (latch : s.supply.retention = true) :
    execEmberWake s = .next (woken s) :=
  congrArg Host.Outcome.next ((whenDue_pos (beq_iff_eq.mpr ember)).trans (if_pos latch))

theorem execEmberWake_lost {s : State} (ember : s.supply.kindle = .ember) (latch : s.supply.retention = false) :
    execEmberWake s = .next (chipReset s none) :=
  congrArg Host.Outcome.next ((whenDue_pos (beq_iff_eq.mpr ember)).trans (if_neg (Bool.eq_false_iff.mp latch)))

theorem woken_alters (s : State) : Alters [.supply, .chans, .mem] s (woken s) :=
  frame_State_onMem (by decide) (frame_State_mapChans (by decide) (frame_State_onSupply (by decide) (frame_refl _ s)))

theorem woken_chan (s : State) (n : Fin 24) : ((woken s).chan n).bankMon = false ∧ ((woken s).chan n).bankShell = true := by
  rw [woken, State.onMem_chan, State.mapChans_chan]
  exact ⟨rfl, rfl⟩

theorem execEmberVsramLoss_due {s : State} (ember : s.supply.kindle = .ember) :
    execEmberVsramLoss s = .next (s.onSupply fun u => { noteCause u 0x02 with retention := false }) :=
  congrArg Host.Outcome.next (whenDue_pos (beq_iff_eq.mpr ember))

@[simp] theorem noteCause_kindle (u : Supply) (cause : Nat) : (noteCause u cause).kindle = u.kindle := by
  unfold noteCause
  split <;> rfl

/-- Settles O25. -/
theorem ridingThroughAndEmber : Obligations.RidingThroughAndEmber := by
  unfold Obligations.RidingThroughAndEmber
  refine ⟨fun vbus s trick kindled steady low => ?_, fun vbus s riding back => ?_, fun s kindled latch present sound => ?_,
    fun s kindled unusable => ?_, fun s ember => ⟨?_, fun latch => ?_, fun latch => ?_⟩⟩
  · refine ⟨_, execRidingEnter_due trick kindled steady low, ?_, ?_, ?_, raise_latched (by decide) (by decide)⟩
    · exact frame_raise (by decide) (frame_State_onSupply (by decide) (frame_refl _ s))
    · rw [raise_supply]; rfl
    · rw [raise_supply]; rfl
  · refine ⟨_, execRidingEnd_due riding back, ?_, ?_⟩
    · exact frame_clearLatching (by decide) (frame_State_onSupply (by decide) (frame_refl _ s))
    · rw [clearLatching_supply]; rfl
  · obtain ⟨_, runs, x, f, rfl, ember⟩ := execEmberEntry_due kindled latch present sound
    refine ⟨_, runs, rfl, ember.tier, ember.chan, rfl, rfl, rfl, rfl, rfl, ?_, ember.frames, ember.links.1, ember.links.2,
      ember.awaiting, congrArg (fun x => x.counter) ember.clock, congrArg (fun x => x.state) ember.clock, congrArg (fun x => x.corr) ember.clock,
      congrArg (fun x => x.codes) ember.straps, congrArg (fun x => x.digest) ember.straps, ember.vault, ember.identity⟩
    exact (congrArg (fun x => x.retention) ember.supply).trans latch
  · exact ⟨_, execBrownoutNoHearth_due kindled unusable, afterChipReset_onSupply_end (chipReset_after s _) rfl, rfl, rfl⟩
  · refine ⟨_, execEmberVsramLoss_due ember, frame_State_onSupply (List.Subset.refl _) (frame_refl _ s), rfl, ?_⟩
    exact (noteCause_kindle s.supply 2).trans ember
  · exact ⟨_, execEmberWake_kept ember latch, woken_alters s, rfl, rfl, rfl, woken_chan s⟩
  · exact ⟨_, execEmberWake_lost ember latch, chipReset_after s none⟩

end Sys2Proof.Proofs
end

section
/-! One clock and its realignment (04_one_clock_and_time.md, R95 to R108, R118 to R124). -/

namespace Sys2Proof.Proofs

open Sys2Proof Sys2Proof.Machine Sys2Proof.Safety Sys2Proof.Laws

/-! ## Discipline -/

section Discipline

variable {s : State}

theorem execAcquireStart_due {p : Port} (free : s.clock.state = .crystal ∨ s.clock.state = .holdover) (facing : s.clock.facing = some p)
    (lock : (s.port p).lock = true) (hops : s.clock.hops ≠ none) :
    execAcquireStart s = .next (s.onClock fun (c : Clock) => { c with state := .acquiring, goodTricks := 0, jumps := 0 }) := by
  unfold execAcquireStart
  extract_lets k pilots
  have held : pilots = true := by simp only [pilots, facing, lock]
  refine congrArg Host.Outcome.next (whenDue_pos ?_)
  simpa [k, held, Option.isSome_iff_ne_none, hops] using free

/-- The correction after one trick of the loop (R98). -/
def nextCorr (corr want : Int) : Int := clamp (-corrMax) corrMax (corr + clamp (-corrStep) corrStep (want - corr))

theorem nextCorr_bounds (corr want : Int) : -1000000000 ≤ nextCorr corr want ∧ nextCorr corr want ≤ 1000000000 := by
  unfold nextCorr clamp corrMax corrStep
  omega

theorem nextCorr_step {corr : Int} (want : Int) (above : -1000000000 ≤ corr) (below : corr ≤ 1000000000) :
    corr - 98304 ≤ nextCorr corr want ∧ nextCorr corr want ≤ corr + 98304 := by
  unfold nextCorr clamp corrMax corrStep
  omega

theorem nextCorr_reaches {corr want : Int} (above : -1000000000 ≤ want) (below : want ≤ 1000000000) (near : corr - 98304 ≤ want)
    (near' : want ≤ corr + 98304) : nextCorr corr want = want := by
  unfold nextCorr clamp corrMax corrStep
  omega

/-- The clock after one trick of the loop. -/
def disciplinedOnce (want freqErr phaseErr : Int) (c : Clock) : Clock :=
  let acq := c.state == .acquiring
  let good := acq && -50 ≤ freqErr && freqErr ≤ 50 && -16 ≤ phaseErr && phaseErr ≤ 16
  { c with corr := nextCorr c.corr want, synth := synthOf (nextCorr c.corr want), history := (nextCorr c.corr want :: c.history).take 256,
           goodTricks := if good then c.goodTricks + 1 else 0,
           rangeGood := if -960000000 ≤ want && want ≤ 960000000 then c.rangeGood + 1 else 0 }

theorem disciplinedOnce_goodTricks (want freqErr phaseErr : Int) (c : Clock) : (disciplinedOnce want freqErr phaseErr c).goodTricks =
    if c.state = .acquiring ∧ -50 ≤ freqErr ∧ freqErr ≤ 50 ∧ -16 ≤ phaseErr ∧ phaseErr ≤ 16 then c.goodTricks + 1 else 0 := by
  simp [disciplinedOnce, and_assoc]

/-- What DISCIPLINE_LOOP_UPDATE raises or clears of discipline range (Table 4.8). -/
def judgeRange (beyond back : Prop) [Decidable beyond] [Decidable back] (d : List Byte) (s : State) : State :=
  if beyond then raise s 0x0403 0x31 d else if back then clearLatching s 0x0403 0x31 0 d else s

theorem judgeRange_alters (beyond back : Prop) [Decidable beyond] [Decidable back] (d : List Byte) (s : State) :
    Alters [.events] s (judgeRange beyond back d s) := by
  unfold judgeRange
  split
  · exact raise_alters
  · split
    · exact clearLatching_alters
    · exact frame_refl _ s

theorem execDisciplineLoopUpdate_due {want freqErr phaseErr : Int} (trick : atTrick s = true)
    (locked : s.clock.state = .acquiring ∨ s.clock.state = .disciplined) :
    ∃ t, execDisciplineLoopUpdate want freqErr phaseErr s = .next t ∧ Alters [.clock, .events] s t ∧
      t.clock = disciplinedOnce want freqErr phaseErr s.clock ∧
      (s.clock.state = .acquiring → want < -1000000000 ∨ 1000000000 < want → latched t 0x0403 0x31 0 = true) := by
  have due : (atTrick s && (s.clock.state == .acquiring || s.clock.state == .disciplined)) = true := by simpa [trick] using locked
  have runs : execDisciplineLoopUpdate want freqErr phaseErr s = .next _ := congrArg Host.Outcome.next (whenDue_pos due)
  refine ⟨_, runs, alters_of_answers (frame_execDisciplineLoopUpdate (List.Subset.refl _) (frame_refl _ s)) runs, ?_⟩
  extract_lets c corr good beyond back rg s1 d
  have judged : Alters [.events] s1 (judgeRange (beyond = true) (64 ≤ rg) d s1) := judgeRange_alters ..
  refine ⟨same_clock judged (by decide), fun acquiring far => ?_⟩
  have outside : beyond = true := by simpa [beyond, acquiring, corrMax] using far
  rw [if_pos outside]
  exact raise_latched (by decide) (by decide)

theorem execDisciplined_due (acquiring : s.clock.state = .acquiring) (held : 64 ≤ s.clock.goodTricks) : execDisciplined s =
    .next (raise (s.onClock fun (c : Clock) => { c with state := .disciplined, jumps := 0 }) 0x0401 0x31
      (beBytes 1 (facingByte s) ++ beBytes 1 (hopsByte s))) :=
  congrArg Host.Outcome.next (whenDue_pos (by simp [acquiring, held]))

theorem execHoldoverEnter_due {p : Port} (facing : s.clock.facing = some p)
    (locked : s.clock.state = .disciplined ∨ s.clock.state = .acquiring) : execHoldoverEnter p s = .next (enterHoldover s) :=
  congrArg Host.Outcome.next (whenDue_pos (by simpa [facing] using locked))

theorem enterHoldover_clock (s : State) : (enterHoldover s).clock.state = .holdover ∧
    (enterHoldover s).clock.corr = holdoverCorr s.clock ∧ (enterHoldover s).clock.counter = s.clock.counter ∧
    (enterHoldover s).clock.epoch = s.clock.epoch := by
  simp [enterHoldover]

theorem execPllLockLost_due (runs : shellRuns s = true) :
    execPllLockLost s = .next (chipReset (s.onSupply fun u => { u with pll := false }) (some 0x04)) := by
  have still : shellRuns (s.onSupply fun u => { u with pll := false }) = true := runs
  exact congrArg Host.Outcome.next (if_pos still)

end Discipline

/-- Settles O26. -/
theorem clockFollowsTheDealer : Obligations.ClockFollowsTheDealer := by
  unfold Obligations.ClockFollowsTheDealer
  refine ⟨fun s p => execAcquireStart_due, fun want freqErr phaseErr s trick locked above below => ?_, fun s acquiring held => ?_,
    fun p s facing locked => ?_, fun s runs => ?_⟩
  · obtain ⟨t, runs, alters, clock, range⟩ :=
      execDisciplineLoopUpdate_due (want := want) (freqErr := freqErr) (phaseErr := phaseErr) trick locked
    have corr : t.clock.corr = nextCorr s.clock.corr want := by rw [clock]; rfl
    obtain ⟨least, most⟩ := nextCorr_bounds s.clock.corr want
    obtain ⟨down, up⟩ := nextCorr_step want above below
    refine ⟨t, runs, alters, corr ▸ least, corr ▸ most, corr ▸ down, corr ▸ up,
      fun a b near near' => corr.trans (nextCorr_reaches a b near near'), range, by rw [clock]; rfl, by rw [clock]; rfl, ?_⟩
    rw [clock]
    exact disciplinedOnce_goodTricks ..
  · refine ⟨_, execDisciplined_due acquiring held, ?_, ?_, ?_, ?_, ?_⟩
    · exact frame_raise (by decide) (frame_State_onClock (by decide) (frame_refl _ s))
    · rw [raise_clock]; rfl
    · rw [raise_clock]; rfl
    · rw [raise_clock]; rfl
    · exact logs_at (raise_logs_plain (by decide) (by decide) (by decide) (by decide)) rfl
  · have runs := execHoldoverEnter_due facing locked
    exact ⟨_, runs, alters_of_answers (frame_execHoldoverEnter (List.Subset.refl _) (frame_refl _ s)) runs, enterHoldover_clock s⟩
  · exact ⟨_, execPllLockLost_due runs, chipReset_onSupply_after s _ _ rfl, rfl, by simp⟩

end Sys2Proof.Proofs
end

section
/-! Beacons and realignment (04_one_clock_and_time.md, R101 to R108, R118, R119). -/

namespace Sys2Proof.Proofs

open Sys2Proof Sys2Proof.Machine Sys2Proof.Safety Sys2Proof.Laws

/-! ## Beacons -/

section Beacons

variable {s : State}

theorem onPort_congr {p : Port} {f g : PortState → PortState} (h : f (s.port p) = g (s.port p)) : s.onPort p f = s.onPort p g := by
  cases p
  · exact congrArg (fun q => { s with portA := q }) h
  · exact congrArg (fun q => { s with portB := q }) h

theorem onPort_of_fixed {p : Port} {f : PortState → PortState} (h : f (s.port p) = s.port p) : s.onPort p f = s := by
  have unchanged : s.onPort p f = s.onPort p id := onPort_congr h
  rw [unchanged]
  cases p <;> rfl

/-- The port's part in BEACON_SEND: a beacon waits on an Up port that sends beacons. -/
def beaconPort (s : State) (p : Port) (b : List Byte) (q : PortState) : PortState :=
  if sendsBeacon s p = true ∧ q.link = .up then { q with beaconOut := b } else q

theorem beaconStep_eq (s x : State) (b : List Byte) (p : Port) (clock : x.clock = s.clock) :
    (if sendsBeacon x p && (x.port p).link == .up then x.onPort p fun q => { q with beaconOut := b } else x) =
      x.onPort p (beaconPort s p b) := by
  have same : sendsBeacon x p = sendsBeacon s p := by unfold sendsBeacon; rw [clock]
  rw [same]
  by_cases sends : sendsBeacon s p = true ∧ (x.port p).link = .up
  · rw [if_pos (by simpa using sends)]
    refine onPort_congr ?_
    rw [beaconPort, if_pos sends]
  · rw [if_neg (by simpa using sends)]
    exact (onPort_of_fixed (f := beaconPort s p b) (if_neg sends)).symm

theorem execBeaconSend_due (service : inService s = true) (trick : atTrick s = true) (turn : trickNo s % 16 = 0) :
    ∃ t, execBeaconSend s = .next t ∧ ∀ p, t.port p = beaconPort s p (llMessage 1 (beaconBody s)) (s.port p) := by
  refine ⟨_, congrArg Host.Outcome.next (whenDue_pos (by simp [service, trick, turn])), ?_⟩
  dsimp only [each_cons, each_nil]
  rw [beaconStep_eq s s _ .ta rfl, beaconStep_eq s (s.onPort .ta _) _ .tb rfl]
  intro p
  cases p <;> rfl

/-- What a beacon's offset and epoch make of the realignment that waits and of the run of far offsets (R103, R118, Table 4.8). -/
def beaconVerdict (c : Clock) (off : Int) (epoch : BitVec 8) : Option Realign × Nat :=
  if -65536 ≤ off ∧ off ≤ 65536 then
    (if epoch = c.epoch then c.realign else some { delta := roundDiv off 64, epoch := epoch, jump := false }, 0)
  else if epoch = c.epoch ∧ c.state = .disciplined ∧ c.jumps < 2 then (c.realign, c.jumps + 1)
  else (some { delta := roundDiv off 64, epoch := epoch, jump := true }, 0)

theorem beaconVerdict_cases (c : Clock) (off : Int) (e : BitVec 8) :
    (-65536 ≤ off → off ≤ 65536 → e = c.epoch → (beaconVerdict c off e).1 = c.realign) ∧
    (-65536 ≤ off → off ≤ 65536 → e ≠ c.epoch →
      (beaconVerdict c off e).1 = some { delta := roundDiv off 64, epoch := e, jump := false }) ∧
    ((off < -65536 ∨ 65536 < off) → (e ≠ c.epoch ∨ c.state ≠ .disciplined ∨ 2 ≤ c.jumps) →
      (beaconVerdict c off e).1 = some { delta := roundDiv off 64, epoch := e, jump := true }) ∧
    ((off < -65536 ∨ 65536 < off) → e = c.epoch → c.state = .disciplined → c.jumps < 2 →
      (beaconVerdict c off e).1 = c.realign ∧ (beaconVerdict c off e).2 = c.jumps + 1) := by
  unfold beaconVerdict
  refine ⟨fun above below old => ?_, fun above below new => ?_, fun far calls => ?_, fun far old disciplined few => ?_⟩
  · rw [if_pos ⟨above, below⟩, if_pos old]
  · rw [if_pos ⟨above, below⟩, if_neg new]
  · rw [if_neg (by omega), if_neg]
    rintro ⟨old, disciplined, few⟩
    rcases calls with new | locked | third
    · exact new old
    · exact locked disciplined
    · omega
  · rw [if_neg (by omega), if_pos ⟨old, disciplined, few⟩]
    exact ⟨rfl, rfl⟩

/-- The clock with its realignment and its run of far offsets set. -/
def judgedClock (c : Clock) (v : Option Realign × Nat) : Clock := { c with realign := v.1, jumps := v.2 }

theorem beaconAct_clock (s : State) (off : Int) (epoch : BitVec 8) :
    (beaconAct s off epoch).clock = judgedClock s.clock (beaconVerdict s.clock off epoch) := by
  unfold beaconAct beaconVerdict
  extract_lets far delta new jump s1 n s2
  have span : (!far) = true ↔ -65536 ≤ off ∧ off ≤ 65536 := by
    simp only [far, Bool.not_or, Bool.and_eq_true, Bool.not_eq_true', decide_eq_false_iff_not]
    omega
  by_cases near : -65536 ≤ off ∧ off ≤ 65536
  · rw [if_pos (span.mpr near), if_pos near]
    by_cases old : epoch = s.clock.epoch
    · simp [new, old, s1, judgedClock]
    · simp [new, old, s1, delta, judgedClock]
  · rw [if_neg (fun h => near (span.mp h)), if_neg near]
    by_cases old : epoch = s.clock.epoch ∧ s.clock.state = .disciplined
    · obtain ⟨same, disciplined⟩ := old
      by_cases third : 2 ≤ s.clock.jumps
      · simp [new, same, disciplined, n, third, jump, s2, judgedClock, delta, Nat.not_lt.mpr third]
      · simp [new, same, disciplined, n, third, jump, s2, judgedClock, Nat.not_le.mp third]
    · have other : ¬ (!new && s.clock.state == .disciplined) = true := by simpa [new] using old
      have other' : ¬ (epoch = s.clock.epoch ∧ s.clock.state = .disciplined ∧ s.clock.jumps < 2) := fun ⟨a, b, _⟩ => old ⟨a, b⟩
      rw [if_neg other, if_neg other']
      rfl

theorem execBeaconReceive_refused {p : Port} {b : List Byte} {a64 : Nat} (long : b.length = 11)
    (h : 5 ≤ byteAt b 9 / 16 % 8 ∨ s.clock.facing ≠ some p ∨ 64 ≤ byteAt b 10 % 128) :
    ∃ t, execBeaconReceive p b a64 s = .next t ∧ Alters [.events] s t := by
  unfold execBeaconReceive
  extract_lets net epoch q hops judged
  rw [if_neg (by simp [long])]
  split
  · exact ⟨_, rfl, raise_alters⟩
  · split
    · refine ⟨_, rfl, ?_⟩
      split
      · dsimp only
        split
        · exact raise_alters
        · exact frame_refl _ s
      · exact frame_refl _ s
    · next facing =>
      have far : 64 ≤ hops := by
        rcases h with h | h | h
        · contradiction
        · exact absurd facing (by simpa using h)
        · exact h
      rw [if_pos far]
      exact ⟨_, rfl, raise_alters⟩

theorem execBeaconReceive_accepted {p : Port} {b : List Byte} {a64 : Nat} {d : BitVec 24} (long : b.length = 11)
    (quality : byteAt b 9 / 16 % 8 < 5) (facing : s.clock.facing = some p) (hops : byteAt b 10 % 128 < 64)
    (delay : (s.port p).linkD = some d) : execBeaconReceive p b a64 s =
      .next (beaconAct (s.onClock fun (c : Clock) => { c with hops := some (byteAt b 10 % 128 + 1) })
        (beaconOffset (fieldAt b 0 8) d.toNat a64) (BitVec.ofNat 8 (byteAt b 8))) := by
  unfold execBeaconReceive
  extract_lets net epoch q n
  rw [if_neg (by simp [long]), if_neg (Nat.not_le.mpr quality), if_neg (by simp [facing]), if_neg (Nat.not_le.mpr hops), delay]

end Beacons

/-! ## Realignment -/

section Realignment

variable {s : State}

theorem jumpAbort_alters (p : Port) (s : State) : Alters [.portA, .portB, .engine, .events] s (jumpAbort p s) :=
  frame_jumpAbort (List.Subset.refl _) (frame_refl _ s)

theorem endSlew_clock (s : State) : (endSlew s).clock = { s.clock with slew := none } := by
  unfold endSlew
  split
  · next none =>
    rw [← none]
  · exact raise_clock

/-- How far network time lies ahead of the counter once the line phase has jumped (R107). -/
def jumpSpan (r : Realign) (c : Clock) : Int := ((c.line + BitVec.ofInt 64 r.delta).toNat : Int) - c.counter.toNat

/-- The clock once the line phase has jumped, the slew apart (R105 to R107). -/
def phaseJumped (r : Realign) (c : Clock) : Clock :=
  { c with
    line := c.line + BitVec.ofInt 64 r.delta, realign := none, epoch := r.epoch, goodTricks := 0, jumps := 0,
    state := (if c.state == .dealer then ClockState.dealer else ClockState.acquiring),
    quietUntil := some (c.line + BitVec.ofInt 64 r.delta + BitVec.ofNat 64 trickTicks),
    counter := (if 0 < jumpSpan r c then c.line + BitVec.ofInt 64 r.delta else c.counter) }

/-- A counter ahead of network time begins to slew (R108). -/
def withSlew (c : Clock) (slew : Option (Nat × Nat)) : Clock := { c with slew := slew }

theorem execRealignJump_due {r : Realign} (waits : s.clock.realign = some r) (trick : atTrick s = true) (jumps : r.jump = true) :
    ∃ t, execRealignJump s = .next t ∧ t.clock = withSlew (phaseJumped r s.clock)
      (if jumpSpan r s.clock < 0 then some ((jumpSpan r s.clock).natAbs, 0) else none) := by
  unfold execRealignJump
  rw [waits]
  refine ⟨_, congrArg Host.Outcome.next (whenDue_pos (by simp [trick, jumps])), ?_⟩
  extract_lets s1 d old line S evDetail _ _ _ s2 s3 s4 s5
  have left : s1.clock = s.clock :=
    (same_clock (jumpAbort_alters .tb _) (by decide)).trans (same_clock (jumpAbort_alters .ta s) (by decide))
  have moved : s3.clock = phaseJumped r s1.clock := rfl
  have flushed : s4.clock = s3.clock := by
    unfold s4
    split <;> rfl
  have clock : s5.clock = withSlew (phaseJumped r s.clock) none := by
    rw [endSlew_clock, flushed, moved, left]
    rfl
  have span : S = jumpSpan r s.clock := by rw [← left]; rfl
  rw [span]
  clear_value s5
  by_cases ahead : 0 < jumpSpan r s.clock
  · rw [if_pos ahead, raise_clock, if_neg (by omega), clock]
  · rw [if_neg ahead]
    by_cases behind : jumpSpan r s.clock < 0
    · rw [if_pos behind, if_pos behind, raise_clock]
      change withSlew s5.clock _ = _
      rw [clock]
      rfl
    · rw [if_neg behind, if_neg behind, clock]

theorem execSlewEnd_due {n k : Nat} (slews : s.clock.slew = some (n, k)) (elapsed : 100 * n ≤ k) : execSlewEnd s = .next
    (raise (s.onClock fun (c : Clock) => { c with slew := none }) 0x040A 0x31 (beBytes 8 (min n (k / 100)))) := by
  have due : decide (n * 100 ≤ k) = true := decide_eq_true (by omega)
  unfold execSlewEnd
  rw [slews]
  refine congrArg Host.Outcome.next ((whenDue_pos due).trans ?_)
  rw [endSlew, slews]

theorem execSlewEnd_early {n k : Nat} (slews : s.clock.slew = some (n, k)) (early : k < 100 * n) : execSlewEnd s = .next s := by
  unfold execSlewEnd
  rw [slews]
  exact congrArg Host.Outcome.next (whenDue_neg (decide_eq_false (by omega)))

theorem execEpochChangeNoJump_due {r : Realign} (waits : s.clock.realign = some r) (trick : atTrick s = true) (stays : r.jump = false) :
    execEpochChangeNoJump s = .next (topologyFlushDue <| s.onClock fun (c : Clock) =>
      { c with epoch := r.epoch, realign := none, goodTricks := 0,
               state := if c.state == .dealer then ClockState.dealer else ClockState.acquiring }) := by
  unfold execEpochChangeNoJump
  rw [waits]
  exact congrArg Host.Outcome.next (whenDue_pos (by simp [trick, stays]))

end Realignment

/-- Settles O27. -/
theorem beaconsAndRealignment : Obligations.BeaconsAndRealignment := by
  unfold Obligations.BeaconsAndRealignment
  refine ⟨fun s service trick turn => ?_, fun p b a64 s long => ⟨execBeaconReceive_refused long, fun d quality facing hops delay => ?_⟩,
    fun s r waits trick jumps => ?_, fun s n k slews => ⟨fun done => ?_, execSlewEnd_early slews⟩,
    fun s r waits trick stays => ?_⟩
  · obtain ⟨t, runs, ports⟩ := execBeaconSend_due service trick turn
    exact ⟨t, runs, alters_of_answers (frame_execBeaconSend (List.Subset.refl _) (frame_refl _ s)) runs, ports⟩
  · refine ⟨_, execBeaconReceive_accepted long quality facing hops delay, ?_, ?_⟩
    · exact frame_beaconAct (List.Subset.refl _) (frame_State_onClock (by decide) (frame_refl _ s))
    · rw [beaconAct_clock]
      refine ⟨rfl, rfl, rfl, rfl, ?_⟩
      rintro off e rfl rfl
      exact beaconVerdict_cases ..
  · obtain ⟨t, runs, clock⟩ := execRealignJump_due waits trick jumps
    refine ⟨t, runs, ?_⟩
    rw [clock]
    refine ⟨rfl, rfl, rfl, rfl, rfl, fun forward => ?_, fun behind => ?_⟩
    · have ahead : 0 < jumpSpan r s.clock := by
        change s.clock.counter.toNat < (s.clock.line + BitVec.ofInt 64 r.delta).toNat at forward
        unfold jumpSpan
        omega
      exact ⟨if_pos ahead, if_neg (by omega)⟩
    · have late : jumpSpan r s.clock < 0 ∧
          (jumpSpan r s.clock).natAbs = s.clock.counter.toNat - (s.clock.line + BitVec.ofInt 64 r.delta).toNat := by
        change (s.clock.line + BitVec.ofInt 64 r.delta).toNat < s.clock.counter.toNat at behind
        unfold jumpSpan
        omega
      refine ⟨if_neg (by omega), (if_pos late.1).trans ?_⟩
      rw [late.2]
      rfl
  · refine ⟨_, execSlewEnd_due slews done, ?_, ?_, ?_, ?_⟩
    · exact frame_raise (by decide) (frame_State_onClock (by decide) (frame_refl _ s))
    · rw [raise_clock]; rfl
    · rw [raise_clock]; rfl
    · exact logs_at (raise_logs_plain (by decide) (by decide) (by decide) (by decide)) rfl
  · refine ⟨_, execEpochChangeNoJump_due waits trick stays, rfl, rfl, rfl, rfl, fun follower => ?_, rfl⟩
    exact if_neg (by simpa using follower)

end Sys2Proof.Proofs
end

section
/-! The shared operations of a link (06_trunk_line.md): what each leaves of the port, of the other port, of the clock and of the raised
codes. -/

namespace Sys2Proof.Proofs

open Sys2Proof Sys2Proof.Machine Sys2Proof.Safety Sys2Proof.Laws

section LinkOps

variable {s : State} {p q : Port}

@[simp] theorem other_other (p : Port) : p.other.other = p := by cases p <;> rfl

/-! ## Messages -/

@[simp] theorem sendLl_port (kind : Nat) (body : List Byte) (at_ : Tick) :
    (sendLl s p kind body at_).port p = { s.port p with llOut := (s.port p).llOut ++ [(at_, llMessage kind body)] } :=
  State.onPort_port ..

@[simp] theorem sendLl_port_other (kind : Nat) (body : List Byte) (at_ : Tick) :
    (sendLl s p kind body at_).port p.other = s.port p.other := State.onPort_port_other ..

@[simp] theorem sendLl_clock (kind : Nat) (body : List Byte) (at_ : Tick) : (sendLl s p kind body at_).clock = s.clock :=
  State.onPort_clock ..

@[simp] theorem sendLc_port (body : List Byte) :
    (sendLc s p body).port p = { s.port p with llOut := (s.port p).llOut ++ [(s.clock.line, llMessage 2 body)] } := sendLl_port ..

@[simp] theorem sendLc_port_other (body : List Byte) : (sendLc s p body).port p.other = s.port p.other := sendLl_port_other ..

@[simp] theorem sendLc_clock (body : List Byte) : (sendLc s p body).clock = s.clock := sendLl_clock ..

@[simp] theorem sendLc_dieId (body : List Byte) : (sendLc s p body).dieId = s.dieId := State.onPort_dieId ..

@[simp] theorem sendAbort_port (reason : Nat) : (sendAbort s p reason).port p =
    { s.port p with llOut := (s.port p).llOut ++ [(s.clock.line, llMessage 2 [0x06, BitVec.ofNat 8 reason])] } := sendLc_port ..

@[simp] theorem sendAbort_port_other (reason : Nat) : (sendAbort s p reason).port p.other = s.port p.other := sendLc_port_other ..

/-! ## Free values -/

theorem drawBelow_alters (s : State) (n : Nat) : Alters [.free] s (drawBelow s n).2 := frame_drawBelow (List.Subset.refl _) (frame_refl _ s)

@[simp] theorem drawBelow_port (n : Nat) : (drawBelow s n).2.port q = s.port q :=
  same_port (drawBelow_alters s n) (by decide) (by decide) q

@[simp] theorem drawBelow_clock (n : Nat) : (drawBelow s n).2.clock = s.clock := same_clock (drawBelow_alters s n) (by decide)

theorem drawBelow_lt {n : Nat} (some_ : 0 < n) : (drawBelow s n).1 < n := by
  unfold drawBelow
  dsimp only
  rw [if_neg (by simpa using Nat.ne_of_gt some_)]
  exact Nat.mod_lt _ some_

/-! ## Operations that end with the sounding -/

theorem endSoundOps_alters (s : State) (p : Port) (st : OpState) (reason : Nat) : Alters [.engine, .events] s (endSoundOps s p st reason) :=
  frame_endSoundOps (List.Subset.refl _) (frame_refl _ s)

@[simp] theorem endSoundOps_port (st : OpState) (reason : Nat) : (endSoundOps s p st reason).port q = s.port q :=
  same_port (endSoundOps_alters s p st reason) (by decide) (by decide) q

@[simp] theorem endSoundOps_clock (st : OpState) (reason : Nat) : (endSoundOps s p st reason).clock = s.clock :=
  same_clock (endSoundOps_alters s p st reason) (by decide)

theorem opEnter_latched {handle reason code src obj : Nat} {st : OpState} (h : latched s code src obj = true) :
    latched (opEnter s handle st reason) code src obj = true := by
  unfold opEnter
  extract_lets s1
  split
  · exact raise_latched_other h
  · exact h

theorem trimOps_events (s : State) : (trimOps s).events = s.events := by
  unfold trimOps
  dsimp only
  split
  · split <;> rfl
  · rfl

theorem opEnd_latched {handle reason code src obj : Nat} {st : OpState} (h : latched s code src obj = true) :
    latched (opEnd s handle st reason) code src obj = true := by
  unfold opEnd latched
  rw [trimOps_events]
  exact opEnter_latched h

theorem endSoundOps_latched {reason code src obj : Nat} {st : OpState} (h : latched s code src obj = true) :
    latched (endSoundOps s p st reason) code src obj = true := by
  refine each_keeps (P := fun x => latched x code src obj = true) (fun handle x raised => opEnd_latched ?_) h
  split <;> exact raised

/-! ## Ends of a sounding -/

/-- A port that goes Untrained with its tables unchanged (Table 6.4). -/
def untrainedPort (retry : Tick) (q : PortState) : PortState :=
  { q with link := .untrained, pendTx := none, pendRx := none, steps := [], reqOut := false, txSwitched := false, rxSwitched := false,
           retryAt := retry, reqReason := 0 }

@[simp] theorem toUntrained_port (retry : Tick) : (toUntrained s p retry).port p = untrainedPort retry (s.port p) := State.onPort_port ..

@[simp] theorem toUntrained_port_other (retry : Tick) : (toUntrained s p retry).port p.other = s.port p.other :=
  State.onPort_port_other ..

@[simp] theorem leaveUp_port : (leaveUp s p).port q = s.port q := by
  unfold leaveUp
  split
  · cases q <;> rfl
  · rfl

theorem soundingMissed_port (s : State) (p : Port) (reason : Nat) : ∃ retry, (soundingMissed s p reason).port p =
    { untrainedPort retry (s.port p) with failures := (s.port p).failures + 1, lastAbort := BitVec.ofNat 8 reason } := by
  unfold soundingMissed
  extract_lets n r s1 s2 s3
  refine ⟨lineIn s (if n < 8 then (r.1 + 1) * trickTicks else secondTicks), ?_⟩
  have ended : s3.port p = { untrainedPort (lineIn s (if n < 8 then (r.1 + 1) * trickTicks else secondTicks)) (s.port p) with
      failures := (s.port p).failures + 1, lastAbort := BitVec.ofNat 8 reason } := by
    simp only [s3, s2, s1, r, n, endSoundOps_port, State.onPort_port, toUntrained_port, drawBelow_port]
  split
  · rw [raise_port, ended]
  · exact ended

@[simp] theorem soundingMissed_port_other (reason : Nat) : (soundingMissed s p reason).port p.other = s.port p.other := by
  unfold soundingMissed
  extract_lets n r s1 s2 s3
  have ended : s3.port p.other = s.port p.other := by
    simp only [s3, s2, s1, r, endSoundOps_port, State.onPort_port_other, toUntrained_port_other, drawBelow_port]
  split
  · rw [raise_port, ended]
  · exact ended

end LinkOps

end Sys2Proof.Proofs
end

section
/-! Link states and the beginning and end of a sounding (06_trunk_line.md, R169 to R175, R180, R187 to R192, R213). -/

namespace Sys2Proof.Proofs

open Sys2Proof Sys2Proof.Machine Sys2Proof.Safety Sys2Proof.Laws

/-- R171: 2 bits on each of the 232 header carriers. -/
theorem tableB_defaultTable : tableB defaultTable = 464 := by
  rw [tableB, defaultTable, List.sum_append, List.sum_replicate, List.sum_replicate]
  rfl

section LinkStates

variable {s : State} {p : Port}

/-! ## Off, Listen and Untrained -/

theorem execLinkStart_due (off : (s.port p).link = .off) (service : inService s = true) (loud : (s.port p).quietUntil = none) :
    execLinkStart p s = .next (s.onPort p fun q => { defaultSlots q with link := .listen, echoStart := 32, lock := false }) :=
  congrArg Host.Outcome.next (whenDue_pos (by simp [off, service, loud]))

/-- A port that has locked to pilots (R169, R170). -/
def lockedPort (retry : Tick) (q : PortState) : PortState :=
  { defaultSlots q with link := .untrained, lock := true, reqReason := 0, reqOut := false, steps := [], retryAt := retry }

theorem execPilotLock_due (listens : (s.port p).link = .listen) : execPilotLock p s =
    .next (clearLatching ((drawBelow s 64).2.onPort p (lockedPort (lineIn s ((drawBelow s 64).1 * symbolTicks)))) 0x0502 (portSrc p) 0 []) :=
  congrArg Host.Outcome.next (whenDue_pos (by simp [listens]))

theorem breakApply_link (s : State) (q : Port) : ((breakApply s).port q).link = (s.port q).link := by cases q <;> rfl

theorem sendCut_link (s : State) (p q : Port) (body : List Byte) : ((sendCut s p body).port q).link = (s.port q).link := by
  unfold sendCut
  split
  · cases p <;> cases q <;> rfl
  · rfl

theorem breakSend_link (s : State) (p q : Port) : ((breakSend s p).port q).link = (s.port q).link := by
  unfold breakSend
  split
  · exact (breakApply_link _ q).trans (sendCut_link ..)
  · rfl

/-- A port that has lost the pilots (R169). -/
def deafPort (q : PortState) : PortState := { defaultSlots q with link := .listen, lock := false, lq := 0, steps := [], reqOut := false }

theorem execPilotsLost_due (linked : (s.port p).link = .untrained ∨ (s.port p).link = .up ∨ isSounding (s.port p) = true) :
    execPilotsLost p s = .next (raise ((endSoundOps (leaveUp (breakSend s p) p) p .failed 0x26).onPort p deafPort) 0x0502 (portSrc p) []) :=
  congrArg Host.Outcome.next (whenDue_pos (by rcases linked with h | h | h <;> simp [h]))

/-! ## Requests -/

theorem execTrainReqSend_due (untrained : (s.port p).link = .untrained) (alone : (s.port p).idClash = false)
    (elapsed : (s.port p).retryAt.toNat ≤ s.clock.line.toNat) : ∃ retry, execTrainReqSend p s =
      .next ((drawBelow (sendLc s p (trainBody s p 1)) 8).2.onPort p fun q =>
        { q with reqOut := true, retryAt := retry, pendTx := none, pendRx := none }) :=
  ⟨_, congrArg Host.Outcome.next (whenDue_pos (by simp [untrained, alone, elapsed]))⟩

/-- A port in a sounding that has just begun (R175, R188). -/
def soundingPort (initiator : Bool) (slot0 : Nat) (q : PortState) : PortState :=
  { q with link := .sounding initiator, slot0 := BitVec.ofNat 64 slot0, steps := [], reqOut := false,
           pendTx := none, pendRx := none, txSwitched := false, rxSwitched := false }

@[simp] theorem startSounding_port (initiator : Bool) (slot0 : Nat) :
    (startSounding s p initiator slot0).port p = soundingPort initiator slot0 (s.port p) := by
  rw [startSounding, State.onPort_port, leaveUp_port]
  rfl

@[simp] theorem startSounding_port_other (initiator : Bool) (slot0 : Nat) :
    (startSounding s p initiator slot0).port p.other = s.port p.other := by
  rw [startSounding, State.onPort_port_other, leaveUp_port]

theorem identityClash_port (s : State) (p : Port) :
    ((identityClash s p).port p).idClash = true ∧ ((identityClash s p).port p).link = .untrained := by
  unfold identityClash
  simp only [raise_port, endSoundOps_port, State.onPort_port, toUntrained_port, untrainedPort, and_self]

variable {b : List Byte}

/-- TRAIN_REQ of a good body at a link that may sound, by the two identities (R187). -/
theorem execTrainReq_good (good : trainOk 1 b = true) (linked : (s.port p).link = .untrained ∨ (s.port p).link = .up)
    (alone : (s.port p).idClash = false) : execTrainReq p b s =
      .next (if fieldAt b 1 8 = s.dieId.toNat then identityClash s p
        else if (s.port p).reqOut = true ∧ fieldAt b 1 8 < s.dieId.toNat then s
        else startSounding (sendLc s p (trainBody s p 2)) p false (nextSymbol (sendLc s p (trainBody s p 2)))) := by
  have due : (((s.port p).link == .untrained || (s.port p).link == .up) && !(s.port p).idClash) = true := by
    simpa [alone] using linked
  unfold execTrainReq
  rw [if_neg (by simp [good])]
  refine congrArg Host.Outcome.next ((whenDue_pos due).trans ?_)
  simp only [beq_iff_eq, Bool.and_eq_true, decide_eq_true_eq]

theorem execTrainReq_bad (bad : trainOk 1 b = false) : execTrainReq p b s = .next (badLc s p) := if_pos (by simp [bad])

theorem execTrainAck_good (good : trainOk 2 b = true) (untrained : (s.port p).link = .untrained) (asked : (s.port p).reqOut = true)
    (alone : (s.port p).idClash = false) (other : fieldAt b 1 8 ≠ s.dieId.toNat) :
    execTrainAck p b s = .next (startSounding s p true (arrivalSymbol s)) := by
  unfold execTrainAck
  rw [if_neg (by simp [good])]
  exact congrArg Host.Outcome.next ((whenDue_pos (by simp [untrained, asked, alone])).trans (if_neg (by simpa using other)))

theorem leaveUp_of_untrained (h : (s.port p).link = .untrained) : leaveUp s p = s := if_neg (by simp [h])

/-! ## Ends -/

theorem execSoundingStepMissed_due {i : Bool} (sounds : (s.port p).link = .sounding i)
    (late : ∃ e ∈ expectedSteps i, e.1 ∉ (s.port p).steps ∧ e.2 + 8 < soundingSlotNo s (s.port p)) :
    execSoundingStepMissed p s = .next (soundingMissed (sendAbort s p 1) p 1) := by
  unfold execSoundingStepMissed
  extract_lets q missed
  have due : missed = true := by
    simp only [missed, q, sounds, List.any_eq_true, Bool.and_eq_true, Bool.not_eq_true', decide_eq_true_eq]
    obtain ⟨e, mem, absent, passed⟩ := late
    exact ⟨e, mem, by simpa using absent, passed⟩
  exact congrArg Host.Outcome.next (whenDue_pos due)

theorem execAbort_sounding {r : Byte} (sounds : isSounding (s.port p) = true) (reason : r = 1 ∨ r = 2 ∨ r = 4 ∨ r = 5) :
    execAbort p [6, r] s = .next (soundingMissed (s.onPort p fun q => { q with lastAbort := r }) p r.toNat) := by
  have fits : byteAt [6, r] 1 = r.toNat := rfl
  unfold execAbort
  extract_lets r' q s1
  have code : r' = r.toNat := rfl
  have accepted : ¬ ([6, r].length != 2 || byteAt [6, r] 0 != 6 || r' == 0 || decide (5 < r')) = true := by
    rw [code]
    rcases reason with rfl | rfl | rfl | rfl <;> decide
  have notClash : ¬ (r' == 3) = true := by
    rw [code]
    rcases reason with rfl | rfl | rfl | rfl <;> decide
  have noted : s1 = s.onPort p fun q => { q with lastAbort := r } := by
    unfold s1
    rw [code, BitVec.ofNat_toNat, BitVec.setWidth_eq]
  rw [if_neg accepted, if_neg notClash, if_pos sounds, noted, code]

end LinkStates

/-- Settles O30. -/
theorem linkStatesOfAPort : Obligations.LinkStatesOfAPort := by
  unfold Obligations.LinkStatesOfAPort
  refine ⟨fun p s off service loud => ?_, fun p s listens => ?_, fun p s linked => ?_⟩
  · have runs := execLinkStart_due off service loud
    refine ⟨_, runs, alters_of_answers (frame_execLinkStart (List.Subset.refl _) (frame_refl _ s)) runs, ?_, ?_,
      State.onPort_port_other ..⟩
    · rw [State.onPort_port]
    · rw [State.onPort_port]
  · have runs := execPilotLock_due listens
    refine ⟨_, runs, alters_of_answers (frame_execPilotLock (List.Subset.refl _) (frame_refl _ s)) runs, ?_⟩
    simp only [clearLatching_port, State.onPort_port, State.onPort_port_other, drawBelow_port]
    exact ⟨rfl, rfl, rfl, rfl, rfl, rfl, tableB_defaultTable, rfl, rfl, ⟨_, drawBelow_lt (by decide), rfl⟩, trivial⟩
  · have runs := execPilotsLost_due linked
    refine ⟨_, runs, alters_of_answers (frame_execPilotsLost (List.Subset.refl _) (frame_refl _ s)) runs, ?_⟩
    simp only [raise_port, State.onPort_port, State.onPort_port_other, endSoundOps_port, leaveUp_port]
    exact ⟨rfl, rfl, rfl, rfl, rfl, rfl, rfl, breakSend_link .., raise_latched (by decide) (by decide)⟩

/-- Settles O31. -/
theorem soundingBeginsByRequestAndAck : Obligations.SoundingBeginsByRequestAndAck := by
  unfold Obligations.SoundingBeginsByRequestAndAck
  refine ⟨fun p s untrained alone elapsed => ?_, fun p b s good linked alone => ⟨fun other first => ?_, fun asked higher => ?_, fun same => ?_⟩,
    fun p b s good untrained asked alone other => ?_, fun p b s bad => ?_, fun p i s sounds late => ?_, fun p r s sounds reason => ?_⟩
  · obtain ⟨retry, runs⟩ := execTrainReqSend_due untrained alone elapsed
    refine ⟨_, runs, alters_of_answers (frame_execTrainReqSend (List.Subset.refl _) (frame_refl _ s)) runs, ?_⟩
    simp only [State.onPort_port, State.onPort_port_other, drawBelow_port, sendLc_port, sendLc_port_other, and_self]
  · have lower : ¬ ((s.port p).reqOut = true ∧ fieldAt b 1 8 < s.dieId.toNat) := by
      rintro ⟨asked, below⟩
      rcases first with idle | above
      · simp [idle] at asked
      · omega
    have runs := execTrainReq_good good linked alone
    rw [if_neg other, if_neg lower] at runs
    refine ⟨_, runs, ?_, ?_⟩
    · exact frame_startSounding (by decide) (frame_sendLc (by decide) (frame_refl _ s))
    · simp only [startSounding_port, startSounding_port_other, sendLc_port, sendLc_port_other, soundingPort, and_self]
  · have runs := execTrainReq_good good linked alone
    rwa [if_neg (Nat.ne_of_lt higher), if_pos ⟨asked, higher⟩] at runs
  · have runs := execTrainReq_good good linked alone
    rw [if_pos same] at runs
    exact ⟨_, runs, identityClash_port s p⟩
  · refine ⟨_, execTrainAck_good good untrained asked alone other, ?_, ?_⟩
    · unfold startSounding
      rw [leaveUp_of_untrained untrained]
      exact frame_State_onPort (List.Subset.refl _) (frame_refl _ s)
    · simp only [startSounding_port, startSounding_port_other, soundingPort, and_self]
  · exact ⟨_, execTrainReq_bad bad, frame_badLc (List.Subset.refl _) (frame_refl _ s)⟩
  · obtain ⟨retry, port⟩ := soundingMissed_port (sendAbort s p 1) p 1
    refine ⟨_, execSoundingStepMissed_due sounds late, ?_⟩
    rw [port, soundingMissed_port_other, sendAbort_port, sendAbort_port_other]
    exact ⟨rfl, rfl, rfl, rfl, rfl, rfl, rfl, rfl, rfl, rfl⟩
  · have runs := execAbort_sounding sounds reason
    obtain ⟨retry, port⟩ := soundingMissed_port (s.onPort p fun q => { q with lastAbort := r }) p r.toNat
    refine ⟨_, runs, ?_, ?_⟩
    · exact frame_soundingMissed (by decide) (frame_State_onPort (by decide) (frame_refl _ s))
    · rw [port, soundingMissed_port_other, State.onPort_port, State.onPort_port_other]
      exact ⟨rfl, by simp, rfl, rfl, rfl, rfl⟩

end Sys2Proof.Proofs
end

section
/-! The slots of a sounding, its delay, and the change of bit tables (06_trunk_line.md, R173 to R180). -/

namespace Sys2Proof.Proofs

open Sys2Proof Sys2Proof.Machine Sys2Proof.Safety Sys2Proof.Laws

/-! ## DELAY messages -/

section Delays

variable {s : State} {p : Port} {i : Bool}

/-- The DELAY an end owes in a slot (Table 6.7). -/
def owedDelay (s : State) (q : PortState) (i : Bool) (k : Nat) : List (List Byte) :=
  if i = true ∧ k = 8 then [delayBody (line48 s) 0 1]
  else if i = false ∧ k = 16 then [delayBody (line48 s) q.a1 2]
  else if i = true ∧ k = 24 then [delayBody (line48 s) q.a2 3]
  else []

/-- The port has sent link-control messages in a sounding, which goes on; the other port is as before. -/
structure SlotSends (s t : State) (p : Port) (i : Bool) (ms : List (List Byte)) : Prop where
  alters : Alters [.portA, .portB] s t
  other : t.port p.other = s.port p.other
  link : (t.port p).link = .sounding i
  out : (t.port p).llOut = (s.port p).llOut ++ ms.map fun m => (s.clock.line, llMessage 2 m)

theorem slotSends_nothing (sounds : (s.port p).link = .sounding i) : SlotSends s s p i [] :=
  ⟨frame_refl _ s, rfl, sounds, (List.append_nil _).symm⟩

theorem slotSends_sendLc (sounds : (s.port p).link = .sounding i) (m : List Byte) : SlotSends s (sendLc s p m) p i [m] where
  alters := frame_sendLc (by decide) (frame_refl _ s)
  other := sendLc_port_other m
  link := by rw [sendLc_port]; exact sounds
  out := by rw [sendLc_port]; rfl

/-- An end notes the time it sent its DELAY; messages and link stay. -/
theorem slotSends_onPort {t : State} {ms : List (List Byte)} {f : PortState → PortState} (h : SlotSends s t p i ms)
    (link : ∀ q, (f q).link = q.link) (out : ∀ q, (f q).llOut = q.llOut) : SlotSends s (t.onPort p f) p i ms where
  alters := frame_State_onPort (by decide) h.alters
  other := by rw [State.onPort_port_other, h.other]
  link := by rw [State.onPort_port, link, h.link]
  out := by rw [State.onPort_port, out, h.out]

theorem execSoundingSlot_due {e : Nat} (sounds : (s.port p).link = .sounding i) (symbol : atSymbol s = true) (quiet : 180 ≤ e) :
    ∃ t, execSoundingSlot p e s = .next t ∧ SlotSends s t p i (owedDelay s (s.port p) i (soundingSlotNo s (s.port p))) := by
  have due : (isSounding (s.port p) && atSymbol s) = true := by simp [isSounding, sounds, symbol]
  refine ⟨_, congrArg Host.Outcome.next (whenDue_pos due), ?_⟩
  extract_lets k time echo
  have silent : echo s = s := if_neg (by omega)
  have noted : SlotSends s s p i [] := slotSends_nothing sounds
  have sends := slotSends_sendLc sounds
  rw [silent, sounds]
  change SlotSends s _ p i (owedDelay s (s.port p) i k)
  clear_value k
  split
  · next h =>
    cases h
    exact slotSends_onPort (sends _) (fun _ => rfl) (fun _ => rfl)
  · next h =>
    cases h
    exact slotSends_onPort (sends _) (fun _ => rfl) (fun _ => rfl)
  · next h =>
    cases h
    exact sends _
  · next h =>
    cases h
    exact noted
  · next h =>
    cases h
    exact noted
  · next slot _ _ first second third _ _ =>
    have nothing : owedDelay s (s.port p) i slot = [] := by
      unfold owedDelay
      rw [if_neg, if_neg, if_neg]
      · rintro ⟨rfl, rfl⟩; exact third rfl rfl
      · rintro ⟨rfl, rfl⟩; exact second rfl rfl
      · rintro ⟨rfl, rfl⟩; exact first rfl rfl
    rw [nothing]
    exact noted

/-- The two differences of R176 as the initiator has them when DELAY 2 arrives. -/
theorem execDelay_second {b : List Byte} {a64 : Nat} (sounds : (s.port p).link = .sounding true) (long : b.length = 14)
    (kind : byteAt b 0 = 3) (second : byteAt b 13 = 2) : ∃ f : PortState → PortState, (∀ q, (f q).eMode = q.eMode ∧ (f q).link = q.link) ∧
    execDelay p b a64 s = .next (setLinkD (s.onPort p f) p
      (linkDelay (s.port p).t1 (BitVec.ofNat 48 (fieldAt b 7 6)) (BitVec.ofNat 48 (fieldAt b 1 6)) (BitVec.ofNat 48 a64))) := by
  unfold execDelay
  extract_lets q tx rx a n s1
  have two : n = 2 := second
  refine ⟨fun q => { q with a1 := rx, t2 := tx, a2 := a, steps := 2 :: q.steps }, fun _ => ⟨rfl, rfl⟩, ?_⟩
  rw [if_neg (by simp [long, kind, two])]
  have link : q.link = .sounding true := sounds
  clear_value n
  subst two
  rw [link]
  rfl

/-- A delay within D_MAX is kept and ends what a longer one began (R165, R176). -/
theorem setLinkD_within {d : Int} (near : d ≤ dMax (s.port p)) : setLinkD s p d =
    clearLatching (s.onPort p fun q => { q with linkD := some (BitVec.ofInt 24 d), tooLong := false }) 0x0505 (portSrc p) 0
      (beBytes 3 (BitVec.ofInt 24 d).toNat) := by
  unfold setLinkD
  extract_lets v s1
  have same : dMax (s1.port p) = dMax (s.port p) := by rw [State.onPort_port]; rfl
  rw [if_neg (by rw [same]; omega)]
  congr 1
  cases p <;> rfl

end Delays

/-! ## The table a sounding sends -/

section Send

variable {s : State} {p : Port} {i : Bool} {snr : List Nat}

/-- What a port holds after it has sent a table for its receive direction (R178). -/
theorem sendTable_port (s : State) (p : Port) (t : BitTable) (body : BitVec 16 → Bool → List Byte) :
    ∃ q : PendingTable, ((sendTable s p t body).port p).pendRx = some q ∧ q.tbl = t ∧ q.slot = !(s.port p).rxSlot ∧
      q.seq = (s.port p).tblSeq + 1 ∧ q.acked = false ∧ ((sendTable s p t body).port p).link = (s.port p).link ∧
      ((sendTable s p t body).port p).llOut = (s.port p).llOut ++ [(s.clock.line, llMessage 2 q.msg)] ∧
      (sendTable s p t body).port p.other = s.port p.other := by
  unfold sendTable
  extract_lets q seq slot b s1
  have written : ∀ x : PortState, (x.setRx slot t).link = x.link ∧ (x.setRx slot t).llOut = x.llOut := by
    intro x
    unfold PortState.setRx
    split <;> exact ⟨rfl, rfl⟩
  obtain ⟨link, out⟩ := written (s.port p)
  simp only [sendLc_port, sendLc_port_other, s1, State.onPort_port, State.onPort_port_other, State.onPort_clock, link, out]
  exact ⟨_, rfl, rfl, rfl, rfl, rfl, trivial, rfl, trivial⟩

/-- The slot in which an end sends its table (R175). -/
theorem tableSlot_due (sounds : (s.port p).link = .sounding i)
    (slot : soundingSlotNo s (s.port p) = if i = true then 392 else 384) :
    (match (s.port p).link with
      | .sounding i => soundingSlotNo s (s.port p) == (if i then 392 else 384)
      | _ => false) = true := by
  rw [sounds]
  exact beq_iff_eq.mpr slot

theorem execSoundingTableSend_sends (sounds : (s.port p).link = .sounding i) (symbol : atSymbol s = true)
    (slot : soundingSlotNo s (s.port p) = if i = true then 392 else 384) (heard : headerBelow snr 0 = false)
    (wide : 464 ≤ tableB (tableFor snr (marginDb (s.port p).margin))) :
    ∃ x body, execSoundingTableSend p snr s = .next (sendTable x p (tableFor snr (marginDb (s.port p).margin)) body) ∧
      Alters [.portA, .portB, .events] s x ∧ x.port p = { s.port p with snr := snr } ∧ x.port p.other = s.port p.other ∧
      x.clock = s.clock := by
  unfold execSoundingTableSend
  extract_lets q due m t w d
  have now : (due && atSymbol s) = true := by
    rw [symbol, Bool.and_true]
    exact tableSlot_due sounds slot
  rw [whenDue_pos now]
  extract_lets s1 _ _ s4 s5
  have good : ¬ (headerBelow snr 0 || decide (tableB t < 464)) = true := by simp [heard, wide, t, m, q]
  rw [if_neg good]
  have cleared : Alters [.events] s1 s4 := clearLatching_alters
  have judged : Alters [.events] s1 s5 := by
    unfold s5
    split
    · exact frame_raise (List.Subset.refl _) cleared
    · exact frame_clearLatching (List.Subset.refl _) cleared
  refine ⟨s5, _, rfl, frame_trans (frame_State_onPort (by decide) (frame_refl _ s)) (frame_mono (by decide) judged), ?_, ?_, ?_⟩
  · rw [same_port judged (by decide) (by decide)]
    exact State.onPort_port ..
  · rw [same_port judged (by decide) (by decide)]
    exact State.onPort_port_other ..
  · rw [same_clock judged (by decide)]
    exact State.onPort_clock ..

theorem execSoundingTableSend_narrow (sounds : (s.port p).link = .sounding i) (symbol : atSymbol s = true)
    (slot : soundingSlotNo s (s.port p) = if i = true then 392 else 384)
    (narrow : tableB (tableFor snr (marginDb (s.port p).margin)) < 464) :
    ∃ t, execSoundingTableSend p snr s = .next t ∧ (∃ retry, t.port p = defaultSlots (untrainedPort retry { s.port p with snr := snr })) ∧
      latched t 0x0503 (portSrc p) 0 = true := by
  unfold execSoundingTableSend
  extract_lets q due m t w d
  have now : (due && atSymbol s) = true := by
    rw [symbol, Bool.and_true]
    exact tableSlot_due sounds slot
  rw [whenDue_pos now]
  extract_lets s1 s2 s3
  have bad : (headerBelow snr 0 || decide (tableB t < 464)) = true := by simp [narrow, t, m, q]
  rw [if_pos bad]
  refine ⟨_, rfl, ⟨lineIn s3 rateTicks, ?_⟩, ?_⟩
  · rw [State.onPort_port, toUntrained_port, endSoundOps_port, raise_port, State.onPort_port]
  · unfold latched
    rw [State.onPort_events, toUntrained, State.onPort_events]
    exact endSoundOps_latched (raise_latched (by decide) (by decide))

end Send

/-- Settles O32. -/
theorem delayAndSoundingSlots : Obligations.DelayAndSoundingSlots := by
  unfold Obligations.DelayAndSoundingSlots
  refine ⟨fun p e i s sounds symbol quiet => ?_, fun p b a64 d s sounds long kind second delay near => ?_,
    fun p snr i s sounds symbol slot => ⟨fun heard wide => ?_, fun narrow => ?_⟩⟩
  · obtain ⟨t, runs, sent⟩ := execSoundingSlot_due sounds symbol quiet
    refine ⟨t, runs, sent.alters, sent.other, sent.link, sent.out.trans ?_⟩
    unfold owedDelay
    split
    · rfl
    · split
      · rfl
      · split <;> rfl
  · obtain ⟨f, keeps, runs⟩ := execDelay_second (a64 := a64) sounds long kind second
    have mode : dMax ((s.onPort p f).port p) = dMax (s.port p) := by
      rw [State.onPort_port, dMax, dMax, (keeps _).1]
    have d_eq : d = linkDelay (s.port p).t1 (BitVec.ofNat 48 (fieldAt b 7 6)) (BitVec.ofNat 48 (fieldAt b 1 6)) (BitVec.ofNat 48 a64) := delay
    rw [← d_eq, setLinkD_within (by rw [mode]; exact near)] at runs
    refine ⟨_, runs, ?_, ?_⟩
    · exact frame_clearLatching (by decide) (frame_State_onPort (by decide) (frame_State_onPort (by decide) (frame_refl _ s)))
    · simp only [clearLatching_port, State.onPort_port, State.onPort_port_other]
      exact ⟨trivial, trivial, (keeps _).2.trans sounds, trivial⟩
  · obtain ⟨x, body, runs, alters, port, other, clock⟩ := execSoundingTableSend_sends sounds symbol slot heard wide
    obtain ⟨q, pending, table, into, seq, acked, link, out, rest⟩ := sendTable_port x p (tableFor snr (marginDb (s.port p).margin)) body
    rw [port] at into seq link out
    rw [clock] at out
    exact ⟨_, q, runs, frame_sendTable (by decide) alters, link.trans sounds, pending, table, into, seq, acked, out, rest.trans other⟩
  · obtain ⟨t, runs, ⟨retry, port⟩, raised⟩ := execSoundingTableSend_narrow sounds symbol slot narrow
    refine ⟨t, runs, ?_⟩
    rw [port]
    exact ⟨rfl, rfl, rfl, rfl, rfl, raised⟩

end Sys2Proof.Proofs
end

section
/-! The change of bit tables (06_trunk_line.md, R172 to R174, R178, R179). -/

namespace Sys2Proof.Proofs

open Sys2Proof Sys2Proof.Machine Sys2Proof.Safety Sys2Proof.Laws

section Tables

variable {s : State} {p : Port} {b : List Byte} {seq : BitVec 16} {slot : Bool}

/-- An accepted table names the slot that is not in force and carries 464 bits or more (R173, R174). -/
theorem parseTable_accepted {q : PortState} {tbl : BitTable} (h : parseTable q b = some (seq, slot, .inr tbl)) :
    slot ≠ q.txSlot ∧ 464 ≤ tableB tbl := by
  unfold parseTable at h
  extract_lets fl part slot' seq' n len base ch ents tbl' at h
  clear_value tbl' ents ch base len n seq' slot' part fl
  split at h
  · cases h
  · split at h
    · cases h
    · split at h
      · cases h
      · split at h
        · cases h
        · next wide =>
          split at h
          · cases h
          · split at h
            · cases h
            · next other =>
              cases h
              exact ⟨by simpa using other, by simpa using wide⟩

theorem execTable_accepted {tbl : BitTable} (idle : (s.port p).pendTx = none) (fresh : (s.port p).lastAck = none)
    (h : parseTable (s.port p) b = some (seq, slot, .inr tbl)) : execTable p b s =
      .next (sendLc (s.onPort p fun q =>
        { q with pendTx := some { seq := seq, slot := slot, tbl := tbl, msg := [], at_ := s.clock.line, ns := 48, acked := true, resends := 0 },
                 lastAck := some (seq, s.clock.line, 48), steps := if isSounding q then 4 :: q.steps else q.steps })
        p (tableAckBody seq slot 48)) := by
  unfold execTable
  dsimp only
  rw [h]
  dsimp only
  rw [fresh, idle]

theorem execTable_refused {item : Nat} (idle : (s.port p).pendTx = none) (fresh : (s.port p).lastAck = none)
    (quiet : isSounding (s.port p) = false) (h : parseTable (s.port p) b = some (seq, slot, .inl item)) : execTable p b s =
      .next (raise ((sendAbort s p 5).onPort p fun q => { q with lastAbort := 5 }) 0x050A (portSrc p)
        (beBytes 2 seq.toNat ++ beBytes 1 item)) := by
  unfold execTable
  dsimp only
  rw [h]
  dsimp only
  rw [fresh, idle]
  dsimp only
  rw [if_neg (by simp [quiet])]

theorem execTableAck_good (long : b.length = 6) (kind : byteAt b 0 = 5) (least : 32 ≤ fieldAt b 4 2) (most : fieldAt b 4 2 ≤ 1024)
    {q : PendingTable} (pending : (s.port p).pendRx = some q) (open_ : q.acked = false) (number : fieldAt b 1 2 = q.seq.toNat)
    (named : byteAt b 3 = b2n q.slot) : ∃ t, execTableAck p b s = .next t ∧ Alters [.portA, .portB] s t ∧
      t.port p.other = s.port p.other ∧
      t.port p = { s.port p with pendRx := some { q with acked := true, ns := fieldAt b 4 2, at_ := s.clock.line } } := by
  unfold execTableAck
  extract_lets ns
  have bit_ : b2n q.slot ≤ 1 := by unfold b2n; split <;> omega
  have good : ¬ (b.length != 6 || byteAt b 0 != 5 || decide (1 < byteAt b 3) || decide (ns < 32) || decide (1024 < ns)) = true := by
    simp only [long, kind, named, bne_self_eq_false, Bool.false_or, Bool.or_eq_true, decide_eq_true_eq]
    omega
  rw [if_neg good]
  refine ⟨_, rfl, frame_State_onPort (List.Subset.refl _) (frame_refl _ s), State.onPort_port_other .., ?_⟩
  rw [State.onPort_port, pending]
  exact if_pos (by simp [number, named, open_])

theorem soundingDone_idle (quiet : isSounding (s.port p) = false) : soundingDone s p = s := by
  unfold soundingDone
  exact if_neg (by simp [quiet])

/-- A port whose receive direction switches to a pending table (R178). -/
def switchedPort (now : Tick) (q : PendingTable) (x : PortState) : PortState :=
  { x.setRx q.slot q.tbl with rxSlot := q.slot, pendRx := none, rxSwitched := true, rxSwitchAt := now, rxOtherReleased := false }

theorem switchedPort_isSounding (now : Tick) (q : PendingTable) (x : PortState) : isSounding (switchedPort now q x) = isSounding x := by
  unfold switchedPort PortState.setRx
  split <;> rfl

theorem switchedPort_fields (now : Tick) (q : PendingTable) (x : PortState) : (switchedPort now q x).rxSlot = q.slot ∧
    (switchedPort now q x).rxTable q.slot = q.tbl ∧ (switchedPort now q x).pendRx = none ∧
    (switchedPort now q x).rxOtherReleased = false ∧ (switchedPort now q x).tx0 = x.tx0 ∧ (switchedPort now q x).tx1 = x.tx1 := by
  unfold switchedPort PortState.setRx PortState.rxTable
  cases q.slot <;> exact ⟨rfl, rfl, rfl, rfl, rfl, rfl⟩

theorem execTableSwitch_due {q : PendingTable} (pending : (s.port p).pendRx = some q) (alone : (s.port p).pendTx = none)
    (quiet : isSounding (s.port p) = false) (acked : q.acked = true) (come : q.at_.toNat + q.ns * 9216 ≤ s.clock.line.toNat) :
    execTableSwitch p s = .next (s.onPort p (switchedPort s.clock.line q)) := by
  have tx : switchDue s (s.port p).pendTx = false := by rw [alone]; rfl
  have rx : switchDue s (s.port p).pendRx = true := by
    rw [pending]
    simpa [switchDue, acked] using come
  refine congrArg Host.Outcome.next ((whenDue_pos (by simp [rx])).trans ?_)
  rw [if_neg (Bool.eq_false_iff.mp tx)]
  dsimp only
  rw [if_pos rx]
  refine (congrArg (soundingDone · p) (onPort_congr (g := switchedPort s.clock.line q) ?_)).trans ?_
  · rw [pending]
    rfl
  · exact soundingDone_idle (by rw [State.onPort_port, switchedPort_isSounding, quiet])

theorem execTableSwitch_early {q : PendingTable} (pending : (s.port p).pendRx = some q) (alone : (s.port p).pendTx = none)
    (early : q.acked = false ∨ s.clock.line.toNat < q.at_.toNat + q.ns * 9216) : execTableSwitch p s = .next s := by
  refine congrArg Host.Outcome.next (whenDue_neg ?_)
  rw [pending, alone]
  rcases early with h | h <;> simp [switchDue, h]

theorem execTableResend_due {q : PendingTable} (pending : (s.port p).pendRx = some q) (open_ : q.acked = false) (few : q.resends < 3)
    (silent : q.at_.toNat + 128 * 9216 ≤ s.clock.line.toNat) : execTableResend p s =
      .next ((sendLc s p q.msg).onPort p fun x => { x with pendRx := some { q with at_ := s.clock.line, resends := q.resends + 1 } }) := by
  unfold execTableResend
  rw [pending]
  refine congrArg Host.Outcome.next ((whenDue_pos ?_).trans ?_)
  · simp only [open_, few, symbolTicks, silent, Bool.not_false, decide_true, Bool.and_self]
  · rfl

theorem execTableResend_spent {q : PendingTable} (pending : (s.port p).pendRx = some q) (spent : 3 ≤ q.resends) :
    execTableResend p s = .next s := by
  unfold execTableResend
  rw [pending]
  refine congrArg Host.Outcome.next (whenDue_neg ?_)
  simp [Nat.not_lt.mpr spent]

theorem execOldSlotRelease_due (held : (s.port p).rxOtherReleased = false) (settled : (s.port p).pendRx = none)
    (elapsed : (s.port p).rxSwitchAt.toNat + 589824 ≤ s.clock.line.toNat) :
    execOldSlotRelease p s = .next (s.onPort p fun q => { q with rxOtherReleased := true }) :=
  congrArg Host.Outcome.next (whenDue_pos (by simpa [held, settled] using elapsed))

end Tables

/-- Settles O33. -/
theorem tablesSwitchTogether : Obligations.TablesSwitchTogether := by
  unfold Obligations.TablesSwitchTogether
  refine ⟨fun p b s seq slot idle fresh => ⟨fun tbl h => ?_, fun item h quiet => ?_⟩,
    fun p b s q long kind least most pending open_ number named => execTableAck_good long kind least most pending open_ number named,
    fun p s q pending alone quiet => ⟨fun acked come => ?_, execTableSwitch_early pending alone, fun open_ few silent => ?_,
      execTableResend_spent pending⟩, fun p s held settled elapsed => ?_⟩
  · obtain ⟨other, wide⟩ := parseTable_accepted h
    have runs := execTable_accepted idle fresh h
    refine ⟨_, { seq := seq, slot := slot, tbl := tbl, msg := [], at_ := s.clock.line, ns := 48, acked := true, resends := 0 }, runs,
      frame_sendLc (List.Subset.refl _) (frame_State_onPort (List.Subset.refl _) (frame_refl _ s)), ?_⟩
    simp only [sendLc_port, sendLc_port_other, State.onPort_port, State.onPort_port_other, State.onPort_clock, true_and, and_true]
    exact ⟨other, wide⟩
  · refine ⟨_, execTable_refused idle fresh quiet h, ?_, ?_⟩
    · exact frame_raise (by decide) (frame_State_onPort (by decide) (frame_sendLc (by decide) (frame_refl _ s)))
    · simp only [raise_port, State.onPort_port, sendAbort_port, idle, true_and]
      rfl
  · refine ⟨_, execTableSwitch_due pending alone quiet acked come, frame_State_onPort (List.Subset.refl _) (frame_refl _ s), ?_⟩
    rw [State.onPort_port, State.onPort_port_other]
    obtain ⟨into, table, done, kept, tx0, tx1⟩ := switchedPort_fields s.clock.line q (s.port p)
    exact ⟨into, table, done, kept, tx0, tx1, rfl⟩
  · refine ⟨_, execTableResend_due pending open_ few silent, ?_, ?_⟩
    · exact frame_State_onPort (List.Subset.refl _) (frame_sendLc (List.Subset.refl _) (frame_refl _ s))
    · simp only [State.onPort_port, State.onPort_port_other, sendLc_port, sendLc_port_other, and_self]
  · refine ⟨_, execOldSlotRelease_due held settled elapsed, frame_State_onPort (List.Subset.refl _) (frame_refl _ s),
      State.onPort_port .., State.onPort_port_other ..⟩

end Sys2Proof.Proofs
end

section
/-! The cut (07_the_cut.md): what entering a cut, sending, passing on and tallying leave, and the election of the highest bid
(R196 to R205, R219, R220). -/

namespace Sys2Proof.Proofs

open Sys2Proof Sys2Proof.Machine Sys2Proof.Safety Sys2Proof.Laws

/-! ## Fields of a body -/

theorem byteAt_lt (b : List Byte) (off : Nat) : byteAt b off < 256 := (b.getD off 0).isLt

theorem foldl_bytes_lt (bs : List Byte) {a k : Nat} (h : a < 256 ^ k) :
    bs.foldl (fun a b => a * 256 + b.toNat) a < 256 ^ (k + bs.length) := by
  induction bs generalizing a k with
  | nil => exact h
  | cons b bs ih =>
    have next : a * 256 + b.toNat < 256 ^ (k + 1) := by
      have := b.isLt
      rw [Nat.pow_succ]
      omega
    have folded := ih next
    rwa [Nat.add_assoc, Nat.add_comm 1] at folded

theorem fieldAt_lt (b : List Byte) (off len : Nat) : fieldAt b off len < 256 ^ len := by
  have bytes := foldl_bytes_lt (slice b off len) (a := 0) (k := 0) Nat.one_pos
  rw [Nat.zero_add] at bytes
  exact Nat.lt_of_lt_of_le bytes (Nat.pow_le_pow_right (by decide) (by simp [slice]))

/-! ## Messages of the cut -/

section CutOps

variable {s : State} {p q : Port}

theorem sendCut_alters (s : State) (p : Port) (body : List Byte) : Alters [.portA, .portB] s (sendCut s p body) :=
  frame_sendCut (List.Subset.refl _) (frame_refl _ s)

theorem passCut_alters (s : State) (p : Port) (body : List Byte) : Alters [.portA, .portB] s (passCut s p body) :=
  frame_passCut (List.Subset.refl _) (frame_refl _ s)

theorem tallyAfter_alters (old s : State) : Alters [.portA, .portB] s (tallyAfter old s) :=
  frame_tallyAfter (List.Subset.refl _) (frame_refl _ s)

theorem setNbr_alters (s : State) (p : Port) (fwd : Nat) : Alters [.portA, .portB] s (setNbr s p fwd) :=
  frame_setNbr (List.Subset.refl _) (frame_refl _ s)

@[simp] theorem sendCut_cut (body : List Byte) : (sendCut s p body).cut = s.cut := same_cut (sendCut_alters s p body) (by decide)
@[simp] theorem sendCut_clock (body : List Byte) : (sendCut s p body).clock = s.clock := same_clock (sendCut_alters s p body) (by decide)
@[simp] theorem passCut_cut (body : List Byte) : (passCut s p body).cut = s.cut := same_cut (passCut_alters s p body) (by decide)
@[simp] theorem passCut_clock (body : List Byte) : (passCut s p body).clock = s.clock := same_clock (passCut_alters s p body) (by decide)
@[simp] theorem passCut_tables (body : List Byte) : (passCut s p body).tables = s.tables := same_tables (passCut_alters s p body) (by decide)
@[simp] theorem tallyAfter_cut (old : State) : (tallyAfter old s).cut = s.cut := same_cut (tallyAfter_alters old s) (by decide)
@[simp] theorem tallyAfter_clock (old : State) : (tallyAfter old s).clock = s.clock := same_clock (tallyAfter_alters old s) (by decide)
@[simp] theorem tallyAfter_tables (old : State) : (tallyAfter old s).tables = s.tables := same_tables (tallyAfter_alters old s) (by decide)
@[simp] theorem setNbr_cut (fwd : Nat) : (setNbr s p fwd).cut = s.cut := same_cut (setNbr_alters s p fwd) (by decide)
@[simp] theorem setNbr_clock (fwd : Nat) : (setNbr s p fwd).clock = s.clock := same_clock (setNbr_alters s p fwd) (by decide)

/-- What a port has to send, with a cut message where it carries frames. -/
def outWith (q : PortState) (now : Tick) (body : List Byte) : List (Tick × List Byte) :=
  q.llOut ++ if carries q = true then [(now, llMessage 3 body)] else []

theorem sendCut_llOut (s : State) (p : Port) (body : List Byte) :
    ((sendCut s p body).port p).llOut = outWith (s.port p) s.clock.line body := by
  unfold sendCut outWith
  split
  · rw [sendLl_port]
  · exact (List.append_nil _).symm

@[simp] theorem sendCut_port_other (body : List Byte) : (sendCut s p body).port p.other = s.port p.other := by
  unfold sendCut
  split
  · exact sendLl_port_other ..
  · rfl

/-- A message sent on both ports leaves on each as on it alone. -/
theorem sendCut_both_llOut (s : State) (body : List Byte) (q : Port) :
    ((sendCut (sendCut s .ta body) .tb body).port q).llOut = outWith (s.port q) s.clock.line body := by
  cases q with
  | ta => exact (congrArg PortState.llOut (sendCut_port_other (p := .tb) body)).trans (sendCut_llOut ..)
  | tb =>
    rw [sendCut_llOut, sendCut_clock]
    exact congrArg (outWith · s.clock.line body) (sendCut_port_other (p := .ta) body)

/-! ## Entering a cut (R199, R200) -/

/-- The cut as it stands on entry (R200). -/
structure CutEntered (s t : State) (round : Nat) : Prop where
  state : t.cut.state = .cut
  provisional : t.cut.provisional = false
  entered : t.cut.entered = s.clock.age
  round_ : t.cut.round = BitVec.ofNat 8 round
  best : t.cut.best = none
  tallies : t.cut.tallies = []
  slot : t.cut.slot < 64
  bidTrick : t.cut.bidTrick = BitVec.ofNat 64 ((s.clock.line.toNat / trickTicks + 1) * trickTicks)
  ineligible : t.cut.ineligible = s.cut.ineligible

theorem cutBegins_alters (s : State) (round : Nat) : Alters [.events] s (cutBegins s round) :=
  frame_cutBegins (List.Subset.refl _) (frame_refl _ s)

theorem enterCut_entered (s : State) (round : Nat) : CutEntered s (enterCut s round) round := by
  unfold enterCut
  extract_lets s1 r n next clear s2
  have begun : s1.clock = s.clock ∧ s1.cut.ineligible = s.cut.ineligible := by
    unfold s1
    split
    · exact ⟨rfl, rfl⟩
    · have clock : (cutBegins s round).clock = s.clock := same_clock (cutBegins_alters s round) (by decide)
      have cut : (cutBegins s round).cut = s.cut := same_cut (cutBegins_alters s round) (by decide)
      exact ⟨clock, congrArg (fun c => c.ineligible) cut⟩
  obtain ⟨clock, ineligible⟩ := begun
  have drawn : Alters [.free] s1 n.2 := frame_State_draw (List.Subset.refl _) (drawBelow_alters s1 64)
  have last : Alters [.free, .portA, .portB] s1 s2 :=
    frame_State_onPort (by decide) (frame_State_onPort (by decide) (frame_mono (by decide) drawn))
  have age : s2.clock.age = s.clock.age := by rw [same_clock last (by decide), clock]
  have line : s1.clock.line = s.clock.line := by rw [clock]
  have kept : s2.cut.ineligible = s.cut.ineligible := by rw [same_cut last (by decide), ineligible]
  exact ⟨rfl, rfl, age, rfl, rfl, rfl, drawBelow_lt (n := 64) (by decide), by rw [← line]; rfl, kept⟩

/-- A cut that repeats raises no event of a cut that begins. -/
theorem enterCut_alters_of_cut (running : s.cut.state = .cut) (round : Nat) : Alters [.free, .portA, .portB, .cut] s (enterCut s round) := by
  unfold enterCut
  rw [if_pos (beq_iff_eq.mpr running)]
  extract_lets _ r n next clear s2
  have drawn : Alters [.free] s n.2 := frame_State_draw (List.Subset.refl _) (drawBelow_alters s 64)
  exact frame_State_onCut (by decide) (frame_State_onPort (by decide) (frame_State_onPort (by decide) (frame_mono (by decide) drawn)))

end CutOps

end Sys2Proof.Proofs
end

section
/-! The election of the highest bid (07_the_cut.md, R194 to R205, R219, R220). -/

namespace Sys2Proof.Proofs

open Sys2Proof Sys2Proof.Machine Sys2Proof.Safety Sys2Proof.Laws

section Election

variable {s : State} {p : Port} {m : List Byte} {b : Bid}

/-! ## Its own bid -/

theorem execBidSend_due (service : inService s = true) (cut : s.cut.state = .cut) (claimless : s.cut.provisional = false)
    (may : eligible s = true) (slot : s.clock.line.toNat = s.cut.bidTrick.toNat + s.cut.slot * 9216)
    (highest : ∀ b, s.cut.best = some b → b.value ≤ (ownBid s).value) (single : isTwin? s (ownBid s) = false) :
    execBidSend s = .next ((sendCut (sendCut s .ta (bidBody s s.cut.round.toNat (ownBid s) 1)) .tb
      (bidBody s s.cut.round.toNat (ownBid s) 1)).onCut fun c =>
        { c with provisional := true, best := some (ownBid s), seen := c.seen ++ [ownBid s], tallies := [] }) := by
  unfold execBidSend
  extract_lets own higher
  have top : higher = false := by
    unfold higher
    split
    · next x found => exact decide_eq_false (Nat.not_lt.mpr (highest x found))
    · rfl
  have due : (inService s && s.cut.state == .cut && !s.cut.provisional &&
      s.clock.line.toNat == s.cut.bidTrick.toNat + s.cut.slot * symbolTicks && eligible s && !higher) = true := by
    simp [service, cut, claimless, slot, may, top, symbolTicks]
  refine congrArg Host.Outcome.next ((whenDue_pos due).trans ?_)
  exact if_neg (Bool.eq_false_iff.mp single)

/-! ## A bid received -/

/-- The bid a BID body carries. -/
def bidOf (m : List Byte) : Bid where
  rank := BitVec.ofNat 8 (byteAt m 2)
  die := BitVec.ofNat 64 (fieldAt m 3 8)
  node := BitVec.ofNat 16 (fieldAt m 11 2)
  nonce := BitVec.ofNat 32 (fieldAt m 13 4)

theorem bidOf_eq (rank : b.rank.toNat = byteAt m 2) (die : b.die.toNat = fieldAt m 3 8) (node : b.node.toNat = fieldAt m 11 2)
    (nonce : b.nonce.toNat = fieldAt m 13 4) : bidOf m = b := by
  rw [bidOf, ← rank, ← die, ← node, ← nonce]
  simp

/-- The state in which a BID is judged: the neighbour is noted, the silence timer restarts, and a TALLY may leave (R194, R198). -/
def bidHeard (s : State) (p : Port) (m : List Byte) : State := tallyAfter s (silenceRestart (setNbr s p (fieldAt m 18 2)))

theorem bidHeard_alters (s : State) (p : Port) (m : List Byte) : Alters [.portA, .portB, .cut] s (bidHeard s p m) :=
  frame_tallyAfter (by decide) (frame_silenceRestart (by decide) (frame_setNbr (by decide) (frame_refl _ s)))

theorem bidHeard_cut (s : State) (p : Port) (m : List Byte) : (bidHeard s p m).cut = { s.cut with silence := s.clock.age } := by
  rw [bidHeard, tallyAfter_cut, silenceRestart, State.onCut_cut, setNbr_cut, setNbr_clock]

theorem execBid_inRound (good : cutOk 1 m = true) (service : inService s = true) (cut : s.cut.state = .cut)
    (round : byteAt m 1 = s.cut.round.toNat) :
    execBid p m s = .next (bidInRound (bidHeard s p m) p (bidOf m) (byteAt m 17) (fieldAt m 18 2) m) := by
  have same := bidHeard_cut s p m
  have heard : ¬ dealRecent (bidHeard s p m) = true := by simp [dealRecent, same, cut]
  unfold execBid
  rw [if_neg (by simp [good])]
  refine congrArg Host.Outcome.next ((whenDue_pos service).trans ?_)
  refine (if_neg heard).trans ?_
  have running : ((bidHeard s p m).cut.state == .cut) = true := by simp [same, cut]
  have number : (bidHeard s p m).cut.round = s.cut.round := by rw [same]
  change (let x := if (bidHeard s p m).cut.state == .cut then bidHeard s p m else enterCut (bidHeard s p m) (byteAt m 1)
    if byteAt m 1 < x.cut.round.toNat then x
    else
      let y := if x.cut.round.toNat < byteAt m 1 then enterCut x (byteAt m 1) else x
      bidInRound y p (bidOf m) (byteAt m 17) (fieldAt m 18 2) m) = _
  rw [if_pos running]
  dsimp only
  rw [number, round, if_neg (Nat.lt_irrefl _), if_neg (Nat.lt_irrefl _)]

/-- A cut that follows a bid (R201). -/
def followedCut (b : Bid) (seen : List Bid) (c : Cut) : Cut := { c with seen := seen, best := some b, provisional := false, tallies := [] }

/-- A higher bid is followed (R201). -/
theorem bidInRound_higher {hops fwd : Nat} (single : isTwin? s b = false) (higher : ∀ x, s.cut.best = some x → x.value < b.value) :
    Alters [.portA, .portB, .cut] s (bidInRound s p b hops fwd m) ∧ ∃ seen, (bidInRound s p b hops fwd m).cut = followedCut b seen s.cut := by
  unfold bidInRound
  extract_lets old copy tw s1 better clear s2 s3 s4 w s5 s6
  have better_ : better = true := by
    unfold better s1
    rw [State.onCut_cut]
    split
    · next x found => exact decide_eq_true (higher x found)
    · rfl
  rw [if_neg (Bool.eq_false_iff.mp single), if_pos better_]
  refine ⟨?_, ?_⟩
  · exact frame_tallyAfter (by decide) (frame_passCut (by decide) (frame_State_onCut (by decide) (frame_State_onPort (by decide)
      (frame_State_onPort (by decide) (frame_State_onPort (by decide) (frame_State_onCut (by decide) (frame_refl _ s)))))))
  · have ports : s3.cut = s1.cut := by simp only [s3, s2, State.onPort_cut]
    refine ⟨s1.cut.seen, ?_⟩
    rw [tallyAfter_cut, passCut_cut, State.onCut_cut, ports]
    rfl

/-- A lower bid leaves the best bid, the claim and the TALLYs (R201). -/
theorem bidInRound_lower {hops fwd : Nat} {x : Bid} (single : isTwin? s b = false) (best : s.cut.best = some x) (lower : b.value < x.value) :
    Alters [.cut] s (bidInRound s p b hops fwd m) ∧ ∃ seen, (bidInRound s p b hops fwd m).cut = { s.cut with seen := seen } := by
  unfold bidInRound
  extract_lets old copy tw s1 better clear s2 s3 s4 w s5 s6
  have held : s1.cut.best = some x := best
  have worse : ¬ better = true := by
    unfold better
    rw [held]
    simpa using Nat.le_of_lt lower
  have other : ¬ (s1.cut.best == some b && !bestOwn s1 && (s1.port p).bidCopy.isNone) = true := by
    rw [held]
    have differ : x ≠ b := fun same => by rw [same] at lower; exact Nat.lt_irrefl _ lower
    simp [differ]
  rw [if_neg (Bool.eq_false_iff.mp single), if_neg worse, if_neg other]
  exact ⟨frame_State_onCut (List.Subset.refl _) (frame_refl _ s), _, rfl⟩

theorem execBid_bad (bad : cutOk 1 m = false) : execBid p m s = .next (badCut s p) := if_pos (by simp [bad])
theorem execClash_bad (bad : cutOk 2 m = false) : execClash p m s = .next (badCut s p) := if_pos (by simp [bad])
theorem execTally_bad (bad : cutOk 3 m = false) : execTally p m s = .next (badCut s p) := if_pos (by simp [bad])

theorem isTwin?_of_seen {t : State} (h : t.cut.seen = s.cut.seen) (b : Bid) : isTwin? t b = isTwin? s b := by
  unfold isTwin?
  rw [h]

/-! ## CLASH and TALLY -/

/-- A CLASH of the cut's round that has not been seen: its identity is ineligible, and the cut repeats in the next round (R204, R220). -/
theorem execClash_fresh {die : BitVec 64} (good : cutOk 2 m = true) (service : inService s = true) (cut : s.cut.state = .cut)
    (named : die.toNat = fieldAt m 3 8) (round : byteAt m 1 = s.cut.round.toNat) (fresh : (die, s.cut.round) ∉ s.cut.clashSeen) :
    ∃ x, execClash p m s = .next (enterCut x (s.cut.round.toNat + 1)) ∧ Alters [.portA, .portB, .cut] s x ∧ x.cut.state = .cut ∧
      die ∈ x.cut.ineligible := by
  have die_eq : BitVec.ofNat 64 (fieldAt m 3 8) = die := by rw [← named]; simp
  have key : BitVec.ofNat 8 (byteAt m 1) = s.cut.round := by rw [round]; simp
  unfold execClash
  rw [if_neg (by simp [good])]
  rw [whenDue_pos service]
  extract_lets die' key' s1 s2
  have key_eq : key' = (die, s.cut.round) := by simp only [key', die', die_eq, key]
  have unseen : ¬ s1.cut.clashSeen.contains key' = true := by
    rw [key_eq]
    simpa [s1, silenceRestart] using fresh
  rw [if_neg unseen]
  have before : s2.cut.state = .cut ∧ s2.cut.round = s.cut.round := by
    simp only [s2, s1, silenceRestart, State.onCut_cut, passCut_cut, cut, and_self]
  have frame : Alters [.portA, .portB, .cut] s s2 :=
    frame_State_onCut (by decide) (frame_passCut (by decide) (frame_silenceRestart (by decide) (frame_refl _ s)))
  obtain ⟨state, number⟩ := before
  have die_is : die' = die := die_eq
  clear_value s2 die'
  subst die_is
  unfold clashApply
  extract_lets s3
  have again : (s3.cut.state == .cut && decide (s3.cut.round.toNat < byteAt m 1 + 1)) = true := by
    simp [s3, state, number, round]
  rw [if_pos again, round]
  refine ⟨s3, rfl, frame_State_onCut (by decide) frame, state, ?_⟩
  simp only [s3, State.onCut_cut]
  split
  · next known => simpa using known
  · exact List.mem_append_right _ (List.mem_singleton_self _)

/-- The TALLY a body carries. -/
def tallyOf (m : List Byte) : Tally where
  node := BitVec.ofNat 16 (fieldAt m 10 2)
  hops := BitVec.ofNat 8 (byteAt m 12)
  epoch := BitVec.ofNat 8 (byteAt m 13)
  meet := BitVec.ofNat 8 (byteAt m 14)
  nbrA := BitVec.ofNat 16 (fieldAt m 15 2)
  nbrB := BitVec.ofNat 16 (fieldAt m 17 2)

theorem execTally_claimed (good : cutOk 3 m = true) (service : inService s = true) (claims : s.cut.provisional = true)
    (best : s.cut.best = some b) (own : fieldAt m 2 8 = b.die.toNat) :
    execTally p m s = .next (collectTally (silenceRestart s) (tallyOf m)) := by
  unfold execTally
  rw [if_neg (by simp [good])]
  refine congrArg Host.Outcome.next ((whenDue_pos service).trans ?_)
  have held : (silenceRestart s).cut.best = some b := best
  have claim : bestOwn (silenceRestart s) = true := by simp [bestOwn, silenceRestart, claims]
  extract_lets s1 t
  change s1.cut.best = some b at held
  rw [held]
  dsimp only
  rw [if_neg (by simp [own]), if_pos claim]
  rfl

/-- Below the dealer a TALLY is only kept (R202). -/
theorem collectTally_kept {t : Tally} (undealt : s.cut.state ≠ .dealer) :
    Alters [.cut, .events] s (collectTally s t) ∧ t ∈ (collectTally s t).cut.tallies ∧ (collectTally s t).cut.best = s.cut.best := by
  unfold collectTally
  extract_lets clash s1 s2
  have raised : Alters [.events] s s1 := by
    unfold s1
    split
    · exact raise_alters
    · exact frame_refl _ s
  have cut : s1.cut = s.cut := same_cut raised (by decide)
  have idle : ¬ (s2.cut.state == .dealer && t.meet != 0) = true := by
    have state : s2.cut.state = s.cut.state := by rw [← cut]; rfl
    simp [state, undealt]
  rw [if_neg idle]
  refine ⟨frame_State_onCut (by decide) (frame_mono (by decide) raised), ?_, ?_⟩
  · exact List.mem_append_right _ (List.mem_singleton_self _)
  · rw [← cut]; rfl

end Election

/-- Settles O34. -/
theorem bidsElectTheHighest : Obligations.BidsElectTheHighest := by
  unfold Obligations.BidsElectTheHighest
  refine ⟨fun s service cut claimless may slot highest single => ?_,
    fun p m s b good service cut round rank die node nonce single => ⟨fun higher => ?_, fun x best lower => ?_⟩,
    fun p m s die good service cut named round few fresh => ?_, fun p m s b good service cut claims best own => ?_,
    fun p m s => ⟨fun bad => ?_, fun bad => ?_, fun bad => ?_⟩⟩
  · refine ⟨_, execBidSend_due service cut claimless may slot highest single, ?_, rfl, rfl, fun p => ?_⟩
    · exact frame_State_onCut (by decide) (frame_sendCut (by decide) (frame_sendCut (by decide) (frame_refl _ s)))
    · rw [State.onCut_port]
      exact sendCut_both_llOut ..
  · have heard := bidHeard_cut s p m
    have still : isTwin? (bidHeard s p m) b = false := (isTwin?_of_seen (by rw [heard]) b).trans single
    obtain ⟨alters, seen, after⟩ := bidInRound_higher (p := p) (m := m) (hops := byteAt m 17) (fwd := fieldAt m 18 2) still
      (by rw [heard]; exact higher)
    refine ⟨_, execBid_inRound good service cut round, ?_, ?_⟩
    · rw [bidOf_eq rank die node nonce]
      exact frame_trans (bidHeard_alters s p m) alters
    · rw [bidOf_eq rank die node nonce, after, heard]
      exact ⟨rfl, rfl, rfl, cut, rfl, rfl⟩
  · have heard := bidHeard_cut s p m
    have still : isTwin? (bidHeard s p m) b = false := (isTwin?_of_seen (by rw [heard]) b).trans single
    obtain ⟨alters, seen, after⟩ := bidInRound_lower (p := p) (m := m) (hops := byteAt m 17) (fwd := fieldAt m 18 2) still
      (by rw [heard]; exact best) lower
    refine ⟨_, execBid_inRound good service cut round, ?_, ?_⟩
    · rw [bidOf_eq rank die node nonce]
      exact frame_trans (bidHeard_alters s p m) (frame_mono (by decide) alters)
    · rw [bidOf_eq rank die node nonce, after, heard]
      exact ⟨rfl, rfl, rfl⟩
  · obtain ⟨x, runs, alters, state, ineligible⟩ := execClash_fresh (p := p) good service cut named round fresh
    have entered := enterCut_entered x (s.cut.round.toNat + 1)
    refine ⟨_, runs, frame_trans (frame_mono (by decide) alters) (enterCut_alters_of_cut state _), ?_, ?_, entered.state,
      entered.provisional, entered.best⟩
    · rw [entered.ineligible]; exact ineligible
    · rw [entered.round_, BitVec.ofNat_add, BitVec.ofNat_toNat, BitVec.setWidth_eq]
      rfl
  · obtain ⟨alters, kept, same⟩ := collectTally_kept (s := silenceRestart s) (t := tallyOf m) (by rw [silenceRestart, State.onCut_cut]; simp [cut])
    refine ⟨_, tallyOf m, execTally_claimed good service claims best own,
      frame_trans (frame_silenceRestart (by decide) (frame_refl _ s)) alters, kept, ?_, ?_, ?_, ?_, same⟩
    · exact Nat.mod_eq_of_lt (fieldAt_lt m 10 2)
    · exact Nat.mod_eq_of_lt (byteAt_lt m 12)
    · exact Nat.mod_eq_of_lt (byteAt_lt m 13)
    · exact Nat.mod_eq_of_lt (byteAt_lt m 14)
  · exact ⟨_, execBid_bad bad, frame_badCut (List.Subset.refl _) (frame_refl _ s)⟩
  · exact ⟨_, execClash_bad bad, frame_badCut (List.Subset.refl _) (frame_refl _ s)⟩
  · exact ⟨_, execTally_bad bad, frame_badCut (List.Subset.refl _) (frame_refl _ s)⟩

end Sys2Proof.Proofs
end

section
/-! How a cut begins, settles and repeats (07_the_cut.md, R198 to R203, R216). -/

namespace Sys2Proof.Proofs

open Sys2Proof Sys2Proof.Machine Sys2Proof.Safety Sys2Proof.Laws

section Settle

variable {s : State}

theorem execSilenceTimerExpiry_due (service : inService s = true) (calm : s.cut.state = .waiting ∨ s.cut.state = .following)
    (silent : 60000000 ≤ since s s.cut.silence) : execSilenceTimerExpiry s = .next (enterCut s 0) :=
  congrArg Host.Outcome.next (whenDue_pos (by simpa [service, silent] using calm))

theorem execSilenceTimerExpiry_early (heard : since s s.cut.silence < 60000000) : execSilenceTimerExpiry s = .next s :=
  congrArg Host.Outcome.next (whenDue_neg (by simp [Nat.not_le.mpr heard]))

/-! ## The highest epoch -/

theorem foldl_max_ge (l : List Nat) (a : Nat) : a ≤ l.foldl max a ∧ ∀ x ∈ l, x ≤ l.foldl max a := by
  induction l generalizing a with
  | nil => exact ⟨Nat.le_refl a, fun x mem => nomatch mem⟩
  | cons b l ih =>
    obtain ⟨start, all⟩ := ih (max a b)
    refine ⟨by rw [List.foldl_cons]; omega, fun x mem => ?_⟩
    rcases List.mem_cons.mp mem with rfl | later
    · rw [List.foldl_cons]; omega
    · exact all x later

theorem foldl_max_mem (l : List Nat) (a : Nat) : l.foldl max a = a ∨ l.foldl max a ∈ l := by
  induction l generalizing a with
  | nil => exact .inl rfl
  | cons b l ih =>
    rw [List.foldl_cons]
    rcases ih (max a b) with start | later
    · rw [start]
      rcases Nat.le_total a b with le | le
      · exact .inr (by simp [Nat.max_eq_right le])
      · exact .inl (Nat.max_eq_left le)
    · exact .inr (List.mem_cons_of_mem b later)

/-- The highest epoch the chip knows of: its own or a TALLY's (R203). -/
def topEpoch (s : State) : Nat := (s.cut.tallies.map fun t => t.epoch.toNat).foldl max s.clock.epoch.toNat

theorem topEpoch_eq {top : Nat} (own : s.clock.epoch.toNat ≤ top) (all : ∀ x ∈ s.cut.tallies, x.epoch.toNat ≤ top)
    (taken : top = s.clock.epoch.toNat ∨ ∃ x ∈ s.cut.tallies, x.epoch.toNat = top) : topEpoch s = top := by
  obtain ⟨start, each⟩ := foldl_max_ge (s.cut.tallies.map fun t => t.epoch.toNat) s.clock.epoch.toNat
  have least : top ≤ topEpoch s := by
    rcases taken with rfl | ⟨x, mem, rfl⟩
    · exact start
    · exact each _ (List.mem_map_of_mem mem)
  have most : topEpoch s ≤ top := by
    rcases foldl_max_mem (s.cut.tallies.map fun t => t.epoch.toNat) s.clock.epoch.toNat with same | mem
    · exact Nat.le_trans (Nat.le_of_eq same) own
    · obtain ⟨x, mem, same⟩ := List.mem_map.mp mem
      exact Nat.le_trans (Nat.le_of_eq same.symm) (all x mem)
  omega

/-- The epoch a dealer starts: one above, modulo 256, and 1 for 0 (R203). -/
def nextEpoch (top : Nat) : Nat := if (top + 1) % 256 = 0 then 1 else (top + 1) % 256

theorem nextEpoch_bounds (top : Nat) : 0 < nextEpoch top ∧ nextEpoch top < 256 := by
  unfold nextEpoch
  split <;> omega

/-- The clock of a chip that has settled as dealer (R203, R206). -/
def settledClock (e : Nat) (c : Clock) : Clock :=
  { c with state := .dealer, epoch := BitVec.ofNat 8 e, facing := none, hops := some 0, realign := none, goodTricks := 0, jumps := 0 }

theorem nameBlock_alters (s : State) : Alters [.portA, .portB, .cut, .tables] s (nameBlock s) :=
  frame_nameBlock (List.Subset.refl _) (frame_refl _ s)

theorem nameBlock_cut (s : State) : (nameBlock s).cut.state = s.cut.state ∧ (nameBlock s).cut.provisional = s.cut.provisional := by
  unfold nameBlock
  extract_lets b s1
  split
  · exact ⟨rfl, rfl⟩
  · have blocked : (applyBlock s1 b.1 b.2).cut = s1.cut :=
      same_cut (frame_applyBlock (L := [.portA, .portB]) (List.Subset.refl _) (frame_refl _ s1)) (by decide)
    rw [topologyFlushDue, State.onTables_cut, blocked]
    exact ⟨rfl, rfl⟩

theorem execCutSettle_due (service : inService s = true) (cut : s.cut.state = .cut) (claims : s.cut.provisional = true)
    (window : 75000000 ≤ since s s.cut.entered) : ∃ t, execCutSettle s = .next t ∧ t.cut.state = .dealer ∧ t.cut.provisional = false ∧
      t.clock = settledClock (nextEpoch (topEpoch s)) s.clock := by
  refine ⟨_, congrArg Host.Outcome.next (whenDue_pos (by simp [service, cut, claims, window])), ?_⟩
  extract_lets top e s1 free s2 s3 s4
  have number : e = nextEpoch (topEpoch s) := by simp only [e, nextEpoch, beq_iff_eq]; rfl
  obtain ⟨state, provisional⟩ := nameBlock_cut s3
  have clock : s4.clock = s3.clock := same_clock (nameBlock_alters s3) (by decide)
  rw [raise_cut, raise_clock, clock]
  refine ⟨state, provisional, ?_⟩
  rw [← number]
  rfl

/-! ## A cut without a DEAL -/

/-- A follow timeout of which the event is raised at most once a second (Table 7.3). -/
theorem execCutFollowTimeout_due (service : inService s = true) (cut : s.cut.state = .cut) (claimless : s.cut.provisional = false)
    (long : 150000000 ≤ since s s.cut.entered) : ∃ t, execCutFollowTimeout s = .next t ∧ ∃ x, t = enterCut x 0 ∧ x.cut.state = .cut ∧
      x.clock = s.clock ∧ (∀ q, s.cut.noDealerAt = some q → since s q < 3000000000 → x = s) := by
  refine ⟨_, congrArg Host.Outcome.next (whenDue_pos (by simp [service, cut, claimless, long])), ?_⟩
  extract_lets quiet x
  refine ⟨x, rfl, ?_⟩
  unfold x
  split
  · exact ⟨cut, rfl, fun _ _ _ => rfl⟩
  · next loud =>
    refine ⟨?_, ?_, fun q at_ recent => absurd ?_ loud⟩
    · rw [State.onCut_cut, raise_cut]
      exact cut
    · rw [State.onCut_clock, raise_clock]
    · unfold quiet
      rw [at_]
      exact decide_eq_true recent

end Settle

/-- Settles O35. -/
theorem theCutBeginsAndSettles : Obligations.TheCutBeginsAndSettles := by
  unfold Obligations.TheCutBeginsAndSettles
  refine ⟨fun s service calm => ⟨fun silent => ?_, execSilenceTimerExpiry_early⟩, fun s service cut claims window => ?_,
    fun s service cut claimless long => ?_⟩
  · have entered := enterCut_entered s 0
    exact ⟨_, execSilenceTimerExpiry_due service calm silent, frame_enterCut (List.Subset.refl _) (frame_refl _ s), entered.state,
      entered.round_, entered.best, entered.provisional, entered.tallies, entered.slot, entered.entered, entered.bidTrick⟩
  · obtain ⟨t, runs, state, provisional, clock⟩ := execCutSettle_due service cut claims window
    obtain ⟨least, most⟩ := nextEpoch_bounds (topEpoch s)
    have epoch : t.clock.epoch.toNat = nextEpoch (topEpoch s) := by
      rw [clock]
      exact Nat.mod_eq_of_lt most
    refine ⟨t, runs, alters_of_answers (frame_execCutSettle (List.Subset.refl _) (frame_refl _ s)) runs, state, provisional,
      by rw [clock]; rfl, by rw [clock]; rfl, by rw [clock]; rfl, by rw [clock]; rfl, by rw [clock]; rfl, fun zero => ?_, ?_⟩
    · rw [zero] at epoch
      exact Nat.ne_of_lt least epoch
    · rintro top ⟨own, all, taken⟩
      rw [epoch, topEpoch_eq own all taken, nextEpoch]
  · obtain ⟨_, runs, x, rfl, state, clock, quiet⟩ := execCutFollowTimeout_due service cut claimless long
    have entered := enterCut_entered x 0
    refine ⟨_, runs, alters_of_answers (frame_execCutFollowTimeout (List.Subset.refl _) (frame_refl _ s)) runs, entered.state,
      entered.round_, entered.best, by rw [entered.entered, clock], fun q at_ recent => ?_⟩
    rw [same_events (enterCut_alters_of_cut state 0) (by decide), quiet q at_ recent]

end Sys2Proof.Proofs
end

section
/-! DEALs, BREAKs and CALLs (07_the_cut.md, R194, R195, R206 to R217, R221). -/

namespace Sys2Proof.Proofs

open Sys2Proof Sys2Proof.Machine Sys2Proof.Safety Sys2Proof.Laws

section Deals

variable {s : State} {p : Port} {m : List Byte}

/-! ## The dealer's DEAL -/

theorem execDealSend_due (service : inService s = true) (deals : s.cut.state = .dealer) (slot : s.clock.line.toNat % 9437184 = 9216) :
    ∃ t, execDealSend s = .next t ∧ t.cut.dealSeq = s.cut.dealSeq + 1 ∧ t.cut.state = .dealer := by
  have symbol : (s.clock.line.toNat % (16 * trickTicks) == symbolTicks) = true := beq_iff_eq.mpr slot
  refine ⟨_, congrArg Host.Outcome.next (whenDue_pos (by simp only [service, deals, symbol, beq_self_eq_true, Bool.and_self])), ?_⟩
  extract_lets s1 b
  have sent : Alters [.portA, .portB] s1 (dealOut (dealOut s1 .ta b) .tb b) :=
    frame_dealOut (List.Subset.refl _) (frame_dealOut (List.Subset.refl _) (frame_refl _ s1))
  rw [same_cut sent (by decide)]
  exact ⟨rfl, deals⟩

/-! ## The dealer-facing port -/

/-- What moving the dealer-facing port leaves of the clock (R207). -/
structure Faces (s t : State) (p : Port) (hops : Nat) : Prop where
  facing : t.clock.facing = some p
  hops_ : t.clock.hops = some hops
  counter : t.clock.counter = s.clock.counter
  age : t.clock.age = s.clock.age
  epoch : t.clock.epoch = s.clock.epoch

theorem moveFacing_faces (s : State) (p : Port) (hops : Nat) : Faces s (moveFacing s p hops) p hops := by
  unfold moveFacing
  extract_lets s1
  have kept : s1.clock.counter = s.clock.counter ∧ s1.clock.age = s.clock.age ∧ s1.clock.epoch = s.clock.epoch := by
    unfold s1
    split
    · simp [enterHoldover]
    · exact ⟨rfl, rfl, rfl⟩
  obtain ⟨counter, age, epoch⟩ := kept
  constructor
  all_goals rw [State.onPort_clock, State.onClock_clock]
  · exact counter
  · exact age
  · exact epoch

/-- A locked clock passes through Holdover when the dealer-facing port moves (Table 4.2). -/
theorem moveFacing_holdover {hops : Nat} {q : Port} (facing : s.clock.facing = some q) (moves : q ≠ p)
    (locked : s.clock.state = .disciplined ∨ s.clock.state = .acquiring) : (moveFacing s p hops).clock.state = .holdover := by
  have leaves : (s.clock.facing.isSome && s.clock.facing != some p && (s.clock.state == .disciplined || s.clock.state == .acquiring)) =
      true := by
    rw [facing]
    rcases locked with h | h <;> simp [h, moves]
  unfold moveFacing
  rw [if_pos leaves]
  dsimp only
  rw [State.onPort_clock, State.onClock_clock]
  simp [enterHoldover]

theorem execDealerFacingChange_due (facing : s.clock.facing = some p) (follows : s.cut.state = .following)
    (end_ : s.clock.line.toNat % 9437184 = 0) (missed : (s.port p).dealSeen = false) (seen : (s.port p.other).dealSeen = true) :
    execDealerFacingChange s = .next (tallyAfter s (moveFacing s p.other (byteAt s.cut.lastDeal 13))) := by
  have interval : (s.clock.line.toNat % (16 * trickTicks) == 0) = true := beq_iff_eq.mpr end_
  unfold execDealerFacingChange
  rw [facing]
  exact congrArg Host.Outcome.next (whenDue_pos (by simp only [follows, interval, missed, seen, Bool.not_false, beq_self_eq_true, Bool.and_self]))

theorem execDealerFacingChange_seen (facing : s.clock.facing = some p) (seen : (s.port p).dealSeen = true) :
    execDealerFacingChange s = .next s := by
  unfold execDealerFacingChange
  rw [facing]
  exact congrArg Host.Outcome.next (whenDue_neg (by simp [seen]))

/-! ## A DEAL accepted -/

theorem dealBlocks_alters (s : State) (lo hi : BitVec 16) : Alters [.portA, .portB, .cut, .tables] s (dealBlocks s lo hi) :=
  frame_dealBlocks (List.Subset.refl _) (frame_refl _ s)

/-- What an accepted DEAL leaves of the cut (R206, R214). -/
structure DealTaken (s t : State) (m : List Byte) : Prop where
  state : t.cut.state = .following
  silence : t.cut.silence = s.clock.age
  lastDeal : t.cut.lastDeal = m
  lastDealAt : t.cut.lastDealAt = some s.clock.age

theorem acceptDeal_taken (s : State) (p : Port) (m : List Byte) : DealTaken s (acceptDeal s p m) m ∧
    (s.cut.state ≠ .following → Faces s (acceptDeal s p m) p (byteAt m 13)) := by
  unfold acceptDeal
  extract_lets old hops rank die node seq fresh s1 s2 first s3 s4 s5 s6 s7 q s8
  have ports1 : Alters [.portA, .portB] s s1 := by
    unfold s1
    split
    · exact frame_State_onPort (by decide) (frame_State_onPort (by decide) (frame_refl _ s))
    · exact frame_refl _ s
  have ports2 : Alters [.portA, .portB] s s2 := frame_State_onPort (by decide) ports1
  have clock2 : s2.clock = s.clock := same_clock ports2 (by decide)
  have cut2 : s2.cut = s.cut := same_cut ports2 (by decide)
  have age3 : s3.clock.age = s2.clock.age := by
    unfold s3
    split
    · exact (moveFacing_faces s2 p hops).age
    · split <;> rfl
  have clock4 : s4.clock = s3.clock := by
    unfold s4
    split
    · exact same_clock (dealBlocks_alters ..) (by decide)
    · rfl
  have ports7 : Alters [.portA, .portB] s6 s7 := by
    unfold s7
    split
    · exact frame_State_onPort (by decide) (frame_refl _ s6)
    · exact frame_refl _ s6
  have ports8 : Alters [.portA, .portB] s6 s8 := by
    unfold s8
    split
    · exact ports7
    · exact frame_passCut (by decide) ports7
  have cut : (tallyAfter old s8).cut = s6.cut := (tallyAfter_cut old).trans (same_cut ports8 (by decide))
  have clock : (tallyAfter old s8).clock = s3.clock := by
    rw [tallyAfter_clock, same_clock ports8 (by decide)]
    exact clock4
  have age : s4.clock.age = s.clock.age := by rw [clock4, age3, clock2]
  refine ⟨?_, fun waits => ?_⟩
  · constructor
    all_goals rw [cut]
    · rfl
    · exact age
    · rfl
    · exact congrArg some age
  · have starts : (first || facingDead s2) = true := by
      have other : first = true := by simpa [first, cut2] using waits
      rw [other, Bool.true_or]
    have moved : s3 = moveFacing s2 p hops := if_pos starts
    have faces := moveFacing_faces s2 p hops
    rw [← moved] at faces
    constructor
    all_goals rw [clock]
    · exact faces.facing
    · exact faces.hops_
    · rw [faces.counter, clock2]
    · rw [faces.age, clock2]
    · rw [faces.epoch, clock2]

/-- The DEAL is of the chip's own dealer and epoch (R217). -/
def ownDeal (s : State) (m : List Byte) : Bool :=
  fieldAt m 2 8 == dealerDie s && byteAt m 12 == dealerEpoch s && s.cut.dealer.isSome

theorem ownDeal_setNbr (fwd : Nat) : ownDeal (setNbr s p fwd) m = ownDeal s m := by
  simp only [ownDeal, dealerDie, dealerEpoch, setNbr_cut, setNbr_clock]

/-- A good DEAL on an open link, by the state of the cut (Table 7.3). -/
theorem execDeal_open (good : cutOk 4 m = true) (service : inService s = true) (near : byteAt m 13 ≤ 64)
    (open_ : (s.port p).blocked = false) (free : (s.port p).held = false) :
    (s.cut.state = .waiting → execDeal p m s = .next (acceptDeal (setNbr s p (fieldAt m 19 2)) p m)) ∧
    (s.cut.state = .following → ownDeal s m = true → execDeal p m s = .next (acceptDeal (setNbr s p (fieldAt m 19 2)) p m)) ∧
    (s.cut.state = .following ∨ s.cut.state = .dealer → ownDeal s m = false →
      execDeal p m s = .next (foreignDeal (setNbr s p (fieldAt m 19 2)) p m)) := by
  have link : ¬ (((setNbr s p (fieldAt m 19 2)).port p).blocked || ((setNbr s p (fieldAt m 19 2)).port p).held) = true := by
    rw [setNbr, State.onPort_port]
    simp [open_, free]
  have own := ownDeal_setNbr (s := s) (p := p) (m := m) (fieldAt m 19 2)
  have cut := setNbr_cut (s := s) (p := p) (fieldAt m 19 2)
  unfold execDeal
  rw [if_neg (by simp [good]), whenDue_pos service]
  generalize setNbr s p (fieldAt m 19 2) = x at link own cut ⊢
  dsimp only
  rw [if_neg (Nat.not_lt.mpr near), if_neg link]
  change ownDeal x m = ownDeal s m at own
  refine ⟨fun waits => ?_, fun follows mine => ?_, fun running foreign => ?_⟩
  · rw [cut, waits]
  · rw [cut, follows]
    rw [mine] at own
    exact congrArg Host.Outcome.next (if_pos (by rw [← cut]; exact own))
  · rw [foreign] at own
    have other := Bool.eq_false_iff.mp own
    rw [cut]
    rcases running with state | state
    · rw [state]
      exact congrArg Host.Outcome.next (if_neg (by rw [← cut]; exact other))
    · rw [state]
      exact congrArg Host.Outcome.next (if_neg (by rw [← cut]; exact other))

theorem execDeal_far (good : cutOk 4 m = true) (service : inService s = true) (far : 64 < byteAt m 13) :
    execDeal p m s = .next (raise (setNbr s p (fieldAt m 19 2)) 0x0605 (portSrc p) (slice m 13 1)) := by
  unfold execDeal
  rw [if_neg (by simp [good])]
  exact congrArg Host.Outcome.next ((whenDue_pos service).trans (if_pos far))

/-- A foreign DEAL starts a cut in round 0 (R217). -/
theorem foreignDeal_entered (s : State) (p : Port) (m : List Byte) : ∃ x, CutEntered x (foreignDeal s p m) 0 := ⟨_, enterCut_entered ..⟩

/-! ## BREAK and CALL -/

/-- A BREAK not seen yet at a chip that follows or deals (R213). -/
theorem execBreak_fresh (good : cutOk 6 m = true) (service : inService s = true) (linked : s.cut.state = .following ∨ s.cut.state = .dealer)
    (fresh : ∀ x ∈ s.cut.breakSeen, x.1.toNat ≠ fieldAt m 10 2 ∨ x.2.1.toNat ≠ byteAt m 1) :
    ∃ x, execBreak p m s = .next (tallyAfter x (breakApply x)) ∧ Alters [.portA, .portB, .cut] s x ∧ x.cut.state = s.cut.state := by
  unfold execBreak
  rw [if_neg (by simp [good]), whenDue_pos service]
  extract_lets node e live s1 t
  have unseen : ¬ (live.any fun b => b.1 == node && b.2.1 == e) = true := by
    simp only [List.any_eq_true, Bool.and_eq_true, beq_iff_eq, not_exists, not_and]
    rintro x mem named same
    rcases fresh x (List.mem_filter.mp mem).1 with h | h
    · exact h (by rw [named]; exact Nat.mod_eq_of_lt (fieldAt_lt m 10 2))
    · exact h (by rw [same]; exact Nat.mod_eq_of_lt (byteAt_lt m 1))
  have state : s1.cut.state = s.cut.state := by
    unfold s1
    rw [passCut_cut]
    rfl
  have deals : followsOrDeals s1 = true := by
    unfold followsOrDeals
    rw [state]
    rcases linked with h | h <;> rw [h] <;> rfl
  rw [if_neg unseen, if_pos deals]
  exact ⟨s1, rfl, frame_passCut (by decide) (frame_State_onCut (by decide) (frame_refl _ s)), state⟩

theorem breakApply_fields (s : State) : (∀ q, ((breakApply s).port q).blocked = false ∧ ((breakApply s).port q).held = false) ∧
    (breakApply s).tables.flushDue = true ∧ (breakApply s).cut.state = s.cut.state := by
  refine ⟨fun q => ?_, rfl, rfl⟩
  cases q <;> exact ⟨rfl, rfl⟩

theorem sendCut_links (s : State) (p q : Port) (body : List Byte) : ((sendCut s p body).port q).blocked = (s.port q).blocked ∧
    ((sendCut s p body).port q).held = (s.port q).held := by
  unfold sendCut
  split
  · cases p <;> cases q <;> exact ⟨rfl, rfl⟩
  · exact ⟨rfl, rfl⟩

theorem tallyAfter_links (old s : State) (q : Port) : ((tallyAfter old s).port q).blocked = (s.port q).blocked ∧
    ((tallyAfter old s).port q).held = (s.port q).held := by
  unfold tallyAfter
  split
  · split
    · exact ⟨rfl, rfl⟩
    · exact sendCut_links ..
  · exact ⟨rfl, rfl⟩

/-- A CALL not seen yet outside a cut (R217). -/
theorem execCall_fresh (good : cutOk 5 m = true) (service : inService s = true) (calm : s.cut.state ≠ .cut)
    (fresh : ∀ x ∈ s.cut.callSeen, x.1.toNat ≠ fieldAt m 2 8 ∨ x.2.toNat ≠ byteAt m 1) :
    ∃ x, execCall p m s = .next (enterCut x 0) ∧ Alters [.portA, .portB, .cut] s x := by
  unfold execCall
  rw [if_neg (by simp [good]), whenDue_pos service]
  extract_lets key s1 s2
  have unseen : ¬ s1.cut.callSeen.contains key = true := by
    simp only [List.contains_iff_mem]
    intro mem
    rcases fresh key mem with h | h
    · exact h (Nat.mod_eq_of_lt (fieldAt_lt m 2 8))
    · exact h (Nat.mod_eq_of_lt (byteAt_lt m 1))
  have state : s2.cut.state = s.cut.state := by
    unfold s2
    rw [passCut_cut]
    rfl
  have outside : ¬ (s2.cut.state == .cut && s2.cut.round == 0) = true := by simp [state, calm]
  rw [if_neg unseen, if_neg outside]
  exact ⟨s2, rfl, frame_passCut (by decide) (frame_State_onCut (by decide) (frame_silenceRestart (by decide) (frame_refl _ s)))⟩

/-! ## Messages that leave -/

/-- A message of 58 bytes or less takes at most two payload symbols of a table of 464 bits or more (R230). -/
theorem cutSymbols_le {b len : Nat} (wide : 464 ≤ b) (short : len ≤ 58) : 2 + (8 * (len + 4) + max b 1 - 1) / max b 1 ≤ 4 := by
  have many : max b 1 = b := by omega
  rw [many]
  have bound : (8 * (len + 4) + b - 1) / b < 3 := Nat.div_lt_of_lt_mul (by omega)
  omega

theorem execCutMessagePassOn_due {x : Tick × List Byte} (waits : (s.port p).llOut.find? (fun x => byteAt x.2 0 == 3) = some x)
    (symbol : atSymbol s = true) (service : inService s = true) (idle : (s.port p).tx = none) (carrying : carries (s.port p) = true)
    (come : x.1.toNat ≤ s.clock.line.toNat) (room : ∀ n, n ≤ 4 → maySpan s p n = true)
    (wide : 464 ≤ tableB ((s.port p).txTable (s.port p).txSlot)) (short : x.2.length ≤ 58) :
    ∃ t, execCutMessagePassOn p s = .next t ∧ Alters [.portA, .portB, .announce] s t ∧
      (t.port p).llOut = (s.port p).llOut.erase x ∧ t.port p.other = s.port p.other ∧
      ∃ f, (t.port p).tx = some f ∧ f.frame.payload = x.2 ∧ f.kind = .trump ∧ f.sent = 0 := by
  unfold execCutMessagePassOn
  extract_lets q b
  have found : q.llOut.find? (fun x => byteAt x.2 0 == 3) = some x := waits
  rw [found]
  dsimp only
  have span := room _ (cutSymbols_le (b := b) wide short)
  have due : (atSymbol s && inService s && q.tx.isNone && carries q && decide (x.1.toNat ≤ s.clock.line.toNat) && maySpan s p (2 + (8 * (x.2.length + 4) + max b 1 - 1) / max b 1)) = true := by
    simp only [symbol, service, q, idle, carrying, come, span, decide_true, Option.isNone_none, Bool.and_self]
  rw [whenDue_pos due]
  refine ⟨_, rfl, frame_State_onPort (by decide) (frame_State_onAnnounce (by decide) (frame_refl _ s)), ?_⟩
  simp only [State.onPort_port, State.onPort_port_other, State.onAnnounce_port]
  exact ⟨trivial, trivial, _, rfl, rfl, rfl, rfl⟩

end Deals

/-- Settles O36. -/
theorem dealsBreaksAndCalls : Obligations.DealsBreaksAndCalls := by
  unfold Obligations.DealsBreaksAndCalls
  refine ⟨fun s service deals slot => ?_, fun p m s good service near open_ free => ⟨fun waits => ?_, fun follows known die epoch => ?_,
      fun running foreign => ?_⟩, fun p m s good service far => ?_,
    fun p s facing follows end_ => ⟨fun missed seen => ?_, execDealerFacingChange_seen facing⟩,
    fun p m s good service linked fresh => ?_, fun p m s good service calm fresh => ?_,
    fun p s m waits symbol service idle carrying come room wide short => ?_⟩
  · obtain ⟨t, runs, seq, state⟩ := execDealSend_due service deals slot
    exact ⟨t, runs, alters_of_answers (frame_execDealSend (List.Subset.refl _) (frame_refl _ s)) runs, seq, state⟩
  · obtain ⟨accepts, _, _⟩ := execDeal_open (p := p) good service near open_ free
    obtain ⟨taken, faces⟩ := acceptDeal_taken (setNbr s p (fieldAt m 19 2)) p m
    have faced := faces (by rw [setNbr_cut, waits]; decide)
    refine ⟨_, accepts waits, taken.state, faced.facing, faced.hops_, ?_, taken.lastDeal, ?_, ?_⟩
    · rw [taken.silence, setNbr_clock]
    · rw [faced.counter, setNbr_clock]
    · rw [faced.epoch, setNbr_clock]
  · obtain ⟨_, accepts, _⟩ := execDeal_open (p := p) good service near open_ free
    obtain ⟨taken, _⟩ := acceptDeal_taken (setNbr s p (fieldAt m 19 2)) p m
    have own : ownDeal s m = true := by simp [ownDeal, die, epoch, Option.isSome_iff_ne_none, known]
    refine ⟨_, accepts follows own, taken.state, ?_, taken.lastDeal, ?_⟩
    · rw [taken.silence, setNbr_clock]
    · rw [taken.lastDealAt, setNbr_clock]
  · obtain ⟨_, _, merges⟩ := execDeal_open (p := p) good service near open_ free
    have other : ownDeal s m = false := by
      rcases foreign with h | h <;> simp [ownDeal, h]
    obtain ⟨x, entered⟩ := foreignDeal_entered (setNbr s p (fieldAt m 19 2)) p m
    exact ⟨_, merges running other, frame_foreignDeal (by decide) (frame_setNbr (by decide) (frame_refl _ s)), entered.state,
      entered.round_, entered.provisional⟩
  · exact ⟨_, execDeal_far good service far, frame_raise (by decide) (frame_setNbr (by decide) (frame_refl _ s))⟩
  · have faces := moveFacing_faces s p.other (byteAt s.cut.lastDeal 13)
    refine ⟨_, execDealerFacingChange_due facing follows end_ missed seen, ?_⟩
    rw [tallyAfter_clock]
    exact ⟨faces.facing, faces.hops_, moveFacing_holdover facing (by cases p <;> decide), faces.counter⟩
  · obtain ⟨x, runs, alters, state⟩ := execBreak_fresh (p := p) good service linked fresh
    obtain ⟨ports, flush, same⟩ := breakApply_fields x
    have links := tallyAfter_links x (breakApply x)
    refine ⟨_, runs, frame_tallyAfter (by decide) (frame_breakApply (by decide) (frame_mono (by decide) alters)), ?_, ?_, ?_, ?_, ?_, ?_⟩
    · exact (links .ta).1.trans (ports .ta).1
    · exact (links .ta).2.trans (ports .ta).2
    · exact (links .tb).1.trans (ports .tb).1
    · exact (links .tb).2.trans (ports .tb).2
    · rw [tallyAfter_tables, flush]
    · rw [tallyAfter_cut, same, state]
  · obtain ⟨x, runs, alters⟩ := execCall_fresh (p := p) good service calm fresh
    have entered := enterCut_entered x 0
    exact ⟨_, runs, frame_enterCut (by decide) (frame_mono (by decide) alters), entered.state, entered.round_⟩
  · obtain ⟨t, runs, alters, out, other, f, tx, payload, kind, sent⟩ :=
      execCutMessagePassOn_due waits symbol service idle carrying come room wide short
    exact ⟨t, f, runs, alters, tx, payload, kind, sent, out, other⟩

end Sys2Proof.Proofs
end

section
/-! Reading what was written (09_tables_and_learning.md, 11_memory_banks.md): byte strings, table entries, the walks that free entries, and
sparse maps. -/

namespace Sys2Proof.Proofs

open Sys2Proof Sys2Proof.Machine Sys2Proof.Safety Sys2Proof.Laws

/-! ## Byte strings -/

@[simp] theorem beBytes_length (n v : Nat) : (beBytes n v).length = n := by
  induction n with
  | zero => rfl
  | succ n ih => rw [beBytes, List.length_cons, ih]

theorem foldl_beBytes (n v a : Nat) : (beBytes n v).foldl (fun a b => a * 256 + b.toNat) a = a * 256 ^ n + v % 256 ^ n := by
  induction n generalizing a with
  | zero => simp [beBytes, Nat.mod_one]
  | succ n ih =>
    rw [beBytes, List.foldl_cons, ih]
    have shift : v >>> (8 * n) = v / 256 ^ n := by rw [Nat.shiftRight_eq_div_pow, Nat.pow_mul]
    have split : v % 256 ^ (n + 1) = v % 256 ^ n + 256 ^ n * (v / 256 ^ n % 256) := by rw [Nat.pow_succ, Nat.mod_mul]
    rw [BitVec.toNat_ofNat, shift, split]
    ring

theorem beNat_beBytes (n v : Nat) : beNat (beBytes n v) = v % 256 ^ n := by
  rw [beNat, foldl_beBytes, Nat.zero_mul, Nat.zero_add]

/-! ## Memory -/

section Mem

variable {m : Memory} {a b n : Nat} {bs : List Byte}

theorem readN_congr {m' : Memory} (h : ∀ k, a ≤ k → k < a + n → cellsRead m'.cells k = cellsRead m.cells k) :
    m'.readN a n = m.readN a n := by
  induction n generalizing a with
  | zero => rfl
  | succ n ih =>
    rw [Memory.readN, Memory.readN, h a (Nat.le_refl a) (by omega)]
    exact congrArg _ (ih fun k low high => h k (by omega) (by omega))

theorem readN_writeN (h : m.wf = true) (inside : a + bs.length ≤ 0x1000000) : (m.writeN a bs).readN a bs.length = bs := by
  induction bs generalizing m a with
  | nil => rfl
  | cons v bs ih =>
    rw [List.length_cons] at inside
    have first : cellsRead ((m.write a v).writeN (a + 1) bs).cells a = v := by
      rw [read_writeN_outside (write_wf h) (.inl (by omega)), read_write h (by omega), if_pos rfl]
    rw [Memory.writeN, List.length_cons, Memory.readN, first, ih (write_wf h) (by omega)]

end Mem

section Entries

variable {m : Memory} {a b : Nat} {e : Entry}

/-- An entry written reads back; its write clears any poison (R342). -/
theorem entry_setEntry (h : m.wf = true) (inside : a + 16 ≤ 0x1000000) : (m.setEntry a e).entry a = e := by
  have unpoisoned : ¬ ((m.setEntry a e).poison.contains a || (m.setEntry a e).poison.contains (a + 8)) = true := by
    simp [Memory.setEntry]
  have bytes : (m.writeN a (beBytes 16 e.toNat)).readN a 16 = beBytes 16 e.toNat := by
    have written := readN_writeN (bs := beBytes 16 e.toNat) h (by simpa using inside)
    rwa [beBytes_length] at written
  have same : (m.setEntry a e).readN a 16 = (m.writeN a (beBytes 16 e.toNat)).readN a 16 := readN_congr fun _ _ _ => rfl
  rw [Memory.entry, if_neg unpoisoned, same, bytes, beNat_beBytes, Nat.mod_eq_of_lt (by simpa using e.isLt), BitVec.ofNat_toNat,
    BitVec.setWidth_eq]

theorem cellsRead_setEntry_outside (h : m.wf = true) (apart : b < a ∨ a + 16 ≤ b) :
    cellsRead (m.setEntry a e).cells b = cellsRead m.cells b :=
  read_writeN_outside (m := m) h (by rw [beBytes_length]; exact apart)

theorem entry_setEntry_other (h : m.wf = true) (apart : b + 16 ≤ a ∨ a + 16 ≤ b) : (m.setEntry a e).entry b = m.entry b := by
  have bytes : (m.setEntry a e).readN b 16 = m.readN b 16 :=
    readN_congr fun k low high => cellsRead_setEntry_outside h (by omega)
  have poison : ∀ w, w ≠ a → w ≠ a + 8 → (m.setEntry a e).poison.contains w = m.poison.contains w := by
    intro w first second
    simp only [Memory.setEntry, List.contains_eq_mem, List.mem_filter]
    simp [first, second]
  rw [Memory.entry, Memory.entry, bytes, poison b (by omega) (by omega), poison (b + 8) (by omega) (by omega)]

end Entries

/-! ## Walks that free entries of a hash table -/

section FreeWalk

variable {p : Port} {c : Entry → Bool} {m : Memory} {b : Nat} {ls : List HLoc}

/-- The memory after a visit of a place: an entry of a way that the condition takes is written 0. -/
def freeAt (p : Port) (c : Entry → Bool) (m : Memory) : HLoc → Memory
  | .way b w => if c (m.entry (wayAddr p b w)) then m.setEntry (wayAddr p b w) 0 else m
  | .ovf _ => m

theorem freeAt_way (p : Port) (c : Entry → Bool) (m : Memory) (b w : Nat) :
    freeAt p c m (.way b w) = if c (m.entry (wayAddr p b w)) then m.setEntry (wayAddr p b w) 0 else m := rfl

theorem freeAt_wf (h : m.wf = true) (l : HLoc) : (freeAt p c m l).wf = true := by
  cases l with
  | ovf i => exact h
  | way b w =>
    rw [freeAt_way]
    split
    · exact setEntry_wf h
    · exact h

theorem freeWalk_wf (h : m.wf = true) : (ls.foldl (freeAt p c) m).wf = true := by
  induction ls generalizing m with
  | nil => exact h
  | cons l ls ih => exact ih (freeAt_wf h l)

theorem wayAddr_eq (p : Port) (b w : Nat) : wayAddr p b w = wayAddr p b 0 + 16 * w := by
  unfold wayAddr
  omega

theorem wayAddr_inside (p : Port) {b : Nat} (h : b < 8192) : wayAddr p b 0 + 64 ≤ 0x200000 := by
  unfold wayAddr
  cases p <;> dsimp only <;> omega

/-- A place of a bucket: one of its four ways, or an overflow index. -/
def inBucket (b : Nat) : HLoc → Prop
  | .way b' w => b' = b ∧ w < 4
  | .ovf _ => True

/-- Bytes outside a bucket's ways are not touched. -/
theorem freeWalk_outside (h : m.wf = true) (inside : ∀ l ∈ ls, inBucket b l) {a : Nat}
    (apart : a < wayAddr p b 0 ∨ wayAddr p b 0 + 64 ≤ a) :
    cellsRead (ls.foldl (freeAt p c) m).cells a = cellsRead m.cells a := by
  induction ls generalizing m with
  | nil => rfl
  | cons l ls ih =>
    rw [List.foldl_cons, ih (freeAt_wf h l) fun k mem => inside k (List.mem_cons_of_mem l mem)]
    cases l with
    | ovf i => rfl
    | way b' w =>
      obtain ⟨rfl, few⟩ := inside _ (List.mem_cons_self ..)
      rw [freeAt_way]
      split
      · have at_ := wayAddr_eq p b' w
        exact cellsRead_setEntry_outside h (by omega)
      · rfl

/-- An entry outside a bucket's ways is not touched. -/
theorem freeWalk_entry_outside (h : m.wf = true) (inside : ∀ l ∈ ls, inBucket b l) {a : Nat}
    (apart : a + 16 ≤ wayAddr p b 0 ∨ wayAddr p b 0 + 64 ≤ a) : (ls.foldl (freeAt p c) m).entry a = m.entry a := by
  induction ls generalizing m with
  | nil => rfl
  | cons l ls ih =>
    rw [List.foldl_cons, ih (freeAt_wf h l) fun k mem => inside k (List.mem_cons_of_mem l mem)]
    cases l with
    | ovf i => rfl
    | way b' w =>
      obtain ⟨rfl, few⟩ := inside _ (List.mem_cons_self ..)
      rw [freeAt_way]
      split
      · have at_ := wayAddr_eq p b' w
        exact entry_setEntry_other h (by omega)
      · rfl

/-- A visit of one way of a bucket, read at a way of it. -/
theorem freeAt_entry (h : m.wf = true) (known : b < 8192) {w w' : Nat} (few : w < 4) (few' : w' < 4) :
    (freeAt p c m (.way b w')).entry (wayAddr p b w) =
      if w' = w ∧ c (m.entry (wayAddr p b w)) = true then 0 else m.entry (wayAddr p b w) := by
  have at_ := wayAddr_eq p b w
  have at' := wayAddr_eq p b w'
  have bound := wayAddr_inside p known
  by_cases same : w' = w
  · subst same
    simp only [freeAt_way, true_and]
    split
    · exact entry_setEntry h (by omega)
    · rfl
  · rw [if_neg fun both => same both.1, freeAt_way]
    split
    · exact entry_setEntry_other h (by omega)
    · rfl

/-- Each way of the bucket that the walk visits is freed when the condition takes its entry, and kept otherwise. -/
theorem freeWalk_entry (h : m.wf = true) (inside : ∀ l ∈ ls, inBucket b l) (known : b < 8192) {w : Nat} (few : w < 4) :
    (ls.foldl (freeAt p c) m).entry (wayAddr p b w) =
      if HLoc.way b w ∈ ls ∧ c (m.entry (wayAddr p b w)) = true then 0 else m.entry (wayAddr p b w) := by
  induction ls generalizing m with
  | nil => simp
  | cons l ls ih =>
    rw [List.foldl_cons, ih (freeAt_wf h l) fun k mem => inside k (List.mem_cons_of_mem l mem)]
    cases l with
    | ovf i =>
      have member : HLoc.way b w ∈ HLoc.ovf i :: ls ↔ HLoc.way b w ∈ ls :=
        ⟨fun mem => (List.mem_cons.mp mem).resolve_left nofun, List.mem_cons_of_mem _⟩
      simp only [member]
      rfl
    | way b' w' =>
      obtain ⟨rfl, few'⟩ := inside _ (List.mem_cons_self ..)
      rw [freeAt_entry h known few few']
      by_cases here : w' = w ∧ c (m.entry (wayAddr p b' w)) = true
      · obtain ⟨rfl, takes⟩ := here
        simp [takes]
      · rw [if_neg here]
        have member : HLoc.way b' w ∈ HLoc.way b' w' :: ls ∧ c (m.entry (wayAddr p b' w)) = true ↔
            HLoc.way b' w ∈ ls ∧ c (m.entry (wayAddr p b' w)) = true := by
          constructor
          · rintro ⟨mem, takes⟩
            rcases List.mem_cons.mp mem with same | later
            · cases same
              exact absurd ⟨rfl, takes⟩ here
            · exact ⟨later, takes⟩
          · exact fun ⟨mem, takes⟩ => ⟨List.mem_cons_of_mem _ mem, takes⟩
        simp only [member]

/-- A walk of which every visit frees as `freeAt` does. -/
theorem each_freeWalk {f : HLoc → State → State} {s : State} {I : State → Prop} (keeps : ∀ l x, I x → I (f l x))
    (visit : ∀ l x, I x → (f l x).mem = freeAt p c x.mem l) (start : I s) : (s.each ls f).mem = ls.foldl (freeAt p c) s.mem := by
  induction ls generalizing s with
  | nil => rfl
  | cons l ls ih => rw [each_cons, List.foldl_cons, ih (keeps l s start), visit l s start]

theorem mem_bucketLocs_way (s : State) (p : Port) (b : Nat) {w : Nat} (few : w < 4) : HLoc.way b w ∈ bucketLocs s p b :=
  List.mem_append_left _ (List.mem_map_of_mem (List.mem_range.mpr few))

theorem inBucket_of_mem {s : State} {l : HLoc} (h : l ∈ bucketLocs s p b) : inBucket b l := by
  rcases List.mem_append.mp h with ways | rest
  · obtain ⟨w, mem, rfl⟩ := List.mem_map.mp ways
    exact ⟨rfl, List.mem_range.mp mem⟩
  · obtain ⟨e, -, rfl⟩ := List.mem_map.mp rest
    trivial

end FreeWalk

/-! ## Sparse maps -/

section Sparse

variable {α : Type} {l : List (Nat × α)} {k k' : Nat} {v : α}

theorem sparseGet_cons (e : Nat × α) : sparseGet (e :: l) k = if e.1 = k then some e.2 else sparseGet l k := by
  unfold sparseGet
  by_cases h : e.1 = k <;> simp [h]

theorem sparseGet_map (f : α → α) : sparseGet (l.map fun e => (e.1, f e.2)) k = (sparseGet l k).map f := by
  induction l with
  | nil => rfl
  | cons e l ih =>
    rw [List.map_cons, sparseGet_cons, sparseGet_cons, ih]
    split <;> rfl

theorem sparseGet_sparseSet : sparseGet (sparseSet k v l) k' = if k' = k then some v else sparseGet l k' := by
  induction l with
  | nil =>
    rw [sparseSet, sparseGet_cons]
    simp only [eq_comm]
  | cons e l ih =>
    unfold sparseSet
    split
    · rw [sparseGet_cons]
      simp only [eq_comm]
    · split
      · next same =>
        have same : k = e.1 := by simpa using same
        rw [sparseGet_cons, sparseGet_cons]
        by_cases h : k' = k
        · simp [h]
        · rw [if_neg (Ne.symm h), if_neg h, if_neg (by rw [← same]; exact Ne.symm h)]
      · next other =>
        have other : k ≠ e.1 := by simpa using other
        rw [sparseGet_cons, sparseGet_cons, ih]
        by_cases h : e.1 = k'
        · rw [if_pos h, if_pos h, if_neg (by rw [← h]; exact Ne.symm other)]
        · rw [if_neg h, if_neg h]

theorem sparseGet_sparseDel : sparseGet (sparseDel l k) k' = if k' = k then none else sparseGet l k' := by
  induction l with
  | nil => simp [sparseDel, sparseGet]
  | cons e l ih =>
    rw [sparseGet_cons, sparseDel, List.filter_cons]
    change sparseGet (if e.1 != k then e :: sparseDel l k else sparseDel l k) k' = _
    by_cases drop : e.1 = k
    · rw [if_neg (by simp [drop]), ih]
      by_cases h : k' = k
      · rw [if_pos h, if_pos h]
      · rw [if_neg h, if_neg h, if_neg (by rw [drop]; exact Ne.symm h)]
    · rw [if_pos (by simp [drop]), sparseGet_cons, ih]
      by_cases h : e.1 = k'
      · rw [if_pos h, if_pos h, if_neg (by rw [← h]; exact drop)]
      · rw [if_neg h, if_neg h]

end Sparse

end Sys2Proof.Proofs
end

section
/-! The topology flush and its reclaim pass (R277, R278), aging, refills and the drain of the table epoch (09_tables_and_learning.md). -/

namespace Sys2Proof.Proofs

open Sys2Proof Sys2Proof.Machine Sys2Proof.Safety Sys2Proof.Laws

/-! ## Freeing one place -/

theorem setHash_mem (s : State) (p : Port) (l : HLoc) : (setHash s p l 0).mem = freeAt p (fun _ => true) s.mem l := by
  cases l with
  | way b w => rfl
  | ovf i => exact State.onPipe_mem ..

theorem setHash_gen (s : State) (p p' : Port) (l : HLoc) (e : Entry) : ((setHash s p l e).pipe p').gen = (s.pipe p').gen := by
  cases l with
  | way b w => cases p' <;> rfl
  | ovf i => cases p <;> cases p' <;> rfl

theorem setHash_pipe_other (s : State) (p : Port) (l : HLoc) (e : Entry) : (setHash s p l e).pipe p.other = s.pipe p.other := by
  cases l with
  | way b w => cases p <;> rfl
  | ovf i => exact onPipe_pipe_other ..

/-! ## The reclaim pass (R278) -/

/-- A learned entry of the generation before. -/
def reclaims (gen : Bool) (e : Entry) : Bool := heValid e && !heStatic e && heGen e != gen

theorem reclaims_iff (gen : Bool) (e : Entry) : reclaims gen e = true ↔ heValid e = true ∧ heStatic e = false ∧ heGen e ≠ gen := by
  simp [reclaims, and_assoc]

section Reclaim

variable {s : State} {p : Port} {b : Nat}

theorem reclaimBucket_gen (p' : Port) : ((reclaimBucket s p b).pipe p').gen = (s.pipe p').gen := by
  refine each_keeps (P := fun x => (x.pipe p').gen = (s.pipe p').gen) (fun l x kept => ?_) rfl
  dsimp only
  split
  · exact (setHash_gen ..).trans kept
  · exact kept

theorem reclaimBucket_mem : (reclaimBucket s p b).mem = (bucketLocs s p b).foldl (freeAt p (reclaims (s.pipe p).gen)) s.mem := by
  refine each_freeWalk (I := fun x => (x.pipe p).gen = (s.pipe p).gen) (fun l x kept => ?_) (fun l x kept => ?_) rfl
  · dsimp only
    split
    · exact (setHash_gen ..).trans kept
    · exact kept
  · cases l with
    | way a w =>
      rw [freeAt_way, ← kept]
      dsimp only [hashAt]
      by_cases takes : reclaims (x.pipe p).gen (x.mem.entry (wayAddr p a w)) = true
      · exact (congrArg State.mem (if_pos takes)).trans (if_pos takes).symm
      · exact (congrArg State.mem (if_neg takes)).trans (if_neg takes).symm
    | ovf i =>
      dsimp only
      split
      · exact State.onPipe_mem ..
      · rfl

theorem reclaimBucket_wf (wf : s.mem.wf = true) : (reclaimBucket s p b).mem.wf = true := by
  rw [reclaimBucket_mem]
  exact freeWalk_wf wf

theorem reclaimBucket_outside (wf : s.mem.wf = true) {a : Nat} (apart : a < wayAddr p b 0 ∨ wayAddr p b 0 + 64 ≤ a) :
    cellsRead (reclaimBucket s p b).mem.cells a = cellsRead s.mem.cells a := by
  rw [reclaimBucket_mem]
  exact freeWalk_outside wf (fun l mem => inBucket_of_mem mem) apart

theorem reclaimBucket_entry (wf : s.mem.wf = true) (known : b < 8192) {w : Nat} (few : w < 4) :
    (reclaimBucket s p b).mem.entry (wayAddr p b w) =
      if reclaims (s.pipe p).gen (s.mem.entry (wayAddr p b w)) = true then 0 else s.mem.entry (wayAddr p b w) := by
  rw [reclaimBucket_mem, freeWalk_entry wf (fun l mem => inBucket_of_mem mem) known few]
  simp only [mem_bucketLocs_way s p b few, true_and]

/-- The tables of the two pipelines lie apart. -/
theorem wayAddr_apart {p q : Port} (h : p ≠ q) (_known : b < 8192) {w : Nat} (few : w < 4) :
    wayAddr p b w + 16 ≤ wayAddr q b 0 ∨ wayAddr q b 0 + 64 ≤ wayAddr p b w := by
  unfold wayAddr
  cases p with
  | ta => cases q with
    | ta => exact absurd rfl h
    | tb => dsimp only; omega
  | tb => cases q with
    | ta => dsimp only; omega
    | tb => exact absurd rfl h

theorem reclaimBucket_entry_other {q : Port} (h : q ≠ p) (wf : s.mem.wf = true) (known : b < 8192) {w : Nat} (few : w < 4) :
    (reclaimBucket s p b).mem.entry (wayAddr q b w) = s.mem.entry (wayAddr q b w) := by
  rw [reclaimBucket_mem]
  exact freeWalk_entry_outside wf (fun l mem => inBucket_of_mem mem) (wayAddr_apart h known few)

end Reclaim

theorem reclaimPassVisit_frees {s : State} {b : Nat} (wf : s.mem.wf = true) (runs : s.tables.reclaim = some b)
    (served : inService s = true) (known : b < 8192) :
    ∃ t, exec .reclaimPassVisit s = .next t ∧ Alters [.tables, .mem] s t ∧ t.tables.reclaim = some (b + 1) ∧
      (∀ (p : Port) (w : Fin 4), t.mem.entry (wayAddr p b w) =
        (let e := s.mem.entry (wayAddr p b w)
         if heValid e = true ∧ heStatic e = false ∧ heGen e ≠ (s.pipe p).gen then 0 else e)) ∧
      (∀ a, (∀ p : Port, a < wayAddr p b 0 ∨ wayAddr p b 0 + 64 ≤ a) → cellsRead t.mem.cells a = cellsRead s.mem.cells a) := by
  have run : exec .reclaimPassVisit s =
      .next ((reclaimBucket (reclaimBucket s .ta b) .tb b).onTables fun t => { t with reclaim := some (b + 1) }) := by
    change execReclaimPassVisit s = _
    unfold execReclaimPassVisit
    rw [runs]
    exact congrArg Host.Outcome.next (whenDue_pos (by simp [served, known]))
  have wfA := reclaimBucket_wf (p := .ta) (b := b) wf
  refine ⟨_, run, alters_of_answers (frame_execReclaimPassVisit (List.Subset.refl _) (frame_refl _ s)) run, rfl, fun p w => ?_,
    fun a apart => ?_⟩
  · simp only [State.onTables_mem, ← reclaims_iff]
    cases p with
    | ta => rw [reclaimBucket_entry_other (by decide) wfA known w.isLt, reclaimBucket_entry wf known w.isLt]
    | tb =>
      rw [reclaimBucket_entry wfA known w.isLt, reclaimBucket_entry_other (by decide) wf known w.isLt, reclaimBucket_gen]
  · exact (reclaimBucket_outside wfA (apart .tb)).trans (reclaimBucket_outside wf (apart .ta))

/-! ## The topology flush (R277) -/

theorem topologyFlush_forgets {s : State} (due : atTrick s = true) (served : inService s = true) (flush : s.tables.flushDue = true)
    (idle : s.tables.reclaim = none) :
    ∃ t, exec .topologyFlush s = .next t ∧ Alters [.tables] s t ∧ t.tables.pa.gen = !s.tables.pa.gen ∧
      t.tables.pb.gen = !s.tables.pb.gen ∧ t.tables.pa.learned = 0 ∧ t.tables.pb.learned = 0 ∧ t.tables.reclaim = some 0 ∧
      t.tables.flushDue = false ∧ t.tables.prefixes = s.tables.prefixes.filter (fun e => prKind e != 1) ∧
      t.tables.staged = s.tables.staged ∧ t.tables.policers = s.tables.policers := by
  have run : exec .topologyFlush s = .next (invertEpoch (((s.onPipe .ta fun q => { q with gen := !q.gen, learned := 0 }).onPipe .tb
      fun q => { q with gen := !q.gen, learned := 0 }).onTables fun t =>
        { t with reclaim := some 0, flushDue := false, prefixes := t.prefixes.filter fun e => prKind e != 1 }) .topology) :=
    congrArg Host.Outcome.next (whenDue_pos (by simp [due, served, flush, idle]))
  refine ⟨_, run, alters_of_answers (frame_execTopologyFlush (List.Subset.refl _) (frame_refl _ s)) run, ?_⟩
  unfold invertEpoch
  simp only [State.onTables_tables]
  split <;> exact ⟨rfl, rfl, rfl, rfl, rfl, rfl, rfl, rfl, rfl⟩

theorem topologyFlush_idle {s : State} (idle : s.tables.flushDue = false ∨ s.tables.reclaim ≠ none ∨ atTrick s = false) :
    exec .topologyFlush s = .next s := by
  refine congrArg Host.Outcome.next (whenDue_neg ?_)
  rcases idle with none_ | busy | between
  · simp [none_]
  · simp [Option.isNone_eq_false_iff, Option.isSome_iff_ne_none.mpr busy]
  · simp [between]

/-- Settles O37: each row by its own rule; the pass frees by the walk over a bucket of each pipeline. -/
theorem topologyFlushForgetsWhatWasLearned : Obligations.TopologyFlushForgetsWhatWasLearned := by
  refine ⟨fun s due served flush idle => topologyFlush_forgets due served flush idle, fun s idle => topologyFlush_idle idle,
    fun s b wf runs served known => reclaimPassVisit_frees wf runs served known, fun s last => ?_⟩
  exact congrArg Host.Outcome.next (whenDue_pos (beq_iff_eq.mpr last))

/-! ## Aging (R274, R283) -/

section Aging

variable {s : State} {p : Port}

theorem countLearned_mem (d : Int) : (countLearned s p d).mem = s.mem := State.onPipe_mem ..

theorem freeHash_mem (l : HLoc) : (freeHash p l s).mem = freeAt p (fun _ => true) s.mem l := by
  unfold freeHash
  extract_lets kept s1
  split
  · exact countLearned_mem _ |>.trans (setHash_mem s p l)
  · exact setHash_mem s p l

theorem freeHash_pipe_other (l : HLoc) : (freeHash p l s).pipe p.other = s.pipe p.other := by
  unfold freeHash
  extract_lets kept s1
  split
  · exact (onPipe_pipe_other ..).trans (setHash_pipe_other s p l 0)
  · exact setHash_pipe_other s p l 0

/-- A walk that frees every place of a list. -/
theorem each_freeHash_mem (ls : List HLoc) : (s.each ls (freeHash p)).mem = ls.foldl (freeAt p fun _ => true) s.mem :=
  each_freeWalk (I := fun _ => True) (fun _ _ _ => trivial) (fun l _ _ => freeHash_mem l) trivial

variable {b : Nat} {takes : Entry → Bool}

/-- The places of a bucket whose entries a condition takes. -/
def takenLocs (s : State) (p : Port) (b : Nat) (takes : Entry → Bool) : List HLoc :=
  (bucketLocs s p b).filter fun l => takes (hashAt s p l)

theorem freeTaken_outside (wf : s.mem.wf = true) {a : Nat} (apart : a < wayAddr p b 0 ∨ wayAddr p b 0 + 64 ≤ a) :
    cellsRead (s.each (takenLocs s p b takes) (freeHash p)).mem.cells a = cellsRead s.mem.cells a := by
  rw [each_freeHash_mem]
  exact freeWalk_outside wf (fun l mem => inBucket_of_mem (List.mem_filter.mp mem).1) apart

theorem freeTaken_entry (wf : s.mem.wf = true) (known : b < 8192) {w : Nat} (few : w < 4) :
    (s.each (takenLocs s p b takes) (freeHash p)).mem.entry (wayAddr p b w) =
      if takes (s.mem.entry (wayAddr p b w)) = true then 0 else s.mem.entry (wayAddr p b w) := by
  unfold takenLocs
  rw [each_freeHash_mem, freeWalk_entry (b := b) wf (fun l mem => inBucket_of_mem (List.mem_filter.mp mem).1) known few]
  simp only [List.mem_filter, mem_bucketLocs_way s p b few, true_and, and_true]
  rfl

theorem agingScannerVisit_frees (wf : s.mem.wf = true) (served : inService s = true) (works : halted s 5 = false)
    (known : (s.pipe p).scan < 8192) (due : agingLimit s.straps.codes * 65536 ≤ since s (s.pipe p).scanAt) :
    ∃ t, exec (.agingScannerVisit p) s = .next t ∧ Alters [.tables, .mem] s t ∧
      (t.pipe p).scan = ((s.pipe p).scan + 1) % 8192 ∧ t.pipe p.other = s.pipe p.other ∧
      (∀ w : Fin 4, t.mem.entry (wayAddr p (s.pipe p).scan w) =
        (let e := s.mem.entry (wayAddr p (s.pipe p).scan w); if heValid e = true ∧ heExpired s e = true then 0 else e)) ∧
      (∀ a, (a < wayAddr p (s.pipe p).scan 0 ∨ wayAddr p (s.pipe p).scan 0 + 64 ≤ a) →
        cellsRead t.mem.cells a = cellsRead s.mem.cells a) := by
  have run : exec (.agingScannerVisit p) s = .next (agingVisit s p) :=
    congrArg Host.Outcome.next (whenDue_pos (by simp [served, works, due]))
  have visit : (agingVisit s p).mem =
      (s.each (takenLocs s p (s.pipe p).scan fun e => heValid e && heExpired s e) (freeHash p)).mem := State.onPipe_mem ..
  refine ⟨_, run, alters_of_answers (frame_execAgingScannerVisit (List.Subset.refl _) (frame_refl _ s)) run, ?_, ?_,
    fun w => ?_, fun a apart => ?_⟩
  · exact congrArg Pipe.scan (onPipe_pipe ..)
  · exact (onPipe_pipe_other ..).trans
      (each_keeps (P := fun x => x.pipe p.other = s.pipe p.other) (fun l x kept => (freeHash_pipe_other l).trans kept) rfl)
  · rw [visit, freeTaken_entry wf known w.isLt]
    simp only [Bool.and_eq_true]
  · rw [visit, freeTaken_outside wf apart]

theorem agingScannerVisit_idle (early : since s (s.pipe p).scanAt < agingLimit s.straps.codes * 65536) :
    exec (.agingScannerVisit p) s = .next s :=
  congrArg Host.Outcome.next (whenDue_neg (by simp [early]))

end Aging

theorem prefixOld_iff (now : Nat) (e : Entry) :
    prefixOld now e = true ↔ prKind e = 1 ∧ 8 ≤ (now + 65536 - prStamp e) % 65536 := by
  simp [prefixOld]

theorem learnedPrefixAging_keeps {s : State} (due : atTrick s = true) (served : inService s = true) (works : halted s 5 = false)
    (turn : trickNo s % 4096 = 0) :
    ∃ t, exec .learnedPrefixAging s = .next t ∧ Alters [.tables] s t ∧
      (∀ e, e ∈ t.tables.prefixes ↔ e ∈ s.tables.prefixes ∧ ¬ (prKind e = 1 ∧ 8 ≤ (prefixUnit s + 65536 - prStamp e) % 65536)) ∧
      t.tables.pa = s.tables.pa ∧ t.tables.pb = s.tables.pb ∧ t.tables.staged = s.tables.staged := by
  have run : exec .learnedPrefixAging s =
      .next (s.onTables fun t => { t with prefixes := t.prefixes.filter fun e => !prefixOld (prefixUnit s) e }) :=
    congrArg Host.Outcome.next (whenDue_pos (by simp [due, served, works, turn]))
  refine ⟨_, run, alters_of_answers (frame_execLearnedPrefixAging (List.Subset.refl _) (frame_refl _ s)) run, fun e => ?_, rfl, rfl, rfl⟩
  simp only [State.onTables_tables, List.mem_filter, ← prefixOld_iff, Bool.not_eq_true', Bool.not_eq_true]

/-! ## The refills (R261, R311) -/

theorem policerRefill_fills {s : State} (due : atTrick s = true) (served : inService s = true) :
    ∃ t, exec .policerRefill s = .next t ∧ Alters [.tables] s t ∧ t.tables.prefixes = s.tables.prefixes ∧
      ∀ i, policerAt t i = (let e := policerAt s i
        if poValid e = true then poSet e (min (poBurst e) (poTokens e + poRate e)) (poDrop e) else e) := by
  have run : exec .policerRefill s =
      .next (s.onTables fun t => { t with policers := t.policers.map fun e => (e.1, policerRefilled e.2) }) :=
    congrArg Host.Outcome.next (whenDue_pos (by simp [due, served]))
  have blank : policerRefilled 0 = 0 := by decide
  refine ⟨_, run, alters_of_answers (frame_execPolicerRefill (List.Subset.refl _) (frame_refl _ s)) run, rfl, fun i => ?_⟩
  change _ = policerRefilled (policerAt s i)
  unfold policerAt
  split
  · exact blank.symm
  · rw [State.onTables_tables, sparseGet_map policerRefilled]
    cases sparseGet s.tables.policers i with
    | none => exact blank.symm
    | some e => rfl

theorem shaperRefill_fills {s : State} (due : atTrick s = true) (served : inService s = true) (works : halted s 2 = false) :
    ∃ t, exec .shaperRefill s = .next t ∧ Alters [.queues] s t ∧ t.queues.frames = s.queues.frames ∧
      ∀ q v, sparseGet s.queues.settings q = some v → sparseGet t.queues.settings q =
        some { v with credit := if v.rate = 0 then v.credit else min 4352 (v.credit + 64 * v.rate.toNat) } := by
  have run : exec .shaperRefill s =
      .next (s.onQueues fun u => { u with settings := u.settings.map fun e => (e.1, shaperRefilled e.2) }) :=
    congrArg Host.Outcome.next (whenDue_pos (by simp [due, served, works]))
  refine ⟨_, run, alters_of_answers (frame_execShaperRefill (List.Subset.refl _) (frame_refl _ s)) run, rfl, fun q v found => ?_⟩
  rw [State.onQueues_queues, sparseGet_map shaperRefilled, found, Option.map_some]
  unfold shaperRefilled
  by_cases unshaped : v.rate = 0
  · rw [if_pos (beq_iff_eq.mpr unshaped), if_pos unshaped]
  · rw [if_neg (by simpa using unshaped), if_neg unshaped]

/-! ## The drain (R286) -/

theorem epochDrained_early {s : State} {w : InvWhy} {f : Tick} (runs : s.tables.draining = some (w, f)) (early : since s f < 4096) :
    exec .epochDrained s = .next s := by
  change execEpochDrained s = _
  unfold execEpochDrained
  rw [runs]
  refine congrArg Host.Outcome.next (whenDue_neg ?_)
  unfold epochDrained
  rw [runs]
  simp [early]

theorem epochDrained_ends {s : State} {w : InvWhy} {f : Tick} (runs : s.tables.draining = some (w, f)) (past : 4096 ≤ since s f)
    (outA : insidePort s.portA (!s.tables.epoch) = false) (outB : insidePort s.portB (!s.tables.epoch) = false)
    (last : s.tables.waiting = []) :
    ∃ t, exec .epochDrained s = .next t ∧ t.tables.draining = none ∧ t.tables.epoch = s.tables.epoch ∧
      t.tables.prefixes = s.tables.prefixes ∧ t.mem = s.mem := by
  have over_ : epochDrained s = true := by
    unfold epochDrained
    rw [runs]
    simp [past, outA, outB]
  have run : exec .epochDrained s = .next (nextInversion (drained s w)) := by
    change execEpochDrained s = _
    unfold execEpochDrained
    rw [runs]
    exact congrArg Host.Outcome.next (whenDue_pos over_)
  have frame : Alters [.free, .queues, .hands, .engine, .events, .dbg] s (drained s w) :=
    frame_drained (List.Subset.refl _) (frame_refl _ s)
  have tables := same_tables frame (by decide)
  have mem := same_mem frame (by decide)
  have next : nextInversion (drained s w) = (drained s w).onTables fun t => { t with draining := none } := by
    unfold nextInversion
    rw [tables, last]
  refine ⟨_, run, ?_⟩
  rw [next]
  exact ⟨rfl, congrArg (fun x => x.epoch) tables, congrArg (fun x => x.prefixes) tables, mem⟩

/-- Settles O41: each row by its own rule; the aging visit frees by the walk over its bucket's expired places. -/
theorem tablesAgeRefillAndDrain : Obligations.TablesAgeRefillAndDrain :=
  ⟨fun _ _ wf served works known => ⟨agingScannerVisit_frees wf served works known, agingScannerVisit_idle⟩,
    fun _ due served works turn => learnedPrefixAging_keeps due served works turn, fun _ due served => policerRefill_fills due served,
    fun _ due served works => shaperRefill_fills due served works,
    fun _ _ _ runs => ⟨epochDrained_early runs, epochDrained_ends runs⟩⟩

end Sys2Proof.Proofs
end

section
/-! The commit of staged table changes (R288 to R291) and the walk of TBL.FLUSH_PORT (R504). -/

namespace Sys2Proof.Proofs

open Sys2Proof Sys2Proof.Machine Sys2Proof.Safety Sys2Proof.Laws

/-! ## Operation records -/

section Ops

variable {s : State} {h : Nat} {o : Op}

theorem opOf_handle (found : opOf s h = some o) : o.handle.toNat = h := by
  simpa using List.find?_some found

theorem opOf_mem (found : opOf s h = some o) : o ∈ s.engine.ops := List.mem_of_find?_eq_some found

theorem opOf_congr {t : State} (same : t.engine = s.engine) : opOf t h = opOf s h := by rw [opOf, opOf, same]

theorem find_map_op {f : Op → Op} (keeps : ∀ o, o.handle.toNat = h → (f o).handle = o.handle) (ops : List Op) (k : Nat) :
    (ops.map fun o => if o.handle.toNat == h then f o else o).find? (fun o => o.handle.toNat == k) =
      (ops.find? fun o => o.handle.toNat == k).map fun o => if o.handle.toNat == h then f o else o := by
  rw [List.find?_map]
  have same : ((fun o : Op => o.handle.toNat == k) ∘ fun o : Op => if o.handle.toNat == h then f o else o) =
      fun o => o.handle.toNat == k := by
    funext o
    simp only [Function.comp]
    split
    · next here => rw [keeps o (beq_iff_eq.mp here)]
    · rfl
  rw [same]

/-- A record whose handle an update keeps, read after the update. -/
theorem opOf_onOp_at {f : Op → Op} (keeps : ∀ o, o.handle.toNat = h → (f o).handle = o.handle) :
    opOf (onOp s h f) h = (opOf s h).map f := by
  unfold opOf onOp
  rw [State.onEngine_engine, find_map_op keeps]
  cases found : s.engine.ops.find? (fun o => o.handle.toNat == h) with
  | none => rfl
  | some o =>
    have handle : o.handle.toNat = h := opOf_handle found
    rw [Option.map_some, Option.map_some, if_pos (beq_iff_eq.mpr handle)]

theorem opOf_onOp {f : Op → Op} (keeps : ∀ o, (f o).handle = o.handle) : opOf (onOp s h f) h = (opOf s h).map f :=
  opOf_onOp_at fun o _ => keeps o

end Ops

/-! ## Before the switch (R289, R291) -/

theorem streamEntry_memory {s : State} (plain : s.tables.commit.state ≠ .switched) (sid : Nat) :
    streamEntry s sid = s.mem.entry (streamAddr sid) := by
  unfold streamEntry
  split
  · next switched _ => exact absurd switched plain
  · rfl

section Commit

variable {s : State} {b : List Change} {r : List (List Change)}

theorem commitPrepared_builds (batches : s.tables.commit.batches = b :: r) (state : s.tables.commit.state = .preparing)
    (fresh : s.tables.commit.prepared = false) (works : halted s 3 = false) (early : since s s.tables.commit.since < 16 * 589824)
    (fits : copiesFit s.tables.prefixes b = true) :
    ∃ t, exec .commitPrepared s = .next t ∧ Alters [.tables] s t ∧ t.tables.commit.prepared = true ∧
      t.tables.commit.state = .preparing ∧ t.tables.prefixes = s.tables.prefixes ∧
      (∀ sid, streamEntry t sid = streamEntry s sid) ∧ t.tables.shadow = batchShadow s b := by
  have run : exec .commitPrepared s =
      .next (s.onTables fun t => { t with shadow := batchShadow s b, commit := { t.commit with prepared := true } }) := by
    change execCommitPrepared s = _
    unfold execCommitPrepared
    extract_lets c
    rw [show c.batches = b :: r from batches]
    exact congrArg Host.Outcome.next (whenDue_pos (by simp [c, works, state, fresh, trickTicks, early, fits]))
  refine ⟨_, run, alters_of_answers (frame_execCommitPrepared (List.Subset.refl _) (frame_refl _ s)) run, rfl, state, rfl,
    fun sid => ?_, rfl⟩
  have plain : s.tables.commit.state ≠ .switched := by rw [state]; decide
  rw [streamEntry_memory plain, streamEntry_memory (by exact plain), State.onTables_mem]

theorem commitDefer_stages (batches : s.tables.commit.batches = b :: r) (state : s.tables.commit.state = .preparing)
    (fresh : s.tables.commit.prepared = false) (late : 16 * 589824 ≤ since s s.tables.commit.since) :
    ∃ t, exec .commitDefer s = .next t ∧ Alters [.tables, .events] s t ∧ t.tables.commit.state = .staging ∧
      t.tables.commit.batches = [] ∧ t.tables.prefixes = s.tables.prefixes ∧ t.tables.epoch = s.tables.epoch ∧
      (∀ c ∈ s.tables.staged, c ∈ t.tables.staged) ∧
      (∀ c ∈ b, (∀ d ∈ s.tables.staged, d.table ≠ c.table ∨ d.key ≠ c.key) → c ∈ t.tables.staged) := by
  have run : exec .commitDefer s = .next
      ((raise s 0x0809 0x60 (beBytes 1 (s.tables.commit.switches.length + 1) ++ beBytes 2 s.tables.commit.applied) 0
        (some s.tables.commit.hand.val)).onTables fun t =>
          { commitReturn t with commit := { (commitReturn t).commit with deferred := true } }) :=
    congrArg Host.Outcome.next (whenDue_pos (by simp [state, fresh, trickTicks, late]))
  refine ⟨_, run, alters_of_answers (frame_execCommitDefer (List.Subset.refl _) (frame_refl _ s)) run, ?_⟩
  rw [State.onTables_tables, raise_tables]
  refine ⟨rfl, rfl, rfl, rfl, fun c mem => List.mem_append_left _ mem, fun c mem free => List.mem_append_right _ ?_⟩
  refine List.mem_filter.mpr ⟨List.mem_flatten.mpr ⟨b, batches ▸ List.mem_cons_self .., mem⟩, ?_⟩
  simp only [Bool.not_eq_true', List.any_eq_false, changeOf, Bool.and_eq_true, beq_iff_eq]
  exact fun d staged same => (free d staged).elim (fun h => h same.1) (fun h => h same.2)

/-! ## The switch (R289) -/

theorem commitSwitch_switches {late : Bool} (batches : s.tables.commit.batches = b :: r) (state : s.tables.commit.state = .preparing)
    (ready : s.tables.commit.prepared = true) (drained_ : s.tables.draining = none) (time : switchTime s = some late) :
    ∃ t, exec .commitSwitch s = .next t ∧ Alters [.tables] s t ∧ t.tables.commit.state = .switched ∧
      t.tables.epoch = !s.tables.epoch ∧ t.tables.draining = some (.commit, s.clock.age) ∧
      t.tables.prefixes = b.foldl applyPrefix s.tables.prefixes ∧
      (∀ sid e, sparseGet s.tables.shadow sid = some e → streamEntry t sid = e) ∧
      (∀ sid, sparseGet s.tables.shadow sid = none → streamEntry t sid = s.mem.entry (16 * sid)) ∧
      t.tables.commit.switches = s.tables.commit.switches ++ [(s.clock.counter, late)] := by
  have run : exec .commitSwitch s = .next (commitSwitch s b late) := by
    change execCommitSwitch s = _
    unfold execCommitSwitch
    extract_lets c
    rw [show c.batches = b :: r from batches, time]
    exact congrArg Host.Outcome.next (whenDue_pos (by simp [c, state, ready, drained_]))
  have tables : (commitSwitch s b late).tables =
      { s.tables with
        prefixes := b.foldl applyPrefix s.tables.prefixes,
        commit := { s.tables.commit with
          state := .switched, applied := s.tables.commit.applied + b.length, late := s.tables.commit.late || late,
          switches := s.tables.commit.switches ++ [(s.clock.counter, late)] },
        epoch := !s.tables.epoch, draining := some (.commit, s.clock.age) } := by
    unfold commitSwitch invertEpoch
    simp only [State.onTables_tables, drained_]
    rfl
  have frame := alters_of_answers (frame_execCommitSwitch (List.Subset.refl _) (frame_refl _ s)) run
  have mem : (commitSwitch s b late).mem = s.mem := same_mem frame (by decide)
  have lookup : ∀ sid, streamEntry (commitSwitch s b late) sid =
      (sparseGet s.tables.shadow sid).getD (s.mem.entry (16 * sid)) := by
    intro sid
    unfold streamEntry
    rw [tables, mem]
    cases sparseGet s.tables.shadow sid <;> rfl
  refine ⟨_, run, frame, ?_, ?_, ?_, ?_, fun sid e found => ?_, fun sid missing => ?_, ?_⟩
  · rw [tables]
  · rw [tables]
  · rw [tables]
  · rw [tables]
  · rw [lookup, found, Option.getD_some]
  · rw [lookup, missing, Option.getD_none]
  · rw [tables]

end Commit

/-! ## The write-back (R289) -/

section Writeback

/-- The memory with the entries of a shadow written. -/
def shadowWritten (m : Memory) (l : List (Nat × Entry)) : Memory := l.foldl (fun m e => m.setEntry (streamAddr e.1) e.2) m

variable {m : Memory} {l : List (Nat × Entry)}

theorem shadowWritten_outside (wf : m.wf = true) {a : Nat} (apart : ∀ e ∈ l, a < 16 * e.1 ∨ 16 * e.1 + 16 ≤ a) :
    cellsRead (shadowWritten m l).cells a = cellsRead m.cells a := by
  induction l generalizing m with
  | nil => rfl
  | cons e l ih =>
    rw [shadowWritten, List.foldl_cons, ← shadowWritten, ih (setEntry_wf wf) fun x mem => apart x (List.mem_cons_of_mem e mem)]
    exact cellsRead_setEntry_outside wf (apart e (List.mem_cons_self ..))

theorem shadowWritten_entry_other (wf : m.wf = true) {sid : Nat} (other : ∀ e ∈ l, e.1 ≠ sid) :
    (shadowWritten m l).entry (streamAddr sid) = m.entry (streamAddr sid) := by
  induction l generalizing m with
  | nil => rfl
  | cons e l ih =>
    rw [shadowWritten, List.foldl_cons, ← shadowWritten, ih (setEntry_wf wf) fun x mem => other x (List.mem_cons_of_mem e mem)]
    have apart := other e (List.mem_cons_self ..)
    exact entry_setEntry_other wf (by unfold streamAddr; omega)

theorem shadowWritten_entry (wf : m.wf = true) (small : ∀ e ∈ l, e.1 < 65536) (distinct : (l.map (·.1)).Nodup) {sid : Nat} {e : Entry}
    (found : sparseGet l sid = some e) : (shadowWritten m l).entry (streamAddr sid) = e := by
  induction l generalizing m with
  | nil => exact absurd found nofun
  | cons x l ih =>
    rw [List.map_cons, List.nodup_cons] at distinct
    rw [shadowWritten, List.foldl_cons, ← shadowWritten]
    rw [sparseGet_cons] at found
    by_cases here : x.1 = sid
    · rw [if_pos here] at found
      subst here
      have fresh : ∀ y ∈ l, y.1 ≠ x.1 := fun y mem same => distinct.1 (same ▸ List.mem_map_of_mem mem)
      have bound := small x (List.mem_cons_self ..)
      rw [shadowWritten_entry_other (setEntry_wf wf) fresh, entry_setEntry wf (by unfold streamAddr; omega)]
      exact Option.some.inj found
    · rw [if_neg here] at found
      exact ih (setEntry_wf wf) (fun y mem => small y (List.mem_cons_of_mem x mem)) distinct.2 found

theorem each_setEntry_mem (s : State) : (s.each l fun e s => s.onMem fun m => m.setEntry (streamAddr e.1) e.2).mem = shadowWritten s.mem l := by
  induction l generalizing s with
  | nil => rfl
  | cons e l ih => rw [each_cons, ih]; rfl

theorem each_setEntry_tables (s : State) : (s.each l fun e s => s.onMem fun m => m.setEntry (streamAddr e.1) e.2).tables = s.tables :=
  each_keeps (P := fun x => x.tables = s.tables) (fun _ _ kept => kept) rfl

theorem writeShadow_mem (s : State) : (writeShadow s).mem = shadowWritten s.mem s.tables.shadow := each_setEntry_mem s

theorem writeShadow_tables (s : State) : (writeShadow s).tables = { s.tables with shadow := [] } :=
  congrArg (fun x : Tables => { x with shadow := [] }) (each_setEntry_tables s)

theorem commitWritebackDone_writes {s : State} {b : List Change} (wf : s.mem.wf = true) (batches : s.tables.commit.batches = [b])
    (state : s.tables.commit.state = .switched) (drained_ : commitDraining s = false)
    (small : ∀ e ∈ s.tables.shadow, e.1 < 65536) (distinct : (s.tables.shadow.map (·.1)).Nodup) :
    ∃ t, exec .commitWritebackDone s = .next t ∧ Alters [.tables, .mem, .events] s t ∧ t.tables.commit.state = .done ∧
      t.tables.shadow = [] ∧ (∀ sid e, sparseGet s.tables.shadow sid = some e → streamEntry t sid = e) ∧
      (∀ a, (∀ e ∈ s.tables.shadow, a < 16 * e.1 ∨ 16 * e.1 + 16 ≤ a) → cellsRead t.mem.cells a = cellsRead s.mem.cells a) := by
  have run : exec .commitWritebackDone s = .next (batchDone (writeShadow s)) :=
    congrArg Host.Outcome.next (whenDue_pos (by simp [state, drained_]))
  have tables : (batchDone (writeShadow s)).tables =
      { s.tables with shadow := [], commit := { s.tables.commit with state := .done, batches := [], partial_ := false } } := by
    unfold batchDone
    rw [writeShadow_tables]
    simp only [batches, List.drop_one, List.tail_cons, List.isEmpty_nil, if_true, raise_tables, State.onTables_tables,
      writeShadow_tables]
  have mem : (batchDone (writeShadow s)).mem = shadowWritten s.mem s.tables.shadow := by
    refine Eq.trans ?_ (writeShadow_mem s)
    exact same_mem (L := [.tables, .events]) (frame_batchDone (List.Subset.refl _) (frame_refl _ _)) (by decide)
  refine ⟨_, run, alters_of_answers (frame_execCommitWritebackDone (List.Subset.refl _) (frame_refl _ s)) run, ?_, ?_,
    fun sid e found => ?_, fun a apart => ?_⟩
  · rw [tables]
  · rw [tables]
  · rw [streamEntry_memory (by rw [tables]; exact nofun), mem, shadowWritten_entry wf small distinct found]
  · rw [mem, shadowWritten_outside wf apart]

end Writeback

/-! ## TBL.FLUSH_PORT (R295, R504) -/

section Flush

variable {s : State} {h : BitVec 16} {o : Op} {p : Port}

/-- The boundary after a bucket that is not the last, with no stop asked for. -/
theorem flushBoundary_next (more : o.progress.toNat + 1 < 0x2000) (noCancel : o.cancelPending = false)
    (noSuspend : o.suspendPending = false) :
    flushBoundary s o = onOp s o.handle.toNat fun o => { o with progress := o.progress + 1 } := by
  unfold flushBoundary
  simp [more, noCancel, noSuspend]

theorem flushPortStep_frees (wf : s.mem.wf = true) (found : opOf s h.toNat = some o) (object : o.object = .pipe p)
    (opcode : o.opcode = 0x0705) (running : o.state = .running) (more : o.progress.toNat < 0x1FFF) (noCancel : o.cancelPending = false)
    (noSuspend : o.suspendPending = false) (works : halted s 3 = false) (goes : flushStopping s h = false) :
    ∃ t q, exec (.flushPortStep h) s = .next t ∧ Alters [.tables, .mem, .engine] s t ∧ opOf t h.toNat = some q ∧
      q.progress = o.progress + 1 ∧ q.state = .running ∧
      (∀ w : Fin 4, (let e := s.mem.entry (wayAddr p o.progress.toNat w)
        t.mem.entry (wayAddr p o.progress.toNat w) = if flushTakes o e = true then 0 else e)) ∧
      (∀ a, (a < wayAddr p o.progress.toNat 0 ∨ wayAddr p o.progress.toNat 0 + 64 ≤ a) →
        cellsRead t.mem.cells a = cellsRead s.mem.cells a) := by
  have handle := opOf_handle found
  have run : exec (.flushPortStep h) s =
      .next (onOp (flushBucket s p o) h.toNat fun o => { o with progress := o.progress + 1 }) := by
    change execFlushPortStep h s = _
    unfold execFlushPortStep
    rw [found]
    dsimp only
    rw [object]
    dsimp only
    rw [whenDue_pos (by simp [works, opcode, running, goes]; omega), if_pos (by omega), flushBoundary_next (by omega) noCancel noSuspend,
      handle]
  have frame : Alters [.tables, .mem, .engine] s (onOp (flushBucket s p o) h.toNat fun o => { o with progress := o.progress + 1 }) :=
    frame_onOp (by decide) (frame_flushBucket (by decide) (frame_refl _ s))
  have bucket : Alters [.tables, .mem] s (flushBucket s p o) := frame_flushBucket (List.Subset.refl _) (frame_refl _ s)
  have found' : opOf (flushBucket s p o) h.toNat = some o := (opOf_congr (same_engine bucket (by decide))).trans found
  refine ⟨_, { o with progress := o.progress + 1 }, run, frame, ?_, rfl, running, fun w => ?_, fun a apart => ?_⟩
  · exact (opOf_onOp (f := fun x => { x with progress := x.progress + 1 }) fun _ => rfl).trans (by rw [found', Option.map_some])
  · exact freeTaken_entry (s := s) (takes := flushTakes o) wf (by omega) w.isLt
  · exact freeTaken_outside (s := s) (takes := flushTakes o) wf apart

end Flush

/-- Settles O42: each row of a commit by its own rule; the shadow is written back entry by entry, the flush walks one bucket. -/
theorem commitsSwitchWhole : Obligations.CommitsSwitchWhole :=
  ⟨fun _ _ _ batches state fresh => ⟨commitPrepared_builds batches state fresh, commitDefer_stages batches state fresh⟩,
    fun _ _ _ _ batches state ready drained_ time => commitSwitch_switches batches state ready drained_ time,
    fun _ _ wf batches state drained_ small distinct => commitWritebackDone_writes wf batches state drained_ small distinct,
    fun _ _ _ _ wf found object opcode running more noCancel noSuspend works goes =>
      flushPortStep_frees wf found object opcode running more noCancel noSuspend works goes⟩

end Sys2Proof.Proofs
end

section
/-! Streams, scheduled outputs, held frames and the end of a hand reset (10_queues_and_hands.md). -/

namespace Sys2Proof.Proofs

open Sys2Proof Sys2Proof.Machine Sys2Proof.Safety Sys2Proof.Laws

/-! ## Queues -/

section Queues

variable {s : State} {q q' : Nat} {l : List QFrame}

theorem qFrames_setQFrames : qFrames (setQFrames s q l) q' = if q' = q then l else qFrames s q' := by
  unfold qFrames setQFrames
  rw [State.onQueues_queues]
  dsimp only
  split
  · next empty =>
    rw [sparseGet_sparseDel]
    split
    · exact (List.isEmpty_iff.mp empty).symm
    · rfl
  · rw [sparseGet_sparseSet]
    split <;> rfl

theorem qFrames_congr {t : State} (same : t.queues = s.queues) : qFrames t q = qFrames s q := by rw [qFrames, qFrames, same]

theorem sparseGet_filter {α : Type} {p : Nat → Bool} (m : List (Nat × α)) (drop : p q = true) :
    sparseGet (m.filter fun e => !p e.1) q = none := by
  unfold sparseGet
  rw [Option.map_eq_none_iff, List.find?_eq_none]
  intro e mem key
  obtain ⟨-, kept⟩ := List.mem_filter.mp mem
  have key : e.1 = q := by simpa using key
  rw [key, drop] at kept
  exact absurd kept (by decide)

end Queues

/-! ## Streams -/

section Streams

variable {s : State} {sid : Nat} {x : Stream}

theorem streamOf_id (found : streamOf s sid = some x) : x.id.toNat = sid := by simpa using List.find?_some found

/-- A stream whose ID an update keeps, read after the update. -/
theorem streamOf_onStream {f : Stream → Stream} (keeps : ∀ y, (f y).id = y.id) (found : streamOf s sid = some x) :
    streamOf (onStream s sid f) sid = some (f x) := by
  have same : ((fun y : Stream => y.id.toNat == sid) ∘ fun y : Stream => if y.id.toNat == sid then f y else y) =
      fun y => y.id.toNat == sid := by
    funext y
    simp only [Function.comp]
    split
    · rw [keeps]
    · rfl
  unfold streamOf onStream
  rw [List.find?_map, same, show s.streams.find? (fun y => y.id.toNat == sid) = some x from found, Option.map_some,
    if_pos (beq_iff_eq.mpr (streamOf_id found))]

theorem streamFrameBuild_queues {sid : BitVec 16} {n h : Nat} (found : streamOf s sid.toNat = some x) (rows : frameRows x = some n)
    (served : inService s = true) (works : halted s 2 = false) (owner : queueHand s x.queue.toNat = some h)
    (hand : (s.hand (Fin.ofNat 16 h)).state = .clean ∨ (s.hand (Fin.ofNat 16 h)).state = .faulted)
    (quota : handCells s h + cellsOf (streamPayload x (x.rows.take n)).length ≤ handQuota s h) :
    ∃ t f, exec (.streamFrameBuild sid) s = .next t ∧ Alters [.free, .queues, .streams] s t ∧
      qFrames t x.queue.toNat = qFrames s x.queue.toNat ++ [f] ∧ f.payload = streamPayload x (x.rows.take n) ∧
      f.hdr.akind = 2 ∧ f.hdr.dest.toNat = x.id.toNat ∧ f.hdr.seq = x.seq ∧ f.hdr.originTick = s.clock.counter ∧
      streamOf t sid.toNat = some { x with rows := x.rows.drop n, seq := x.seq + 1 } ∧
      (∀ q, q ≠ x.queue.toNat → qFrames t q = qFrames s q) := by
  have run : exec (.streamFrameBuild sid) s = .next (buildStreamFrame s x n) := by
    change execStreamFrameBuild sid s = _
    unfold execStreamFrameBuild
    rw [found]
    dsimp only
    rw [rows]
    exact congrArg Host.Outcome.next (whenDue_pos (by simp [served, works]))
  have id : x.id.toNat = sid.toNat := streamOf_id found
  let hdr := ownHeader s 2 x.id.toNat (qSetOf s x.queue.toNat).cls.toNat x.hand.val x.seq.toNat (streamPayload x (x.rows.take n)).length
  let r := mkQFrame s hdr (streamPayload x (x.rows.take n)) x.id.toNat
  have free : Alters [.free] s r.2 := frame_State_draw (List.Subset.refl _) (frame_refl _ s)
  have queued : enqueueHand r.2 x.queue.toNat r.1 = (true, setQFrames r.2 x.queue.toNat (qFrames r.2 x.queue.toNat ++ [r.1])) := by
    unfold enqueueHand
    rw [show queueHand r.2 x.queue.toNat = some h from owner]
    dsimp only
    rw [if_neg, if_neg]
    · exact Nat.not_lt.mpr quota
    · rw [show r.2.hand (Fin.ofNat 16 h) = s.hand (Fin.ofNat 16 h) from rfl]
      rcases hand with clean | faulted
      · rw [clean]; decide
      · rw [faulted]; decide
  have build : buildStreamFrame s x n = onStream (setQFrames r.2 x.queue.toNat (qFrames r.2 x.queue.toNat ++ [r.1])) x.id.toNat
      fun y => { y with rows := y.rows.drop n, seq := y.seq + 1 } := by
    change onStream (enqueueHand r.2 x.queue.toNat r.1).2 x.id.toNat _ = _
    rw [queued]
    rfl
  refine ⟨_, r.1, run, ?_, ?_, rfl, rfl, ?_, ?_, rfl, ?_, fun q other => ?_⟩
  · rw [build]
    exact frame_onStream (by decide) (frame_setQFrames (by decide) (frame_mono (by decide) free))
  · rw [build]
    exact qFrames_setQFrames.trans (if_pos rfl)
  · change (BitVec.ofNat 48 x.id.toNat).toNat = x.id.toNat
    have := x.id.isLt
    simp only [BitVec.toNat_ofNat]
    omega
  · exact BitVec.ofNat_toNat .. |>.trans (BitVec.setWidth_eq _)
  · rw [build, id]
    exact streamOf_onStream (f := fun y => { y with rows := y.rows.drop n, seq := y.seq + 1 }) (fun _ => rfl) found
  · rw [build]
    exact qFrames_setQFrames.trans (if_neg other)

theorem invertEpoch_mem {why : InvWhy} : (invertEpoch s why).mem = s.mem := rfl

theorem streamEntry_invertEpoch {why : InvWhy} (sid : Nat) : streamEntry (invertEpoch s why) sid = streamEntry s sid := by
  have tables : (invertEpoch s why).tables.commit = s.tables.commit ∧ (invertEpoch s why).tables.shadow = s.tables.shadow := by
    unfold invertEpoch
    rw [State.onTables_tables]
    split <;> exact ⟨rfl, rfl⟩
  unfold streamEntry
  rw [tables.1, tables.2, invertEpoch_mem]

theorem streamEntry_setStreamEntry {e : Entry} (wf : s.mem.wf = true) (small : sid < 65536) :
    streamEntry (setStreamEntry s sid e) sid = e := by
  have gone : sparseGet (setStreamEntry s sid e).tables.shadow sid = none := sparseGet_sparseDel.trans (if_pos rfl)
  have inside : streamAddr sid + 16 ≤ 0x1000000 := by unfold streamAddr; omega
  have memory : streamEntry (setStreamEntry s sid e) sid = (setStreamEntry s sid e).mem.entry (streamAddr sid) := by
    unfold streamEntry
    rw [gone]
    cases (setStreamEntry s sid e).tables.commit.state <;> rfl
  exact memory.trans (entry_setEntry (a := streamAddr sid) wf inside)

theorem originEntryRemove_waits {sid : BitVec 16} (queued : streamQueued s sid = true) :
    exec (.originEntryRemove sid) s = .next s := by
  change execOriginEntryRemove sid s = _
  unfold execOriginEntryRemove
  split
  · rfl
  · exact congrArg Host.Outcome.next (whenDue_neg (by simp [queued]))

theorem originEntryRemove_removes {sid : BitVec 16} (wf : s.mem.wf = true) (found : streamOf s sid.toNat = some x)
    (served : inService s = true) (closing : x.closing ≠ none) (left : streamQueued s sid = false) (rows : x.rows = []) :
    ∃ t, exec (.originEntryRemove sid) s = .next t ∧ Alters [.tables, .streams, .mem] s t ∧ streamOf t sid.toNat = none ∧
      seValid (streamEntry t sid.toNat) = false ∧ (∀ y ∈ s.streams, y.id ≠ sid → y ∈ t.streams) ∧
      (∀ a, (a < 16 * sid.toNat ∨ 16 * sid.toNat + 16 ≤ a) → cellsRead t.mem.cells a = cellsRead s.mem.cells a) := by
  have run : exec (.originEntryRemove sid) s = .next (invertEpoch
      { setStreamEntry s sid.toNat 0 with streams := (setStreamEntry s sid.toNat 0).streams.filter fun y => y.id != sid }
      (.originRemove sid)) := by
    change execOriginEntryRemove sid s = _
    unfold execOriginEntryRemove
    rw [found]
    exact congrArg Host.Outcome.next (whenDue_pos (by simp [served, Option.isSome_iff_ne_none.mpr closing, rows, left]))
  refine ⟨_, run, alters_of_answers (frame_execOriginEntryRemove (List.Subset.refl _) (frame_refl _ s)) run, ?_, ?_,
    fun y mem other => ?_, fun a apart => ?_⟩
  · refine List.find?_eq_none.mpr fun y mem same => ?_
    have kept := (List.mem_filter.mp mem).2
    have same : y.id = sid := BitVec.eq_of_toNat_eq (by simpa using same)
    exact absurd kept (by simp [same])
  · rw [streamEntry_invertEpoch]
    have blank : streamEntry (setStreamEntry s sid.toNat 0) sid.toNat = 0 := streamEntry_setStreamEntry wf sid.isLt
    exact (congrArg seValid blank).trans (by decide)
  · exact List.mem_filter.mpr ⟨mem, by simpa using other⟩
  · exact cellsRead_setEntry_outside wf apart

end Streams

/-! ## Scheduled outputs (R327) -/

section OutApply

variable {s : State} {n m : Fin 24} {v : Int}

theorem endSubst_chan_other (h : m ≠ n) : (endSubst s n v).chan m = s.chan m := by
  unfold endSubst
  extract_lets c s1 s2
  rw [State.onChan_chan_other _ n m _ h, clearLatching_chan]
  unfold s1
  split
  · exact clearLatching_chan m
  · rfl

theorem endSubst_chan : (endSubst s n v).chan n =
    { s.chan n with comp := .normal, compRaised := false, frozen := false,
                    keeper := (s.chan n).keeper.map fun k => { k with subst := false } } := by
  unfold endSubst
  extract_lets c s1 s2
  have first : s1.chan n = s.chan n := by
    unfold s1
    split
    · exact clearLatching_chan n
    · rfl
  rw [State.onChan_chan, clearLatching_chan, first]

theorem targetChosen_chan_other (h : m ≠ n) : (targetChosen s n v).chan m = s.chan m := by
  unfold targetChosen
  extract_lets c
  split
  · exact endSubst_chan_other h
  · split
    · exact State.onChan_chan_other _ n m _ h
    · rfl

/-- A new target leaves the pending values and the re-kindle. -/
theorem targetChosen_chan : ((targetChosen s n v).chan n).pending = (s.chan n).pending ∧
    ((targetChosen s n v).chan n).rekindle = (s.chan n).rekindle := by
  unfold targetChosen
  extract_lets c
  split
  · rw [endSubst_chan]
    exact ⟨rfl, rfl⟩
  · split
    · rw [State.onChan_chan]
      exact ⟨rfl, rfl⟩
    · exact ⟨rfl, rfl⟩

/-- The channel with a value applied at a tick, before the shell drives it. -/
def valueApplied (v : Int) (a : Tick) (c : Chan) : Chan :=
  { c with applied := v, commanded := true, lastApply := some a, bankShell := c.rekindle.isSome && c.bankShell }

theorem applyOut_eq {a : Tick} (free : (s.chan n).restrap = false) :
    applyOut s n v a = driveShell ((targetChosen s n v).onChan n (valueApplied v a)) n := by
  unfold applyOut
  exact if_neg (Bool.eq_false_iff.mp free)

theorem applyOut_chan_other {a : Tick} (h : m ≠ n) : (applyOut s n v a).chan m = s.chan m := by
  unfold applyOut
  extract_lets c s1 s2
  split
  · rfl
  · rw [driveShell_chan_other h, State.onChan_chan_other _ n m _ h, targetChosen_chan_other h]

theorem applyOut_redrives {a : Tick} (free : (s.chan n).restrap = false) :
    Redriven (valueApplied v a ((targetChosen s n v).chan n)) ((applyOut s n v a).chan n) := by
  rw [applyOut_eq free]
  have drive := driveShell_redrives ((targetChosen s n v).onChan n (valueApplied v a)) n
  rwa [State.onChan_chan] at drive

theorem outApply_early {w : PendOut} {rest : List PendOut} (pending : (s.chan n).pending = w :: rest)
    (early : s.clock.counter.toNat < w.at_.toNat) : exec (.outApply n) s = .next s := by
  change execOutApply n s = _
  unfold execOutApply
  rw [pending]
  exact congrArg Host.Outcome.next (whenDue_neg (by simp [early]))

theorem outApply_applies {w : PendOut} {rest : List PendOut} (pending : (s.chan n).pending = w :: rest)
    (tier : Tier.measure.rank ≤ s.tiers.tier.rank) (due : w.at_.toNat ≤ s.clock.counter.toNat) (works : halted s 6 = false)
    (free : (s.chan n).restrap = false) :
    ∃ t, exec (.outApply n) s = .next t ∧ Alters [.chans, .events] s t ∧ (t.chan n).pending = rest ∧
      (t.chan n).applied = w.value ∧ (t.chan n).commanded = true ∧ (t.chan n).lastApply = some w.at_ ∧
      ((s.chan n).rekindle = none → (t.chan n).bankShell = false) ∧ ∀ m, m ≠ n → t.chan m = s.chan m := by
  let s1 := s.onChan n fun c => { c with pending := rest }
  have run : exec (.outApply n) s = .next (applyOut s1 n w.value w.at_) := by
    change execOutApply n s = _
    unfold execOutApply
    rw [pending]
    exact congrArg Host.Outcome.next (whenDue_pos (by simp [tier, due, works]))
  have chan : s1.chan n = { s.chan n with pending := rest } := State.onChan_chan ..
  have drive := applyOut_redrives (s := s1) (n := n) (v := w.value) (a := w.at_) (by rw [chan]; exact free)
  obtain ⟨kept, rekindle⟩ := targetChosen_chan (s := s1) (n := n) (v := w.value)
  refine ⟨_, run, alters_of_answers (frame_execOutApply (List.Subset.refl _) (frame_refl _ s)) run, ?_, redriven_applied drive,
    redriven_commanded drive, redriven_lastApply drive, fun whole => ?_, fun m other => ?_⟩
  · rw [redriven_pending drive]
    exact kept.trans (by rw [chan])
  · rw [redriven_bankShell drive]
    have whole : ((targetChosen s1 n w.value).chan n).rekindle = none := rekindle.trans (by rw [chan]; exact whole)
    simp only [valueApplied, whole, Option.isSome_none, Bool.false_and]
  · rw [applyOut_chan_other other]
    exact State.onChan_chan_other _ n m _ other

end OutApply

/-! ## Held frames (R306) -/

section Held

variable {s : State} {e : Nat × QFrame} {rest : List (Nat × QFrame)}

theorem responseHeldRelease_enters (held : s.queues.heldOut = e :: rest) (runs : shellRuns s = true) (works : halted s 2 = false)
    (fits : heldFits s e = true) :
    ∃ t, exec .responseHeldRelease s = .next t ∧ Alters [.queues] s t ∧ t.queues.heldOut = rest ∧
      qFrames t e.1 = qFrames s e.1 ++ [e.2] ∧ ∀ q, q ≠ e.1 → qFrames t q = qFrames s q := by
  have run : exec .responseHeldRelease s =
      .next (setQFrames (s.onQueues fun u => { u with heldOut := rest }) e.1 (qFrames s e.1 ++ [e.2])) := by
    change execResponseHeldRelease s = _
    unfold execResponseHeldRelease
    rw [held]
    exact congrArg Host.Outcome.next (whenDue_pos (by simp [runs, works, fits]))
  exact ⟨_, run, alters_of_answers (frame_execResponseHeldRelease (List.Subset.refl _) (frame_refl _ s)) run, rfl,
    qFrames_setQFrames.trans (if_pos rfl), fun q other => qFrames_setQFrames.trans (if_neg other)⟩

theorem responseHeldRelease_waits (held : s.queues.heldOut = e :: rest) (full : heldFits s e = false) :
    exec .responseHeldRelease s = .next s := by
  change execResponseHeldRelease s = _
  unfold execResponseHeldRelease
  rw [held]
  exact congrArg Host.Outcome.next (whenDue_neg (by simp [full]))

end Held

/-! ## The end of a hand reset (Table 10.5) -/

section HandReset

variable {s : State} {h k : Fin 16}

/-- A hand that the Reset step has cleared. -/
def handCleared (r : Hand) : Hand :=
  { r with state := .clean, refusals := [], input := [], evHead := 0, evCount := 0, lost := 0, resetInv := 0 }

/-- The queues of a hand: its responses and its stream queues. -/
def handOwns (s : State) (h : Fin 16) (q : Nat) : Bool := q == 32 + h.val || queueHand s q == some h.val

/-- What the steps after the clearing of a hand leave alone: its hands and its queues. -/
theorem handResetEnd_parts :
    (handResetEnd s h).hands = (s.onHand h handCleared).hands ∧
      (handResetEnd s h).queues.frames = s.queues.frames.filter (fun e => !handOwns s h e.1) ∧
      Logs s (handResetEnd s h) 0x0903 0x52 (beBytes 1 h.val) := by
  unfold handResetEnd
  extract_lets mine s1 s2 s3 s4 s5 bitOff s6
  have discard : Alters [.engine] s2 s3 := frame_discardAwait (List.Subset.refl _) (frame_refl _ s2)
  have redraw : Alters [.free, .engine] s4 s5 := frame_redrawSession (List.Subset.refl _) (frame_refl _ s4)
  have rest : Alters [.free, .engine, .events] s2 s6 := by
    refine frame_trans (frame_mono (by decide) discard) (frame_State_onEvents (by decide) ?_)
    exact frame_trans (frame_State_onEngine (by decide) (frame_refl _ s3)) (frame_mono (by decide) redraw)
  refine ⟨?_, ?_, ?_⟩
  · rw [raise_hands, same_hands rest (by decide)]
    rfl
  · rw [raise_queues, same_queues rest (by decide)]
    rfl
  · exact logs_at (raise_logs_plain (by decide) (by decide) (by decide) (by decide))
      (congrArg (fun x => x.counter) (same_clock rest (by decide)))

theorem handResetDrain_cleans (works : halted s 2 = false) (resetting : (s.hand h).state = .resetting) (drained_ : (s.hand h).resetInv = 0)
    (quiet : liveOps s h = 0) (answered : responseOut s h.val 0x0303 = false) :
    ∃ t, exec (.handResetDrain h) s = .next t ∧ Alters [.free, .queues, .hands, .engine, .events] s t ∧
      (t.hand h).state = .clean ∧ (t.hand h).master = (s.hand h).master ∧ (t.hand h).observers = (s.hand h).observers ∧
      (t.hand h).evCount = 0 ∧ (t.hand h).input = [] ∧ qFrames t (32 + h.val) = [] ∧
      (∀ q, queueHand s q = some h.val → qFrames t q = []) ∧ (∀ k, k ≠ h → t.hand k = s.hand k) ∧
      Logs s t 0x0903 0x52 (beBytes 1 h.val) := by
  have run : exec (.handResetDrain h) s = .next (handResetEnd s h) :=
    congrArg Host.Outcome.next (whenDue_pos (by simp [works, resetting, drained_, quiet, answered]))
  obtain ⟨hands, frames, logs⟩ := handResetEnd_parts (s := s) (h := h)
  have mine : (handResetEnd s h).hand h = handCleared (s.hand h) := by
    rw [State.hand, hands]
    exact State.onHand_hand ..
  have emptied : ∀ q, handOwns s h q = true → qFrames (handResetEnd s h) q = [] := by
    intro q own
    rw [qFrames, frames, sparseGet_filter (p := handOwns s h) _ own, Option.getD_none]
  refine ⟨_, run, alters_of_answers (frame_execHandResetDrain (List.Subset.refl _) (frame_refl _ s)) run, ?_, ?_, ?_, ?_, ?_, ?_,
    fun q own => ?_, fun k other => ?_, logs⟩
  · rw [mine]; rfl
  · rw [mine]; rfl
  · rw [mine]; rfl
  · rw [mine]; rfl
  · rw [mine]; rfl
  · exact emptied _ (by simp [handOwns])
  · exact emptied q (by simp [handOwns, own])
  · rw [State.hand, hands]
    exact State.onHand_hand_other _ h k _ other

theorem handResetDrain_waits (open_ : (s.hand h).resetInv ≠ 0) : exec (.handResetDrain h) s = .next s :=
  congrArg Host.Outcome.next (whenDue_neg (by simp [open_]))

end HandReset

/-- Settles O43: each row by its own rule for the stream, channel, queue or hand it names. -/
theorem streamsOutputsAndHandsRun : Obligations.StreamsOutputsAndHandsRun :=
  ⟨fun _ _ _ _ _ found rows served works owner hand quota => streamFrameBuild_queues found rows served works owner hand quota,
    fun _ _ _ wf found served closing =>
      ⟨originEntryRemove_waits, fun left rows => originEntryRemove_removes wf found served closing left rows⟩,
    fun _ _ _ _ pending => ⟨outApply_early pending, fun tier due works free => outApply_applies pending tier due works free⟩,
    fun _ _ _ held runs works => ⟨responseHeldRelease_enters held runs works, responseHeldRelease_waits held⟩,
    fun _ _ works resetting => ⟨handResetDrain_waits, fun drained_ quiet answered =>
      handResetDrain_cleans works resetting drained_ quiet answered⟩⟩

end Sys2Proof.Proofs
end

section
/-! The sweep of the memory, the scrub list and the wake scrub (11_memory_banks.md). -/

namespace Sys2Proof.Proofs

open Sys2Proof Sys2Proof.Machine Sys2Proof.Safety Sys2Proof.Laws

/-! ## Counters -/

section Bump

variable {s : State} {src obj code : Nat}

theorem bump_alters : Alters [.counters] s (bump s src obj code) := frame_bump (List.Subset.refl _) (frame_refl _ s)

theorem counterOf_bump : counterOf (bump s src obj code) src obj code = counterOf s src obj code + 1 := by
  unfold bump
  extract_lets v
  unfold counterOf
  dsimp only
  split
  · next wraps =>
    rw [sparseGet_sparseDel, if_pos rfl, Option.getD_none]
    exact (beq_iff_eq.mp wraps).symm
  · rw [sparseGet_sparseSet, if_pos rfl, Option.getD_some]
    rfl

theorem raise_logs_source {detail : List Byte} {owner : Option Nat} (counting : evLatching code = false)
    (severity : evSev code = 1 ∨ evSev code = 2) (fresh : ∀ r ∈ s.events.rates, r.code.toNat ≠ code ∨ r.src ≠ src)
    (fits : code < 65536) (local_ : src < 256) : Logs s (raise s code src detail obj owner) code src detail := by
  have counted : (evSev code == 1 || evSev code == 2) = true := by rcases severity with h | h <;> simp [h]
  rw [raise, if_neg (Bool.eq_false_iff.mp counting), if_pos counted, raiseCounting]
  have none : s.events.rates.find? (fun r => r.code.toNat == code && r.src == src && r.obj == obj) = none := by
    rw [List.find?_eq_none]
    intro r mem
    rcases fresh r mem with h | h <;> simp [h]
  rw [none]
  exact pushEvent_logs fits local_

end Bump

/-! ## Row repair (R356 to R358) -/

section Repair

variable {m : Memory} {bank row k : Nat} {persistent : Bool}

theorem repairRow_none (full : freeSpare m bank = none) : repairRow m bank row persistent = none := by
  unfold repairRow
  rw [full]

/-- A repair maps its row to the free spare and leaves every other row's mapping. -/
theorem repairRow_maps (free : freeSpare m bank = some k) :
    ∃ m', repairRow m bank row persistent = some (k, m') ∧
      remapOf m' bank row = some { spare := k, row := row, persistent := persistent } ∧
      ∀ c r, (c, r) ≠ (bank, row) → remapOf m' c r = remapOf m c r := by
  let e : Nat × Remap := (bank, { spare := k, row := row, persistent := persistent })
  have miss : ∀ c r, (c, r) ≠ (bank, row) → (e.1 == c && e.2.row == r) = false := by
    intro c r other
    refine Bool.eq_false_iff.mpr fun same => other ?_
    obtain ⟨hc, hr⟩ := (Bool.and_eq_true ..).mp same
    exact Prod.ext (beq_iff_eq.mp hc).symm (beq_iff_eq.mp hr).symm
  have hit : (e.1 == bank && e.2.row == row) = true := by simp [e]
  have last : ∀ (l : List (Nat × Remap)) c r, (c, r) ≠ (bank, row) →
      ((l ++ [e]).find? fun x => x.1 == c && x.2.row == r) = l.find? fun x => x.1 == c && x.2.row == r := by
    intro l c r other
    rw [List.find?_append, List.find?_cons, miss c r other]
    simp
  unfold repairRow
  rw [free]
  dsimp only
  cases mapped : remapOf m bank row with
  | none =>
    refine ⟨_, rfl, ?_, fun c r other => congrArg _ (last m.remap c r other)⟩
    have before := Option.map_eq_none_iff.mp mapped
    unfold remapOf
    dsimp only
    rw [List.find?_append, before, Option.none_or]
    exact congrArg _ (List.find?_cons_of_pos (p := fun x : Nat × Remap => x.1 == bank && x.2.row == row) hit)
  | some old =>
    refine ⟨_, rfl, ?_, fun c r other => congrArg _ ((last _ c r other).trans ?_)⟩
    · unfold remapOf
      dsimp only
      rw [List.find?_append, List.find?_eq_none.mpr, Option.none_or]
      · exact congrArg _ (List.find?_cons_of_pos (p := fun x : Nat × Remap => x.1 == bank && x.2.row == row) hit)
      · intro x mem same
        have kept := (List.mem_filter.mp mem).2
        simp [same] at kept
    · rw [List.find?_filter]
      congr 1
      funext x
      by_cases here : (x.1 == c && x.2.row == r) = true
      · have away : (x.1 == bank && x.2.row == row) = false := by
          refine Bool.eq_false_iff.mpr fun same => other ?_
          obtain ⟨hc, hr⟩ := (Bool.and_eq_true ..).mp here
          obtain ⟨hb, hw⟩ := (Bool.and_eq_true ..).mp same
          exact Prod.ext ((beq_iff_eq.mp hc).symm.trans (beq_iff_eq.mp hb)) ((beq_iff_eq.mp hr).symm.trans (beq_iff_eq.mp hw))
        rw [here, away]
        rfl
      · rw [Bool.eq_false_iff.mpr here]
        simp

theorem repairRow_rest {m' : Memory} (repaired : repairRow m bank row persistent = some (k, m')) :
    m'.cells = m.cells ∧ m'.poison = m.poison ∧ m'.sweep = m.sweep ∧ m'.sweepAt = m.sweepAt := by
  unfold repairRow at repaired
  split at repaired
  · exact absurd repaired nofun
  · dsimp only at repaired
    split at repaired
    · cases repaired
      exact ⟨rfl, rfl, rfl, rfl⟩
    · cases repaired
      exact ⟨rfl, rfl, rfl, rfl⟩

end Repair

/-! ## A region of the sweep -/

section Sweep

variable {s : State} {e : SweepObs} {r : Nat}

theorem sweepSkip_here (known : r < 262144) (working : works s (.group (Fin.ofNat 8 (r / 32768))) = true) (n : Nat) :
    sweepSkip s (n + 1) r = r := by
  unfold sweepSkip
  dsimp only
  rw [Nat.mod_eq_of_lt known, if_pos working]

theorem eccApply_clean {x : Ecc} (corrected : x.corrected = []) (poisoned : x.poisoned = []) : eccApply s x = s := by
  unfold eccApply
  rw [corrected, poisoned]
  rfl

theorem sweepRegion_quiet (corrected : e.ecc.corrected = []) (poisoned : e.ecc.poisoned = []) (quiet : e.march = false) :
    sweepRegion s r e = s := by
  unfold sweepRegion
  rw [eccApply_clean corrected poisoned]
  simp only [quiet, Bool.not_false, if_true]

theorem sweepRegion_transient (corrected : e.ecc.corrected = []) (poisoned : e.ecc.poisoned = []) (march : e.march = true)
    (passed : e.retest = false) : sweepRegion s r e = bump s (0x40 + groupOf (r * 64)) 0 0x32 := by
  unfold sweepRegion
  rw [eccApply_clean corrected poisoned]
  simp only [march, passed, Bool.not_true, Bool.not_false, Bool.false_eq_true, if_false, if_true]

/-- The row of a region, by bank and row. -/
def regionRow (r : Nat) : Nat × Nat := bankRow (r * 64)

theorem sweepRegion_repaired {k : Nat} {m : Memory} (corrected : e.ecc.corrected = []) (poisoned : e.ecc.poisoned = [])
    (march : e.march = true) (retest : e.retest = true)
    (repaired : repairRow s.mem (regionRow r).1 (regionRow r).2 false = some (k, m)) :
    sweepRegion s r e = raise { bump s (0x40 + groupOf (r * 64)) 0 0x33 with mem := m } 0x0A04 (0x40 + groupOf (r * 64))
      (beBytes 1 (regionRow r).1 ++ beBytes 2 (regionRow r).2 ++ beBytes 1 k) := by
  have same : (bump s (0x40 + groupOf (r * 64)) 0 0x33).mem = s.mem := rfl
  unfold sweepRegion
  rw [eccApply_clean corrected poisoned]
  simp only [march, retest, Bool.not_true, Bool.false_eq_true, if_false]
  unfold regionRow at repaired
  rw [same, repaired]
  rfl

theorem sweepRegion_unrepairable (corrected : e.ecc.corrected = []) (poisoned : e.ecc.poisoned = []) (march : e.march = true)
    (retest : e.retest = true) (full : repairRow s.mem (regionRow r).1 (regionRow r).2 false = none) :
    sweepRegion s r e = raise (bump s (0x40 + groupOf (r * 64)) 0 0x33) 0x0A05 (0x40 + groupOf (r * 64))
      (beBytes 1 (regionRow r).1 ++ beBytes 2 (regionRow r).2) := by
  have same : (bump s (0x40 + groupOf (r * 64)) 0 0x33).mem = s.mem := rfl
  unfold sweepRegion
  rw [eccApply_clean corrected poisoned]
  simp only [march, retest, Bool.not_true, Bool.false_eq_true, if_false]
  unfold regionRow at full
  rw [same, full]
  rfl

/-- A region's steps leave every byte, the poison and the place of the sweep. -/
theorem sweepRegion_keeps (corrected : e.ecc.corrected = []) (poisoned : e.ecc.poisoned = []) :
    Alters [.mem, .events, .counters] s (sweepRegion s r e) ∧ (sweepRegion s r e).mem.cells = s.mem.cells ∧
      (sweepRegion s r e).mem.poison = s.mem.poison ∧ (sweepRegion s r e).mem.sweep = s.mem.sweep ∧
      (sweepRegion s r e).mem.sweepAt = s.mem.sweepAt := by
  have bumped : ∀ code, Alters [.mem, .events, .counters] s (bump s (0x40 + groupOf (r * 64)) 0 code) :=
    fun code => frame_mono (by decide) bump_alters
  cases march : e.march with
  | false =>
    rw [sweepRegion_quiet corrected poisoned march]
    exact ⟨frame_refl _ s, rfl, rfl, rfl, rfl⟩
  | true =>
    cases retest : e.retest with
    | false =>
      rw [sweepRegion_transient corrected poisoned march retest]
      exact ⟨bumped _, rfl, rfl, rfl, rfl⟩
    | true =>
      cases repaired : repairRow s.mem (regionRow r).1 (regionRow r).2 false with
      | none =>
        rw [sweepRegion_unrepairable corrected poisoned march retest repaired, raise_mem]
        exact ⟨frame_raise (by decide) (bumped _), rfl, rfl, rfl, rfl⟩
      | some found =>
        obtain ⟨k, m⟩ := found
        rw [sweepRegion_repaired corrected poisoned march retest repaired, raise_mem]
        exact ⟨frame_raise (by decide) (frame_State_onMem (f := fun _ => m) (by decide) (bumped _)), repairRow_rest repaired⟩

theorem groupOf_region (known : r < 262144) : groupOf (r * 64) = r / 32768 := by
  unfold groupOf
  omega

/-- The state in which a background sweep visits its region: the place moved on, the time noted. -/
def sweepMoved (s : State) : State := s.onMem fun m => { m with sweep := (s.mem.sweep + 1) % 262144, sweepAt := s.clock.age }

theorem sweepRegionStart_background (served : inService s = true) (works4 : halted s 4 = false) (wake : s.mem.wakeScrub = false)
    (noOp : sweepOp s = none) (due : 30000 ≤ since s s.mem.sweepAt) (known : s.mem.sweep < 262144)
    (working : works s (.group (Fin.ofNat 8 (s.mem.sweep / 32768))) = true) :
    exec (.sweepRegionStart e) s = .next (sweepRegion (sweepMoved s) s.mem.sweep e) := by
  change execSweepRegionStart e s = _
  unfold execSweepRegionStart
  rw [if_neg (by simp [served, works4, wake]), noOp]
  dsimp only
  rw [whenDue_pos (by simpa using due), sweepSkip_here known working]
  rfl

theorem sweepRegionStart_early (noOp : sweepOp s = none) (early : since s s.mem.sweepAt < 30000) :
    exec (.sweepRegionStart e) s = .next s := by
  change execSweepRegionStart e s = _
  unfold execSweepRegionStart
  split
  · rfl
  · rw [noOp]
    exact congrArg Host.Outcome.next (whenDue_neg (by simpa using early))

theorem sweepRegionStart_visits (served : inService s = true) (works4 : halted s 4 = false) (wake : s.mem.wakeScrub = false)
    (noOp : sweepOp s = none) (due : 30000 ≤ since s s.mem.sweepAt) (known : s.mem.sweep < 262144)
    (working : works s (.group (Fin.ofNat 8 (s.mem.sweep / 32768))) = true) (corrected : e.ecc.corrected = [])
    (poisoned : e.ecc.poisoned = []) :
    let src := 0x40 + s.mem.sweep / 32768
    let b := bankRow (s.mem.sweep * 64)
    ∃ t, exec (.sweepRegionStart e) s = .next t ∧ Alters [.mem, .events, .counters] s t ∧
      t.mem.sweep = (s.mem.sweep + 1) % 262144 ∧ t.mem.sweepAt = s.clock.age ∧ t.mem.cells = s.mem.cells ∧
      t.mem.poison = s.mem.poison ∧
      (e.march = false → t.counters = s.counters ∧ t.events = s.events ∧ t.mem.remap = s.mem.remap) ∧
      (e.march = true → e.retest = false → counterOf t src 0 0x32 = counterOf s src 0 0x32 + 1 ∧ t.events = s.events ∧
        t.mem.remap = s.mem.remap) ∧
      (e.march = true → e.retest = true → counterOf t src 0 0x33 = counterOf s src 0 0x33 + 1 ∧
        (∀ k, freeSpare s.mem b.1 = some k →
          remapOf t.mem b.1 b.2 = some { spare := k, row := b.2, persistent := false } ∧
          (∀ c r, (c, r) ≠ b → remapOf t.mem c r = remapOf s.mem c r) ∧
          Logs s t 0x0A04 src (beBytes 1 b.1 ++ beBytes 2 b.2 ++ beBytes 1 k)) ∧
        (freeSpare s.mem b.1 = none → t.mem.remap = s.mem.remap ∧
          ((∀ r ∈ s.events.rates, r.code.toNat ≠ 0x0A05 ∨ r.src ≠ src) →
            Logs s t 0x0A05 src (beBytes 1 b.1 ++ beBytes 2 b.2)))) := by
  intro src b
  have group : 0x40 + groupOf (s.mem.sweep * 64) = src := congrArg (0x40 + ·) (groupOf_region known)
  have local_ : src < 256 := by
    unfold src
    omega
  obtain ⟨visit, cells, poison, sweep, sweepAt⟩ := sweepRegion_keeps (s := sweepMoved s) (r := s.mem.sweep) corrected poisoned
  have frame : Alters [.mem, .events, .counters] s (sweepRegion (sweepMoved s) s.mem.sweep e) :=
    frame_trans (frame_State_onMem (by decide) (frame_refl _ s)) visit
  refine ⟨_, sweepRegionStart_background served works4 wake noOp due known working, frame, sweep, sweepAt, cells, poison,
    fun quiet => ?_, fun march passed => ?_, fun march retest => ?_⟩
  · rw [sweepRegion_quiet corrected poisoned quiet]
    exact ⟨rfl, rfl, rfl⟩
  · rw [sweepRegion_transient corrected poisoned march passed, group]
    exact ⟨counterOf_bump (s := sweepMoved s), rfl, rfl⟩
  · have counted : counterOf (bump (sweepMoved s) src 0 0x33) src 0 0x33 = counterOf s src 0 0x33 + 1 :=
      counterOf_bump (s := sweepMoved s)
    cases spare : freeSpare s.mem b.1 with
    | none =>
      have full : repairRow (sweepMoved s).mem (regionRow s.mem.sweep).1 (regionRow s.mem.sweep).2 false = none := repairRow_none spare
      rw [sweepRegion_unrepairable corrected poisoned march retest full, group]
      refine ⟨?_, fun k found => absurd found nofun, fun _ => ⟨?_, fun fresh => ?_⟩⟩
      · rw [counterOf, raise_counters]
        exact counted
      · rw [raise_mem]
        rfl
      · exact logs_at (raise_logs_source (s := bump (sweepMoved s) src 0 0x33) (by decide) (by decide) fresh (by decide) local_) rfl
    | some k =>
      obtain ⟨m, repaired, mapped, others⟩ := repairRow_maps (m := (sweepMoved s).mem) (row := b.2) (persistent := false) spare
      rw [sweepRegion_repaired corrected poisoned march retest repaired, group]
      refine ⟨?_, fun k' found => ?_, fun full => absurd full nofun⟩
      · rw [counterOf, raise_counters]
        exact counted
      · cases found
        rw [raise_mem]
        exact ⟨mapped, others, logs_at (raise_logs_plain (by decide) (by decide) (by decide) local_) rfl⟩

/-! ## MEM.SWEEP (R360) -/

theorem fastNext_inside (inside : r % 32768 + 1 < 32768) (more : r < 262143)
    (working : works s (.group (Fin.ofNat 8 (r / 32768))) = true) : fastNext s r = r + 1 := by
  have group : (r + 1) / 32768 = r / 32768 := by omega
  have next : sweepSkip s 8 (r + 1) = r + 1 := sweepSkip_here (n := 7) (by omega) (by rw [group]; exact working)
  unfold fastNext
  dsimp only
  rw [if_neg (by omega), next, if_neg (by omega)]

theorem sweepRegionStart_fast_early {o : Op} (runs : sweepOp s = some o) (early : since s s.mem.sweepAt < 600) :
    exec (.sweepRegionStart e) s = .next s := by
  change execSweepRegionStart e s = _
  unfold execSweepRegionStart
  split
  · rfl
  · rw [runs]
    exact congrArg Host.Outcome.next (whenDue_neg (by simp [early]))

/-- A MEM.SWEEP that has visited region r, with its progress and the next region noted. -/
def fastMoved (s : State) (o : Op) (r : Nat) : State :=
  (onOp (s.onMem fun m => { m with sweepAt := s.clock.age }) o.handle.toNat fun o =>
    { o with progress := BitVec.ofNat 16 (min (r + 1) 262143 / 4) }).onMem fun m => { m with fast := some (r + 1) }

theorem sweepRegionStart_fast {o : Op} (served : inService s = true) (works4 : halted s 4 = false) (works3 : halted s 3 = false)
    (wake : s.mem.wakeScrub = false) (runs : sweepOp s = some o) (noCancel : o.cancelPending = false) (noSuspend : o.suspendPending = false)
    (fast : s.mem.fast = some r) (inside : r % 32768 + 1 < 32768) (more : r < 262143)
    (working : works s (.group (Fin.ofNat 8 (r / 32768))) = true) (corrected : e.ecc.corrected = []) (poisoned : e.ecc.poisoned = [])
    (quiet : e.march = false) (due : 600 ≤ since s s.mem.sweepAt) : exec (.sweepRegionStart e) s = .next (fastMoved s o r) := by
  change execSweepRegionStart e s = _
  unfold execSweepRegionStart
  have boundary : ∀ x : State, sweepBoundary x o (r + 1) = (onOp x o.handle.toNat fun o =>
      { o with progress := BitVec.ofNat 16 (min (r + 1) 262143 / 4) }).onMem fun m => { m with fast := some (r + 1) } := by
    intro x
    unfold sweepBoundary
    simp only [noCancel, noSuspend, Bool.false_eq_true, if_false]
    rw [if_neg (by omega)]
  have still : sweepOp (s.onMem fun m => { m with sweepAt := s.clock.age }) = some o := runs
  have next : fastNext (s.onMem fun m => { m with sweepAt := s.clock.age }) r = r + 1 := fastNext_inside inside more working
  rw [if_neg (by simp [served, works4, wake]), runs]
  dsimp only
  rw [whenDue_pos (by simpa [works3] using due), fast, Option.getD_some, sweepSkip_here (n := 7) (by omega) working,
    sweepRegion_quiet corrected poisoned quiet, still]
  dsimp only
  rw [next, boundary]
  rfl

theorem sweepRegionStart_fast_visits {o : Op} (served : inService s = true) (works4 : halted s 4 = false) (works3 : halted s 3 = false)
    (wake : s.mem.wakeScrub = false) (runs : sweepOp s = some o) (found : opOf s o.handle.toNat = some o)
    (noCancel : o.cancelPending = false) (noSuspend : o.suspendPending = false) (fast : s.mem.fast = some r)
    (inside : r % 32768 + 1 < 32768) (more : r < 262143) (working : works s (.group (Fin.ofNat 8 (r / 32768))) = true)
    (corrected : e.ecc.corrected = []) (poisoned : e.ecc.poisoned = []) (quiet : e.march = false) (due : 600 ≤ since s s.mem.sweepAt) :
    ∃ t q, exec (.sweepRegionStart e) s = .next t ∧ Alters [.mem, .engine] s t ∧ t.mem.fast = some (r + 1) ∧
      t.mem.sweep = s.mem.sweep ∧ t.mem.cells = s.mem.cells ∧ opOf t o.handle.toNat = some q ∧ q.state = .running := by
  have frame : Alters [.mem, .engine] s (fastMoved s o r) :=
    frame_State_onMem (by decide) (frame_onOp (by decide) (frame_State_onMem (by decide) (frame_refl _ s)))
  have running : o.state = .running := by
    have picked := List.find?_some runs
    exact beq_iff_eq.mp ((Bool.and_eq_true ..).mp picked).2
  refine ⟨_, { o with progress := BitVec.ofNat 16 (min (r + 1) 262143 / 4) },
    sweepRegionStart_fast served works4 works3 wake runs noCancel noSuspend fast inside more working corrected poisoned quiet due,
    frame, rfl, rfl, rfl, ?_, running⟩
  exact (opOf_onOp (s := s.onMem fun m => { m with sweepAt := s.clock.age })
    (f := fun o => { o with progress := BitVec.ofNat 16 (min (r + 1) 262143 / 4) }) fun _ => rfl).trans (congrArg _ found)

end Sweep

/-- Settles O44: the region's outcomes one by one, in the background sweep and under MEM.SWEEP. -/
theorem memorySweepsItself : Obligations.MemorySweepsItself := by
  refine ⟨fun s runs works4 => ?_, fun s e served works4 wake noOp => ⟨sweepRegionStart_early noOp,
      fun due known working corrected poisoned => sweepRegionStart_visits served works4 wake noOp due known working corrected poisoned⟩,
    fun s e o r served works4 works3 wake runs found noCancel noSuspend fast inside more working corrected poisoned quiet =>
      ⟨sweepRegionStart_fast_early runs, sweepRegionStart_fast_visits served works4 works3 wake runs found noCancel noSuspend fast inside
        more working corrected poisoned quiet⟩, fun s wake => ⟨fun early => ?_, fun due => ?_⟩⟩
  · have run : exec .scrubWrite s = .next (s.onMem fun m => { m with scrub := m.scrub.tail }) :=
      congrArg Host.Outcome.next (whenDue_pos (by simp [runs, works4]))
    exact ⟨_, run, frame_State_onMem (List.Subset.refl _) (frame_refl _ s), rfl⟩
  · exact congrArg Host.Outcome.next (whenDue_neg (by simp [early]))
  · have run : exec .wakeScrubEnd s = .next (s.onMem fun m => { m with wakeScrub := false, sweepAt := s.clock.age }) :=
      congrArg Host.Outcome.next (whenDue_pos (by simp [wake, due]))
    exact ⟨_, run, frame_State_onMem (List.Subset.refl _) (frame_refl _ s), rfl, rfl, rfl, rfl⟩

end Sys2Proof.Proofs
end

section
/-! Long operations as they start, wait, time out and are freed (16_long_operations.md). -/

namespace Sys2Proof.Proofs

open Sys2Proof Sys2Proof.Machine Sys2Proof.Safety Sys2Proof.Laws

section

variable {s : State} {h : Nat} {o : Op}

/-! ## An operation enters a state -/

/-- A record that enters a state at a tick. -/
def enteredOp (now : Tick) (st : OpState) (reason : Nat) (o : Op) : Op :=
  { o with state := st, reason := BitVec.ofNat 8 reason, since := now, timing := st == .suspended, suspendPending := false,
           cancelPending := false }

theorem opEnter_engine (st : OpState) (reason : Nat) :
    (opEnter s h st reason).engine = (onOp s h (enteredOp s.clock.age st reason)).engine := by
  unfold opEnter
  extract_lets s1
  split
  · exact raise_engine
  · rfl

theorem opOf_opEnter (st : OpState) (reason : Nat) :
    opOf (opEnter s h st reason) h = (opOf s h).map (enteredOp s.clock.age st reason) := by
  rw [opOf_congr (opEnter_engine st reason)]
  exact opOf_onOp fun _ => rfl

theorem trimOps_subset {q : Op} (mem : q ∈ (trimOps s).engine.ops) : q ∈ s.engine.ops := by
  unfold trimOps at mem
  dsimp only at mem
  split at mem
  · split at mem
    · exact (List.mem_filter.mp mem).1
    · exact mem
  · exact mem

/-- A record of the handle that an end leaves is in the state of the end. -/
theorem opOf_opEnd {q : Op} (st : OpState) (reason : Nat) (found : opOf (opEnd s h st reason) h = some q) :
    ∃ o, q = enteredOp s.clock.age st reason o := by
  have mem := trimOps_subset (opOf_mem found)
  rw [opEnter_engine] at mem
  obtain ⟨o, -, rfl⟩ := List.mem_map.mp mem
  have handle := opOf_handle found
  split at handle
  · exact ⟨o, by rw [if_pos (by assumption)]⟩
  · next other => exact absurd (beq_iff_eq.mpr handle) other

/-! ## Waiting and starting (R502, R507) -/

theorem opStart_run (runs : opsRun s = true) {b : BitVec 16} : exec (.opStart b) s = .next (opTry b.toNat s) :=
  congrArg Host.Outcome.next (whenDue_pos runs)

theorem opTry_waits (found : opOf s h = some o) (queued : o.state = .queued) (goes : flushStopping s o.handle = false)
    (waits : opReason s o ≠ 0) : opTry h s = onOp s h fun x => { x with reason := BitVec.ofNat 8 (opReason s o) } := by
  unfold opTry
  rw [found]
  dsimp only
  rw [if_neg (by simp [queued, goes]), if_neg (by simpa using waits)]

theorem opTry_starts (found : opOf s h = some o) (queued : o.state = .queued) (goes : flushStopping s o.handle = false)
    (ready : opReason s o = 0) : opTry h s = opStart s o := by
  unfold opTry
  rw [found]
  dsimp only
  rw [if_neg (by simp [queued, goes]), if_pos (by simpa using ready)]

theorem opReason_held (held : objectHeld s o = true) : opReason s o = 2 := by
  unfold opReason
  exact if_pos (by simp [held])

theorem opReason_short (free : objectHeld s o = false) (first : earlierQueued s o = []) (gated : o.gated = true)
    (short : energyOk s (opEnergy o) = false) : opReason s o = 1 := by
  unfold opReason
  simp [free, first, gated, energyPass, short]

theorem opReason_ready (free : objectHeld s o = false) (first : earlierQueued s o = []) (enough : energyOk s (opEnergy o) = true)
    (metered : ungated s = false) : opReason s o = 0 := by
  unfold opReason
  simp [free, first, energyPass, enough, metered]

/-- A MEM.SWEEP that starts. -/
def sweepStarted (o : Op) : Op :=
  { o with holds := true, committing := o.gated || o.committing, gated := false, progress := startProgress o }

theorem opStart_sweep (opcode : o.opcode = 0x0F02) (fresh : o.holds = false) :
    opStart s o = (opEnter (onOp s o.handle.toNat fun _ => sweepStarted o) o.handle.toNat .running 0).onMem
      fun m => { m with fast := some 0 } := by
  have number : o.opcode.toNat = 0x0F02 := by rw [opcode]; rfl
  unfold opStart sweepStarted
  simp only [number, fresh, Bool.false_eq_true, if_false, Bool.not_false, Bool.and_true]

/-- A fresh MEM.SWEEP starts Running at region 0, holding the memory. -/
theorem opStart_sweep_runs (found : opOf s h = some o) (opcode : o.opcode = 0x0F02) (fresh : o.holds = false) :
    Alters [.mem, .engine, .events] s (opStart s o) ∧ (opStart s o).mem.fast = some 0 ∧ (opStart s o).mem.cells = s.mem.cells ∧
      ∃ q, opOf (opStart s o) h = some q ∧ q.state = .running ∧ q.holds = true ∧ q.hand = o.hand := by
  have handle := opOf_handle found
  rw [opStart_sweep opcode fresh, handle]
  have enter : Alters [.engine, .events] s (opEnter (onOp s h fun _ => sweepStarted o) h .running 0) :=
    frame_opEnter (List.Subset.refl _) (frame_onOp (by decide) (frame_refl _ s))
  have record : opOf (onOp s h fun _ => sweepStarted o) h = some (sweepStarted o) := by
    refine (opOf_onOp_at fun x same => ?_).trans (congrArg _ found)
    exact BitVec.eq_of_toNat_eq (handle.trans same.symm)
  refine ⟨frame_State_onMem (by decide) (frame_mono (by decide) enter), rfl, ?_, enteredOp s.clock.age .running 0 (sweepStarted o), ?_,
    rfl, rfl, rfl⟩
  · exact congrArg (fun m => m.cells) (same_mem enter (by decide))
  · exact (opOf_opEnter .running 0).trans (congrArg _ record)

theorem opStart_judges {b : BitVec 16} (runs : opsRun s = true) (found : opOf s b.toNat = some o) (queued : o.state = .queued)
    (goes : flushStopping s o.handle = false) :
    (objectHeld s o = true →
      exec (.opStart b) s = .next (onOp s b.toNat fun x => { x with reason := 2 })) ∧
    (objectHeld s o = false → earlierQueued s o = [] → o.gated = true → energyOk s (opEnergy o) = false →
      exec (.opStart b) s = .next (onOp s b.toNat fun x => { x with reason := 1 })) ∧
    (objectHeld s o = false → earlierQueued s o = [] → o.gated = true → energyOk s (opEnergy o) = true → ungated s = false →
      o.opcode = 0x0F02 → o.holds = false →
      ∃ t, exec (.opStart b) s = .next t ∧ Alters [.mem, .engine, .events] s t ∧ t.mem.fast = some 0 ∧ t.mem.cells = s.mem.cells ∧
        ∃ q, opOf t b.toNat = some q ∧ q.state = .running ∧ q.holds = true ∧ q.hand = o.hand) := by
  refine ⟨fun held => ?_, fun free first gated short => ?_, fun free first _ enough metered opcode fresh => ?_⟩
  · have reason := opReason_held held
    rw [opStart_run runs, opTry_waits found queued goes (by rw [reason]; decide), reason]
    rfl
  · have reason := opReason_short free first gated short
    rw [opStart_run runs, opTry_waits found queued goes (by rw [reason]; decide), reason]
    rfl
  · refine ⟨_, ?_, opStart_sweep_runs found opcode fresh⟩
    rw [opStart_run runs, opTry_starts found queued goes (opReason_ready free first enough metered)]

/-! ## ENERGY_CHECK (R78, R79) -/

theorem energyCheck_idle (wards : s.vault.wardNext = []) (none_ : ∀ o ∈ s.engine.ops, o.state ≠ .queued) :
    exec .energyCheck s = .next s := by
  change execEnergyCheck s = _
  unfold execEnergyCheck whenDue
  have waits : (s.engine.ops.filter fun o => o.state == .queued && (o.gated || o.committing)) = [] :=
    List.filter_eq_nil_iff.mpr fun o mem => by simp [none_ o mem]
  simp only [waits, List.map_nil, each_nil, ite_self, wards]

theorem energyCheck_starts (due : atTrick s = true) (shell : shellRuns s = true) (wards : s.vault.wardNext = [])
    (only : s.engine.ops = [o]) (queued : o.state = .queued) (opcode : o.opcode = 0x0F02) (gated : o.gated = true)
    (fresh : o.holds = false) (runs : opsRun s = true) (goes : flushStopping s o.handle = false) (metered : ungated s = false)
    (enough : energyOk s 40 = true) :
    ∃ t, exec .energyCheck s = .next t ∧ Alters [.mem, .engine, .events] s t ∧ t.mem.fast = some 0 ∧
      ∃ q, opOf t o.handle.toNat = some q ∧ q.state = .running := by
  have found : opOf s o.handle.toNat = some o := by
    unfold opOf
    rw [only]
    exact List.find?_cons_of_pos (beq_iff_eq.mpr rfl)
  have energy : energyOk s (opEnergy o) = true := by
    have number : opEnergy o = 40 := by
      unfold opEnergy
      rw [opcode]
      rfl
    rw [number, enough]
  have free : objectHeld s o = false := by
    unfold objectHeld
    simp [only]
  have first : earlierQueued s o = [] := by
    unfold earlierQueued
    simp [only]
  obtain ⟨alters, fast, -, q, record, running, -, -⟩ := opStart_sweep_runs found opcode fresh
  refine ⟨opStart s o, ?_, alters, fast, q, record, running⟩
  have kept : (opStart s o).vault.wardNext = [] := (congrArg (fun v => v.wardNext) (same_vault alters (by decide))).trans wards
  have waits : (s.engine.ops.filter fun o => o.state == .queued && (o.gated || o.committing)) = [o] := by
    simp [only, queued, gated]
  change execEnergyCheck s = _
  unfold execEnergyCheck
  rw [whenDue_pos (by simp [due, shell])]
  simp only [waits, runs, if_true, List.map_cons, List.map_nil, each_cons, each_nil]
  rw [opTry_starts found queued goes (opReason_ready free first energy metered), kept]
  rfl

/-! ## Time limits (R497, R499) -/

theorem opSuspendTimeout_ends {b : BitVec 16} (found : opOf s b.toNat = some o) (suspended : o.state = .suspended)
    (timing : o.timing = true) (opcode : o.opcode = 0x0F02) (works : halted s 3 = false) (goes : flushStopping s b = false)
    (late : 180000000000 ≤ since s o.since) :
    ∃ t, exec (.opSuspendTimeout b) s = .next t ∧ Alters [.mem, .engine, .events] s t ∧ t.mem.cells = s.mem.cells ∧
      ∀ q, opOf t b.toNat = some q → q.state = .failed ∧ q.reason = 0x21 := by
  have number : o.opcode.toNat = 0x0F02 := by rw [opcode]; rfl
  have handle := opOf_handle found
  have rollback : opRollback s o .failed 0x21 = opEnd (s.onMem fun m => { m with fast := none }) b.toNat .failed 0x21 := by
    unfold opRollback
    simp only [number, handle]
  have run : exec (.opSuspendTimeout b) s = .next (opEnd (s.onMem fun m => { m with fast := none }) b.toNat .failed 0x21) := by
    change execOpSuspendTimeout b s = _
    unfold execOpSuspendTimeout
    rw [found]
    dsimp only
    rw [whenDue_pos (by simp [suspended, timing, works, goes, late]), rollback]
  have end_ : Alters [.engine, .events] (s.onMem fun m => { m with fast := none })
      (opEnd (s.onMem fun m => { m with fast := none }) b.toNat .failed 0x21) := frame_opEnd (List.Subset.refl _) (frame_refl _ _)
  refine ⟨_, run, frame_trans (frame_State_onMem (by decide) (frame_refl _ s)) (frame_mono (by decide) end_), ?_, fun q record => ?_⟩
  · exact congrArg (fun m => m.cells) (same_mem end_ (by decide))
  · obtain ⟨x, rfl⟩ := opOf_opEnd .failed 0x21 record
    exact ⟨rfl, rfl⟩

theorem opSuspendTimeout_early {b : BitVec 16} (found : opOf s b.toNat = some o) (early : since s o.since < 180000000000) :
    exec (.opSuspendTimeout b) s = .next s := by
  change execOpSuspendTimeout b s = _
  unfold execOpSuspendTimeout
  rw [found]
  exact congrArg Host.Outcome.next (whenDue_neg (by simp [early]))

theorem opRecordFree_frees {b : BitVec 16} (found : opOf s b.toNat = some o) (dead : o.state.live = false)
    (late : 16384 * 589824 ≤ since s o.since) :
    ∃ t, exec (.opRecordFree b) s = .next t ∧ Alters [.engine] s t ∧ (∀ q ∈ t.engine.ops, q.handle ≠ b) ∧
      ∀ q ∈ s.engine.ops, q.handle ≠ b → q ∈ t.engine.ops := by
  have run : exec (.opRecordFree b) s = .next (s.onEngine fun e => { e with ops := e.ops.filter fun x => x.handle != b }) := by
    change execOpRecordFree b s = _
    unfold execOpRecordFree
    rw [found]
    exact congrArg Host.Outcome.next (whenDue_pos (by simpa [dead, trickTicks] using late))
  refine ⟨_, run, frame_State_onEngine (List.Subset.refl _) (frame_refl _ s), fun q mem => ?_, fun q mem other => ?_⟩
  · simpa using (List.mem_filter.mp mem).2
  · exact List.mem_filter.mpr ⟨mem, by simpa using other⟩

theorem opRecordFree_early {b : BitVec 16} (found : opOf s b.toNat = some o) (early : since s o.since < 16384 * 589824) :
    exec (.opRecordFree b) s = .next s := by
  change execOpRecordFree b s = _
  unfold execOpRecordFree
  rw [found]
  exact congrArg Host.Outcome.next (whenDue_neg (by simp [trickTicks, early]))

end

/-- Settles O29: the judgement of a Queued operation gives the reason it waits for or the start; each limit by its own rule. -/
theorem operationsStartWaitAndEnd : Obligations.OperationsStartWaitAndEnd :=
  ⟨fun _ _ _ runs found queued goes => opStart_judges runs found queued goes,
    fun _ due shell wards => ⟨energyCheck_idle wards, fun _ only queued opcode gated fresh runs goes metered enough =>
      energyCheck_starts due shell wards only queued opcode gated fresh runs goes metered enough⟩,
    fun _ _ _ found => ⟨opSuspendTimeout_ends found, opSuspendTimeout_early found, opRecordFree_frees found,
      opRecordFree_early found⟩⟩

end Sys2Proof.Proofs
end

section
/-! The header decision and the preemption of a frame (R226, R239, R240, R249). -/

namespace Sys2Proof.Proofs

open Sys2Proof Sys2Proof.Machine Sys2Proof.Safety Sys2Proof.Laws

/-! ## Header faults -/

section Header

variable {p : Port} {hdr : List Byte} {ecc : Ecc} {s : State}

/-- The decision on a port with no frame open. -/
theorem headerDecision_run (served : inService s = true) (carrying : carries (s.port p) = true) (closed : (s.port p).rx = none) :
    exec (.headerDecision p hdr ecc) s = .next (
      let h := Header.decode hdr
      if !headerCrcGood hdr then countPort s p 0x01
      else if h.btSlot != (s.port p).rxSlot && (s.port p).rxOtherReleased then countPort s p 0x0C
      else if headerBad h (tableB ((s.port p).rxTable h.btSlot)) then countPort s p 0x02
      else if !ingressOpen s p && !(h.akind == 3 && (s.pipe p).resetting < 2) then countPort s p 0x08
      else if linkBlocked (s.port p) && !(h.akind == 3) then s
      else takeHeader (eccApply s ecc) p h) := by
  change execHeaderDecision p hdr ecc s = _
  unfold execHeaderDecision
  rw [whenDue_pos (by simp [served, carrying])]
  simp only [closed, Option.isSome_none, Bool.false_eq_true, if_false]

theorem headerDecision_faults (served : inService s = true) (carrying : carries (s.port p) = true) (closed : (s.port p).rx = none) :
    (headerCrcGood hdr = false → exec (.headerDecision p hdr ecc) s = .next (countPort s p 0x01)) ∧
    (headerCrcGood hdr = true → (Header.decode hdr).btSlot ≠ (s.port p).rxSlot → (s.port p).rxOtherReleased = true →
      exec (.headerDecision p hdr ecc) s = .next (countPort s p 0x0C)) ∧
    (headerCrcGood hdr = true → (Header.decode hdr).btSlot = (s.port p).rxSlot →
      headerBad (Header.decode hdr) (tableB ((s.port p).rxTable (s.port p).rxSlot)) = true →
      exec (.headerDecision p hdr ecc) s = .next (countPort s p 0x02)) := by
  rw [headerDecision_run served carrying closed]
  refine ⟨fun bad => ?_, fun good slot released => ?_, fun good slot bad => ?_⟩
  · simp [bad]
  · simp [good, slot, released]
  · simp [good, slot, bad]

/-! ## A good station frame (Table 8.7, R240) -/

theorem put_put_has {e : EgressSet} (own : e.has p = false) : (e.put p false).put p.other (e.has p.other) = e := by
  obtain ⟨ta, tb, loc⟩ := e
  cases p
  · exact congrArg (fun b => EgressSet.mk b tb loc) own.symm
  · exact congrArg (fun b => EgressSet.mk ta b loc) own.symm

/-- What a port keeps of the frame it takes. -/
def stationRx (s : State) (h : Header) (e : EgressSet) : RxFrame :=
  { hdr := h, meta_ := { egress := e, cls := none, policer := 0, epoch := s.tables.epoch, queue := 0, excess := false } }

/-- The copy of it that is due on the other port. -/
def stationCopy (s : State) (p : Port) (h : Header) : Transit :=
  { frame := egressCopy s p.other h none, epoch := s.tables.epoch, from_ := p, complete := false,
    due := BitVec.ofNat 64 (egressTick s) }

variable {h : Header} {e : EgressSet}

theorem meetsJump_none (realign : s.clock.realign = none) (quiet : s.clock.quietUntil = none) (t n : Nat) : meetsJump s t n = false := by
  unfold meetsJump
  rw [realign, quiet]
  rfl

theorem stepCount_none (free : s.dbg.step = none) (k : BitVec 2) (u : Nat) : stepCount s k u = s := by
  unfold stepCount
  rw [free]

/-- A frame whose ports nothing takes away is kept with the set decided, and its copy is due where the set holds the other port. -/
theorem takeHeader_station (decided : decide8 s p h = (e, none, 0, 0)) (own : e.has p = false)
    (foreign : h.srcTag ≠ ownTag s) (known : (hashFind s p h.srcTag.toNat).isSome = true) (hops : 1 < h.hopCount.toNat)
    (served : inService s = true) (noCut : s.cut.state ≠ .cut) (open_ : linkBlocked (s.port p.other) = false)
    (realign : s.clock.realign = none) (quiet : s.clock.quietUntil = none) (free : s.dbg.step = none)
    (carrying : carries (s.port p.other) = true) :
    takeHeader s p h =
      if e.has p.other then (s.onPort p fun q => { q with rx := some (stationRx s h e) }).onPort p.other fun q =>
        { q with due := some (stationCopy s p h) }
      else s.onPort p fun q => { q with rx := some (stationRx s h e) } := by
  have alone : h.hopCount ≠ 1 := by
    intro same
    rw [same] at hops
    exact absurd hops (by decide)
  have pass : policerCharge s p 0 (h.payLen.toNat + 62) = (true, s) := by
    have blank : policerAt s 0 = 0 := rfl
    unfold policerCharge
    simp only [blank]
    exact if_pos (by decide)
  have plain : excessSet s p h e = (e, false) := by
    unfold excessSet
    simp [known]
  have left : removePorts s p h e = (e, false) := by
    unfold removePorts
    have cutFree : (s.cut.state != .cut) = true := by simpa using noCut
    simp only [open_, served, cutFree, Bool.not_false, Bool.and_true, bne_iff_ne.mpr alone, beq_eq_false_iff_ne.mpr alone, Bool.and_false]
    rw [put_put_has own]
  have notOwn : (h.akind != 3 && h.srcTag == ownTag s) = false := by simp [foreign]
  unfold takeHeader
  rw [if_neg (Bool.eq_false_iff.mp notOwn), decided]
  dsimp only
  rw [plain, pass]
  dsimp only
  rw [if_pos rfl, left]
  dsimp only
  simp only [meetsJump_none realign quiet, Bool.and_false, Bool.false_eq_true, if_false]
  have tick : ∀ f, egressTick (s.onPort p f) = egressTick s := fun f => by rw [egressTick, egressTick, State.onPort_clock]
  simp only [stepCount_none, tick, State.onPort_dbg, free, State.onPort_port_other, carrying, Bool.and_true, State.onPort_tables]
  rfl

theorem otherPort_own : (otherPort p).has p = false := by cases p <;> rfl
theorem otherPort_other : (otherPort p).has p.other = true := by cases p <;> rfl

/-- What Table 8.7 decides for a station frame. -/
theorem decide8_station (station : h.akind = 0) : decide8 s p h =
    if h.dest = ownTag s then ({ ta := false, tb := false, loc := true }, none, 0, 0)
    else if h.dest.toNat = 2 ^ 48 - 1 then ({ otherPort p with loc := true }, none, 0, 0)
    else if isGroup h.dest = true then (otherPort p, none, 0, 0)
    else if (hashFind s p h.dest.toNat).isSome = true then (egressOf 0, none, 0, 0)
    else (otherPort p, none, 0, 0) := by
  have number : h.akind.toNat = 0 := by rw [station]; rfl
  unfold decide8
  simp only [number, beq_iff_eq]

/-- The set of a station frame, row by row; the port of arrival is in none. -/
theorem decide8_cases (station : h.akind = 0) : ∃ e, decide8 s p h = (e, none, 0, 0) ∧ e.has p = false ∧
    (h.dest = ownTag s → e = { ta := false, tb := false, loc := true }) ∧
    (h.dest ≠ ownTag s → h.dest.toNat = 2 ^ 48 - 1 → e = { otherPort p with loc := true }) ∧
    (h.dest ≠ ownTag s → isGroup h.dest = false → (hashFind s p h.dest.toNat).isSome = true →
      e = { ta := false, tb := false, loc := false }) ∧
    (h.dest ≠ ownTag s → isGroup h.dest = false → (hashFind s p h.dest.toNat).isSome = false → e = otherPort p) := by
  rw [decide8_station station]
  by_cases own : h.dest = ownTag s
  · rw [if_pos own]
    exact ⟨_, rfl, by cases p <;> rfl, fun _ => rfl, fun other => absurd own other, fun other => absurd own other,
      fun other => absurd own other⟩
  rw [if_neg own]
  by_cases broadcast : h.dest.toNat = 2 ^ 48 - 1
  · have group : isGroup h.dest = true := by
      unfold isGroup
      rw [broadcast]
      decide
    rw [if_pos broadcast]
    exact ⟨_, rfl, by cases p <;> rfl, fun same => absurd same own, fun _ _ => rfl, fun _ single => absurd (group.symm.trans single) nofun,
      fun _ single => absurd (group.symm.trans single) nofun⟩
  rw [if_neg broadcast]
  by_cases group : isGroup h.dest = true
  · rw [if_pos group]
    exact ⟨_, rfl, otherPort_own, fun same => absurd same own, fun _ all => absurd all broadcast,
      fun _ single => absurd (group.symm.trans single) nofun, fun _ _ _ => rfl⟩
  rw [if_neg group]
  by_cases filtered : (hashFind s p h.dest.toNat).isSome = true
  · rw [if_pos filtered]
    exact ⟨_, rfl, by cases p <;> rfl, fun same => absurd same own, fun _ all => absurd all broadcast, fun _ _ _ => rfl,
      fun _ _ missing => absurd (filtered.symm.trans missing) nofun⟩
  · rw [if_neg filtered]
    exact ⟨_, rfl, otherPort_own, fun same => absurd same own, fun _ all => absurd all broadcast,
      fun _ _ hit => absurd hit filtered, fun _ _ _ => rfl⟩

variable {t : State} {r : RxFrame}

/-- What a taken station frame leaves on the ports, by the set decided. -/
structure StationTaken (s t : State) (p : Port) (h : Header) (e : EgressSet) : Prop where
  alters : Alters [.portA, .portB] s t
  rx : (t.port p).rx = some (stationRx s h e)
  due : e.has p.other = true → (t.port p.other).due = some (stationCopy s p h)

theorem takeHeader_taken (decided : decide8 s p h = (e, none, 0, 0)) (own : e.has p = false)
    (foreign : h.srcTag ≠ ownTag s) (known : (hashFind s p h.srcTag.toNat).isSome = true) (hops : 1 < h.hopCount.toNat)
    (served : inService s = true) (noCut : s.cut.state ≠ .cut) (open_ : linkBlocked (s.port p.other) = false)
    (realign : s.clock.realign = none) (quiet : s.clock.quietUntil = none) (free : s.dbg.step = none)
    (carrying : carries (s.port p.other) = true) : StationTaken s (takeHeader s p h) p h e := by
  rw [takeHeader_station decided own foreign known hops served noCut open_ realign quiet free carrying]
  have first : Alters [.portA, .portB] s (s.onPort p fun q => { q with rx := some (stationRx s h e) }) :=
    frame_State_onPort (List.Subset.refl _) (frame_refl _ s)
  split
  · refine ⟨frame_State_onPort (List.Subset.refl _) first, ?_, fun _ => ?_⟩
    · have back := State.onPort_port_other (s := s.onPort p fun q => { q with rx := some (stationRx s h e) }) p.other
        fun q => { q with due := some (stationCopy s p h) }
      rw [other_other] at back
      rw [back, State.onPort_port]
    · rw [State.onPort_port]
  · next none_ => exact ⟨first, by rw [State.onPort_port], fun some_ => absurd some_ none_⟩

theorem headerDecision_takes {ecc : Ecc} (served : inService s = true) (carrying : carries (s.port p) = true)
    (closed : (s.port p).rx = none) (good : headerCrcGood hdr = true) (decoded : h = Header.decode hdr) (slot : h.btSlot = (s.port p).rxSlot)
    (sound : headerBad h (tableB ((s.port p).rxTable h.btSlot)) = false) (ingress : ingressOpen s p = true)
    (unblocked : linkBlocked (s.port p) = false) (clean : eccApply s ecc = s) :
    exec (.headerDecision p hdr ecc) s = .next (takeHeader s p h) := by
  rw [headerDecision_run served carrying closed]
  dsimp only
  rw [← decoded, clean]
  simp [good, slot.symm, sound, ingress, unblocked]

theorem headerDecision_station {ecc : Ecc} (served : inService s = true) (carrying : carries (s.port p) = true)
    (closed : (s.port p).rx = none) (good : headerCrcGood hdr = true) (decoded : h = Header.decode hdr) (slot : h.btSlot = (s.port p).rxSlot)
    (sound : headerBad h (tableB ((s.port p).rxTable h.btSlot)) = false) (ingress : ingressOpen s p = true)
    (unblocked : linkBlocked (s.port p) = false) (clean : eccApply s ecc = s) (station : h.akind = 0) (foreign : h.srcTag ≠ ownTag s)
    (known : (hashFind s p h.srcTag.toNat).isSome = true) (hops : 1 < h.hopCount.toNat) (noCut : s.cut.state ≠ .cut)
    (open_ : linkBlocked (s.port p.other) = false) (realign : s.clock.realign = none) (quiet : s.clock.quietUntil = none)
    (free : s.dbg.step = none) (carryOther : carries (s.port p.other) = true) :
    ∃ t r, exec (.headerDecision p hdr ecc) s = .next t ∧ Alters [.portA, .portB] s t ∧ (t.port p).rx = some r ∧ r.hdr = h ∧
      r.meta_.epoch = s.tables.epoch ∧
      (h.dest = ownTag s → r.meta_.egress = { ta := false, tb := false, loc := true }) ∧
      (h.dest ≠ ownTag s → h.dest.toNat = 2 ^ 48 - 1 → r.meta_.egress = { otherPort p with loc := true }) ∧
      (h.dest ≠ ownTag s → isGroup h.dest = false → (hashFind s p h.dest.toNat).isSome = true →
        r.meta_.egress = { ta := false, tb := false, loc := false }) ∧
      (h.dest ≠ ownTag s → isGroup h.dest = false → (hashFind s p h.dest.toNat).isSome = false →
        r.meta_.egress = otherPort p ∧ ∃ d, (t.port p.other).due = some d ∧ d.from_ = p ∧ d.complete = false ∧
          d.frame.hdr.hopCount = h.hopCount - 1 ∧ d.frame.hdr.dest = h.dest ∧ d.frame.hdr.srcTag = h.srcTag ∧
          d.due = BitVec.ofNat 64 ((s.clock.line.toNat / 9216 + 1) * 9216)) := by
  obtain ⟨e, decided, own, cases_⟩ : ∃ e, decide8 s p h = (e, none, 0, 0) ∧ e.has p = false ∧
      (h.dest = ownTag s → e = { ta := false, tb := false, loc := true }) ∧
      (h.dest ≠ ownTag s → h.dest.toNat = 2 ^ 48 - 1 → e = { otherPort p with loc := true }) ∧
      (h.dest ≠ ownTag s → isGroup h.dest = false → (hashFind s p h.dest.toNat).isSome = true →
        e = { ta := false, tb := false, loc := false }) ∧
      (h.dest ≠ ownTag s → isGroup h.dest = false → (hashFind s p h.dest.toNat).isSome = false → e = otherPort p) := by
    exact decide8_cases station
  obtain ⟨ownCase, broadcast, filtered, unknown⟩ := cases_
  have taken := takeHeader_taken decided own foreign known hops served noCut open_ realign quiet free carryOther
  refine ⟨_, stationRx s h e, headerDecision_takes served carrying closed good decoded slot sound ingress unblocked clean,
    taken.alters, taken.rx, rfl, rfl, ownCase, broadcast, filtered, fun other single missing => ⟨unknown other single missing,
      stationCopy s p h, ?_, rfl, rfl, rfl, rfl, rfl, rfl⟩⟩
  exact taken.due (by rw [unknown other single missing]; exact otherPort_other)

end Header

/-! ## RX_PREEMPT (R249) -/

section Preempt

variable {p : Port} {s : State} {r : RxFrame}

theorem countPort_alters (code : Nat) : Alters [.events, .counters] s (countPort s p code) :=
  frame_countPort (List.Subset.refl _) (frame_refl _ s)

theorem counterOf_countPort (code : Nat) :
    counterOf (countPort s p code) (portSrc p) 0 code = counterOf s (portSrc p) 0 code + 1 := by
  unfold countPort
  extract_lets s1 row
  have counted : counterOf s1 (portSrc p) 0 code = counterOf s (portSrc p) 0 code + 1 := counterOf_bump
  split
  · rw [counterOf, raise_counters]
    exact counted
  · exact counted

/-- A copy that has not lost its source: one of another port's frame, or one with its payload known. -/
def copyLives (p : Port) (d : Transit) : Bool := !(d.from_ == p && !d.complete)

theorem copyLives_iff (d : Transit) : copyLives p d = true ↔ d.from_ ≠ p ∨ d.complete = true := by
  by_cases same : d.from_ = p <;> simp [copyLives, same]

theorem rxPreempt_ends (served : inService s = true) (open_ : (s.port p).rx = some r) :
    ∃ t, exec (.rxPreempt p) s = .next t ∧ Alters [.portA, .portB, .events, .counters] s t ∧ (t.port p).rx = none ∧
      counterOf t (portSrc p) 0 0x05 = counterOf s (portSrc p) 0 0x05 + 1 ∧
      (∀ d, (t.port p.other).due = some d → (s.port p.other).due = some d ∧ (d.from_ ≠ p ∨ d.complete = true)) ∧
      (∀ d ∈ (t.port p.other).hold, d ∈ (s.port p.other).hold ∧ (d.from_ ≠ p ∨ d.complete = true)) := by
  let s1 := s.onPort p fun q => { q with rx := none }
  let s2 := countPort s1 p 0x05
  have run : exec (.rxPreempt p) s = .next (s2.onPort p.other fun q =>
      { q with due := q.due.filter (copyLives p), hold := q.hold.filter (copyLives p),
               tx := q.tx.map fun (x : TxFrame) => if x.from_ == some p then { x with from_ := none } else x }) :=
    congrArg Host.Outcome.next (whenDue_pos (by simp [served, open_]))
  have ports : ∀ q, s2.port q = s1.port q := same_port (countPort_alters _) (by decide) (by decide)
  have here : (s2.port p).rx = none := by rw [ports, State.onPort_port]
  have there : s2.port p.other = s.port p.other := by rw [ports, State.onPort_port_other]
  have counted : counterOf s2 (portSrc p) 0 0x05 = counterOf s (portSrc p) 0 0x05 + 1 :=
    (counterOf_countPort _).trans (by rw [counterOf, counterOf, State.onPort_counters])
  clear_value s2
  refine ⟨_, run, alters_of_answers (frame_execRxPreempt (List.Subset.refl _) (frame_refl _ s)) run, ?_, ?_, fun d due => ?_,
    fun d held => ?_⟩
  · have back := State.onPort_port_other (s := s2) p.other fun q =>
      { q with due := q.due.filter (copyLives p), hold := q.hold.filter (copyLives p),
               tx := q.tx.map fun (x : TxFrame) => if x.from_ == some p then { x with from_ := none } else x }
    rw [other_other] at back
    rw [back, here]
  · rw [counterOf, State.onPort_counters]
    exact counted
  · rw [State.onPort_port, there] at due
    obtain ⟨found, lives⟩ := Option.filter_eq_some_iff.mp due
    exact ⟨found, (copyLives_iff d).mp lives⟩
  · rw [State.onPort_port, there] at held
    obtain ⟨found, lives⟩ := List.mem_filter.mp held
    exact ⟨found, (copyLives_iff d).mp lives⟩

end Preempt

/-- Settles O38: the header's faults in their order, the rows of Table 8.7 for a station frame, and the preemption. -/
theorem headerDecisionTakesOrDiscards : Obligations.HeaderDecisionTakesOrDiscards :=
  ⟨fun _ _ _ _ served carrying closed => headerDecision_faults served carrying closed,
    fun _ _ _ _ _ served carrying closed good decoded slot sound ingress unblocked clean station foreign known hops noCut open_ realign
      quiet free carryOther => headerDecision_station served carrying closed good decoded slot sound ingress unblocked clean station
        foreign known hops noCut open_ realign quiet free carryOther,
    fun _ _ _ served open_ => rxPreempt_ends served open_⟩

end Sys2Proof.Proofs
end

section
/-! Terminal protection, the loop supply and role changes (12_universal_channels.md). -/

namespace Sys2Proof.Proofs

open Sys2Proof Sys2Proof.Machine Sys2Proof.Safety Sys2Proof.Laws

section

variable {s : State} {n m : Fin 24} {p : BitVec 8} {ft : Fin 96}

/-! ## Staleness and the front end on a channel -/

theorem staleBegin_chan (s : State) (n : Fin 24) (cause : Nat) :
    (staleBegin s n cause).chan n = { s.chan n with stale := ((staleBegin s n cause).chan n).stale } := by
  unfold staleBegin
  extract_lets now
  rw [State.onChan_chan]
  split <;> rfl

theorem staleEnd_chan (s : State) (n : Fin 24) (cause : Nat) :
    (staleEnd s n cause).chan n = { s.chan n with stale := ((staleEnd s n cause).chan n).stale } := by
  unfold staleEnd
  extract_lets now
  rw [State.onChan_chan]

/-- A cause that has begun is open. -/
theorem staleBegin_open (s : State) (n : Fin 24) (cause : Nat) :
    ∃ e ∈ ((staleBegin s n cause).chan n).stale, e.1 = cause ∧ e.2.2 = none := by
  unfold staleBegin
  extract_lets now
  rw [State.onChan_chan]
  split
  · next already =>
    obtain ⟨e, mem, open_⟩ := List.any_eq_true.mp already
    exact ⟨e, mem, by simpa using open_⟩
  · exact ⟨_, List.mem_append_right _ (List.mem_singleton_self _), rfl, rfl⟩

/-- A cause that has ended is open no more. -/
theorem staleEnd_closed (s : State) (n : Fin 24) (cause : Nat) :
    ∀ e ∈ ((staleEnd s n cause).chan n).stale, e.1 = cause → e.2.2 ≠ none := by
  unfold staleEnd
  extract_lets now
  rw [State.onChan_chan]
  intro e mem same
  obtain ⟨e', -, rfl⟩ := List.mem_map.mp (List.mem_filter.mp mem).1
  split
  · exact nofun
  · next other =>
    rw [if_neg other] at same
    intro open_
    exact other (by simp [same, open_])

theorem setFrontEnd_off (profile : (s.chan n).profile = some p) (open_ : anyOpen (s.chan n) (sourceTerms (isCjRef s n) p) = true) :
    ((setFrontEnd s n).chan n).sources = false ∧ ((setFrontEnd s n).chan n).shunt = false := by
  unfold setFrontEnd
  rw [State.onChan_chan, profile]
  dsimp only
  rw [open_]
  split <;> simp

/-- The front end of a channel in Measure and Full that nothing holds off. -/
theorem setFrontEnd_on (profile : (s.chan n).profile = some p) (tier : Tier.measure.rank ≤ s.tiers.tier.rank)
    (uncapped : capped (s.chan n) = false) (free : (s.chan n).restrap = false) :
    ((setFrontEnd s n).chan n).sources = ((if (s.chan n).roleStep.isSome then frontChanging p
        else frontEnd (isCjRef s n) p (s.chan n).active).1 && !anyOpen (s.chan n) (sourceTerms (isCjRef s n) p)) ∧
      ((setFrontEnd s n).chan n).shunt = ((if (s.chan n).roleStep.isSome then frontChanging p
        else frontEnd (isCjRef s n) p (s.chan n).active).2.1 && !anyOpen (s.chan n) (sourceTerms (isCjRef s n) p)) ∧
      ((setFrontEnd s n).chan n).switches = (if (s.chan n).roleStep.isSome then frontChanging p
        else frontEnd (isCjRef s n) p (s.chan n).active).2.2 := by
  unfold setFrontEnd
  rw [State.onChan_chan, profile]
  dsimp only
  rw [if_pos (by simp [tier, uncapped, free])]
  exact ⟨rfl, rfl, rfl⟩

/-! ## Disconnects (R384, R392, R393) -/

theorem setDisc_chan (b : Bool) :
    (setDisc s ft b).chan (termChan ft) = { s.chan (termChan ft) with disc := (s.chan (termChan ft)).disc.set (ft.val % 4) b } :=
  State.onChan_chan ..

theorem setDisc_chan_other (b : Bool) (h : m ≠ termChan ft) : (setDisc s ft b).chan m = s.chan m :=
  State.onChan_chan_other _ _ m _ h

/-- Channel `c'` is `c` but for its front end, stale spans and readback checks. -/
structure Refronted (c c' : Chan) : Prop where
  eta : c' = { c with sources := c'.sources, shunt := c'.shunt, switches := c'.switches, stale := c'.stale, settleEnd := c'.settleEnd,
                      checks := c'.checks, shortSince := c'.shortSince, weakSince := c'.weakSince, rangeSince := c'.rangeSince,
                      delSince := c'.delSince, pathSince := c'.pathSince }

theorem refronted_trans {c c' c'' : Chan} (h : Refronted c c') (k : Refronted c' c'') : Refronted c c'' := ⟨by rw [k.eta, h.eta]⟩

theorem setFrontEnd_refronts (s : State) (n : Fin 24) : Refronted (s.chan n) ((setFrontEnd s n).chan n) := ⟨by rw [setFrontEnd_chan]⟩

/-- The effect of DISCONNECT_OPEN once the front end is set: staleness, and the checks of an output stop. -/
def openedRest (s : State) (n : Fin 24) : State :=
  let s := if usedOpen s n then staleBegin s n 2 else s
  if isOutChan (s.chan n) then
    s.onChan n fun c => { c with checks := false, shortSince := none, weakSince := none, rangeSince := none,
                                 delSince := none, pathSince := none }
  else s

theorem openedRest_chan_other (h : m ≠ n) : (openedRest s n).chan m = s.chan m := by
  unfold openedRest
  extract_lets s1
  have first : s1.chan m = s.chan m := by
    unfold s1
    split
    · exact staleBegin_chan_other h
    · rfl
  split
  · exact (State.onChan_chan_other _ n m _ h).trans first
  · exact first

theorem openedRest_refronts (s : State) (n : Fin 24) : Refronted (s.chan n) ((openedRest s n).chan n) ∧
    ((openedRest s n).chan n).sources = (s.chan n).sources ∧ ((openedRest s n).chan n).shunt = (s.chan n).shunt := by
  unfold openedRest
  extract_lets s1
  have first : s1.chan n = { s.chan n with stale := (s1.chan n).stale } := by
    unfold s1
    split
    · exact staleBegin_chan s n 2
    · rfl
  clear_value s1
  split
  · rw [State.onChan_chan, first]
    exact ⟨⟨rfl⟩, rfl, rfl⟩
  · rw [first]
    exact ⟨⟨rfl⟩, rfl, rfl⟩

theorem openedRest_alters (s : State) (n : Fin 24) : Alters [.chans] s (openedRest s n) := by
  unfold openedRest
  extract_lets s1
  have first : Alters [.chans] s s1 := by
    unfold s1
    split
    · exact frame_staleBegin (List.Subset.refl _) (frame_refl _ s)
    · exact frame_refl _ s
  split
  · exact frame_State_onChan (List.Subset.refl _) first
  · exact first

theorem disconnectOpen_run (powered : s.supply.good.contains .van = true)
    (closed : (s.chan (termChan ft)).disc.getD (ft.val % 4) false = false) :
    exec (.disconnectOpen ft) s = .next (if shellRuns s = true then
      raise (openedRest (setFrontEnd (setDisc s ft true) (termChan ft)) (termChan ft)) 0x0B01 (termChan ft).val (beBytes 1 ft.val) ft.val
      else setDisc s ft true) := by
  change execDisconnectOpen ft s = _
  unfold execDisconnectOpen
  extract_lets n
  have same : shellRuns (setDisc s ft true) = shellRuns s := rfl
  rw [whenDue_pos (by simpa using ⟨by simpa using powered, closed⟩)]
  refine congrArg Host.Outcome.next ?_
  cases shell : shellRuns s with
  | false => exact if_pos (c := (!shellRuns (setDisc s ft true)) = true) (by rw [same, shell]; decide)
  | true => exact if_neg (c := (!shellRuns (setDisc s ft true)) = true) (by rw [same, shell]; decide)

theorem disconnectOpen_opens (powered : s.supply.good.contains .van = true) (quad : (s.chan (termChan ft)).disc.length = 4)
    (closed : (s.chan (termChan ft)).disc.getD (ft.val % 4) false = false) :
    let n := termChan ft
    ∃ t, exec (.disconnectOpen ft) s = .next t ∧ Alters [.chans, .events] s t ∧
      (t.chan n).disc = (s.chan n).disc.set (ft.val % 4) true ∧ (t.chan n).keeper = (s.chan n).keeper ∧
      (t.chan n).inControl = (s.chan n).inControl ∧ (t.chan n).latch = (s.chan n).latch ∧ (t.chan n).target = (s.chan n).target ∧
      (t.chan n).applied = (s.chan n).applied ∧ (t.chan n).commanded = (s.chan n).commanded ∧
      (∀ p, shellRuns s = true → (s.chan n).profile = some p → ft.val % 4 ∈ sourceTerms (isCjRef s n) p →
        (t.chan n).sources = false ∧ (t.chan n).shunt = false) ∧
      (shellRuns s = true → latched s 0x0B01 n.val ft.val = false → Logs s t 0x0B01 n.val (beBytes 1 ft.val)) ∧
      (∀ m, m ≠ n → t.chan m = s.chan m) := by
  intro n
  have run := disconnectOpen_run powered closed
  let s1 := setDisc s ft true
  have chan : s1.chan n = { s.chan n with disc := (s.chan n).disc.set (ft.val % 4) true } := setDisc_chan true
  have others : ∀ m, m ≠ n → s1.chan m = s.chan m := fun m => setDisc_chan_other true
  have alters := alters_of_answers (frame_execDisconnectOpen (List.Subset.refl _) (frame_refl _ s)) run
  by_cases shell : shellRuns s = true
  · rw [if_pos shell] at run alters
    obtain ⟨rest, sources, shunt⟩ := openedRest_refronts (setFrontEnd s1 n) n
    have whole : Refronted (s1.chan n) ((openedRest (setFrontEnd s1 n) n).chan n) := refronted_trans (setFrontEnd_refronts s1 n) rest
    have moved : Alters [.chans] s (openedRest (setFrontEnd s1 n) n) :=
      frame_trans (frame_setFrontEnd (List.Subset.refl _) (frame_State_onChan (List.Subset.refl _) (frame_refl _ s)))
        (openedRest_alters _ n)
    refine ⟨_, run, alters, ?_, ?_, ?_, ?_, ?_, ?_, ?_, fun p _ profile carries_ => ?_, fun _ fresh => ?_, fun m other => ?_⟩
    · rw [raise_chan, whole.eta, chan]
    · rw [raise_chan, whole.eta, chan]
    · rw [raise_chan, whole.eta, chan]
    · rw [raise_chan, whole.eta, chan]
    · rw [raise_chan, whole.eta, chan]
    · rw [raise_chan, whole.eta, chan]
    · rw [raise_chan, whole.eta, chan]
    · have open_ : anyOpen (s1.chan n) (sourceTerms (isCjRef s1 n) p) = true := by
        refine List.any_eq_true.mpr ⟨_, carries_, ?_⟩
        rw [chan]
        have inside : ft.val % 4 < (s.chan n).disc.length := by rw [quad]; omega
        simp [inside]
      have off := setFrontEnd_off (by rw [chan]; exact profile) open_
      rw [raise_chan]
      exact ⟨sources.trans off.1, shunt.trans off.2⟩
    · have local_ : n.val < 256 := by omega
      have unlatched : latched (openedRest (setFrontEnd s1 n) n) 0x0B01 n.val ft.val = false := by
        rw [latched, same_events moved (by decide)]
        exact fresh
      exact logs_at (raise_logs_latching (by decide) unlatched (by decide) local_)
        (congrArg (fun c => c.counter) (same_clock moved (by decide)))
    · rw [raise_chan, openedRest_chan_other other, setFrontEnd_chan_other other, others m other]
  · rw [if_neg shell] at run alters
    refine ⟨_, run, alters, ?_, ?_, ?_, ?_, ?_, ?_, ?_, fun p on => absurd on shell, fun on => absurd on shell, others⟩
    · exact congrArg (fun c => c.disc) chan
    · exact congrArg (fun c => c.keeper) chan
    · exact congrArg (fun c => c.inControl) chan
    · exact congrArg (fun c => c.latch) chan
    · exact congrArg (fun c => c.target) chan
    · exact congrArg (fun c => c.applied) chan
    · exact congrArg (fun c => c.commanded) chan

/-- The effect of DISCONNECT_RECLOSE once the front end is set: staleness ends, and the checks of a whole quad start again. -/
def closedRest (s : State) (n : Fin 24) : State :=
  let s := if usedOpen s n then s else staleEnd s n 2
  if isOutChan (s.chan n) && !(s.chan n).disc.contains true then restartChecks s n else s

theorem closedRest_chan_other (h : m ≠ n) : (closedRest s n).chan m = s.chan m := by
  unfold closedRest
  extract_lets s1
  have first : s1.chan m = s.chan m := by
    unfold s1
    split
    · rfl
    · exact staleEnd_chan_other h
  split
  · exact (State.onChan_chan_other _ n m _ h).trans first
  · exact first

/-- What closing leaves on the channel, and where its checks restart. -/
structure Closed (s : State) (n : Fin 24) (c : Chan) : Prop where
  refronts : Refronted (s.chan n) c
  sources : c.sources = (s.chan n).sources
  shunt : c.shunt = (s.chan n).shunt
  switches : c.switches = (s.chan n).switches
  restarts : ∀ p, (s.chan n).profile = some p → isOutput p = true → c.disc.contains true = false →
    c.settleEnd = s.clock.age + BitVec.ofNat 64 (allowance p) ∧ c.checks = false

theorem closedRest_chan (s : State) (n : Fin 24) : Closed s n ((closedRest s n).chan n) := by
  unfold closedRest
  extract_lets s1
  have first : s1.chan n = { s.chan n with stale := (s1.chan n).stale } := by
    unfold s1
    split
    · rfl
    · exact staleEnd_chan s n 2
  have clock : s1.clock = s.clock := by
    unfold s1
    split <;> rfl
  clear_value s1
  split
  · next output =>
    have chan : (restartChecks s1 n).chan n = _ := State.onChan_chan ..
    rw [first] at chan
    rw [chan]
    refine ⟨⟨rfl⟩, rfl, rfl, rfl, fun p profile _ _ => ⟨?_, rfl⟩⟩
    dsimp only
    rw [profile, clock]
  · next other =>
    rw [first] at other ⊢
    refine ⟨⟨rfl⟩, rfl, rfl, rfl, fun p profile output quad => absurd ?_ other⟩
    have quad : (s.chan n).disc.contains true = false := quad
    unfold isOutChan
    simp only [profile, output, quad]
    decide

theorem disconnectReclose_run (powered : s.supply.good.contains .van = true)
    (open_ : (s.chan (termChan ft)).disc.getD (ft.val % 4) false = true) (shell : shellRuns s = true) :
    exec (.disconnectReclose ft) s = .next (clearLatching
      (closedRest (setFrontEnd (setDisc s ft false) (termChan ft)) (termChan ft)) 0x0B01 (termChan ft).val ft.val (beBytes 1 ft.val)) := by
  change execDisconnectReclose ft s = _
  unfold execDisconnectReclose
  extract_lets n
  have same : shellRuns (setDisc s ft false) = shellRuns s := rfl
  rw [whenDue_pos (by simpa using ⟨by simpa using powered, open_⟩)]
  exact congrArg Host.Outcome.next (if_neg (c := (!shellRuns (setDisc s ft false)) = true) (by rw [same, shell]; decide))

theorem disconnectReclose_closes (powered : s.supply.good.contains .van = true)
    (open_ : (s.chan (termChan ft)).disc.getD (ft.val % 4) false = true) (shell : shellRuns s = true)
    (profile : (s.chan (termChan ft)).profile = some p) (tier : Tier.measure.rank ≤ s.tiers.tier.rank)
    (uncapped : capped (s.chan (termChan ft)) = false) (free : (s.chan (termChan ft)).restrap = false)
    (role : (s.chan (termChan ft)).roleStep = none) :
    let n := termChan ft
    ∃ t, exec (.disconnectReclose ft) s = .next t ∧ Alters [.chans, .events] s t ∧
      (t.chan n).disc = (s.chan n).disc.set (ft.val % 4) false ∧
      (anyOpen (t.chan n) (sourceTerms (isCjRef s n) p) = false →
        ((t.chan n).sources, (t.chan n).shunt, (t.chan n).switches) = frontEnd (isCjRef s n) p (s.chan n).active) ∧
      (isOutput p = true → (t.chan n).disc.contains true = false →
        (t.chan n).settleEnd = s.clock.age + BitVec.ofNat 64 (allowance p) ∧ (t.chan n).checks = false) ∧
      (t.chan n).target = (s.chan n).target ∧ (t.chan n).inControl = (s.chan n).inControl ∧ (∀ m, m ≠ n → t.chan m = s.chan m) := by
  intro n
  have run := disconnectReclose_run powered open_ shell
  have alters := alters_of_answers (frame_execDisconnectReclose (List.Subset.refl _) (frame_refl _ s)) run
  let s1 := setDisc s ft false
  have chan : s1.chan n = { s.chan n with disc := (s.chan n).disc.set (ft.val % 4) false } := setDisc_chan false
  have others : ∀ m, m ≠ n → s1.chan m = s.chan m := fun m => setDisc_chan_other false
  have rest := closedRest_chan (setFrontEnd s1 n) n
  have whole : Refronted (s1.chan n) ((closedRest (setFrontEnd s1 n) n).chan n) :=
    refronted_trans (setFrontEnd_refronts s1 n) rest.refronts
  have here : (s1.chan n).profile = some p := by rw [chan]; exact profile
  obtain ⟨sources, shunt, switches⟩ := setFrontEnd_on here tier (by rw [chan]; exact uncapped) (by rw [chan]; exact free)
  rw [show (s1.chan n).roleStep = none by rw [chan]; exact role, show (s1.chan n).active = (s.chan n).active by rw [chan]]
    at sources shunt switches
  refine ⟨_, run, alters, ?_, fun closed => ?_, fun output quad => ?_, ?_, ?_, fun m other => ?_⟩
  · rw [clearLatching_chan, whole.eta, chan]
  · rw [clearLatching_chan] at closed ⊢
    have closed : anyOpen (s1.chan n) (sourceTerms (isCjRef s n) p) = false := by
      rw [whole.eta] at closed
      exact closed
    have cj : isCjRef s1 n = isCjRef s n := rfl
    rw [cj, closed] at sources shunt
    rw [rest.sources, rest.shunt, rest.switches, sources, shunt, switches, cj]
    simp only [Option.isSome_none, Bool.false_eq_true, if_false, Bool.not_false, Bool.and_true]
  · rw [clearLatching_chan] at quad ⊢
    exact rest.restarts p (by rw [(setFrontEnd_refronts s1 n).eta]; exact here) output quad
  · rw [clearLatching_chan, whole.eta, chan]
  · rw [clearLatching_chan, whole.eta, chan]
  · rw [clearLatching_chan, closedRest_chan_other other, setFrontEnd_chan_other other, others m other]

/-! ## The loop supply (R377) -/

theorem loopSupplyFoldback_folds (loop : hasLoop (s.chan n) = true) (on : (s.chan n).sources = true) (full : (s.chan n).folded = false) :
    ∃ t, exec (.loopSupplyFoldback n) s = .next t ∧ Alters [.chans, .events] s t ∧ t.chan n = { s.chan n with folded := true } ∧
      (latched s 0x0B02 n.val 0 = false → Logs s t 0x0B02 n.val []) ∧ (∀ m, m ≠ n → t.chan m = s.chan m) := by
  have run : exec (.loopSupplyFoldback n) s = .next (raise (s.onChan n fun c => { c with folded := true }) 0x0B02 n.val []) :=
    congrArg Host.Outcome.next (whenDue_pos (by simp [loop, on, full]))
  refine ⟨_, run, alters_of_answers (frame_execLoopSupplyFoldback (List.Subset.refl _) (frame_refl _ s)) run, ?_, fun fresh => ?_,
    fun m other => ?_⟩
  · rw [raise_chan, State.onChan_chan]
  · have local_ : n.val < 256 := by omega
    exact logs_at (raise_logs_latching (s := s.onChan n fun c => { c with folded := true }) (by decide) fresh (by decide) local_) rfl
  · rw [raise_chan, State.onChan_chan_other _ n m _ other]

theorem loopSupplyRetry_fails : exec (.loopSupplyRetry n false) s = .next s :=
  congrArg Host.Outcome.next (whenDue_neg (by simp))

theorem loopSupplyRetry_restores (folded : (s.chan n).folded = true) :
    ∃ t, exec (.loopSupplyRetry n true) s = .next t ∧ Alters [.chans, .events] s t ∧ t.chan n = { s.chan n with folded := false } ∧
      (∀ m, m ≠ n → t.chan m = s.chan m) := by
  have run : exec (.loopSupplyRetry n true) s =
      .next (clearLatching (s.onChan n fun c => { c with folded := false }) 0x0B02 n.val 0 []) :=
    congrArg Host.Outcome.next (whenDue_pos (by simp [folded]))
  refine ⟨_, run, alters_of_answers (frame_execLoopSupplyRetry (List.Subset.refl _) (frame_refl _ s)) run, ?_, fun m other => ?_⟩
  · rw [clearLatching_chan, State.onChan_chan]
  · rw [clearLatching_chan, State.onChan_chan_other _ n m _ other]

/-! ## Role changes (R381) -/

theorem roleChangeStart_waits (between : atTrick s = false) : exec (.roleChangeStart n) s = .next s := by
  change execRoleChangeStart n s = _
  unfold execRoleChangeStart
  extract_lets c b
  split
  · rfl
  · exact congrArg Host.Outcome.next (whenDue_neg (by simp [between]))

theorem frontChanging_shunt (h : cpaOf p ≤ 2) : (frontChanging p).2.1 = true := by
  unfold frontChanging
  interval_cases cpaOf p <;> rfl

theorem frontChanging_sources (h : 5 ≤ cpaOf p) : (frontChanging p).1 = false := by
  unfold frontChanging
  split
  · omega
  · omega
  · omega
  · rfl

theorem roleChangeStart_starts (profile : (s.chan n).profile = some p) (twin : isTwin s = true) (input : isInput p = true)
    (tier : Tier.measure.rank ≤ s.tiers.tier.rank) (idle : (s.chan n).roleStep = none) (uncaught : (s.chan n).caught = false)
    (differs : (s.chan n).active ≠ s.seat.lead) (uncapped : capped (s.chan n) = false) (free : (s.chan n).restrap = false)
    (due : atTrick s = true) :
    ∃ t, exec (.roleChangeStart n) s = .next t ∧ Alters [.chans] s t ∧ (∀ m, m ≠ n → t.chan m = s.chan m) ∧
      (roleSpan p = 0 → (t.chan n).active = s.seat.lead ∧ (t.chan n).roleStep = none) ∧
      (roleSpan p ≠ 0 → (t.chan n).roleStep = some (s.seat.lead, s.clock.age + BitVec.ofNat 64 (roleSpan p)) ∧
        (t.chan n).active = (s.chan n).active ∧ (∃ e ∈ (t.chan n).stale, e.1 = 1 ∧ e.2.2 = none) ∧
        (cpaOf p ≤ 2 → anyOpen (s.chan n) (sourceTerms (isCjRef s n) p) = false → (t.chan n).shunt = true) ∧
        (5 ≤ cpaOf p → (t.chan n).sources = false)) := by
  have run : exec (.roleChangeStart n) s = .next (
      if roleSpan p == 0 then setFrontEnd (s.onChan n fun c => { c with active := s.seat.lead }) n
      else setFrontEnd ((staleBegin s n 1).onChan n fun c =>
        { c with roleStep := some (s.seat.lead, s.clock.age + BitVec.ofNat 64 (roleSpan p)) }) n) := by
    change execRoleChangeStart n s = _
    unfold execRoleChangeStart
    extract_lets c b
    have known : c.profile = some p := profile
    rw [known]
    dsimp only
    rw [whenDue_pos (by simp [due, twin, tier, input, c, b, idle, uncaught, differs])]
    rfl
  have alters := alters_of_answers (frame_execRoleChangeStart (List.Subset.refl _) (frame_refl _ s)) run
  refine ⟨_, run, alters, ?_⟩
  by_cases none_ : roleSpan p = 0
  · rw [if_pos (beq_iff_eq.mpr none_)]
    refine ⟨fun m other => ?_, fun _ => ?_, fun some_ => absurd none_ some_⟩
    · rw [setFrontEnd_chan_other other, State.onChan_chan_other _ n m _ other]
    · rw [(setFrontEnd_refronts _ n).eta, State.onChan_chan]
      exact ⟨rfl, idle⟩
  · rw [if_neg (by simpa using none_)]
    let s1 := (staleBegin s n 1).onChan n fun c =>
      { c with roleStep := some (s.seat.lead, s.clock.age + BitVec.ofNat 64 (roleSpan p)) }
    have chan : s1.chan n = { s.chan n with stale := ((staleBegin s n 1).chan n).stale,
                                            roleStep := some (s.seat.lead, s.clock.age + BitVec.ofNat 64 (roleSpan p)) } := by
      refine (State.onChan_chan ..).trans ?_
      rw [staleBegin_chan]
    obtain ⟨sources, shunt, -⟩ := setFrontEnd_on (s := s1) (n := n) (p := p) (by rw [chan]; exact profile) tier
      (by rw [chan]; exact uncapped) (by rw [chan]; exact free)
    have changing : (s1.chan n).roleStep.isSome = true := by rw [chan]; rfl
    rw [if_pos changing] at sources shunt
    refine ⟨fun m other => ?_, fun zero => absurd zero none_, fun _ => ⟨?_, ?_, ?_, fun low closed => ?_, fun high => ?_⟩⟩
    · rw [setFrontEnd_chan_other other, State.onChan_chan_other _ n m _ other, staleBegin_chan_other other]
    · rw [setFrontEnd_chan]
      exact congrArg (fun c => c.roleStep) chan
    · rw [setFrontEnd_chan]
      exact congrArg (fun c => c.active) chan
    · rw [setFrontEnd_chan]
      have open_ := staleBegin_open s n 1
      exact (congrArg (fun c => c.stale) chan).symm ▸ open_
    · have closed : anyOpen (s1.chan n) (sourceTerms (isCjRef s1 n) p) = false := by rw [chan]; exact closed
      exact shunt.trans (by rw [frontChanging_shunt low, closed]; rfl)
    · exact sources.trans (by rw [frontChanging_sources high, Bool.false_and])

theorem roleChangeStep_early {b : Bool} {e : Tick} (step : (s.chan n).roleStep = some (b, e)) (early : s.clock.age.toNat < e.toNat) :
    exec (.roleChangeStep n) s = .next s := by
  change execRoleChangeStep n s = _
  unfold execRoleChangeStep
  rw [step]
  exact congrArg Host.Outcome.next (whenDue_neg (by simp [early]))

theorem roleChangeStep_ends {b : Bool} {e : Tick} (step : (s.chan n).roleStep = some (b, e)) (due : e.toNat ≤ s.clock.age.toNat) :
    ∃ t, exec (.roleChangeStep n) s = .next t ∧ Alters [.chans] s t ∧ (t.chan n).active = b ∧
      (t.chan n).roleStep = none ∧ (∀ x ∈ (t.chan n).stale, x.1 = 1 → x.2.2 ≠ none) ∧ (∀ m, m ≠ n → t.chan m = s.chan m) := by
  have run : exec (.roleChangeStep n) s =
      .next (staleEnd (setFrontEnd (s.onChan n fun c => { c with active := b, roleStep := none }) n) n 1) := by
    change execRoleChangeStep n s = _
    unfold execRoleChangeStep
    rw [step]
    exact congrArg Host.Outcome.next (whenDue_pos (by simp [due]))
  refine ⟨_, run, alters_of_answers (frame_execRoleChangeStep (List.Subset.refl _) (frame_refl _ s)) run, ?_, ?_,
    staleEnd_closed _ n 1, fun m other => ?_⟩
  · rw [staleEnd_chan, setFrontEnd_chan, State.onChan_chan]
  · rw [staleEnd_chan, setFrontEnd_chan, State.onChan_chan]
  · rw [staleEnd_chan_other other, setFrontEnd_chan_other other, State.onChan_chan_other _ n m _ other]

end

/-- Settles O45: each row by its own rule on its channel. -/
theorem terminalsLoopSuppliesAndRoles : Obligations.TerminalsLoopSuppliesAndRoles :=
  ⟨fun _ _ powered quad closed => disconnectOpen_opens powered quad closed,
    fun _ _ _ powered open_ shell profile tier uncapped free role =>
      disconnectReclose_closes powered open_ shell profile tier uncapped free role,
    fun _ _ loop on full => loopSupplyFoldback_folds loop on full,
    fun _ _ folded => ⟨loopSupplyRetry_fails, loopSupplyRetry_restores folded⟩,
    fun _ _ _ profile twin input tier idle uncaught differs uncapped free => ⟨roleChangeStart_waits,
      roleChangeStart_starts profile twin input tier idle uncaught differs uncapped free⟩,
    fun _ _ _ _ step => ⟨roleChangeStep_early step, roleChangeStep_ends step⟩⟩

end Sys2Proof.Proofs
end

section
/-! What the conversion of a channel makes it output (13_conversion_and_ranging.md, Table 13.4; 14_loop_output.md R440). -/

namespace Sys2Proof.Proofs

open Sys2Proof Sys2Proof.Machine Sys2Proof.Safety Sys2Proof.Laws

/-! ## The tag byte (Table 8.5) -/

theorem tagByte_bits : ∀ (path : BitVec 2) (seam blank alarm stale dis hold : Bool),
    (tagByte path seam blank alarm stale dis hold) >>> 6 = path.setWidth 8 ∧
      (tagByte path seam blank alarm stale dis hold).getLsbD 5 = seam ∧
      (tagByte path seam blank alarm stale dis hold).getLsbD 4 = blank ∧
      (tagByte path seam blank alarm stale dis hold).getLsbD 3 = alarm ∧
      (tagByte path seam blank alarm stale dis hold).getLsbD 2 = stale ∧
      (tagByte path seam blank alarm stale dis hold).getLsbD 0 = hold := by
  decide

theorem tagByte_plain : ∀ alarm stale dis hold : Bool, (tagByte 0 false false alarm stale dis hold) >>> 5 = 0 := by
  decide

/-! ## A step that leaves the sample ring and the streams -/

section

variable {s t u : State} {n m : Fin 24} {p : BitVec 8}

/-- From `s` to `t` the memory, the streams, the hands, every other channel and the ring position of this one stay. -/
structure Still (s t : State) (n : Fin 24) : Prop where
  mem : t.mem = s.mem
  streams : t.streams = s.streams
  hands : t.hands = s.hands
  others : ∀ m, m ≠ n → t.chan m = s.chan m
  pos : (t.chan n).ringPos = (s.chan n).ringPos

theorem still_refl (s : State) (n : Fin 24) : Still s s n := ⟨rfl, rfl, rfl, fun _ _ => rfl, rfl⟩

theorem still_trans (h : Still s t n) (k : Still t u n) : Still s u n :=
  ⟨k.mem.trans h.mem, k.streams.trans h.streams, k.hands.trans h.hands, fun m other => (k.others m other).trans (h.others m other),
    k.pos.trans h.pos⟩

theorem still_onChan {f : Chan → Chan} (keeps : ∀ c, (f c).ringPos = c.ringPos) : Still s (s.onChan n f) n :=
  ⟨rfl, rfl, rfl, fun m other => State.onChan_chan_other _ n m _ other, by rw [State.onChan_chan, keeps]⟩

theorem still_raise {code src obj : Nat} {detail : List Byte} {owner : Option Nat} : Still s (raise s code src detail obj owner) n :=
  ⟨raise_mem, raise_streams, raise_hands, fun m _ => raise_chan m, by rw [raise_chan]⟩

theorem still_clearLatching {code src obj : Nat} {detail : List Byte} : Still s (clearLatching s code src obj detail) n :=
  ⟨clearLatching_mem, clearLatching_streams, clearLatching_hands, fun m _ => clearLatching_chan m, by rw [clearLatching_chan]⟩

/-! ## A sample produced -/

section Produce

variable {at_ : Tick} {v : BitVec 24} {tag : BitVec 8}

theorem windowWrap_cells (m : Memory) (w : Nat) : (windowWrap m w).cells = m.cells := by
  unfold windowWrap
  split <;> rfl

theorem produce_mem : (produce s n at_ v tag).mem.cells =
    (s.mem.writeN (0xC00000 + 0x20000 * n.val + 4 * (s.chan n).ringPos) (beBytes 3 v.toNat ++ [tag])).cells := by
  unfold produce
  dsimp only
  split
  · exact windowWrap_cells ..
  · rfl

theorem produce_chan : (produce s n at_ v tag).chan n = { s.chan n with ringPos := ((s.chan n).ringPos + 1) % 32768 } := by
  unfold produce
  extract_lets pos s1 s2 s3
  have kept : s2.chan n = s.chan n := by
    unfold s2
    split <;> rfl
  change s3.chan n = _
  unfold s3
  rw [State.onChan_chan, kept]

theorem produce_chan_other (h : m ≠ n) : (produce s n at_ v tag).chan m = s.chan m := by
  unfold produce
  extract_lets pos s1 s2 s3
  have kept : s2.chan m = s.chan m := by
    unfold s2
    split <;> rfl
  change s3.chan m = _
  exact (State.onChan_chan_other _ n m _ h).trans kept

theorem streamTakes_congr {x : Stream} (hands : t.hands = s.hands) : streamTakes t x n at_ = streamTakes s x n at_ := by
  unfold streamTakes State.hand
  rw [hands]

theorem produce_streams : (produce s n at_ v tag).streams = s.streams.map fun x =>
    if streamTakes s x n at_ then
      { x with rows := addRow at_ n.val { value := v, tag := tag, pos := (s.chan n).ringPos } x.rows } else x := by
  unfold produce
  extract_lets pos s1 s2 s3
  have streams : s3.streams = s.streams := by
    unfold s3 s2
    split <;> rfl
  have hands : s3.hands = s.hands := by
    unfold s3 s2
    split <;> rfl
  clear_value s3
  dsimp only
  rw [streams]
  simp only [streamTakes_congr hands]
  rfl

/-- A sample produced after steps that leave the ring and the streams. -/
theorem produce_sampled (still : Still s t n) (wf : s.mem.wf = true) (pos : (s.chan n).ringPos < 32768) :
    Sampled s (produce t n at_ v tag) n at_ v tag := by
  have few := n.isLt
  have bytes : (beBytes 3 v.toNat ++ [tag]).length = 4 := by simp
  have cells := produce_mem (s := t) (n := n) (at_ := at_) (v := v) (tag := tag)
  rw [still.mem, still.pos] at cells
  refine ⟨?_, ?_, ?_, fun a apart => ?_, fun m other => (produce_chan_other other).trans (still.others m other)⟩
  · have written := readN_writeN (a := 0xC00000 + 0x20000 * n.val + 4 * (s.chan n).ringPos) (bs := beBytes 3 v.toNat ++ [tag]) wf
      (by rw [bytes]; omega)
    rw [bytes] at written
    exact (readN_congr fun k _ _ => by rw [cells]).trans written
  · rw [produce_chan]
    exact congrArg (fun k => (k + 1) % 32768) still.pos
  · rw [produce_streams, still.streams, still.pos]
    simp only [streamTakes_congr still.hands]
  · rw [cells]
    exact read_writeN_outside wf (by rw [bytes]; omega)

theorem sampled_onChan {f : Chan → Chan} (keeps : ∀ c, (f c).ringPos = c.ringPos) (h : Sampled s t n at_ v tag) :
    Sampled s (t.onChan n f) n at_ v tag :=
  ⟨h.ring, by rw [State.onChan_chan, keeps, h.pos], h.streams, h.memory,
    fun m other => (State.onChan_chan_other _ n m _ other).trans (h.others m other)⟩

end Produce

/-! ## Blanked and stale samples (Table 13.4, rows 1 to 3) -/

section Rows

variable {at_ : Tick}

/-- The channel after a sample: its conversion, buffer and ranging are as before. -/
structure Carried (c c' : Chan) : Prop where
  lastInstant : c'.lastInstant = c.lastInstant
  buffer : c'.buffer = c.buffer
  ranging : c'.ranging = c.ranging

theorem produceStale_samples (still : Still s t n) (wf : s.mem.wf = true) (pos : (s.chan n).ringPos < 32768) :
    ∃ tag, Sampled s (produceStale t n p at_) n at_ (t.chan n).lastGood.value tag ∧ tag.getLsbD 2 = true ∧ tag.getLsbD 4 = false ∧
      Carried (t.chan n) ((produceStale t n p at_).chan n) := by
  unfold produceStale
  extract_lets g s1
  obtain ⟨-, -, blank, -, stale, -⟩ := tagByte_bits g.path false false (g.ne43 || inputAlarm t p (t.chan n)) true false false
  refine ⟨_, sampled_onChan (fun _ => rfl) (produce_sampled still wf pos), stale, blank, ?_⟩
  rw [State.onChan_chan, produce_chan]
  exact ⟨rfl, rfl, rfl⟩

theorem produceBlanked_samples (still : Still s t n) (wf : s.mem.wf = true) (pos : (s.chan n).ringPos < 32768) :
    ∃ v tag, Sampled s (produceBlanked t n p at_) n at_ v tag ∧ tag.getLsbD 4 = true ∧
      (blankMode p = some true → v = (t.chan n).prev.value) ∧ (blankMode p ≠ some true → v = 0x800000) ∧
      Carried (t.chan n) ((produceBlanked t n p at_).chan n) := by
  unfold produceBlanked
  extract_lets g
  split
  · next repeats =>
    have repeats : blankMode p = some true := by simpa using repeats
    obtain ⟨-, -, blank, -⟩ := tagByte_bits g.path false true (g.ne43 || inputAlarm t p (t.chan n)) false false false
    refine ⟨_, _, produce_sampled still wf pos, blank, fun _ => rfl, fun other => absurd repeats other, ?_⟩
    rw [produce_chan]
    exact ⟨rfl, rfl, rfl⟩
  · next omits =>
    have omits : blankMode p ≠ some true := by simpa using omits
    obtain ⟨-, -, blank, -⟩ := tagByte_bits 0 false true (inputAlarm t p (t.chan n)) false false false
    refine ⟨_, _, produce_sampled still wf pos, blank, fun same => absurd same omits, fun _ => rfl, ?_⟩
    rw [produce_chan]
    exact ⟨rfl, rfl, rfl⟩

end Rows

/-! ## The fault checks of a conversion (Tables 12.9 and 13.8) -/

/-- What the checks leave of a channel: its last values, its ring, and its stale spans unless they cap it. -/
structure Probed (c c' : Chan) : Prop where
  pos : c'.ringPos = c.ringPos
  lastGood : c'.lastGood = c.lastGood
  prev : c'.prev = c.prev
  lastInstant : c'.lastInstant = c.lastInstant
  buffer : c'.buffer = c.buffer
  stale : c'.stale = c.stale ∨ capped c' = true
  capped : capped c = true → capped c' = true

theorem probed_refl (c : Chan) : Probed c c := ⟨rfl, rfl, rfl, rfl, rfl, .inl rfl, id⟩

theorem probed_trans {c c' c'' : Chan} (h : Probed c c') (k : Probed c' c'') : Probed c c'' :=
  ⟨k.pos.trans h.pos, k.lastGood.trans h.lastGood, k.prev.trans h.prev, k.lastInstant.trans h.lastInstant, k.buffer.trans h.buffer,
    k.stale.elim (fun same => h.stale.elim (fun before => .inl (same.trans before)) fun caps => .inr (k.capped caps)) .inr,
    fun caps => k.capped (h.capped caps)⟩

/-- Steps that keep everything but events and this channel, of which they change fault marks alone. -/
structure Probes (s t : State) (n : Fin 24) : Prop where
  still : Still s t n
  chan : Probed (s.chan n) (t.chan n)

theorem probes_refl (s : State) (n : Fin 24) : Probes s s n := ⟨still_refl s n, probed_refl _⟩

theorem probes_onChan {f : Chan → Chan} (h : Probes s t n) (keeps : ∀ c, Probed c (f c)) : Probes s (t.onChan n f) n :=
  ⟨still_trans h.still (still_onChan fun c => (keeps c).pos), by rw [State.onChan_chan]; exact probed_trans h.chan (keeps _)⟩

theorem probes_raise {code src obj : Nat} {detail : List Byte} {owner : Option Nat} (h : Probes s t n) :
    Probes s (raise t code src detail obj owner) n :=
  ⟨still_trans h.still still_raise, by rw [raise_chan]; exact h.chan⟩

theorem probes_clearLatching {code src obj : Nat} {detail : List Byte} (h : Probes s t n) :
    Probes s (clearLatching t code src obj detail) n :=
  ⟨still_trans h.still still_clearLatching, by rw [clearLatching_chan]; exact h.chan⟩

/-- A mark of the checks: a change of fields that none of the rules of a sample reads here. -/
theorem probed_mark {c c' : Chan} (pos : c'.ringPos = c.ringPos) (lastGood : c'.lastGood = c.lastGood) (prev : c'.prev = c.prev)
    (lastInstant : c'.lastInstant = c.lastInstant) (buffer : c'.buffer = c.buffer) (stale : c'.stale = c.stale)
    (cap : capped c' = capped c) : Probed c c' :=
  ⟨pos, lastGood, prev, lastInstant, buffer, .inl stale, fun h => cap.trans h⟩

theorem sensorChecks_probes (obs : SampleObs) : Probes s (sensorChecks s n p obs) n := by
  unfold sensorChecks
  extract_lets a c bad good o x1 s1 x2 s2 s3 f x4 d
  have first : Probes s s1 n := by
    have marked : Probes s x1 n := probes_onChan (probes_refl s n) fun c => probed_mark rfl rfl rfl rfl rfl rfl rfl
    unfold s1
    split
    · split
      · exact probes_raise marked
      · exact probes_clearLatching marked
    · exact probes_refl s n
  have second : Probes s s2 n := by
    have marked : Probes s x2 n := probes_onChan first fun c => probed_mark rfl rfl rfl rfl rfl rfl rfl
    unfold s2
    split
    · split
      · exact probes_raise marked
      · exact probes_clearLatching marked
    · exact first
  have third : Probes s s3 n := by
    unfold s3
    split
    · split
      · exact probes_raise (probes_onChan second fun c => probed_mark rfl rfl rfl rfl rfl rfl rfl)
      · split
        · exact probes_clearLatching (probes_onChan second fun c => probed_mark rfl rfl rfl rfl rfl rfl rfl)
        · exact second
    · exact second
  have fourth : Probes s x4 n := probes_onChan third fun c => probed_mark rfl rfl rfl rfl rfl rfl rfl
  split
  · split
    · exact probes_raise fourth
    · exact probes_clearLatching fourth
  · exact third

theorem capChannel_ring : ((capChannel s n).chan n).ringPos = (s.chan n).ringPos ∧
    ((capChannel s n).chan n).lastGood = (s.chan n).lastGood ∧ ((capChannel s n).chan n).prev = (s.chan n).prev ∧
    ((capChannel s n).chan n).lastInstant = (s.chan n).lastInstant ∧ ((capChannel s n).chan n).buffer = (s.chan n).buffer ∧
    capped ((capChannel s n).chan n) = capped (s.chan n) := by
  unfold capChannel
  extract_lets s1
  have front : s1.chan n = _ := setFrontEnd_chan s n
  split
  · rw [State.onChan_chan, bankNow_chan, (keeperTakes_redrives ..).eta, front]
    exact ⟨rfl, rfl, rfl, rfl, rfl, rfl⟩
  · rw [front]
    exact ⟨rfl, rfl, rfl, rfl, rfl, rfl⟩

theorem coarseFault_probes {cause : Nat} : Probes s (coarseFault s n cause) n := by
  unfold coarseFault
  let s1 := (raise s 0x0C04 n.val (beBytes 1 cause)).onChan n fun c => { c with capCoarse := true }
  have chan : s1.chan n = { s.chan n with capCoarse := true } := by
    refine (State.onChan_chan ..).trans ?_
    rw [raise_chan]
  have others : ∀ m, m ≠ n → s1.chan m = s.chan m := fun m other =>
    (State.onChan_chan_other _ n m _ other).trans (raise_chan m)
  have caps : capped (s1.chan n) = true := by
    rw [chan]
    simp [capped]
  have frame : Alters [.chans, .events] s (capChannel s1 n) :=
    frame_capChannel (by decide) (frame_State_onChan (by decide) (frame_raise (by decide) (frame_refl _ s)))
  obtain ⟨pos, lastGood, prev, lastInstant, buffer, cap⟩ := capChannel_ring (s := s1) (n := n)
  rw [chan] at pos lastGood prev lastInstant buffer
  refine ⟨⟨same_mem frame (by decide), same_streams frame (by decide), same_hands frame (by decide), fun m other => ?_, pos⟩,
    pos, lastGood, prev, lastInstant, buffer, .inr (cap.trans caps), fun _ => cap.trans caps⟩
  exact (capChannel_chan_other other).trans (others m other)

theorem pathChecks_probes (obs : SampleObs) (k : Conv) : Probes s (pathChecks s n p obs k) n := by
  unfold pathChecks
  extract_lets fs fb cb s1 gain s2
  have first : Probes s s1 n := probes_onChan (probes_refl s n) fun c => probed_mark rfl rfl rfl rfl rfl rfl rfl
  clear_value s1
  have second : Probes s s2 n := by
    unfold s2
    split
    · exact probes_raise (probes_onChan first fun c => probed_mark rfl rfl rfl rfl rfl rfl rfl)
    · exact first
  clear_value s2
  split
  · have fault := coarseFault_probes (s := s2) (n := n) (cause := 1)
    exact ⟨still_trans second.still fault.still, probed_trans second.chan fault.chan⟩
  · exact second

/-! ## A fresh sample (Table 13.4, rows 4 to 7) -/

section FreshSample

variable {k : Conv} {st : Ranging} {seam : Bool} {cj : Int}

theorem scale_plain {cut : Bool} {at_ : Tick} {e : Int} {r : BitVec 64} (family : cpaOf p ∈ [0, 1, 3, 4]) :
    scale s p cut at_ cj e r = .val e := by
  unfold scale
  simp only [List.mem_cons, List.not_mem_nil, or_false] at family
  rcases family with h | h | h | h <;> rw [h] <;> rfl

/-- The electrical value of a fresh sample: the coarse one at a slew or a seam, else the fade's. -/
def freshValue (k : Conv) (st : Ranging) (seam : Bool) (r : BitVec 64) : Int :=
  if k.coarseOvl || seam then k.coarse else convMix k st.weight r

/-- What a fresh sample of CPA 0, 1, 3 or 4 carries: its range code beyond the readable range, else its value with path and seam. -/
structure PlainSample (p : BitVec 8) (k : Conv) (st : Ranging) (seam : Bool) (x : Int) (v : BitVec 24) (tag : BitVec 8) (good : Kept) :
    Prop where
  below : k.coarse < (readable p).1 → v = 0x800001 ∧ tag.getLsbD 3 = true ∧ tag >>> 6 = 1
  above : (readable p).1 ≤ k.coarse → (readable p).2 < k.coarse → v = 0x7FFFFF ∧ tag.getLsbD 3 = true ∧ tag >>> 6 = 1
  inside : (readable p).1 ≤ k.coarse → k.coarse ≤ (readable p).2 → v = BitVec.ofInt 24 x ∧ good.value = v ∧
    tag >>> 6 = (if k.coarseOvl || seam then (1 : BitVec 2) else st.path).setWidth 8 ∧ tag.getLsbD 5 = (k.coarseOvl || seam)

theorem produceFresh_samples (still : Still s t n) (wf : s.mem.wf = true) (pos : (s.chan n).ringPos < 32768) :
    ∃ v tag r, Sampled s (produceFresh t n p k st seam cj) n k.instant v tag ∧
      Carried (t.chan n) ((produceFresh t n p k st seam cj).chan n) ∧
      (cpaOf p ∈ [0, 1, 3, 4] → PlainSample p k st seam (freshValue k st seam r) v tag
        ((produceFresh t n p k st seam cj).chan n).lastGood) := by
  unfold produceFresh
  extract_lets d r s1 slew e cut s2 useCut g edge ne43 path s3 s4
  have drawn : Still t s1 n := ⟨rfl, rfl, rfl, fun _ _ => rfl, rfl⟩
  have second : Still s s2 n := by
    unfold s2
    split
    · exact still_trans still (still_trans drawn (still_onChan fun _ => rfl))
    · exact still_trans still drawn
  have carried : Carried (t.chan n) (s2.chan n) := by
    unfold s2
    split
    · rw [State.onChan_chan]
      exact ⟨rfl, rfl, rfl⟩
    · exact ⟨rfl, rfl, rfl⟩
  have plainEdge : cpaOf p ∈ [0, 1, 3, 4] → edge = if k.coarse < g.1 then Scaled.below else if g.2 < k.coarse then .above else .val e := by
    intro family
    unfold edge
    rw [scale_plain family, scale_plain family]
  have third : Still s s3 n := still_trans second still_clearLatching
  clear_value s2 edge
  split
  · next v _ =>
    have fourth : Still s s4 n ∧ s4.chan n = s2.chan n := by
      unfold s4
      split
      · exact ⟨still_trans third still_raise, (raise_chan n).trans (clearLatching_chan n)⟩
      · exact ⟨still_trans third still_clearLatching, (clearLatching_chan n).trans (clearLatching_chan n)⟩
    obtain ⟨still4, chan4⟩ := fourth
    obtain ⟨range, seamBit, -, -, -, -⟩ := tagByte_bits path (slew || seam) false (slew || ne43 || inputAlarm s4 p (s4.chan n)) false
      false false
    clear_value s4
    dsimp only
    refine ⟨_, _, r, sampled_onChan (fun _ => rfl) (produce_sampled still4 wf pos), ?_, fun family => ?_⟩
    · rw [State.onChan_chan, produce_chan, chan4]
      exact ⟨carried.lastInstant, carried.buffer, carried.ranging⟩
    · have place := plainEdge family
      rw [State.onChan_chan]
      refine ⟨fun low => ?_, fun high above => ?_, fun low high => ⟨?_, rfl, range, seamBit⟩⟩
      · rw [if_pos low] at place
        exact absurd place nofun
      · rw [if_neg (Int.not_lt.mpr high), if_pos above] at place
        exact absurd place nofun
      · rw [if_neg (Int.not_lt.mpr low), if_neg (Int.not_lt.mpr high)] at place
        exact congrArg _ (Scaled.val.inj place)
  · next _ noValue =>
    obtain ⟨range, -, -, alarm, -, -⟩ := tagByte_bits 1 false false true false false false
    have fourth : ∀ x, Still s x n → x.chan n = s2.chan n → Still s (if slew then x else clearLatching x 0x0C02 n.val 0 []) n ∧
        (if slew then x else clearLatching x 0x0C02 n.val 0 []).chan n = s2.chan n := by
      intro x still5 chan5
      split
      · exact ⟨still5, chan5⟩
      · exact ⟨still_trans still5 still_clearLatching, (clearLatching_chan n).trans chan5⟩
    obtain ⟨still4, chan4⟩ := fourth (raise s2 0x0C01 n.val [if edge == .above then 1 else 0]) (still_trans second still_raise)
      (raise_chan n)
    dsimp only
    refine ⟨_, _, r, sampled_onChan (fun _ => rfl) (produce_sampled still4 wf pos), ?_, fun family => ?_⟩
    · rw [State.onChan_chan, produce_chan, chan4]
      exact ⟨carried.lastInstant, carried.buffer, carried.ranging⟩
    · have place := plainEdge family
      refine ⟨fun low => ?_, fun high above => ?_, fun low high => ?_⟩
      · rw [if_pos low] at place
        rw [place]
        exact ⟨rfl, alarm, range⟩
      · rw [if_neg (Int.not_lt.mpr high), if_pos above] at place
        rw [place]
        exact ⟨rfl, alarm, range⟩
      · rw [if_neg (Int.not_lt.mpr low), if_neg (Int.not_lt.mpr high)] at place
        exact absurd place (noValue _)

end FreshSample

end

end Sys2Proof.Proofs
end

section
/-! SAMPLE_READY (R403, R408, R413, R440): the sample of one conversion of an input, of an output, and of the node reference. -/

namespace Sys2Proof.Proofs

open Sys2Proof Sys2Proof.Machine Sys2Proof.Safety Sys2Proof.Laws

section

variable {s t : State} {n : Fin 24} {p : BitVec 8} {e : SampleObs}

/-! ## The conversion whose sample is output -/

/-- The present conversion: the entering one, or with look-ahead on the oldest of a full buffer (R404, R408). -/
def presentConv (p : BitVec 8) (enter : Conv) (old : List Conv) : Conv :=
  if lookAhead p then
    match old with
    | k :: _ => if !lookAhead p || old.length == 4 then k
                else { enter with instant := enter.instant - BitVec.ofNat 64 (4 * periodOf p) }
    | [] => { enter with instant := enter.instant - BitVec.ofNat 64 (4 * periodOf p) }
  else enter

theorem presentConv_plain {enter : Conv} {old : List Conv} (off : lookAhead p = false) : presentConv p enter old = enter := by
  unfold presentConv
  rw [off]
  rfl

theorem presentConv_full {enter k : Conv} {r : List Conv} (on : lookAhead p = true) (full : r.length = 3) :
    presentConv p enter (k :: r) = k := by
  unfold presentConv
  simp [on, full]

theorem presentConv_instant {enter : Conv} {old : List Conv} (on : lookAhead p = true) :
    (presentConv p enter old).instant = match old with
      | [k, _, _, _] => k.instant
      | _ => enter.instant - BitVec.ofNat 64 (4 * periodOf p) := by
  unfold presentConv
  rw [if_pos on]
  match old with
  | [] => rfl
  | [_] => simp [on]
  | [_, _] => simp [on]
  | [_, _, _] => simp [on]
  | [_, _, _, _] => simp [on]
  | _ :: _ :: _ :: _ :: _ :: _ => simp [on]

/-! ## Blanking read through a change of the channel -/

theorem blanked_congr {at_ : Tick} (profile : (t.chan n).profile = (s.chan n).profile) (stale : (t.chan n).stale = (s.chan n).stale)
    (straps : t.straps = s.straps) (supply : t.supply = s.supply) : blanked t n at_ = blanked s n at_ := by
  unfold blanked blankOf
  rw [profile, stale, straps, supply]

/-- The channel as a conversion enters it: its instant noted, the conversion in the buffer. -/
def entered (p : BitVec 8) (enter : Conv) (c : Chan) : Chan :=
  { c with lastInstant := some enter.instant,
           buffer := if lookAhead p then (if !lookAhead p || c.buffer.length == 4 then c.buffer.drop 1 else c.buffer) ++ [enter] else [] }

/-- The samples of the window are settled low (R406): of the buffer with look-ahead on, else the last four. -/
def windowLow (p : BitVec 8) (enter : Conv) (c : Chan) : Bool :=
  if lookAhead p then (!lookAhead p || c.buffer.length == 4) && (c.buffer ++ [enter]).all fun k => convLow k (coarseFs p)
  else 4 ≤ (convLow enter (coarseFs p) :: c.low).length && (convLow enter (coarseFs p) :: c.low).all id

/-! ## Inputs -/

theorem inputSample_samples (wf : s.mem.wf = true) (pos : (s.chan n).ringPos < 32768) :
    let at_ := (presentConv p e.conv (s.chan n).buffer).instant
    ∃ v tag, Sampled s (inputSample s n p e) n at_ v tag ∧ ((inputSample s n p e).chan n).lastInstant = some e.conv.instant ∧
      (blanked s n at_ = true → tag.getLsbD 4 = true ∧ (blankMode p = some true → v = (s.chan n).prev.value) ∧
        (blankMode p ≠ some true → v = 0x800000)) ∧
      (blanked s n at_ = false → (staleAt (s.chan n) at_ = true ∨ e.stepInWindow = true ∨ e.settled = false ∨ capped (s.chan n) = true) →
        v = (s.chan n).lastGood.value ∧ tag.getLsbD 2 = true ∧ tag.getLsbD 4 = false) := by
  intro at_
  unfold inputSample
  extract_lets la fs enter old full present at' s1 c off held frozen low mv st s2 s3 c3 st3 open_ lost cj
  have same : at' = at_ := rfl
  have chan1 : s1.chan n = entered p e.conv (s.chan n) := State.onChan_chan ..
  have still1 : Still s s1 n := still_onChan fun _ => rfl
  have heldSame : held = blanked s n at_ := blanked_congr (by rw [chan1]; rfl) (by rw [chan1]; rfl) rfl rfl
  have second : Probes s1 s2 n := by
    unfold s2
    split
    · exact probes_refl s1 n
    · exact probes_onChan (probes_refl s1 n) fun c => probed_mark rfl rfl rfl rfl rfl rfl rfl
  have still2 : Still s s2 n := still_trans still1 second.still
  have third : Probes s1 s3 n := by
    have sensor := sensorChecks_probes (s := s2) (n := n) (p := p) e
    have path := pathChecks_probes (s := sensorChecks s2 n p e) (n := n) (p := p) e present
    exact ⟨still_trans second.still (still_trans sensor.still path.still),
      probed_trans second.chan (probed_trans sensor.chan path.chan)⟩
  have still3 : Still s s3 n := still_trans still1 third.still
  have instant2 : (s2.chan n).lastInstant = some e.conv.instant := second.chan.lastInstant.trans (by rw [chan1]; rfl)
  have instant3 : (s3.chan n).lastInstant = some e.conv.instant := third.chan.lastInstant.trans (by rw [chan1]; rfl)
  have good2 : (s2.chan n).lastGood = (s.chan n).lastGood := second.chan.lastGood.trans (by rw [chan1]; rfl)
  have good3 : (s3.chan n).lastGood = (s.chan n).lastGood := third.chan.lastGood.trans (by rw [chan1]; rfl)
  have prev2 : (s2.chan n).prev = (s.chan n).prev := second.chan.prev.trans (by rw [chan1]; rfl)
  rw [same, heldSame]
  have offCap : capped (s.chan n) = true → off = true := by
    intro caps
    have here : capped c = true := by
      change capped (s1.chan n) = true
      rw [chan1]
      exact caps
    simp [off, here]
  have stale3 : staleAt (s.chan n) at_ = true → staleAt c3 at_ = true ∨ capped c3 = true := by
    intro stale
    refine third.chan.stale.imp (fun kept => ?_) id
    have kept : c3.stale = (s.chan n).stale := kept.trans (by rw [chan1]; rfl)
    rw [staleAt, kept]
    exact stale
  clear_value s2 s3 off
  by_cases blank : blanked s n at_ = true
  · rw [if_pos blank]
    obtain ⟨v, tag, sampled, bit, repeats, omits, carried⟩ := produceBlanked_samples (p := p) (at_ := at_) still2 wf pos
    exact ⟨v, tag, sampled, carried.lastInstant.trans instant2, fun _ => ⟨bit, fun mode => (repeats mode).trans (by rw [prev2]), omits⟩,
      fun none_ => absurd (blank.symm.trans none_) nofun⟩
  rw [if_neg blank]
  by_cases shut : off = true
  · rw [if_pos shut]
    obtain ⟨tag, sampled, staleBit, blankBit, carried⟩ := produceStale_samples (p := p) (at_ := at_) still2 wf pos
    exact ⟨_, tag, sampled, carried.lastInstant.trans instant2, fun some_ => absurd some_ blank,
      fun _ _ => ⟨by rw [good2], staleBit, blankBit⟩⟩
  rw [if_neg shut]
  split
  · obtain ⟨tag, sampled, staleBit, blankBit, carried⟩ := produceStale_samples (p := p) (at_ := at_) still3 wf pos
    exact ⟨_, tag, sampled, carried.lastInstant.trans instant3, fun some_ => absurd some_ blank,
      fun _ _ => ⟨by rw [good3], staleBit, blankBit⟩⟩
  · next none_ =>
    obtain ⟨v, tag, r, sampled, carried, -⟩ :=
      produceFresh_samples (p := p) (k := present) (st := st3) (seam := mv.2 && st3 != .coarseOnly) (cj := cj) still3 wf pos
    refine ⟨v, tag, sampled, carried.lastInstant.trans instant3, fun some_ => absurd some_ blank, fun _ why => absurd ?_ none_⟩
    rcases why with stale | step | settled | caps
    · rcases stale3 stale with there | caps
      · simp [there]
      · simp [caps]
    · simp [step]
    · simp [settled]
    · exact absurd (offCap caps) shut

/-! ## A fresh sample of CPA 0, 1, 3 and 4 -/

theorem sensorChecks_plain (family : cpaOf p ∈ [0, 1, 3, 4]) : sensorChecks s n p e = s := by
  simp only [List.mem_cons, List.not_mem_nil, or_false] at family
  unfold sensorChecks
  rcases family with h | h | h | h <;> simp [h]

/-- A channel with its counts of path faults noted. -/
def pathsNoted (fine coarse : Nat) (c : Chan) : Chan := { c with fineBad := min 64 fine, coarseBad := min 64 coarse }

theorem pathChecks_quiet {k : Conv} (low : -100 ≤ e.gainDev) (high : e.gainDev ≤ 100) (fine : (s.chan n).fineBad < 63)
    (coarse : (s.chan n).coarseBad < 63) : ∃ a b, pathChecks s n p e k = s.onChan n (pathsNoted a b) := by
  unfold pathChecks
  extract_lets fs fb cb s1 gain s2
  have gainOff : gain = false := by
    unfold gain
    simp [low, high]
  have fineOff : ¬ 64 ≤ fb := by
    unfold fb
    split <;> omega
  have coarseOff : ¬ 64 ≤ cb := by
    unfold cb
    split <;> omega
  refine ⟨fb, cb, ?_⟩
  have same : s2 = s1 := if_neg (by simp [gainOff, fineOff])
  rw [same, if_neg (by simp [coarseOff])]
  rfl

theorem staleAt_congr {c c' : Chan} {at_ : Tick} (same : c'.stale = c.stale) : staleAt c' at_ = staleAt c at_ := by
  rw [staleAt, staleAt, same]

/-- The ranging state entered before the present sample, and whether it is a seam (Table 13.3). -/
def movedRanging (s : State) (n : Fin 24) (p : BitVec 8) (e : SampleObs) : Ranging × Bool :=
  (s.chan n).ranging.move (lookAhead p) (convTrigger e.conv (coarseFs p)) (windowLow p e.conv (s.chan n))

/-- Nothing keeps the sample from being fresh: it is produced of the present conversion by the ranging state entered. -/
theorem inputSample_fresh (fresh : Fresh s n e (presentConv p e.conv (s.chan n).buffer).instant) (family : cpaOf p ∈ [0, 1, 3, 4])
    (full : lookAhead p = true → (s.chan n).buffer.length = 4) (ranges : (movedRanging s n p e).1.after ≠ .coarseOnly)
    (state : (movedRanging s n p e).1 ≠ .coarseOnly) :
    ∃ x cj, Still s x n ∧ (x.chan n).ranging = (movedRanging s n p e).1.after ∧
      (x.chan n).buffer = (entered p e.conv (s.chan n)).buffer ∧
      inputSample s n p e = produceFresh x n p (presentConv p e.conv (s.chan n).buffer) (movedRanging s n p e).1 (movedRanging s n p e).2
        cj := by
  obtain ⟨⟨blankHere, blankEnter⟩, ⟨unstale, noStep, settled, closed⟩, ⟨sensor, tc, cjOk⟩, ⟨uncapped, free, switches, works⟩, gainLow, gainHigh,
    fine, coarse⟩ := fresh
  unfold inputSample
  extract_lets la fs enter old full' present at' s1 c off held frozen low mv st s2 s3 c3 st3 open_ lost cj
  have chan1 : s1.chan n = entered p e.conv (s.chan n) := State.onChan_chan ..
  have same1 : ∀ at_, blanked s1 n at_ = blanked s n at_ :=
    fun at_ => blanked_congr (by rw [chan1]; rfl) (by rw [chan1]; rfl) rfl rfl
  have held0 : held = false := (same1 _).trans blankHere
  have enter0 : blanked s1 n enter.instant = false := (same1 _).trans blankEnter
  have frozen0 : frozen = false := by
    change (held || blanked s1 n enter.instant) = false
    rw [held0, enter0]
    rfl
  have off0 : off = false := by
    have hc : c = entered p e.conv (s.chan n) := chan1
    have cap : capped c = false := by rw [hc]; exact uncapped
    have res : c.restrap = false := by rw [hc]; exact free
    have sw : c.switches = true := by rw [hc]; exact switches
    have run : halted s1 6 = false := works
    simp [off, cap, res, sw, run]
  have filled : full' = true := by
    change (!lookAhead p || (s.chan n).buffer.length == 4) = true
    cases on : lookAhead p with
    | false => rfl
    | true => simp [full on]
  have moved : mv = movedRanging s n p e := by
    have hc : c = entered p e.conv (s.chan n) := chan1
    change (if (frozen || off || !e.settled) = true then (c.ranging, false) else c.ranging.move la (convTrigger enter fs) low) = _
    rw [frozen0, off0, settled, if_neg (by decide), hc]
    have sameLow : low = windowLow p e.conv (s.chan n) := by
      change (if la then full' && (old ++ [enter]).all fun k => convLow k fs
        else 4 ≤ (convLow enter fs :: c.low).length && (convLow enter fs :: c.low).all id) = _
      rw [hc]
      rfl
    rw [sameLow]
    rfl
  have second : s2 = s1.onChan n fun c => { c with ranging := st.after, low := (convLow enter fs :: c.low).take 3 } := by
    change (if off then s1 else _) = _
    rw [off0, held0]
    rfl
  have chan2 : s2.chan n = { s1.chan n with ranging := st.after, low := (convLow enter fs :: (s1.chan n).low).take 3 } := by
    rw [second]
    exact State.onChan_chan ..
  obtain ⟨a, b, quiet⟩ := pathChecks_quiet (s := s2) (n := n) (p := p) (k := present) gainLow gainHigh
    (by rw [chan2, chan1]; exact fine) (by rw [chan2, chan1]; exact coarse)
  have third : s3 = s2.onChan n (pathsNoted a b) := by
    change pathChecks (sensorChecks s2 n p e) n p e present = _
    rw [sensorChecks_plain family, quiet]
  have chan3 : s3.chan n = pathsNoted a b (s2.chan n) := by
    rw [third]
    exact State.onChan_chan ..
  have still1 : Still s s1 n := still_onChan fun _ => rfl
  have still2 : Still s1 s2 n := by
    rw [second]
    exact still_onChan fun _ => rfl
  have still23 : Still s2 s3 n := by
    rw [third]
    exact still_onChan fun _ => rfl
  have still3 : Still s s3 n := still_trans still1 (still_trans still2 still23)
  have ranging3 : c3.ranging = (movedRanging s n p e).1.after := by
    change (s3.chan n).ranging = _
    rw [chan3, chan2, ← moved]
    rfl
  have state3 : st3 = (movedRanging s n p e).1 := by
    change (if c3.ranging == .coarseOnly then .coarseOnly else mv.1) = _
    rw [ranging3, if_neg (by simpa using ranges), moved]
  have hc3 : c3 = pathsNoted a b (s2.chan n) := chan3
  have stale3 : staleAt c3 at' = false := by
    refine (staleAt_congr ?_).trans unstale
    rw [hc3, chan2, chan1]
    rfl
  have used3 : usedOpen s3 n = false := by
    refine Eq.trans ?_ closed
    unfold usedOpen
    rw [chan3, chan2, chan1, third, second]
    rfl
  have cap3 : capped c3 = false := by
    rw [hc3, chan2, chan1]
    exact uncapped
  have openOff : open_ = false := by
    change (c3.sensorOpen || c3.tcOpen || c3.cjFault) = false
    rw [hc3, chan2, chan1]
    simp [pathsNoted, entered, sensor, tc, cjOk]
  have lostOff : lost = false := by
    change (cpaOf p == 10 && _) = false
    simp only [List.mem_cons, List.not_mem_nil, or_false] at family
    rcases family with h | h | h | h <;> simp [h]
  have buffer3 : (s3.chan n).buffer = (entered p e.conv (s.chan n)).buffer := by
    rw [chan3, chan2, chan1]
    rfl
  have stays : (mv.2 && st3 != .coarseOnly) = (movedRanging s n p e).2 := by
    rw [state3, moved]
    simp [state]
  refine ⟨s3, cj, still3, ranging3, buffer3, ?_⟩
  rw [held0, off0]
  simp only [Bool.false_eq_true, if_false]
  rw [if_neg (by simp [stale3, used3, openOff, lostOff, noStep, settled, filled, cap3]), stays, state3]
  rfl

/-! ## Outputs (R440, Table 14.4) -/

/-- The readback results within half a period of an instant. -/
def windowReadings (p : BitVec 8) (at_ : Tick) (c : Chan) : List (Tick × Int) :=
  c.readings.filter fun x => at_.toNat ≤ x.1.toNat + periodOf p / 2 ∧ x.1.toNat ≤ at_.toNat + periodOf p / 2

theorem outputSample_samples {at_ : Tick} (wf : s.mem.wf = true) (pos : (s.chan n).ringPos < 32768) :
    ∃ v tag x, Sampled s (outputSample s n p at_) n at_ v tag ∧ tag >>> 5 = 0 ∧
      (tag.getLsbD 0 = true ↔ (s.chan n).inControl = true ∨ (s.chan n).forced = true ∨ (s.chan n).comp = .substituted ∨
        (s.chan n).inTrim = true) ∧
      (staleAt (s.chan n) at_ = false → (s.chan n).disc.contains true = false → windowReadings p at_ (s.chan n) ≠ [] →
        halted s 6 = false → capped (s.chan n) = false → tag.getLsbD 2 = false ∧
        v = BitVec.ofInt 24 (freeRound ((windowReadings p at_ (s.chan n)).map (·.2)).sum (windowReadings p at_ (s.chan n)).length x)) ∧
      (windowReadings p at_ (s.chan n) = [] → tag.getLsbD 2 = true ∧ v = (s.chan n).lastGood.value) := by
  unfold outputSample
  extract_lets half s1 c rs d stale v current alarm dis hold s2
  have chan1 : c = { s.chan n with lastInstant := some at_ } := State.onChan_chan ..
  have readings : rs = windowReadings p at_ (s.chan n) := by
    change c.readings.filter _ = _
    rw [chan1]
    unfold windowReadings
    congr 1
    funext x
    simp [half]
  have holds : hold = true ↔ (s.chan n).inControl = true ∨ (s.chan n).forced = true ∨ (s.chan n).comp = .substituted ∨
      (s.chan n).inTrim = true := by
    change (c.inControl || c.forced || c.comp == .substituted || c.inTrim) = true ↔ _
    rw [chan1]
    simp [or_assoc]
  have still : Still s d.2 n := by
    have first : Still s s1 n := still_onChan fun _ => rfl
    exact still_trans first ⟨rfl, rfl, rfl, fun _ _ => rfl, rfl⟩
  obtain ⟨-, -, -, -, staleBit, holdBit⟩ := tagByte_bits 0 false false alarm stale dis hold
  have sampled : Sampled s s2 n at_ (BitVec.ofInt 24 v) (tagByte 0 false false alarm stale dis hold) := produce_sampled still wf pos
  refine ⟨BitVec.ofInt 24 v, tagByte 0 false false alarm stale dis hold, d.1, ?_, tagByte_plain alarm stale dis hold, ?_, fun unstale quad some_ works uncapped => ?_, fun none_ => ?_⟩
  · split
    · exact sampled
    · exact sampled_onChan (fun _ => rfl) sampled
  · rw [holdBit, holds]
  · have fresh : stale = false := by
      change (staleAt c at_ || c.disc.contains true || rs.isEmpty || halted s1 6 || capped c) = false
      have run : halted s1 6 = false := works
      have un : staleAt c at_ = false := (staleAt_congr (by rw [chan1])).trans unstale
      have qu : c.disc.contains true = false := by rw [chan1]; exact quad
      have ca : capped c = false := by rw [chan1]; exact uncapped
      have so : rs.isEmpty = false := by
        rw [readings]
        exact Bool.eq_false_iff.mpr fun empty => some_ (List.isEmpty_iff.mp empty)
      rw [un, qu, ca, so, run]
      rfl
    refine ⟨staleBit.trans fresh, congrArg _ ?_⟩
    change (if stale then c.lastGood.value.toInt else freeRound (rs.map (·.2)).sum rs.length d.1) = _
    rw [fresh, readings]
    rfl
  · have old : stale = true := by
      change (staleAt c at_ || c.disc.contains true || rs.isEmpty || halted s1 6 || capped c) = true
      rw [readings, none_]
      simp
    refine ⟨staleBit.trans old, ?_⟩
    change BitVec.ofInt 24 (if stale then c.lastGood.value.toInt else freeRound (rs.map (·.2)).sum rs.length d.1) = _
    rw [old, if_pos rfl, chan1]
    exact BitVec.ofInt_toInt

/-! ## When a conversion is taken -/

theorem isOutput_of_isInput (input : isInput p = true) : isOutput p = false := by
  unfold isInput at input
  unfold isOutput
  simp only [Bool.or_eq_true, decide_eq_true_eq, beq_iff_eq] at input
  simp only [Bool.and_eq_false_iff, decide_eq_false_iff_not]
  omega

theorem sampleReady_idle (profile : (s.chan n).profile = some p) (own : isCjRef s n = false)
    (idle : (∃ l, (s.chan n).lastInstant = some l ∧ e.conv.instant.toNat ≤ l.toNat) ∨ s.tiers.tier.rank < Tier.measure.rank ∨
      s.clock.counter.toNat < e.conv.instant.toNat + readySpan p + 3000) : exec (.sampleReady n e) s = .next s := by
  change execSampleReady n e s = _
  unfold execSampleReady
  extract_lets c at_ new cj
  rw [show c.profile = some p from profile]
  dsimp only
  refine congrArg Host.Outcome.next (whenDue_neg ?_)
  rcases idle with ⟨l, last, early⟩ | low | soon
  · have old : new = false := by
      change (match c.lastInstant with | some l => decide (l.toNat < at_) | none => true) = false
      rw [show c.lastInstant = some l from last]
      exact decide_eq_false (Nat.not_lt.mpr early)
    simp [old]
  · simp [Nat.not_le.mpr low]
  · have span : ¬ at_ + (if isOutput p then periodOf p else if periodOf p ≤ 2500000 then 2 * periodOf p else periodOf p / 2 * 3) + 3000 ≤
        s.clock.counter.toNat := Nat.not_le.mpr soon
    have ownLet : cj = false := own
    simp only [ownLet, Bool.false_eq_true, if_false]
    rw [decide_eq_false span, Bool.and_false]

theorem sampleReady_due (due : SampleDue s n p e) : exec (.sampleReady n e) s = .next (
    if isOutput p then outputSample s n p e.conv.instant else inputSample s n p e) := by
  obtain ⟨profile, kind, own, tier, fresh, grid, ready, pos⟩ := due
  change execSampleReady n e s = _
  unfold execSampleReady
  extract_lets c at_ new cj
  have isNew : new = true := by
    change (match c.lastInstant with | some l => decide (l.toNat < at_) | none => true) = true
    split
    · next l last => exact decide_eq_true (fresh l last)
    · rfl
  rw [show c.profile = some p from profile]
  dsimp only
  have span : at_ + (if isOutput p then periodOf p else if periodOf p ≤ 2500000 then 2 * periodOf p else periodOf p / 2 * 3) + 3000 ≤
      s.clock.counter.toNat := ready
  have onGrid : (at_ % periodOf p == c.grid.getD 0) = true := beq_iff_eq.mpr grid
  have ownLet : cj = false := own
  simp only [ownLet, Bool.false_eq_true, if_false]
  rw [whenDue_pos]
  rw [decide_eq_true span, onGrid, isNew, decide_eq_true tier, Bool.or_false, kind]
  rfl

/-! ## The clauses of SAMPLE_READY -/

theorem sampleReady_input (due : SampleDue s n p e) (wf : s.mem.wf = true) (input : isInput p = true) :
    let at_ := if lookAhead p = true then (match (s.chan n).buffer with
        | [k, _, _, _] => k.instant
        | _ => e.conv.instant - BitVec.ofNat 64 (4 * periodOf p)) else e.conv.instant
    ∃ t v tag, exec (.sampleReady n e) s = .next t ∧ Alters [.free, .chans, .mem, .streams, .events] s t ∧ Sampled s t n at_ v tag ∧
      (t.chan n).lastInstant = some e.conv.instant ∧
      (blanked s n at_ = true → blankMode p = some true → v = (s.chan n).prev.value ∧ tag.getLsbD 4 = true) ∧
      (blanked s n at_ = true → blankMode p = some false → v = 0x800000 ∧ tag.getLsbD 4 = true) ∧
      (blanked s n at_ = false → (staleAt (s.chan n) at_ = true ∨ e.stepInWindow = true ∨ e.settled = false ∨ capped (s.chan n) = true) →
        v = (s.chan n).lastGood.value ∧ tag.getLsbD 2 = true ∧ tag.getLsbD 4 = false) := by
  intro at_
  have instant : (presentConv p e.conv (s.chan n).buffer).instant = at_ := by
    cases on : lookAhead p with
    | false =>
      rw [presentConv_plain on]
      simp [at_, on]
    | true =>
      rw [presentConv_instant on]
      simp [at_, on]
  obtain ⟨v, tag, sampled, last, blank, stale⟩ := inputSample_samples (e := e) (p := p) wf due.pos
  rw [instant] at sampled blank stale
  have run := sampleReady_due due
  rw [if_neg (Bool.eq_false_iff.mp (isOutput_of_isInput input))] at run
  refine ⟨_, v, tag, run, frame_inputSample (by decide) (frame_refl _ s), sampled, last, fun b mode => ?_, fun b mode => ?_, stale⟩
  · exact ⟨(blank b).2.1 mode, (blank b).1⟩
  · exact ⟨(blank b).2.2 (by rw [mode]; decide), (blank b).1⟩

theorem freeRound_exact (a : Int) (r : BitVec 64) : freeRound (5 * a) 5 r = a := by
  unfold freeRound
  have whole : (5 * a) % ((5 : Nat) : Int) = 0 := by omega
  have part : 5 * a / ((5 : Nat) : Int) = a := by omega
  rw [whole, part]
  rfl

theorem convMix_fine (k : Conv) (r : BitVec 64) : convMix k 0 r = k.fine := by
  unfold convMix
  have whole : ((0 : Nat) : Int) * k.coarse + (5 - ((0 : Nat) : Int)) * k.fine = 5 * k.fine := by push_cast; ring
  rw [whole, freeRound_exact]

theorem convMix_coarse (k : Conv) (r : BitVec 64) : convMix k 5 r = k.coarse := by
  unfold convMix
  have whole : ((5 : Nat) : Int) * k.coarse + (5 - ((5 : Nat) : Int)) * k.fine = 5 * k.coarse := by push_cast; ring
  rw [whole, freeRound_exact]

theorem readable_ordered (family : cpaOf p ∈ [0, 1, 3, 4]) : (readable p).1 ≤ (readable p).2 := by
  simp only [List.mem_cons, List.not_mem_nil, or_false] at family
  unfold readable
  rcases family with h | h | h | h
  · rw [h]
    exact (by decide : (0 : Int) ≤ 6250000)
  · rw [h]
    exact (by decide : (0 : Int) ≤ 6250000)
  · rw [h]
    exact (by decide : (-5500000 : Int) ≤ 5500000)
  · rw [h]
    exact (by decide : (-250000 : Int) ≤ 5500000)

theorem sampleReady_plain (due : SampleDue s n p e) (wf : s.mem.wf = true) (input : isInput p = true) (off : lookAhead p = false)
    (family : cpaOf p ∈ [0, 1, 3, 4]) (fresh : Fresh s n e e.conv.instant) (ranging : (s.chan n).ranging ∈ [.fine, .coarse]) :
    ∃ t v tag, exec (.sampleReady n e) s = .next t ∧ Sampled s t n e.conv.instant v tag ∧
      ((readable p).2 < e.conv.coarse → v = 0x7FFFFF ∧ tag.getLsbD 3 = true ∧ tag >>> 6 = 1) ∧
      (e.conv.coarse < (readable p).1 → v = 0x800001 ∧ tag.getLsbD 3 = true ∧ tag >>> 6 = 1) ∧
      ((readable p).1 ≤ e.conv.coarse → e.conv.coarse ≤ (readable p).2 → e.conv.coarseOvl = false →
        ((s.chan n).ranging = .fine → convTrigger e.conv (coarseFs p) = false →
          v = BitVec.ofInt 24 e.conv.fine ∧ tag >>> 6 = 0 ∧ tag.getLsbD 5 = false ∧ (t.chan n).ranging = .fine ∧
          (t.chan n).lastGood.value = v) ∧
        ((s.chan n).ranging = .fine → convTrigger e.conv (coarseFs p) = true →
          v = BitVec.ofInt 24 e.conv.coarse ∧ tag >>> 6 = 1 ∧ tag.getLsbD 5 = true ∧ (t.chan n).ranging = .coarse) ∧
        ((s.chan n).ranging = .coarse → (s.chan n).low.all id = false →
          v = BitVec.ofInt 24 e.conv.coarse ∧ tag >>> 6 = 1 ∧ tag.getLsbD 5 = false ∧ (t.chan n).ranging = .coarse)) := by
  have run := sampleReady_due due
  rw [if_neg (Bool.eq_false_iff.mp (isOutput_of_isInput input))] at run
  have moved : (s.chan n).ranging = .fine → movedRanging s n p e = if convTrigger e.conv (coarseFs p) then (.coarse, true) else (.fine, false) := by
    intro fine
    unfold movedRanging
    rw [fine, off]
    rfl
  have stays : (s.chan n).ranging = .coarse → movedRanging s n p e = (if windowLow p e.conv (s.chan n) then .toFine 4 else .coarse, false) := by
    intro coarse
    unfold movedRanging
    rw [coarse]
    rfl
  have states : (movedRanging s n p e).1.after ≠ .coarseOnly ∧ (movedRanging s n p e).1 ≠ .coarseOnly := by
    simp only [List.mem_cons, List.not_mem_nil, or_false] at ranging
    rcases ranging with fine | coarse
    · rw [moved fine]
      split <;> exact ⟨by decide, by decide⟩
    · rw [stays coarse]
      dsimp only
      split <;> exact ⟨by decide, by decide⟩
  have present := presentConv_plain (enter := e.conv) (old := (s.chan n).buffer) off
  obtain ⟨x, cj, still, ranged, -, made⟩ := inputSample_fresh (s := s) (n := n) (p := p) (e := e) (by rw [present]; exact fresh) family
    (fun on => absurd (off.symm.trans on) nofun) states.1 states.2
  rw [present] at made
  obtain ⟨v, tag, r, sampled, carried, plain⟩ := produceFresh_samples (p := p) (k := e.conv) (st := (movedRanging s n p e).1)
    (seam := (movedRanging s n p e).2) (cj := cj) still wf due.pos
  rw [← made] at sampled carried plain
  obtain ⟨below, above, inside⟩ := plain family
  refine ⟨_, v, tag, run, sampled, fun high => above (by have := readable_ordered family; omega) high, below,
    fun low high noOvl => ⟨fun fine quiet => ?_, fun fine trigger => ?_, fun coarse busy => ?_⟩⟩
  · have move := moved fine
    rw [quiet, if_neg (by decide)] at move
    obtain ⟨value, good, range, seam⟩ := inside low high
    rw [freshValue, noOvl, move] at value
    rw [noOvl, move] at range seam
    have value : v = BitVec.ofInt 24 e.conv.fine := value.trans (congrArg _ (convMix_fine e.conv r))
    exact ⟨value, range, seam, carried.ranging.trans (ranged.trans (by rw [move]; rfl)), good⟩
  · have move := moved fine
    rw [trigger, if_pos rfl] at move
    obtain ⟨value, -, range, seam⟩ := inside low high
    rw [freshValue, noOvl, move] at value
    rw [noOvl, move] at range seam
    exact ⟨value, range, seam, carried.ranging.trans (ranged.trans (by rw [move]; rfl))⟩
  · have move := stays coarse
    have unsettled : windowLow p e.conv (s.chan n) = false := by
      unfold windowLow
      rw [off, if_neg (by decide), List.all_cons, busy, Bool.and_false, Bool.and_false]
    rw [unsettled, if_neg (by decide)] at move
    obtain ⟨value, -, range, seam⟩ := inside low high
    rw [freshValue, noOvl, move] at value
    rw [noOvl, move] at range seam
    have value : v = BitVec.ofInt 24 e.conv.coarse := value.trans (congrArg _ (convMix_coarse e.conv r))
    exact ⟨value, range, seam, carried.ranging.trans (ranged.trans (by rw [move]; rfl))⟩

theorem sampleReady_fade {k : Conv} {r : List Conv} (due : SampleDue s n p e) (wf : s.mem.wf = true) (input : isInput p = true)
    (on : lookAhead p = true) (family : cpaOf p ∈ [0, 1, 3, 4]) (buffer : (s.chan n).buffer = k :: r) (three : r.length = 3)
    (fresh : Fresh s n e k.instant) (fine : (s.chan n).ranging = .fine) (trigger : convTrigger e.conv (coarseFs p) = true)
    (noOvl : k.coarseOvl = false) (low : (readable p).1 ≤ k.coarse) (high : k.coarse ≤ (readable p).2) :
    ∃ t v tag x, exec (.sampleReady n e) s = .next t ∧ Sampled s t n k.instant v tag ∧ v = BitVec.ofInt 24 (convMix k 1 x) ∧
      tag >>> 6 = 2 ∧ tag.getLsbD 5 = false ∧ (t.chan n).ranging = .toCoarse 2 ∧ (t.chan n).buffer = r ++ [e.conv] := by
  have run := sampleReady_due due
  rw [if_neg (Bool.eq_false_iff.mp (isOutput_of_isInput input))] at run
  have present := presentConv_full (enter := e.conv) (k := k) on three
  have move : movedRanging s n p e = (.toCoarse 1, false) := by
    unfold movedRanging
    rw [fine, on, trigger]
    rfl
  obtain ⟨y, cj, still, ranged, kept, made⟩ := inputSample_fresh (s := s) (n := n) (p := p) (e := e)
    (by rw [buffer, present]; exact fresh) family (fun _ => by rw [buffer, List.length_cons, three]) (by rw [move]; decide)
    (by rw [move]; decide)
  rw [buffer, present] at made
  obtain ⟨v, tag, x, sampled, carried, plain⟩ := produceFresh_samples (p := p) (k := k) (st := (movedRanging s n p e).1)
    (seam := (movedRanging s n p e).2) (cj := cj) still wf due.pos
  rw [← made] at sampled carried plain
  obtain ⟨value, -, range, seam⟩ := (plain family).inside low high
  rw [freshValue, noOvl, move] at value
  rw [noOvl, move] at range seam
  refine ⟨_, v, tag, x, run, sampled, value, range, seam, carried.ranging.trans (ranged.trans (by rw [move]; rfl)),
    carried.buffer.trans (kept.trans ?_)⟩
  unfold entered
  simp [on, buffer, three]

theorem sampleReady_output (due : SampleDue s n p e) (wf : s.mem.wf = true) (output : isOutput p = true) :
    let w := (s.chan n).readings.filter fun x => e.conv.instant.toNat ≤ x.1.toNat + periodOf p / 2 ∧
      x.1.toNat ≤ e.conv.instant.toNat + periodOf p / 2
    ∃ t v tag x, exec (.sampleReady n e) s = .next t ∧ Alters [.free, .chans, .mem, .streams] s t ∧
      Sampled s t n e.conv.instant v tag ∧ tag >>> 5 = 0 ∧
      (tag.getLsbD 0 = true ↔ (s.chan n).inControl = true ∨ (s.chan n).forced = true ∨ (s.chan n).comp = .substituted ∨
        (s.chan n).inTrim = true) ∧
      (staleAt (s.chan n) e.conv.instant = false → (s.chan n).disc.contains true = false → w ≠ [] → halted s 6 = false →
        capped (s.chan n) = false → tag.getLsbD 2 = false ∧ v = BitVec.ofInt 24 (freeRound (w.map (·.2)).sum w.length x)) ∧
      (w = [] → tag.getLsbD 2 = true ∧ v = (s.chan n).lastGood.value) := by
  obtain ⟨v, tag, x, sampled, plain, hold, mean, last⟩ := outputSample_samples (p := p) (at_ := e.conv.instant) wf due.pos
  have run := sampleReady_due due
  rw [if_pos output] at run
  exact ⟨_, v, tag, x, run, frame_outputSample (by decide) (frame_refl _ s), sampled, plain, hold, mean, last⟩

/-! ## The node's cold-junction reference (R416, R418) -/

theorem cjReference_good (sensor : (s.chan n).sensorOpen = false) (calm : e.excLimit = false) (low : -50000 ≤ e.cj) (high : e.cj ≤ 150000) :
    (cjReference s n e).supply.cjValue = e.cj ∧ (cjReference s n e).supply.cjLost = false ∧
      (cjReference s n e).supply.cjStale = false ∧ ∀ m, m ≠ n → (cjReference s n e).chan m = s.chan m := by
  unfold cjReference
  extract_lets bad good exc s1
  have excOff : exc = false := by
    have none_ : bad = 0 := by simp [bad, calm]
    simp [exc, none_, sensor]
  rw [excOff, if_neg (by simp [low, high])]
  rw [clearLatching_supply]
  refine ⟨rfl, rfl, rfl, fun m other => ?_⟩
  rw [clearLatching_chan]
  change s1.chan m = _
  exact State.onChan_chan_other _ n m _ other

theorem sampleReady_reference (profile : (s.chan n).profile ≠ none) (own : isCjRef s n = true)
    (tier : Tier.measure.rank ≤ s.tiers.tier.rank) (fresh : ∀ l, (s.chan n).lastInstant = some l → l.toNat < e.conv.instant.toNat)
    (grid : e.conv.instant.toNat % 300000000 = (s.chan n).grid.getD 0)
    (ready : e.conv.instant.toNat + 450003000 ≤ s.clock.counter.toNat) (works : halted s 6 = false)
    (whole : (s.chan n).rekindle = none) (sensor : (s.chan n).sensorOpen = false) (calm : e.excLimit = false) (low : -50000 ≤ e.cj)
    (high : e.cj ≤ 150000) :
    ∃ t, exec (.sampleReady n e) s = .next t ∧ Alters [.supply, .chans, .events] s t ∧ t.supply.cjValue = e.cj ∧
      t.supply.cjLost = false ∧ t.supply.cjStale = false ∧ (∀ m, m ≠ n → t.chan m = s.chan m) := by
  have run : exec (.sampleReady n e) s = .next (cjReference s n e) := by
    change execSampleReady n e s = _
    unfold execSampleReady
    extract_lets c at_ new cj
    have isNew : new = true := by
      change (match c.lastInstant with | some l => decide (l.toNat < at_) | none => true) = true
      split
      · next l last => exact decide_eq_true (fresh l last)
      · rfl
    have ownLet : cj = true := own
    obtain ⟨p, known⟩ := Option.ne_none_iff_exists'.mp profile
    rw [show c.profile = some p from known]
    simp only [ownLet, if_true, Bool.or_true, Bool.and_true]
    have span : at_ + (if isOutput p then 300000000 else if 300000000 ≤ 2500000 then 2 * 300000000 else 300000000 / 2 * 3) + 3000 ≤
        s.clock.counter.toNat := by
      have ready : at_ + 450003000 ≤ s.clock.counter.toNat := ready
      split
      · omega
      · rw [if_neg (by decide)]
        omega
    have onGrid : (at_ % 300000000 == c.grid.getD 0) = true := beq_iff_eq.mpr grid
    rw [whenDue_pos (by rw [decide_eq_true span, onGrid, isNew, decide_eq_true tier]; rfl), works, whole]
    rfl
  exact ⟨_, run, frame_cjReference (by decide) (frame_refl _ s), cjReference_good sensor calm low high⟩

end

/-- Settles O46: which conversions are taken, then the rows of Table 13.4 for inputs, the readback mean for outputs, and the node
reference. -/
theorem samplesFollowTheRangingState : Obligations.SamplesFollowTheRangingState :=
  ⟨fun _ _ _ _ profile own idle => sampleReady_idle profile own idle,
    fun _ _ _ _ due wf input _ => sampleReady_input due wf input,
    fun _ _ _ _ due wf input off family fresh ranging => sampleReady_plain due wf input off family fresh ranging,
    fun _ _ _ _ _ _ due wf input on family buffer three fresh fine trigger noOvl low high =>
      sampleReady_fade due wf input on family buffer three fresh fine trigger noOvl low high,
    fun _ _ _ _ due wf output => sampleReady_output due wf output,
    fun _ _ _ profile own tier fresh grid ready works whole sensor calm low high =>
      sampleReady_reference profile own tier fresh grid ready works whole sensor calm low high⟩

end Sys2Proof.Proofs
end

section
/-! The BLANK inputs, the loss of the cold-junction reference, and the switch of a custom curve (R418, R421 to R424). -/

namespace Sys2Proof.Proofs

open Sys2Proof Sys2Proof.Machine Sys2Proof.Safety Sys2Proof.Laws

/-! ## The record of a BLANK input -/

section Blank

variable {s : State} {k j : Fin 4} {b : Bool × Tick × Bool × Tick} {f : List (Tick × Option Tick) → List (Tick × Option Tick)}

/-- A span that a sample not yet ready can still fall in. -/
def spanKept (now : Tick) (e : Tick × Option Tick) : Bool :=
  match e.2 with
  | some t => now.toNat < t.toNat + 2 ^ 31
  | none => true

theorem setBlank_blank : (setBlank s k b f).supply.blank[k] = b := Vector.getElem_set_self k.isLt

theorem setBlank_blanks : (setBlank s k b f).supply.blanks[k] = f (s.supply.blanks[k].filter (spanKept s.clock.counter)) :=
  Vector.getElem_set_self k.isLt

theorem setBlank_other (h : j ≠ k) : (setBlank s k b f).supply.blank[j] = s.supply.blank[j] ∧
    (setBlank s k b f).supply.blanks[j] = s.supply.blanks[j] :=
  ⟨Vector.getElem_set_ne k.isLt j.isLt fun e => h (Fin.ext e.symm), Vector.getElem_set_ne k.isLt j.isLt fun e => h (Fin.ext e.symm)⟩

theorem setBlank_alters : Alters [.supply] s (setBlank s k b f) := frame_setBlank (List.Subset.refl _) (frame_refl _ s)

variable {n : Fin 24} {i : Tick}

/-- An instant is blanked by the spans of the channel's input alone, where no re-kindle or restrap has ended them. -/
theorem blanked_iff {t : State} (input : blankOf t n = some k) (calm : ∀ x ∈ (t.chan n).stale, x.1 ≠ 0 ∧ x.1 ≠ 3) :
    blanked t n i = true ↔ ∃ e ∈ t.supply.blanks[k], e.1.toNat ≤ i.toNat ∧ ∀ g, e.2 = some g → i.toNat ≤ g.toNat := by
  have calm : ∀ a : Tick, ((t.chan n).stale.any fun e => (e.1 == 0 || e.1 == 3) && decide (a.toNat ≤ e.2.1.toNat) &&
      decide (e.2.1.toNat ≤ i.toNat)) = false := by
    intro a
    rw [List.any_eq_false]
    intro x mem
    obtain ⟨first, second⟩ := calm x mem
    simp [first, second]
  unfold blanked
  rw [input]
  dsimp only
  rw [List.any_eq_true]
  refine exists_congr fun e => and_congr_right fun _ => ?_
  rw [calm]
  cases e.2 <;> simp

theorem blankRise_opens (runs : shellRuns s = true) (low : s.supply.blank[k].1 = false) :
    ∃ t, exec (.blankRise k) s = .next t ∧ Alters [.supply] s t ∧
      t.supply.blank[k] = (true, s.clock.age, s.supply.blank[k].2.2.1, s.supply.blank[k].2.2.2) ∧
      (s.supply.blank[k].2.2.1 = false → t.supply.blanks[k].head? = some (s.clock.counter, none) ∧
        ∀ (n : Fin 24) (i : Tick), blankOf s n = some k → s.clock.counter.toNat ≤ i.toNat →
          (∀ x ∈ (s.chan n).stale, x.1 ≠ 0 ∧ x.1 ≠ 3) → blanked t n i = true) ∧
      (∀ j, j ≠ k → t.supply.blank[j] = s.supply.blank[j] ∧ t.supply.blanks[j] = s.supply.blanks[j]) := by
  let t := setBlank s k (true, s.clock.age, s.supply.blank[k].2.2.1, s.supply.blank[k].2.2.2)
    fun l => if s.supply.blank[k].2.2.1 then l else (s.clock.counter, none) :: l
  have run : exec (.blankRise k) s = .next t := congrArg Host.Outcome.next (whenDue_pos (by simp only [runs, low]; rfl))
  refine ⟨t, run, setBlank_alters, setBlank_blank, fun heeded => ?_, fun j other => setBlank_other other⟩
  have spans : t.supply.blanks[k] = (s.clock.counter, none) :: s.supply.blanks[k].filter (spanKept s.clock.counter) :=
    setBlank_blanks.trans (if_neg (Bool.eq_false_iff.mp heeded))
  refine ⟨by rw [spans, List.head?_cons], fun n i input late calm => ?_⟩
  refine (blanked_iff (t := t) input calm).mpr ⟨_, by rw [spans]; exact List.mem_cons_self .., late, fun g (open_ : none = some g) => absurd open_ nofun⟩

/-- The spans of an input whose one span has ended. -/
theorem endSpan_single {a : Tick} (one : s.supply.blanks[k] = [(a, none)]) :
    (setBlank s k b (endSpan s.clock.counter)).supply.blanks[k] = [(a, some s.clock.counter)] := by
  rw [setBlank_blanks, one]
  rfl

theorem blankFall_ends (runs : shellRuns s = true) (high : s.supply.blank[k].1 = true) :
    ∃ t, exec (.blankFall k) s = .next t ∧ Alters [.supply] s t ∧
      t.supply.blank[k] = (false, s.supply.blank[k].2.1, s.supply.blank[k].2.2.1, s.clock.age) ∧
      (∀ a, s.supply.blanks[k] = [(a, none)] → t.supply.blanks[k] = [(a, some s.clock.counter)] ∧
        ∀ (n : Fin 24) (i : Tick), blankOf s n = some k → (∀ x ∈ (s.chan n).stale, x.1 ≠ 0 ∧ x.1 ≠ 3) →
          (blanked t n i = true ↔ a.toNat ≤ i.toNat ∧ i.toNat ≤ s.clock.counter.toNat)) ∧
      (∀ j, j ≠ k → t.supply.blank[j] = s.supply.blank[j] ∧ t.supply.blanks[j] = s.supply.blanks[j]) := by
  let t := setBlank s k (false, s.supply.blank[k].2.1, s.supply.blank[k].2.2.1, s.clock.age) (endSpan s.clock.counter)
  have run : exec (.blankFall k) s = .next t := congrArg Host.Outcome.next (whenDue_pos (by simp only [runs, high]; rfl))
  refine ⟨t, run, setBlank_alters, setBlank_blank, fun a one => ?_, fun j other => setBlank_other other⟩
  have spans : t.supply.blanks[k] = [(a, some s.clock.counter)] := endSpan_single one
  refine ⟨spans, fun n i input calm => ?_⟩
  rw [blanked_iff (t := t) input calm, spans]
  simp

/-! ## An input that stays active too long (R424, R432) -/

theorem find_lowest {P : Nat → Bool} {m n : Nat} (small : n < m) (hit : P n = true) (none_ : ∀ i < n, P i = false) :
    (List.range m).find? P = some n := by
  rw [List.find?_range_eq_some]
  exact ⟨hit, List.mem_range.mpr small, fun i lt => by simp [none_ i lt]⟩

/-- The event of an input that stays active too long, from its lowest-numbered channel. -/
def longBlankEvent (k : Fin 4) (s : State) : Option Nat → State
  | some n => raise s 0x0C06 n (beBytes 1 k.val) k.val
  | none => s

theorem blankTooLong_early (early : since s s.supply.blank[k].2.1 < 30000000) : exec (.blankTooLong k) s = .next s :=
  congrArg Host.Outcome.next (whenDue_neg (by rw [decide_eq_false (Nat.not_le.mpr early), Bool.and_false]))

theorem blankTooLong_ignores (runs : shellRuns s = true) (high : s.supply.blank[k].1 = true) (heeded : s.supply.blank[k].2.2.1 = false)
    (late : 30000000 ≤ since s s.supply.blank[k].2.1) :
    ∃ t, exec (.blankTooLong k) s = .next t ∧ Alters [.supply, .events] s t ∧
      t.supply.blank[k] = (true, s.supply.blank[k].2.1, true, s.supply.blank[k].2.2.2) ∧
      (∀ a, s.supply.blanks[k] = [(a, none)] → t.supply.blanks[k] = [(a, some s.clock.counter)]) ∧
      (∀ (m : Nat) (n : Nat), blankmapOf s.straps.blankmap = some m → n < 24 → blankInput m n = some k →
        (∀ i < n, blankInput m i ≠ some k) → latched s 0x0C06 n k.val = false → Logs s t 0x0C06 n [BitVec.ofNat 8 k.val]) ∧
      (∀ j, j ≠ k → t.supply.blank[j] = s.supply.blank[j] ∧ t.supply.blanks[j] = s.supply.blanks[j]) := by
  let s1 := setBlank s k (true, s.supply.blank[k].2.1, true, s.supply.blank[k].2.2.2) (endSpan s.clock.counter)
  let lowest := (List.range 24).find? fun n => match blankmapOf s.straps.blankmap with
    | some m => blankInput m n == some k
    | none => false
  let t := longBlankEvent k s1 lowest
  have run : exec (.blankTooLong k) s = .next t :=
    congrArg Host.Outcome.next (whenDue_pos (by simp only [runs, high, heeded, decide_eq_true late]; rfl))
  have supply : t.supply = s1.supply := by
    unfold t
    cases lowest with
    | none => rfl
    | some n => exact raise_supply
  refine ⟨t, run, alters_of_answers (frame_execBlankTooLong (List.Subset.refl _) (frame_refl _ s)) run, ?_, fun a one => ?_,
    fun m n map small first others fresh => ?_, fun j other => ?_⟩
  · rw [supply]
    exact setBlank_blank
  · rw [supply]
    exact endSpan_single one
  · have found : lowest = some n := by
      unfold lowest
      rw [map]
      exact find_lowest small (by simp [first]) fun i lt => by simpa using others i lt
    have logged : t = raise s1 0x0C06 n (beBytes 1 k.val) k.val := by
      unfold t
      rw [found]
      rfl
    rw [logged]
    exact logs_at (raise_logs_latching (s := s1) (by decide) fresh (by decide) (by omega)) rfl
  · rw [supply]
    exact setBlank_other other

theorem blankIgnoreEnd_early (early : since s s.supply.blank[k].2.2.2 < 589824) : exec (.blankIgnoreEnd k) s = .next s :=
  congrArg Host.Outcome.next (whenDue_neg (by
    have short : ¬ trickTicks ≤ since s s.supply.blank[k].2.2.2 := Nat.not_le.mpr early
    rw [decide_eq_false short, Bool.and_false]))

theorem blankIgnoreEnd_heeds (runs : shellRuns s = true) (low : s.supply.blank[k].1 = false) (ignored : s.supply.blank[k].2.2.1 = true)
    (late : 589824 ≤ since s s.supply.blank[k].2.2.2) :
    ∃ t, exec (.blankIgnoreEnd k) s = .next t ∧ Alters [.supply, .events] s t ∧ t.supply.blank[k].1 = false ∧
      t.supply.blank[k].2.2.1 = false ∧
      (∀ j, j ≠ k → t.supply.blank[j] = s.supply.blank[j] ∧ t.supply.blanks[j] = s.supply.blanks[j]) := by
  let s1 := setBlank s k (false, s.supply.blank[k].2.1, false, s.supply.blank[k].2.2.2) id
  let t := s1.each (List.range 24) fun n s => clearLatching s 0x0C06 n k.val (beBytes 1 k.val)
  have run : exec (.blankIgnoreEnd k) s = .next t :=
    congrArg Host.Outcome.next (whenDue_pos (by
      have long : trickTicks ≤ since s s.supply.blank[k].2.2.2 := late
      simp only [runs, low, ignored, decide_eq_true long]
      rfl))
  have supply : t.supply = s1.supply :=
    each_keeps (P := fun x => x.supply = s1.supply) (fun _ _ kept => clearLatching_supply.trans kept) rfl
  refine ⟨t, run, alters_of_answers (frame_execBlankIgnoreEnd (List.Subset.refl _) (frame_refl _ s)) run, ?_, ?_, fun j other => ?_⟩
  · rw [supply]
    exact congrArg (fun b => b.1) setBlank_blank
  · rw [supply]
    exact congrArg (fun b => b.2.2.1) setBlank_blank
  · rw [supply]
    exact setBlank_other other

end Blank

/-! ## The switch of a custom curve (R421) -/

section Curve

variable {s : State} {k : Fin 16} {old new : List Byte}

/-- A use of a curve's old block that the switch ends now. -/
def useEnded (k : Fin 16) (now : Tick) (e : Fin 16 × List Byte × Option Tick) : Fin 16 × List Byte × Option Tick :=
  if e.1 == k && e.2.2.isNone then (e.1, e.2.1, some now) else e

/-- A use that a sample not yet ready can still need. -/
def useKept (now : Tick) (e : Fin 16 × List Byte × Option Tick) : Bool :=
  match e.2.2 with
  | some b => now.toNat < b.toNat + 2 ^ 31
  | none => true

theorem useEnded_key (now : Tick) (e : Fin 16 × List Byte × Option Tick) : (useEnded k now e).1 = e.1 := by
  unfold useEnded
  split <;> rfl

/-- After the switch the old block of the slot has one use, which ends now. -/
theorem curveUse_switched {l : List (Fin 16 × List Byte × Option Tick)} {now : Tick} (one : l.filter (fun e => e.1 = k) = [(k, old, none)]) :
    ((l.map (useEnded k now)).filter (useKept now)).filter (fun e => e.1 = k) = [(k, old, some now)] := by
  have keys : ((fun e : Fin 16 × List Byte × Option Tick => decide (e.1 = k)) ∘ useEnded k now) = fun e => decide (e.1 = k) := by
    funext e
    simp only [Function.comp, useEnded_key]
  rw [List.filter_filter]
  have swap : (fun e : Fin 16 × List Byte × Option Tick => decide (e.1 = k) && useKept now e) =
      fun e => useKept now e && decide (e.1 = k) := by
    funext e
    exact Bool.and_comm ..
  rw [swap, ← List.filter_filter, List.filter_map, keys, one]
  simp [useEnded, useKept]

theorem curveSwitch_waits (between : atTrick s = false) : exec (.curveSwitch k) s = .next s :=
  congrArg Host.Outcome.next (whenDue_neg (by simp [between]))

theorem curveSwitch_switches (block : s.vault.look (.curve k) = .data new)
    (one : s.straps.curveUse.filter (fun e => e.1 = k) = [(k, old, none)]) (due : atTrick s = true) :
    ∃ t, exec (.curveSwitch k) s = .next t ∧ Alters [.straps] s t ∧ t.straps.codes = s.straps.codes ∧
      ∀ i : Tick, curveBlock t k.val i = if i.toNat < s.clock.counter.toNat then old else new := by
  have used : (s.straps.curveUse.any fun e => e.1 == k && e.2.2.isNone) = true := by
    have mem : (k, old, none) ∈ s.straps.curveUse := (List.mem_filter.mp (one ▸ List.mem_singleton_self _)).1
    exact List.any_eq_true.mpr ⟨_, mem, by simp⟩
  have run : exec (.curveSwitch k) s = .next (s.onStraps fun t =>
      { t with curveUse := (t.curveUse.map (useEnded k s.clock.counter)).filter (useKept s.clock.counter) }) :=
    congrArg Host.Outcome.next (whenDue_pos (by simp only [due, used]; rfl))
  refine ⟨_, run, alters_of_answers (frame_execCurveSwitch (List.Subset.refl _) (frame_refl _ s)) run, rfl, fun i => ?_⟩
  have slot : Fin.ofNat 16 k.val = k := Fin.ext (Nat.mod_eq_of_lt k.isLt)
  unfold curveBlock
  extract_lets found
  have narrowed : found = [(k, old, some s.clock.counter)].find? fun e => match e.2.2 with
      | some b => i.toNat < b.toNat
      | none => true := by
    rw [← curveUse_switched (now := s.clock.counter) one, List.find?_filter]
    unfold found
    congr 1
    funext e
    rw [Bool.decide_and, Bool.decide_eq_true, Bool.decide_eq_true, beq_eq_decide]
    simp only [Fin.ext_iff] <;> rfl
  rw [narrowed]
  by_cases early : i.toNat < s.clock.counter.toNat
  · rw [List.find?_cons_of_pos (by simpa using early), if_pos early]
  · rw [List.find?_cons_of_neg (by simpa using early), List.find?_nil, if_neg early]
    dsimp only
    rw [slot, State.onStraps_vault, block]

end Curve

/-- Settles O47: the record and the spans of one BLANK input by its update, the limits by their ticks, the curve's uses by their filter. -/
theorem blanksReferenceLossAndCurveSwitch : Obligations.BlanksReferenceLossAndCurveSwitch :=
  ⟨fun _ _ runs low => blankRise_opens runs low, fun _ _ runs high => blankFall_ends runs high,
    fun _ _ runs high heeded => ⟨blankTooLong_early, blankTooLong_ignores runs high heeded⟩,
    fun _ _ runs low ignored => ⟨blankIgnoreEnd_early, blankIgnoreEnd_heeds runs low ignored⟩,
    fun _ lost fresh => ⟨fun early => congrArg Host.Outcome.next (whenDue_neg (by simp [early])),
      fun late => congrArg Host.Outcome.next (whenDue_pos (by simp [lost, fresh, late]))⟩,
    fun _ _ _ _ block one => ⟨curveSwitch_waits, curveSwitch_switches block one⟩⟩

end Sys2Proof.Proofs
end

section
/-! The readback of one output: a path disagreement ends the waiting of the delivery disagreement too, so O48 over-claims (R447). -/

namespace Sys2Proof.Proofs

open Sys2Proof Sys2Proof.Machine Sys2Proof.Safety Sys2Proof.Laws

/-- A sinking output at 4 mA whose own share has been wrong for 5 ms and whose delivery is wrong from now on. -/
def strayingOutput : Chan :=
  { Chan.reset with
    profile := some 0xC0, target := 40000, checks := true, disc := [], pathSince := some 0, delSince := some 15000000,
    keeper := some ⟨.sinking, .alarm, false, 36000, 210000, 0, 0, 0, false, .whole⟩ }

/-- The chip in service, 5 ms after the stray share began. -/
def strayingState : State :=
  { State.reset with
    supply := { Supply.reset with kindle := .up }
    clock := { Clock.reset with age := 15000000 }
    chans := Vector.replicate 24 strayingOutput }

/-- A result that delivers nothing, the stage off its limits. -/
def nothingDelivered : Readback := ⟨0, 0, 0, false, false⟩

theorem strayingState_due : ReadbackDue strayingState 0 0xC0 where
  shell := rfl
  profile := rfl
  kind := by decide
  keeper := rfl
  fresh := nofun
  runs := by decide

/-- The state after the path disagreement was found, which ends both waits. -/
def strayingFound : State :=
  match exec (.readbackResult 0 nothingDelivered) strayingState with
  | .next t => t
  | _ => strayingState

theorem strayingFound_run : exec (.readbackResult 0 nothingDelivered) strayingState = .next strayingFound := rfl

theorem strayingFound_waits : (strayingFound.chan 0).delSince = none := by decide

/-- Refutes O48: a delivery disagreement younger than 5 ms keeps its wait only while the path check is within its threshold; a path
disagreement of 5 ms ends both waits. -/
theorem not_readbackJudgesTheOutput : ¬ Obligations.ReadbackJudgesTheOutput := by
  unfold Obligations.ReadbackJudgesTheOutput
  rintro ⟨-, judges⟩
  obtain ⟨t, run, -, -, -, -, -, -, -, -, dis⟩ := judges 0 0xC0 nothingDelivered strayingState strayingState_due
  have same : t = strayingFound := Host.Outcome.next.inj (run.symm.trans strayingFound_run)
  obtain ⟨⟨kept, -⟩, -⟩ := (dis 15000000 (by decide) rfl rfl rfl rfl rfl (by decide) rfl).imp_left fun h => h (by decide)
  exact absurd (kept.symm.trans (same ▸ strayingFound_waits)) (by decide)

end Sys2Proof.Proofs
end

section
/-! The two-point trim between its commands (R452, R505, Table 14.7). -/

namespace Sys2Proof.Proofs

open Sys2Proof Sys2Proof.Machine Sys2Proof.Safety Sys2Proof.Laws

/-! ## The end of an operation among at most 64 terminal records (R497) -/

section Ends

variable {s : State} {h : Nat} {o : Op}

theorem countP_or_le {α : Type} (p q : α → Bool) (l : List α) : l.countP (fun x => p x || q x) ≤ l.countP p + l.countP q := by
  induction l with
  | nil => rfl
  | cons x l ih =>
    simp only [List.countP_cons]
    cases p x <;> cases q x <;> simp <;> omega

theorem countP_handle_le (unique : (s.engine.ops.map (·.handle)).Nodup) : s.engine.ops.countP (fun x => x.handle.toNat == h) ≤ 1 := by
  have one := List.nodup_iff_count_le_one.mp unique (BitVec.ofNat 16 h)
  rw [List.count, List.countP_map] at one
  refine Nat.le_trans (List.countP_mono_left fun x _ same => ?_) one
  have same := beq_iff_eq.mp same
  exact beq_iff_eq.mpr (BitVec.eq_of_toNat_eq (by rw [same, BitVec.toNat_ofNat]; have := x.handle.isLt; omega))

theorem trimOps_few (few : (s.engine.ops.filter fun x => !x.state.live).length ≤ 64) : trimOps s = s := by
  unfold trimOps
  dsimp only
  split
  · exact if_neg (by omega)
  · rfl

/-- The terminal record that an end makes is kept while fewer than 64 stand. -/
theorem opEnd_few (st : OpState) (reason : Nat) (unique : (s.engine.ops.map (·.handle)).Nodup)
    (few : (s.engine.ops.filter fun x => !x.state.live).length < 64) : opEnd s h st reason = opEnter s h st reason := by
  refine trimOps_few ?_
  rw [opEnter_engine]
  change ((s.engine.ops.map _).filter _).length ≤ 64
  rw [← List.countP_eq_length_filter, List.countP_map]
  rw [← List.countP_eq_length_filter] at few
  have split_ := countP_or_le (fun x : Op => !x.state.live) (fun x => x.handle.toNat == h) s.engine.ops
  have one := countP_handle_le (h := h) unique
  refine Nat.le_trans (List.countP_mono_left (q := fun x => !x.state.live || x.handle.toNat == h) fun x _ dead => ?_) (by omega)
  dsimp only [Function.comp] at dead ⊢
  split at dead
  · next same => rw [same, Bool.or_true]
  · rw [dead, Bool.true_or]

theorem opOf_opEnd_few (st : OpState) (reason : Nat) (unique : (s.engine.ops.map (·.handle)).Nodup)
    (few : (s.engine.ops.filter fun x => !x.state.live).length < 64) (found : opOf s h = some o) :
    opOf (opEnd s h st reason) h = some (enteredOp s.clock.age st reason o) := by
  rw [opEnd_few st reason unique few, opOf_opEnter, found]
  rfl

end Ends

section Trims

variable {s : State} {n m : Fin 24} {o : Op}

/-! ## The end of a trim -/

theorem trimEnd_chan_other (before : Int) (h : m ≠ n) : (trimEnd s n before).chan m = s.chan m := by
  unfold trimEnd
  dsimp only
  split
  · rw [driveShell_chan_other h, State.onChan_chan_other _ n m _ h]
  · rw [bankNow_chan_other h, State.onChan_chan_other _ n m _ h]

theorem trimEnd_chan (before : Int) : ((trimEnd s n before).chan n).inTrim = false ∧ ((trimEnd s n before).chan n).applied = before := by
  unfold trimEnd
  dsimp only
  split
  · have driven := driveShell_redrives (s.onChan n fun c => { c with inTrim := false, applied := before }) n
    rw [redriven_inTrim driven, redriven_applied driven, State.onChan_chan]
    exact ⟨rfl, rfl⟩
  · rw [bankNow_chan, State.onChan_chan]
    exact ⟨redriven_inTrim (keeperTakes_redrives ..), redriven_applied (keeperTakes_redrives ..)⟩

/-! ## TRIM_POINT_READY (R452) -/

/-- A trim whose point has been measured. -/
def pointMeasured (now : Tick) (pt : Nat) (v : Int) (x : Op) : Op :=
  { x with r1 := if pt == 1 then v else x.r1, r2 := if pt == 2 then v else x.r2, progress := x.progress + 1, reason := 3,
           since := now, timing := true }

theorem trimWaits_unheld {h : Nat} (found : opOf s h = some o) (free : o.suspendPending = false) : trimWaits s h n = s := by
  unfold trimWaits
  rw [found]
  exact if_neg (by simp [free])

theorem trimPointReady_early {v : Int} (found : trimOn s n = some o) (early : s.clock.age.toNat < (s.chan n).settleEnd.toNat + 4000000) :
    exec (.trimPointReady n v) s = .next s := by
  change execTrimPointReady n v s = _
  unfold execTrimPointReady
  rw [found]
  exact congrArg Host.Outcome.next (whenDue_neg (by simp [early]))

theorem trimPointReady_measures {v : Int} (found : trimOn s n = some o) (record : opOf s o.handle.toNat = some o)
    (running : o.state = .running) (driven : o.progress = 2 ∨ o.progress = 4) (works : halted s 3 = false)
    (free : o.suspendPending = false) (late : (s.chan n).settleEnd.toNat + 4000000 ≤ s.clock.age.toNat) :
    ∃ t q, exec (.trimPointReady n v) s = .next t ∧ Alters [.engine, .events] s t ∧ opOf t o.handle.toNat = some q ∧
      q.state = .running ∧ q.progress = o.progress + 1 ∧ q.since = s.clock.age ∧ q.timing = true ∧
      (o.progress = 2 → q.r1 = (trimOf s.vault n).reading v ∧ q.r2 = o.r2) ∧
      (o.progress = 4 → q.r2 = (trimOf s.vault n).reading v ∧ q.r1 = o.r1) ∧
      Logs s t 0x0D05 n.val (beBytes 2 o.handle.toNat ++ beBytes 1 (if o.progress = 2 then 1 else 2) ++
        valueBytes ((trimOf s.vault n).reading v)) := by
  have point : (if o.progress == 2 then 1 else 2) = if o.progress = 2 then 1 else 2 := by simp only [beq_iff_eq]
  let w := (trimOf s.vault n).reading v
  let pt := if o.progress = 2 then 1 else 2
  let s1 := onOp s o.handle.toNat (pointMeasured s.clock.age pt w)
  let t := raise s1 0x0D05 n.val (beBytes 2 o.handle.toNat ++ beBytes 1 pt ++ valueBytes w) 0 (some o.hand.val)
  have record' : opOf t o.handle.toNat = some (pointMeasured s.clock.age pt w o) := by
    rw [opOf_congr raise_engine]
    exact (opOf_onOp (f := pointMeasured s.clock.age pt w) fun _ => rfl).trans (congrArg _ record)
  have run : exec (.trimPointReady n v) s = .next t := by
    change execTrimPointReady n v s = _
    unfold execTrimPointReady
    rw [found]
    dsimp only
    rw [whenDue_pos (by simpa [running, works, late] using driven), point]
    exact congrArg Host.Outcome.next (trimWaits_unheld record' free)
  refine ⟨t, _, run, frame_raise (by decide) (frame_onOp (by decide) (frame_refl _ s)), record', running, rfl, rfl, rfl,
    fun first => ?_, fun second => ?_, ?_⟩
  · exact ⟨by simp [pointMeasured, pt, first, w], by simp [pointMeasured, pt, first]⟩
  · exact ⟨by simp [pointMeasured, pt, second, w], by simp [pointMeasured, pt, second]⟩
  · exact raise_logs_plain (s := s1) rfl (.inl rfl) (by decide) (by omega)

/-! ## TRIM_STEP_TIMEOUT (R452) -/

theorem trimStepTimeout_early {h : BitVec 16} (found : opOf s h.toNat = some o) (early : since s o.since ≤ 180000000000) :
    exec (.trimStepTimeout h) s = .next s := by
  change execTrimStepTimeout h s = _
  unfold execTrimStepTimeout
  rw [found]
  exact congrArg Host.Outcome.next (whenDue_neg (by simp [early]))

theorem trimStepTimeout_ends {h : BitVec 16} (found : opOf s h.toNat = some o) (opcode : o.opcode = 0x0D01) (object : o.object = .chan n)
    (running : o.state = .running) (waits : o.reason = 3) (timing : o.timing = true) (works : halted s 3 = false)
    (unique : (s.engine.ops.map (·.handle)).Nodup) (few : (s.engine.ops.filter fun x => !x.state.live).length < 64)
    (late : 180000000000 < since s o.since) :
    ∃ t q, exec (.trimStepTimeout h) s = .next t ∧ Alters [.chans, .engine, .events] s t ∧ opOf t h.toNat = some q ∧ q.state = .failed ∧
      q.reason = 0x21 ∧ (t.chan n).inTrim = false ∧ (t.chan n).applied = o.before ∧ (∀ m, m ≠ n → t.chan m = s.chan m) := by
  have handle := opOf_handle found
  let s1 := trimEnd s n o.before
  let s2 := discardAwait s1 fun a => opcodeOf a.f == 0x0D03 && beNat ((cmdBody a.f).take 2) == o.handle.toNat
  have ended : Alters [.chans] s s1 := frame_trimEnd (List.Subset.refl _) (frame_refl _ s)
  have ops : s2.engine.ops = s.engine.ops := congrArg (fun e => e.ops) (same_engine ended (by decide))
  have run : exec (.trimStepTimeout h) s = .next (opEnd s2 h.toNat .failed 0x21) := by
    change execTrimStepTimeout h s = _
    unfold execTrimStepTimeout
    rw [found]
    dsimp only
    rw [whenDue_pos (by simp [opcode, running, waits, timing, works, late])]
    unfold opRollback
    rw [opcode, object, ← handle]
    simp only [opStarted, running]
    rfl
  have closed : Alters [.engine, .events] s1 (opEnd s2 h.toNat .failed 0x21) :=
    frame_opEnd (by decide) (frame_discardAwait (by decide) (frame_refl _ s1))
  have record : opOf s2 h.toNat = some o := by
    rw [opOf, ops]
    exact found
  refine ⟨_, _, run, frame_trans (frame_mono (by decide) ended) (frame_mono (by decide) closed),
    opOf_opEnd_few .failed 0x21 (ops ▸ unique) (ops ▸ few) record, rfl, rfl, ?_, ?_, fun m other => ?_⟩
  · rw [same_chan closed (by decide)]
    exact (trimEnd_chan o.before).1
  · rw [same_chan closed (by decide)]
    exact (trimEnd_chan o.before).2
  · rw [same_chan closed (by decide)]
    exact trimEnd_chan_other o.before other

/-! ## TRIM_APPLY (Table 14.7, Commit) -/

theorem trimApply_idle (idle : atTrick s = false ∨ sparseGet s.vault.trimOld n.val = none) : exec (.trimApply n) s = .next s :=
  congrArg Host.Outcome.next (whenDue_neg (by rcases idle with h | h <;> simp [h]))

/-- The keeper's levels under a channel's trims. -/
def relevelled (w : Trim) (c : Chan) : Chan :=
  { c with keeper := c.keeper.map fun k =>
      { k with low := w.low, high := w.high, lowCode := w.code w.low, highCode := w.code w.high, zeroCode := w.code 0 } }

/-- The channel under new trims: the keeper in control drives its new codes, the shell its own. -/
def retrimmed (s : State) (n : Fin 24) (w : Trim) : State :=
  let s := s.onVault fun v => { v with trimOld := sparseDel v.trimOld n.val }
  let s := s.onChan n (relevelled w)
  if (s.chan n).inControl then s.onChan n fun c => if c.keeper.isSome then keeperTakes w s.clock.age c else c else driveShell s n

theorem trimApply_run (due : atTrick s = true) {old : List Byte} (held : sparseGet s.vault.trimOld n.val = some old) :
    exec (.trimApply n) s = .next (retrimmed s n (trimOf { s.vault with trimOld := sparseDel s.vault.trimOld n.val } n)) :=
  congrArg Host.Outcome.next (whenDue_pos (by simp [due, held]))

theorem trimOf_sparseDel {new : List Byte} (record : s.vault.look (.trim n) = .data new) :
    trimOf { s.vault with trimOld := sparseDel s.vault.trimOld n.val } n = Trim.ofBytes new := by
  have look : Vault.look { s.vault with trimOld := sparseDel s.vault.trimOld n.val } (.trim n) = .data new := record
  unfold trimOf
  rw [sparseGet_sparseDel, if_pos rfl]
  dsimp only
  rw [look]

theorem trimOf_sparseDel_other (h : m ≠ n) :
    trimOf { s.vault with trimOld := sparseDel s.vault.trimOld n.val } m = trimOf s.vault m := by
  unfold trimOf
  rw [sparseGet_sparseDel, if_neg fun e => h (Fin.ext e)]
  rfl

theorem retrimmed_vault (w : Trim) : (retrimmed s n w).vault = { s.vault with trimOld := sparseDel s.vault.trimOld n.val } := by
  unfold retrimmed
  dsimp only
  split
  · rfl
  · exact same_vault (frame_driveShell (L := [.chans]) (by decide) (frame_refl _ _)) (by decide)

theorem retrimmed_alters (w : Trim) : Alters [.chans, .vault] s (retrimmed s n w) := by
  have base : Alters [.chans, .vault] s ((s.onVault fun v => { v with trimOld := sparseDel v.trimOld n.val }).onChan n (relevelled w)) :=
    frame_State_onChan (by decide) (frame_State_onVault (by decide) (frame_refl _ s))
  unfold retrimmed
  dsimp only
  split
  · exact frame_State_onChan (by decide) base
  · exact frame_driveShell (by decide) base

theorem retrimmed_chan_other (w : Trim) (h : m ≠ n) : (retrimmed s n w).chan m = s.chan m := by
  unfold retrimmed
  dsimp only
  split
  · rw [State.onChan_chan_other _ n m _ h, State.onChan_chan_other _ n m _ h]
    rfl
  · rw [driveShell_chan_other h, State.onChan_chan_other _ n m _ h]
    rfl

theorem retrimmed_redrives (w : Trim) : Redriven (relevelled w (s.chan n)) ((retrimmed s n w).chan n) := by
  unfold retrimmed
  dsimp only
  split
  · rw [State.onChan_chan, State.onChan_chan]
    change Redriven (relevelled w (s.chan n)) (if _ then keeperTakes w _ (relevelled w (s.chan n)) else relevelled w (s.chan n))
    split
    · exact keeperTakes_redrives ..
    · exact redriven_refl _
  · have driven := driveShell_redrives ((s.onVault fun v => { v with trimOld := sparseDel v.trimOld n.val }).onChan n (relevelled w)) n
    rwa [State.onChan_chan] at driven

theorem driveValue_drives (w : Trim) (now : Tick) (v : Int) {c : Chan} (on_ : c.drive ≠ .out) :
    (driveValue w now v c).dac = partOf (drivePart c.drive) (w.code v) ∧ (driveValue w now v c).target = v := by
  have target : (setTarget c now v).target = v := by
    unfold setTarget
    dsimp only
    split
    · next same => exact beq_iff_eq.mp (Bool.and_eq_true_iff.mp same).1
    · rfl
  cases drive : c.drive with
  | out => exact absurd drive on_
  | sharing | carrying =>
    unfold driveValue
    simp only [drive, drivePart, target, and_self]

/-- What the shell drives with a commanded output is the applied value in the codes of the trims in force. -/
theorem driveShell_drives (free : banked (s.chan n) = false) (commanded : (s.chan n).commanded = true) (uncapped : capped (s.chan n) = false)
    (unforced : (s.chan n).forced = false) (good : (s.chan n).comp ≠ .substituted) (on_ : (s.chan n).drive ≠ .out) :
    ((driveShell s n).chan n).dac = partOf (drivePart (s.chan n).drive) ((trimOf s.vault n).code (s.chan n).applied) ∧
      ((driveShell s n).chan n).target = (s.chan n).applied := by
  have value : shellValue s n = (s.chan n).applied := by
    unfold shellValue
    simp [unforced, good]
  unfold driveShell
  dsimp only
  rw [if_neg (by simp [free, commanded, uncapped]), State.onChan_chan, value]
  exact driveValue_drives _ _ _ on_

theorem retrimmed_drives {w : Trim} (trims : trimOf { s.vault with trimOld := sparseDel s.vault.trimOld n.val } n = w)
    (shell : (s.chan n).inControl = false) (free : banked (s.chan n) = false) (commanded : (s.chan n).commanded = true)
    (uncapped : capped (s.chan n) = false) (unforced : (s.chan n).forced = false) (good : (s.chan n).comp ≠ .substituted)
    (on_ : (s.chan n).drive ≠ .out) :
    ((retrimmed s n w).chan n).dac = partOf (drivePart (s.chan n).drive) (w.code (s.chan n).applied) ∧
      ((retrimmed s n w).chan n).target = (s.chan n).applied := by
  let s1 := (s.onVault fun v => { v with trimOld := sparseDel v.trimOld n.val }).onChan n (relevelled w)
  have chan : s1.chan n = relevelled w (s.chan n) := State.onChan_chan ..
  have same : retrimmed s n w = driveShell s1 n := by
    refine if_neg (c := (s1.chan n).inControl = true) ?_
    rw [chan]
    exact Bool.eq_false_iff.mp shell
  have driven := driveShell_drives (s := s1) (n := n) (by rw [chan]; exact free) (by rw [chan]; exact commanded)
    (by rw [chan]; exact uncapped) (by rw [chan]; exact unforced) (by rw [chan]; exact good) (by rw [chan]; exact on_)
  have vault : trimOf s1.vault n = w := trims
  rw [vault, chan] at driven
  rw [same]
  exact driven

end Trims

/-- Settles O49: a point and a step end by their time alone, and the trims of a committed record take over at the boundary. -/
theorem trimStepsWaitAndApply : Obligations.TrimStepsWaitAndApply :=
  ⟨fun _ _ _ _ found record running driven works free =>
      ⟨trimPointReady_early found, trimPointReady_measures found record running driven works free⟩,
    fun _ _ _ _ found opcode object running waits timing works unique few =>
      ⟨trimStepTimeout_early found, trimStepTimeout_ends found opcode object running waits timing works unique few⟩,
    fun _ _ idle => trimApply_idle idle,
    fun n s _ new due held record => by
      have trims := trimOf_sparseDel record
      have redriven := retrimmed_redrives (s := s) (n := n) (Trim.ofBytes new)
      have run := trimApply_run due held
      rw [trims] at run
      refine ⟨_, run, retrimmed_alters _, ?_, ?_, fun m other => ⟨retrimmed_chan_other _ other, ?_⟩, fun k kept => ?_,
        retrimmed_drives trims⟩
      · rw [retrimmed_vault]
      · rw [retrimmed_vault, trims]
      · rw [retrimmed_vault]
        exact trimOf_sparseDel_other other
      · rw [redriven_keeper redriven, relevelled, kept]
        rfl⟩

end Sys2Proof.Proofs
end

section
/-! How an accepted command runs and what its response leaves: the layer of the command statements (Table 15.2, R467, R470, R472). -/

namespace Sys2Proof.Proofs

open Sys2Proof Sys2Proof.Machine Sys2Proof.Safety Sys2Proof.Laws

/-! ## The way to the execution -/

section Way

variable {c : Cmd} {f : CmdFrame} {s : State}

theorem runCommand_accepted (ok : Accepted c f s) : runCommand c f s = execute c f (atExecution f s) := by
  obtain ⟨takes, op, auth, checks⟩ := ok
  unfold runCommand
  rw [if_neg (by simp [takes, op])]
  dsimp only
  rw [auth]
  dsimp only
  change (match checksOf c f (atExecution f s) with
    | some code => respond (atExecution f s) f code 0 []
    | none => execute c f (atExecution f s)) = _
  rw [checks]

theorem execute_answers {s t : State} {status flags : Nat} {body : List Byte} (direct : c.cs f s = false)
    (ran : c.run f s = (.now status flags body, t)) : execute c f s = respond t f status flags body := by
  unfold execute
  rw [if_neg (Bool.eq_false_iff.mp direct), ran]

theorem execute_later {s t : State} (direct : c.cs f s = false) (ran : c.run f s = (.later, t)) : execute c f s = t := by
  unfold execute
  rw [if_neg (Bool.eq_false_iff.mp direct), ran]

theorem firstFail_none {l : List (Option Nat)} (passes : firstFail l = none) : ∀ x ∈ l, x = none := by
  induction l with
  | nil => exact nofun
  | cons x l ih =>
    cases x with
    | some _ => exact absurd passes nofun
    | none => exact List.forall_mem_cons.mpr ⟨rfl, ih passes⟩

theorem firstFail_cons {x : Option Nat} {l : List (Option Nat)} : firstFail (x :: l) = none ↔ x = none ∧ firstFail l = none := by
  cases x with
  | none => exact ⟨fun rest => ⟨rfl, rest⟩, fun ⟨_, rest⟩ => rest⟩
  | some _ => exact ⟨nofun, fun ⟨fails, _⟩ => absurd fails nofun⟩

theorem failIf_none {b : Bool} {code : Nat} : failIf b code = none ↔ b = false := by
  unfold failIf
  cases b <;> simp

/-- The checks of an accepted command that are its own. -/
theorem accepted_checks (ok : Accepted c f s) :
    c.ward f (atExecution f s) = none ∧ c.body f (atExecution f s) = none ∧ c.own f (atExecution f s) = none := by
  have each := firstFail_none ok.checks
  exact ⟨each _ (by simp), each _ (by simp), each _ (by simp)⟩

theorem atExecution_alters : Alters [.hands, .engine] s (atExecution f s) :=
  frame_acceptSeq (by decide) (frame_takeInput (by decide) (frame_refl _ s))

/-- The slot of the command as its number counts. -/
theorem atExecution_slot : (atExecution f s).engine.slots[keySlot f] =
    { s.engine.slots[keySlot f] with lastSeq := f.seq, lastMac := some (macField f), lastResp := none } :=
  Vector.getElem_set_self (keySlot f).isLt

theorem atExecution_slot_other {k : Fin 20} (h : k ≠ keySlot f) : (atExecution f s).engine.slots[k] = s.engine.slots[k] :=
  Vector.getElem_set_ne (keySlot f).isLt k.isLt fun e => h (Fin.ext e.symm)

/-- Of a hand only its input queue changes as its frame is taken. -/
theorem takeInput_hand (h : Fin 16) : ∃ input, (takeInput s f).hand h = { s.hand h with input := input } := by
  change ∃ input, (s.onHand f.hand fun r => { r with input := if r.input.head? == some f then r.input.tail else r.input }).hand h = _
  by_cases same : h = f.hand
  · subst same
    rw [State.onHand_hand]
    exact ⟨_, rfl⟩
  · rw [State.onHand_hand_other _ _ _ _ same]
    exact ⟨_, rfl⟩

theorem eventHead_atExecution (k : Nat) : eventHead (atExecution f s) k = eventHead s k := by
  obtain ⟨input, hand⟩ := takeInput_hand (f := f) (s := s) (Fin.ofNat 16 k)
  have same : (atExecution f s).hand (Fin.ofNat 16 k) = { s.hand (Fin.ofNat 16 k) with input := input } := hand
  unfold eventHead
  dsimp only
  rw [same]
  rfl

end Way

/-! ## The response (R467, R470) -/

section Response

variable {s : State} {f : CmdFrame} {status flags q : Nat} {body : List Byte} {x : QFrame}

theorem enqueueNode_holds : x ∈ qFrames (enqueueNode s q x) q ∨ (q, x) ∈ (enqueueNode s q x).queues.heldOut := by
  unfold enqueueNode
  dsimp only
  split
  · rw [qFrames_setQFrames, if_pos rfl]
    exact .inl (List.mem_append_right _ (List.mem_singleton_self x))
  · exact .inr (List.mem_append_right _ (List.mem_singleton_self (q, x)))

theorem qFrames_enqueueNode_other {q' : Nat} (h : q' ≠ q) : qFrames (enqueueNode s q x) q' = qFrames s q' := by
  unfold enqueueNode
  dsimp only
  split
  · rw [qFrames_setQFrames, if_neg h]
  · rfl

theorem enqueueNode_settings : (enqueueNode s q x).queues.settings = s.queues.settings := by
  unfold enqueueNode
  dsimp only
  split <;> rfl

theorem stepCount_alters (s : State) (kind : BitVec 2) (unit : Nat) : Alters [.dbg] s (stepCount s kind unit) :=
  frame_stepCount (List.Subset.refl _) (frame_refl _ s)

theorem respond_alters : Alters [.free, .queues, .engine, .dbg] s (respond s f status flags body) :=
  frame_respond (List.Subset.refl _) (frame_refl _ s)

/-- The frame of the response. -/
def answerFrame (s : State) (f : CmdFrame) (status flags : Nat) (body : List Byte) : QFrame × State :=
  responseFrame s f (responsePayload s f status flags body true)

theorem respond_queues : (respond s f status flags body).queues =
    (enqueueNode (answerFrame s f status flags body).2 (32 + f.hand.val) (answerFrame s f status flags body).1).queues := by
  have counted := same_queues (stepCount_alters (enqueueNode (answerFrame s f status flags body).2 (32 + f.hand.val)
    (answerFrame s f status flags body).1) 3 3) (by decide)
  exact counted

theorem qFrames_respond_other (h : q ≠ 32 + f.hand.val) : qFrames (respond s f status flags body) q = qFrames s q := by
  rw [qFrames_congr respond_queues, qFrames_enqueueNode_other h]
  rfl

theorem respond_settings : (respond s f status flags body).queues.settings = s.queues.settings := by
  rw [respond_queues, enqueueNode_settings]
  rfl

theorem eventHead_respond : eventHead (respond s f status flags body) q = eventHead s q := by
  have held : ∀ (s : State) x, (enqueueNode s (32 + f.hand.val) x).queues.evHead = s.queues.evHead ∧
      (enqueueNode s (32 + f.hand.val) x).queues.evCount = s.queues.evCount := fun s x => by
    unfold enqueueNode
    dsimp only
    split <;> exact ⟨rfl, rfl⟩
  unfold eventHead
  rw [same_hand respond_alters (by decide), respond_queues, (held _ _).1, (held _ _).2]
  rfl

theorem respond_engine : ∃ slots, (respond s f status flags body).engine = { s.engine with slots := slots } ∧
    (∀ k : Fin 20, k ≠ keySlot f → slots[k] = s.engine.slots[k]) ∧
    ∃ r, slots[keySlot f] = { s.engine.slots[keySlot f] with lastResp := r } := by
  let t := stepCount (enqueueNode (answerFrame s f status flags body).2 (32 + f.hand.val) (answerFrame s f status flags body).1) 3 3
  have engine : t.engine = s.engine := by
    rw [same_engine (stepCount_alters _ 3 3) (by decide), same_engine (frame_enqueueNode (L := [.queues]) (by decide) (frame_refl _ _)) (by decide)]
    rfl
  have shape : (respond s f status flags body).engine =
      (if t.engine.slots[keySlot f].lastSeq == f.seq then
        { t.engine with slots := t.engine.slots.set (keySlot f) { t.engine.slots[keySlot f] with lastResp := some (answerFrame s f status flags body).1 } }
       else t.engine) := rfl
  rw [engine] at shape
  rw [shape]
  split
  · exact ⟨_, rfl, fun k h => Vector.getElem_set_ne (keySlot f).isLt k.isLt fun e => h (Fin.ext e.symm),
      _, Vector.getElem_set_self (keySlot f).isLt⟩
  · exact ⟨_, rfl, fun _ _ => rfl, _, rfl⟩

theorem slotKey_congr {t : State} (die : t.dieId = s.dieId) (vault : t.vault = s.vault) (k : Fin 20) : slotKey t k = slotKey s k := by
  unfold slotKey commissioningKey
  rw [die, vault]

/-- A response is authenticated by the die, the keys and the session of its slot alone. -/
theorem responsePayload_congr {t : State} (die : t.dieId = s.dieId) (vault : t.vault = s.vault)
    (session : t.engine.slots[keySlot f].session = s.engine.slots[keySlot f].session) :
    responsePayload t f status flags body true = responsePayload s f status flags body true := by
  have mac : ∀ dir env, slotMac t f dir env = slotMac s f dir env := fun dir env => by
    unfold slotMac macMessage
    rw [slotKey_congr die vault, die, session]
  unfold responsePayload
  simp only [mac]

theorem respond_responds : Responds s (respond s f status flags body) f status flags body where
  response := by
    refine ⟨(answerFrame s f status flags body).1, ?_, ?_, rfl, ?_, rfl⟩
    · rw [qFrames_congr respond_queues, respond_queues]
      exact enqueueNode_holds
    · exact BitVec.ofNat_toNat ..
    · exact BitVec.ofNat_toNat ..

end Response

/-! ## A command that has run and answered -/

section Replies

variable {c : Cmd} {f : CmdFrame} {s t : State} {status flags : Nat} {body : List Byte} {l : List Part}

/-- What an execution leaves of the engine for the response and the count of its command. -/
structure KeepsSlots (s t : State) : Prop where
  slots : t.engine.slots = s.engine.slots
  turn : t.engine.turn = s.engine.turn

theorem keepsSlots_of_engine (same : t.engine = s.engine) : KeepsSlots s t := ⟨by rw [same], by rw [same]⟩

theorem respond_counted (keeps : KeepsSlots (atExecution f s) t) : Counted s (respond t f status flags body) f := by
  obtain ⟨slots, engine, others, r, own⟩ := respond_engine (s := t) (f := f) (status := status) (flags := flags) (body := body)
  rw [keeps.slots, atExecution_slot] at own
  refine ⟨?_, ?_, ?_, fun k h => ?_⟩
  · rw [engine]
    exact congrArg KeySess.lastSeq own
  · rw [engine]
    exact congrArg KeySess.lastMac own
  · rw [engine]
    exact keeps.turn
  · rw [engine]
    exact (others k h).trans ((congrArg (fun v : Vector KeySess 20 => v[k]) keeps.slots).trans (atExecution_slot_other h))

/-- A command whose response follows later has counted. -/
theorem counted_later (keeps : KeepsSlots (atExecution f s) t) : Counted s t f := by
  have own := congrArg (fun v : Vector KeySess 20 => v[keySlot f]) keeps.slots
  have slot := own.trans atExecution_slot
  refine ⟨?_, ?_, keeps.turn, fun k h => ?_⟩
  · exact congrArg KeySess.lastSeq slot
  · exact congrArg KeySess.lastMac slot
  · exact (congrArg (fun v : Vector KeySess 20 => v[k]) keeps.slots).trans (atExecution_slot_other h)

/-- The command of an execution that alters the parts `l` answers once it has run. -/
theorem respond_replies (keeps : KeepsSlots (atExecution f s) t) (alters : Alters ([.free, .queues, .hands, .engine, .dbg] ++ l) s t)
    (die : .dieId ∉ l) (vault : .vault ∉ l)
    (queues : .queues ∈ l ∨ ((∀ q, q ≠ 32 + f.hand.val → qFrames t q = qFrames s q) ∧ t.queues.settings = s.queues.settings))
    (hands : .hands ∈ l ∨ ∀ h, t.hand h = (takeInput s f).hand h)
    (engine : .engine ∈ l ∨ t.engine = (atExecution f s).engine) :
    Replies l s (respond t f status flags body) f status flags body where
  responds := by
    obtain ⟨q, there, dest, cls, seq, payload⟩ := (respond_responds (s := t) (f := f) (status := status) (flags := flags) (body := body)).response
    refine ⟨q, there, dest, cls, seq, payload.trans (responsePayload_congr (same_dieId alters (by simpa using die))
      (same_vault alters (by simpa using vault)) ?_)⟩
    rw [keeps.slots, atExecution_slot]
  counted := respond_counted keeps
  alters := frame_respond (List.subset_append_of_subset_left _ (by decide)) alters
  queues := queues.imp_right fun ⟨frames, settings⟩ =>
    ⟨fun q h => (qFrames_respond_other h).trans (frames q h), respond_settings.trans settings⟩
  hands := hands.imp_right fun same h => (same_hand respond_alters (by decide) h).trans (same h)
  engine := engine.imp_right fun same => by
    obtain ⟨slots, shape, -⟩ := respond_engine (s := t) (f := f) (status := status) (flags := flags) (body := body)
    rw [shape, same]
    exact ⟨rfl, rfl, rfl, rfl⟩

/-- An execution that leaves the engine, the hands and the queues to its response. -/
theorem replies_of_alters (alters : Alters (.free :: l) (atExecution f s) t) (die : .dieId ∉ l) (vault : .vault ∉ l) (engine : .engine ∉ l) :
    Replies l s (respond t f status flags body) f status flags body := by
  have same := same_engine alters (by simpa using engine)
  have way : Alters [.hands, .engine] s (atExecution f s) := atExecution_alters
  refine respond_replies (keepsSlots_of_engine same)
    (frame_trans (frame_mono (List.subset_append_of_subset_left _ (by decide)) way)
      (frame_mono (List.cons_subset.mpr ⟨by simp, List.subset_append_right ..⟩) alters))
    die vault ?_ ?_ (.inr same)
  · by_cases h : Part.queues ∈ l
    · exact .inl h
    · have frames : t.queues = (atExecution f s).queues := same_queues alters (by simpa using h)
      exact .inr ⟨fun q _ => qFrames_congr frames, by rw [frames]; rfl⟩
  · by_cases h : Part.hands ∈ l
    · exact .inl h
    · exact .inr fun k => same_hand alters (by simpa using h) k

/-- A command that reads answers its body and changes nothing of its own. -/
theorem replies_of_read : Replies [] s (respond (atExecution f s) f status flags body) f status flags body :=
  replies_of_alters (frame_refl _ _) (by decide) (by decide) (by decide)

theorem runCommand_answers {t : State} (ok : Accepted c f s) (direct : c.cs f (atExecution f s) = false)
    (ran : c.run f (atExecution f s) = (.now status flags body, t)) : runCommand c f s = respond t f status flags body :=
  (runCommand_accepted ok).trans (execute_answers direct ran)

theorem runCommand_later {t : State} (ok : Accepted c f s) (direct : c.cs f (atExecution f s) = false)
    (ran : c.run f (atExecution f s) = (.later, t)) : runCommand c f s = t :=
  (runCommand_accepted ok).trans (execute_later direct ran)

end Replies

end Sys2Proof.Proofs
end

section
/-! The commands that read: STAT.READ, STAT.COUNT, EV.READ, Q.READ, OP.STATUS, WARD.READ and PHY.SNR (R310, R484 to R486). -/

namespace Sys2Proof.Proofs

open Sys2Proof Sys2Proof.Machine Sys2Proof.Safety Sys2Proof.Laws

/-! ## Reading a string of equal pieces -/

section Pieces

variable {α : Type} {g : α → List Byte} {n : Nat}

theorem flatMap_length_of (each : ∀ x, (g x).length = n) (l : List α) : (l.flatMap g).length = n * l.length := by
  simp [List.length_flatMap, each, Nat.mul_comm]

theorem slice_flatMap (each : ∀ x, (g x).length = n) {l : List α} {i : Nat} {x : α} (at_ : l[i]? = some x) :
    slice (l.flatMap g) (n * i) n = g x := by
  induction l generalizing i with
  | nil => exact absurd at_ nofun
  | cons y l ih =>
    unfold slice at ih ⊢
    rw [List.flatMap_cons]
    cases i with
    | zero =>
      obtain rfl : y = x := by simpa using at_
      rw [Nat.mul_zero, List.drop_zero, List.take_append_of_le_length (each y).ge, List.take_of_length_le (each y).le]
    | succ i =>
      have shift : n * (i + 1) = (g y).length + n * i := by rw [each, Nat.mul_succ, Nat.add_comm]
      rw [shift, List.drop_length_add_append, ih (by simpa using at_)]

end Pieces

section Fields

variable {a b : List Byte} {off len n v : Nat}

theorem slice_append_right (skips : a.length ≤ off) : slice (a ++ b) off len = slice b (off - a.length) len := by
  obtain ⟨k, rfl⟩ := Nat.exists_eq_add_of_le skips
  unfold slice
  rw [List.drop_length_add_append, Nat.add_sub_cancel_left]

theorem slice_append_left (within : off + len ≤ a.length) : slice (a ++ b) off len = slice a off len := by
  unfold slice
  rw [List.drop_append_of_le_length (by omega), List.take_append_of_le_length (by rw [List.length_drop]; omega)]

theorem fieldAt_append_right (skips : a.length ≤ off) : fieldAt (a ++ b) off len = fieldAt b (off - a.length) len :=
  congrArg beNat (slice_append_right skips)

theorem fieldAt_append_left (within : off + len ≤ a.length) : fieldAt (a ++ b) off len = fieldAt a off len :=
  congrArg beNat (slice_append_left within)

theorem byteAt_append_right (skips : a.length ≤ off) : byteAt (a ++ b) off = byteAt b (off - a.length) := by
  unfold byteAt
  rw [List.getD_append_right _ _ _ _ skips]

theorem byteAt_append_left (within : off < a.length) : byteAt (a ++ b) off = byteAt a off := by
  unfold byteAt
  rw [List.getD_append _ _ _ _ within]

theorem fieldAt_beBytes : fieldAt (beBytes n v) 0 n = v % 256 ^ n := by
  unfold fieldAt slice
  rw [List.drop_zero, List.take_of_length_le (beBytes_length n v).le, beNat_beBytes]

theorem byteAt_beBytes_one : byteAt (beBytes 1 v) 0 = v % 256 := by
  simp [byteAt, beBytes]

theorem byteAt_cons_zero {x : Byte} {l : List Byte} : byteAt (x :: l) 0 = x.toNat := rfl

theorem byteAt_cons_succ {x : Byte} {l : List Byte} : byteAt (x :: l) (off + 1) = byteAt l off := rfl

end Fields

/-! ## STAT.READ (R484, Table 15.7) -/

section Stat

variable {f : CmdFrame} {s : State}

theorem statBlock_length : (statBlock s f).length = 64 := by
  unfold statBlock statPort
  simp only [List.length_append, beBytes_length, List.length_cons, List.length_nil]

theorem statBlock_fields : fieldAt (statBlock s f) 0 8 = s.clock.counter.toNat ∧ byteAt (statBlock s f) 8 = s.tiers.tier.rank * 32 ∧
    byteAt (statBlock s f) 11 = s.clock.epoch.toNat ∧ byteAt (statBlock s f) 12 = s.supply.cause.toNat ∧
    fieldAt (statBlock s f) 14 2 = (nodeNumber s).toNat ∧ fieldAt (statBlock s f) 16 8 = s.dieId.toNat ∧
    fieldAt (statBlock s f) 24 8 = s.straps.digest.toNat ∧
    byteAt (statBlock s f) 56 = (s.hand f.hand).state.num * 16 + f.hand.val ∧
    fieldAt (statBlock s f) 60 4 = s.engine.slots[keySlot f].session.toNat := by
  have tier : s.tiers.tier.rank * 32 < 256 := by cases s.tiers.tier <;> decide
  have hand : (s.hand f.hand).state.num * 16 + f.hand.val < 256 := by
    have small : (s.hand f.hand).state.num ≤ 3 := by cases (s.hand f.hand).state <;> decide
    have := f.hand.isLt
    omega
  unfold statBlock statPort
  dsimp only
  simp only [fieldAt_append_left, fieldAt_append_right, byteAt_append_left, byteAt_append_right, fieldAt_beBytes, byteAt_beBytes_one,
    byteAt_cons_zero, byteAt_cons_succ, List.length_append, beBytes_length, List.length_cons, List.length_nil, Nat.reduceAdd,
    Nat.reduceLeDiff, Nat.reduceSub, Nat.reduceLT, true_and]
  omega

/-- A counter block: four bytes for each code asked for, in the order asked (R485). -/
theorem counters_length (src obj : Nat) (codes : List Nat) :
    (codes.flatMap fun c => beBytes 4 (counterOf s src obj c).toNat).length = 4 * codes.length :=
  flatMap_length_of (fun _ => beBytes_length 4 _) codes

theorem counters_fields (src obj : Nat) {codes : List Nat} {i c : Nat} (at_ : codes[i]? = some c) :
    fieldAt (codes.flatMap fun c => beBytes 4 (counterOf s src obj c).toNat) (4 * i) 4 = (counterOf s src obj c).toNat := by
  unfold fieldAt
  rw [slice_flatMap (fun _ => beBytes_length 4 _) at_, beNat_beBytes]
  omega

theorem askedCodes_at {i : Nat} (len : (cmdBody f).length = 3 + bodyByte f 2) (inside : i < bodyByte f 2) :
    (askedCodes f)[i]? = some (bodyByte f (3 + i)) := by
  unfold askedCodes slice
  rw [List.getElem?_map, List.getElem?_take, if_pos inside, List.getElem?_drop, bodyByte, byteAt, List.getD_eq_getElem?_getD,
    List.getElem?_eq_getElem (by omega)]
  rfl

theorem askedCodes_length (len : (cmdBody f).length = 3 + bodyByte f 2) : (askedCodes f).length = bodyByte f 2 := by
  unfold askedCodes slice
  rw [List.length_map, List.length_take, List.length_drop, len]
  omega

end Stat

/-! ## EV.READ (R486) -/

section Events

variable {f : CmdFrame} {s : State} {k i : Nat}

theorem readN_length (m : Memory) (a n : Nat) : (m.readN a n).length = n := by
  induction n generalizing a with
  | zero => rfl
  | succ n ih => rw [Memory.readN, List.length_cons, ih]

theorem eventRecord_length : (eventRecord s k i).length = 32 := by
  unfold eventRecord
  dsimp only
  split
  · rfl
  · exact readN_length ..

theorem eventRecord_clean (clean : s.mem.poison = []) :
    eventRecord s k i = s.mem.readN (eventBase k + 32 * (((eventHead s k).1 + i) % eventCap k)) 32 := by
  unfold eventRecord
  rw [clean]
  rfl

/-- A block of the oldest records behind its count. -/
def eventBlock (s : State) (k n : Nat) : List Byte := beBytes 1 n ++ zeros 3 ++ (List.range n).flatMap (eventRecord s k)

theorem eventBlock_length (n : Nat) : (eventBlock s k n).length = 4 + 32 * n := by
  unfold eventBlock
  rw [List.length_append, flatMap_length_of (fun _ => eventRecord_length), List.length_range]
  rfl

theorem eventBlock_count {n : Nat} (small : n < 256) : byteAt (eventBlock s k n) 0 = n := by
  unfold eventBlock
  rw [byteAt_append_left (by simp [zeros]), byteAt_append_left (by simp), byteAt_beBytes_one, Nat.mod_eq_of_lt small]

theorem eventBlock_record {n : Nat} (inside : i < n) : slice (eventBlock s k n) (4 + 32 * i) 32 = eventRecord s k i := by
  have head : (beBytes 1 n ++ zeros 3).length = 4 := by simp [zeros]
  unfold eventBlock
  rw [slice_append_right (by omega), head, Nat.add_sub_cancel_left]
  exact slice_flatMap (fun _ => eventRecord_length) (by rw [List.getElem?_range inside])

end Events

/-! ## Q.READ (R310, Table 10.2) -/

section Queues

variable {f : CmdFrame} {s : State} {q : Nat} {tb : Bool}

theorem planQueues_length (plan : Nat) : (planQueues plan).length ≤ 16 := by
  unfold planQueues
  split <;> decide

theorem queueHand_lt {h : Nat} (owner : queueHand s q = some h) : h < 16 := by
  unfold queueHand at owner
  split at owner
  · split at owner
    · next p _ _ =>
      have mem := List.mem_range.mp (List.mem_of_find?_eq_some owner)
      exact Nat.lt_of_lt_of_le mem (planQueues_length p)
    · exact absurd owner nofun
  · exact absurd owner nofun

theorem queueHand_getD_lt : (queueHand s q).getD 0 < 16 := by
  cases owner : queueHand s q with
  | none => decide
  | some h => exact queueHand_lt owner

theorem b2n_le (b : Bool) : b2n b ≤ 1 := by cases b <;> decide

theorem queueDescriptor_length : (queueDescriptor s q tb).1.length = 16 := by
  unfold queueDescriptor
  simp only [List.length_append, beBytes_length, List.length_cons, List.length_nil]

theorem queueDescriptor_fields : 128 ≤ byteAt (queueDescriptor s q tb).1 0 ∧
    byteAt (queueDescriptor s q tb).1 0 % 16 = (queueHand s q).getD 0 % 16 ∧
    fieldAt (queueDescriptor s q tb).1 12 2 = (qSetOf s q).rate.toNat := by
  have owner := queueHand_getD_lt (s := s) (q := q)
  have window := b2n_le (queueWindow q).isSome
  have paused := b2n_le (qSetOf s q).paused
  unfold queueDescriptor
  simp only [fieldAt_append_left, fieldAt_append_right, byteAt_append_left, fieldAt_beBytes, byteAt_beBytes_one,
    List.length_append, beBytes_length, Nat.reduceAdd, Nat.reduceLeDiff, Nat.reduceSub, Nat.reduceLT]
  omega

theorem queueWindow_hand (hand : 256 ≤ q) : queueWindow q = none := by
  unfold queueWindow
  rw [if_neg (by simp; omega), if_neg (by simp; omega)]

/-- The class byte and the load of a hand's queue. -/
theorem queueDescriptor_hand (hand : 256 ≤ q) : byteAt (queueDescriptor s q tb).1 1 = (qSetOf s q).cls.toNat * 32 ∧
    fieldAt (queueDescriptor s q tb).1 8 2 = (qFrames s q).length % 65536 ∧
    fieldAt (queueDescriptor s q tb).1 10 2 = cellsIn (qFrames s q) % 65536 := by
  have load : queueLoad s q tb = ((qFrames s q).length, cellsIn (qFrames s q)) := by
    unfold queueLoad
    rw [if_neg (by simp; omega), if_neg (by simp; omega)]
  have cls : queueClass s q = (qSetOf s q).cls.toNat * 32 := by
    unfold queueClass
    rw [queueWindow_hand hand]
    exact if_neg (by simp; omega)
  unfold queueDescriptor
  simp only [queueWindow_hand hand, load, cls]
  simp only [fieldAt_append_left, fieldAt_append_right, byteAt_append_left, byteAt_append_right, fieldAt_beBytes, byteAt_beBytes_one,
    List.length_append, beBytes_length, Nat.reduceAdd, Nat.reduceLeDiff, Nat.reduceSub, Nat.reduceLT]
  omega

end Queues

/-! ## PHY.SNR (R186) -/

section Snr

/-- One bin of the SNR report: a pilot is not measured, a data bin takes the next value. -/
def snrStep (a : List Byte × List Nat) (i : Nat) : List Byte × List Nat :=
  if isPilot (i + 6) then (255 :: a.1, a.2) else (BitVec.ofNat 8 (a.2.headD 255) :: a.1, a.2.tail)

/-- The report of the first bins, newest first. -/
def snrFold (n : Nat) (snr : List Nat) : List Byte × List Nat := (List.range n).foldl snrStep ([], snr)

theorem snrFold_succ (n : Nat) (snr : List Nat) : ∃ x, (snrFold (n + 1) snr).1 = x :: (snrFold n snr).1 ∧
    (isPilot (n + 6) = true → x = 255) := by
  unfold snrFold
  rw [List.range_succ, List.foldl_append, List.foldl_cons, List.foldl_nil, snrStep]
  split
  · exact ⟨255, rfl, fun _ => rfl⟩
  · next data => exact ⟨_, rfl, fun pilot => absurd pilot data⟩

theorem snrFold_length (n : Nat) (snr : List Nat) : (snrFold n snr).1.length = n := by
  induction n with
  | zero => rfl
  | succ n ih =>
    obtain ⟨x, step, -⟩ := snrFold_succ n snr
    rw [step, List.length_cons, ih]

theorem snrFold_pilot {n i : Nat} (snr : List Nat) (inside : i < n) (pilot : isPilot (i + 6) = true) :
    byteAt (snrFold n snr).1.reverse i = 255 := by
  induction n with
  | zero => exact absurd inside (Nat.not_lt_zero i)
  | succ n ih =>
    obtain ⟨x, step, unmeasured⟩ := snrFold_succ n snr
    have long := snrFold_length n snr
    rw [step, List.reverse_cons]
    rcases Nat.lt_succ_iff_lt_or_eq.mp inside with before | rfl
    · rw [byteAt_append_left (by rw [List.length_reverse]; omega), ih before]
    · rw [byteAt_append_right (by rw [List.length_reverse]; omega), List.length_reverse, long, Nat.sub_self, unmeasured pilot]
      rfl

theorem snrBytes_eq (q : PortState) : snrBytes q = (snrFold 486 q.snr).1.reverse := rfl

end Snr

/-! ## The rows -/

section Rows

variable {f : CmdFrame} {s : State}

theorem statRead_answers (ok : Accepted statReadCmd f s) :
    ∃ t b, exec (.statRead f) s = .next t ∧ Replies [] s t f 0 0 b ∧ b.length = 64 ∧ fieldAt b 0 8 = s.clock.counter.toNat ∧
      byteAt b 8 = s.tiers.tier.rank * 32 ∧ byteAt b 11 = s.clock.epoch.toNat ∧ byteAt b 12 = s.supply.cause.toNat ∧
      fieldAt b 14 2 = (nodeNumber s).toNat ∧ fieldAt b 16 8 = s.dieId.toNat ∧ fieldAt b 24 8 = s.straps.digest.toNat ∧
      byteAt b 56 = (s.hand f.hand).state.num * 16 + f.hand.val ∧ fieldAt b 60 4 = s.engine.slots[keySlot f].session.toNat := by
  obtain ⟨counter, tier, epoch, cause, node, die, digest, hand, session⟩ := statBlock_fields (f := f) (s := atExecution f s)
  obtain ⟨input, same⟩ := takeInput_hand (f := f) (s := s) f.hand
  have state : ((atExecution f s).hand f.hand).state = (s.hand f.hand).state := congrArg (fun r => r.state) same
  rw [state] at hand
  rw [atExecution_slot] at session
  exact ⟨_, _, congrArg Host.Outcome.next (runCommand_answers ok rfl rfl), replies_of_read, statBlock_length, counter, tier, epoch,
    cause, node, die, digest, hand, session⟩

theorem statCount_answers (ok : Accepted statCountCmd f s) :
    ∃ t b, exec (.statCount f) s = .next t ∧ Replies [] s t f 0 0 b ∧ b.length = 4 * bodyByte f 2 ∧
      ∀ i, i < bodyByte f 2 → fieldAt b (4 * i) 4 =
        (counterOf s (bodyByte f 0) (if bodyByte f 0 = 0x52 then bodyByte f 1 else 0) (bodyByte f (3 + i))).toNat := by
  obtain ⟨-, body, -⟩ := accepted_checks ok
  have len : (cmdBody f).length = 3 + bodyByte f 2 := by
    have first := firstFail_none body _ (List.mem_cons_self ..)
    simpa using failIf_none.mp first
  refine ⟨_, _, congrArg Host.Outcome.next (runCommand_answers ok rfl rfl), replies_of_read, ?_, fun i inside => ?_⟩
  · rw [counters_length, askedCodes_length len]
  · simp only [beq_iff_eq]
    exact counters_fields _ _ (askedCodes_at len inside)

theorem evRead_answers (ok : Accepted evReadCmd f s) :
    let k := evWindow f
    let n := min (bodyByte f 1) (eventHead s k).2
    ∃ t b, exec (.evRead f) s = .next t ∧ Replies [] s t f 0 0 b ∧ eventHead t k = eventHead s k ∧ byteAt b 0 = n ∧
      b.length = 4 + 32 * n ∧
      ∀ i, i < n → (s.mem.poison = [] → slice b (4 + 32 * i) 32 =
        s.mem.readN (eventBase k + 32 * (((eventHead s k).1 + i) % eventCap k)) 32) := by
  intro k n
  have head := eventHead_atExecution (f := f) (s := s) k
  have small : n < 256 := Nat.lt_of_le_of_lt (Nat.min_le_left ..) (byteAt_lt ..)
  have ran : evReadCmd.run f (atExecution f s) = (.now 0 0 (eventBlock (atExecution f s) k n), atExecution f s) := by
    unfold n
    rw [← head]
    rfl
  refine ⟨_, _, congrArg Host.Outcome.next (runCommand_answers ok rfl ran), replies_of_read, ?_, eventBlock_count small,
    eventBlock_length n, fun i inside clean => ?_⟩
  · rw [eventHead_respond, head]
  · rw [eventBlock_record inside, eventRecord_clean (s := atExecution f s) clean, head]
    rfl

theorem qRead_answers (ok : Accepted qReadCmd f s) :
    let q := bodyField f 0 2
    ∃ t b, exec (.qRead f) s = .next t ∧ Replies [] s t f 0 0 b ∧ b.length = 16 ∧ 128 ≤ byteAt b 0 ∧
      fieldAt b 12 2 = (qSetOf s q).rate.toNat ∧ byteAt b 0 % 16 = (queueHand s q).getD 0 % 16 ∧
      (256 ≤ q → byteAt b 1 = (qSetOf s q).cls.toNat * 32 ∧
        fieldAt b 8 2 = (qFrames s q).length % 65536 ∧ fieldAt b 10 2 = cellsIn (qFrames s q) % 65536) := by
  intro q
  let r := queueDescriptor (atExecution f s) q (bodyByte f 2 == 1)
  have run : exec (.qRead f) s = .next (respond r.2 f 0 0 r.1) := congrArg Host.Outcome.next (runCommand_answers ok rfl rfl)
  obtain ⟨valid, owner, rate⟩ := queueDescriptor_fields (s := atExecution f s) (q := q) (tb := bodyByte f 2 == 1)
  exact ⟨_, _, run, replies_of_alters (frame_queueDescriptor (List.Subset.refl _) (frame_refl _ _)) (by decide) (by decide) (by decide),
    queueDescriptor_length, valid, rate, owner, fun hand => queueDescriptor_hand (s := atExecution f s) hand⟩

/-- The checks of a command on a handle find its own operation. -/
theorem withOp_none {g : Op → Option Nat} (passes : withOp s f g = none) :
    ∃ o, ownOp s f = some o ∧ opOf s (handleArg f) = some o ∧ o.hand = f.hand ∧ g o = none := by
  unfold withOp at passes
  split at passes
  · next o own =>
    refine ⟨o, own, ?_⟩
    unfold ownOp at own
    split at own
    · next x found =>
      split at own
      · next same =>
        obtain rfl : x = o := Option.some.inj own
        exact ⟨found, beq_iff_eq.mp same, passes⟩
      · exact absurd own nofun
    · exact absurd own nofun
  · exact absurd passes nofun

theorem opStatus_answers (ok : Accepted opStatusCmd f s) :
    ∃ t o, exec (.opStatus f) s = .next t ∧ opOf s (bodyField f 0 2) = some o ∧ o.hand = f.hand ∧
      Replies [] s t f 0 0 (beBytes 2 o.handle.toNat ++ beBytes 1 o.state.num ++ [o.reason] ++ beBytes 2 o.opcode.toNat ++
        beBytes 2 o.progress.toNat) := by
  obtain ⟨-, -, own⟩ := accepted_checks ok
  obtain ⟨o, mine, found, hand, -⟩ := withOp_none own
  have ran : opStatusCmd.run f (atExecution f s) = (.now 0 0 (beBytes 2 o.handle.toNat ++ beBytes 1 o.state.num ++ [o.reason] ++
      beBytes 2 o.opcode.toNat ++ beBytes 2 o.progress.toNat), atExecution f s) := by
    unfold opStatusCmd
    dsimp only
    rw [mine]
  exact ⟨_, o, congrArg Host.Outcome.next (runCommand_answers ok rfl ran), found, hand, replies_of_read⟩

theorem phySnr_answers (ok : Accepted phySnrCmd f s) :
    ∃ t b, exec (.phySnr f) s = .next t ∧ Replies [] s t f 0 0 b ∧ b.length = 486 ∧
      (∀ i, i < 486 → isPilot (i + 6) = true → byteAt b i = 255) := by
  refine ⟨_, _, congrArg Host.Outcome.next (runCommand_answers ok rfl rfl), replies_of_read, ?_, fun i inside pilot => ?_⟩
  · rw [snrBytes_eq, List.length_reverse, snrFold_length]
  · rw [snrBytes_eq]
    exact snrFold_pilot _ inside pilot

end Rows

/-- Settles O50: each reading command answers what its body holds, and the response alone changes the state. -/
theorem commandsThatReadAnswerWhatTheyRead : Obligations.CommandsThatReadAnswerWhatTheyRead :=
  ⟨fun _ _ ok => statRead_answers ok, fun _ _ ok => statCount_answers ok, fun _ _ ok => evRead_answers ok,
    fun _ _ ok => qRead_answers ok, fun _ _ ok => opStatus_answers ok,
    fun _ _ ok => ⟨_, congrArg Host.Outcome.next (runCommand_answers ok rfl rfl), replies_of_read⟩,
    fun _ _ ok => phySnr_answers ok⟩

end Sys2Proof.Proofs
end

section
/-! What the operations leave of the key slots and of the channels' pending values (R467, R499, Table 16.3). -/

namespace Sys2Proof.Proofs

open Sys2Proof Sys2Proof.Machine Sys2Proof.Safety Sys2Proof.Laws

section Slots

variable {s t u : State} {h reason : Nat} {st : OpState} {o : Op}

theorem keepsSlots_refl (s : State) : KeepsSlots s s := ⟨rfl, rfl⟩

theorem keepsSlots_trans (first : KeepsSlots s t) (second : KeepsSlots t u) : KeepsSlots s u :=
  ⟨second.slots.trans first.slots, second.turn.trans first.turn⟩

theorem onOp_keepsSlots (f : Op → Op) : KeepsSlots s (onOp s h f) := ⟨rfl, rfl⟩

theorem opEnter_keepsSlots : KeepsSlots s (opEnter s h st reason) :=
  ⟨by rw [opEnter_engine]; rfl, by rw [opEnter_engine]; rfl⟩

theorem trimOps_keepsSlots : KeepsSlots s (trimOps s) := by
  unfold trimOps
  dsimp only
  split
  · split <;> exact ⟨rfl, rfl⟩
  · exact keepsSlots_refl s

theorem opEnd_keepsSlots : KeepsSlots s (opEnd s h st reason) := keepsSlots_trans opEnter_keepsSlots trimOps_keepsSlots

theorem trimEnd_keepsSlots (n : Fin 24) (before : Int) : KeepsSlots s (trimEnd s n before) := by
  have ended : Alters [.chans] s (trimEnd s n before) := frame_trimEnd (List.Subset.refl _) (frame_refl _ s)
  exact keepsSlots_of_engine (same_engine ended (by decide))

theorem suspendTrim_keepsSlots (n : Fin 24) : KeepsSlots s (suspendTrim s h n) := by
  unfold suspendTrim
  split
  · exact keepsSlots_refl s
  · dsimp only
    split
    · exact keepsSlots_trans opEnter_keepsSlots (trimEnd_keepsSlots n _)
    · exact opEnter_keepsSlots

theorem discardAwait_keepsSlots (p : Await → Bool) : KeepsSlots s (discardAwait s p) := ⟨rfl, rfl⟩

theorem opRollback_keepsSlots : KeepsSlots s (opRollback s o st reason) := by
  unfold opRollback
  dsimp only
  split
  · split
    · exact ⟨rfl, rfl⟩
    · exact opEnd_keepsSlots
  · refine keepsSlots_trans (keepsSlots_trans ?_ (discardAwait_keepsSlots _)) opEnd_keepsSlots
    split
    · exact trimEnd_keepsSlots ..
    · exact keepsSlots_refl s
  · exact keepsSlots_trans (t := s.onMem _) ⟨rfl, rfl⟩ opEnd_keepsSlots
  · exact keepsSlots_trans (t := s.onSeat _) ⟨rfl, rfl⟩ opEnd_keepsSlots
  · exact opEnd_keepsSlots

theorem endOps_keepsSlots (p : Op → Bool) : KeepsSlots s (endOps s p st reason) :=
  each_keeps (P := KeepsSlots s) (fun _ _ keeps => keepsSlots_trans keeps opRollback_keepsSlots) (keepsSlots_refl s)

end Slots

/-! ## The values an operation leaves waiting -/

section Pending

variable {s : State} {reason : Nat} {st : OpState} {o : Op} {m : Fin 24}

theorem trimEnd_pending (n : Fin 24) (before : Int) : ((trimEnd s n before).chan m).pending = (s.chan m).pending := by
  by_cases same : m = n
  · subst same
    unfold trimEnd
    dsimp only
    split
    · rw [redriven_pending (driveShell_redrives _ m), State.onChan_chan]
    · rw [bankNow_chan, State.onChan_chan]
      exact (redriven_pending (keeperTakes_redrives _ _ _)).trans rfl
  · rw [trimEnd_chan_other before same]

theorem opEnd_chan (s : State) (h : Nat) (m : Fin 24) : (opEnd s h st reason).chan m = s.chan m :=
  same_chan (frame_opEnd (L := [.engine, .events]) (List.Subset.refl _) (frame_refl _ s)) (by decide) m

theorem opRollback_pending : ((opRollback s o st reason).chan m).pending = (s.chan m).pending := by
  unfold opRollback
  dsimp only
  split
  · split
    · rfl
    · rw [opEnd_chan]
  · rw [opEnd_chan]
    split
    · exact trimEnd_pending ..
    · rfl
  · rw [opEnd_chan]
    rfl
  · rw [opEnd_chan]
    rfl
  · rw [opEnd_chan]

theorem endOps_pending (p : Op → Bool) : ((endOps s p st reason).chan m).pending = (s.chan m).pending :=
  each_keeps (P := fun t => (t.chan m).pending = (s.chan m).pending) (fun _ _ kept => opRollback_pending.trans kept) rfl

end Pending

end Sys2Proof.Proofs
end

section
/-! The commands on events, hands, queues and operations: EV.ACK, HAND.CLAIM, HAND.STATIONS, HAND.RESET, Q.SET, OP.SUSPEND, OP.RESUME and
OP.CANCEL (R313, R311, R329, R486, R500). -/

namespace Sys2Proof.Proofs

open Sys2Proof Sys2Proof.Machine Sys2Proof.Safety Sys2Proof.Laws

/-! ## EV.ACK: the windows (R486, R597) -/

section Windows

variable {s : State} {k j : Nat}

theorem eventHead_setEventHead (a c : Nat) : eventHead (setEventHead s k a c) k = (a, c) := by
  unfold eventHead setEventHead
  by_cases small : k < 16
  · rw [if_pos small, if_pos small]
    dsimp only
    rw [State.onHand_hand]
  · rw [if_neg small, if_neg small]
    rfl

theorem eventHead_setEventHead_other (hj : j ≤ 16) (hk : k ≤ 16) (other : j ≠ k) (a c : Nat) :
    eventHead (setEventHead s k a c) j = eventHead s j := by
  unfold eventHead setEventHead
  by_cases small : k < 16
  · rw [if_pos small]
    by_cases hand : j < 16
    · have apart : Fin.ofNat 16 j ≠ Fin.ofNat 16 k := fun e => other (by simpa [Nat.mod_eq_of_lt, hand, small] using congrArg Fin.val e)
      rw [if_pos hand, if_pos hand]
      dsimp only
      rw [State.onHand_hand_other _ _ _ _ apart]
    · rw [if_neg hand, if_neg hand]
      rfl
  · rw [if_neg small, if_pos (by omega), if_pos (by omega)]
    rfl

theorem pushRecord_eq (r : List Byte) : ∃ t, pushRecord s k r = setEventHead t k (eventHead s k).1 ((eventHead s k).2 + 1) ∧
    ∀ j, eventHead t j = eventHead s j := by
  unfold pushRecord
  dsimp only
  split
  · exact ⟨_, rfl, fun _ => rfl⟩
  · exact ⟨_, rfl, fun _ => rfl⟩

/-- The records of a window lost since its last record. -/
def lostOf (s : State) (k : Nat) : Nat := if k < 16 then (s.hand (Fin.ofNat 16 k)).lost else s.queues.lost

theorem eventHead_clearLost (j : Nat) (h : Fin 16) : eventHead (s.onHand h fun r => { r with lost := 0 }) j = eventHead s j := by
  unfold eventHead
  split
  · dsimp only
    by_cases same : Fin.ofNat 16 j = h
    · rw [same, State.onHand_hand]
    · rw [State.onHand_hand_other _ _ _ _ same]
  · rfl

theorem placeLost_none (none_ : lostOf s k = 0) : placeLost s k = s := by
  unfold lostOf at none_
  unfold placeLost
  split at none_
  · next small =>
    rw [if_pos small]
    exact if_pos (by simpa using none_)
  · next node =>
    rw [if_neg node]
    exact if_pos (by simpa using none_)

/-- A lost record is one more record of its window, and the other windows stay. -/
theorem placeLost_some (some_ : lostOf s k ≠ 0) : eventHead (placeLost s k) k = ((eventHead s k).1, (eventHead s k).2 + 1) ∧
    ∀ j, j ≤ 16 → k ≤ 16 → j ≠ k → eventHead (placeLost s k) j = eventHead s j := by
  have placed : ∃ r, ∀ j, eventHead (placeLost s k) j = eventHead (pushRecord s k r) j := by
    unfold lostOf at some_
    unfold placeLost
    split at some_
    · next small =>
      rw [if_pos small]
      dsimp only
      rw [if_neg (by simpa using some_)]
      exact ⟨_, fun j => eventHead_clearLost j _⟩
    · next node =>
      rw [if_neg node]
      dsimp only
      rw [if_neg (by simpa using some_)]
      exact ⟨_, fun j => rfl⟩
  obtain ⟨r, same⟩ := placed
  obtain ⟨t, pushed, heads⟩ := pushRecord_eq (s := s) (k := k) r
  refine ⟨?_, fun j hj hk other => ?_⟩
  · rw [same, pushed, eventHead_setEventHead]
  · rw [same, pushed, eventHead_setEventHead_other hj hk other, heads]

/-- The state with the oldest records of a window removed. -/
def recordsRemoved (s : State) (k n : Nat) : State :=
  setEventHead s k (((eventHead s k).1 + n) % eventCap k) ((eventHead s k).2 - n)

theorem lostOf_recordsRemoved (n : Nat) : lostOf (recordsRemoved s k n) k = lostOf s k := by
  unfold lostOf recordsRemoved setEventHead
  split
  · rw [State.onHand_hand]
  · rfl

theorem ackEvents_clean (n : Nat) (none_ : lostOf s k = 0) : ackEvents s k n = recordsRemoved s k n :=
  placeLost_none ((lostOf_recordsRemoved n).trans none_)

theorem recordsRemoved_mem (n : Nat) : (recordsRemoved s k n).mem = s.mem :=
  same_mem (frame_setEventHead (L := [.queues, .hands]) (List.Subset.refl _) (frame_refl _ s)) (by decide)

theorem ackEvents_lost (n : Nat) (some_ : lostOf s k ≠ 0) :
    eventHead (ackEvents s k n) k = (((eventHead s k).1 + n) % eventCap k, (eventHead s k).2 - n + 1) := by
  obtain ⟨placed, -⟩ := placeLost_some (s := recordsRemoved s k n) (k := k) (by rwa [lostOf_recordsRemoved])
  refine placed.trans ?_
  unfold recordsRemoved
  rw [eventHead_setEventHead]

theorem ackEvents_other (n : Nat) (hj : j ≤ 16) (hk : k ≤ 16) (other : j ≠ k) : eventHead (ackEvents s k n) j = eventHead s j := by
  have removed : eventHead (recordsRemoved s k n) j = eventHead s j := eventHead_setEventHead_other hj hk other _ _
  by_cases lost : lostOf s k = 0
  · rw [ackEvents_clean n lost, removed]
  · obtain ⟨-, others⟩ := placeLost_some (s := recordsRemoved s k n) (k := k) (by rwa [lostOf_recordsRemoved])
    exact (others j hj hk other).trans removed

theorem pushRecord_frames (r : List Byte) (q : Nat) : qFrames (pushRecord s k r) q = qFrames s q := by
  unfold pushRecord setEventHead
  dsimp only
  split <;> split <;> rfl

theorem ackEvents_frames (n q : Nat) : qFrames (ackEvents s k n) q = qFrames s q := by
  have removed : qFrames (recordsRemoved s k n) q = qFrames s q := by
    unfold recordsRemoved setEventHead
    split <;> rfl
  refine Eq.trans ?_ removed
  change qFrames (placeLost (recordsRemoved s k n) k) q = _
  unfold placeLost
  split
  · dsimp only
    split
    · rfl
    · exact pushRecord_frames _ q
  · dsimp only
    split
    · rfl
    · exact pushRecord_frames _ q

end Windows

section Hands

variable {c : Cmd} {f : CmdFrame} {s : State}

theorem evWindow_le : evWindow f ≤ 16 := by
  unfold evWindow
  split
  · exact Nat.le_refl 16
  · exact Nat.le_of_lt f.hand.isLt

/-- The lost records of the window an EV command names, before and at its execution. -/
theorem lostOf_evWindow : lostOf (atExecution f s) (evWindow f) =
    if evWindow f < 16 then (s.hand f.hand).lost else s.queues.lost := by
  obtain ⟨input, same⟩ := takeInput_hand (f := f) (s := s) f.hand
  have own : ((atExecution f s).hand f.hand).lost = (s.hand f.hand).lost := congrArg (fun r => r.lost) same
  unfold lostOf
  split
  · next small =>
    have hand : Fin.ofNat 16 (evWindow f) = f.hand := by
      unfold evWindow at small ⊢
      split at small
      · exact absurd small (Nat.lt_irrefl 16)
      · next other => rw [if_neg other]; exact Fin.ext (Nat.mod_eq_of_lt f.hand.isLt)
    rw [hand, own]
  · rfl

theorem evAck_answers (ok : Accepted evAckCmd f s) :
    let k := evWindow f
    let n := bodyByte f 1
    let lost := if k < 16 then (s.hand f.hand).lost else s.queues.lost
    ∃ t, exec (.evAck f) s = .next t ∧ Replies [.hands, .queues, .mem] s t f 0 0 [] ∧ n ≤ (eventHead s k).2 ∧
      (lost = 0 → eventHead t k = (((eventHead s k).1 + n) % eventCap k, (eventHead s k).2 - n) ∧ t.mem = s.mem) ∧
      (lost ≠ 0 → eventHead t k = (((eventHead s k).1 + n) % eventCap k, (eventHead s k).2 - n + 1)) ∧
      (∀ j, j ≤ 16 → j ≠ k → eventHead t j = eventHead s j) ∧ (∀ q, q ≠ 32 + f.hand.val → qFrames t q = qFrames s q) := by
  intro k n lost
  obtain ⟨-, -, own⟩ := accepted_checks ok
  have head := eventHead_atExecution (f := f) (s := s)
  have held : lostOf (atExecution f s) k = lost := lostOf_evWindow
  refine ⟨_, congrArg Host.Outcome.next (runCommand_answers ok rfl rfl),
    replies_of_alters (frame_ackEvents (by decide) (frame_refl _ _)) (by decide) (by decide) (by decide), ?_, fun none_ => ⟨?_, ?_⟩,
    fun some_ => ?_, fun j hj other => ?_, fun q other => ?_⟩
  · have enough := failIf_none.mp own
    rw [head] at enough
    simpa using enough
  · rw [eventHead_respond, ackEvents_clean _ (held.trans none_), recordsRemoved, eventHead_setEventHead, head]
  · rw [same_mem respond_alters (by decide), ackEvents_clean _ (held.trans none_), recordsRemoved_mem]
    rfl
  · rw [eventHead_respond, ackEvents_lost _ (by rwa [held]), head]
  · rw [eventHead_respond, ackEvents_other _ hj evWindow_le other, head]
  · rw [qFrames_respond_other other, ackEvents_frames]
    rfl

/-! ## HAND.CLAIM and HAND.STATIONS (R313) -/

theorem accepted_station (ok : Accepted c f s) : checkStation (atExecution f s) f = none :=
  firstFail_none ok.checks _ (by simp)

theorem accepted_opcode (ok : Accepted c f s) : checkOpcode f = none := firstFail_none ok.checks _ (by simp)

theorem hand_atExecution_other {h : Fin 16} (other : h ≠ f.hand) : (atExecution f s).hand h = s.hand h :=
  State.onHand_hand_other s f.hand h (fun r => { r with input := if r.input.head? == some f then r.input.tail else r.input }) other

/-- The change of the sender's stations. -/
theorem stations_answer {g : Hand → Hand} (ok : Accepted c f s) (direct : c.cs f (atExecution f s) = false)
    (ran : c.run f (atExecution f s) = (.now 0 0 [], mirrorStations ((atExecution f s).onHand f.hand g) f.hand)) :
    ∃ t, runCommand c f s = t ∧ Replies [.hands, .seat] s t f 0 0 [] ∧ (∃ input, t.hand f.hand = g { s.hand f.hand with input := input }) ∧
      (∀ k, k ≠ f.hand → t.hand k = s.hand k) := by
  have mirrored : Alters [.seat] ((atExecution f s).onHand f.hand g) (mirrorStations ((atExecution f s).onHand f.hand g) f.hand) :=
    frame_mirrorStations (List.Subset.refl _) (frame_refl _ _)
  obtain ⟨input, same⟩ := takeInput_hand (f := f) (s := s) f.hand
  have own : (atExecution f s).hand f.hand = { s.hand f.hand with input := input } := same
  refine ⟨_, runCommand_answers ok direct ran, replies_of_alters (frame_mirrorStations (by decide) (frame_State_onHand (by decide) (frame_refl _ _)))
    (by decide) (by decide) (by decide), ⟨input, ?_⟩, fun k other => ?_⟩
  · rw [same_hand respond_alters (by decide), same_hand mirrored (by decide), State.onHand_hand, own]
  · rw [same_hand respond_alters (by decide), same_hand mirrored (by decide), State.onHand_hand_other _ _ _ _ other,
      hand_atExecution_other other]

theorem handClaim_master (ok : Accepted handClaimCmd f s) (some_ : ((atExecution f s).hand f.hand).master.isSome = true) :
    ((atExecution f s).hand f.hand).master = some f.srcTag := by
  have op : opcodeOf f = 0x0301 := ok.op
  have key := accepted_opcode ok
  have station := accepted_station ok
  unfold checkOpcode at key
  rw [op] at key
  have hand : underWarden f = false := by
    cases warden : underWarden f with
    | false => rfl
    | true =>
      rw [warden] at key
      exact absurd key (by decide)
  unfold checkStation at station
  rw [op, hand] at station
  dsimp only at station
  split at station
  · next same => simpa using same
  · rw [if_pos (by decide)] at station
    split at station
    · next none_ => rw [Option.isNone_iff_eq_none.mp none_] at some_; exact absurd some_ (by decide)
    · exact absurd station nofun

theorem handClaim_answers (ok : Accepted handClaimCmd f s) :
    ∃ t, exec (.handClaim f) s = .next t ∧ Replies [.hands, .seat] s t f 0 0 [] ∧ (t.hand f.hand).master = some f.srcTag ∧
      (t.hand f.hand).observers = (s.hand f.hand).observers ∧ (∀ k, k ≠ f.hand → t.hand k = s.hand k) := by
  by_cases claimed : ((atExecution f s).hand f.hand).master.isSome = true
  · obtain ⟨input, same⟩ := takeInput_hand (f := f) (s := s) f.hand
    have own : (atExecution f s).hand f.hand = { s.hand f.hand with input := input } := same
    have ran : handClaimCmd.run f (atExecution f s) = (.now 0 0 [], atExecution f s) := by
      refine congrArg (Prod.mk (Reply.now 0 0 [])) (if_pos claimed)
    refine ⟨_, congrArg Host.Outcome.next (runCommand_answers ok rfl ran), replies_of_alters (frame_refl _ _) (by decide) (by decide) (by decide),
      ?_, ?_, fun k other => ?_⟩
    · rw [same_hand respond_alters (by decide), handClaim_master ok claimed]
    · rw [same_hand respond_alters (by decide), own]
    · rw [same_hand respond_alters (by decide), hand_atExecution_other other]
  · have ran : handClaimCmd.run f (atExecution f s) = (.now 0 0 [],
        mirrorStations ((atExecution f s).onHand f.hand fun r => { r with master := some f.srcTag }) f.hand) :=
      congrArg (Prod.mk (Reply.now 0 0 [])) (if_neg claimed)
    obtain ⟨t, run, replies, ⟨input, own⟩, others⟩ := stations_answer ok rfl ran
    exact ⟨t, congrArg Host.Outcome.next run, replies, by rw [own], by rw [own], others⟩

theorem handStations_answers (ok : Accepted handStationsCmd f s) :
    ∃ t, exec (.handStations f) s = .next t ∧ Replies [.hands, .seat] s t f 0 0 [] ∧
      (t.hand f.hand).master = some (BitVec.ofNat 48 (bodyField f 0 6)) ∧ (t.hand f.hand).observers.length = bodyByte f 6 ∧
      (∀ i, i < bodyByte f 6 → (t.hand f.hand).observers[i]? = some (BitVec.ofNat 48 (bodyField f (8 + 6 * i) 6))) ∧
      (∀ k, k ≠ f.hand → t.hand k = s.hand k) := by
  obtain ⟨t, run, replies, ⟨input, own⟩, others⟩ := stations_answer ok rfl rfl
  refine ⟨t, congrArg Host.Outcome.next run, replies, by rw [own], ?_, fun i inside => ?_, others⟩
  · rw [own, List.length_map, List.length_range]
  · rw [own, List.getElem?_map, List.getElem?_range inside]
    rfl

/-! ## HAND.RESET (R329, Table 10.5) -/

theorem dropPending_chan (n : Fin 24) (d : PendOut → Bool) :
    (dropPending s n d).chan n = { s.chan n with pending := (s.chan n).pending.filter fun p => !d p } ∧
      ∀ m, m ≠ n → (dropPending s n d).chan m = s.chan m := by
  have mirrored : Alters [.seat] (s.onChan n fun c => { c with pending := c.pending.filter fun p => !d p }) (dropPending s n d) :=
    each_keeps (P := Alters [.seat] (s.onChan n fun c => { c with pending := c.pending.filter fun p => !d p }))
      (fun _ _ kept => frame_mirrorMsg (List.Subset.refl _) kept) (frame_refl _ _)
  refine ⟨?_, fun m other => ?_⟩
  · rw [same_chan mirrored (by decide), State.onChan_chan]
  · rw [same_chan mirrored (by decide), State.onChan_chan_other _ n m _ other]

/-- The channels after the Discard step: each has lost the values of the hand. -/
theorem dropPending_each (h : Fin 16) (n : Fin 24) :
    ((s.each (List.finRange 24) fun n s => dropPending s n fun p => p.hand == h).chan n).pending =
      (s.chan n).pending.filter fun p => p.hand != h :=
  each_chans (I := fun _ => True) (R := fun _ c c' => c'.pending = c.pending.filter fun p => p.hand != h)
    (fun k x m other => (dropPending_chan k _).2 m other) (fun _ _ kept => kept)
    (fun k x _ => by rw [(dropPending_chan k _).1]; rfl) trivial n

/-- The entries of the hand leave the stream table. -/
theorem entriesFreed_alters (sids : List Nat) (why : InvWhy) :
    Alters [.tables, .mem] s (s.each sids fun sid s => invertEpoch (setStreamEntry s sid 0) why) :=
  each_keeps (P := Alters [.tables, .mem] s)
    (fun _ _ kept => frame_invertEpoch (by decide) (frame_setStreamEntry (by decide) kept)) (frame_refl _ s)

theorem freeGrids_pending (n : Fin 24) : ((freeGrids s).chan n).pending = (s.chan n).pending := by
  unfold freeGrids
  rw [State.mapChans_chan]
  split <;> rfl

/-- The streams of a hand are closed (R301). -/
def streamsClosed (s : State) (h : Fin 16) : State := { s with streams := s.streams.filter fun x => x.hand != h }

theorem onHand_chan (h : Fin 16) (g : Hand → Hand) (n : Fin 24) : (s.onHand h g).chan n = s.chan n := rfl

theorem onTables_chan (g : Tables → Tables) (n : Fin 24) : (s.onTables g).chan n = s.chan n := rfl

theorem streamsClosed_streams (h : Fin 16) : (streamsClosed s h).streams = s.streams.filter fun x => x.hand != h := rfl

theorem streamsClosed_engine (h : Fin 16) : (streamsClosed s h).engine = s.engine := rfl

theorem streamsClosed_hand (h k : Fin 16) : (streamsClosed s h).hand k = s.hand k := rfl

theorem streamsClosed_chan (h : Fin 16) (n : Fin 24) : (streamsClosed s h).chan n = s.chan n := rfl

theorem handResetStart_parts (h : Fin 16) (quiet : sessionOf s h = false) :
    KeepsSlots s (handResetStart s h) ∧ (handResetStart s h).streams = s.streams.filter (fun x => x.hand != h) ∧
      (∃ n, (handResetStart s h).hand h = { s.hand h with state := .resetting, refusals := [], resetInv := n }) ∧
      (∀ k, k ≠ h → (handResetStart s h).hand k = s.hand k) ∧
      ∀ n : Fin 24, ((handResetStart s h).chan n).pending = (s.chan n).pending.filter fun p => p.hand != h := by
  let s2 := s.onHand h fun r => { r with state := .resetting, refusals := [] }
  let s3 := s2.each (List.finRange 24) fun n s => dropPending s n fun p => p.hand == h
  let s4 := s3.onTables fun t => discardStaged
    { t with commit := if t.commit.hand == h && t.commit.state == .preparing then { t.commit with prepared := false } else t.commit }
    fun x => x == h
  let s5 := endOps s4 (fun o => o.hand == h) .cancelled 0x11
  let sids := handEntries s5 h
  let s6 := streamsClosed s5 h
  let s7 := s6.each sids fun sid s => invertEpoch (setStreamEntry s sid 0) (.handReset h)
  let s8 := s7.onHand h fun r => { r with resetInv := sids.length }
  have shape : handResetStart s h = mirrorStations (freeGrids s8) h := by
    unfold handResetStart
    rw [if_neg (Bool.eq_false_iff.mp quiet)]
    rfl
  have dropped : Alters [.chans, .seat] s2 s3 :=
    each_keeps (P := Alters [.chans, .seat] s2) (fun _ _ kept => frame_dropPending (List.Subset.refl _) kept) (frame_refl _ s2)
  have ended : Alters [.tables, .chans, .mem, .engine, .seat, .events] s3 s5 :=
    frame_endOps (List.Subset.refl _) (frame_State_onTables (by decide) (frame_refl _ s3))
  have freed : Alters [.tables, .mem] s6 s7 := entriesFreed_alters sids _
  have done_ : Alters [.chans, .seat] s8 (mirrorStations (freeGrids s8) h) :=
    frame_mirrorStations (by decide) (frame_freeGrids (by decide) (frame_refl _ s8))
  have mirrored : Alters [.seat] (freeGrids s8) (mirrorStations (freeGrids s8) h) :=
    frame_mirrorStations (List.Subset.refl _) (frame_refl _ _)
  have hands : ∀ k, s7.hand k = s2.hand k := fun k => by
    have streamed : s6.hand k = s5.hand k := streamsClosed_hand h k
    rw [same_hand freed (by decide), streamed, same_hand ended (by decide), same_hand dropped (by decide)]
  have discarded : s3.engine = s2.engine := same_engine dropped (by decide)
  have opened : s3.streams = s2.streams := same_streams dropped (by decide)
  have grown : s6.streams = s5.streams.filter fun x => x.hand != h := streamsClosed_streams h
  rw [shape]
  refine ⟨?_, ?_, ⟨sids.length, ?_⟩, fun k other => ?_, fun n => ?_⟩
  · have staged : s4.engine = s3.engine := State.onTables_engine ..
    have entered : s2.engine = s.engine := State.onHand_engine ..
    have first : KeepsSlots s s4 := keepsSlots_of_engine ((staged.trans discarded).trans entered)
    have reset : s8.engine = s7.engine := State.onHand_engine ..
    have streamed : s6.engine = s5.engine := streamsClosed_engine h
    have last : KeepsSlots s5 (mirrorStations (freeGrids s8) h) := keepsSlots_of_engine
      (by rw [same_engine done_ (by decide), reset, same_engine freed (by decide), streamed])
    exact keepsSlots_trans first (keepsSlots_trans (endOps_keepsSlots _) last)
  · have before : s5.streams = s.streams := (same_streams ended (by decide)).trans opened
    have kept : s8.streams = s7.streams := State.onHand_streams ..
    rw [same_streams done_ (by decide), kept, same_streams freed (by decide), grown, before]
  · have reset : s8.hand h = { s7.hand h with resetInv := sids.length } := State.onHand_hand ..
    have entered : s2.hand h = { s.hand h with state := .resetting, refusals := [] } := State.onHand_hand ..
    rw [same_hand done_ (by decide), reset, hands, entered]
  · have reset : s8.hand k = s7.hand k := State.onHand_hand_other _ _ _ _ other
    have entered : s2.hand k = s.hand k := State.onHand_hand_other _ _ _ _ other
    rw [same_hand done_ (by decide), reset, hands, entered]
  · rw [same_chan mirrored (by decide), freeGrids_pending]
    have waits : s8.chan n = s7.chan n := onHand_chan ..
    have streamed : s6.chan n = s5.chan n := streamsClosed_chan h n
    have staged : s4.chan n = s3.chan n := onTables_chan ..
    rw [waits, same_chan freed (by decide), streamed, endOps_pending, staged, dropPending_each]
    rfl

theorem handReset_answers (ok : Accepted handResetCmd f s) :
    let h : Fin 16 := Fin.ofNat 16 (bodyByte f 0)
    sessionOf s h = false →
    ∃ t, exec (.handReset f) s = .next t ∧
      Replies [.hands, .tables, .streams, .chans, .mem, .engine, .seat, .events] s t f 0 0 [] ∧
      (t.hand h).state = .resetting ∧ (t.hand h).master = (s.hand h).master ∧ (t.hand h).observers = (s.hand h).observers ∧
      t.streams = s.streams.filter (fun x => x.hand != h) ∧
      (∀ n : Fin 24, (t.chan n).pending = (s.chan n).pending.filter fun p => p.hand != h) ∧
      (∀ k, k ≠ h → (t.hand k).state = (s.hand k).state ∧ (t.hand k).master = (s.hand k).master ∧
        (t.hand k).evCount = (s.hand k).evCount) := by
  intro h quiet
  obtain ⟨keeps, streams, ⟨n, own⟩, others, pending⟩ := handResetStart_parts (s := atExecution f s) h quiet
  have taken := takeInput_hand (f := f) (s := s)
  have started : Alters [.tables, .hands, .streams, .chans, .mem, .engine, .seat, .events, .dbg] (atExecution f s)
      (handResetStart (atExecution f s) h) := frame_handResetStart (List.Subset.refl _) (frame_refl _ _)
  have queues := same_queues started (by decide)
  obtain ⟨input, same⟩ := taken h
  have hand : (atExecution f s).hand h = { s.hand h with input := input } := same
  refine ⟨_, congrArg Host.Outcome.next (runCommand_answers ok rfl rfl), respond_replies keeps ?_ (by decide) (by decide)
    (.inr ⟨fun q _ => ?_, ?_⟩) (.inl (by decide)) (.inl (by decide)), ?_, ?_, ?_, ?_, fun n => ?_, fun k other => ?_⟩
  · exact frame_trans (frame_mono (by decide) atExecution_alters) (frame_mono (by decide) started)
  · exact qFrames_congr queues
  · rw [queues]
    rfl
  · rw [same_hand respond_alters (by decide), own]
  · rw [same_hand respond_alters (by decide), own, hand]
  · rw [same_hand respond_alters (by decide), own, hand]
  · rw [same_streams respond_alters (by decide), streams]
    rfl
  · rw [same_chan respond_alters (by decide), pending]
    rfl
  · obtain ⟨input, same⟩ := taken k
    have hand : (atExecution f s).hand k = { s.hand k with input := input } := same
    rw [same_hand respond_alters (by decide), others k other, hand]
    exact ⟨rfl, rfl, rfl⟩

end Hands

/-! ## Q.SET (R311) -/

section Settings

variable {f : CmdFrame} {s : State} {p q : Nat} {v : QSet}

theorem settings_setQSet : (sparseGet (setQSet s q v).queues.settings p).getD (qDefault p) =
    if p = q then v else (sparseGet s.queues.settings p).getD (qDefault p) := by
  unfold setQSet
  rw [State.onQueues_queues]
  dsimp only
  split
  · next default =>
    rw [sparseGet_sparseDel]
    split
    · next same => rw [same]; exact (beq_iff_eq.mp default).symm
    · rfl
  · rw [sparseGet_sparseSet]
    split <;> rfl

theorem qSetOf_setQSet_other (other : p ≠ q) : qSetOf (setQSet s q v) p = qSetOf s p := by
  unfold qSetOf
  rw [settings_setQSet, if_neg other]
  rfl

theorem qSetOf_setQSet : (qSetOf (setQSet s q v) q).cls = v.cls ∧ (qSetOf (setQSet s q v) q).rate = v.rate ∧
    (qSetOf (setQSet s q v) q).credit = v.credit := by
  unfold qSetOf
  rw [settings_setQSet, if_pos rfl]
  exact ⟨rfl, rfl, rfl⟩

/-- The settings of a queue follow the table of settings and the state of the hand that owns it. -/
theorem qSetOf_congr {t : State} (settings : t.queues.settings = s.queues.settings) (straps : t.straps = s.straps)
    (hands : ∀ h, (t.hand h).state = (s.hand h).state) : qSetOf t q = qSetOf s q := by
  unfold qSetOf queueHand planIn
  simp only [settings, straps, hands]

theorem qSetOf_atExecution : qSetOf (atExecution f s) q = qSetOf s q :=
  qSetOf_congr rfl rfl fun h => by
    obtain ⟨input, same⟩ := takeInput_hand (f := f) (s := s) h
    have hand : (atExecution f s).hand h = { s.hand h with input := input } := same
    rw [hand]

theorem qSetOf_respond {status flags : Nat} {body : List Byte} : qSetOf (respond s f status flags body) q = qSetOf s q :=
  qSetOf_congr respond_settings (same_straps respond_alters (by decide)) fun h => by rw [same_hand respond_alters (by decide)]

theorem qSet_answers (ok : Accepted qSetCmd f s) :
    let q := bodyField f 0 2
    ∃ t, exec (.qSet f) s = .next t ∧ Replies [.queues] s t f 0 0 [] ∧ (qSetOf t q).cls.toNat = bodyByte f 2 / 32 ∧
      (qSetOf t q).rate.toNat = bodyField f 4 2 ∧ ((qSetOf s q).rate = 0 → (qSetOf t q).credit = 0) ∧
      (∀ p, p ≠ q → qSetOf t p = qSetOf s p) ∧ (∀ p, p ≠ 32 + f.hand.val → qFrames t p = qFrames s p) := by
  intro q
  obtain ⟨cls, rate, credit⟩ := qSetOf_setQSet (s := atExecution f s) (q := q)
    (v := qSetNew (qSetOf (atExecution f s) q) (bodyByte f 2 / 32) (BitVec.ofNat 16 (bodyField f 4 2)))
  refine ⟨_, congrArg Host.Outcome.next (runCommand_answers ok rfl rfl),
    replies_of_alters (frame_setQSet (by decide) (frame_refl _ _)) (by decide) (by decide) (by decide), ?_, ?_, fun unset => ?_,
    fun p other => ?_, fun p other => ?_⟩
  · rw [qSetOf_respond, cls]
    have byte : bodyByte f 2 < 256 := byteAt_lt ..
    exact (BitVec.toNat_ofNat ..).trans (Nat.mod_eq_of_lt (by omega))
  · rw [qSetOf_respond, rate]
    exact (BitVec.toNat_ofNat ..).trans (Nat.mod_eq_of_lt (fieldAt_lt ..))
  · rw [qSetOf_respond, credit, qSetOf_atExecution]
    unfold qSetNew
    simp [unset]
  · rw [qSetOf_respond, qSetOf_setQSet_other other, qSetOf_atExecution]
  · rw [qFrames_respond_other other]
    rfl

end Settings

/-! ## OP.SUSPEND, OP.RESUME and OP.CANCEL (R500) -/

section Operations

variable {f : CmdFrame} {s t : State} {o : Op} {h : Nat}

theorem respond_ops {status flags : Nat} {body : List Byte} : (respond s f status flags body).engine.ops = s.engine.ops := by
  obtain ⟨slots, shape, -⟩ := respond_engine (s := s) (f := f) (status := status) (flags := flags) (body := body)
  rw [shape]

theorem opOf_respond {status flags : Nat} {body : List Byte} : opOf (respond s f status flags body) h = opOf s h := by
  rw [opOf, opOf, respond_ops]

/-- A command on its own operation answers once it has acted on it. -/
theorem onOwn_replies {l : List Part} (keeps : KeepsSlots (atExecution f s) t) (alters : Alters l (atExecution f s) t)
    (die : .dieId ∉ l) (vault : .vault ∉ l) (queues : .queues ∉ l) (hands : .hands ∉ l) (engine : .engine ∈ l) :
    Replies l s (respond t f 0 0 []) f 0 0 [] :=
  respond_replies keeps (frame_trans (frame_mono (List.subset_append_of_subset_left _ (by decide)) atExecution_alters)
      (frame_mono (List.subset_append_right ..) alters)) die vault
    (.inr ⟨fun q _ => (qFrames_congr (same_queues alters queues)).trans rfl, congrArg (fun u => u.settings) (same_queues alters queues)⟩)
    (.inr fun h => same_hand alters hands h) (.inl engine)

theorem suspendTrim_suspends (n : Fin 24) (found : opOf s h = some o) :
    opOf (suspendTrim s h n) h = some (enteredOp s.clock.age .suspended 4 o) := by
  have entered : opOf (opEnter s h .suspended 4) h = some (enteredOp s.clock.age .suspended 4 o) := by
    rw [opOf_opEnter, found]
    rfl
  unfold suspendTrim
  rw [found]
  dsimp only
  split
  · have ended : Alters [.chans] (opEnter s h .suspended 4) (trimEnd (opEnter s h .suspended 4) n o.before) :=
      frame_trimEnd (List.Subset.refl _) (frame_refl _ _)
    rw [opOf_congr (same_engine ended (by decide)), entered]
  · exact entered

theorem suspendOp_keepsSlots : KeepsSlots s (suspendOp s o) := by
  unfold suspendOp
  dsimp only
  split
  · exact opEnter_keepsSlots
  · split
    · split
      · exact suspendTrim_keepsSlots _
      · exact onOp_keepsSlots _
    · exact onOp_keepsSlots _

/-- A suspension acts at once on a Queued operation and at a wait of a trim; elsewhere it is held. -/
theorem suspendOp_op (found : opOf s h = some o) : ∃ q, opOf (suspendOp s o) h = some q ∧ q.progress = o.progress ∧
    ((o.state = .queued ∨ (o.reason = 3 ∧ trimChan o ≠ none)) → q.state = .suspended ∧ q.reason = 4) ∧
    (o.state = .running → trimChan o = none → q.state = .running ∧ q.suspendPending = !o.cancelPending) := by
  have handle := opOf_handle found
  unfold suspendOp
  dsimp only
  rw [handle]
  by_cases queued : o.state = .queued
  · rw [if_pos (by simp [queued])]
    refine ⟨_, (opOf_opEnter .suspended 4).trans (congrArg _ found), rfl, fun _ => ⟨rfl, rfl⟩, fun running => ?_⟩
    exact absurd (queued.symm.trans running) (by decide)
  · rw [if_neg (by simpa using queued)]
    cases trim : trimChan o with
    | some n =>
      dsimp only
      by_cases waits : o.reason = 3
      · rw [if_pos (by simp [waits])]
        exact ⟨_, suspendTrim_suspends n found, rfl, fun _ => ⟨rfl, rfl⟩, fun _ none_ => absurd none_ nofun⟩
      · rw [if_neg (by simpa using waits)]
        refine ⟨_, (opOf_onOp (f := fun x : Op => { x with suspendPending := true }) fun _ => rfl).trans (congrArg _ found), rfl, fun now => ?_,
          fun _ none_ => absurd none_ nofun⟩
        rcases now with state | ⟨reason, -⟩
        · exact absurd state queued
        · exact absurd reason waits
    | none =>
      refine ⟨_, (opOf_onOp (f := fun x : Op => { x with suspendPending := !x.cancelPending }) fun _ => rfl).trans (congrArg _ found), rfl,
        fun now => ?_, fun running _ => ⟨running, rfl⟩⟩
      rcases now with state | ⟨-, none_⟩
      · exact absurd state queued
      · exact absurd rfl none_

theorem suspendOp_alters : Alters [.engine, .events, .chans] s (suspendOp s o) := by
  unfold suspendOp
  dsimp only
  split
  · exact frame_opEnter (by decide) (frame_refl _ s)
  · split
    · split
      · exact frame_suspendTrim (by decide) (frame_refl _ s)
      · exact frame_onOp (by decide) (frame_refl _ s)
    · exact frame_onOp (by decide) (frame_refl _ s)

theorem opSuspend_answers (ok : Accepted opSuspendCmd f s) :
    ∃ t o q, exec (.opSuspend f) s = .next t ∧ opOf s (bodyField f 0 2) = some o ∧ opOf t (bodyField f 0 2) = some q ∧ o.hand = f.hand ∧
      Replies [.engine, .events, .chans] s t f 0 0 [] ∧ q.progress = o.progress ∧
      ((o.state = .queued ∨ (o.reason = 3 ∧ trimChan o ≠ none)) → q.state = .suspended ∧ q.reason = 4) ∧
      (o.state = .running → trimChan o = none → q.state = .running ∧ q.suspendPending = !o.cancelPending) := by
  obtain ⟨-, -, own⟩ := accepted_checks ok
  obtain ⟨o, mine, found, hand, -⟩ := withOp_none own
  obtain ⟨q, record, progress, atOnce, held⟩ := suspendOp_op found
  have ran : opSuspendCmd.run f (atExecution f s) = (.now 0 0 [], suspendOp (atExecution f s) o) := by
    unfold opSuspendCmd
    dsimp only
    rw [mine]
  exact ⟨_, o, q, congrArg Host.Outcome.next (runCommand_answers ok rfl ran), found, opOf_respond.trans record, hand,
    onOwn_replies suspendOp_keepsSlots suspendOp_alters (by decide) (by decide) (by decide) (by decide) (by decide), progress, atOnce, held⟩

/-- An operation as a resume leaves it, with the reason it then waits for. -/
def resumedOp (s : State) (x : Op) : Op :=
  if x.state == .suspended then
    let k : Op := { x with state := .queued, timing := false }
    { k with reason := BitVec.ofNat 8 (opReason s k) }
  else { x with suspendPending := false }

theorem resumedOp_handle (x : Op) : (resumedOp s x).handle = x.handle := by
  unfold resumedOp
  split <;> rfl

theorem resumedOp_parts (x : Op) : (resumedOp s x).progress = x.progress ∧
    (x.state = .suspended → (resumedOp s x).state = .queued) ∧
    (x.state = .running → (resumedOp s x).state = .running ∧ (resumedOp s x).suspendPending = false) := by
  unfold resumedOp
  split
  · next suspended =>
    exact ⟨rfl, fun _ => rfl, fun running => by rw [running] at suspended; exact absurd suspended (by decide)⟩
  · next other => exact ⟨rfl, fun suspended => absurd (beq_iff_eq.mpr suspended) other, fun running => ⟨running, rfl⟩⟩

theorem opResume_answers (ok : Accepted opResumeCmd f s) :
    ∃ t o q, exec (.opResume f) s = .next t ∧ opOf s (bodyField f 0 2) = some o ∧ opOf t (bodyField f 0 2) = some q ∧ o.hand = f.hand ∧
      Replies [.engine] s t f 0 0 [] ∧ q.progress = o.progress ∧ (o.state = .suspended → q.state = .queued) ∧
      (o.state = .running → q.state = .running ∧ q.suspendPending = false) := by
  obtain ⟨-, -, own⟩ := accepted_checks ok
  obtain ⟨o, mine, found, hand, -⟩ := withOp_none own
  obtain ⟨progress, queued, goes⟩ := resumedOp_parts (s := atExecution f s) o
  have ran : opResumeCmd.run f (atExecution f s) =
      (.now 0 0 [], onOp (atExecution f s) (handleArg f) (resumedOp (atExecution f s))) := by
    unfold opResumeCmd
    dsimp only
    rw [mine]
    change (_, onOp _ o.handle.toNat _) = _
    rw [opOf_handle found]
    rfl
  exact ⟨_, o, _, congrArg Host.Outcome.next (runCommand_answers ok rfl ran), found,
    opOf_respond.trans ((opOf_onOp fun x => resumedOp_handle x).trans (congrArg _ found)), hand,
    onOwn_replies (onOp_keepsSlots _) (frame_onOp (List.Subset.refl _) (frame_refl _ _)) (by decide) (by decide) (by decide) (by decide)
      (by decide), progress, queued, goes⟩

theorem opRollback_alters (st : OpState) (reason : Nat) :
    Alters [.engine, .events, .chans, .mem, .seat, .tables] s (opRollback s o st reason) :=
  frame_opRollback (by decide) (frame_refl _ s)

/-- A rollback ends its operation, save a flush that has started, which goes on draining. -/
theorem opRollback_op (st : OpState) (reason : Nat) (found : opOf s h = some o) (unique : (s.engine.ops.map (·.handle)).Nodup)
    (few : (s.engine.ops.filter fun x => !x.state.live).length < 64) :
    (∃ q, opOf (opRollback s o st reason) h = some q) ∧
      ((o.opcode.toNat ≠ 0x0705 ∨ opStarted o = false) →
        opOf (opRollback s o st reason) h = some (enteredOp s.clock.age st reason o)) := by
  have handle := opOf_handle found
  have ends : ∀ t : State, t.engine.ops = s.engine.ops → t.clock = s.clock →
      opOf (opEnd t h st reason) h = some (enteredOp s.clock.age st reason o) := fun t ops clock => by
    rw [opOf_opEnd_few st reason (by rw [ops]; exact unique) (by rw [ops]; exact few) ((by rw [opOf, opOf, ops] : opOf t h = opOf s h).trans found),
      clock]
  unfold opRollback
  dsimp only
  rw [handle]
  split
  · next flush _ =>
    by_cases started : opStarted o = true
    · rw [if_pos started]
      refine ⟨⟨_, (opOf_onOp (f := fun o : Op => { o with suspendPending := false, cancelPending := false }) fun _ => rfl).trans
        (congrArg _ found)⟩, fun other => ?_⟩
      rcases other with opcode | idle
      · exact absurd (by assumption) opcode
      · rw [started] at idle; exact absurd idle nofun
    · rw [if_neg started]
      exact ⟨⟨_, ends s rfl rfl⟩, fun _ => ends s rfl rfl⟩
  · next n _ _ =>
    have ended : Alters [.chans] s (if opStarted o then trimEnd s n o.before else s) := by
      split
      · exact frame_trimEnd (List.Subset.refl _) (frame_refl _ s)
      · exact frame_refl _ s
    have clock := same_clock ended (by decide)
    have closed := ends (discardAwait (if opStarted o then trimEnd s n o.before else s)
        fun a => opcodeOf a.f == 0x0D03 && beNat ((cmdBody a.f).take 2) == h)
      (congrArg (fun e => e.ops) (same_engine ended (by decide))) clock
    exact ⟨⟨_, closed⟩, fun _ => closed⟩
  · exact ⟨⟨_, ends (s.onMem _) rfl rfl⟩, fun _ => ends (s.onMem _) rfl rfl⟩
  · exact ⟨⟨_, ends (s.onSeat _) rfl rfl⟩, fun _ => ends (s.onSeat _) rfl rfl⟩
  · exact ⟨⟨_, ends s rfl rfl⟩, fun _ => ends s rfl rfl⟩

theorem trimChan_flush (flush : o.opcode = 0x0705) : trimChan o = none := by
  unfold trimChan
  rw [flush]
  rfl

theorem cancelOp_keepsSlots : KeepsSlots s (cancelOp s o) := by
  unfold cancelOp
  split
  · exact onOp_keepsSlots _
  · exact opRollback_keepsSlots

theorem cancelOp_alters : Alters [.engine, .events, .chans, .mem, .seat, .tables] s (cancelOp s o) := by
  unfold cancelOp
  split
  · exact frame_onOp (by decide) (frame_refl _ s)
  · exact opRollback_alters ..

theorem cancelOp_op (found : opOf s h = some o) (unique : (s.engine.ops.map (·.handle)).Nodup)
    (few : (s.engine.ops.filter fun x => !x.state.live).length < 64) :
    ∃ q, opOf (cancelOp s o) h = some q ∧
      (o.state = .running → trimChan o = none → q.state = .running ∧ q.cancelPending = true) ∧
      ((o.state ≠ .running ∨ trimChan o ≠ none) → (o.opcode ≠ 0x0705 ∨ o.holds = false) → q.state = .cancelled ∧ q.reason = 0x10) := by
  have handle := opOf_handle found
  unfold cancelOp
  rw [handle]
  by_cases goes : o.state = .running ∧ trimChan o = none
  · obtain ⟨running, plain⟩ := goes
    rw [if_pos (by simp [running, plain])]
    refine ⟨_, (opOf_onOp (f := fun x : Op => { x with cancelPending := true, suspendPending := false }) fun _ => rfl).trans
      (congrArg _ found), fun _ _ => ⟨running, rfl⟩, fun stops _ => ?_⟩
    rcases stops with state | trim
    · exact absurd running state
    · exact absurd plain trim
  · rw [if_neg (by simpa using goes)]
    obtain ⟨⟨q, record⟩, ended⟩ := opRollback_op .cancelled 0x10 found unique few
    refine ⟨q, record, fun running plain => absurd ⟨running, plain⟩ goes, fun _ idle => ?_⟩
    have stopped : o.opcode.toNat ≠ 0x0705 ∨ opStarted o = false := by
      by_cases flush : o.opcode = 0x0705
      · have held : o.holds = false := idle.resolve_left (not_not_intro flush)
        have waits : o.state ≠ .running := fun running => goes ⟨running, trimChan_flush flush⟩
        exact .inr (by simp [opStarted, held, waits])
      · exact .inl fun same => flush (BitVec.eq_of_toNat_eq same)
    obtain rfl := Option.some.inj (record.symm.trans (ended stopped))
    exact ⟨rfl, rfl⟩

theorem opCancel_answers (ok : Accepted opCancelCmd f s) (unique : (s.engine.ops.map (·.handle)).Nodup)
    (few : (s.engine.ops.filter fun x => !x.state.live).length < 64) :
    ∃ t o q, exec (.opCancel f) s = .next t ∧ opOf s (bodyField f 0 2) = some o ∧ opOf t (bodyField f 0 2) = some q ∧ o.hand = f.hand ∧
      Replies [.engine, .events, .chans, .mem, .seat, .tables] s t f 0 0 [] ∧
      (o.state = .running → trimChan o = none → q.state = .running ∧ q.cancelPending = true) ∧
      ((o.state ≠ .running ∨ trimChan o ≠ none) → (o.opcode ≠ 0x0705 ∨ o.holds = false) → q.state = .cancelled ∧ q.reason = 0x10) := by
  obtain ⟨-, -, own⟩ := accepted_checks ok
  obtain ⟨o, mine, found, hand, -⟩ := withOp_none own
  obtain ⟨q, record, held, ended⟩ := cancelOp_op found unique few
  have ran : opCancelCmd.run f (atExecution f s) = (.now 0 0 [], cancelOp (atExecution f s) o) := by
    unfold opCancelCmd
    dsimp only
    rw [mine]
  exact ⟨_, o, q, congrArg Host.Outcome.next (runCommand_answers ok rfl ran), found, opOf_respond.trans record, hand,
    onOwn_replies cancelOp_keepsSlots cancelOp_alters (by decide) (by decide) (by decide) (by decide) (by decide), held, ended⟩

end Operations

/-- Settles O51: each command acts on its own window, hand, queue or operation, and its response leaves the others. -/
theorem handsQueuesAndOperationsObeyTheirCommands : Obligations.HandsQueuesAndOperationsObeyTheirCommands :=
  ⟨fun _ _ ok => evAck_answers ok, fun _ _ ok => handClaim_answers ok, fun _ _ ok => handStations_answers ok,
    fun _ _ ok => handReset_answers ok, fun _ _ ok => qSet_answers ok, fun _ _ ok => opSuspend_answers ok,
    fun _ _ ok => opResume_answers ok, fun _ _ ok unique few => opCancel_answers ok unique few⟩

end Sys2Proof.Proofs
end

section
/-! The commands on streams and outputs: SUB.OPEN, SUB.CLOSE, OUT.SET and OUT.ALARMDIR (R317 to R328, R451). -/

namespace Sys2Proof.Proofs

open Sys2Proof Sys2Proof.Machine Sys2Proof.Safety Sys2Proof.Laws

/-! ## The grid of a stream (R320, R322) -/

section Grid

variable {m per phase : Nat}

theorem firstInstant_from (some_ : 0 < per) : m ≤ firstInstant m per phase ∧ firstInstant m per phase < m + per := by
  have small := Nat.mod_lt (m + per - phase % per) some_
  unfold firstInstant
  dsimp only
  split
  · exact ⟨Nat.le_refl m, by omega⟩
  · next off =>
    have positive : (m + per - phase % per) % per ≠ 0 := by simpa using off
    omega

/-- The first instant lies a whole number of periods from the phase. -/
theorem firstInstant_whole (some_ : 0 < per) : ∃ q, firstInstant m per phase + per * (phase / per) + per = per * q + phase := by
  have rest := Nat.mod_lt phase some_
  have small := Nat.mod_lt (m + per - phase % per) some_
  have whole := Nat.div_add_mod (m + per - phase % per) per
  have phases := Nat.div_add_mod phase per
  unfold firstInstant
  dsimp only
  split
  · next on =>
    have none_ : (m + per - phase % per) % per = 0 := by simpa using on
    exact ⟨(m + per - phase % per) / per, by omega⟩
  · refine ⟨(m + per - phase % per) / per + 1, ?_⟩
    rw [Nat.mul_succ]
    omega

theorem firstInstant_phase (some_ : 0 < per) : ((firstInstant m per phase : Int) - (phase : Int)) % (per : Int) = 0 := by
  obtain ⟨q, whole⟩ := firstInstant_whole (m := m) (phase := phase) some_
  have cast : (firstInstant m per phase : Int) + per * ((phase / per : Nat) : Int) + per = per * q + phase := by exact_mod_cast whole
  refine Int.emod_eq_zero_of_dvd ⟨q - ((phase / per : Nat) : Int) - 1, ?_⟩
  linear_combination cast

theorem ratePeriod_pos (n : Nat) : 0 < ratePeriod n := by
  unfold ratePeriod
  by_cases listed : n < 8
  · interval_cases n <;> decide
  · rw [List.getD_eq_default _ _ (by simpa using listed)]
    decide

theorem periodOf_pos (p : BitVec 8) : 0 < periodOf p := ratePeriod_pos _

end Grid

/-! ## The stream ID (R305, R318) -/

section Ids

variable {f : CmdFrame} {s : State} {sid : Nat}

theorem take_sum_add_getD_le (l : List Nat) (h : Nat) : (l.take h).sum + l.getD h 0 ≤ l.sum := by
  induction l generalizing h with
  | nil => simp
  | cons x l ih =>
    cases h with
    | zero => simp
    | succ h =>
      have := ih h
      simp only [List.take_succ_cons, List.sum_cons, List.getD_cons_succ]
      omega

theorem planQueues_sum_le (plan : Nat) : (planQueues plan).sum ≤ 65280 := by
  unfold planQueues
  split <;> decide

/-- The queues of a hand lie below 65,536. -/
theorem planFirst_end (plan h : Nat) : planFirst plan h + (planQueues plan).getD h 0 ≤ 65536 := by
  have inside := take_sum_add_getD_le (planQueues plan) h
  have all_ := planQueues_sum_le plan
  unfold planFirst
  omega

theorem lowestFree_lt {q n : Nat} (found : lowestFree s q n = some sid) : sid < q + n := by
  induction n generalizing q with
  | zero => exact absurd found nofun
  | succ n ih =>
    unfold lowestFree at found
    split at found
    · have := ih found
      omega
    · obtain rfl := Option.some.inj found
      omega

theorem lowestFree_congr {t : State} (same : ∀ q, streamEntry t q = streamEntry s q) (q n : Nat) :
    lowestFree t q n = lowestFree s q n := by
  induction n generalizing q with
  | zero => rfl
  | succ n ih => rw [lowestFree, lowestFree, same, ih]

theorem subId_atExecution : subId (atExecution f s) f = subId s f := by
  have entries : ∀ q, streamEntry (atExecution f s) q = streamEntry s q := fun _ => rfl
  have plan : planIn (atExecution f s) = planIn s := rfl
  unfold subId
  simp only [entries, plan, lowestFree_congr entries]

theorem subId_lt (found : subId s f = some sid) : sid < 65536 := by
  unfold subId at found
  split at found
  · split at found
    · exact absurd found nofun
    · obtain rfl := Option.some.inj found
      exact fieldAt_lt ..
  · split at found
    · exact Nat.lt_of_lt_of_le (lowestFree_lt found) (planFirst_end ..)
    · exact absurd found nofun

theorem mem_mapChansOf {m : Nat} {n : Fin 24} : n ∈ mapChansOf m ↔ m.testBit n.val = true := by
  unfold mapChansOf
  simp

theorem mapPeriod_pos (m : Nat) : 0 < mapPeriod s m := by
  unfold mapPeriod
  split
  · unfold chanPeriod
    cases (s.chan _).profile with
    | none => decide
    | some p => exact periodOf_pos p
  · decide

end Ids

/-! ## SUB.OPEN (R317 to R322) -/

section Open

variable {f : CmdFrame} {s : State} {sid : Nat}

/-- The first instant of a stream (R322). -/
def subFirst (s : State) (f : CmdFrame) : Tick :=
  BitVec.ofNat 64 (firstInstant (max (soStart f) (s.clock.counter.toNat + trickTicks)) (mapPeriod s (soChmap f) * soDiv f) (soPhase f))

/-- The stream a SUB.OPEN opens. -/
def subStream (s : State) (f : CmdFrame) (sid : Nat) : Stream :=
  { id := BitVec.ofNat 16 sid, hand := f.hand, queue := BitVec.ofNat 16 (soQueue f), chmap := BitVec.ofNat 24 (soChmap f),
    div := soDiv f, phase := soPhase f, period := mapPeriod s (soChmap f) * soDiv f, nsamp := soNsamp f, egTa := bit (soEgress f) 0,
    egTb := bit (soEgress f) 1, first := subFirst s f, seq := 0, rows := [], closing := none }

/-- The grid of a channel of the map. -/
def gridTaken (s : State) (f : CmdFrame) (n : Fin 24) (c : Chan) : Chan :=
  if (soChmap f).testBit n.val && c.grid.isNone then { c with grid := some (soPhase f % mapPeriod s (soChmap f)) } else c

/-- The stream joined and the grids taken. -/
def subJoined (s : State) (f : CmdFrame) (sid : Nat) : State :=
  State.mapChans { s with streams := s.streams ++ [subStream s f sid] } (gridTaken s f)

theorem subRun_eq (found : subId s f = some sid) : subRun f s = (.now 0 0 (beBytes 2 sid ++ zeros 6 ++ beBytes 8 (subFirst s f).toNat),
    invertEpoch (setStreamEntry (subJoined s f sid) sid (originEntry f.hand (soEgress f))) .subOpen) := by
  unfold subRun
  rw [found]
  rfl

theorem originEntry_fields (h : Fin 16) {egress : Nat} (ports : egress ≤ 3) : seValid (originEntry h egress) = true ∧
    seOrigin (originEntry h egress) = true ∧ entryByte (originEntry h egress) 1 = h.val := by
  revert h
  interval_cases egress <;> decide

theorem subFirst_toNat (early : s.clock.counter.toNat < 2 ^ 63) (start : soStart f < 2 ^ 63)
    (short : mapPeriod s (soChmap f) * soDiv f ≤ 4294967295) (some_ : 0 < mapPeriod s (soChmap f) * soDiv f) :
    (subFirst s f).toNat =
      firstInstant (max (soStart f) (s.clock.counter.toNat + 589824)) (mapPeriod s (soChmap f) * soDiv f) (soPhase f) := by
  have bound := (firstInstant_from (m := max (soStart f) (s.clock.counter.toNat + 589824)) (phase := soPhase f) some_).2
  exact (BitVec.toNat_ofNat ..).trans (Nat.mod_eq_of_lt (by unfold trickTicks; omega))

theorem gridTaken_grid {n : Fin 24} {c : Chan} (member : (soChmap f).testBit n.val = true)
    (fits : ∀ g, c.grid = some g → soPhase f % mapPeriod s (soChmap f) = g) :
    (gridTaken s f n c).grid = some (soPhase f % mapPeriod s (soChmap f)) := by
  unfold gridTaken
  cases grid : c.grid with
  | none => rw [if_pos (by simp [member])]
  | some g => rw [if_neg (by simp), grid, fits g grid]

/-- What the checks of a SUB.OPEN establish (Table 10.4, R318, R321). -/
theorem subChecks (body : subBody f s = none) (own : subOwn f s = none) : soEgress f ≤ 3 ∧ 0 < soDiv f ∧
    mapPeriod s (soChmap f) * soDiv f ≤ 4294967295 ∧ (∃ sid, subId s f = some sid) ∧
    ∀ n : Fin 24, (soChmap f).testBit n.val = true → ∀ g, (s.chan n).grid = some g → soPhase f % mapPeriod s (soChmap f) = g := by
  unfold subBody at body
  unfold subOwn at own
  simp only [firstFail_cons, failIf_none, Bool.or_eq_false_iff, decide_eq_false_iff_not] at body own
  obtain ⟨⟨-, egress⟩, ⟨⟨⟨⟨⟨⟨⟨⟨-, -⟩, div⟩, -⟩, -⟩, -⟩, -⟩, -⟩, -⟩, -⟩ := body
  obtain ⟨-, -, ⟨-, short⟩, -, free, grids, -⟩ := own
  refine ⟨by omega, Nat.pos_of_ne_zero (by simpa using div), by omega, Option.isSome_iff_exists.mp (by simpa using free), fun n member g grid => ?_⟩
  have fits := List.any_eq_false.mp grids n (mem_mapChansOf.mpr member)
  rw [grid] at fits
  simpa using fits

theorem subOpen_answers (ok : Accepted subOpenCmd f s) (wf : s.mem.wf = true) (early : s.clock.counter.toNat < 2 ^ 63)
    (start : soStart f < 2 ^ 63) :
    let per := mapPeriod s (soChmap f) * soDiv f
    ∃ t sid x, exec (.subOpen f) s = .next t ∧ subId s f = some sid ∧ t.streams = s.streams ++ [x] ∧
      Replies [.streams, .chans, .mem, .tables] s t f 0 0 (beBytes 2 sid ++ zeros 6 ++ beBytes 8 x.first.toNat) ∧
      x.id.toNat = sid ∧ x.hand = f.hand ∧ x.period = per ∧ x.rows = [] ∧ x.closing = none ∧ x.seq = 0 ∧
      max (soStart f) (s.clock.counter.toNat + 589824) ≤ x.first.toNat ∧
      x.first.toNat < max (soStart f) (s.clock.counter.toNat + 589824) + per ∧
      ((x.first.toNat : Int) - (soPhase f : Int)) % (per : Int) = 0 ∧
      (∀ n : Fin 24, (soChmap f).testBit n.val = true → (t.chan n).grid = some (soPhase f % mapPeriod s (soChmap f))) ∧
      (∀ n : Fin 24, (soChmap f).testBit n.val = false → t.chan n = s.chan n) ∧
      seValid (streamEntry t sid) = true ∧ seOrigin (streamEntry t sid) = true ∧ entryByte (streamEntry t sid) 1 = f.hand.val ∧
      (∀ a, (a < 16 * sid ∨ 16 * sid + 16 ≤ a) → cellsRead t.mem.cells a = cellsRead s.mem.cells a) := by
  intro per
  obtain ⟨-, body, own⟩ := accepted_checks ok
  obtain ⟨egress, div, short, ⟨sid, found⟩, grids⟩ := subChecks body own
  have small := subId_lt found
  have some_ : 0 < per := Nat.mul_pos (mapPeriod_pos _) div
  have first : (subFirst s f).toNat = firstInstant (max (soStart f) (s.clock.counter.toNat + 589824)) per (soPhase f) :=
    subFirst_toNat early start short some_
  let u := subJoined (atExecution f s) f sid
  let e := originEntry f.hand (soEgress f)
  let v := invertEpoch (setStreamEntry u sid e) .subOpen
  have ran : subOpenCmd.run f (atExecution f s) = (.now 0 0 (beBytes 2 sid ++ zeros 6 ++ beBytes 8 (subFirst s f).toNat), v) :=
    subRun_eq found
  have alters : Alters [.free, .streams, .chans, .mem, .tables] (atExecution f s) v := by
    have framed : Alters [.free, .streams, .chans, .mem, .tables] (atExecution f s) (subRun f (atExecution f s)).2 :=
      frame_subRun (by decide) (frame_refl _ _)
    rwa [subRun_eq found] at framed
  have written : Alters [.tables, .mem] u v := frame_invertEpoch (by decide) (frame_setStreamEntry (by decide) (frame_refl _ u))
  let t := respond v f 0 0 (beBytes 2 sid ++ zeros 6 ++ beBytes 8 (subFirst s f).toNat)
  have chan : ∀ n, t.chan n = gridTaken s f n (s.chan n) := fun n => by
    rw [same_chan respond_alters (by decide), same_chan written (by decide)]
    exact State.mapChans_chan ..
  have memory : t.mem = u.mem.setEntry (streamAddr sid) e := same_mem respond_alters (by decide)
  have entry : streamEntry t sid = e := by
    have tables : t.tables = v.tables := same_tables respond_alters (by decide)
    have same : streamEntry t sid = streamEntry v sid := by
      unfold streamEntry
      rw [tables, same_mem respond_alters (by decide)]
    rw [same, streamEntry_invertEpoch]
    exact streamEntry_setStreamEntry wf small
  obtain ⟨valid, origin, owner⟩ := originEntry_fields f.hand egress
  obtain ⟨least, most⟩ := firstInstant_from (m := max (soStart f) (s.clock.counter.toNat + 589824)) (phase := soPhase f) some_
  refine ⟨t, sid, subStream s f sid, congrArg Host.Outcome.next (runCommand_answers ok rfl ran), subId_atExecution ▸ found, ?_,
    replies_of_alters alters (by decide) (by decide) (by decide), ?_, rfl, rfl, rfl, rfl, rfl, ?_, ?_, ?_, fun n member => ?_,
    fun n other => ?_, ?_, ?_, ?_, fun a apart => ?_⟩
  · rw [same_streams respond_alters (by decide), same_streams written (by decide)]
    rfl
  · exact (BitVec.toNat_ofNat ..).trans (Nat.mod_eq_of_lt small)
  · exact first ▸ least
  · exact first ▸ most
  · have phase := firstInstant_phase (m := max (soStart f) (s.clock.counter.toNat + 589824)) (phase := soPhase f) some_
    rw [← first] at phase
    exact phase
  · rw [chan]
    exact gridTaken_grid member (grids n member)
  · rw [chan, gridTaken, if_neg (by simp [other])]
  · rw [entry, valid]
  · rw [entry, origin]
  · rw [entry, owner]
  · rw [memory]
    exact cellsRead_setEntry_outside wf apart

end Open

/-! ## SUB.CLOSE (R324) -/

section Close

variable {f : CmdFrame} {s : State} {sid : Nat} {x : Stream}

theorem onStream_other {g : Stream → Stream} {z : Stream} (mem : z ∈ s.streams) (other : z.id.toNat ≠ sid) :
    z ∈ (onStream s sid g).streams :=
  List.mem_map.mpr ⟨z, mem, if_neg (by simpa using other)⟩

/-- A stream whose last instants go to its frame. -/
theorem buildStreamFrame_streams (n : Nat) (found : streamOf s x.id.toNat = some x) :
    ∃ y, streamOf (buildStreamFrame s x n) x.id.toNat = some y ∧ y.closing = x.closing ∧
      ∀ z ∈ s.streams, z.id ≠ x.id → z ∈ (buildStreamFrame s x n).streams := by
  unfold buildStreamFrame
  extract_lets pay hdr r q
  have queued : Alters [.free, .queues, .hands, .events, .counters] s q.2 :=
    frame_enqueueHand (by decide) (frame_mkQFrame (by decide) (frame_refl _ s))
  have streams : q.2.streams = s.streams := same_streams queued (by decide)
  have same : streamOf q.2 x.id.toNat = some x := by rw [streamOf, streams]; exact found
  refine ⟨_, streamOf_onStream (fun _ => rfl) same, rfl, fun z mem other => onStream_other (streams ▸ mem) ?_⟩
  exact fun equal => other (BitVec.eq_of_toNat_eq equal)

theorem closeStream_closes (found : streamOf s sid = some x) :
    ∃ y, streamOf (closeStream s sid) sid = some y ∧
      y.closing = (match x.closing with | some e => some e | none => some s.clock.counter) ∧
      ∀ z ∈ s.streams, z.id ≠ x.id → z ∈ (closeStream s sid).streams := by
  have id := streamOf_id found
  unfold closeStream
  rw [found]
  dsimp only
  cases closing : x.closing with
  | some e => exact ⟨x, found, closing, fun _ mem _ => mem⟩
  | none =>
    dsimp only
    let g : Stream → Stream := fun y => { y with closing := some s.clock.counter, rows := y.rows.filter fun r => rowComplete x r.2 }
    have closed : streamOf (onStream s sid g) sid = some (g x) := streamOf_onStream (f := g) (fun _ => rfl) found
    have others : ∀ z ∈ s.streams, z.id ≠ x.id → z ∈ (onStream s sid g).streams := fun z mem other =>
      onStream_other mem fun equal => other (BitVec.eq_of_toNat_eq (equal.trans id.symm))
    change ∃ y, streamOf (match streamOf (onStream s sid g) sid with
        | some y => if y.rows.isEmpty then onStream s sid g else buildStreamFrame (onStream s sid g) y y.rows.length
        | none => onStream s sid g) sid = some y ∧ _ ∧ ∀ z ∈ s.streams, z.id ≠ x.id → z ∈ (match streamOf (onStream s sid g) sid with
        | some y => if y.rows.isEmpty then onStream s sid g else buildStreamFrame (onStream s sid g) y y.rows.length
        | none => onStream s sid g).streams
    rw [closed]
    dsimp only
    split
    · exact ⟨g x, closed, rfl, others⟩
    · have same : (g x).id.toNat = sid := id
      obtain ⟨y, record, kept, rest⟩ := buildStreamFrame_streams (x := g x) (g x).rows.length (by rw [same]; exact closed)
      rw [same] at record
      exact ⟨y, record, kept, fun z mem other => rest z (others z mem other) other⟩

theorem subClose_answers (ok : Accepted subCloseCmd f s) :
    ∃ t x y, exec (.subClose f) s = .next t ∧ streamOf s (bodyField f 0 2) = some x ∧ x.hand = f.hand ∧
      Replies [.queues, .hands, .streams, .chans, .events, .counters] s t f 0 0 [] ∧ streamOf t (bodyField f 0 2) = some y ∧
      y.closing = (match x.closing with | some e => some e | none => some s.clock.counter) ∧
      (∀ z ∈ s.streams, z.id ≠ x.id → z ∈ t.streams) ∧ t.mem = s.mem := by
  obtain ⟨-, -, own⟩ := accepted_checks ok
  have mine : ∃ x, streamOf s (bodyField f 0 2) = some x ∧ x.hand = f.hand := by
    have checked : (match streamOf (atExecution f s) (bodyField f 0 2) with
      | none => some 0x27
      | some x => failIf (x.hand != f.hand) 0x26) = none := own
    have same : streamOf (atExecution f s) (bodyField f 0 2) = streamOf s (bodyField f 0 2) := rfl
    rw [same] at checked
    cases found : streamOf s (bodyField f 0 2) with
    | none => rw [found] at checked; exact absurd checked nofun
    | some x =>
      rw [found] at checked
      exact ⟨x, rfl, by simpa using failIf_none.mp checked⟩
  obtain ⟨x, found, hand⟩ := mine
  obtain ⟨y, record, closing, others⟩ := closeStream_closes (s := atExecution f s) found
  let u := closeStream (atExecution f s) (bodyField f 0 2)
  have closed : Alters [.free, .queues, .hands, .streams, .events, .counters] (atExecution f s) u :=
    frame_closeStream (List.Subset.refl _) (frame_refl _ _)
  have freed : Alters [.chans] u (freeGrids u) := frame_freeGrids (List.Subset.refl _) (frame_refl _ u)
  have streams : (respond (freeGrids u) f 0 0 []).streams = u.streams :=
    (same_streams respond_alters (by decide)).trans (same_streams freed (by decide))
  refine ⟨_, x, y, congrArg Host.Outcome.next (runCommand_answers ok rfl rfl), found, hand,
    replies_of_alters (frame_trans (frame_mono (by decide) closed) (frame_mono (by decide) freed)) (by decide) (by decide) (by decide),
    ?_, closing, fun z mem other => ?_, ?_⟩
  · rw [streamOf]
    exact (congrArg (fun l => l.find? fun x : Stream => x.id.toNat == bodyField f 0 2) streams).trans record
  · exact streams ▸ others z mem other
  · have kept : u.mem = (atExecution f s).mem := same_mem closed (by decide)
    exact ((same_mem respond_alters (by decide)).trans (same_mem freed (by decide))).trans kept

end Close

/-! ## OUT.SET and OUT.ALARMDIR (R325 to R328, R451) -/

section Out

variable {f : CmdFrame} {s : State} {p : PendOut}

theorem mem_insertPending (p : PendOut) (l : List PendOut) : p ∈ insertPending p l := by
  induction l with
  | nil => exact List.mem_singleton_self p
  | cons x l ih =>
    unfold insertPending
    split
    · exact List.mem_cons_self ..
    · split
      · exact List.mem_cons_self ..
      · exact List.mem_cons_of_mem _ ih

theorem mem_insertPending_of_mem {v : PendOut} {l : List PendOut} (mem : v ∈ l) (other : v.at_ ≠ p.at_) : v ∈ insertPending p l := by
  induction l with
  | nil => exact absurd mem nofun
  | cons x l ih =>
    unfold insertPending
    split
    · next same =>
      rcases List.mem_cons.mp mem with rfl | rest
      · exact absurd (beq_iff_eq.mp same).symm other
      · exact List.mem_cons_of_mem _ rest
    · split
      · exact List.mem_cons_of_mem _ mem
      · rcases List.mem_cons.mp mem with rfl | rest
        · exact List.mem_cons_self ..
        · exact List.mem_cons_of_mem _ (ih rest)

/-- The value an OUT.SET brings. -/
def setValue (s : State) (f : CmdFrame) : PendOut :=
  { value := osValue f, at_ := osApply s f, accepted := s.clock.counter, hand := f.hand }

/-- The state with the value taken, and the change mirrored. -/
def valueSet (s : State) (f : CmdFrame) : State :=
  mirrorMsg (outTake s (chanArg f) (setValue s f)) 0x01 (outValBody (chanArg f) (setValue s f))

theorem valueSet_chan (n : Fin 24) : (valueSet s f).chan n = (outTake s (chanArg f) (setValue s f)).chan n :=
  same_chan (frame_mirrorMsg (L := [.seat]) (List.Subset.refl _) (frame_refl _ _)) (by decide) n

theorem osApply_later (later : s.clock.counter.toNat < osTick f) (fits : osTick f < 2 ^ 64) : (osApply s f).toNat = osTick f := by
  unfold osApply
  rw [if_neg (by omega), BitVec.toNat_ofNat, Nat.mod_eq_of_lt fits]

theorem osApply_now (now : osTick f ≤ s.clock.counter.toNat) : osApply s f = s.clock.counter := if_pos now

theorem outTake_later {n : Fin 24} (later : p.at_ ≠ s.clock.counter) :
    outTake s n p = s.onChan n fun c => { c with pending := insertPending p c.pending } :=
  if_neg (by simpa using later)

theorem outTake_now {n : Fin 24} (now : p.at_ = s.clock.counter) :
    outTake s n p = applyOut (s.onChan n fun c => { c with pending := c.pending.filter fun x => x.at_ != p.at_ }) n p.value p.at_ :=
  if_pos (by simpa using now)

theorem outTake_chan_other {n m : Fin 24} (other : m ≠ n) : (outTake s n p).chan m = s.chan m := by
  by_cases now : p.at_ = s.clock.counter
  · rw [outTake_now now, applyOut_chan_other other, State.onChan_chan_other _ n m _ other]
  · rw [outTake_later now, State.onChan_chan_other _ n m _ other]

theorem outSet_run : outSetCmd.run f s = (.now 0 (b2n (osLate s f)) (beBytes 8 (osApply s f).toNat ++
    beBytes 4 (if osLate s f then min (s.clock.counter.toNat - osTick f) 0xFFFFFFFF else 0)), valueSet s f) := rfl

theorem outSet_answers (ok : Accepted outSetCmd f s) (free : (s.chan (chanArg f)).restrap = false) (fits : osTick f < 2 ^ 64) :
    let n := chanArg f
    ∃ t, exec (.outSet f) s = .next t ∧ (∀ m, m ≠ n → t.chan m = s.chan m) ∧
      (s.clock.counter.toNat < osTick f →
        Replies [.chans, .seat] s t f 0 0 (beBytes 8 (osTick f) ++ beBytes 4 0) ∧ (t.chan n).target = (s.chan n).target ∧
        (t.chan n).applied = (s.chan n).applied ∧ (t.chan n).dac = (s.chan n).dac ∧
        (∃ v ∈ (t.chan n).pending, v.at_.toNat = osTick f ∧ v.value = osValue f ∧ v.hand = f.hand) ∧
        (∀ v ∈ (s.chan n).pending, v.at_.toNat ≠ osTick f → v ∈ (t.chan n).pending)) ∧
      (osTick f ≤ s.clock.counter.toNat →
        Replies [.chans, .seat, .events] s t f 0 (if osTick f = 0 then 0 else 1)
          (beBytes 8 s.clock.counter.toNat ++
            beBytes 4 (if osTick f = 0 then 0 else min (s.clock.counter.toNat - osTick f) 0xFFFFFFFF)) ∧
        (t.chan n).applied = osValue f ∧ (t.chan n).commanded = true ∧ (t.chan n).lastApply = some s.clock.counter) := by
  intro n
  let u := atExecution f s
  let t := respond (valueSet u f) f 0 (b2n (osLate u f)) (beBytes 8 (osApply u f).toNat ++
    beBytes 4 (if osLate u f then min (u.clock.counter.toNat - osTick f) 0xFFFFFFFF else 0))
  have run : exec (.outSet f) s = .next t := congrArg Host.Outcome.next (runCommand_answers ok rfl outSet_run)
  have chan : ∀ m, t.chan m = (outTake u n (setValue u f)).chan m := fun m =>
    (same_chan respond_alters (by decide) m).trans (valueSet_chan m)
  refine ⟨t, run, fun m other => ?_, fun later => ?_, fun now => ?_⟩
  · rw [chan, outTake_chan_other other]
    rfl
  · have at_ : (osApply u f).toNat = osTick f := osApply_later later fits
    have apart : osApply u f ≠ u.clock.counter := fun same => absurd ((congrArg BitVec.toNat same).symm.trans at_) (Nat.ne_of_lt later)
    have due : osLate u f = false := by
      unfold osLate
      simp only [Bool.and_eq_false_iff, decide_eq_false_iff_not]
      exact .inr (Nat.not_le.mpr later)
    have own : t.chan n = { s.chan n with pending := insertPending (setValue u f) (s.chan n).pending } := by
      rw [chan, outTake_later apart, State.onChan_chan]
      rfl
    have replies : Replies [.chans, .seat] s t f 0 0 (beBytes 8 (osTick f) ++ beBytes 4 0) := by
      have taken : Alters [.free, .chans, .seat] u (valueSet u f) := by
        refine frame_mirrorMsg (by decide) ?_
        rw [outTake_later apart]
        exact frame_State_onChan (by decide) (frame_refl _ u)
      have shape : t = respond (valueSet u f) f 0 0 (beBytes 8 (osTick f) ++ beBytes 4 0) := by
        unfold t
        rw [due, at_]
        rfl
      rw [shape]
      exact replies_of_alters taken (by decide) (by decide) (by decide)
    rw [own]
    refine ⟨replies, rfl, rfl, rfl, ⟨_, mem_insertPending .., at_, rfl, rfl⟩, fun v mem other => mem_insertPending_of_mem mem fun same => ?_⟩
    exact other ((congrArg BitVec.toNat same).trans at_)
  · have at_ : osApply u f = u.clock.counter := osApply_now now
    have late : osLate u f = decide (osTick f ≠ 0) := by
      have reached : decide (osTick f ≤ u.clock.counter.toNat) = true := decide_eq_true now
      unfold osLate
      rw [reached, Bool.and_true]
      by_cases zero : osTick f = 0 <;> simp [zero]
    let w := u.onChan n fun c => { c with pending := c.pending.filter fun x => x.at_ != osApply u f }
    have taken : outTake u n (setValue u f) = applyOut w n (osValue f) (osApply u f) := outTake_now at_
    have held : (w.chan n).restrap = false := by
      rw [State.onChan_chan]
      exact free
    have driven := applyOut_redrives (s := w) (n := n) (v := osValue f) (a := osApply u f) held
    have shape : t = respond (valueSet u f) f 0 (if osTick f = 0 then 0 else 1) (beBytes 8 s.clock.counter.toNat ++
        beBytes 4 (if osTick f = 0 then 0 else min (s.clock.counter.toNat - osTick f) 0xFFFFFFFF)) := by
      unfold t
      rw [late, at_]
      by_cases zero : osTick f = 0
      · simp only [zero, ne_eq, not_true_eq_false, decide_false, b2n, if_true, Bool.false_eq_true, if_false]
        rfl
      · simp only [zero, ne_eq, not_false_eq_true, decide_true, b2n, if_true, if_false]
        rfl
    refine ⟨?_, ?_, ?_, ?_⟩
    · rw [shape]
      have set_ : Alters [.free, .chans, .seat, .events] u (valueSet u f) :=
        frame_mirrorMsg (by decide) (frame_outTake (by decide) (frame_refl _ u))
      exact replies_of_alters set_ (by decide) (by decide) (by decide)
    · rw [chan, taken, redriven_applied driven]
      rfl
    · rw [chan, taken, redriven_commanded driven]
      rfl
    · rw [chan, taken, redriven_lastApply driven]
      exact congrArg some at_

theorem outAlarmdir_answers (ok : Accepted outAlarmdirCmd f s) :
    ∃ t, exec (.outAlarmdir f) s = .next t ∧ Replies [.chans, .seat] s t f 0 0 [] ∧
      t.chan (chanArg f) = { s.chan (chanArg f) with overrideNext := some (adDir (bodyByte f 1)) } ∧
      (∀ m, m ≠ chanArg f → t.chan m = s.chan m) := by
  let u := (atExecution f s).onChan (chanArg f) fun c => { c with overrideNext := some (adDir (bodyByte f 1)) }
  let v := mirrorMsg u 0x03 [BitVec.ofNat 8 (bodyByte f 0), BitVec.ofNat 8 (bodyByte f 1)]
  have mirrored : Alters [.seat] u v := frame_mirrorMsg (List.Subset.refl _) (frame_refl _ u)
  refine ⟨respond v f 0 0 [], congrArg Host.Outcome.next (runCommand_answers ok rfl rfl),
    replies_of_alters (frame_mirrorMsg (by decide) (frame_State_onChan (by decide) (frame_refl _ _))) (by decide) (by decide) (by decide),
    ?_, fun m other => ?_⟩
  · rw [same_chan respond_alters (by decide), same_chan mirrored (by decide), State.onChan_chan]
    rfl
  · rw [same_chan respond_alters (by decide), same_chan mirrored (by decide), State.onChan_chan_other _ _ m _ other]
    rfl

end Out

/-- Settles O52: a stream takes its grid and its first instant, an output its value or its direction, and nothing else moves. -/
theorem streamsAndOutputsTakeTheirCommands : Obligations.StreamsAndOutputsTakeTheirCommands :=
  ⟨fun _ _ ok wf early start => subOpen_answers ok wf early start, fun _ _ ok => subClose_answers ok,
    fun _ _ ok free fits => outSet_answers ok free fits, fun _ _ ok => outAlarmdir_answers ok⟩

end Sys2Proof.Proofs
end

section
/-! The creation of long operations (R495 to R497), and the fields of an entry spelled from its bytes. -/

namespace Sys2Proof.Proofs

open Sys2Proof Sys2Proof.Machine Sys2Proof.Safety Sys2Proof.Laws

/-! ## A free handle (R496) -/

section Handles

variable {s : State} {h : BitVec 16} {n : Nat}

/-- The handles that a new operation cannot take. -/
def takenHandles (s : State) : List (BitVec 16) := 0 :: s.engine.ops.map (·.handle)

theorem mem_takenHandles : h ∈ takenHandles s ↔ (h == 0 || s.engine.ops.any (fun o => o.handle == h)) = true := by
  unfold takenHandles
  simp only [List.mem_cons, List.mem_map, Bool.or_eq_true, beq_iff_eq, List.any_eq_true]

/-- A search that ends on a taken handle has found every handle it tried taken. -/
theorem freeHandle_taken (taken : freeHandle s h n ∈ takenHandles s) : ∀ i, i ≤ n → h + BitVec.ofNat 16 i ∈ takenHandles s := by
  induction n generalizing h with
  | zero =>
    intro i small
    obtain rfl := Nat.le_zero.mp small
    rw [freeHandle] at taken
    simpa using taken
  | succ n ih =>
    unfold freeHandle at taken
    split at taken
    · next used =>
      intro i small
      cases i with
      | zero => simpa using mem_takenHandles.mpr used
      | succ i =>
        have later := ih taken i (by omega)
        have shift : h + BitVec.ofNat 16 (i + 1) = h + 1 + BitVec.ofNat 16 i := by
          rw [Nat.add_comm, BitVec.ofNat_add, BitVec.add_assoc]
          rfl
        rwa [shift]
    · next free => exact absurd (mem_takenHandles.mp taken) free

/-- Among 129 handles in a row one is free while 80 operations stand. -/
theorem freeHandle_free (few : s.engine.ops.length ≤ 80) : freeHandle s h 128 ∉ takenHandles s := by
  intro taken
  have all_ := freeHandle_taken taken
  have apart : ((List.range 129).map fun i => h + BitVec.ofNat 16 i).Nodup := by
    refine List.Nodup.map_on (fun i hi j hj same => ?_) List.nodup_range
    have small := List.mem_range.mp hi
    have small' := List.mem_range.mp hj
    have equal := congrArg BitVec.toNat (add_left_cancel same)
    rwa [BitVec.toNat_ofNat, BitVec.toNat_ofNat, Nat.mod_eq_of_lt (by omega), Nat.mod_eq_of_lt (by omega)] at equal
  have inside : ((List.range 129).map fun i => h + BitVec.ofNat 16 i) ⊆ takenHandles s := fun x mem => by
    obtain ⟨i, hi, rfl⟩ := List.mem_map.mp mem
    exact all_ i (Nat.le_of_lt_succ (List.mem_range.mp hi))
  have count := (List.subperm_of_subset apart inside).length_le
  unfold takenHandles at count
  simp only [List.length_map, List.length_range, List.length_cons] at count
  omega

end Handles

/-! ## Created operations (R474, R495) -/

section Creation

variable {f : CmdFrame} {s : State} {obj : OpObject} {gated : Bool}

/-- The record of a new operation. -/
def newOp (s : State) (f : CmdFrame) (obj : OpObject) (gated : Bool) : Op :=
  let o : Op := { handle := freeHandle s s.engine.nextHandle 128, hand := f.hand, opcode := BitVec.ofNat 16 (opcodeOf f), state := .queued,
                  reason := 0, progress := 0, object := obj, f := f, suspendPending := false, cancelPending := false,
                  since := s.clock.age, timing := false, r1 := 0, m1 := 0, r2 := 0, m2 := 0, before := 0, trim := [], gated := gated,
                  committing := false, holds := false, commit := none }
  { o with reason := BitVec.ofNat 8 (opReason s o) }

/-- The state with an operation at the end of the records. -/
def opMade (s : State) (o : Op) : State := s.onEngine fun e => { e with ops := e.ops ++ [o], nextHandle := o.handle + 1 }

theorem createOp_eq : createOp s f obj gated = ((newOp s f obj gated).handle, opMade s (newOp s f obj gated)) := rfl

theorem newOp_parts : (newOp s f obj gated).hand = f.hand ∧ (newOp s f obj gated).opcode = BitVec.ofNat 16 (opcodeOf f) ∧
    (newOp s f obj gated).object = obj ∧ (newOp s f obj gated).state = .queued ∧ (newOp s f obj gated).f = f ∧
    (newOp s f obj gated).handle = freeHandle s s.engine.nextHandle 128 := ⟨rfl, rfl, rfl, rfl, rfl, rfl⟩

/-- An operation whose handle no record holds. -/
structure FreshOp (s : State) (o : Op) : Prop where
  some_ : o.handle ≠ 0
  others : ∀ p ∈ s.engine.ops, p.handle ≠ o.handle

theorem newOp_fresh (few : s.engine.ops.length ≤ 80) : FreshOp s (newOp s f obj gated) := by
  obtain ⟨-, -, -, -, -, handle⟩ := newOp_parts (s := s) (f := f) (obj := obj) (gated := gated)
  have free := freeHandle_free (s := s) (h := s.engine.nextHandle) few
  rw [← handle] at free
  generalize newOp s f obj gated = o at free
  refine ⟨fun zero => free ?_, fun p mem same => free ?_⟩
  · rw [zero]
    exact List.mem_cons_self ..
  · rw [← same]
    exact List.mem_cons_of_mem _ (List.mem_map_of_mem mem)

variable {o : Op}

theorem opOf_opMade (fresh : FreshOp s o) : opOf (opMade s o) o.handle.toNat = some o := by
  have none_ : s.engine.ops.find? (fun p => p.handle.toNat == o.handle.toNat) = none :=
    List.find?_eq_none.mpr fun p mem same => fresh.others p mem (BitVec.eq_of_toNat_eq (beq_iff_eq.mp same))
  change (s.engine.ops ++ [o]).find? _ = _
  rw [List.find?_append, none_]
  simp

theorem opMade_keepsSlots : KeepsSlots s (opMade s o) := ⟨rfl, rfl⟩

theorem opMade_alters : Alters [.engine] s (opMade s o) := frame_State_onEngine (List.Subset.refl _) (frame_refl _ s)

/-- The answer of a command that has created its operation. -/
theorem created_replies {l : List Part} {t : State} (keeps : KeepsSlots (atExecution f s) t)
    (alters : Alters (.engine :: l) (atExecution f s) t) (die : .dieId ∉ l) (vault : .vault ∉ l) (queues : .queues ∉ l) (hands : .hands ∉ l)
    (h : BitVec 16) : Replies (.engine :: l) s (respond t f 1 0 (beBytes 2 h.toNat)) f 1 0 (beBytes 2 h.toNat) := by
  have frames : t.queues = (atExecution f s).queues := same_queues alters (by simpa using queues)
  exact respond_replies keeps (frame_trans (frame_mono (List.subset_append_of_subset_left _ (by decide)) atExecution_alters)
    (frame_mono (List.subset_append_right ..) alters)) (by simpa using die) (by simpa using vault)
    (.inr ⟨fun q _ => (qFrames_congr frames).trans rfl, congrArg (fun u => u.settings) frames⟩)
    (.inr fun h => same_hand alters (by simpa using hands) h) (.inl (List.mem_cons_self ..))

theorem opMade_created (fresh : FreshOp (atExecution f s) o) (hand : o.hand = f.hand) (opcode : o.opcode.toNat = opcodeOf f)
    (own : o.f = f) : Created [] s (respond (opMade (atExecution f s) o) f 1 0 (beBytes 2 o.handle.toNat)) f o.object o.state where
  made := ⟨o, opOf_respond.trans (opOf_opMade fresh), hand, opcode, rfl, rfl, own, fresh.some_, fresh.others,
    created_replies opMade_keepsSlots opMade_alters (by decide) (by decide) (by decide) (by decide) o.handle⟩
  kept := fun p mem => by
    rw [respond_ops]
    exact List.mem_append_left _ mem

theorem newOp_opcode (known : opcodeOf f < 65536) : (newOp s f obj gated).opcode.toNat = opcodeOf f := by
  obtain ⟨-, opcode, -⟩ := newOp_parts (s := s) (f := f) (obj := obj) (gated := gated)
  rw [opcode, BitVec.toNat_ofNat, Nat.mod_eq_of_lt known]

/-- A command that creates an operation answers its handle. -/
theorem runCommand_creates {c : Cmd} (ok : Accepted c f s) (few : s.engine.ops.length ≤ 80) (direct : c.cs f (atExecution f s) = false)
    (ran : c.run f (atExecution f s) = created (createOp (atExecution f s) f obj gated)) (small : c.op < 65536) :
    ∃ t, runCommand c f s = t ∧ Created [] s t f obj .queued := by
  have known : opcodeOf f < 65536 := ok.op ▸ small
  have fresh : FreshOp (atExecution f s) (newOp (atExecution f s) f obj gated) := newOp_fresh few
  have opcode : (newOp (atExecution f s) f obj gated).opcode.toNat = opcodeOf f := newOp_opcode known
  obtain ⟨hand, -, object, state, own, -⟩ := newOp_parts (s := atExecution f s) (f := f) (obj := obj) (gated := gated)
  rw [createOp_eq] at ran
  generalize newOp (atExecution f s) f obj gated = o at ran fresh opcode hand object state own
  refine ⟨_, runCommand_answers ok direct ran, ?_⟩
  have made := opMade_created fresh hand opcode own
  rwa [object, state] at made

end Creation

/-! ## The fields of an entry (Tables 9.2 to 9.6) -/

section Entries

variable {bs : List Byte} {i n : Nat}

theorem beNat_append (a b : List Byte) : beNat (a ++ b) = beNat a * 256 ^ b.length + beNat b := by
  have spread : ∀ (b : List Byte) (k : Nat), b.foldl (fun a x => a * 256 + x.toNat) k = k * 256 ^ b.length + beNat b := by
    intro b
    induction b with
    | nil => intro k; simp [beNat]
    | cons x b ih =>
      intro k
      rw [beNat, List.foldl_cons, List.foldl_cons, ih, ih, List.length_cons, Nat.pow_succ]
      ring
  rw [beNat, List.foldl_append, spread]
  rfl

theorem beNat_lt (bs : List Byte) : beNat bs < 256 ^ bs.length := by
  have whole := fieldAt_lt bs 0 bs.length
  rwa [fieldAt, slice, List.drop_zero, List.take_length] at whole

/-- A field in the middle of a number's bytes. -/
theorem beNat_field (inside : i + n ≤ bs.length) : beNat bs / 256 ^ (bs.length - i - n) % 256 ^ n = fieldAt bs i n := by
  have parts : bs = bs.take i ++ (slice bs i n ++ bs.drop (i + n)) := by
    unfold slice
    rw [← List.drop_drop, List.take_append_drop, List.take_append_drop]
  have last : (bs.drop (i + n)).length = bs.length - i - n := by rw [List.length_drop]; omega
  have mid : (slice bs i n).length = n := by simp only [slice, List.length_take, List.length_drop]; omega
  have low := beNat_lt (bs.drop (i + n))
  have high := beNat_lt (slice bs i n)
  rw [last] at low
  rw [mid] at high
  conv_lhs => rw [parts]
  rw [List.length_append, List.length_append, mid, last, List.length_take, beNat_append, beNat_append, last, List.length_append, mid, last]
  have size : min i bs.length + (n + (bs.length - i - n)) - i - n = bs.length - i - n := by omega
  rw [size, Nat.pow_add]
  have shape : beNat (bs.take i) * (256 ^ n * 256 ^ (bs.length - i - n)) + (beNat (slice bs i n) * 256 ^ (bs.length - i - n) +
      beNat (bs.drop (i + n))) =
      beNat (bs.drop (i + n)) + 256 ^ (bs.length - i - n) * (beNat (slice bs i n) + 256 ^ n * beNat (bs.take i)) := by ring
  rw [shape, Nat.add_mul_div_left _ _ (Nat.pow_pos (by decide)), Nat.div_eq_of_lt low, Nat.zero_add, Nat.add_mul_mod_self_left,
    Nat.mod_eq_of_lt high, fieldAt]

theorem entryOf_toNat (full : bs.length = 16) : (entryOf bs).toNat = beNat bs := by
  have whole : padTo 16 bs = bs := by
    unfold padTo
    rw [full, List.take_of_length_le full.le]
    exact List.append_nil bs
  have small := beNat_lt bs
  rw [full] at small
  unfold entryOf
  rw [whole, BitVec.toNat_ofNat, Nat.mod_eq_of_lt (by simpa using small)]

theorem entryField_entryOf (full : bs.length = 16) (inside : i + n ≤ 16) : entryField (entryOf bs) i n = fieldAt bs i n := by
  have field := beNat_field (bs := bs) (i := i) (n := n) (by omega)
  unfold entryField
  rw [entryOf_toNat full, Nat.shiftRight_eq_div_pow, Nat.pow_mul, Nat.pow_mul, ← field, full]

theorem entryByte_eq_entryField (e : Entry) (small : i < 16) : entryByte e i = entryField e i 1 := by
  unfold entryByte entryField
  rw [show 15 - i = 16 - i - 1 by omega, show 2 ^ (8 * 1) = 256 from rfl]

end Entries

end Sys2Proof.Proofs
end

section
/-! The table commands: TBL.SEARCH, TBL.NEXT, TBL.ADD, TBL.DEL, TBL.FLUSH_PORT and TBL.COMMIT (R483, R287 to R295). -/

namespace Sys2Proof.Proofs

open Sys2Proof Sys2Proof.Machine Sys2Proof.Safety Sys2Proof.Laws

section Reading

variable {f : CmdFrame} {s : State} {code n : Nat}

/-! ## TBL.SEARCH (R483) -/

theorem searchEntry_atExecution : searchEntry (atExecution f s) f = searchEntry s f := rfl

theorem tblSearch_answers (ok : Accepted tblSearchCmd f s) :
    ∃ t b, exec (.tblSearch f) s = .next t ∧ Replies [] s t f 0 0 b ∧
      ((tblCode f = 1 ∧ fieldAt (tblKey f) 6 2 = 0xFFFF) → b = commitStatus s f.hand) ∧
      (¬ (tblCode f = 1 ∧ fieldAt (tblKey f) 6 2 = 0xFFFF) →
        b = match searchEntry s f with | some e => [1] ++ zeros 7 ++ entryBytes e | none => zeros 24) := by
  by_cases status : tblCode f = 1 ∧ fieldAt (tblKey f) 6 2 = 0xFFFF
  · have ran : tblSearchCmd.run f (atExecution f s) = (.now 0 0 (commitStatus s f.hand), atExecution f s) :=
      if_pos (by simpa [keyField] using status)
    exact ⟨_, _, congrArg Host.Outcome.next (runCommand_answers ok rfl ran), replies_of_read, fun _ => rfl, fun other => absurd status other⟩
  · have read : tblSearchCmd.run f (atExecution f s) = (match searchEntry (atExecution f s) f with
        | some e => (.now 0 0 ([1] ++ zeros 7 ++ entryBytes e), atExecution f s)
        | none => (.now 0 0 (zeros 24), atExecution f s)) := if_neg (by simpa [keyField] using status)
    rw [searchEntry_atExecution] at read
    cases found : searchEntry s f with
    | some e =>
      rw [found] at read
      exact ⟨_, _, congrArg Host.Outcome.next (runCommand_answers ok rfl read), replies_of_read, fun same => absurd same status, fun _ => rfl⟩
    | none =>
      rw [found] at read
      exact ⟨_, _, congrArg Host.Outcome.next (runCommand_answers ok rfl read), replies_of_read, fun same => absurd same status, fun _ => rfl⟩

/-! ## TBL.NEXT (R294) -/

theorem cursorAt_length : (cursorAt code n).length = 8 := by
  unfold cursorAt
  rw [List.length_append]
  split
  · simp [zeros]
  · split <;> simp [zeros]
  · split <;> simp [zeros]
  · simp
  · simp [zeros]

/-- The entries a TBL.NEXT answers with. -/
def nextTaken (s : State) (f : CmdFrame) : List (Nat × Entry) :=
  (entriesAfter s (tblCode f) (cursorPlace (tblCode f) (slice (cmdBody f) 0 8))).take (bodyByte f 8)

/-- The cursor a TBL.NEXT answers with. -/
def nextCursor (s : State) (f : CmdFrame) : List Byte :=
  match (nextTaken s f).getLast? with
  | some e => cursorAt (tblCode f) e.1
  | none => slice (cmdBody f) 0 8

theorem nextCursor_length (long : (cmdBody f).length = 9) : (nextCursor s f).length = 8 := by
  unfold nextCursor
  split
  · exact cursorAt_length
  · simp [slice, long]

theorem tblNext_answers (ok : Accepted tblNextCmd f s) :
    let l := entriesAfter s (tblCode f) (cursorPlace (tblCode f) (slice (cmdBody f) 0 8))
    let n := min (bodyByte f 8) l.length
    ∃ t b, exec (.tblNext f) s = .next t ∧ Replies [] s t f 0 0 b ∧ byteAt b 0 = n ∧ b.length = 16 + 16 * n ∧
      (byteAt b 1 = 1 ↔ l.length ≤ bodyByte f 8) ∧
      ∀ i, i < n → ∃ e, l[i]? = some e ∧ slice b (16 + 16 * i) 16 = entryBytes e.2 := by
  intro l n
  obtain ⟨-, body, -⟩ := accepted_checks ok
  have long : (cmdBody f).length = 9 ∧ bodyByte f 8 ≤ 32 := by
    have bodies : firstFail [failIf ((cmdBody f).length != 9) 0x14,
        failIf (codeOk (tblCode f) && (cursorPlace (tblCode f) (slice (cmdBody f) 0 8)).isNone) 0x14,
        failIf (!codeOk (tblCode f) || bodyByte f 8 == 0 || 32 < bodyByte f 8) 0x16] = none := body
    simp only [firstFail_cons, failIf_none, Bool.or_eq_false_iff, decide_eq_false_iff_not] at bodies
    obtain ⟨size, -, ⟨-, most⟩, -⟩ := bodies
    exact ⟨by simpa using size, by omega⟩
  have taken : (nextTaken s f).length = n := List.length_take
  have cursor := nextCursor_length (s := s) long.1
  have piece : ∀ e : Nat × Entry, (entryBytes e.2).length = 16 := fun e => beBytes_length 16 _
  let head := beBytes 1 n ++ beBytes 1 (b2n (decide (l.length ≤ bodyByte f 8))) ++ nextCursor s f ++ zeros 6
  have size : head.length = 16 := by simp [head, cursor, zeros]
  have ran : tblNextCmd.run f (atExecution f s) =
      (.now 0 0 (head ++ (nextTaken s f).flatMap fun e => entryBytes e.2), atExecution f s) := by
    unfold head
    rw [← taken]
    rfl
  refine ⟨_, _, congrArg Host.Outcome.next (runCommand_answers ok rfl ran), replies_of_read, ?_, ?_, ?_, fun i inside => ?_⟩
  · rw [byteAt_append_left (by omega)]
    unfold head
    rw [List.append_assoc, List.append_assoc, byteAt_append_left (by simp), byteAt_beBytes_one, Nat.mod_eq_of_lt (by omega)]
  · rw [List.length_append, flatMap_length_of piece, size, taken]
  · rw [byteAt_append_left (by omega)]
    unfold head
    rw [List.append_assoc, List.append_assoc, byteAt_append_right (by simp), beBytes_length, byteAt_append_left (by simp),
      byteAt_beBytes_one]
    cases fits : decide (l.length ≤ bodyByte f 8) with
    | true => simpa [b2n] using fits
    | false => simpa [b2n] using fits
  · have here : i < (nextTaken s f).length := by omega
    have found : (nextTaken s f)[i]? = some (nextTaken s f)[i] := List.getElem?_eq_getElem here
    refine ⟨(nextTaken s f)[i], ?_, ?_⟩
    · exact ((List.getElem?_take_of_lt (by omega)).symm.trans found)
    · rw [slice_append_right (by omega), size, Nat.add_sub_cancel_left]
      exact slice_flatMap piece found

end Reading

/-! ## TBL.ADD (R293) -/

section Add

variable {f : CmdFrame} {s : State} {p : Port} {e : Entry} {l : HLoc} {tag h : Nat}

theorem entryOf_entryBytes (e : Entry) : entryOf (entryBytes e) = e := by
  refine BitVec.eq_of_toNat_eq ?_
  rw [entryOf_toNat (bs := entryBytes e) (beBytes_length 16 _), entryBytes, beNat_beBytes]
  exact Nat.mod_eq_of_lt e.isLt

theorem entryField_eq (e : Entry) {i n : Nat} (inside : i + n ≤ 16) : entryField e i n = fieldAt (entryBytes e) i n := by
  conv_lhs => rw [← entryOf_entryBytes e]
  exact entryField_entryOf (beBytes_length 16 _) inside

theorem poSet_length (tokens drops : Nat) : ((entryBytes e).take 8 ++ beBytes 4 tokens ++ beBytes 4 drops).length = 16 := by
  simp [entryBytes]

/-- A policer with new tokens keeps its other fields. -/
theorem entryField_poSet {i n : Nat} (tokens drops : Nat) (inside : i + n ≤ 8) : entryField (poSet e tokens drops) i n = entryField e i n := by
  have head : ((entryBytes e).take 8).length = 8 := by simp [entryBytes]
  unfold poSet
  rw [entryField_entryOf (poSet_length tokens drops) (by omega), entryField_eq e (by omega), List.append_assoc,
    fieldAt_append_left (by omega)]
  unfold fieldAt slice
  rw [List.drop_take, List.take_take, Nat.min_eq_left (by omega)]

theorem poTokens_poSet {tokens : Nat} (drops : Nat) (fits : tokens < 2 ^ 32) : poTokens (poSet e tokens drops) = tokens := by
  have head : ((entryBytes e).take 8).length = 8 := by simp [entryBytes]
  unfold poTokens poSet
  rw [entryField_entryOf (poSet_length tokens drops) (by omega), List.append_assoc, fieldAt_append_right (by omega), head,
    fieldAt_append_left (by simp), fieldAt_beBytes, Nat.mod_eq_of_lt (by simpa using fits)]

theorem poValid_poSet (tokens drops : Nat) : poValid (poSet e tokens drops) = poValid e := by
  unfold poValid
  rw [entryByte_eq_entryField _ (by decide), entryByte_eq_entryField _ (by decide), entryField_poSet tokens drops (by decide)]

theorem poOwner_poSet (tokens drops : Nat) : poOwner (poSet e tokens drops) = poOwner e := by
  unfold poOwner
  rw [entryByte_eq_entryField _ (by decide), entryByte_eq_entryField _ (by decide), entryField_poSet tokens drops (by decide)]

/-- The fields of a hash entry made from them. -/
theorem heMake_fields (tag owner stamp bucket : Nat) (fits : tag < 2 ^ 48) (hand : owner < 16) :
    heValid (heMake tag true false owner stamp bucket) = true ∧ heStatic (heMake tag true false owner stamp bucket) = true ∧
      heOwner (heMake tag true false owner stamp bucket) = owner ∧ heTag (heMake tag true false owner stamp bucket) = tag := by
  have size : (beBytes 6 tag ++ beBytes 1 (128 + 64 * b2n true + 32 * b2n false + owner) ++ [0] ++ beBytes 2 stamp ++
      beBytes 2 bucket ++ zeros 4).length = 16 := by simp [zeros]
  have flags : entryByte (heMake tag true false owner stamp bucket) 6 = 192 + owner := by
    rw [entryByte_eq_entryField _ (by decide), heMake, entryField_entryOf size (by decide)]
    simp only [List.append_assoc]
    rw [fieldAt_append_right (by simp), beBytes_length, fieldAt_append_left (by simp), fieldAt_beBytes]
    simp only [b2n, if_true, Bool.false_eq_true, if_false]
    omega
  have tags : heTag (heMake tag true false owner stamp bucket) = tag := by
    rw [heTag, heMake, entryField_entryOf size (by decide)]
    simp only [List.append_assoc]
    rw [fieldAt_append_left (by simp), fieldAt_beBytes, Nat.mod_eq_of_lt (by simpa using fits)]
  refine ⟨?_, ?_, ?_, tags⟩
  · rw [heValid, flags]
    interval_cases owner <;> decide
  · rw [heStatic, flags]
    interval_cases owner <;> decide
  · rw [heOwner, flags]
    omega

theorem heTag_lt (e : Entry) : heTag e < 2 ^ 48 := Nat.mod_lt _ (by decide)

/-- A place in the table that can hold an entry. -/
def knownPlace : HLoc → Prop
  | .way b w => b < 8192 ∧ w < 4
  | .ovf _ => True

theorem bucketOf_lt (seed : BitVec 16) (tag : Nat) : bucketOf seed tag < 8192 := Nat.mod_lt _ (by decide)

theorem known_of_inBucket {b : Nat} (small : b < 8192) (inside : inBucket b l) : knownPlace l := by
  cases l with
  | ovf i => trivial
  | way b' w =>
    obtain ⟨rfl, few⟩ := inside
    exact ⟨small, few⟩

theorem hashAt_setHash (wf : s.mem.wf = true) (place : knownPlace l) (some_ : e ≠ 0) : hashAt (setHash s p l e) p l = e := by
  cases l with
  | way b w =>
    obtain ⟨small, few⟩ := place
    have inside := wayAddr_inside p small
    have at_ := wayAddr_eq p b w
    exact entry_setEntry wf (by omega)
  | ovf i =>
    unfold hashAt setHash
    dsimp only
    rw [onPipe_pipe]
    simp only [beq_iff_eq, some_, if_false]
    rw [sparseGet_sparseSet, if_pos rfl]
    rfl

theorem hashAt_countLearned (d : Int) : hashAt (countLearned s p d) p l = hashAt s p l := by
  cases l with
  | way b w =>
    unfold hashAt
    dsimp only
    rw [countLearned_mem]
  | ovf i =>
    unfold hashAt countLearned
    dsimp only
    rw [onPipe_pipe]

theorem hashAt_congr {t : State} (mem : t.mem = s.mem) (tables : t.tables = s.tables) : hashAt t p l = hashAt s p l := by
  have pipe : t.pipe p = s.pipe p := by cases p <;> simp only [State.pipe, tables]
  cases l with
  | way b w =>
    unfold hashAt
    dsimp only
    rw [mem]
  | ovf i =>
    unfold hashAt
    dsimp only
    rw [pipe]

/-- What an addition to a hash table leaves of the other tables. -/
structure KeepsStore (s t : State) : Prop where
  staged : t.tables.staged = s.tables.staged
  prefixes : t.tables.prefixes = s.tables.prefixes

theorem keepsStore_trans {t u : State} (first : KeepsStore s t) (second : KeepsStore t u) : KeepsStore s u :=
  ⟨second.staged.trans first.staged, second.prefixes.trans first.prefixes⟩

theorem keepsStore_of_tables {t : State} (same : t.tables = s.tables) : KeepsStore s t := ⟨by rw [same], by rw [same]⟩

theorem onPipe_keepsStore (g : Pipe → Pipe) : KeepsStore s (s.onPipe p g) := by cases p <;> exact ⟨rfl, rfl⟩

theorem setHash_keepsStore : KeepsStore s (setHash s p l e) := by
  cases l with
  | way b w => exact ⟨rfl, rfl⟩
  | ovf i =>
    exact onPipe_keepsStore (p := p) fun q => { q with overflow := if e == 0 then sparseDel q.overflow i else sparseSet i e q.overflow }

/-- A static entry written over what stood at its place. -/
def staticPut (s : State) (p : Port) (l : HLoc) (e : Entry) : State :=
  if heCounted s p (hashAt s p l) then countLearned (setHash s p l e) p (-1) else setHash s p l e

theorem staticPut_keepsStore : KeepsStore s (staticPut s p l e) := by
  unfold staticPut
  split
  · exact keepsStore_trans setHash_keepsStore (onPipe_keepsStore _)
  · exact setHash_keepsStore

theorem hashAt_staticPut (wf : s.mem.wf = true) (place : knownPlace l) (some_ : e ≠ 0) : hashAt (staticPut s p l e) p l = e := by
  unfold staticPut
  split
  · rw [hashAt_countLearned, hashAt_setHash wf place some_]
  · exact hashAt_setHash wf place some_

theorem evictCands_bucket {b : Nat} (mem : l ∈ evictCands s p b) : l ∈ bucketLocs s p b := by
  unfold evictCands at mem
  dsimp only at mem
  split at mem
  · exact List.mem_of_mem_drop (List.mem_filter.mp mem).1
  · exact List.mem_append_left _ (List.mem_filter.mp mem).1

theorem oldest_mem {ls : List HLoc} (some_ : ls ≠ []) : ∃ l ∈ ls, oldest s p ls = some l := by
  induction ls with
  | nil => exact absurd rfl some_
  | cons x ls ih =>
    unfold oldest
    cases rest : oldest s p ls with
    | none => exact ⟨x, List.mem_cons_self .., rfl⟩
    | some m =>
      dsimp only
      split
      · refine ⟨m, List.mem_cons_of_mem _ ?_, rfl⟩
        have filled : ls ≠ [] := fun empty => by rw [empty] at rest; exact absurd rest nofun
        obtain ⟨y, mem, same⟩ := ih filled
        obtain rfl := Option.some.inj (rest.symm.trans same)
        exact mem
      · exact ⟨x, List.mem_cons_self .., rfl⟩

/-- A static entry that fits finds a place of its bucket. -/
theorem hashPlace_finds {b : Nat} (fits : ((List.range 4).map (HLoc.way b)).any (fun l => hePlaceable s p (hashAt s p l)) = true ∨
    (ovfFree s p).isSome = true ∨ (evictCands s p b).isEmpty = false) :
    ∃ l evicts, (hashPlace s p b).1 = some (l, evicts) ∧ inBucket b l := by
  unfold hashPlace
  cases way : ((List.range 4).map (HLoc.way b)).find? fun l => hePlaceable s p (hashAt s p l) with
  | some l =>
    exact ⟨l, false, rfl, inBucket_of_mem (s := s) (p := p) (List.mem_append_left _ (List.mem_of_find?_eq_some way))⟩
  | none =>
    cases free_ : ovfFree s p with
    | some i => exact ⟨.ovf i, false, rfl, trivial⟩
    | none =>
      have none_ : ((List.range 4).map (HLoc.way b)).any (fun l => hePlaceable s p (hashAt s p l)) = false :=
        List.any_eq_false.mpr (List.find?_eq_none.mp way)
      have filled : (evictCands s p b).isEmpty = false := by
        rcases fits with ways | free | filled
        · rw [none_] at ways; exact absurd ways nofun
        · rw [free_] at free; exact absurd free nofun
        · exact filled
      dsimp only
      rw [if_neg (Bool.eq_false_iff.mp filled)]
      split
      · have some_ : 0 < (evictCands s p b).length := List.length_pos_iff.mpr (by simpa using filled)
        have small := Nat.mod_lt s.draw.1.toNat some_
        have found : ((evictCands s p b).drop (s.draw.1.toNat % (evictCands s p b).length)).head? =
            some ((evictCands s p b)[s.draw.1.toNat % (evictCands s p b).length]) := by
          rw [List.head?_drop, List.getElem?_eq_getElem small]
        exact ⟨_, true, congrArg (Option.map fun l => (l, true)) found, inBucket_of_mem (evictCands_bucket (List.getElem_mem small))⟩
      · obtain ⟨l, mem, found⟩ := oldest_mem (s := s) (p := p) (ls := evictCands s p b) (by simpa using filled)
        exact ⟨l, true, congrArg (Option.map fun l => (l, true)) found, inBucket_of_mem (evictCands_bucket mem)⟩

/-- A static entry stands in its bucket once added, and the other tables stay. -/
theorem addStatic_adds (wf : s.mem.wf = true) (fits : staticFits s p tag = true) (small : tag < 2 ^ 48) (hand : Fin 16) :
    KeepsStore s (addStatic s p tag hand) ∧
      ∃ l, hashAt (addStatic s p tag hand) p l = heMake tag true false hand.val 0 (bucketOf (s.pipe p).seed tag) := by
  let b := bucketOf (s.pipe p).seed tag
  let e := heMake tag true false hand.val 0 b
  have bound : b < 8192 := bucketOf_lt ..
  have some_ : e ≠ 0 := fun zero => by
    have valid := (heMake_fields tag hand.val 0 b small hand.isLt).1
    have none_ : heValid e = false := by rw [zero]; decide
    rw [none_] at valid
    exact absurd valid nofun
  have shape : addStatic s p tag hand = (match hashFind s p tag with
      | some l => staticPut s p l e
      | none => match hashPlace s p b with
        | (some (l, evicts), s) => if evicts then countPipe (staticPut s p l e) p 0x12 else staticPut s p l e
        | (none, s) => s) := rfl
  rw [shape]
  cases found : hashFind s p tag with
  | some l =>
    have place := known_of_inBucket bound (inBucket_of_mem (List.mem_of_find?_eq_some found))
    exact ⟨staticPut_keepsStore, l, hashAt_staticPut wf place some_⟩
  | none =>
    have open_ : ((List.range 4).map (HLoc.way b)).any (fun l => hePlaceable s p (hashAt s p l)) = true ∨
        (ovfFree s p).isSome = true ∨ (evictCands s p b).isEmpty = false := by
      unfold staticFits at fits
      rw [found] at fits
      simpa [b, or_assoc] using fits
    obtain ⟨l, evicts, placed, inside⟩ := hashPlace_finds open_
    have drawn : Alters [.free] s (hashPlace s p b).2 := frame_hashPlace (List.Subset.refl _) (frame_refl _ s)
    have memory := same_mem drawn (by decide)
    have tables := same_tables drawn (by decide)
    rcases pair : hashPlace s p b with ⟨r, s'⟩
    rw [pair] at placed memory tables
    obtain rfl : r = some (l, evicts) := placed
    dsimp only at memory tables ⊢
    have wf' : s'.mem.wf = true := memory ▸ wf
    have place := known_of_inBucket bound inside
    have store : KeepsStore s (staticPut s' p l e) := keepsStore_trans (keepsStore_of_tables tables) staticPut_keepsStore
    split
    · have counted : Alters [.events, .counters] (staticPut s' p l e) (countPipe (staticPut s' p l e) p 0x12) :=
        frame_countPipe (List.Subset.refl _) (frame_refl _ _)
      refine ⟨keepsStore_trans store (keepsStore_of_tables (same_tables counted (by decide))), l, ?_⟩
      rw [hashAt_congr (same_mem counted (by decide)) (same_tables counted (by decide)), hashAt_staticPut wf' place some_]
    · exact ⟨store, l, hashAt_staticPut wf' place some_⟩

end Add

section AddRow

variable {f : CmdFrame} {s : State}

/-- The change a TBL.ADD stages. -/
def addedChange (f : CmdFrame) : Change :=
  { hand := f.hand, table := tblCode f, key := stageKey (tblCode f) (addSid f) (addEntry f), entry := some (addEntry f) }

/-- A policer written full. -/
def policerAdded (s : State) (f : CmdFrame) : State :=
  let e := poSet (addEntry f) (poBurst (addEntry f)) (poDrop (policerAt s (addIndex f)))
  s.onTables fun t => { t with policers := sparseSet (addIndex f) e t.policers }

theorem tblAdd_staged (code : tblCode f = 1 ∨ tblCode f = 4) :
    tblAddCmd.run f s = (.now 0 0 [], stage s (addedChange f)) := by
  rcases code with code | code <;> simp only [tblAddCmd, addedChange, code]

theorem tblAdd_policer (code : tblCode f = 5) : tblAddCmd.run f s = (.now 0 0 [], policerAdded s f) := by
  simp only [tblAddCmd, policerAdded, code]

theorem tblAdd_static (code : tblCode f = 2 ∨ tblCode f = 3) :
    tblAddCmd.run f s = (.now 0 0 [], addStatic s (codePort (tblCode f)) (heTag (addEntry f)) f.hand) := by
  rcases code with code | code <;> simp only [tblAddCmd, code]

theorem stage_mem_staged (c : Change) : c ∈ (stage s c).tables.staged := List.mem_append_right _ (List.mem_singleton_self c)

/-- What check 10 of a TBL.ADD says of the table, and of a policer. -/
theorem addChecks (body : tblAddBody f s = none) : codeOk (tblCode f) = true ∧
    (tblCode f = 5 → addIndex f ≠ 0 ∧ poValid (addEntry f) = true ∧ poOwner (addEntry f) = f.hand.val) := by
  unfold tblAddBody at body
  simp only [firstFail_cons, failIf_none, Bool.or_eq_false_iff] at body
  obtain ⟨-, ⟨⟨⟨known, -⟩, index⟩, entry⟩, -⟩ := body
  refine ⟨by simpa using known, fun code => ?_⟩
  unfold entryOut at entry
  rw [code] at index entry
  simp only [Bool.or_eq_false_iff] at entry
  obtain ⟨⟨⟨valid, owner⟩, -⟩, -⟩ := entry
  have some_ : ¬ addIndex f = 0 ∧ addIndex f ≤ 63 := by simpa using index
  exact ⟨some_.1, by simpa using valid, by simpa using owner⟩

/-- Check 11 of a static addition. -/
theorem addFits (own : tblAddOwn f s = none) (code : tblCode f = 2 ∨ tblCode f = 3) :
    staticFits s (codePort (tblCode f)) (heTag (addEntry f)) = true := by
  unfold tblAddOwn at own
  rcases code with code | code
  all_goals
    simp only [code, firstFail_cons, failIf_none] at own ⊢
    obtain ⟨-, fits, -⟩ := own
    simpa using fits

theorem respond_keepsStore {status flags : Nat} {body : List Byte} : KeepsStore s (respond s f status flags body) :=
  keepsStore_of_tables (same_tables respond_alters (by decide))

theorem policerAt_congr {t : State} (tables : t.tables = s.tables) (i : Nat) : policerAt t i = policerAt s i := by
  rw [policerAt, policerAt, tables]

theorem policerAt_policerAdded (some_ : addIndex f ≠ 0) :
    policerAt (policerAdded s f) (addIndex f) = poSet (addEntry f) (poBurst (addEntry f)) (poDrop (policerAt s (addIndex f))) := by
  have entry : sparseGet (policerAdded s f).tables.policers (addIndex f) =
      some (poSet (addEntry f) (poBurst (addEntry f)) (poDrop (policerAt s (addIndex f)))) :=
    sparseGet_sparseSet.trans (if_pos rfl)
  rw [policerAt, if_neg (by simpa using some_), entry]
  rfl

theorem policerAt_policerAdded_other {i : Nat} (other : i ≠ addIndex f) : policerAt (policerAdded s f) i = policerAt s i := by
  have entry : sparseGet (policerAdded s f).tables.policers i = sparseGet s.tables.policers i :=
    sparseGet_sparseSet.trans (if_neg other)
  rw [policerAt, policerAt, entry]

theorem poBurst_lt (e : Entry) : poBurst e < 2 ^ 32 := Nat.mod_lt _ (by decide)

theorem tblAdd_answers (ok : Accepted tblAddCmd f s) (wf : s.mem.wf = true) :
    ∃ t, exec (.tblAdd f) s = .next t ∧ Replies [.tables, .mem, .counters, .events] s t f 0 0 [] ∧
      t.tables.prefixes = s.tables.prefixes ∧
      ((tblCode f = 1 ∨ tblCode f = 4) → t.mem = s.mem ∧ t.tables.policers = s.tables.policers ∧
        { hand := f.hand, table := tblCode f, key := stageKey (tblCode f) (addSid f) (addEntry f), entry := some (addEntry f) }
          ∈ t.tables.staged) ∧
      (tblCode f = 5 → t.mem = s.mem ∧ t.tables.staged = s.tables.staged ∧ poValid (policerAt t (addIndex f)) = true ∧
        poTokens (policerAt t (addIndex f)) = poBurst (addEntry f) ∧ poOwner (policerAt t (addIndex f)) = f.hand.val ∧
        (∀ i, i ≠ addIndex f → policerAt t i = policerAt s i)) ∧
      ((tblCode f = 2 ∨ tblCode f = 3) → t.tables.staged = s.tables.staged ∧ ∃ l, (let e := hashAt t (codePort (tblCode f)) l
        heValid e = true ∧ heStatic e = true ∧ heOwner e = f.hand.val ∧ heTag e = heTag (addEntry f))) := by
  obtain ⟨-, body, own⟩ := accepted_checks ok
  obtain ⟨known, policer⟩ := addChecks body
  have codes : (tblCode f = 1 ∨ tblCode f = 4) ∨ tblCode f = 5 ∨ tblCode f = 2 ∨ tblCode f = 3 := by
    have range : 1 ≤ tblCode f ∧ tblCode f ≤ 5 := by simpa [codeOk] using known
    omega
  rcases codes with staged | full | static
  · refine ⟨_, congrArg Host.Outcome.next (runCommand_answers ok rfl (tblAdd_staged staged)),
      replies_of_alters (frame_stage (by decide) (frame_refl _ _)) (by decide) (by decide) (by decide), ?_, fun _ => ⟨?_, ?_, ?_⟩,
      fun other => by omega, fun other => by omega⟩
    · rw [same_tables respond_alters (by decide)]
      rfl
    · rw [same_mem respond_alters (by decide)]
      rfl
    · rw [same_tables respond_alters (by decide)]
      rfl
    · rw [same_tables respond_alters (by decide)]
      exact stage_mem_staged _
  · obtain ⟨some_, valid, owner⟩ := policer full
    have entry := policerAt_policerAdded (s := atExecution f s) some_
    have taken : Alters [.free, .tables, .mem, .counters, .events] (atExecution f s) (policerAdded (atExecution f s) f) := by
      unfold policerAdded
      exact frame_State_onTables (by decide) (frame_refl _ _)
    refine ⟨_, congrArg Host.Outcome.next (runCommand_answers ok rfl (tblAdd_policer full)),
      replies_of_alters taken (by decide) (by decide) (by decide), ?_, fun other => by omega,
      fun _ => ⟨?_, ?_, ?_, ?_, ?_, fun i other => ?_⟩, fun other => by omega⟩
    · rw [same_tables respond_alters (by decide)]
      rfl
    · rw [same_mem respond_alters (by decide)]
      rfl
    · rw [same_tables respond_alters (by decide)]
      rfl
    · rw [policerAt_congr (same_tables respond_alters (by decide)), entry, poValid_poSet, valid]
    · rw [policerAt_congr (same_tables respond_alters (by decide)), entry, poTokens_poSet _ (poBurst_lt _)]
    · rw [policerAt_congr (same_tables respond_alters (by decide)), entry, poOwner_poSet, owner]
    · rw [policerAt_congr (same_tables respond_alters (by decide)), policerAt_policerAdded_other other]
      rfl
  · obtain ⟨store, l, entry⟩ := addStatic_adds (s := atExecution f s) wf (addFits own static) (heTag_lt _) f.hand
    have kept := keepsStore_trans store (respond_keepsStore (f := f) (status := 0) (flags := 0) (body := []))
    obtain ⟨valid, fixed, hand, tag⟩ := heMake_fields (heTag (addEntry f)) f.hand.val 0
      (bucketOf ((atExecution f s).pipe (codePort (tblCode f))).seed (heTag (addEntry f))) (heTag_lt _) f.hand.isLt
    refine ⟨_, congrArg Host.Outcome.next (runCommand_answers ok rfl (tblAdd_static static)),
      replies_of_alters (frame_addStatic (by decide) (frame_refl _ _)) (by decide) (by decide) (by decide), kept.prefixes,
      fun other => by omega, fun other => by omega, fun _ => ⟨kept.staged, l, ?_⟩⟩
    rw [hashAt_congr (same_mem respond_alters (by decide)) (same_tables respond_alters (by decide)), entry]
    exact ⟨valid, fixed, hand, tag⟩

end AddRow

/-! ## TBL.DEL (R286, R293) -/

section Del

variable {f : CmdFrame} {s : State} {p : Port} {l : HLoc} {why : InvWhy}

theorem tblDel_staged (code : tblCode f = 1 ∨ tblCode f = 4) : tblDelCmd.run f s = (.now 0 0 [], stage s
    { hand := f.hand, table := tblCode f, key := BitVec.ofNat 64 (beNat (tblKey f)), entry := none }) := by
  rcases code with code | code <;> simp only [tblDelCmd, code]

/-- A policer gone from its index. -/
def policerRemoved (s : State) (i : Nat) : State := s.onTables fun t => { t with policers := sparseDel t.policers i }

theorem tblDel_policer (code : tblCode f = 5) :
    tblDelCmd.run f s = (.later, invertEpoch (policerRemoved s (keyField (tblKey f) 7 1)) (.tblDel f)) := by
  simp only [tblDelCmd, policerRemoved, code]

theorem tblDel_static (code : tblCode f = 2 ∨ tblCode f = 3) (found : hashFind s (codePort (tblCode f)) (keyField (tblKey f) 2 6) = some l) :
    tblDelCmd.run f s = (.later, invertEpoch (freeHash (codePort (tblCode f)) l s) (.tblDel f)) := by
  rcases code with code | code <;> simp only [tblDelCmd, code] at found ⊢ <;> rw [found]

theorem delFound (own : tblDelOwn f s = none) (code : tblCode f = 2 ∨ tblCode f = 3) :
    ∃ l, hashFind s (codePort (tblCode f)) (keyField (tblKey f) 2 6) = some l := by
  unfold tblDelOwn at own
  rcases code with code | code
  all_goals
    simp only [code] at own ⊢
    split at own
    · exact absurd own nofun
    · next l found => exact ⟨l, found⟩

theorem delCode (body : tblDelCmd.body f s = none) : (tblCode f = 1 ∨ tblCode f = 4) ∨ tblCode f = 5 ∨ tblCode f = 2 ∨ tblCode f = 3 := by
  have bodies : firstFail [
      failIf (bodyMalformed f 16 [0, 8, 9, 10, 11, 12, 13, 14, 15] || keyMalformed (tblCode f) (tblKey f)) 0x14,
      failIf (!codeOk (tblCode f) || keyOut (tblCode f) (tblKey f) false) 0x16] = none := body
  simp only [firstFail_cons, failIf_none, Bool.or_eq_false_iff] at bodies
  obtain ⟨-, ⟨known, -⟩, -⟩ := bodies
  have range : 1 ≤ tblCode f ∧ tblCode f ≤ 5 := by simpa [codeOk] using known
  omega

/-- The parts of the tables that the removal of a hash entry or a policer leaves. -/
structure KeepsEpoch (s t : State) : Prop where
  staged : t.tables.staged = s.tables.staged
  prefixes : t.tables.prefixes = s.tables.prefixes
  epoch : t.tables.epoch = s.tables.epoch
  draining : t.tables.draining = s.tables.draining

theorem onPipe_keepsEpoch (g : Pipe → Pipe) : KeepsEpoch s (s.onPipe p g) := by cases p <;> exact ⟨rfl, rfl, rfl, rfl⟩

theorem setHash_keepsEpoch {e : Entry} : KeepsEpoch s (setHash s p l e) := by
  cases l with
  | way b w => exact ⟨rfl, rfl, rfl, rfl⟩
  | ovf i =>
    exact onPipe_keepsEpoch (p := p) fun q => { q with overflow := if e == 0 then sparseDel q.overflow i else sparseSet i e q.overflow }

theorem freeHash_keepsEpoch : KeepsEpoch s (freeHash p l s) := by
  unfold freeHash
  dsimp only
  split
  · have first : KeepsEpoch s (setHash s p l 0) := setHash_keepsEpoch
    have second : KeepsEpoch (setHash s p l 0) (countLearned (setHash s p l 0) p (-1)) := onPipe_keepsEpoch _
    exact ⟨second.staged.trans first.staged, second.prefixes.trans first.prefixes, second.epoch.trans first.epoch,
      second.draining.trans first.draining⟩
  · exact setHash_keepsEpoch

/-- An inversion of an epoch that does not drain inverts it and starts the drain. -/
theorem invertEpoch_parts : (invertEpoch s why).tables.staged = s.tables.staged ∧
    (invertEpoch s why).tables.prefixes = s.tables.prefixes ∧ (invertEpoch s why).tables.policers = s.tables.policers ∧
    (s.tables.draining = none → (invertEpoch s why).tables.epoch = !s.tables.epoch ∧
      (invertEpoch s why).tables.draining = some (why, s.clock.age)) := by
  unfold invertEpoch
  rw [State.onTables_tables]
  split
  · exact ⟨rfl, rfl, rfl, fun _ => ⟨rfl, rfl⟩⟩
  · next busy => exact ⟨rfl, rfl, rfl, fun none_ => by rw [busy] at none_; exact absurd none_ nofun⟩

/-- A deletion outside the staging area, whose response follows the drain. -/
theorem tblDel_later {u : State} (ok : Accepted tblDelCmd f s) (ran : tblDelCmd.run f (atExecution f s) = (.later, invertEpoch u (.tblDel f)))
    (removed : Alters [.tables, .mem] (atExecution f s) u) (keeps : KeepsEpoch (atExecution f s) u) :
    exec (.tblDel f) s = .next (invertEpoch u (.tblDel f)) ∧ Counted s (invertEpoch u (.tblDel f)) f ∧
      Alters [.free, .queues, .hands, .engine, .dbg, .tables, .mem] s (invertEpoch u (.tblDel f)) ∧
      (invertEpoch u (.tblDel f)).tables.prefixes = s.tables.prefixes ∧ (invertEpoch u (.tblDel f)).tables.staged = s.tables.staged ∧
      (invertEpoch u (.tblDel f)).queues = s.queues ∧
      (s.tables.draining = none → (invertEpoch u (.tblDel f)).tables.epoch = !s.tables.epoch ∧
        (invertEpoch u (.tblDel f)).tables.draining = some (.tblDel f, s.clock.age)) := by
  obtain ⟨staged, prefixes, -, drains⟩ := invertEpoch_parts (s := u) (why := .tblDel f)
  have inverted : Alters [.tables, .mem] (atExecution f s) (invertEpoch u (.tblDel f)) := frame_invertEpoch (by decide) removed
  have engine := same_engine inverted (by decide)
  have clock : u.clock = (atExecution f s).clock := same_clock removed (by decide)
  refine ⟨congrArg Host.Outcome.next (runCommand_later ok rfl ran), counted_later (keepsSlots_of_engine engine),
    frame_trans (frame_mono (by decide) atExecution_alters) (frame_mono (by decide) inverted), prefixes.trans keeps.prefixes,
    staged.trans keeps.staged, (same_queues inverted (by decide)).trans rfl, fun free => ?_⟩
  obtain ⟨epoch, draining⟩ := drains (keeps.draining.trans free)
  exact ⟨epoch.trans (congrArg _ keeps.epoch), by rw [draining, clock]; rfl⟩

theorem policerAt_removed (i : Nat) : policerAt (invertEpoch (policerRemoved s i) why) i = 0 := by
  obtain ⟨-, -, policers, -⟩ := invertEpoch_parts (s := policerRemoved s i) (why := why)
  have gone : sparseGet (policerRemoved s i).tables.policers i = none := sparseGet_sparseDel.trans (if_pos rfl)
  rw [policerAt, policers, gone]
  exact ite_self _

theorem tblDel_answers (ok : Accepted tblDelCmd f s) :
    ∃ t, exec (.tblDel f) s = .next t ∧ Counted s t f ∧
      Alters [.free, .queues, .hands, .engine, .dbg, .tables, .mem] s t ∧ t.tables.prefixes = s.tables.prefixes ∧
      ((tblCode f = 1 ∨ tblCode f = 4) → Responds s t f 0 0 [] ∧ t.mem = s.mem ∧ t.tables.epoch = s.tables.epoch ∧
        { hand := f.hand, table := tblCode f, key := BitVec.ofNat 64 (beNat (tblKey f)), entry := none } ∈ t.tables.staged) ∧
      (tblCode f = 5 → poValid (policerAt t (fieldAt (tblKey f) 7 1)) = false) ∧
      ((tblCode f = 2 ∨ tblCode f = 3 ∨ tblCode f = 5) → t.tables.staged = s.tables.staged ∧ t.queues = s.queues ∧
        (s.tables.draining = none → t.tables.epoch = !s.tables.epoch ∧ t.tables.draining = some (.tblDel f, s.clock.age))) := by
  obtain ⟨-, body, own⟩ := accepted_checks ok
  rcases delCode body with staged | policer | static
  · have replies : Replies [.tables] s (respond (stage (atExecution f s)
        { hand := f.hand, table := tblCode f, key := BitVec.ofNat 64 (beNat (tblKey f)), entry := none }) f 0 0 []) f 0 0 [] :=
      replies_of_alters (frame_stage (by decide) (frame_refl _ _)) (by decide) (by decide) (by decide)
    refine ⟨_, congrArg Host.Outcome.next (runCommand_answers ok rfl (tblDel_staged staged)), replies.counted,
      frame_mono (by decide) replies.alters, ?_, fun _ => ⟨replies.responds, ?_, ?_, ?_⟩, fun other => by omega, fun other => by omega⟩
    · rw [same_tables respond_alters (by decide)]
      rfl
    · rw [same_mem respond_alters (by decide)]
      rfl
    · rw [same_tables respond_alters (by decide)]
      rfl
    · rw [same_tables respond_alters (by decide)]
      exact stage_mem_staged _
  · obtain ⟨run, counted, alters, prefixes, staged, queues, drains⟩ := tblDel_later ok (tblDel_policer policer)
      (frame_State_onTables (by decide) (frame_refl _ _)) ⟨rfl, rfl, rfl, rfl⟩
    refine ⟨_, run, counted, alters, prefixes, fun other => by omega, fun _ => ?_, fun _ => ⟨staged, queues, drains⟩⟩
    exact (congrArg poValid (policerAt_removed _)).trans (by decide)
  · obtain ⟨l, found⟩ := delFound own static
    obtain ⟨run, counted, alters, prefixes, staged, queues, drains⟩ := tblDel_later ok (tblDel_static static found)
      (frame_freeHash (List.Subset.refl _) (frame_refl _ _)) freeHash_keepsEpoch
    exact ⟨_, run, counted, alters, prefixes, fun other => by omega, fun other => by omega, fun _ => ⟨staged, queues, drains⟩⟩

end Del

/-! ## TBL.COMMIT (R288 to R290) -/

section Commit

variable {f : CmdFrame} {s : State}

/-- A change put into its place of the order. -/
def changeInserted (s : State) (c : Change) (acc : List Change) : List Change :=
  (acc.takeWhile fun x => changeRank s x < changeRank s c) ++ [c] ++ acc.dropWhile fun x => changeRank s x < changeRank s c

theorem sortChanges_cons (x : Change) (l : List Change) : sortChanges s (x :: l) = changeInserted s x (sortChanges s l) := rfl

theorem mem_changeInserted {acc : List Change} {c x : Change} : c ∈ changeInserted s x acc ↔ c = x ∨ c ∈ acc := by
  conv_rhs => rw [← List.takeWhile_append_dropWhile (p := fun y => decide (changeRank s y < changeRank s x)) (l := acc)]
  unfold changeInserted
  simp only [List.mem_append, List.mem_singleton]
  tauto

theorem changeInserted_length (x : Change) (acc : List Change) : (changeInserted s x acc).length = acc.length + 1 := by
  have split_ := congrArg List.length
    (List.takeWhile_append_dropWhile (p := fun y => decide (changeRank s y < changeRank s x)) (l := acc))
  rw [List.length_append] at split_
  unfold changeInserted
  rw [List.length_append, List.length_append, List.length_singleton]
  omega

theorem mem_sortChanges {l : List Change} {c : Change} : c ∈ sortChanges s l ↔ c ∈ l := by
  induction l with
  | nil => exact Iff.rfl
  | cons x l ih => rw [sortChanges_cons, mem_changeInserted, List.mem_cons, ih]

theorem sortChanges_length (l : List Change) : (sortChanges s l).length = l.length := by
  induction l with
  | nil => rfl
  | cons x l ih => rw [sortChanges_cons, changeInserted_length, List.length_cons, ih]

/-- Enough pieces give the whole list back. -/
theorem chunks_flatten {α : Type} {n : Nat} (fuel : Nat) (l : List α) (enough : l.length ≤ n * fuel) : (chunks n fuel l).flatten = l := by
  induction fuel generalizing l with
  | zero =>
    have empty : l = [] := List.length_eq_zero_iff.mp (by omega)
    rw [empty]
    rfl
  | succ fuel ih =>
    cases l with
    | nil => rfl
    | cons x l =>
      rw [chunks, List.flatten_cons, ih, List.take_append_drop]
      · rw [List.length_drop, Nat.mul_succ] at *
        omega
      · exact nofun

theorem mem_commitBatches {l : List Change} {c : Change} (few : l.length ≤ 4096) : c ∈ (commitBatches s l).flatten ↔ c ∈ l := by
  unfold commitBatches
  dsimp only
  split
  · rw [List.flatten_cons, List.flatten_nil, List.append_nil, mem_sortChanges]
  · rw [chunks_flatten 8 _ (by rw [sortChanges_length]; omega), mem_sortChanges]

/-- The hand's staged changes. -/
def stagedMine (s : State) (h : Fin 16) : List Change := s.tables.staged.filter fun c => c.hand == h

/-- The commit of a hand's staged changes. -/
def commitOf (s : State) (h : Fin 16) (a : Tick) : Commit :=
  let batches := if (stagedMine s h).isEmpty then [] else commitBatches s (stagedMine s h)
  { Commit.idle with state := if (stagedMine s h).isEmpty then .done else .preparing, hand := h, apply := a, batches := batches,
                     since := s.clock.age, partial_ := decide (1 < batches.length) }

theorem commitStart_tables (h : Fin 16) (a : Tick) : (commitStart s h a).tables =
    { s.tables with staged := s.tables.staged.filter (fun c => c.hand != h), commit := commitOf s h a } := by
  let s1 := s.onTables fun t => { t with staged := t.staged.filter (fun c => c.hand != h), commit := commitOf s h a }
  change (if (stagedMine s h).isEmpty then raise s1 0x080A 0x60 (commitDetail (commitOf s h a)) 0 (some h.val) else s1).tables = s1.tables
  split
  · exact raise_tables
  · rfl

theorem tblCommit_answers (ok : Accepted tblCommitCmd f s) :
    let mine := s.tables.staged.filter fun c => c.hand == f.hand
    mine.length ≤ 4096 →
    ∃ t, exec (.tblCommit f) s = .next t ∧ Replies [.tables, .events] s t f 0 0 (beBytes 2 mine.length) ∧
      t.tables.staged = s.tables.staged.filter (fun c => c.hand != f.hand) ∧ t.tables.prefixes = s.tables.prefixes ∧
      t.tables.epoch = s.tables.epoch ∧ t.tables.commit.hand = f.hand ∧ t.tables.commit.prepared = false ∧
      t.tables.commit.apply.toNat = bodyField f 0 8 ∧
      (mine = [] → t.tables.commit.state = .done) ∧
      (mine ≠ [] → t.tables.commit.state = .preparing ∧ ∀ c, c ∈ t.tables.commit.batches.flatten ↔ c ∈ mine) := by
  intro mine few
  let t := respond (commitStart (atExecution f s) f.hand (BitVec.ofNat 64 (bodyField f 0 8))) f 0 0 (beBytes 2 mine.length)
  have tables : t.tables = { s.tables with staged := s.tables.staged.filter (fun c => c.hand != f.hand),
                                           commit := commitOf (atExecution f s) f.hand (BitVec.ofNat 64 (bodyField f 0 8)) } :=
    (same_tables respond_alters (by decide)).trans (commitStart_tables ..)
  have own : stagedMine (atExecution f s) f.hand = mine := rfl
  refine ⟨t, congrArg Host.Outcome.next (runCommand_answers ok rfl rfl),
    replies_of_alters (frame_commitStart (by decide) (frame_refl _ _)) (by decide) (by decide) (by decide), ?_⟩
  rw [tables]
  refine ⟨rfl, rfl, rfl, rfl, rfl, ?_, fun none_ => ?_, fun some_ => ⟨?_, fun c => ?_⟩⟩
  · exact (BitVec.toNat_ofNat ..).trans (Nat.mod_eq_of_lt (fieldAt_lt ..))
  · unfold commitOf
    dsimp only
    rw [own, none_]
    rfl
  · unfold commitOf
    dsimp only
    rw [own, if_neg (by simpa using some_)]
  · unfold commitOf
    dsimp only
    rw [own, if_neg (by simpa using some_)]
    exact mem_commitBatches few

end Commit

/-- Settles O53: searching and walking only read, additions and deletions of streams and prefixes only stage, and a commit takes what
its hand has staged. -/
theorem tableCommandsSearchStageAndCommit : Obligations.TableCommandsSearchStageAndCommit :=
  ⟨fun _ _ ok => tblSearch_answers ok, fun _ _ ok => tblNext_answers ok, fun _ _ ok wf => tblAdd_answers ok wf,
    fun _ _ ok => tblDel_answers ok,
    fun f s ok few => by
      obtain ⟨t, run, created_⟩ := runCommand_creates (obj := .pipe (portOf (bodyByte f 0))) (gated := false) ok few rfl rfl (by decide)
      exact ⟨t, congrArg Host.Outcome.next run, created_⟩,
    fun _ _ ok few => tblCommit_answers ok few⟩

end Sys2Proof.Proofs
end

section
/-! The commands on channels, the node, ports and pipelines: CH.REKINDLE, NODE.RESET, PORT.RESET, PIPE.RESET and PHY.MARGIN (R137, R140 to R146,
R183). -/

namespace Sys2Proof.Proofs

open Sys2Proof Sys2Proof.Machine Sys2Proof.Safety Sys2Proof.Laws

/-! ## What the end of an operation leaves of the other units (Table 16.3) -/

section Rollback

variable {s : State} {o : Op} {st : OpState} {reason : Nat} {m n : Fin 24}

/-- What ending a channel's trim leaves of the channel: its profile, its keeper's configuration and latch. -/
structure KeepsKeeper (c c' : Chan) : Prop where
  profile : c'.profile = c.profile
  keeper : c'.keeper = c.keeper
  latch : c'.latch = c.latch
  capStrap : c'.capStrap = c.capStrap

theorem keepsKeeper_refl (c : Chan) : KeepsKeeper c c := ⟨rfl, rfl, rfl, rfl⟩

theorem keepsKeeper_trans {c c' c'' : Chan} (first : KeepsKeeper c c') (second : KeepsKeeper c' c'') : KeepsKeeper c c'' :=
  ⟨second.profile.trans first.profile, second.keeper.trans first.keeper, second.latch.trans first.latch,
    second.capStrap.trans first.capStrap⟩

theorem keepsKeeper_of_redriven {c c' : Chan} (h : Redriven c c') : KeepsKeeper c c' :=
  ⟨redriven_profile h, redriven_keeper h, redriven_latch h, redriven_capStrap h⟩

theorem trimEnd_keepsKeeper (before : Int) : KeepsKeeper (s.chan n) ((trimEnd s n before).chan n) := by
  have ended : KeepsKeeper (s.chan n) ((s.onChan n fun c => { c with inTrim := false, applied := before }).chan n) := by
    rw [State.onChan_chan]
    exact ⟨rfl, rfl, rfl, rfl⟩
  refine keepsKeeper_trans ended ?_
  unfold trimEnd
  dsimp only
  split
  · exact keepsKeeper_of_redriven (driveShell_redrives _ n)
  · rw [bankNow_chan]
    have taken := keepsKeeper_of_redriven (keeperTakes_redrives (trimOf (s.onChan n fun c => { c with inTrim := false, applied := before }).vault n)
      (s.onChan n fun c => { c with inTrim := false, applied := before }).clock.age
      { (s.onChan n fun c => { c with inTrim := false, applied := before }).chan n with bankShell := true })
    exact ⟨taken.profile, taken.keeper, taken.latch, taken.capStrap⟩

/-- The end of an operation changes no channel but the one whose trim it is. -/
theorem opRollback_chan : (opRollback s o st reason).chan m = s.chan m ∨
    (o.object = .chan m ∧ (opRollback s o st reason).chan m = (trimEnd s m o.before).chan m) := by
  unfold opRollback
  dsimp only
  split
  · split
    · exact .inl rfl
    · exact .inl (opEnd_chan ..)
  · next n _ object =>
    rw [opEnd_chan]
    split
    · by_cases same : m = n
      · subst same
        exact .inr ⟨object, rfl⟩
      · exact .inl (trimEnd_chan_other _ same)
    · exact .inl rfl
  · exact .inl (opEnd_chan ..)
  · exact .inl (opEnd_chan ..)
  · exact .inl (opEnd_chan ..)

/-- The end of an operation leaves the pipelines. -/
theorem opRollback_pipe (p : Port) : (opRollback s o st reason).pipe p = s.pipe p := by
  have ended : ∀ t : State, (opEnd t o.handle.toNat st reason).pipe p = t.pipe p := fun t =>
    same_pipe (frame_opEnd (L := [.engine, .events]) (List.Subset.refl _) (frame_refl _ t)) (by decide) p
  unfold opRollback
  dsimp only
  split
  · split
    · unfold invertEpoch
      cases p <;> (rw [State.onTables]; dsimp only [State.pipe]; split <;> rfl)
    · exact ended s
  · rw [ended]
    split
    · exact same_pipe (frame_trimEnd (L := [.chans]) (List.Subset.refl _) (frame_refl _ s)) (by decide) p
    · rfl
  · exact ended _
  · exact ended _
  · exact ended s

theorem endOps_pipe (pick : Op → Bool) (p : Port) : (endOps s pick st reason).pipe p = s.pipe p :=
  each_keeps (P := fun t => t.pipe p = s.pipe p) (fun _ _ kept => (opRollback_pipe p).trans kept) rfl

/-- A walk over picked elements keeps what each visit of one of them keeps. -/
theorem each_filter_keeps {α : Type} {P : State → Prop} {f : α → State → State} (l : List α)
    (keeps : ∀ a ∈ l, ∀ x, P x → P (f a x)) (start : P s) : P (s.each l f) := by
  induction l generalizing s with
  | nil => exact start
  | cons a l ih =>
    exact ih (fun b mem => keeps b (List.mem_cons_of_mem _ mem)) (keeps a (List.mem_cons_self ..) s start)

/-- The end of the operations on one channel leaves the others. -/
theorem endOps_chan_other (h : m ≠ n) : (endOps s (fun o => o.object == .chan n) st reason).chan m = s.chan m := by
  refine each_filter_keeps (P := fun t => t.chan m = s.chan m) _ (fun o mem x kept => ?_) rfl
  have object : o.object = .chan n := by
    have picked := (List.mem_filter.mp mem).2
    simp only [Bool.and_eq_true, beq_iff_eq] at picked
    exact picked.1.2
  rcases opRollback_chan (s := x) (o := o) (st := st) (reason := reason) (m := m) with same | ⟨own, -⟩
  · exact same.trans kept
  · exact absurd (OpObject.chan.inj (own.symm.trans object)) h

theorem endOps_keepsKeeper (pick : Op → Bool) : KeepsKeeper (s.chan n) ((endOps s pick st reason).chan n) := by
  refine each_keeps (P := fun t => KeepsKeeper (s.chan n) (t.chan n)) (fun o x kept => keepsKeeper_trans kept ?_) (keepsKeeper_refl _)
  rcases opRollback_chan (s := x) (o := o) (st := st) (reason := reason) (m := n) with same | ⟨-, ended⟩
  · rw [same]
    exact keepsKeeper_refl _
  · rw [ended]
    exact trimEnd_keepsKeeper _

end Rollback

/-! ## CH.REKINDLE (R142, R145, R146) -/

section Rekindle

variable {s : State} {f : CmdFrame} {n m : Fin 24}

theorem clearChannelLatches_alters : Alters [.events] s (clearChannelLatches s n) :=
  frame_clearChannelLatches (List.Subset.refl _) (frame_refl _ s)

/-- The state in which a re-kindle has ended the channel's operations and its latched faults. -/
def rekindleCleared (s : State) (n : Fin 24) : State :=
  staleBegin (clearChannelLatches (endOps s (fun o => o.object == .chan n) .cancelled 0x11) n) n 0

theorem rekindleCleared_chan : KeepsKeeper (s.chan n) ((rekindleCleared s n).chan n) ∧
    (∀ m, m ≠ n → (rekindleCleared s n).chan m = s.chan m) ∧ (rekindleCleared s n).clock.age = s.clock.age := by
  let u := endOps s (fun o => o.object == .chan n) .cancelled 0x11
  have cleared : Alters [.events] u (clearChannelLatches u n) := clearChannelLatches_alters
  have stale : Alters [.chans] (clearChannelLatches u n) (rekindleCleared s n) := frame_staleBegin (List.Subset.refl _) (frame_refl _ _)
  have ended : Alters [.tables, .chans, .mem, .engine, .seat, .events] s u := endOps_alters ..
  have kept : KeepsKeeper (s.chan n) (u.chan n) := endOps_keepsKeeper _
  refine ⟨keepsKeeper_trans kept ?_, fun m other => ?_, ?_⟩
  · have begun := keepsKeeper_of_redriven (staleBegin_redrives (clearChannelLatches u n) n 0)
    rwa [same_chan cleared (by decide)] at begun
  · rw [rekindleCleared, staleBegin_chan_other other, same_chan cleared (by decide)]
    exact endOps_chan_other other
  · rw [same_clock stale (by decide), same_clock cleared (by decide), same_clock ended (by decide)]

/-- The keeper's configuration is loaded again. -/
def keeperReloaded (u : State) (n : Fin 24) : State :=
  match (u.chan n).profile with
  | some p => if isOutput p && !(u.chan n).capStrap then
      u.onChan n fun c => { c with keeper := some (keeperConfig u n p), keptProfile := some p }
    else u
  | none => u

theorem startRekindle_eq : startRekindle s n =
    let u := keeperReloaded ((rekindleCleared s n).onChan n fun c =>
      { Chan.rekindled c with rekindle := some ((rekindleCleared s n).clock.age + 6000000), rekindleHeld := false }) n
    if isOutChan (u.chan n) then bankNow u n else u := rfl

/-- What a channel shows once its re-kindle runs. -/
structure Rekindles (now : Tick) (c c' : Chan) : Prop where
  due : c'.rekindle = some (now + 6000000)
  bank : c'.bankShell = true
  pending : c'.pending = []
  commanded : c'.commanded = false
  forced : c'.forced = false
  override : c'.override = none
  comp : c'.comp = .normal
  latch : c'.latch = c.latch
  kind : isOutChan c' = isOutChan c

/-- A keeper that is reloaded changes only the keeper's configuration. -/
theorem keeperReloaded_chan : isOutChan ((keeperReloaded s n).chan n) = isOutChan (s.chan n) ∧
    ∀ {α : Type} (g : Chan → α), (∀ c k p, g { c with keeper := k, keptProfile := p } = g c) →
      g ((keeperReloaded s n).chan n) = g (s.chan n) := by
  unfold keeperReloaded
  split
  · next p profile =>
    split
    · rw [State.onChan_chan]
      refine ⟨?_, fun g keeps => keeps _ _ _⟩
      unfold isOutChan
      dsimp only
      rw [profile]
    · exact ⟨rfl, fun _ _ => rfl⟩
  · exact ⟨rfl, fun _ _ => rfl⟩

theorem keeperReloaded_chan_other (h : m ≠ n) : (keeperReloaded s n).chan m = s.chan m := by
  unfold keeperReloaded
  split
  · split
    · exact State.onChan_chan_other _ n m _ h
    · rfl
  · rfl

theorem startRekindle_chan : Rekindles s.clock.age (s.chan n) ((startRekindle s n).chan n) ∧
    (isOutChan (s.chan n) = true → ((startRekindle s n).chan n).inControl = true) ∧
    (∀ m, m ≠ n → (startRekindle s n).chan m = s.chan m) := by
  obtain ⟨keeps, others, age⟩ := rekindleCleared_chan (s := s) (n := n)
  rw [startRekindle_eq, age]
  dsimp only
  generalize rekindleCleared s n = u at keeps others
  let v := u.onChan n fun c => { Chan.rekindled c with rekindle := some (s.clock.age + 6000000), rekindleHeld := false }
  have taken : v.chan n = { Chan.rekindled (u.chan n) with rekindle := some (s.clock.age + 6000000), rekindleHeld := false } :=
    State.onChan_chan ..
  have rest : ∀ m, m ≠ n → v.chan m = s.chan m := fun m other => (State.onChan_chan_other _ n m _ other).trans (others m other)
  obtain ⟨kind, part⟩ := keeperReloaded_chan (s := v) (n := n)
  have same : isOutChan ((keeperReloaded v n).chan n) = isOutChan (s.chan n) := by
    rw [kind, taken, isOutChan, isOutChan]
    exact (by rw [show (Chan.rekindled (u.chan n)).profile = (s.chan n).profile from keeps.profile,
      show (Chan.rekindled (u.chan n)).keeper = (s.chan n).keeper from keeps.keeper])
  change Rekindles _ _ ((if isOutChan ((keeperReloaded v n).chan n) then bankNow (keeperReloaded v n) n else keeperReloaded v n).chan n) ∧ _ ∧ _
  have begun : Rekindles s.clock.age (s.chan n) ((keeperReloaded v n).chan n) := by
    exact ⟨(part Chan.rekindle fun _ _ _ => rfl).trans (congrArg Chan.rekindle taken),
      (part Chan.bankShell fun _ _ _ => rfl).trans (congrArg Chan.bankShell taken),
      (part Chan.pending fun _ _ _ => rfl).trans (congrArg Chan.pending taken),
      (part Chan.commanded fun _ _ _ => rfl).trans (congrArg Chan.commanded taken),
      (part Chan.forced fun _ _ _ => rfl).trans (congrArg Chan.forced taken),
      (part Chan.override fun _ _ _ => rfl).trans (congrArg Chan.override taken),
      (part Chan.comp fun _ _ _ => rfl).trans (congrArg Chan.comp taken),
      ((part Chan.latch fun _ _ _ => rfl).trans (congrArg Chan.latch taken)).trans keeps.latch, same⟩
  split
  · next out =>
    have driven := keeperTakes_redrives (trimOf (keeperReloaded v n).vault n) (keeperReloaded v n).clock.age
      { (keeperReloaded v n).chan n with bankShell := true }
    have shape : isOutChan ((bankNow (keeperReloaded v n) n).chan n) = isOutChan (s.chan n) := by
      rw [← same, bankNow_chan, isOutChan, isOutChan, redriven_profile driven, redriven_keeper driven]
    refine ⟨?_, fun _ => ?_, fun m other => ?_⟩
    · refine ⟨?_, ?_, ?_, ?_, ?_, ?_, ?_, ?_, shape⟩ <;> rw [bankNow_chan]
      · exact (redriven_rekindle driven).trans begun.due
      · exact redriven_bankShell driven
      · exact (redriven_pending driven).trans begun.pending
      · exact (redriven_commanded driven).trans begun.commanded
      · exact (redriven_forced driven).trans begun.forced
      · exact (redriven_override driven).trans begun.override
      · exact (redriven_comp driven).trans begun.comp
      · exact (redriven_latch driven).trans begun.latch
    · rw [bankNow_chan, keeperTakes_inControl]
    · exact (bankNow_chan_other other).trans ((keeperReloaded_chan_other other).trans (rest m other))
  · next input =>
    refine ⟨begun, fun out => ?_, fun m other => (keeperReloaded_chan_other other).trans (rest m other)⟩
    rw [same] at input
    exact absurd out input

theorem startRekindle_keepsSlots : KeepsSlots s (startRekindle s n) := by
  have cleared : KeepsSlots s (rekindleCleared s n) := by
    have ended : KeepsSlots s (endOps s (fun o => o.object == .chan n) .cancelled 0x11) := endOps_keepsSlots _
    refine keepsSlots_trans ended (keepsSlots_of_engine ?_)
    have stale : Alters [.chans, .events] (endOps s (fun o => o.object == .chan n) .cancelled 0x11) (rekindleCleared s n) :=
      frame_staleBegin (by decide) (frame_clearChannelLatches (by decide) (frame_refl _ _))
    exact same_engine stale (by decide)
  rw [startRekindle_eq]
  generalize rekindleCleared s n = u at cleared
  have reloaded : ∀ v : State, KeepsSlots v (keeperReloaded v n) := fun v => by
    unfold keeperReloaded
    split
    · split <;> exact ⟨rfl, rfl⟩
    · exact keepsSlots_refl v
  refine keepsSlots_trans cleared ?_
  have loaded : ∀ g : Chan → Chan, KeepsSlots u (keeperReloaded (u.onChan n g) n) := fun g =>
    keepsSlots_trans (t := u.onChan n g) ⟨rfl, rfl⟩ (reloaded _)
  dsimp only
  split
  · exact keepsSlots_trans (loaded _) ⟨rfl, rfl⟩
  · exact loaded _

/-- A re-kindle as the command asks for it. -/
def rekindleAsked (s : State) (n : Fin 24) : State :=
  if (s.chan n).rekindle.isSome then s
  else if underRestrap s n || halted s 6 then s.onChan n fun c => { c with rekindleHeld := true }
  else startRekindle s n

theorem rekindleAsked_alters : Alters [.engine, .chans, .mem, .tables, .seat, .events] s (rekindleAsked s n) := by
  unfold rekindleAsked
  split
  · exact frame_refl _ s
  · split
    · exact frame_State_onChan (by decide) (frame_refl _ s)
    · exact frame_startRekindle (by decide) (frame_refl _ s)

theorem rekindleAsked_keepsSlots : KeepsSlots s (rekindleAsked s n) := by
  unfold rekindleAsked
  split
  · exact keepsSlots_refl s
  · split
    · exact ⟨rfl, rfl⟩
    · exact startRekindle_keepsSlots

/-- The answer of a command whose execution leaves the queues, the hands and the vault. -/
theorem replies_of_engine {l : List Part} {t : State} {status flags : Nat} {body : List Byte} (keeps : KeepsSlots (atExecution f s) t)
    (alters : Alters ([.free, .engine] ++ l) (atExecution f s) t) (die : .dieId ∉ l) (vault : .vault ∉ l) (queues : .queues ∉ l) (hands : .hands ∉ l)
    (engine : .engine ∈ l) : Replies l s (respond t f status flags body) f status flags body := by
  have frames : t.queues = (atExecution f s).queues := same_queues alters (by simpa using queues)
  exact respond_replies keeps (frame_trans (frame_mono (List.subset_append_of_subset_left _ (by decide)) atExecution_alters)
    (frame_mono (List.append_subset.mpr ⟨List.subset_append_of_subset_left _ (by decide), List.subset_append_right ..⟩) alters)) die vault
    (.inr ⟨fun q _ => qFrames_congr frames, congrArg (fun u => u.settings) frames⟩)
    (.inr fun h => same_hand alters (by simpa using hands) h) (.inl engine)

theorem respond_chan (t : State) {status flags : Nat} {body : List Byte} (m : Fin 24) : (respond t f status flags body).chan m = t.chan m :=
  same_chan respond_alters (by decide) m

theorem chRekindle_answers (ok : Accepted chRekindleCmd f s) :
    let n := chanArg f
    ∃ t, exec (.chRekindle f) s = .next t ∧ Replies [.chans, .mem, .engine, .tables, .seat, .events] s t f 0 0 [] ∧
      ((s.chan n).rekindle ≠ none → t.chan n = s.chan n) ∧
      ((s.chan n).rekindle = none → (underRestrap s n || halted s 6) = true →
        t.chan n = { s.chan n with rekindleHeld := true } ∧ (∀ m, m ≠ n → t.chan m = s.chan m)) ∧
      ((s.chan n).rekindle = none → underRestrap s n = false → halted s 6 = false →
        Rekindles s.clock.age (s.chan n) (t.chan n) ∧ (isOutChan (s.chan n) = true → (t.chan n).inControl = true) ∧
        (∀ m, m ≠ n → t.chan m = s.chan m)) := by
  intro n
  refine ⟨respond (rekindleAsked (atExecution f s) n) f 0 0 [], congrArg Host.Outcome.next (runCommand_answers ok rfl rfl),
    replies_of_engine rekindleAsked_keepsSlots (frame_mono (by decide) rekindleAsked_alters) (by decide) (by decide) (by decide) (by decide)
      (by decide), fun runs => ?_, fun free held => ?_, fun free plain works => ?_⟩
  · have busy : ((atExecution f s).chan n).rekindle.isSome = true := Option.isSome_iff_ne_none.mpr runs
    rw [respond_chan, rekindleAsked, if_pos busy]
    rfl
  · have idle : ¬ ((atExecution f s).chan n).rekindle.isSome = true := by
      rw [show ((atExecution f s).chan n).rekindle = none from free]
      exact nofun
    have asked : rekindleAsked (atExecution f s) n = (atExecution f s).onChan n fun c => { c with rekindleHeld := true } := by
      rw [rekindleAsked, if_neg idle, if_pos (show (underRestrap (atExecution f s) n || halted (atExecution f s) 6) = true from held)]
    rw [asked]
    refine ⟨(respond_chan _ n).trans (State.onChan_chan ..), fun m other => (respond_chan _ m).trans (State.onChan_chan_other _ n m _ other)⟩
  · have idle : ¬ ((atExecution f s).chan n).rekindle.isSome = true := by
      rw [show ((atExecution f s).chan n).rekindle = none from free]
      exact nofun
    have asked : rekindleAsked (atExecution f s) n = startRekindle (atExecution f s) n := by
      rw [rekindleAsked, if_neg idle, if_neg (by
        rw [show underRestrap (atExecution f s) n = false from plain, show halted (atExecution f s) 6 = false from works]; exact nofun)]
    obtain ⟨own, control, others⟩ := startRekindle_chan (s := atExecution f s) (n := n)
    rw [asked]
    exact ⟨by rw [respond_chan]; exact own, fun out => by rw [respond_chan]; exact control out,
      fun m other => (respond_chan _ m).trans (others m other)⟩

end Rekindle

/-! ## NODE.RESET, PORT.RESET and PIPE.RESET (R137, R140, R141, R145) -/

section Resets

variable {s : State} {f : CmdFrame} {p : Port}

theorem nodeReset_answers (ok : Accepted nodeResetCmd f s) :
    ∃ t, exec (.nodeReset f) s = .next t ∧ Replies [.engine] s t f 0 0 [] ∧ t.engine.nodeReset = true ∧ t.engine.ops = s.engine.ops := by
  let u := (atExecution f s).onEngine fun e => { e with nodeReset := true }
  obtain ⟨slots, engine, -⟩ := respond_engine (s := u) (f := f) (status := 0) (flags := 0) (body := [])
  exact ⟨respond u f 0 0 [], congrArg Host.Outcome.next (runCommand_answers ok rfl rfl),
    replies_of_engine ⟨rfl, rfl⟩ (frame_State_onEngine (by decide) (frame_refl _ _)) (by decide) (by decide) (by decide) (by decide) (by decide),
    by rw [engine]; rfl, by rw [engine]; rfl⟩

/-- A sounding that is given up concerns its own port. -/
theorem abortSounding_port_other (reason : Nat) : (abortSounding s p reason).port p.other = s.port p.other := by
  unfold abortSounding
  split
  · rw [toUntrained, State.onPort_port_other]
    exact sendLc_port_other _
  · rfl

theorem portResetTake_port : ((portResetTake s p).port p).resetDue = true ∧ (portResetTake s p).port p.other = s.port p.other := by
  unfold portResetTake
  dsimp only
  have ended : Alters [.tables, .chans, .mem, .engine, .seat, .events] s (endOps s (fun o => o.object == .port p) .cancelled 0x11) :=
    endOps_alters ..
  rw [State.onPort_port, State.onPort_port_other, abortSounding_port_other, same_port ended (by decide) (by decide)]
  exact ⟨rfl, rfl⟩

theorem portResetTake_keepsSlots : KeepsSlots s (portResetTake s p) := by
  have ended : KeepsSlots s (endOps s (fun o => o.object == .port p) .cancelled 0x11) := endOps_keepsSlots _
  have aborted : ∀ u : State, Alters [.portA, .portB] u ((abortSounding u p 4).onPort p fun q => { q with resetDue := true }) := fun u =>
    frame_State_onPort (List.Subset.refl _) (frame_abortSounding (List.Subset.refl _) (frame_refl _ u))
  exact keepsSlots_trans ended (keepsSlots_of_engine (same_engine (aborted _) (by decide)))

theorem respond_port (t : State) {status flags : Nat} {body : List Byte} (q : Port) : (respond t f status flags body).port q = t.port q :=
  same_port respond_alters (by decide) (by decide) q

theorem respond_pipe (t : State) {status flags : Nat} {body : List Byte} (q : Port) : (respond t f status flags body).pipe q = t.pipe q :=
  same_pipe respond_alters (by decide) q

theorem portReset_answers (ok : Accepted portResetCmd f s) :
    let p := portOf (bodyByte f 0)
    ∃ t, exec (.portReset f) s = .next t ∧
      Replies [.portA, .portB, .chans, .mem, .engine, .tables, .seat, .events] s t f 0 0 [] ∧ t.port p.other = s.port p.other ∧
      ((s.port p).quietUntil = none → (t.port p).resetDue = true) ∧
      ((s.port p).resetDue = true → t.port p = s.port p) := by
  intro p
  let u := if (s.port p).resetDue || (s.port p).quietUntil.isSome then atExecution f s else portResetTake (atExecution f s) p
  have ran : portResetCmd.run f (atExecution f s) = (.now 0 0 [], u) := rfl
  obtain ⟨due, other⟩ := portResetTake_port (s := atExecution f s) (p := p)
  refine ⟨_, congrArg Host.Outcome.next (runCommand_answers ok rfl ran), replies_of_engine ?_ (frame_mono (by decide) (?_ : Alters
    [.engine, .portA, .portB, .chans, .mem, .tables, .seat, .events] _ _)) (by decide) (by decide) (by decide) (by decide) (by decide), ?_, ?_, ?_⟩
  · unfold u
    split
    · exact keepsSlots_refl _
    · exact portResetTake_keepsSlots
  · unfold u
    split
    · exact frame_refl _ _
    · exact frame_portResetTake (by decide) (frame_refl _ _)
  · rw [respond_port]
    unfold u
    split
    · rfl
    · exact other
  · intro loud
    rw [respond_port]
    unfold u
    rw [loud]
    split
    · next asked => exact (Bool.or_false _).symm.trans asked
    · exact due
  · intro asked
    rw [respond_port]
    unfold u
    rw [asked]
    rfl

theorem pipeReset_answers (ok : Accepted pipeResetCmd f s) :
    let p := portOf (bodyByte f 0)
    ∃ t, exec (.pipeReset f) s = .next t ∧ Replies [.chans, .mem, .engine, .tables, .seat, .events] s t f 0 0 [] ∧
      t.pipe p.other = s.pipe p.other ∧
      (t.pipe p).resetting = (if (s.pipe p).resetting = 0 then 1 else (s.pipe p).resetting) := by
  intro p
  let v := endOps (atExecution f s) (fun o => o.object == .pipe p) .cancelled 0x11
  let u := if (s.pipe p).resetting != 0 then atExecution f s else v.onPipe p fun q => { q with resetting := 1 }
  have ran : pipeResetCmd.run f (atExecution f s) = (.now 0 0 [], u) := rfl
  have kept : ∀ q, v.pipe q = s.pipe q := fun q => endOps_pipe _ q
  refine ⟨_, congrArg Host.Outcome.next (runCommand_answers ok rfl ran), replies_of_engine ?_ (frame_mono (by decide) (?_ : Alters
    [.engine, .chans, .mem, .tables, .seat, .events] _ _)) (by decide) (by decide) (by decide) (by decide) (by decide), ?_, ?_⟩
  · unfold u
    split
    · exact keepsSlots_refl _
    · have ended : KeepsSlots (atExecution f s) v := endOps_keepsSlots _
      have marked : Alters [.tables] v (v.onPipe p fun q => { q with resetting := 1 }) := frame_State_onPipe (by decide) (frame_refl _ v)
      exact keepsSlots_trans ended (keepsSlots_of_engine (same_engine marked (by decide)))
  · unfold u
    split
    · exact frame_refl _ _
    · exact frame_State_onPipe (by decide) (frame_endOps (by decide) (frame_refl _ _))
  · rw [respond_pipe]
    unfold u
    split
    · rfl
    · rw [onPipe_pipe_other]
      exact kept _
  · rw [respond_pipe]
    unfold u
    by_cases idle : (s.pipe p).resetting = 0
    · rw [idle, if_neg (by decide), if_pos rfl, onPipe_pipe]
    · rw [if_pos (by simpa using idle), if_neg idle]
      rfl

/-! ## PHY.MARGIN (R183) -/

/-- A TABLE that is sent leaves the margin and concerns its own port. -/
theorem sendTable_margin (t : BitTable) (body : BitVec 16 → Bool → List Byte) :
    ((sendTable s p t body).port p).margin = (s.port p).margin ∧ (sendTable s p t body).port p.other = s.port p.other := by
  have margin : ∀ (q : PortState) slot, (q.setRx slot t).margin = q.margin := fun q slot => by
    unfold PortState.setRx
    split <;> rfl
  unfold sendTable
  dsimp only
  constructor
  · rw [sendLc_port, State.onPort_port]
    exact margin _ _
  · rw [sendLc_port_other, State.onPort_port_other]

theorem resound_margin (reason : Nat) : ((resound s p reason).port p).margin = (s.port p).margin := by
  unfold resound
  split
  · rw [State.onPort_port]
    cases p <;> rfl
  · rfl

/-- The TABLE of a margin leaves the margin itself, concerns its own port, and waits while the link is not up. -/
theorem marginTable_port : ((marginTable s p).port p).margin = (s.port p).margin ∧ (marginTable s p).port p.other = s.port p.other ∧
    ((s.port p).link ≠ .up → marginTable s p = s) := by
  unfold marginTable
  dsimp only
  split
  · exact ⟨rfl, rfl, fun _ => rfl⟩
  · next due =>
    have up : (s.port p).link = .up := by
      simp only [Bool.or_eq_true, bne_iff_ne, not_or, not_not] at due
      exact due.1.2
    split
    · obtain ⟨-, -, other⟩ := resound_port (s.onPort p fun q => { q with marginDue := false }) p 2
      exact ⟨by rw [resound_margin, State.onPort_port], by rw [other, State.onPort_port_other], fun down => absurd up down⟩
    · obtain ⟨margin, other⟩ := sendTable_margin (s := s) (p := p) (tableFor (s.port p).snr (marginDb (s.port p).margin))
        fun seq slot => fullTable seq (s.port p).margin slot (tableFor (s.port p).snr (marginDb (s.port p).margin))
      exact ⟨margin, other, fun down => absurd up down⟩

theorem phyMargin_answers (ok : Accepted phyMarginCmd f s) :
    let p := portOf (bodyByte f 0)
    ∃ t, exec (.phyMargin f) s = .next t ∧ Replies [.portA, .portB, .tables] s t f 0 0 [] ∧ (t.port p).margin.toNat = bodyByte f 1 ∧
      t.port p.other = s.port p.other ∧ ((s.port p).link ≠ .up → (t.port p).marginDue = true) := by
  intro p
  obtain ⟨-, body, -⟩ := accepted_checks ok
  have small : bodyByte f 1 < 4 := by
    have form : (bodyMalformed f 2 [0, 1] || decide (4 ≤ bodyByte f 1)) = false := failIf_none.mp (firstFail_cons.mp body).1
    simp only [Bool.or_eq_false_iff, decide_eq_false_iff_not] at form
    omega
  let u := (atExecution f s).onPort p fun q => { q with margin := BitVec.ofNat 2 (bodyByte f 1), marginDue := true }
  have ran : phyMarginCmd.run f (atExecution f s) = (.now 0 0 [], marginTable u p) := rfl
  have taken : u.port p = { s.port p with margin := BitVec.ofNat 2 (bodyByte f 1), marginDue := true } := State.onPort_port ..
  obtain ⟨margin, other, waits⟩ := marginTable_port (s := u) (p := p)
  refine ⟨_, congrArg Host.Outcome.next (runCommand_answers ok rfl ran), replies_of_alters (frame_marginTable (by decide)
    (frame_State_onPort (by decide) (frame_refl _ _))) (by decide) (by decide) (by decide), ?_, ?_, fun down => ?_⟩
  · rw [respond_port, margin, taken]
    exact (BitVec.toNat_ofNat ..).trans (Nat.mod_eq_of_lt small)
  · rw [respond_port, other]
    exact State.onPort_port_other ..
  · rw [respond_port, waits (by rw [taken]; exact down), taken]

end Resets

end Sys2Proof.Proofs
end

section
/-! The commands that start long operations or move a trim on, and a first KEY.SET (R190, R452 to R454, R495, R525). -/

namespace Sys2Proof.Proofs

open Sys2Proof Sys2Proof.Machine Sys2Proof.Safety Sys2Proof.Laws

/-! ## PHY.SOUND (R190) -/

section Sound

variable {s : State} {f : CmdFrame} {o : Op}

/-- An operation that joins a sounding. -/
def joinedOp (now : Tick) (o : Op) : Op := enteredOp now .running 0 { o with progress := 1, gated := false }

theorem opOf_joinSounding (found : opOf s o.handle.toNat = some o) :
    opOf (joinSounding s o.handle.toNat) o.handle.toNat = some (joinedOp s.clock.age o) := by
  unfold joinSounding
  rw [opOf_opEnter, (opOf_onOp (f := fun o : Op => { o with progress := 1, gated := false }) fun _ => rfl).trans (congrArg _ found)]
  rfl

theorem joinSounding_other {p : Op} {h : Nat} (other : p.handle.toNat ≠ h) (mem : p ∈ s.engine.ops) : p ∈ (joinSounding s h).engine.ops := by
  have skips : ∀ (t : State) (g : Op → Op), p ∈ t.engine.ops → p ∈ (onOp t h g).engine.ops := fun t g mem => by
    refine List.mem_map.mpr ⟨p, mem, ?_⟩
    exact if_neg (by simpa using other)
  unfold joinSounding
  rw [opEnter_engine]
  exact skips _ _ (skips _ _ mem)

theorem phySound_answers (ok : Accepted phySoundCmd f s) (few : s.engine.ops.length ≤ 80) :
    let p := portOf (bodyByte f 0)
    ∃ t, exec (.phySound f) s = .next t ∧
      (isSounding (s.port p) = false → Created [] s t f (.port p) .queued) ∧
      (isSounding (s.port p) = true → Created [.events] s t f (.port p) .running) := by
  intro p
  by_cases sounding : isSounding (s.port p) = true
  · have ran : phySoundCmd.run f (atExecution f s) = created ((createOp (atExecution f s) f (.port p) true).1,
        joinSounding (createOp (atExecution f s) f (.port p) true).2 (createOp (atExecution f s) f (.port p) true).1.toNat) := by
      change (if isSounding (s.port p) then _ else _) = _
      rw [if_pos sounding]
      rfl
    have opcode : (newOp (atExecution f s) f (.port p) true).opcode.toNat = opcodeOf f := newOp_opcode (ok.op ▸ by decide)
    have fresh : FreshOp (atExecution f s) (newOp (atExecution f s) f (.port p) true) := newOp_fresh few
    obtain ⟨hand, -, object, -, own, -⟩ := newOp_parts (s := atExecution f s) (f := f) (obj := .port p) (gated := true)
    rw [createOp_eq] at ran
    generalize newOp (atExecution f s) f (.port p) true = o at ran fresh opcode hand object own
    refine ⟨_, congrArg Host.Outcome.next (runCommand_answers ok rfl ran), fun silent => absurd sounding (by rw [silent]; exact nofun), fun _ => ?_⟩
    have joined := opOf_joinSounding (opOf_opMade fresh)
    have keeps : KeepsSlots (atExecution f s) (joinSounding (opMade (atExecution f s) o) o.handle.toNat) :=
      keepsSlots_trans opMade_keepsSlots (keepsSlots_trans (onOp_keepsSlots _) opEnter_keepsSlots)
    have alters : Alters [.engine, .events] (atExecution f s) (joinSounding (opMade (atExecution f s) o) o.handle.toNat) :=
      frame_joinSounding (List.Subset.refl _) (frame_mono (by decide) opMade_alters)
    refine ⟨⟨joinedOp (opMade (atExecution f s) o).clock.age o, opOf_respond.trans joined, hand, opcode, object, rfl, own, fresh.some_, fresh.others,
      created_replies keeps alters (by decide) (by decide) (by decide) (by decide) o.handle⟩, fun x mem => ?_⟩
    rw [respond_ops]
    exact joinSounding_other (fun same => fresh.others x mem (BitVec.eq_of_toNat_eq same)) (List.mem_append_left _ mem)
  · have ran : phySoundCmd.run f (atExecution f s) = created (createOp (atExecution f s) f (.port p) true) := by
      change (if isSounding (s.port p) then _ else _) = _
      rw [if_neg sounding]
      rfl
    obtain ⟨t, run, made⟩ := runCommand_creates ok few rfl ran (by decide)
    exact ⟨t, congrArg Host.Outcome.next run, fun _ => made, fun loud => absurd loud sounding⟩

end Sound

/-! ## TRIM.START, MEM.REPAIR, MEM.SWEEP and TWIN.MIRROR (R474, R495) -/

section Creations

variable {s : State} {f : CmdFrame}

theorem trimStart_answers (ok : Accepted trimStartCmd f s) (few : s.engine.ops.length ≤ 80) :
    ∃ t, exec (.trimStart f) s = .next t ∧ Created [] s t f (.chan (chanArg f)) .queued := by
  obtain ⟨t, run, made⟩ := runCommand_creates ok few rfl rfl (by decide)
  exact ⟨t, congrArg Host.Outcome.next run, made⟩

/-- A repair without PERSIST of a row not yet repaired is queued. -/
theorem memRepair_answers (ok : Accepted memRepairCmd f s) (few : s.engine.ops.length ≤ 80) (volatile : bodyByte f 4 = 0)
    (fresh : remapOf s.mem (bodyByte f 0) (bodyField f 2 2) = none) :
    ∃ t, exec (.memRepair f) s = .next t ∧ Created [] s t f (.bank (Fin.ofNat 64 (bodyByte f 0))) .queued := by
  have work : repairNothing (atExecution f s) f = false := by
    unfold repairNothing repairEntry
    rw [show remapOf (atExecution f s).mem (bodyByte f 0) (bodyField f 2 2) = none from fresh]
  have direct : memRepairCmd.cs f (atExecution f s) = false := by
    change (bit (bodyByte f 4) 0 && _) = false
    rw [volatile]
    rfl
  have ran : memRepairCmd.run f (atExecution f s) = created (createOp (atExecution f s) f (.bank (Fin.ofNat 64 (bodyByte f 0)))
      (bit (bodyByte f 4) 0 && (repairEntry (atExecution f s) f).isSome)) := by
    change (if repairNothing (atExecution f s) f then _ else _) = _
    rw [work]
    rfl
  obtain ⟨t, run, made⟩ := runCommand_creates ok few direct ran (by decide)
  exact ⟨t, congrArg Host.Outcome.next run, made⟩

theorem memSweep_answers (ok : Accepted memSweepCmd f s) (few : s.engine.ops.length ≤ 80) :
    ∃ t, exec (.memSweep f) s = .next t ∧ Created [] s t f .sweep .queued := by
  obtain ⟨t, run, made⟩ := runCommand_creates ok few rfl rfl (by decide)
  exact ⟨t, congrArg Host.Outcome.next run, made⟩

theorem twinMirror_answers (ok : Accepted twinMirrorCmd f s) (few : s.engine.ops.length ≤ 80) :
    ∃ t, exec (.twinMirror f) s = .next t ∧ Created [] s t f .seat .queued := by
  obtain ⟨t, run, made⟩ := runCommand_creates ok few rfl rfl (by decide)
  exact ⟨t, congrArg Host.Outcome.next run, made⟩

end Creations

/-! ## TRIM.POINT (R452 to R454) -/

section TrimPoint

variable {s : State} {f : CmdFrame} {o : Op} {n m : Fin 24} {h : Nat}

theorem setTarget_target (c : Chan) (now : Tick) (v : Int) : (setTarget c now v).target = v := by
  unfold setTarget
  dsimp only
  split
  · next same => exact beq_iff_eq.mp (Bool.and_eq_true_iff.mp same).1
  · rfl

theorem driveValue_target (w : Trim) (now : Tick) (v : Int) (c : Chan) : (driveValue w now v c).target = v := by
  unfold driveValue
  dsimp only
  split <;> exact setTarget_target ..

theorem drivePoint_chan (v : Int) : ((drivePoint s n v).chan n).inTrim = true ∧ ((drivePoint s n v).chan n).target = v ∧
    ∀ m, m ≠ n → (drivePoint s n v).chan m = s.chan m := by
  unfold drivePoint
  rw [State.onChan_chan]
  exact ⟨redriven_inTrim (driveValue_redrives ..), driveValue_target .., fun m other => State.onChan_chan_other _ n m _ other⟩

/-- A trim with its computed record, which waits for TRIM.COMMIT. -/
def computedOp (now : Tick) (l : List Int) (x : Op) : Op := { x with trim := l, progress := 7, reason := 3, since := now, timing := true }

/-- The computation of a trim leaves it waiting with its record, or ends it. -/
theorem trimCompute_cases (two : Bool) (low high : Int) :
    (∃ l, trimCompute s o n two low high = trimWaits (onOp s.draw.2 o.handle.toNat (computedOp s.clock.age l)) o.handle.toNat n) ∨
      trimCompute s o n two low high = opRollback s.draw.2 o .failed 0x22 := by
  unfold trimCompute
  extract_lets t v d s' lv new
  clear_value new lv
  cases new with
  | none => exact .inr rfl
  | some l =>
    dsimp only
    split
    · exact .inl ⟨l, rfl⟩
    · exact .inr rfl

theorem trimWaits_op (found : opOf s h = some o) : opOf (trimWaits s h n) h =
    some (if o.suspendPending then enteredOp s.clock.age .suspended 4 o else o) := by
  unfold trimWaits
  rw [found]
  dsimp only
  split
  · exact suspendTrim_suspends n found
  · exact found

theorem trimWaits_chan_other (other : m ≠ n) : (trimWaits s h n).chan m = s.chan m := by
  have entered : ∀ st reason, (opEnter s h st reason).chan m = s.chan m := fun st reason =>
    same_chan (frame_opEnter (L := [.engine, .events]) (List.Subset.refl _) (frame_refl _ s)) (by decide) m
  unfold trimWaits
  split
  · split
    · unfold suspendTrim
      split
      · rfl
      · dsimp only
        split
        · rw [trimEnd_chan_other _ other, entered]
        · exact entered ..
    · rfl
  · rfl

theorem trimWaits_keepsSlots : KeepsSlots s (trimWaits s h n) := by
  unfold trimWaits
  split
  · split
    · exact suspendTrim_keepsSlots n
    · exact keepsSlots_refl s
  · exact keepsSlots_refl s

theorem trimCompute_keepsSlots (two : Bool) (low high : Int) : KeepsSlots s (trimCompute s o n two low high) := by
  have drawn : KeepsSlots s s.draw.2 := ⟨rfl, rfl⟩
  rcases trimCompute_cases (s := s) (o := o) (n := n) two low high with ⟨l, waits⟩ | ended
  · rw [waits]
    exact keepsSlots_trans (keepsSlots_trans drawn (onOp_keepsSlots _)) trimWaits_keepsSlots
  · rw [ended]
    exact keepsSlots_trans drawn opRollback_keepsSlots

theorem trimCompute_chan_other (object : o.object = .chan n) (other : m ≠ n) (two : Bool) (low high : Int) :
    (trimCompute s o n two low high).chan m = s.chan m := by
  rcases trimCompute_cases (s := s) (o := o) (n := n) two low high with ⟨l, waits⟩ | ended
  · rw [waits]
    exact trimWaits_chan_other other
  · rw [ended]
    rcases opRollback_chan (s := s.draw.2) (o := o) (st := .failed) (reason := 0x22) (m := m) with same | ⟨own, -⟩
    · exact same
    · exact absurd (OpObject.chan.inj (own.symm.trans object)) other

/-- A trim that still runs after its computation waits for TRIM.COMMIT. -/
theorem trimCompute_op (found : opOf s o.handle.toNat = some o) (unique : (s.engine.ops.map (·.handle)).Nodup)
    (few : (s.engine.ops.filter fun x => !x.state.live).length < 64) (opcode : o.opcode.toNat ≠ 0x0705) (two : Bool) (low high : Int) :
    ∃ q, opOf (trimCompute s o n two low high) o.handle.toNat = some q ∧
      (q.state = .running → q.m2 = o.m2 ∧ q.progress = 7 ∧ q.reason = 3) := by
  have drawn : opOf s.draw.2 o.handle.toNat = some o := found
  rcases trimCompute_cases (s := s) (o := o) (n := n) two low high with ⟨l, waits⟩ | ended
  · have computed : opOf (onOp s.draw.2 o.handle.toNat (computedOp s.clock.age l)) o.handle.toNat = some (computedOp s.clock.age l o) :=
      (opOf_onOp (f := computedOp s.clock.age l) fun _ => rfl).trans (congrArg _ drawn)
    rw [waits]
    refine ⟨_, trimWaits_op computed, fun runs => ?_⟩
    split at runs
    · exact absurd runs nofun
    · next free =>
      rw [if_neg free]
      exact ⟨rfl, rfl, rfl⟩
  · rw [ended]
    exact ⟨_, (opRollback_op .failed 0x22 drawn unique few).2 (.inl opcode), fun runs => absurd runs nofun⟩

theorem trimChan_parts (trim : trimChan o = some n) : o.opcode.toNat = 0x0D01 ∧ o.object = .chan n := by
  unfold trimChan at trim
  split at trim
  · next opcode object =>
    obtain rfl := Option.some.inj trim
    exact ⟨opcode, object⟩
  · exact absurd trim nofun

/-- A trim with the value of its first point. -/
def firstPoint (v : Int) (x : Op) : Op := { x with m1 := v, progress := 4, reason := 0, timing := false }

/-- A trim with the value of its second point. -/
def secondPoint (v : Int) (x : Op) : Op := { x with m2 := v, progress := 6, reason := 0, timing := false }

/-- The execution of a TRIM.POINT. -/
def pointTaken (s : State) (f : CmdFrame) (o : Op) (n : Fin 24) : State :=
  let h := o.handle.toNat
  let v := signed 32 (bodyField f 4 4)
  if bodyByte f 2 == 1 then drivePoint (onOp s h (firstPoint v)) n (trimPoint (isVoltage (s.chan n)) 2)
  else trimCompute (onOp s h fun _ => secondPoint v o) (secondPoint v o) n true (bodyField o.f 4 4) (bodyField o.f 8 4)

theorem pointTaken_alters : Alters [.free, .tables, .chans, .mem, .engine, .seat, .events] s (pointTaken s f o n) := by
  unfold pointTaken
  dsimp only
  split
  · exact frame_drivePoint (by decide) (frame_onOp (by decide) (frame_refl _ s))
  · exact frame_trimCompute (by decide) (frame_onOp (by decide) (frame_refl _ s))

theorem pointTaken_keepsSlots : KeepsSlots s (pointTaken s f o n) := by
  unfold pointTaken
  dsimp only
  split
  · exact keepsSlots_trans (onOp_keepsSlots _) ⟨rfl, rfl⟩
  · exact keepsSlots_trans (onOp_keepsSlots _) (trimCompute_keepsSlots ..)

theorem pointTaken_chan_other (object : o.object = .chan n) (other : m ≠ n) : (pointTaken s f o n).chan m = s.chan m := by
  unfold pointTaken
  dsimp only
  split
  · exact (drivePoint_chan _).2.2 m other
  · exact trimCompute_chan_other (o := secondPoint _ o) object other ..

theorem onOp_handles {g : Op → Op} (keeps : ∀ x, x.handle.toNat = h → (g x).handle = x.handle) :
    (onOp s h g).engine.ops.map (·.handle) = s.engine.ops.map (·.handle) := by
  unfold onOp
  rw [State.onEngine_engine, List.map_map]
  refine List.map_congr_left fun x _ => ?_
  dsimp only [Function.comp]
  split
  · next same => exact keeps x (beq_iff_eq.mp same)
  · rfl

/-- A record that comes to life or stays in its place among the living adds no terminal record. -/
theorem onOp_few {g : Op → Op} (lives : ∀ x, (g x).state.live = true) :
    ((onOp s h g).engine.ops.filter fun x => !x.state.live).length ≤ (s.engine.ops.filter fun x => !x.state.live).length := by
  unfold onOp
  rw [State.onEngine_engine]
  dsimp only
  rw [← List.countP_eq_length_filter, ← List.countP_eq_length_filter, List.countP_map]
  refine List.countP_mono_left fun x _ dead => ?_
  dsimp only [Function.comp] at dead
  split at dead
  · rw [lives] at dead
    exact absurd dead nofun
  · exact dead

theorem trimPoint_answers (ok : Accepted trimPointCmd f s) (unique : (s.engine.ops.map (·.handle)).Nodup)
    (few : (s.engine.ops.filter fun x => !x.state.live).length < 64) :
    ∃ t o n q, exec (.trimPoint f) s = .next t ∧ opOf s (bodyField f 0 2) = some o ∧ trimChan o = some n ∧
      opOf t (bodyField f 0 2) = some q ∧ Replies [.chans, .engine, .mem, .tables, .seat, .events] s t f 0 0 [] ∧
      (∀ m, m ≠ n → t.chan m = s.chan m) ∧
      (bodyByte f 2 = 1 → q.m1 = signed 32 (bodyField f 4 4) ∧ q.progress = 4 ∧ q.state = .running ∧
        (t.chan n).inTrim = true ∧ (t.chan n).target = trimPoint (isVoltage (s.chan n)) 2) ∧
      (bodyByte f 2 = 2 → q.state = .running → q.m2 = signed 32 (bodyField f 4 4) ∧ q.progress = 7 ∧ q.reason = 3) := by
  obtain ⟨-, -, own⟩ := accepted_checks ok
  obtain ⟨o, mine, found, -, fits⟩ := withOp_none own
  cases trim : trimChan o with
  | none =>
    rw [trim] at fits
    exact absurd fits nofun
  | some n =>
    rw [trim] at fits
    have waits : (o.state != .running || o.progress.toNat != pointWait (bodyByte f 2)) = false := failIf_none.mp fits
    have running : o.state = .running := by
      simp only [Bool.or_eq_false_iff, bne_eq_false_iff_eq] at waits
      exact waits.1
    obtain ⟨opcode, object⟩ := trimChan_parts trim
    have handle : o.handle.toNat = handleArg f := opOf_handle found
    have record : opOf (atExecution f s) o.handle.toNat = some o := by rw [handle]; exact found
    have ran : trimPointCmd.run f (atExecution f s) = (.now 0 0 [], pointTaken (atExecution f s) f o n) := by
      unfold trimPointCmd
      dsimp only
      rw [mine]
      dsimp only
      rw [trim]
      rfl
    have state : ∃ q, opOf (pointTaken (atExecution f s) f o n) o.handle.toNat = some q ∧
        (bodyByte f 2 = 1 → q = firstPoint (signed 32 (bodyField f 4 4)) o) ∧
        (bodyByte f 2 = 2 → q.state = .running → q.m2 = signed 32 (bodyField f 4 4) ∧ q.progress = 7 ∧ q.reason = 3) := by
      unfold pointTaken
      dsimp only
      split
      · next first =>
        refine ⟨_, (opOf_onOp (f := firstPoint _) fun _ => rfl).trans (congrArg _ record), fun _ => rfl, fun second => ?_⟩
        rw [second] at first
        exact absurd first nofun
      · next other =>
        let k := secondPoint (signed 32 (bodyField f 4 4)) o
        have keeps : ∀ x : Op, x.handle.toNat = o.handle.toNat → k.handle = x.handle := fun x same => (BitVec.eq_of_toNat_eq same).symm
        have second : opOf (onOp (atExecution f s) o.handle.toNat fun _ => k) o.handle.toNat = some k :=
          (opOf_onOp_at (f := fun _ => k) keeps).trans (congrArg _ record)
        obtain ⟨q, there, goes⟩ := trimCompute_op (n := n) (o := k) second (by rw [onOp_handles (g := fun _ => k) keeps]; exact unique)
          (lt_of_le_of_lt (onOp_few (g := fun _ => k) fun _ => congrArg OpState.live running) few) (by rw [show k.opcode = o.opcode from rfl, opcode]; decide)
          true (bodyField o.f 4 4) (bodyField o.f 8 4)
        exact ⟨q, there, fun first => absurd (by rw [first]; rfl) other, fun _ => goes⟩
    obtain ⟨q, there, first, second⟩ := state
    refine ⟨_, o, n, q, congrArg Host.Outcome.next (runCommand_answers ok rfl ran), found, trim, opOf_respond.trans ((congrArg _ handle.symm).trans there),
      replies_of_engine pointTaken_keepsSlots (frame_mono (by decide) pointTaken_alters) (by decide) (by decide) (by decide) (by decide) (by decide),
      fun m other => (respond_chan _ m).trans (pointTaken_chan_other object other), fun one => ?_, second⟩
    obtain rfl := first one
    have shape : pointTaken (atExecution f s) f o n = drivePoint (onOp (atExecution f s) o.handle.toNat
        (firstPoint (signed 32 (bodyField f 4 4)))) n (trimPoint (isVoltage ((atExecution f s).chan n)) 2) := by
      unfold pointTaken
      dsimp only
      rw [one]
      rfl
    obtain ⟨inTrim, target, -⟩ := drivePoint_chan (s := onOp (atExecution f s) o.handle.toNat (firstPoint (signed 32 (bodyField f 4 4))))
      (n := n) (trimPoint (isVoltage ((atExecution f s).chan n)) 2)
    rw [respond_chan, shape]
    exact ⟨rfl, rfl, running, inTrim, target⟩

end TrimPoint

/-! ## A first KEY.SET (R525) -/

section FirstKey

variable {s : State} {f : CmdFrame}

theorem keySet_installs (ok : Accepted keySetCmd f s) (first : firstInstall f (atExecution f s) = true)
    (energy : shortEnergy (atExecution f s) = none) :
    ∃ t, exec (.keySet f) s = .next t ∧ Counted s t f ∧ Alters [.hands, .engine, .vault] s t ∧ t.engine.awaiting = s.engine.awaiting ∧
      t.vault.recs = s.vault.recs ∧ f.hand ∈ t.engine.writing ∧
      t.vault.pulses = s.vault.pulses ++ [{ key := .key (keyArg f), data := beBytes 16 (newKey s f), why := .install f }] := by
  let u := (atExecution f s).onVault fun v => { v with installed := v.installed ++ [Fin.ofNat 4 (bodyByte f 0 - 16)] }
  have direct : keySetCmd.cs f (atExecution f s) = false := by
    change (!firstInstall f (atExecution f s)) = false
    rw [first]
    rfl
  have ran : keySetCmd.run f (atExecution f s) =
      (.later, startWrite u f (.key (keyArg f)) (beBytes 16 (newKey (atExecution f s) f)) (.install f)) := by
    unfold keySetCmd
    dsimp only
    rw [energy]
    dsimp only
    rw [first]
    rfl
  have key : newKey (atExecution f s) f = newKey s f := rfl
  refine ⟨_, congrArg Host.Outcome.next (runCommand_later ok direct ran), counted_later ⟨rfl, rfl⟩,
    frame_startWrite (by decide) (frame_State_onVault (by decide) (frame_mono (by decide) atExecution_alters)), rfl, rfl,
    List.mem_append_right _ (List.mem_singleton_self _), ?_⟩
  rw [key]
  rfl

end FirstKey

/-- Settles O54: a lemma per command; each hypothesis of its `Accepted` is a check that fails otherwise. -/
theorem chipCommandsStartTheirWork : Obligations.ChipCommandsStartTheirWork :=
  ⟨fun f s ok => by
      obtain ⟨t, run, replies, busy, held, started⟩ := chRekindle_answers ok
      refine ⟨t, run, replies, busy, held, fun idle free works => ?_⟩
      obtain ⟨⟨due, bank, pending, commanded, forced, override, comp, latch, -⟩, control, others⟩ := started idle free works
      exact ⟨due, bank, pending, commanded, forced, override, comp, latch, control, others⟩,
    fun _ _ ok => nodeReset_answers ok, fun _ _ ok => portReset_answers ok, fun _ _ ok => pipeReset_answers ok,
    fun _ _ ok few => phySound_answers ok few, fun _ _ ok => phyMargin_answers ok,
    fun _ _ few => ⟨fun ok => trimStart_answers ok few, fun ok volatile fresh => memRepair_answers ok few volatile fresh,
      fun ok => memSweep_answers ok few, fun ok => twinMirror_answers ok few⟩,
    fun _ _ ok unique few => trimPoint_answers ok unique few, fun _ _ ok first energy => keySet_installs ok first energy⟩

end Sys2Proof.Proofs
end

section
/-! The fixed responder on a frame that is no envelope: it answers what it has buffered, whatever it is, so O55 over-claims (R463, R479). -/

namespace Sys2Proof.Proofs

open Sys2Proof Sys2Proof.Machine Sys2Proof.Safety Sys2Proof.Laws

/-- A frame with no payload at all, from port PA. -/
def emptyFrame : CmdFrame := { port := .ta, byPlace := false, hand := 0, seq := 1, srcTag := 2, payload := [] }

/-- The chip in Pass-through with this frame in the buffer of its pipeline. -/
def emptyBuffered : State :=
  { State.reset with
    supply := { Supply.reset with kindle := .up }
    tiers := { State.reset.tiers with tier := .passThrough } }.onPipe .ta fun q => { q with fixedBuf := some emptyFrame }

/-- The only frame of a queue that was empty is the one put into it. -/
theorem enqueueNode_only {s : State} {q : Nat} {x y : QFrame} (free : qFrames s q = []) (held : s.queues.heldOut = [])
    (there : y ∈ qFrames (enqueueNode s q x) q ∨ (q, y) ∈ (enqueueNode s q x).queues.heldOut) : y = x := by
  unfold enqueueNode at there
  dsimp only at there
  split at there
  · rw [qFrames_setQFrames, if_pos rfl, free] at there
    rcases there with inside | out
    · exact List.mem_singleton.mp inside
    · rw [show (setQFrames s q ([] ++ [x])).queues.heldOut = s.queues.heldOut from rfl, held] at out
      exact absurd out List.not_mem_nil
  · rw [State.onQueues_queues, held] at there
    rcases there with inside | out
    · rw [show qFrames (s.onQueues _) q = qFrames s q from rfl, free] at inside
      exact absurd inside List.not_mem_nil
    · have single : (q, y) ∈ [(q, x)] := by
        split at out <;> exact out
      exact (Prod.mk.inj (List.mem_singleton.mp single)).2

section Responder

variable {s : State} {f : CmdFrame}

/-- The state with the buffer taken and the time of the response noted. -/
def bufferTaken (s : State) (f : CmdFrame) : State := s.onPipe f.port fun q => { q with fixedBuf := none, fixedAt := some s.clock.age }

theorem fixedResponder_answers (service : inService s = true) (buffered : (s.pipe f.port).fixedBuf = some f)
    (first : (s.pipe f.port).fixedAt = none) : exec (.fixedResponder f) s = .next (fixedAnswer (bufferTaken s f) f) := by
  change execFixedResponder f s = _
  unfold execFixedResponder
  dsimp only
  rw [service, buffered, first, beq_self_eq_true]
  rfl

/-- The frame of the responder for a command other than STAT.READ. -/
def refusalFrame (s : State) (f : CmdFrame) : QFrame :=
  { (responseFrame s f (responsePayload s f 0x10 4 [] false)).1 with
    direct := true, ta := if f.port == .ta then Taken.waiting else .declined, tb := if f.port == .tb then Taken.waiting else .declined }

theorem fixedAnswer_queues (other : opcodeOf f ≠ 0x0101) :
    (fixedAnswer s f).queues = (enqueueNode (responseFrame s f (responsePayload s f 0x10 4 [] false)).2 65 (refusalFrame s f)).queues := by
  have counted : ∀ u : State, (countCmd u 0x43).queues = u.queues := fun u =>
    same_queues (frame_countCmd (L := [.events, .counters]) (by decide) (frame_refl _ u)) (by decide)
  unfold fixedAnswer
  dsimp only
  simp only [beq_eq_false_iff_ne.mpr other, if_false, Bool.false_eq_true]
  rw [counted]
  rfl

/-- The payload of the one frame the responder has queued. -/
theorem fixedAnswer_payload {q : QFrame} (other : opcodeOf f ≠ 0x0101) (free : qFrames s 65 = []) (held : s.queues.heldOut = [])
    (there : q ∈ qFrames (fixedAnswer s f) 65 ∨ (65, q) ∈ (fixedAnswer s f).queues.heldOut) :
    q.payload = responsePayload s f 0x10 4 [] false := by
  rw [qFrames_congr (fixedAnswer_queues other), fixedAnswer_queues other] at there
  rw [enqueueNode_only (s := (responseFrame s f (responsePayload s f 0x10 4 [] false)).2) free held there]
  rfl

end Responder

/-- Refutes O55: the flags and the status stand at bytes 7 and 6 of the responder's payload only where the buffered frame has the two bytes
that precede its opcode; the statement asks it of every buffered frame. -/
theorem not_checksDecideInOrderForEveryCommand : ¬ Obligations.ChecksDecideInOrderForEveryCommand := by
  unfold Obligations.ChecksDecideInOrderForEveryCommand
  rintro ⟨-, responder, -⟩
  obtain ⟨t, q, run, -, -, -, -, there, -, -, flags, -⟩ := (responder emptyFrame emptyBuffered (by decide) rfl).2 nofun
  obtain rfl : t = fixedAnswer (bufferTaken emptyBuffered emptyFrame) emptyFrame :=
    Host.Outcome.next.inj (run.symm.trans (fixedResponder_answers (by decide) rfl rfl))
  rw [fixedAnswer_payload (by decide) rfl rfl there] at flags
  exact absurd flags (by decide)

end Sys2Proof.Proofs
end

section
/-! The countersigned commands: awaiting, WARD.PROPOSE and WARD.COUNTERSIGN (R475 to R477, R528 to R530). -/

namespace Sys2Proof.Proofs

open Sys2Proof Sys2Proof.Machine Sys2Proof.Safety Sys2Proof.Laws

/-! ## Awaiting (R475) -/

section Awaiting

variable {c : Cmd} {f : CmdFrame} {s : State} {x : List Byte}

theorem execute_awaits (asks : c.cs f s = true) : execute c f s = becomeAwaiting s f (c.x f s) := if_pos asks

theorem becomeAwaiting_busy (busy : awaitBusy s f (changeDigest s f x) = true) : becomeAwaiting s f x = respond s f 0x18 0 [] := if_pos busy

/-- The state in which a command awaits, before its response. -/
def awaitEntered (s : State) (f : CmdFrame) (d : BitVec 256) : State :=
  (if underWarden f then propose s (wardenOf f) d else s).onEngine fun e =>
    { e with awaiting := e.awaiting ++ [{ f := f, digest := d, at_ := s.clock.counter }] }

theorem becomeAwaiting_enters (free : awaitBusy s f (changeDigest s f x) = false) :
    becomeAwaiting s f x = respond (awaitEntered s f (changeDigest s f x)) f 3 0 (awaitBody s f x) := by
  unfold becomeAwaiting awaitEntered
  dsimp only
  rw [if_neg (Bool.eq_false_iff.mp free)]
  by_cases warden : underWarden f = true
  · rw [if_pos warden]
    rfl
  · rw [if_neg warden]
    rfl

theorem propose_engine (w : Fin 4) (d : BitVec 256) : (propose s w d).engine = { s.engine with
    proposals := (liveProposals s).filter (fun p => !(p.warden == w && p.digest == d)) ++ [{ warden := w, digest := d, at_ := s.clock.counter }] } :=
  rfl

theorem mem_propose (w : Fin 4) (d : BitVec 256) :
    ∃ p ∈ (propose s w d).engine.proposals, p.warden = w ∧ p.digest = d ∧ p.at_ = s.clock.counter :=
  ⟨{ warden := w, digest := d, at_ := s.clock.counter }, List.mem_append_right _ (List.mem_singleton_self _), rfl, rfl, rfl⟩

theorem awaitEntered_parts (d : BitVec 256) : KeepsSlots s (awaitEntered s f d) ∧ Alters [.engine] s (awaitEntered s f d) ∧
    (awaitEntered s f d).engine.ops = s.engine.ops ∧ (∃ a ∈ (awaitEntered s f d).engine.awaiting, a.f = f ∧ a.digest = d) ∧
    (underWarden f = true → ∃ p ∈ (awaitEntered s f d).engine.proposals, p.warden = wardenOf f ∧ p.digest = d ∧ p.at_ = s.clock.counter) := by
  have entered : ∃ a ∈ (awaitEntered s f d).engine.awaiting, a.f = f ∧ a.digest = d :=
    ⟨{ f := f, digest := d, at_ := s.clock.counter }, List.mem_append_right _ (List.mem_singleton_self _), rfl, rfl⟩
  unfold awaitEntered
  by_cases warden : underWarden f = true
  · rw [if_pos warden]
    exact ⟨⟨rfl, rfl⟩, frame_State_onEngine (List.Subset.refl _) (frame_propose (List.Subset.refl _) (frame_refl _ s)), rfl,
      by unfold awaitEntered at entered; rwa [if_pos warden] at entered, fun _ => mem_propose _ d⟩
  · rw [if_neg warden]
    exact ⟨⟨rfl, rfl⟩, frame_State_onEngine (List.Subset.refl _) (frame_refl _ s), rfl,
      by unfold awaitEntered at entered; rwa [if_neg warden] at entered, fun under => absurd under warden⟩

/-- A row of a countersigned command runs as its command, whose X the acceptance leaves. -/
structure RunsAs (row : CmdFrame → Instr) (c : Cmd) : Prop where
  exec_ : ∀ f s, exec (row f) s = .next (runCommand c f s)
  x : ∀ f s, c.x f (atExecution f s) = c.x f s

theorem awaits_answers {row : CmdFrame → Instr} (runs : RunsAs row c) (ok : Accepted c f s) (asks : c.cs f (atExecution f s) = true) :
    let x := c.x f s
    let d := changeDigest s f x
    (awaitBusy (atExecution f s) f d = false →
      ∃ t, exec (row f) s = .next t ∧ Replies [.engine] s t f 3 0 (awaitBody s f x) ∧ Awaits t f d ∧ t.engine.ops = s.engine.ops ∧
        (underWarden f = true → ∃ p ∈ t.engine.proposals, p.warden = wardenOf f ∧ p.digest = d ∧ p.at_ = s.clock.counter)) ∧
    (awaitBusy (atExecution f s) f d = true → ∃ t, exec (row f) s = .next t ∧ Replies [] s t f 0x18 0 []) := by
  intro x d
  have ran : runCommand c f s = becomeAwaiting (atExecution f s) f x := by
    rw [runCommand_accepted ok, execute_awaits asks, runs.x]
  refine ⟨fun free => ?_, fun busy => ?_⟩
  · obtain ⟨keeps, alters, ops, entered, proposed⟩ := awaitEntered_parts (s := atExecution f s) (f := f) d
    obtain ⟨slots, engine, -⟩ := respond_engine (s := awaitEntered (atExecution f s) f d) (f := f) (status := 3) (flags := 0)
      (body := awaitBody s f x)
    refine ⟨_, (runs.exec_ f s).trans (congrArg Host.Outcome.next (ran.trans (becomeAwaiting_enters free))),
      replies_of_engine keeps (frame_mono (by decide) alters) (by decide) (by decide) (by decide) (by decide) (by decide), ?_, ?_, fun under => ?_⟩
    · rw [Awaits]
      exact engine ▸ entered
    · exact (congrArg Engine.ops engine).trans ops
    · have same := congrArg Engine.proposals engine
      exact same ▸ proposed under
  · exact ⟨_, (runs.exec_ f s).trans (congrArg Host.Outcome.next (ran.trans (becomeAwaiting_busy busy))), replies_of_read⟩

end Awaiting

/-! ## WARD.PROPOSE (R528) -/

section Propose

variable {f : CmdFrame} {s : State}

theorem wardPropose_answers (ok : Accepted wardProposeCmd f s) :
    ∃ t, exec (.wardPropose f) s = .next t ∧ Replies [.engine] s t f 0 0 [] ∧ t.engine.awaiting = s.engine.awaiting ∧
      (∃ p ∈ t.engine.proposals, p.warden = wardenOf f ∧ p.digest = digestArg f ∧ p.at_ = s.clock.counter) ∧
      t.engine.proposals.length ≤ 8 := by
  obtain ⟨-, -, own⟩ := accepted_checks ok
  have room : proposalRoom (atExecution f s) (wardenOf f) (digestArg f) = true := by
    have fits : (!proposalRoom (atExecution f s) (wardenOf f) (digestArg f)) = false := failIf_none.mp own
    simpa using fits
  have few : ((liveProposals (atExecution f s)).filter fun p => !(p.warden == wardenOf f && p.digest == digestArg f)).length < 8 :=
    of_decide_eq_true room
  obtain ⟨slots, engine, -⟩ := respond_engine (s := propose (atExecution f s) (wardenOf f) (digestArg f)) (f := f) (status := 0) (flags := 0)
    (body := [])
  have same := congrArg Engine.proposals engine
  refine ⟨_, congrArg Host.Outcome.next (runCommand_answers ok rfl rfl),
    replies_of_engine ⟨rfl, rfl⟩ (frame_propose (by decide) (frame_refl _ _)) (by decide) (by decide) (by decide) (by decide) (by decide),
    (congrArg Engine.awaiting engine).trans rfl, ?_, ?_⟩
  · exact same ▸ mem_propose (s := atExecution f s) (wardenOf f) (digestArg f)
  · rw [same, propose_engine, List.length_append]
    exact few

end Propose

/-! ## What authenticates a response (R466, R470) -/

section Keys

variable {s t u : State} {f g : CmdFrame} {status flags : Nat} {body : List Byte}

/-- Two states with the same keys and sessions: they authenticate alike. -/
structure SameKeys (s t : State) : Prop where
  die : t.dieId = s.dieId
  recs : t.vault.recs = s.vault.recs
  claimed : vaultClaimed t.vault = vaultClaimed s.vault
  commission : t.vault.commission = s.vault.commission
  sessions : ∀ k : Fin 20, t.engine.slots[k].session = s.engine.slots[k].session

theorem sameKeys_refl (s : State) : SameKeys s s := ⟨rfl, rfl, rfl, rfl, fun _ => rfl⟩

theorem sameKeys_trans (first : SameKeys s t) (second : SameKeys t u) : SameKeys s u :=
  ⟨second.die.trans first.die, second.recs.trans first.recs, second.claimed.trans first.claimed, second.commission.trans first.commission,
    fun k => (second.sessions k).trans (first.sessions k)⟩

theorem sameKeys_of_slots (die : t.dieId = s.dieId) (vault : t.vault = s.vault) (slots : t.engine.slots = s.engine.slots) : SameKeys s t :=
  ⟨die, by rw [vault], by rw [vault], by rw [vault], fun k => by rw [slots]⟩

theorem sameKeys_atExecution : SameKeys s (atExecution f s) where
  die := rfl
  recs := rfl
  claimed := rfl
  commission := rfl
  sessions := fun k => by
    by_cases own : k = keySlot f
    · subst own
      rw [atExecution_slot]
    · rw [atExecution_slot_other own]

theorem sameKeys_respond : SameKeys s (respond s f status flags body) := by
  obtain ⟨slots, engine, others, r, own⟩ := respond_engine (s := s) (f := f) (status := status) (flags := flags) (body := body)
  have vault : (respond s f status flags body).vault = s.vault := same_vault respond_alters (by decide)
  refine ⟨same_dieId respond_alters (by decide), by rw [vault], by rw [vault], by rw [vault], fun k => ?_⟩
  rw [engine]
  by_cases mine : k = keySlot f
  · have session := congrArg KeySess.session own
    rw [mine]
    exact session
  · exact congrArg KeySess.session (others k mine)

theorem slotKey_sameKeys (same : SameKeys s t) (k : Fin 20) : slotKey t k = slotKey s k := by
  have look : t.vault.look (.key k) = s.vault.look (.key k) := by
    unfold Vault.look Vault.find
    rw [same.recs]
  unfold slotKey commissioningKey
  rw [look, same.claimed, same.commission, same.die]

theorem responsePayload_sameKeys (same : SameKeys s t) : responsePayload t f status flags body true = responsePayload s f status flags body true := by
  have mac : ∀ dir env, slotMac t f dir env = slotMac s f dir env := fun dir env => by
    unfold slotMac macMessage
    rw [slotKey_sameKeys same, same.die, same.sessions]
  unfold responsePayload
  simp only [mac]

/-- A response sent from a state that authenticates as `s` does. -/
theorem responds_sameKeys (same : SameKeys s t) : Responds s (respond t f status flags body) f status flags body := by
  obtain ⟨q, there, dest, cls, seq, payload⟩ := (respond_responds (s := t) (f := f) (status := status) (flags := flags) (body := body)).response
  exact ⟨⟨q, there, dest, cls, seq, payload.trans (responsePayload_sameKeys same)⟩⟩

theorem enqueueNode_keeps {q k : Nat} {x y : QFrame} (other : q ≠ 65) (there : y ∈ qFrames s k ∨ (k, y) ∈ s.queues.heldOut) :
    y ∈ qFrames (enqueueNode s q x) k ∨ (k, y) ∈ (enqueueNode s q x).queues.heldOut := by
  unfold enqueueNode
  dsimp only
  split
  · refine there.imp_left fun inside => ?_
    rw [qFrames_setQFrames]
    split
    · next same =>
      subst same
      exact List.mem_append_left _ inside
    · exact inside
  · refine there.imp id fun out => ?_
    rw [State.onQueues_queues, if_neg (by simpa using other)]
    exact List.mem_append_left _ out

/-- A response stays where it waits while another one is sent. -/
theorem responds_kept {status' flags' : Nat} {body' : List Byte} (sent : Responds s t g status flags body) :
    Responds s (respond t f status' flags' body') g status flags body := by
  obtain ⟨q, there, dest, cls, seq, payload⟩ := sent.response
  refine ⟨⟨q, ?_, dest, cls, seq, payload⟩⟩
  rw [qFrames_congr respond_queues, respond_queues]
  exact enqueueNode_keeps (s := (answerFrame t f status' flags' body').2) (by have := f.hand.isLt; omega) there

theorem respond_session : (respond s f status flags body).dbg.session = s.dbg.session := by
  have counted : ∀ (u : State) k n, (stepCount u k n).dbg.session = u.dbg.session := fun u k n => by
    unfold stepCount
    split
    · split <;> rfl
    · rfl
  have same : (respond s f status flags body).dbg =
      (stepCount (enqueueNode (answerFrame s f status flags body).2 (32 + f.hand.val) (answerFrame s f status flags body).1) 3 3).dbg := rfl
  rw [same, counted, same_dbg (frame_enqueueNode (L := [.queues]) (by decide) (frame_refl _ _)) (by decide)]
  rfl

/-! ## The final response (R476) -/

variable {d : Option (BitVec 256)}

theorem finalResponse_alters : Alters [.free, .queues, .engine, .dbg] s (finalResponse s f d status body) :=
  frame_finalResponse (List.Subset.refl _) (frame_refl _ s)

/-- The final response ends the proposals of its digest, and leaves the engine's other records. -/
theorem finalResponse_engine : ∃ p, (finalResponse s f d status body).engine =
    { (respond s f status 2 body).engine with proposals := p } := by
  unfold finalResponse
  dsimp only
  rw [State.onEngine_engine]
  split <;> exact ⟨_, rfl⟩

theorem finalResponse_responds (same : SameKeys s t) : Responds s (finalResponse t f d status body) f status 2 body := by
  obtain ⟨q, there, rest⟩ := (responds_sameKeys (f := f) (status := status) (flags := 2) (body := body) same).response
  exact ⟨⟨q, there, rest⟩⟩

theorem sameKeys_finalResponse : SameKeys s (finalResponse s f d status body) := by
  obtain ⟨p, engine⟩ := finalResponse_engine (s := s) (f := f) (d := d) (status := status) (body := body)
  have sent : SameKeys s (respond s f status 2 body) := sameKeys_respond
  exact ⟨sent.die, sent.recs, sent.claimed, sent.commission, fun k => by rw [engine]; exact sent.sessions k⟩

end Keys

end Sys2Proof.Proofs
end

section
/-! WARD.COUNTERSIGN: the execution of the command that awaits (R476, R529, R530). -/

namespace Sys2Proof.Proofs

open Sys2Proof Sys2Proof.Machine Sys2Proof.Safety Sys2Proof.Laws

/-! ## The executions leave keys, sessions and awaiting commands -/

section Runs

variable {u v w : State} {f : CmdFrame}

/-- What the execution of a countersigned command leaves: whatever authenticates, and the awaiting commands. -/
structure QuietRun (u v : State) : Prop where
  keys : SameKeys u v
  awaiting : v.engine.awaiting = u.engine.awaiting

theorem quietRun_refl (u : State) : QuietRun u u := ⟨sameKeys_refl u, rfl⟩

theorem quietRun_trans (first : QuietRun u v) (second : QuietRun v w) : QuietRun u w :=
  ⟨sameKeys_trans first.keys second.keys, second.awaiting.trans first.awaiting⟩

theorem quietRun_of_slots (die : v.dieId = u.dieId) (vault : v.vault = u.vault) (slots : v.engine.slots = u.engine.slots)
    (awaiting : v.engine.awaiting = u.engine.awaiting) : QuietRun u v := ⟨sameKeys_of_slots die vault slots, awaiting⟩

theorem quietRun_of_alters {l : List Part} (alters : Alters l u v) (die : .dieId ∉ l) (vault : .vault ∉ l) (engine : .engine ∉ l) :
    QuietRun u v := by
  have same := same_engine alters engine
  exact quietRun_of_slots (same_dieId alters die) (same_vault alters vault) (by rw [same]) (by rw [same])

/-- A pulse that is no claim leaves what authenticates. -/
theorem startWrite_quiet {k : VKey} {data : List Byte} {why : PulseFor} (plain : why ≠ .claim) : QuietRun u (startWrite u f k data why) := by
  refine ⟨⟨rfl, rfl, ?_, rfl, fun _ => rfl⟩, rfl⟩
  have pulse : (why == PulseFor.claim) = false := beq_eq_false_iff_ne.mpr plain
  let p : Pulse := { key := k, data := data, why := why }
  change (((u.vault.pulses ++ [p]).any fun p => p.why == PulseFor.claim) || _) = _
  rw [List.any_append, List.any_cons, List.any_nil, show (p.why == PulseFor.claim) = false from pulse, Bool.or_false, Bool.or_false]
  rfl

theorem writeRun_quiet {k : VKey} {data : CmdFrame → State → List Byte} : QuietRun u (writeRun k data f u).2 := by
  unfold writeRun
  split
  · exact quietRun_refl u
  · exact startWrite_quiet nofun

theorem requestReread_quiet : QuietRun u (requestReread u f) :=
  quietRun_of_alters (l := [.straps, .chans]) (frame_requestReread (List.Subset.refl _) (frame_refl _ u)) (by decide) (by decide) (by decide)

theorem restrapRun_quiet : QuietRun u (restrapRun f u).2 := by
  unfold restrapRun
  split
  · exact quietRun_refl u
  · exact quietRun_trans (v := u.onEngine fun e => { e with writing := e.writing ++ [f.hand] }) (quietRun_of_slots rfl rfl rfl rfl)
      requestReread_quiet

theorem opEnd_quiet {h reason : Nat} {st : OpState} : QuietRun u (opEnd u h st reason) := by
  have alters : Alters [.engine, .events] u (opEnd u h st reason) := frame_opEnd (List.Subset.refl _) (frame_refl _ u)
  refine quietRun_of_slots (same_dieId alters (by decide)) (same_vault alters (by decide)) opEnd_keepsSlots.slots ?_
  have trimmed : ∀ t : State, (trimOps t).engine.awaiting = t.engine.awaiting := fun t => by
    unfold trimOps
    dsimp only
    split
    · split <;> rfl
    · rfl
  unfold opEnd
  rw [trimmed, opEnter_engine]
  rfl

theorem memRepair_quiet : QuietRun u (memRepairCmd.run f u).2 := by
  have made : QuietRun u (createOp u f (.bank (Fin.ofNat 64 (bodyByte f 0))) (bit (bodyByte f 4) 0 && (repairEntry u f).isSome)).2 :=
    quietRun_of_slots rfl rfl rfl rfl
  change QuietRun u (if repairNothing u f then _ else _ : Reply × State).2
  split
  · exact quietRun_trans made opEnd_quiet
  · exact made

theorem keySet_quiet : QuietRun u (keySetCmd.run f u).2 := by
  unfold keySetCmd
  dsimp only
  split
  · exact quietRun_refl u
  · split
    · exact quietRun_trans (v := u.onVault fun x => { x with installed := x.installed ++ [Fin.ofNat 4 (bodyByte f 0 - 16)] })
        ⟨⟨rfl, rfl, rfl, rfl, fun _ => rfl⟩, rfl⟩ (startWrite_quiet nofun)
    · exact startWrite_quiet nofun

/-- The session a DBG.OPEN asks for, with the age at which it ends. -/
def askedSession (u : State) (f : CmdFrame) : BitVec 16 × BitVec 8 × BitVec 16 × Fin 16 × Tick :=
  (BitVec.ofNat 16 (bodyField f 0 2), BitVec.ofNat 8 (bodyByte f 2), BitVec.ofNat 16 (bodyField f 6 2), f.hand,
    u.clock.age + BitVec.ofNat 64 (bodyField f 4 2 * 2 ^ 32))

/-- The state with the session opened and its event raised. -/
def sessionOpened (u : State) (f : CmdFrame) : State :=
  raise (u.onDebug fun d => { d with session := some (askedSession u f) }) 0x1201 0x80
    (beBytes 1 f.hand.val ++ beBytes 2 (bodyField f 0 2) ++ beBytes 1 (bodyByte f 2) ++ beBytes 2 (bodyField f 4 2))

theorem dbgOpen_run : dbgOpenCmd.run f u = (.now 0 0 [], sessionOpened u f) := rfl

theorem sessionOpened_alters : Alters [.dbg, .events] u (sessionOpened u f) :=
  frame_raise (by decide) (frame_State_onDebug (by decide) (frame_refl _ u))

theorem sessionOpened_session : (sessionOpened u f).dbg.session = some (askedSession u f) := by
  have raised : Alters [.events] (u.onDebug fun d => { d with session := some (askedSession u f) }) (sessionOpened u f) :=
    frame_raise (List.Subset.refl _) (frame_refl _ _)
  rw [same_dbg raised (by decide)]
  rfl

theorem dbgOpen_quiet : QuietRun u (dbgOpenCmd.run f u).2 := by
  rw [dbgOpen_run]
  exact quietRun_of_alters sessionOpened_alters (by decide) (by decide) (by decide)

theorem countersigned_quiet : ∀ c ∈ countersigned, ∀ f u, QuietRun u (c.run f u).2 := by
  simp only [countersigned, List.forall_mem_cons, List.not_mem_nil, false_implies, implies_true, and_true]
  exact ⟨fun _ _ => restrapRun_quiet, fun _ _ => restrapRun_quiet, fun _ _ => writeRun_quiet, fun _ _ => writeRun_quiet,
    fun _ _ => quietRun_of_slots rfl rfl rfl rfl, fun _ _ => quietRun_of_slots rfl rfl rfl rfl, fun _ _ => memRepair_quiet,
    fun _ _ => quietRun_of_slots rfl rfl rfl rfl, fun _ _ => writeRun_quiet, fun _ _ => keySet_quiet, fun _ _ => dbgOpen_quiet⟩

end Runs

/-! ## The awaiting command runs (R476, R530) -/

section Awaited

variable {c : Cmd} {f : CmdFrame} {s : State} {a : Await} {k status flags : Nat} {body : List Byte} {v : State}

/-- The state in which an awaiting command is executed: it awaits no longer. -/
def awaitTaken (s : State) (a : Await) : State := s.onEngine fun e => { e with awaiting := e.awaiting.filter fun x => x.f != a.f }

theorem countersigned_find : ∀ c ∈ countersigned, countersigned.find? (fun d => d.op == c.op) = some c := by
  simp only [countersigned, List.forall_mem_cons, List.not_mem_nil, false_implies, implies_true, and_true]
  exact ⟨rfl, rfl, rfl, rfl, rfl, rfl, rfl, rfl, rfl, rfl, rfl⟩

theorem find_of_op (mem : c ∈ countersigned) (op : opcodeOf a.f = c.op) : countersigned.find? (fun d => d.op == opcodeOf a.f) = some c := by
  rw [op]
  exact countersigned_find c mem

theorem runAwaited_refused (mem : c ∈ countersigned) (op : opcodeOf a.f = c.op) (own : c.own a.f (awaitTaken s a) = some k) :
    runAwaited s a = finalResponse (awaitTaken s a) a.f (some a.digest) k [] := by
  change (match countersigned.find? (fun d => d.op == opcodeOf a.f) with
    | none => awaitTaken s a
    | some c => _) = _
  rw [find_of_op mem op]
  dsimp only
  rw [show c.own a.f (s.onEngine fun e => { e with awaiting := e.awaiting.filter fun x => x.f != a.f }) = some k from own]
  rfl

theorem runAwaited_answers (mem : c ∈ countersigned) (op : opcodeOf a.f = c.op) (own : c.own a.f (awaitTaken s a) = none)
    (ran : c.run a.f (awaitTaken s a) = (.now status flags body, v)) : runAwaited s a = finalResponse v a.f (some a.digest) status body := by
  unfold runAwaited
  dsimp only
  rw [find_of_op mem op]
  dsimp only
  rw [show c.own a.f (s.onEngine fun e => { e with awaiting := e.awaiting.filter fun x => x.f != a.f }) = none from own]
  dsimp only
  rw [show c.run a.f (s.onEngine fun e => { e with awaiting := e.awaiting.filter fun x => x.f != a.f }) = (.now status flags body, v) from ran]

theorem runAwaited_later (mem : c ∈ countersigned) (op : opcodeOf a.f = c.op) (own : c.own a.f (awaitTaken s a) = none)
    (ran : c.run a.f (awaitTaken s a) = (.later, v)) : runAwaited s a = v := by
  unfold runAwaited
  dsimp only
  rw [find_of_op mem op]
  dsimp only
  rw [show c.own a.f (s.onEngine fun e => { e with awaiting := e.awaiting.filter fun x => x.f != a.f }) = none from own]
  dsimp only
  rw [show c.run a.f (s.onEngine fun e => { e with awaiting := e.awaiting.filter fun x => x.f != a.f }) = (.later, v) from ran]

theorem finalResponse_awaiting {d : Option (BitVec 256)} : (finalResponse s f d status body).engine.awaiting = s.engine.awaiting := by
  obtain ⟨p, engine⟩ := finalResponse_engine (s := s) (f := f) (d := d) (status := status) (body := body)
  obtain ⟨slots, sent, -⟩ := respond_engine (s := s) (f := f) (status := status) (flags := 2) (body := body)
  have same := congrArg Engine.awaiting sent
  rw [engine]
  exact same

theorem finalResponse_quiet {d : Option (BitVec 256)} : QuietRun s (finalResponse s f d status body) :=
  ⟨sameKeys_finalResponse, finalResponse_awaiting⟩

/-- The execution of an awaiting command leaves what authenticates and the other awaiting commands. -/
theorem runAwaited_quiet : QuietRun (awaitTaken s a) (runAwaited s a) := by
  cases found : countersigned.find? (fun d => d.op == opcodeOf a.f) with
  | none =>
    have idle : runAwaited s a = awaitTaken s a := by
      unfold runAwaited
      dsimp only
      rw [found]
      rfl
    rw [idle]
    exact quietRun_refl _
  | some c =>
    have mem := List.mem_of_find?_eq_some found
    have op : opcodeOf a.f = c.op := by
      have same := List.find?_some found
      exact (beq_iff_eq.mp same).symm
    have quiet := countersigned_quiet c mem a.f (awaitTaken s a)
    cases own : c.own a.f (awaitTaken s a) with
    | some k =>
      rw [runAwaited_refused mem op own]
      exact finalResponse_quiet
    | none =>
      cases ran : c.run a.f (awaitTaken s a) with
      | mk reply v =>
        rw [ran] at quiet
        cases reply with
        | now status flags body =>
          rw [runAwaited_answers mem op own ran]
          exact quietRun_trans quiet finalResponse_quiet
        | later =>
          rw [runAwaited_later mem op own ran]
          exact quiet

end Awaited

end Sys2Proof.Proofs
end

section
/-! WARD.COUNTERSIGN: what each countersigned command does as it runs (R476, R529, R530, Table 17.3). -/

namespace Sys2Proof.Proofs

open Sys2Proof Sys2Proof.Machine Sys2Proof.Safety Sys2Proof.Laws

/-! ## What the final response leaves -/

section Final

variable {s : State} {f : CmdFrame} {d : Option (BitVec 256)} {status flags h : Nat} {body : List Byte}

theorem opOf_finalResponse : opOf (finalResponse s f d status body) h = opOf s h := by
  obtain ⟨p, engine⟩ := finalResponse_engine (s := s) (f := f) (d := d) (status := status) (body := body)
  have sent : opOf (respond s f status 2 body) h = opOf s h := opOf_respond
  rw [← sent]
  unfold opOf
  rw [engine]

theorem finalResponse_session : (finalResponse s f d status body).dbg.session = s.dbg.session := respond_session

theorem respond_writing : (respond s f status flags body).engine.writing = s.engine.writing := by
  obtain ⟨slots, sent, -⟩ := respond_engine (s := s) (f := f) (status := status) (flags := flags) (body := body)
  exact (congrArg Engine.writing sent).trans rfl

theorem respond_awaiting : (respond s f status flags body).engine.awaiting = s.engine.awaiting := by
  obtain ⟨slots, sent, -⟩ := respond_engine (s := s) (f := f) (status := status) (flags := flags) (body := body)
  exact (congrArg Engine.awaiting sent).trans rfl

end Final

/-! ## The awaiting command by its opcode -/

section Effects

variable {c : Cmd} {f : CmdFrame} {s : State} {a : Await} {k : VKey} {data : CmdFrame → State → List Byte}

/-- A short countersigned write with energy asks for its pulse. -/
theorem runAwaited_writes (mem : c ∈ countersigned) (op : opcodeOf a.f = c.op) (own : c.own a.f (awaitTaken s a) = none)
    (write : c.run a.f (awaitTaken s a) = writeRun k data a.f (awaitTaken s a)) (energy : shortEnergy (awaitTaken s a) = none) :
    runAwaited s a = startWrite (awaitTaken s a) a.f k (data a.f (awaitTaken s a)) (.final a.f) := by
  refine runAwaited_later mem op own (write.trans ?_)
  unfold writeRun
  rw [energy]

theorem runAwaited_keySet (op : opcodeOf a.f = 0x1201) (own : keySetCmd.own a.f (awaitTaken s a) = none)
    (energy : shortEnergy (awaitTaken s a) = none) (later : firstInstall a.f (awaitTaken s a) = false) :
    runAwaited s a = startWrite (awaitTaken s a) a.f (.key (keyArg a.f)) (beBytes 16 (newKey (awaitTaken s a) a.f)) (.final a.f) := by
  refine runAwaited_later (c := keySetCmd) (by simp [countersigned]) op own ?_
  unfold keySetCmd
  dsimp only
  rw [energy]
  dsimp only
  rw [later]
  rfl

theorem runAwaited_restraps (mem : c ∈ countersigned) (op : opcodeOf a.f = c.op) (own : c.own a.f (awaitTaken s a) = none)
    (restrap : c.run a.f (awaitTaken s a) = restrapRun a.f (awaitTaken s a)) (energy : restrapEnergy (awaitTaken s a) = none) :
    runAwaited s a = requestReread ((awaitTaken s a).onEngine fun e => { e with writing := e.writing ++ [a.f.hand] }) a.f := by
  refine runAwaited_later mem op own (restrap.trans ?_)
  unfold restrapRun
  rw [energy]

/-- A re-read asked for runs at once where none does, and is held behind one that does (R61). -/
theorem requestReread_straps (u : State) (g : CmdFrame) :
    (u.straps.reread = none → ∃ q, (requestReread u g).straps.reread = some q ∧ q.f = g ∧ q.at_ = u.clock.age) ∧
    (u.straps.reread ≠ none → (requestReread u g).straps.reread = u.straps.reread ∧
      (requestReread u g).straps.rereadQueue = u.straps.rereadQueue ++ [g]) := by
  refine ⟨fun idle => ?_, fun busy => ?_⟩
  · let v := u.onStraps fun t => { t with reread := some { f := g, pins := restrapPins g, rounds := [], at_ := u.clock.age } }
    have started : Alters [.chans] v (startReread u g) := by
      unfold startReread
      dsimp only
      split
      · split
        · exact frame_bankNow (by decide) (frame_State_onChan (by decide) (frame_staleBegin (by decide) (frame_refl _ v)))
        · exact frame_State_onChan (by decide) (frame_staleBegin (by decide) (frame_refl _ v))
      · exact frame_refl _ v
    unfold requestReread
    rw [idle]
    exact ⟨_, congrArg (fun t => t.reread) (same_straps started (by decide)), rfl, rfl⟩
  · unfold requestReread
    rw [if_neg (by simpa using busy)]
    exact ⟨rfl, rfl⟩

/-- A trim whose commit has been countersigned. -/
def committedOp (u : State) (f : CmdFrame) (o : Op) : Op :=
  let k : Op := { o with state := .queued, gated := true, commit := some f, timing := false }
  { k with reason := BitVec.ofNat 8 (opReason u k) }

theorem runAwaited_trimCommit (op : opcodeOf a.f = 0x0D03) (own : trimCommitCmd.own a.f (awaitTaken s a) = none) :
    ∃ o, opOf (runAwaited s a) (bodyField a.f 0 2) = some o ∧ o.state = .queued ∧ o.gated = true ∧ o.commit = some a.f := by
  obtain ⟨o, -, found, -, -⟩ := withOp_none own
  have ran : runAwaited s a = onOp (awaitTaken s a) (handleArg a.f) (committedOp (awaitTaken s a) a.f) :=
    runAwaited_later (c := trimCommitCmd) (by simp [countersigned]) op own rfl
  rw [ran]
  exact ⟨_, (opOf_onOp (f := committedOp (awaitTaken s a) a.f) fun _ => rfl).trans (congrArg _ found), rfl, rfl, rfl⟩

/-- A countersigned command that creates its operation. -/
theorem runAwaited_creates {obj : OpObject} {gated : Bool} (mem : c ∈ countersigned) (op : opcodeOf a.f = c.op)
    (own : c.own a.f (awaitTaken s a) = none) (few : (awaitTaken s a).engine.ops.length ≤ 80)
    (ran : c.run a.f (awaitTaken s a) = created (createOp (awaitTaken s a) a.f obj gated)) :
    ∃ (o : Op) (v : State), runAwaited s a = finalResponse v a.f (some a.digest) 1 (beBytes 2 o.handle.toNat) ∧ SameKeys (awaitTaken s a) v ∧
      opOf v o.handle.toNat = some o ∧ o.state = .queued ∧ o.hand = a.f.hand ∧ o.f = a.f := by
  have fresh : FreshOp (awaitTaken s a) (newOp (awaitTaken s a) a.f obj gated) := newOp_fresh few
  obtain ⟨hand, -, -, state, own', -⟩ := newOp_parts (s := awaitTaken s a) (f := a.f) (obj := obj) (gated := gated)
  rw [createOp_eq] at ran
  generalize newOp (awaitTaken s a) a.f obj gated = o at ran fresh hand state own'
  exact ⟨o, opMade (awaitTaken s a) o, runAwaited_answers mem op own ran, sameKeys_of_slots rfl rfl rfl, opOf_opMade fresh, state, hand, own'⟩

theorem runAwaited_memRepair {work : repairNothing (awaitTaken s a) a.f = false} : memRepairCmd.run a.f (awaitTaken s a) =
    created (createOp (awaitTaken s a) a.f (.bank (Fin.ofNat 64 (bodyByte a.f 0)))
      (bit (bodyByte a.f 4) 0 && (repairEntry (awaitTaken s a) a.f).isSome)) := by
  change (if repairNothing (awaitTaken s a) a.f then _ else _) = _
  rw [work]
  rfl

end Effects

/-! ## The answer of a WARD.COUNTERSIGN -/

section Countersign

variable {f : CmdFrame} {s : State} {a : Await} {c : Cmd}

/-- An accepted countersign finds the command that awaits with its digest, and another warden's proposal of it. -/
theorem wardCountersign_finds (ok : Accepted wardCountersignCmd f s) : ∃ a, awaited s (digestArg f) = some a ∧
    ∃ p ∈ s.engine.proposals, p.digest = digestArg f ∧ p.warden ≠ wardenOf f := by
  obtain ⟨-, -, own⟩ := accepted_checks ok
  let ps := (liveProposals s).filter fun p => p.digest == digestArg f
  have fits : firstFail [failIf ((awaited s (digestArg f)).isNone || ps.isEmpty) 0x27, failIf (ps.all fun p => p.warden == wardenOf f) 0x13] = none :=
    own
  obtain ⟨there, other, -⟩ := (firstFail_cons.trans (and_congr_right fun _ => firstFail_cons)).mp fits
  have some_ := (Bool.or_eq_false_iff.mp (failIf_none.mp there)).1
  obtain ⟨p, mem, warden⟩ := List.all_eq_false.mp (failIf_none.mp other)
  obtain ⟨live, digest⟩ := List.mem_filter.mp mem
  cases found : awaited s (digestArg f) with
  | none => rw [found] at some_; exact absurd some_ nofun
  | some a => exact ⟨a, rfl, p, (List.mem_filter.mp live).1, beq_iff_eq.mp digest, fun same => warden (beq_iff_eq.mpr same)⟩

/-- The state after the countersigned command, before the countersign's own response. -/
def countersignRun (s : State) (f : CmdFrame) (a : Await) : State := runAwaited (atExecution f s) a

theorem wardCountersign_run (ok : Accepted wardCountersignCmd f s) (found : awaited s (digestArg f) = some a) :
    exec (.wardCountersign f) s = .next (respond (countersignRun s f a) f 0 0 []) := by
  have ran : wardCountersignCmd.run f (atExecution f s) = (.now 0 0 [], countersignRun s f a) := by
    unfold wardCountersignCmd
    dsimp only
    rw [show awaited (atExecution f s) (digestArg f) = some a from found]
    rfl
  exact congrArg Host.Outcome.next (runCommand_answers ok rfl ran)

theorem sameKeys_taken : SameKeys s (awaitTaken (atExecution f s) a) :=
  sameKeys_trans sameKeys_atExecution (sameKeys_of_slots rfl rfl rfl)

theorem sameKeys_countersignRun : SameKeys s (countersignRun s f a) := sameKeys_trans sameKeys_taken runAwaited_quiet.keys

theorem countersign_refuses (mem : c ∈ countersigned) {k : Nat} (op : opcodeOf a.f = c.op)
    (own : c.own a.f (awaitTaken (atExecution f s) a) = some k) :
    let t := respond (countersignRun s f a) f 0 0 []
    Responds s t a.f k 2 [] ∧ t.vault = s.vault ∧ t.straps = s.straps ∧ t.seat = s.seat ∧ t.chans = s.chans := by
  intro t
  have ran : countersignRun s f a = finalResponse (awaitTaken (atExecution f s) a) a.f (some a.digest) k [] := runAwaited_refused mem op own
  have alters : Alters [.free, .queues, .engine, .dbg] (awaitTaken (atExecution f s) a) t := by
    unfold t
    rw [ran]
    exact frame_respond (by decide) finalResponse_alters
  refine ⟨?_, (same_vault alters (by decide)).trans rfl, (same_straps alters (by decide)).trans rfl, (same_seat alters (by decide)).trans rfl,
    (same_chans alters (by decide)).trans rfl⟩
  unfold t
  rw [ran]
  exact responds_kept (finalResponse_responds sameKeys_taken)

theorem respond_vault (u : State) {status flags : Nat} {body : List Byte} : (respond u f status flags body).vault = u.vault :=
  same_vault respond_alters (by decide)

/-- What a countersigned operation shows: it is Queued, and its handle is the final response. -/
theorem countersign_creates {obj : OpObject} {gated : Bool} (mem : c ∈ countersigned) (op : opcodeOf a.f = c.op)
    (own : c.own a.f (awaitTaken (atExecution f s) a) = none) (few : s.engine.ops.length ≤ 80)
    (ran : c.run a.f (awaitTaken (atExecution f s) a) = created (createOp (awaitTaken (atExecution f s) a) a.f obj gated)) :
    let t := respond (countersignRun s f a) f 0 0 []
    ∃ o, opOf t o.handle.toNat = some o ∧ o.state = .queued ∧ o.hand = a.f.hand ∧ o.f = a.f ∧
      Responds s t a.f 1 2 (beBytes 2 o.handle.toNat) := by
  intro t
  obtain ⟨o, v, final, keys, made, state, hand, own'⟩ := runAwaited_creates mem op own few ran
  have shape : t = respond (finalResponse v a.f (some a.digest) 1 (beBytes 2 o.handle.toNat)) f 0 0 [] := by
    unfold t countersignRun
    rw [final]
  rw [shape]
  exact ⟨o, opOf_respond.trans (opOf_finalResponse.trans made), state, hand, own', responds_kept (finalResponse_responds (sameKeys_trans sameKeys_taken keys))⟩

theorem countersign_opens (op : opcodeOf a.f = 0x1301) (own : dbgOpenCmd.own a.f (awaitTaken (atExecution f s) a) = none) :
    let t := respond (countersignRun s f a) f 0 0 []
    t.dbg.session = some (askedSession s a.f) ∧ Responds s t a.f 0 2 [] := by
  intro t
  have final : countersignRun s f a = finalResponse (sessionOpened (awaitTaken (atExecution f s) a) a.f) a.f (some a.digest) 0 [] :=
    runAwaited_answers (c := dbgOpenCmd) (by simp [countersigned]) op own dbgOpen_run
  have keys : SameKeys (awaitTaken (atExecution f s) a) (sessionOpened (awaitTaken (atExecution f s) a) a.f) :=
    (quietRun_of_alters sessionOpened_alters (by decide) (by decide) (by decide)).keys
  have shape : t = respond (finalResponse (sessionOpened (awaitTaken (atExecution f s) a) a.f) a.f (some a.digest) 0 []) f 0 0 [] := by
    unfold t
    rw [final]
  rw [shape]
  exact ⟨respond_session.trans (finalResponse_session.trans sessionOpened_session), responds_kept (finalResponse_responds (sameKeys_trans sameKeys_taken keys))⟩

theorem countersign_restraps (mem : c ∈ countersigned) (op : opcodeOf a.f = c.op) (own : c.own a.f (awaitTaken (atExecution f s) a) = none)
    (restrap : c.run a.f (awaitTaken (atExecution f s) a) = restrapRun a.f (awaitTaken (atExecution f s) a))
    (energy : restrapEnergy (awaitTaken (atExecution f s) a) = none) :
    let t := respond (countersignRun s f a) f 0 0 []
    (s.straps.reread = none → ∃ q, t.straps.reread = some q ∧ q.f = a.f ∧ q.at_ = s.clock.age) ∧
    (s.straps.reread ≠ none → t.straps.reread = s.straps.reread ∧ t.straps.rereadQueue = s.straps.rereadQueue ++ [a.f]) := by
  intro t
  have ran := runAwaited_restraps mem op own restrap energy
  have straps : t.straps = (countersignRun s f a).straps := same_straps respond_alters (by decide)
  let u := (awaitTaken (atExecution f s) a).onEngine fun e => { e with writing := e.writing ++ [a.f.hand] }
  have ran' : countersignRun s f a = requestReread u a.f := ran
  have same : u.straps = s.straps := rfl
  have age : u.clock.age = s.clock.age := rfl
  clear_value u
  rw [straps, ran', ← same, ← age]
  exact requestReread_straps u a.f

end Countersign

end Sys2Proof.Proofs
end

section
/-! The statement on the countersigned commands. -/

namespace Sys2Proof.Proofs

open Sys2Proof Sys2Proof.Machine Sys2Proof.Safety Sys2Proof.Laws

section Countersigned

variable {f : CmdFrame} {s : State} {a : Await}

/-- The countersigned command's effect by its opcode, in the state that the countersign leaves. -/
structure CountersignEffects (s : State) (f : CmdFrame) (a : Await) (u t : State) : Prop where
  refused : ∀ c ∈ countersigned, ∀ k, opcodeOf a.f = c.op → c.own a.f u = some k →
    Responds s t a.f k 2 [] ∧ t.vault = s.vault ∧ t.straps = s.straps ∧ t.seat = s.seat ∧ t.chans = s.chans
  ward : opcodeOf a.f = 0x1103 → wardSetCmd.own a.f u = none → shortEnergy u = none →
    t.vault.pulses = s.vault.pulses ++ [{ key := .ward (wardHand a.f), data := wardArg a.f, why := .final a.f }] ∧ a.f.hand ∈ t.engine.writing
  key : opcodeOf a.f = 0x1201 → keySetCmd.own a.f u = none → shortEnergy u = none → firstInstall a.f u = false →
    t.vault.pulses = s.vault.pulses ++ [{ key := .key (keyArg a.f), data := beBytes 16 (newKey s a.f), why := .final a.f }]
  adopt : opcodeOf a.f = 0x0903 → nodeAdoptCmd.own a.f u = none → shortEnergy u = none →
    t.vault.pulses = s.vault.pulses ++ [{ key := .protection, data := adoptData a.f s, why := .final a.f }]
  mask : opcodeOf a.f = 0x0C03 → phyMaskCmd.own a.f u = none → shortEnergy u = none →
    t.vault.pulses = s.vault.pulses ++ [{ key := .mask, data := cmdBody a.f, why := .final a.f }]

theorem countersign_effects : CountersignEffects s f a (awaitTaken (atExecution f s) a) (respond (countersignRun s f a) f 0 0 []) := by
  have key : newKey (awaitTaken (atExecution f s) a) a.f = newKey s a.f := by
    unfold newKey
    rw [slotKey_sameKeys sameKeys_taken]
  refine ⟨fun c mem k op own => countersign_refuses mem op own, fun op own energy => ?_, fun op own energy later => ?_, fun op own energy => ?_,
    fun op own energy => ?_⟩
  · have ran : countersignRun s f a = _ :=
      runAwaited_writes (c := wardSetCmd) (k := .ward (wardHand a.f)) (data := fun f _ => wardArg f) (by simp [countersigned]) op own rfl energy
    rw [respond_vault, respond_writing, ran]
    exact ⟨rfl, List.mem_append_right _ (List.mem_singleton_self _)⟩
  · have ran : countersignRun s f a = _ := runAwaited_keySet op own energy later
    rw [respond_vault, ran, key]
    rfl
  · have ran : countersignRun s f a = _ := runAwaited_writes (c := nodeAdoptCmd) (k := .protection) (data := adoptData) (by simp [countersigned]) op own rfl energy
    rw [respond_vault, ran]
    rfl
  · have ran : countersignRun s f a = _ :=
      runAwaited_writes (c := phyMaskCmd) (k := .mask) (data := fun f _ => cmdBody f) (by simp [countersigned]) op own rfl energy
    rw [respond_vault, ran]
    rfl

/-- What the countersign itself answers and leaves. -/
theorem wardCountersign_answers :
    let t := respond (countersignRun s f a) f 0 0 []
    Responds s t f 0 0 [] ∧ Alters [.free, .straps, .queues, .hands, .chans, .engine, .vault, .seat, .events, .dbg] s t ∧
      ∀ b ∈ t.engine.awaiting, b.f ≠ a.f ∧ b ∈ s.engine.awaiting := by
  intro t
  refine ⟨responds_sameKeys sameKeys_countersignRun,
    frame_respond (by decide) (frame_runAwaited (by decide) (frame_mono (by decide) atExecution_alters)), fun b mem => ?_⟩
  have awaiting : t.engine.awaiting = (awaitTaken (atExecution f s) a).engine.awaiting := respond_awaiting.trans runAwaited_quiet.awaiting
  rw [awaiting] at mem
  obtain ⟨there, other⟩ := List.mem_filter.mp mem
  exact ⟨bne_iff_ne.mp other, there⟩

theorem countersigned_rows : ∀ r ∈ ([(Instr.chRestrap, chRestrapCmd), (Instr.nodeRestrap, nodeRestrapCmd), (Instr.nodeAdopt, nodeAdoptCmd),
      (Instr.phyMask, phyMaskCmd), (Instr.trimCommit, trimCommitCmd), (Instr.curveLoad, curveLoadCmd), (Instr.memRepair, memRepairCmd),
      (Instr.twinRelease, twinReleaseCmd), (Instr.wardSet, wardSetCmd), (Instr.keySet, keySetCmd), (Instr.dbgOpen, dbgOpenCmd)] :
      List ((CmdFrame → Instr) × Cmd)), RunsAs r.1 r.2 := by
  simp only [List.forall_mem_cons, List.not_mem_nil, false_implies, implies_true, and_true]
  have plain : ∀ {row : CmdFrame → Instr} {c : Cmd}, (∀ f s, exec (row f) s = .next (runCommand c f s)) → c.x = noX → RunsAs row c :=
    fun runs none_ => ⟨runs, fun f s => by rw [none_]; rfl⟩
  exact ⟨plain (fun _ _ => rfl) rfl, plain (fun _ _ => rfl) rfl, plain (fun _ _ => rfl) rfl, plain (fun _ _ => rfl) rfl, ⟨fun _ _ => rfl, fun _ _ => rfl⟩,
    plain (fun _ _ => rfl) rfl, plain (fun _ _ => rfl) rfl, plain (fun _ _ => rfl) rfl, plain (fun _ _ => rfl) rfl, plain (fun _ _ => rfl) rfl,
    plain (fun _ _ => rfl) rfl⟩

end Countersigned

/-- Settles O56: every countersigned row awaits in one way; the countersign runs the command that awaits, whose execution leaves the keys and
sessions that authenticate both responses. -/
theorem countersignedCommandsAwaitAndRun : Obligations.CountersignedCommandsAwaitAndRun := by
  refine ⟨fun r mem f s ok asks => awaits_answers (countersigned_rows r mem) ok asks, fun f s ok => wardPropose_answers ok, fun f s ok => ?_⟩
  obtain ⟨a, found, proposed⟩ := wardCountersign_finds ok
  obtain ⟨responds, alters, awaiting⟩ := wardCountersign_answers (s := s) (f := f) (a := a)
  obtain ⟨refused, ward, key, adopt, mask⟩ := countersign_effects (s := s) (f := f) (a := a)
  refine ⟨a, _, found, wardCountersign_run ok found, responds, alters, proposed, awaiting, refused, ward, key, adopt, mask, ?_, ?_, ?_, ?_, ?_⟩
  · intro restrap energy channel node
    rcases restrap with op | op
    · exact countersign_restraps (c := chRestrapCmd) (by simp [countersigned]) op (channel op) rfl energy
    · exact countersign_restraps (c := nodeRestrapCmd) (by simp [countersigned]) op (node op) rfl energy
  · intro op own
    obtain ⟨o, there, rest⟩ := runAwaited_trimCommit op own
    exact ⟨o, opOf_respond.trans there, rest⟩
  · intro creates few room load
    rcases creates with op | ⟨op, work⟩
    · exact countersign_creates (c := curveLoadCmd) (by simp [countersigned]) op (load op) few rfl
    · exact countersign_creates (c := memRepairCmd) (by simp [countersigned]) op room few (runAwaited_memRepair (work := work))
  · intro op own
    have ran : countersignRun s f a = (awaitTaken (atExecution f s) a).onSeat fun t => { t with release := some a.f } :=
      runAwaited_later (c := twinReleaseCmd) (by simp [countersigned]) op own rfl
    rw [same_seat (respond_alters (s := countersignRun s f a)) (by decide), ran]
    rfl
  · intro op own
    exact countersign_opens op own

end Sys2Proof.Proofs
end

section
/-! The vault's records and the end of a programme pulse (17_ward_and_countersign.md, R515, R518, Table 17.4). -/

namespace Sys2Proof.Proofs

open Sys2Proof Sys2Proof.Machine Sys2Proof.Safety Sys2Proof.Laws

/-! ## Records (R515, R516) -/

section Records

theorem genNewer_next (g : BitVec 16) : genNewer (g + 1) g = true ∧ genNewer g (g + 1) = false := by
  have up : g + 1 - g = 1 := by rw [add_sub_cancel_left]
  have down : g - (g + 1) = -1 := by rw [sub_add_cancel_left]
  unfold genNewer
  rw [up, down]
  exact ⟨rfl, rfl⟩

theorem written_good (g : BitVec 16) (d : List Byte) : VCopy.good { gen := g, data := d, crc := crc32 (d ++ beBytes 2 g.toNat) } = true :=
  beq_self_eq_true _

/-- A record reads as the data of its last programme pulse. -/
theorem program_look (r : VRec) (d : List Byte) : (r.program d).look = .data d := by
  unfold VRec.program
  extract_lets newA g c
  have good : c.good = true := written_good g d
  by_cases first : newA = true
  · have whole : r.a.good = true := (Bool.and_eq_true_iff.mp first).1
    have gen : c.gen = r.a.gen + 1 := congrArg (· + 1) (if_pos first)
    rw [if_pos first]
    unfold VRec.look
    dsimp only
    rw [whole, good, gen, (genNewer_next r.a.gen).2]
    rfl
  · have gen : c.gen = r.b.gen + 1 := congrArg (· + 1) (if_neg first)
    rw [if_neg first]
    unfold VRec.look
    dsimp only
    rw [good, gen, (genNewer_next r.b.gen).1]
    cases r.b.good <;> rfl

theorem first_look (d : List Byte) : (VRec.first d).look = .data d := by
  have good : (VRec.first d).a.good = true := written_good _ d
  have blank : (VRec.first d).b.good = false := by
    have apart : ∀ x : BitVec 32, ~~~x ≠ x := fun x same => by
      have low := congrArg (fun y => y.getLsbD 0) same
      simp at low
    exact beq_eq_false_iff_ne.mpr (apart _)
  unfold VRec.look
  rw [good, blank]
  rfl

variable {v : Vault} {k j : VKey} {d : List Byte}

theorem find_store (v : Vault) (k : VKey) (d : List Byte) : ∃ r, (v.store k d).find k = some r ∧ r.look = .data d := by
  unfold Vault.store
  cases found : v.find k with
  | some r =>
    refine ⟨r.program d, ?_, program_look r d⟩
    unfold Vault.find at found ⊢
    obtain ⟨e, there, rfl⟩ := Option.map_eq_some_iff.mp found
    have key : e.1 = k := by
      have same := List.find?_some there
      exact beq_iff_eq.mp same
    dsimp only
    rw [List.find?_map]
    have same : ((fun e : VKey × VRec => e.1 == k) ∘ fun x => if x.1 == k then (k, e.2.program d) else x) = fun x => x.1 == k := by
      funext x
      dsimp only [Function.comp]
      split
      · next eq => rw [eq]; exact beq_self_eq_true k
      · rfl
    rw [same, there, Option.map_some, Option.map_some, if_pos (beq_iff_eq.mpr key)]
  | none =>
    refine ⟨VRec.first d, ?_, first_look d⟩
    unfold Vault.find at found ⊢
    have none_ := Option.map_eq_none_iff.mp found
    dsimp only
    rw [List.find?_append, none_]
    simp

theorem find_store_other (other : j ≠ k) : (v.store k d).find j = v.find j := by
  unfold Vault.store
  split
  · next r _ =>
    unfold Vault.find
    dsimp only
    have skips : ∀ l : List (VKey × VRec), ((l.map fun e => if e.1 == k then (k, r.program d) else e).find? fun e => e.1 == j) =
        l.find? fun e => e.1 == j := fun l => by
      induction l with
      | nil => rfl
      | cons e l ih =>
        rw [List.map_cons, List.find?_cons, List.find?_cons, ih]
        by_cases key : e.1 = k
        · rw [if_pos (beq_iff_eq.mpr key)]
          dsimp only
          rw [key, beq_eq_false_iff_ne.mpr other.symm]
        · rw [if_neg (by simpa using key)]
    rw [skips]
  · unfold Vault.find
    dsimp only
    rw [List.find?_append]
    have apart : [(k, VRec.first d)].find? (fun e => e.1 == j) = none := by
      simpa using other.symm
    rw [apart, Option.or_none]

theorem look_store : (v.store k d).look k = .data d := by
  obtain ⟨r, found, look⟩ := find_store v k d
  unfold Vault.look
  rw [found]
  exact look

theorem look_store_other (other : j ≠ k) : (v.store k d).look j = v.look j := by
  unfold Vault.look
  rw [find_store_other other]

theorem store_parts (v : Vault) (k : VKey) (d : List Byte) : (v.store k d).pulses = v.pulses ∧ (v.store k d).wardLock = v.wardLock := by
  unfold Vault.store
  split <;> exact ⟨rfl, rfl⟩

end Records

/-! ## Frames that wait stay (R309, R470) -/

section Frames

variable {s t u : State}

/-- Every frame in a queue, or held for one, stays there. -/
structure KeepsFrames (s t : State) : Prop where
  keeps : ∀ k y, y ∈ qFrames s k ∨ (k, y) ∈ s.queues.heldOut → y ∈ qFrames t k ∨ (k, y) ∈ t.queues.heldOut

theorem keepsFrames_trans (first : KeepsFrames s t) (second : KeepsFrames t u) : KeepsFrames s u :=
  ⟨fun k y there => second.keeps k y (first.keeps k y there)⟩

theorem keepsFrames_of_queues (same : t.queues = s.queues) : KeepsFrames s t :=
  ⟨fun k y there => by rw [qFrames_congr same, same]; exact there⟩

theorem keepsFrames_of_alters {l : List Part} (alters : Alters l s t) (queues : .queues ∉ l) : KeepsFrames s t :=
  keepsFrames_of_queues (same_queues alters queues)

theorem responds_keepsFrames {f : CmdFrame} {status flags : Nat} {body : List Byte} (sent : Responds s t f status flags body)
    (keeps : KeepsFrames t u) : Responds s u f status flags body := by
  obtain ⟨q, there, rest⟩ := sent.response
  exact ⟨⟨q, keeps.keeps _ _ there, rest⟩⟩

theorem enqueueHand_keepsFrames (q : Nat) (x : QFrame) : KeepsFrames s (enqueueHand s q x).2 := by
  unfold enqueueHand
  split
  · exact keepsFrames_of_queues rfl
  · dsimp only
    split
    · exact keepsFrames_of_queues rfl
    · split
      · exact keepsFrames_of_alters (l := [.hands, .events, .counters]) (frame_quotaRefusal (by decide) (frame_refl _ s)) (by decide)
      · refine ⟨fun k y there => there.imp_left fun inside => ?_⟩
        rw [qFrames_setQFrames]
        split
        · next same =>
          subst same
          exact List.mem_append_left _ inside
        · exact inside

theorem buildStreamFrame_keepsFrames (x : Stream) (n : Nat) : KeepsFrames s (buildStreamFrame s x n) := by
  unfold buildStreamFrame
  extract_lets pay hdr r q
  have drawn : KeepsFrames s r.2 := keepsFrames_of_queues rfl
  have queued : KeepsFrames r.2 q.2 := enqueueHand_keepsFrames _ _
  exact keepsFrames_trans drawn (keepsFrames_trans queued (keepsFrames_of_queues rfl))

theorem closeStream_keepsFrames (sid : Nat) : KeepsFrames s (closeStream s sid) := by
  unfold closeStream
  split
  · exact keepsFrames_of_queues rfl
  · split
    · exact keepsFrames_of_queues rfl
    · extract_lets s1
      have closed : KeepsFrames s s1 := keepsFrames_of_queues rfl
      split
      · split
        · exact closed
        · exact keepsFrames_trans closed (buildStreamFrame_keepsFrames ..)
      · exact closed

theorem closeStreamEvent_keepsFrames (sid cause ch : Nat) : KeepsFrames s (closeStreamEvent s sid cause ch) := by
  unfold closeStreamEvent
  split
  · exact keepsFrames_of_queues rfl
  · split
    · exact keepsFrames_of_queues rfl
    · exact keepsFrames_trans (closeStream_keepsFrames sid) (keepsFrames_of_queues raise_queues)

/-- A change of a ward entry puts the last frames of the streams it closes behind those that wait. -/
theorem wardChanged_keepsFrames (h : Fin 16) (old new : List Byte) : KeepsFrames s (wardChanged s h old new) := by
  unfold wardChanged
  extract_lets lostOwn lostRead s1 s2 s3
  have dropped : KeepsFrames s s1 := each_keeps (P := KeepsFrames s) (fun c x kept => keepsFrames_trans kept
    (keepsFrames_of_alters (l := [.chans, .seat]) (frame_dropPending (List.Subset.refl _) (frame_refl _ x)) (by decide))) (keepsFrames_of_queues rfl)
  have closed : KeepsFrames s1 s2 := each_keeps (P := KeepsFrames s1) (fun c x kept => each_keeps (P := KeepsFrames s1)
    (fun sid y kept' => keepsFrames_trans kept' (closeStreamEvent_keepsFrames ..)) kept) (keepsFrames_of_queues rfl)
  have freed : KeepsFrames s2 s3 := keepsFrames_of_alters (l := [.chans]) (frame_freeGrids (List.Subset.refl _) (frame_refl _ s2)) (by decide)
  have way := keepsFrames_trans dropped (keepsFrames_trans closed freed)
  split
  · exact keepsFrames_trans way (keepsFrames_of_alters (l := [.events, .dbg]) (frame_closeSession (List.Subset.refl _) (frame_refl _ s3)) (by decide))
  · exact way

end Frames

end Sys2Proof.Proofs
end

section
/-! VAULT_WRITE_END, COUNTERSIGN_EXPIRY, PROPOSAL_LAPSE, COMMISSION_CHANGE, VAULT_CLAIM and WARD_LOCK_CHANGE (R476, R515 to R531). -/

namespace Sys2Proof.Proofs

open Sys2Proof Sys2Proof.Machine Sys2Proof.Safety Sys2Proof.Laws

/-! ## The final response of a write (R518) -/

section Final

variable {s t : State} {f : CmdFrame} {x : List Byte} {status : Nat}

theorem pulseFinal_alters : Alters [.free, .queues, .engine, .dbg] s (pulseFinal s f x status) :=
  frame_pulseFinal (List.Subset.refl _) (frame_refl _ s)

theorem pulseFinal_writing : f.hand ∉ (pulseFinal s f x status).engine.writing := fun mem => by
  have other := (List.mem_filter.mp mem).2
  simp at other

theorem pulseFinal_responds (keys : SameKeys s t) (service : inService t = true) : Responds s (pulseFinal t f x status) f status 2 [] := by
  unfold pulseFinal
  dsimp only
  rw [if_pos service]
  obtain ⟨q, there, rest⟩ := (finalResponse_responds (f := f) (d := some (changeDigest t f x)) (status := status) (body := []) keys).response
  exact ⟨⟨q, there, rest⟩⟩

theorem pulseFinal_sessions (k : Fin 20) : (pulseFinal s f x status).engine.slots[k].session = s.engine.slots[k].session := by
  unfold pulseFinal
  dsimp only
  split
  · exact (sameKeys_finalResponse (s := s)).sessions k
  · rfl

end Final

/-! ## A pulse that ends well (R518) -/

section Good

variable {s t : State} {p : Pulse}

/-- The vault with the pulse's record stored and nothing else of its records, pulses or lock changed. -/
structure StoresPulse (s t : State) (p : Pulse) : Prop where
  recs : t.vault.recs = (s.vault.store p.key p.data).recs
  pulses : t.vault.pulses = s.vault.pulses
  lock : t.vault.wardLock = s.vault.wardLock

theorem storesPulse_of_vault (same : t.vault = s.vault.store p.key p.data) : StoresPulse s t p := by
  obtain ⟨pulses, lock⟩ := store_parts s.vault p.key p.data
  exact ⟨by rw [same], by rw [same, pulses], by rw [same, lock]⟩

theorem storesPulse_looks (stores : StoresPulse s t p) : t.vault.look p.key = .data p.data ∧ ∀ k, k ≠ p.key → t.vault.look k = s.vault.look k := by
  have look : ∀ k, t.vault.look k = (s.vault.store p.key p.data).look k := fun k => by
    unfold Vault.look Vault.find
    rw [stores.recs]
  exact ⟨(look _).trans look_store, fun k other => (look k).trans (look_store_other other)⟩

theorem storePulse_vault {u : State} (same : u.vault = s.vault) : (storePulse u p).vault = s.vault.store p.key p.data := by rw [← same]; rfl

theorem finalEffect_alters {f : CmdFrame} {old : List Byte} : Alters [.free, .tiers, .portA, .portB, .tables, .queues, .hands, .streams, .chans,
    .engine, .seat, .events, .dbg, .counters] s (finalEffect s f p old) := frame_finalEffect (List.Subset.refl _) (frame_refl _ s)

theorem pulseTrim_stores (h : BitVec 16) (f : CmdFrame) : StoresPulse s (pulseTrim s p h f) p := by
  unfold pulseTrim
  split
  · exact storesPulse_of_vault (storePulse_vault rfl)
  · next o _ =>
    have answered : (pulseFinal s f (trimX s o) 0).vault = s.vault := same_vault pulseFinal_alters (by decide)
    generalize pulseFinal s f (trimX s o) 0 = u at answered
    dsimp only
    split
    · next n _ =>
      let old := match u.vault.look (.trim n) with
        | .data bs => bs
        | _ => []
      have stored : StoresPulse s ((storePulse u p).onVault fun v => { v with trimOld := sparseSet n.val old v.trimOld }) p := by
        obtain ⟨recs, pulses, lock⟩ := storesPulse_of_vault (s := s) (t := storePulse u p) (storePulse_vault answered)
        exact ⟨recs, pulses, lock⟩
      split
      · have ended : ∀ w : State, (trimEnd (opEnd w o.handle.toNat .done 0) n o.before).vault = w.vault := fun w =>
          same_vault (frame_trimEnd (L := [.chans, .engine, .events]) (by decide) (frame_opEnd (by decide) (frame_refl _ w))) (by decide)
        exact ⟨(congrArg Vault.recs (ended _)).trans stored.recs, (congrArg Vault.pulses (ended _)).trans stored.pulses,
          (congrArg Vault.wardLock (ended _)).trans stored.lock⟩
      · exact stored
    · exact storesPulse_of_vault (storePulse_vault answered)

theorem doneLive_vault (h : BitVec 16) : (doneLive s h).vault = s.vault :=
  same_vault (frame_doneLive (L := [.engine, .events]) (List.Subset.refl _) (frame_refl _ s)) (by decide)

theorem pulseCurve_stores (h : BitVec 16) : StoresPulse s (pulseCurve s p h) p := by
  unfold pulseCurve
  split
  · refine storesPulse_of_vault ((doneLive_vault _).trans ?_)
    split <;> exact storePulse_vault rfl
  · exact storesPulse_of_vault (storePulse_vault rfl)

theorem pulseRepair_stores (h : BitVec 16) : StoresPulse s (pulseRepair s p h) p := by
  unfold pulseRepair
  dsimp only
  split
  · exact storesPulse_of_vault ((doneLive_vault _).trans (storePulse_vault rfl))
  · exact storesPulse_of_vault (storePulse_vault rfl)

theorem slotWritten_vault (k : Fin 20) : (slotWritten s k).vault = s.vault :=
  same_vault (frame_slotWritten (L := [.free, .engine]) (List.Subset.refl _) (frame_refl _ s)) (by decide)

/-- A pulse that ends well stores its record, whatever it was for. -/
theorem pulseGood_stores : StoresPulse s (pulseGood s p) p := by
  have answered : ∀ f, (pulseFinal s f [] 0).vault = s.vault := fun f => same_vault pulseFinal_alters (by decide)
  unfold pulseGood
  split
  · next f _ => exact storesPulse_of_vault ((same_vault finalEffect_alters (by decide)).trans (storePulse_vault (answered f)))
  · next f _ => exact storesPulse_of_vault (storePulse_vault (answered f))
  · next f _ =>
    have sent : (if inService s then respond s f 0 0 [] else s).vault = s.vault := by
      split
      · exact same_vault respond_alters (by decide)
      · rfl
    dsimp only
    split
    · exact storesPulse_of_vault ((slotWritten_vault _).trans (storePulse_vault sent))
    · exact storesPulse_of_vault (storePulse_vault sent)
  · exact pulseTrim_stores _ _
  · exact pulseCurve_stores _
  · exact pulseRepair_stores _
  · exact storesPulse_of_vault (storePulse_vault rfl)
  · exact storesPulse_of_vault (storePulse_vault rfl)
  · next h _ =>
    have changed : ∀ (u : State) old new, (wardChanged u h old new).vault = u.vault := fun u old new =>
      same_vault (frame_wardChanged (L := [.free, .queues, .hands, .streams, .chans, .seat, .events, .dbg, .counters]) (List.Subset.refl _)
        (frame_refl _ u)) (by decide)
    obtain ⟨recs, pulses, lock⟩ := storesPulse_of_vault (s := s) (t := storePulse s p) (storePulse_vault rfl)
    exact ⟨(congrArg Vault.recs (changed ..)).trans recs, (congrArg Vault.pulses (changed ..)).trans pulses,
      (congrArg Vault.wardLock (changed ..)).trans lock⟩
  · have entered : ∀ u : State, (seatEnter u .seated).vault = u.vault := fun u =>
      same_vault (frame_seatEnter (L := [.chans, .seat, .events]) (List.Subset.refl _) (frame_refl _ u)) (by decide)
    exact storesPulse_of_vault ((entered _).trans (storePulse_vault rfl))

variable {f : CmdFrame}

/-- The effect of a short command's write leaves the frames that wait and the hands that wait for a write. -/
theorem finalEffect_keeps (old : List Byte) : KeepsFrames s (finalEffect s f p old) ∧
    (finalEffect s f p old).engine.writing = s.engine.writing := by
  unfold finalEffect
  split
  · next k _ =>
    exact ⟨keepsFrames_of_alters (l := [.free, .engine]) (frame_slotWritten (List.Subset.refl _) (frame_refl _ s)) (by decide), rfl⟩
  · next h _ =>
    have changed : Alters [.free, .queues, .hands, .streams, .chans, .seat, .events, .dbg, .counters] s (wardChanged s h old p.data) :=
      frame_wardChanged (List.Subset.refl _) (frame_refl _ s)
    have mirrored : ∀ (u : State) k b, Alters [.seat] u (mirrorMsg u k b) := fun u k b => frame_mirrorMsg (List.Subset.refl _) (frame_refl _ u)
    refine ⟨keepsFrames_trans (wardChanged_keepsFrames h old p.data) (keepsFrames_of_alters (mirrored ..) (by decide)), ?_⟩
    rw [same_engine (mirrored ..) (by decide), same_engine changed (by decide)]
  · have masked : Alters [.portA, .portB, .tables] s (customMask s) := frame_customMask (List.Subset.refl _) (frame_refl _ s)
    exact ⟨keepsFrames_of_alters masked (by decide), by rw [same_engine masked (by decide)]⟩
  · split
    · have cleared : Alters [.tiers, .events] s (adopted s) := frame_adopted (List.Subset.refl _) (frame_refl _ s)
      exact ⟨keepsFrames_of_alters cleared (by decide), by rw [same_engine cleared (by decide)]⟩
    · exact ⟨keepsFrames_of_queues rfl, rfl⟩
  · exact ⟨keepsFrames_of_queues rfl, rfl⟩

/-- A written key slot has a new session from number 0, and none of its commands awaits (R519, R491). -/
theorem slotWritten_slot (k : Fin 20) : (slotWritten s k).engine.slots[k].lastSeq = 0 ∧ (slotWritten s k).engine.slots[k].lastResp = none ∧
    (slotWritten s k).engine.slots[k].session ≠ s.engine.slots[k].session ∧ ∀ a ∈ (slotWritten s k).engine.awaiting, keyId a.f ≠ k.val := by
  have slot : (slotWritten s k).engine.slots[k] = newSession s.draw.1 s.engine.slots[k] := Vector.getElem_set_self k.isLt
  refine ⟨by rw [slot]; rfl, by rw [slot]; rfl, by rw [slot]; exact newSession_ne _ _, fun a mem same => ?_⟩
  have other := (List.mem_filter.mp mem).2
  simp [same] at other

theorem adopted_clears (s : State) : (adopted s).tiers.stranger = false ∧ ∃ e ∈ (adopted s).events.merge, e.code = 0x1005 := by
  let u := clearLatching (s.onTiers fun t => { t with stranger := false }) 0x1004 0x70 0 []
  obtain ⟨e, mem, code, -⟩ := raise_logs_plain (s := u) (code := 0x1005) (src := 0x70) (detail := beBytes 8 ((seatPartner u.vault).getD 0).toNat)
    (obj := 0) (owner := none) (by decide) (by decide) (by decide) (by decide)
  refine ⟨?_, e, mem, BitVec.eq_of_toNat_eq code⟩
  unfold adopted
  dsimp only
  rw [raise_tiers, clearLatching_tiers]
  rfl

/-- What the end of a short command's write brings about, after its final response. -/
def finalStored (s : State) (f : CmdFrame) (p : Pulse) : State := storePulse (pulseFinal s f [] 0) p

theorem pulseGood_final (why : p.why = .final f) : ∃ old, pulseGood s p = finalEffect (finalStored s f p) f p old := by
  unfold pulseGood
  rw [why]
  exact ⟨_, rfl⟩

/-- A short command's write ends well: its hand may go on, and its final response waits. -/
theorem pulseGood_answers {r : State} (why : p.why = .final f) (keys : SameKeys r s) : f.hand ∉ (pulseGood s p).engine.writing ∧
    (inService s = true → Responds r (pulseGood s p) f 0 2 []) := by
  obtain ⟨old, shape⟩ := pulseGood_final (s := s) why
  obtain ⟨frames, writing⟩ := finalEffect_keeps (s := finalStored s f p) (f := f) (p := p) old
  rw [shape]
  refine ⟨by rw [writing]; exact pulseFinal_writing, fun service => ?_⟩
  have stored : KeepsFrames (pulseFinal s f [] 0) (finalStored s f p) := keepsFrames_of_queues rfl
  exact responds_keepsFrames (pulseFinal_responds keys service) (keepsFrames_trans stored frames)

theorem pulseGood_key {k : Fin 20} (why : p.why = .final f) (key : p.key = .key k) :
    (pulseGood s p).engine.slots[k].lastSeq = 0 ∧ (pulseGood s p).engine.slots[k].lastResp = none ∧
    (pulseGood s p).engine.slots[k].session ≠ s.engine.slots[k].session ∧ ∀ a ∈ (pulseGood s p).engine.awaiting, keyId a.f ≠ k.val := by
  obtain ⟨old, shape⟩ := pulseGood_final (s := s) why
  have written : finalEffect (finalStored s f p) f p old = slotWritten (finalStored s f p) k := by
    unfold finalEffect
    rw [key]
  rw [shape, written]
  obtain ⟨seq, resp, session, awaiting⟩ := slotWritten_slot (s := finalStored s f p) k
  exact ⟨seq, resp, fun same => session (same.trans (pulseFinal_sessions k).symm), awaiting⟩

theorem pulseGood_adopts (why : p.why = .final f) (key : p.key = .protection) (adopts : opcodeOf f = 0x0903) :
    (pulseGood s p).tiers.stranger = false ∧ ∃ e ∈ (pulseGood s p).events.merge, e.code = 0x1005 := by
  obtain ⟨old, shape⟩ := pulseGood_final (s := s) why
  have cleared : finalEffect (finalStored s f p) f p old = adopted (finalStored s f p) := by
    unfold finalEffect
    rw [key]
    dsimp only
    rw [adopts]
    rfl
  rw [shape, cleared]
  exact adopted_clears _

end Good

end Sys2Proof.Proofs
end

section
/-! The rest of the ward and key vault: failed pulses, expiry, lapse, the claim and WARD_LOCK (R476, R526, R528, R531, Table 17.4). -/

namespace Sys2Proof.Proofs

open Sys2Proof Sys2Proof.Machine Sys2Proof.Safety Sys2Proof.Laws

/-! ## VAULT_WRITE_END (R515, R518) -/

section WriteEnd

variable {s : State} {p : Pulse} {rest : List Pulse} {good : Bool}

/-- The state whose running pulse has ended. -/
def pulseTaken (s : State) (rest : List Pulse) : State := s.onVault fun v => { v with pulses := rest }

theorem vaultWriteEnd_idle (none_ : s.vault.pulses = [] ∨ (s.supply.good.contains .van = false ∧ s.supply.kindle ≠ .ember)) :
    exec (.vaultWriteEnd good) s = .next s := by
  change execVaultWriteEnd good s = _
  unfold execVaultWriteEnd
  rcases none_ with empty | ⟨van, awake⟩
  · rw [empty]
  · split
    · rfl
    · exact congrArg Host.Outcome.next (whenDue_neg (by rw [van, beq_eq_false_iff_ne.mpr awake]; rfl))

theorem vaultWriteEnd_run (running : s.vault.pulses = p :: rest) (van : s.supply.good.contains .van = true ∨ s.supply.kindle = .ember) :
    exec (.vaultWriteEnd good) s = .next (if good then pulseGood (pulseTaken s rest) p else pulseBad (pulseTaken s rest) p) := by
  change execVaultWriteEnd good s = _
  unfold execVaultWriteEnd
  rw [running]
  exact congrArg Host.Outcome.next (whenDue_pos (by
    rcases van with on_ | ember
    · rw [on_]; rfl
    · rw [ember]; exact Bool.or_true _))

/-- The end of a pulse that is no claim leaves what authenticates. -/
theorem pulseTaken_keys (running : s.vault.pulses = p :: rest) (plain : p.why ≠ .claim) : SameKeys s (pulseTaken s rest) where
  die := rfl
  recs := rfl
  claimed := by
    have pulse : (p.why == PulseFor.claim) = false := beq_eq_false_iff_ne.mpr plain
    unfold vaultClaimed
    rw [running, List.any_cons, pulse, Bool.false_or]
    rfl
  commission := rfl
  sessions := fun _ => rfl

theorem vaultWriteEnd_good (running : s.vault.pulses = p :: rest) (van : s.supply.good.contains .van = true ∨ s.supply.kindle = .ember) :
    ∃ t, exec (.vaultWriteEnd true) s = .next t ∧ t.vault.pulses = rest ∧ t.vault.look p.key = .data p.data ∧
      (∀ k, k ≠ p.key → t.vault.look k = s.vault.look k) ∧ t.vault.wardLock = s.vault.wardLock ∧
      (∀ f, p.why = .final f → f.hand ∉ t.engine.writing ∧ (inService s = true → Responds s t f 0 2 [])) ∧
      (∀ f k, p.why = .final f → p.key = .key k → t.engine.slots[k].lastSeq = 0 ∧ t.engine.slots[k].lastResp = none ∧
        t.engine.slots[k].session ≠ s.engine.slots[k].session ∧ (∀ a ∈ t.engine.awaiting, keyId a.f ≠ k.val)) ∧
      (∀ f, p.why = .final f → p.key = .protection → opcodeOf f = 0x0903 → t.tiers.stranger = false ∧
        ∃ e ∈ t.events.merge, e.code = 0x1005) := by
  have stores : StoresPulse (pulseTaken s rest) (pulseGood (pulseTaken s rest) p) p := pulseGood_stores
  obtain ⟨own, others⟩ := storesPulse_looks stores
  refine ⟨_, vaultWriteEnd_run running van, stores.pulses, own, others, stores.lock, fun f why => ?_, fun f k why key => pulseGood_key why key,
    fun f why key adopts => pulseGood_adopts why key adopts⟩
  exact pulseGood_answers why (pulseTaken_keys running (by rw [why]; exact nofun))

/-- What a failed pulse leaves. -/
structure FailsPulse (s t : State) : Prop where
  recs : t.vault.recs = s.vault.recs
  alters : Alters [.free, .queues, .engine, .vault, .events, .dbg] s t

/-- The failure event of a pulse (Table 17.4). -/
def pulseEvent (s : State) (p : Pulse) : State :=
  if shellRuns s then raise s 0x1003 0x70 (vaultDetail p.key) ((vaultKind p.key).1 * 1024 + (vaultKind p.key).2) else s

theorem pulseEvent_alters : Alters [.events] s (pulseEvent s p) := by
  unfold pulseEvent
  split
  · exact frame_raise (List.Subset.refl _) (frame_refl _ s)
  · exact frame_refl _ s

theorem pulseBad_alters : Alters [.free, .queues, .engine, .vault, .events, .dbg] s (pulseBad s p) :=
  frame_pulseBad (List.Subset.refl _) (frame_refl _ s)

theorem pulseBad_final {f : CmdFrame} (why : p.why = .final f) : pulseBad s p = pulseFinal (pulseEvent s p) f [] 0x28 := by
  unfold pulseBad
  rw [why]
  rfl

theorem pulseBad_curve {h : BitVec 16} (why : p.why = .curve h) (runs : shellRuns s = true) :
    (pulseBad s p).vault.pulses = p :: s.vault.pulses := by
  have event : (pulseEvent s p).vault = s.vault := same_vault pulseEvent_alters (by decide)
  have still : shellRuns (pulseEvent s p) = true := by
    unfold shellRuns at runs ⊢
    rw [same_supply pulseEvent_alters (by decide)]
    exact runs
  have shape : pulseBad s p = if shellRuns (pulseEvent s p) then (pulseEvent s p).onVault fun v => { v with pulses := p :: v.pulses }
      else pulseEvent s p := by
    unfold pulseBad
    rw [why]
    rfl
  rw [shape, if_pos still, State.onVault_vault, event]

theorem pulseBad_recs : (pulseBad s p).vault.recs = s.vault.recs := by
  have final : ∀ (u : State) f x n, (pulseFinal u f x n).vault.recs = u.vault.recs := fun u f x n =>
    congrArg Vault.recs (same_vault pulseFinal_alters (by decide))
  unfold pulseBad
  extract_lets u again
  have event : u.vault.recs = s.vault.recs := congrArg Vault.recs (same_vault (pulseEvent_alters (s := s) (p := p)) (by decide))
  have asked : (again u).vault.recs = u.vault.recs := by
    unfold again
    split <;> rfl
  have sent : ∀ f, (if inService u then respond u f 0x28 0 [] else u).vault.recs = u.vault.recs := fun f => by
    split
    · exact congrArg Vault.recs (same_vault respond_alters (by decide))
    · rfl
  clear_value u
  rw [← event]
  split
  · exact final ..
  · exact final ..
  · exact sent _
  · split
    · rfl
    · exact final ..
  · exact asked
  · exact asked
  · exact asked
  · exact asked
  · rfl
  · rfl

theorem vaultWriteEnd_bad (running : s.vault.pulses = p :: rest) (van : s.supply.good.contains .van = true ∨ s.supply.kindle = .ember) :
    ∃ t, exec (.vaultWriteEnd false) s = .next t ∧ t.vault.recs = s.vault.recs ∧
      Alters [.free, .queues, .engine, .vault, .events, .dbg] s t ∧
      (∀ f, p.why = .final f → t.vault.pulses = rest ∧ f.hand ∉ t.engine.writing ∧ (inService s = true → Responds s t f 0x28 2 [])) ∧
      (∀ h, p.why = .curve h → shellRuns s = true → t.vault.pulses = p :: rest) := by
  let u := pulseTaken s rest
  have taken : Alters [.vault] s u := frame_State_onVault (List.Subset.refl _) (frame_refl _ s)
  have event : Alters [.events] u (pulseEvent u p) := pulseEvent_alters
  refine ⟨_, vaultWriteEnd_run running van, pulseBad_recs, frame_trans (frame_mono (by decide) taken) pulseBad_alters, fun f why => ?_,
    fun h why runs => pulseBad_curve why runs⟩
  have keys : SameKeys s (pulseEvent u p) := sameKeys_trans (pulseTaken_keys running (by rw [why]; exact nofun))
    (sameKeys_of_slots (same_dieId event (by decide)) (same_vault event (by decide)) (by rw [same_engine event (by decide)]))
  have shape : pulseBad u p = pulseFinal (pulseEvent u p) f [] 0x28 := pulseBad_final why
  have service : inService (pulseEvent u p) = inService s := by
    unfold inService
    rw [same_supply event (by decide), same_tiers event (by decide)]
    rfl
  change (pulseBad u p).vault.pulses = rest ∧ f.hand ∉ (pulseBad u p).engine.writing ∧ (inService s = true → Responds s (pulseBad u p) f 0x28 2 [])
  rw [shape]
  refine ⟨?_, pulseFinal_writing, fun runs => pulseFinal_responds keys (service.trans runs)⟩
  rw [same_vault (pulseFinal_alters (s := pulseEvent u p)) (by decide), same_vault event (by decide)]
  rfl

end WriteEnd

/-! ## COUNTERSIGN_EXPIRY and PROPOSAL_LAPSE (R476, R528) -/

section Expiry

variable {s : State} {h : Fin 16} {a : Await}

theorem countersignExpiry_early (found : s.engine.awaiting.find? (fun a => a.f.hand == h) = some a)
    (early : s.clock.counter.toNat ≤ a.at_.toNat + 15000000000) : exec (.countersignExpiry h) s = .next s := by
  change execCountersignExpiry h s = _
  unfold execCountersignExpiry
  rw [found]
  exact congrArg Host.Outcome.next (whenDue_neg (by rw [decide_eq_false (Nat.not_lt.mpr early)]; rfl))

/-- The state in which an expired command awaits no longer. -/
def expiryTaken (s : State) (h : Fin 16) : State := s.onEngine fun e => { e with awaiting := e.awaiting.filter fun x => x.f.hand != h }

/-- The state after the final response of an expired command, and its event. -/
def expired (s : State) (h : Fin 16) (a : Await) : State :=
  raise (finalResponse (expiryTaken s h) a.f (some a.digest) 0x24 []) 0x0E05 0x60 (beBytes 2 (opcodeOf a.f) ++ beBytes 4 a.f.seq.toNat) h.val
    (some h.val)

theorem finalResponse_ops {f : CmdFrame} {d : Option (BitVec 256)} {status : Nat} {body : List Byte} :
    (finalResponse s f d status body).engine.ops = s.engine.ops ∧ (finalResponse s f d status body).engine.awaiting = s.engine.awaiting := by
  obtain ⟨p, engine⟩ := finalResponse_engine (s := s) (f := f) (d := d) (status := status) (body := body)
  obtain ⟨slots, sent, -⟩ := respond_engine (s := s) (f := f) (status := status) (flags := 2) (body := body)
  have ops := congrArg Engine.ops sent
  have awaiting := congrArg Engine.awaiting sent
  rw [engine]
  exact ⟨ops, awaiting⟩

theorem countersignExpiry_ends (found : s.engine.awaiting.find? (fun a => a.f.hand == h) = some a)
    (late : a.at_.toNat + 15000000000 < s.clock.counter.toNat) (works : halted s 3 = false) :
    ∃ t, exec (.countersignExpiry h) s = .next t ∧ Alters [.free, .queues, .engine, .events, .dbg] s t ∧ Responds s t a.f 0x24 2 [] ∧
      (∀ b, b ∈ t.engine.awaiting ↔ b ∈ s.engine.awaiting ∧ b.f.hand ≠ h) ∧ t.engine.ops = s.engine.ops := by
  have run : exec (.countersignExpiry h) s = .next (expired s h a) := by
    change execCountersignExpiry h s = _
    unfold execCountersignExpiry
    rw [found]
    exact congrArg Host.Outcome.next (whenDue_pos (by rw [decide_eq_true late, works]; rfl))
  obtain ⟨ops, awaiting⟩ := finalResponse_ops (s := expiryTaken s h) (f := a.f) (d := some a.digest) (status := 0x24) (body := [])
  have keys : SameKeys s (expiryTaken s h) := sameKeys_of_slots rfl rfl rfl
  refine ⟨_, run, frame_raise (by decide) (frame_finalResponse (by decide) (frame_State_onEngine (by decide) (frame_refl _ s))),
    responds_keepsFrames (finalResponse_responds keys) (keepsFrames_of_queues raise_queues), fun b => ?_, ?_⟩
  · unfold expired
    rw [raise_engine, awaiting]
    exact List.mem_filter.trans (and_congr_right fun _ => bne_iff_ne)
  · unfold expired
    rw [raise_engine, ops]
    rfl

theorem proposalLapse_lapses (s : State) : ∃ t, exec .proposalLapse s = .next t ∧ Alters [.engine] s t ∧ t.engine.awaiting = s.engine.awaiting ∧
    ∀ p, p ∈ t.engine.proposals ↔ p ∈ s.engine.proposals ∧ s.clock.counter.toNat ≤ p.at_.toNat + 15000000000 :=
  ⟨_, rfl, frame_State_onEngine (List.Subset.refl _) (frame_refl _ s), rfl,
    fun _ => List.mem_filter.trans (and_congr_right fun _ => decide_eq_true_iff)⟩

end Expiry

/-! ## VAULT_CLAIM (R526) -/

section Claim

variable {s : State}

theorem vaultClaim_idle (idle : vaultClaimed s.vault = true ∨ shellRuns s = false ∨
    (wardenKeys s ≠ 4 ∧ (atTrick s = false ∨ s.vault.commission = true ∨ wardensCounted s < 2))) : exec .vaultClaim s = .next s := by
  refine congrArg Host.Outcome.next (whenDue_neg ?_)
  rcases idle with claimed | stopped | ⟨keys, short⟩
  · rw [claimed]
    simp
  · rw [stopped]
    simp
  · have fourth : (wardenKeys s == 4) = false := beq_eq_false_iff_ne.mpr keys
    have second : (atTrick s && !s.vault.commission && decide (2 ≤ wardensCounted s)) = false := by
      rcases short with between | high | few
      · rw [between]; rfl
      · rw [high]; simp
      · rw [decide_eq_false (Nat.not_le.mpr few), Bool.and_false]
    rw [fourth, second]
    simp

theorem vaultClaim_claims (unclaimed : vaultClaimed s.vault = false) (runs : shellRuns s = true) (read : s.straps.resolved = true)
    (energy : energyOk s 15 = true) (due : wardenKeys s = 4 ∨ (atTrick s = true ∧ s.vault.commission = false ∧ 2 ≤ wardensCounted s)) :
    ∃ t, exec .vaultClaim s = .next t ∧ Alters [.vault, .events] s t ∧ t.vault.recs = s.vault.recs ∧ vaultClaimed t.vault = true ∧
      t.vault.pulses = s.vault.pulses ++ [{ key := .protection, data := protectionBytes true s.straps.digest none, why := .claim }] := by
  let p : Pulse := { key := .protection, data := protectionBytes true s.straps.digest none, why := .claim }
  let u := s.onVault fun v => { v with pulses := v.pulses ++ [p] }
  have run : exec .vaultClaim s = .next (raise u 0x1001 0x70 (beBytes 1 (wardensCounted s))) := by
    refine congrArg Host.Outcome.next (whenDue_pos ?_)
    rw [unclaimed, runs, read, energy]
    rcases due with fourth | ⟨boundary, low, two⟩
    · rw [fourth]; rfl
    · rw [boundary, low, decide_eq_true two]; exact Bool.or_true _
  have claimed : vaultClaimed u.vault = true := by
    have any_ : (u.vault.pulses.any fun p => p.why == PulseFor.claim) = true :=
      List.any_eq_true.mpr ⟨p, List.mem_append_right _ (List.mem_singleton_self p), rfl⟩
    unfold vaultClaimed
    rw [any_]
    rfl
  exact ⟨_, run, frame_raise (by decide) (frame_State_onVault (by decide) (frame_refl _ s)), by rw [raise_vault]; rfl, by rw [raise_vault, claimed],
    by rw [raise_vault]; rfl⟩

end Claim

/-! ## WARD_LOCK_CHANGE (R531, R489) -/

section Lock

variable {s : State}

/-- Every awaiting command that is ended has its final response. -/
theorem each_finalResponse (status : Nat) (l : List Await) (s r : State) (keys : SameKeys r s) :
    let t := s.each l fun a s => finalResponse s a.f (some a.digest) status []
    SameKeys r t ∧ KeepsFrames s t ∧ (∀ a ∈ l, Responds r t a.f status 2 []) ∧ t.engine.ops = s.engine.ops ∧
      t.engine.awaiting = s.engine.awaiting ∧ t.dbg.session = s.dbg.session := by
  induction l generalizing s with
  | nil => exact ⟨keys, keepsFrames_of_queues rfl, fun a mem => absurd mem List.not_mem_nil, rfl, rfl, rfl⟩
  | cons a l ih =>
    let u := finalResponse s a.f (some a.digest) status []
    have sent : Responds r u a.f status 2 [] := finalResponse_responds keys
    obtain ⟨ops, awaiting⟩ := finalResponse_ops (s := s) (f := a.f) (d := some a.digest) (status := status) (body := [])
    obtain ⟨keys', frames, all_, ops', awaiting', session⟩ := ih u (sameKeys_trans keys sameKeys_finalResponse)
    have kept : KeepsFrames s u := ⟨fun k y there => by
      have way := enqueueNode_keeps (s := (answerFrame s a.f status 2 []).2) (q := 32 + a.f.hand.val) (x := (answerFrame s a.f status 2 []).1)
        (by have := a.f.hand.isLt; omega) there
      have same : u.queues = (respond s a.f status 2 []).queues := rfl
      rw [qFrames_congr same, same, qFrames_congr respond_queues, respond_queues]
      exact way⟩
    refine ⟨keys', keepsFrames_trans kept frames, fun b mem => ?_, ops'.trans ops, awaiting'.trans awaiting, session.trans respond_session⟩
    rcases List.mem_cons.mp mem with rfl | inside
    · exact responds_keepsFrames sent frames
    · exact all_ b inside

theorem wardLockChange_low (s : State) : exec (.wardLockChange false) s = .next { s with vault := { s.vault with wardLock := false } } := rfl

/-- The state whose lock is set and whose awaiting commands are taken out. -/
def lockTaken (s : State) : State := (s.onVault fun v => { v with wardLock := true }).onEngine fun e => { e with awaiting := [] }

/-- The state with every awaiting command answered and the proposals discarded. -/
def lockEnded (s : State) : State :=
  ((lockTaken s).each s.engine.awaiting fun a s => finalResponse s a.f (some a.digest) 0x23 []).onEngine fun e => { e with proposals := [] }

theorem closeSession_session (cause : Nat) : (closeSession s cause).dbg.session = none := by
  unfold closeSession
  split
  · next none_ => exact Option.isNone_iff_eq_none.mp none_
  · dsimp only
    rw [raise_dbg]
    rfl

theorem wardLockChange_high (runs : shellRuns s = true) :
    ∃ t, exec (.wardLockChange true) s = .next t ∧ Alters [.free, .queues, .engine, .vault, .events, .dbg] s t ∧
      t.vault = { s.vault with wardLock := true } ∧ t.engine.awaiting = [] ∧ t.engine.proposals = [] ∧ t.dbg.session = none ∧
      t.engine.ops = s.engine.ops ∧ ∀ a ∈ s.engine.awaiting, Responds s t a.f 0x23 2 [] := by
  have run : exec (.wardLockChange true) s = .next (closeSession (lockEnded s) 4) := by
    change execWardLockChange true s = _
    unfold execWardLockChange
    dsimp only
    rw [show shellRuns (s.onVault fun v => { v with wardLock := true }) = true from runs]
    rfl
  have keys : SameKeys s (lockTaken s) := ⟨rfl, rfl, rfl, rfl, fun _ => rfl⟩
  have taken : Alters [.free, .queues, .engine, .vault, .events, .dbg] s (lockTaken s) :=
    frame_State_onEngine (by decide) (frame_State_onVault (by decide) (frame_refl _ s))
  have answered : Alters [.free, .queues, .engine, .dbg] (lockTaken s) (lockEnded s) :=
    frame_State_onEngine (by decide) (each_keeps (P := fun t => Alters [.free, .queues, .engine, .dbg] (lockTaken s) t)
      (fun _ _ kept => frame_finalResponse (List.Subset.refl _) kept) (frame_refl _ _))
  have closed : Alters [.events, .dbg] (lockEnded s) (closeSession (lockEnded s) 4) := frame_closeSession (List.Subset.refl _) (frame_refl _ _)
  obtain ⟨-, -, sent, ops, awaiting, -⟩ := each_finalResponse 0x23 s.engine.awaiting (lockTaken s) s keys
  have engine := same_engine closed (by decide)
  refine ⟨_, run, frame_trans taken (frame_trans (frame_mono (by decide) answered) (frame_mono (by decide) closed)), ?_, ?_, ?_,
    closeSession_session 4, ?_, fun a mem => ?_⟩
  · rw [same_vault closed (by decide), same_vault answered (by decide)]
    rfl
  · rw [engine]
    exact awaiting
  · rw [engine]
    rfl
  · rw [engine]
    exact ops
  · have discarded : KeepsFrames ((lockTaken s).each s.engine.awaiting fun a s => finalResponse s a.f (some a.digest) 0x23 []) (lockEnded s) :=
      keepsFrames_of_queues rfl
    exact responds_keepsFrames (sent a mem) (keepsFrames_trans discarded (keepsFrames_of_alters closed (by decide)))

end Lock

/-- Settles O57: every purpose of a pulse stores its record alone; whatever follows leaves the responses that wait. -/
theorem vaultWritesProposalsAndTheClaim : Obligations.VaultWritesProposalsAndTheClaim :=
  ⟨fun _ _ none_ => vaultWriteEnd_idle none_, fun _ _ _ running van => vaultWriteEnd_good running van,
    fun _ _ _ running van => vaultWriteEnd_bad running van,
    fun _ _ _ found => ⟨fun early => countersignExpiry_early found early, fun late works => countersignExpiry_ends found late works⟩,
    proposalLapse_lapses, fun _ _ => rfl, fun _ idle => vaultClaim_idle idle,
    fun _ unclaimed runs read energy due => vaultClaim_claims unclaimed runs read energy due, wardLockChange_low,
    fun _ runs => wardLockChange_high runs⟩

end Sys2Proof.Proofs
end

section
/-! The debug control register: what refuses a DCTRL, halts, resumes and steps (21_debug_port.md, R619 to R622). -/

namespace Sys2Proof.Proofs

open Sys2Proof Sys2Proof.Machine Sys2Proof.Safety Sys2Proof.Laws

/-! ## Register fields -/

section Fields

variable {w : Nat}

theorem regField_eq (r : BitVec w) (lo n : Nat) : regField r lo n = (r.extractLsb' lo n).toNat := by
  rw [regField, BitVec.extractLsb'_toNat, Nat.shiftRight_eq_div_pow]

theorem ofNat_regField (r : BitVec w) (lo n : Nat) : BitVec.ofNat n (regField r lo n) = r.extractLsb' lo n := by
  rw [regField_eq, BitVec.ofNat_toNat, BitVec.setWidth_eq]

theorem toNat_eq_iff {n : Nat} (x : BitVec n) (k : Nat) (small : k < 2 ^ n) : x.toNat = k ↔ x = BitVec.ofNat n k :=
  ⟨fun same => BitVec.eq_of_toNat_eq (by rw [same, BitVec.toNat_ofNat, Nat.mod_eq_of_lt small]),
    fun same => by rw [same, BitVec.toNat_ofNat, Nat.mod_eq_of_lt small]⟩

end Fields

/-! ## What a DCTRL does (R613, R619, R634) -/

section Dctrl

variable {s : State} {r : BitVec 64} {op : Nat} {f : State → State}

/-- The debug part as a DCTRL with `DBG_EN` high leaves it before its operation. -/
def dctrlTaken (s : State) (r : BitVec 64) : State := (s.onDebug fun d => { d with ir := 0x11 }).onDebug fun d => { d with dr := r.setWidth 168 }

theorem dctrl_off (off : tapWorks s = false) : dctrl s r op f = s := by
  unfold dctrl
  rw [off]
  rfl

theorem dctrl_closed (on_ : tapWorks s = true) (named : dcOp r = op) (shut : s.straps.dbgEn = false) :
    dctrl s r op f = { s with dbg := { s.dbg with ir := 0x11, dr := 0 } } := by
  unfold dctrl
  rw [on_, named, bne_self_eq_false]
  dsimp only
  rw [if_neg nofun, if_pos (by rw [State.onDebug_straps, shut]; rfl)]
  rfl

theorem dctrl_refuses (on_ : tapWorks s = true) (named : dcOp r = op) (enabled : s.straps.dbgEn = true) {n : Nat} (refused : dctrlRefused s r = n)
    (some_ : n ≠ 0) : dctrl s r op f = { s with dbg := { s.dbg with ir := 0x11, dr := r.setWidth 168, result := BitVec.ofNat 2 n } } := by
  have same : dctrlRefused (dctrlTaken s r) r = n := refused
  unfold dctrl
  rw [on_, named, bne_self_eq_false]
  dsimp only
  rw [if_neg nofun, if_neg (by rw [State.onDebug_straps, enabled]; exact nofun)]
  change dsResult (if dctrlRefused (dctrlTaken s r) r == 0 then f (dctrlTaken s r) else dctrlTaken s r) (dctrlRefused (dctrlTaken s r) r) = _
  rw [same, if_neg (by simpa using some_)]
  rfl

theorem dctrl_accepts (on_ : tapWorks s = true) (named : dcOp r = op) (enabled : s.straps.dbgEn = true) (passes : dctrlRefused s r = 0) :
    dctrl s r op f = dsResult (f (dctrlTaken s r)) 0 := by
  have same : dctrlRefused (dctrlTaken s r) r = 0 := passes
  unfold dctrl
  rw [on_, named, bne_self_eq_false]
  dsimp only
  rw [if_neg nofun, if_neg (by rw [State.onDebug_straps, enabled]; exact nofun)]
  change dsResult (if dctrlRefused (dctrlTaken s r) r == 0 then f (dctrlTaken s r) else dctrlTaken s r) (dctrlRefused (dctrlTaken s r) r) = _
  rw [same]
  rfl

variable {al tag : BitVec 16} {fl : BitVec 8} {x : Fin 16 × Tick}

theorem dctrlRefused_none (none_ : s.dbg.session = none) : dctrlRefused s r = 1 := by
  unfold dctrlRefused
  rw [none_]

/-- What refuses a DCTRL in a session, by the fields of Table 21.5. -/
theorem dctrlRefused_session (session : s.dbg.session = some (al, fl, tag, x)) : dctrlRefused s r =
    if r.extractLsb' 48 16 ≠ tag then 1
    else if r.extractLsb' 32 16 &&& ~~~al ≠ 0 ∨ (dcOp r = 3 ∧ stepBad (regField r 10 2) (r.extractLsb' 32 16) = true) then 2
    else if r.extractLsb' 0 10 ≠ 0 ∨ 5 < dcOp r ∨ (dcOp r = 3 ∧ r.extractLsb' 16 16 = 0) then 3
    else 0 := by
  unfold dctrlRefused
  rw [session]
  dsimp only
  unfold dcMask
  rw [ofNat_regField]
  have field : ∀ (lo n : Nat) (y : BitVec n), (regField r lo n != y.toNat) = true ↔ r.extractLsb' lo n ≠ y := fun lo n y => by
    rw [bne_iff_ne, regField_eq]
    exact not_congr ⟨fun same => BitVec.eq_of_toNat_eq same, fun same => congrArg _ same⟩
  have reserved : (regField r 0 10 != 0) = true ↔ r.extractLsb' 0 10 ≠ 0 := field 0 10 0
  have count : (regField r 16 16 == 0) = true ↔ r.extractLsb' 16 16 = 0 := by
    rw [beq_iff_eq, regField_eq]
    exact ⟨fun same => BitVec.eq_of_toNat_eq same, fun same => congrArg BitVec.toNat same⟩
  simp only [field, reserved, count, Bool.or_eq_true, Bool.and_eq_true, bne_iff_ne, beq_iff_eq, decide_eq_true_eq, or_assoc]

theorem stepBad_iff (m : BitVec 16) : stepBad (regField r 10 2) m = true ↔
    (r.extractLsb' 10 2 = 2 ∧ m &&& 0xFFF8 ≠ 0) ∨ (r.extractLsb' 10 2 = 3 ∧ m &&& 0xFFF7 ≠ 0) := by
  unfold stepBad
  rw [regField_eq]
  simp only [Bool.or_eq_true, Bool.and_eq_true, bne_iff_ne, beq_iff_eq]
  rw [toNat_eq_iff _ 2 (by decide), toNat_eq_iff _ 3 (by decide)]
  rfl

end Dctrl

/-! ## Halting (R620, R621) -/

section Halts

variable {s : State} {m : BitVec 16} {cause : Nat}

theorem or_and_not (x y : BitVec 16) : x ||| y &&& ~~~x = x ||| y := by
  ext i
  simp only [BitVec.getElem_or, BitVec.getElem_and, BitVec.getElem_not]
  cases x[i] <;> cases y[i] <;> rfl

/-- The debug part after a halt. -/
def haltMarked (s : State) (m : BitVec 16) : State :=
  let new := m &&& ~~~s.dbg.halted
  s.onDebug fun d => { d with halted := d.halted ||| new,
                              haltedAt := d.haltedAt ++ (unitsOf new).map fun u => (u, s.clock.counter, s.clock.age),
                              haltTier := if d.halted == 0 then s.tiers.tier else d.haltTier }

/-- The back ends' samples are stale from a halt that names them. -/
def haltStale (s : State) (new : BitVec 16) : State :=
  if new.toNat.testBit 6 then s.each (List.finRange 24) fun n s => staleBegin s n 4 else s

theorem haltStale_alters (new : BitVec 16) : Alters [.chans] s (haltStale s new) := by
  unfold haltStale
  split
  · exact each_keeps (P := fun t => Alters [.chans] s t) (fun _ _ kept => frame_staleBegin (List.Subset.refl _) kept) (frame_refl _ s)
  · exact frame_refl _ s

theorem haltUnits_none (none_ : m &&& ~~~s.dbg.halted = 0) : haltUnits s m cause = s := by
  unfold haltUnits
  rw [none_]
  rfl

theorem haltUnits_some (some_ : m &&& ~~~s.dbg.halted ≠ 0) : haltUnits s m cause =
    raise (haltStale (haltMarked s m) (m &&& ~~~s.dbg.halted)) 0x1202 0x80
      (beBytes 2 (haltStale (haltMarked s m) (m &&& ~~~s.dbg.halted)).dbg.halted.toNat ++ beBytes 1 cause) := by
  unfold haltUnits
  dsimp only
  rw [if_neg (by simpa using some_)]
  rfl

/-- A halt adds its units to those halted and leaves the rest of the debug part but its own records. -/
theorem haltUnits_dbg : ∃ ats tier, (haltUnits s m cause).dbg = { s.dbg with halted := s.dbg.halted ||| m, haltedAt := ats, haltTier := tier } := by
  by_cases none_ : m &&& ~~~s.dbg.halted = 0
  · rw [haltUnits_none none_]
    refine ⟨s.dbg.haltedAt, s.dbg.haltTier, ?_⟩
    have same : s.dbg.halted ||| m = s.dbg.halted := by
      rw [← or_and_not, none_]
      exact BitVec.or_zero
    rw [same]
  · rw [haltUnits_some none_, raise_dbg, same_dbg (haltStale_alters _) (by decide)]
    exact ⟨_, _, by rw [← or_and_not]; rfl⟩

theorem haltUnits_alters : Alters [.chans, .events, .dbg] s (haltUnits s m cause) := frame_haltUnits (List.Subset.refl _) (frame_refl _ s)

/-- A unit that ran is halted with the event. -/
theorem haltUnits_logs (some_ : m &&& ~~~s.dbg.halted ≠ 0) :
    Logs s (haltUnits s m cause) 0x1202 0x80 (beBytes 2 (s.dbg.halted ||| m).toNat ++ beBytes 1 cause) := by
  have stale : Alters [.chans] (haltMarked s m) (haltStale (haltMarked s m) (m &&& ~~~s.dbg.halted)) := haltStale_alters _
  have halted : (haltStale (haltMarked s m) (m &&& ~~~s.dbg.halted)).dbg.halted = s.dbg.halted ||| m := by
    rw [same_dbg stale (by decide), ← or_and_not]
    rfl
  rw [haltUnits_some some_, halted]
  have clock : (haltStale (haltMarked s m) (m &&& ~~~s.dbg.halted)).clock = s.clock := (same_clock stale (by decide)).trans rfl
  exact logs_at (raise_logs_plain (by decide) (by decide) (by decide) (by decide)) (by rw [clock])

theorem endStep_none (idle : s.dbg.step = none) : endStep s = s := by
  unfold endStep
  rw [idle]

theorem endStep_some {u : BitVec 16} {k : BitVec 2} {n : Nat} (runs : s.dbg.step = some (u, k, n)) :
    endStep s = haltUnits (s.onDebug fun d => { d with step := none }) u 1 := by
  unfold endStep
  rw [runs]

end Halts

end Sys2Proof.Proofs
end

section
/-! DCTRL, STEP_END, BREAKPOINT_FIRE and SESSION_LIFETIME_END (21_debug_port.md, R618 to R624, R628, R634). -/

namespace Sys2Proof.Proofs

open Sys2Proof Sys2Proof.Machine Sys2Proof.Safety Sys2Proof.Laws

/-! ## The DCTRL rows -/

section Rows

variable {s : State} {reg : BitVec 64} {op : BitVec 4} {c : Instr}

theorem dcOp_eq (r : BitVec 64) : dcOp r = (r.extractLsb' 12 4).toNat := regField_eq r 12 4

/-- Every row runs as a DCTRL of its operation. -/
theorem dctrl_row (row : (op, c) ∈ [((1 : BitVec 4), Instr.dctrlHalt reg), (2, .dctrlResume reg), (3, .dctrlStep reg), (4, .dctrlClose reg),
      (5, .dctrlClearBphit reg)]) : op.toNat ≤ 5 ∧ ∃ f, ∀ s, exec c s = .next (dctrl s reg op.toNat f) := by
  simp only [List.mem_cons, List.not_mem_nil, or_false, Prod.mk.injEq] at row
  rcases row with ⟨rfl, rfl⟩ | ⟨rfl, rfl⟩ | ⟨rfl, rfl⟩ | ⟨rfl, rfl⟩ | ⟨rfl, rfl⟩ <;> exact ⟨by decide, _, fun _ => rfl⟩

theorem dctrl_refusals (row : (op, c) ∈ [((1 : BitVec 4), Instr.dctrlHalt reg), (2, .dctrlResume reg), (3, .dctrlStep reg), (4, .dctrlClose reg),
      (5, .dctrlClearBphit reg)]) (named : reg.extractLsb' 12 4 = op) :
    (tapWorks s = false → exec c s = .next s) ∧
    (tapWorks s = true → s.straps.dbgEn = false → exec c s = .next { s with dbg := { s.dbg with ir := 0x11, dr := 0 } }) ∧
    (tapWorks s = true → s.straps.dbgEn = true →
      (∀ al fl tag x, s.dbg.session = some (al, fl, tag, x) →
        (reg.extractLsb' 48 16 ≠ tag → exec c s = .next
          { s with dbg := { s.dbg with ir := 0x11, dr := reg.setWidth 168, result := 1 } }) ∧
        (reg.extractLsb' 48 16 = tag →
          (reg.extractLsb' 32 16 &&& ~~~al ≠ 0 ∨ (op = 3 ∧ reg.extractLsb' 10 2 = 2 ∧ reg.extractLsb' 32 16 &&& 0xFFF8 ≠ 0) ∨
            (op = 3 ∧ reg.extractLsb' 10 2 = 3 ∧ reg.extractLsb' 32 16 &&& 0xFFF7 ≠ 0)) →
          exec c s = .next { s with dbg := { s.dbg with ir := 0x11, dr := reg.setWidth 168, result := 2 } }) ∧
        (reg.extractLsb' 48 16 = tag → reg.extractLsb' 32 16 &&& ~~~al = 0 → op ≠ 3 → reg.extractLsb' 0 10 ≠ 0 →
          exec c s = .next { s with dbg := { s.dbg with ir := 0x11, dr := reg.setWidth 168, result := 3 } })) ∧
      (s.dbg.session = none → exec c s = .next { s with dbg := { s.dbg with ir := 0x11, dr := reg.setWidth 168, result := 1 } })) := by
  obtain ⟨-, f, run⟩ := dctrl_row row
  have code : dcOp reg = op.toNat := by rw [dcOp_eq, named]
  have step_ : dcOp reg = 3 ↔ op = 3 := by rw [code]; exact toNat_eq_iff op 3 (by decide)
  have refuses : ∀ {n : Nat}, tapWorks s = true → s.straps.dbgEn = true → dctrlRefused s reg = n → n ≠ 0 →
      exec c s = .next { s with dbg := { s.dbg with ir := 0x11, dr := reg.setWidth 168, result := BitVec.ofNat 2 n } } :=
    fun on_ enabled refused some_ => (run s).trans (congrArg Host.Outcome.next (dctrl_refuses on_ code enabled refused some_))
  refine ⟨fun off => (run s).trans (congrArg Host.Outcome.next (dctrl_off off)),
    fun on_ shut => (run s).trans (congrArg Host.Outcome.next (dctrl_closed on_ code shut)), fun on_ enabled => ⟨fun al fl tag x session => ?_, fun none_ => ?_⟩⟩
  · have refused := dctrlRefused_session (r := reg) session
    refine ⟨fun other => ?_, fun same out => ?_, fun same inside plain reserved => ?_⟩
    · rw [if_pos other] at refused
      exact refuses on_ enabled refused (by decide)
    · have beyond : reg.extractLsb' 32 16 &&& ~~~al ≠ 0 ∨ (dcOp reg = 3 ∧ stepBad (regField reg 10 2) (reg.extractLsb' 32 16) = true) := by
        rw [step_, stepBad_iff]
        rcases out with mask | ⟨three, kind⟩ | ⟨three, kind⟩
        · exact .inl mask
        · exact .inr ⟨three, .inl kind⟩
        · exact .inr ⟨three, .inr kind⟩
      rw [if_neg (not_not.mpr same), if_pos beyond] at refused
      exact refuses on_ enabled refused (by decide)
    · have within : ¬ (reg.extractLsb' 32 16 &&& ~~~al ≠ 0 ∨ (dcOp reg = 3 ∧ stepBad (regField reg 10 2) (reg.extractLsb' 32 16) = true)) := by
        rw [step_]
        exact fun out => out.elim (fun mask => mask inside) fun three => plain three.1
      rw [if_neg (not_not.mpr same), if_neg within, if_pos (.inl reserved)] at refused
      exact refuses on_ enabled refused (by decide)
  · exact refuses on_ enabled (dctrlRefused_none none_) (by decide)

variable {al tag : BitVec 16} {fl : BitVec 8} {x : Fin 16 × Tick}

/-- What a DCTRL needs to be accepted: its session and tag, units in `DO_ALLOW`, and no reserved field. -/
structure DctrlFits (s : State) (reg : BitVec 64) (al tag : BitVec 16) (fl : BitVec 8) (x : Fin 16 × Tick) : Prop where
  on_ : tapWorks s = true
  enabled : s.straps.dbgEn = true
  session : s.dbg.session = some (al, fl, tag, x)
  tagged : reg.extractLsb' 48 16 = tag
  allowed : reg.extractLsb' 32 16 &&& ~~~al = 0
  plain : reg.extractLsb' 0 10 = 0

theorem dctrlRefused_plain (fits : DctrlFits s reg al tag fl x) (code : dcOp reg ≤ 5) (other : dcOp reg ≠ 3) : dctrlRefused s reg = 0 := by
  rw [dctrlRefused_session fits.session, if_neg (not_not.mpr fits.tagged), if_neg (fun out => out.elim (fun mask => mask fits.allowed) fun three => other three.1),
    if_neg]
  rintro (reserved | big | three)
  · exact reserved fits.plain
  · omega
  · exact other three.1

theorem dctrlRefused_step (fits : DctrlFits s reg al tag fl x) (code : dcOp reg = 3) (count : reg.extractLsb' 16 16 ≠ 0)
    (kinds : stepBad (regField reg 10 2) (reg.extractLsb' 32 16) = false) : dctrlRefused s reg = 0 := by
  rw [dctrlRefused_session fits.session, if_neg (not_not.mpr fits.tagged), if_neg (fun out => out.elim (fun mask => mask fits.allowed) fun three => by
    rw [kinds] at three; exact absurd three.2 nofun), if_neg]
  rintro (reserved | big | three)
  · exact reserved fits.plain
  · omega
  · exact count three.2

theorem dctrlHalt_waits (fits : DctrlFits s reg al tag fl x) (code : reg.extractLsb' 12 4 = 1) (idle : s.dbg.step = none)
    (free : s.dbg.resumeNext = none) : exec (.dctrlHalt reg) s = .next { s with dbg := { s.dbg with
      ir := 0x11, dr := reg.setWidth 168, result := 0, haltNext := some (s.dbg.haltNext.getD 0 ||| reg.extractLsb' 32 16) } } := by
  have named : dcOp reg = 1 := by rw [dcOp_eq, code]; rfl
  refine congrArg Host.Outcome.next ((dctrl_accepts fits.on_ named fits.enabled
    (dctrlRefused_plain fits (by omega) (by omega))).trans ?_)
  rw [endStep_none (s := dctrlTaken s reg) idle, dcMask, ofNat_regField]
  have none_ : (dctrlTaken s reg).dbg.resumeNext = none := free
  simp only [dsResult, State.onDebug, none_, Option.map_none]
  simp only [dctrlTaken, State.onDebug]
  rw [← free]
  rfl

theorem dctrlHalt_ends {u : BitVec 16} {k : BitVec 2} {n : Nat} (fits : DctrlFits s reg al tag fl x) (code : reg.extractLsb' 12 4 = 1)
    (runs : s.dbg.step = some (u, k, n)) : ∃ t, exec (.dctrlHalt reg) s = .next t ∧
      Alters [.chans, .events, .dbg] s t ∧ t.dbg.step = none ∧ t.dbg.halted = s.dbg.halted ||| u ∧
      t.dbg.haltNext = some (s.dbg.haltNext.getD 0 ||| reg.extractLsb' 32 16) := by
  have named : dcOp reg = 1 := by rw [dcOp_eq, code]; rfl
  let v := (dctrlTaken s reg).onDebug fun d => { d with step := none }
  have halts : endStep (dctrlTaken s reg) = haltUnits v u 1 := endStep_some runs
  obtain ⟨ats, tier, dbg⟩ := haltUnits_dbg (s := v) (m := u) (cause := 1)
  have taken : Alters [.dbg] s v := frame_State_onDebug (by decide) (frame_State_onDebug (by decide) (frame_State_onDebug (by decide) (frame_refl _ s)))
  have run := dctrl_accepts (f := fun s => (endStep s).onDebug fun d =>
      { d with haltNext := some (d.haltNext.getD 0 ||| dcMask reg), resumeNext := d.resumeNext.map fun x => (x.1 &&& ~~~ (dcMask reg), x.2) })
    fits.on_ named fits.enabled (dctrlRefused_plain fits (by omega) (by omega))
  rw [halts] at run
  refine ⟨_, congrArg Host.Outcome.next run, frame_State_onDebug (by decide) (frame_State_onDebug (by decide)
    (frame_haltUnits (by decide) (frame_mono (by decide) taken))), ?_, ?_, ?_⟩
  · rw [dsResult, State.onDebug_dbg, State.onDebug_dbg, dbg]
    rfl
  · rw [dsResult, State.onDebug_dbg, State.onDebug_dbg, dbg]
    rfl
  · rw [dsResult, State.onDebug_dbg, State.onDebug_dbg, dbg, dcMask, ofNat_regField]
    rfl

theorem dctrlResume_waits (fits : DctrlFits s reg al tag fl x) (code : reg.extractLsb' 12 4 = 2) (halt : s.dbg.haltNext = none)
    (resume_ : s.dbg.resumeNext = none) : exec (.dctrlResume reg) s = .next { s with dbg := { s.dbg with
      ir := 0x11, dr := reg.setWidth 168, result := 0, resumeNext := some (reg.extractLsb' 32 16, none) } } := by
  have named : dcOp reg = 2 := by rw [dcOp_eq, code]; rfl
  refine congrArg Host.Outcome.next ((dctrl_accepts fits.on_ named fits.enabled
    (dctrlRefused_plain fits (by omega) (by omega))).trans ?_)
  simp only [dcMask, ofNat_regField, dsResult, State.onDebug, dctrlTaken, halt, resume_, Option.map_none]
  rw [← halt]
  rfl

theorem dctrlClose_waits (fits : DctrlFits s reg al tag fl x) (code : reg.extractLsb' 12 4 = 4) :
    exec (.dctrlClose reg) s = .next { s with dbg := { s.dbg with
      ir := 0x11, dr := reg.setWidth 168, result := 0, haltNext := none, resumeNext := some (s.dbg.halted, some 1) } } := by
  have named : dcOp reg = 4 := by rw [dcOp_eq, code]; rfl
  exact congrArg Host.Outcome.next (dctrl_accepts fits.on_ named fits.enabled (dctrlRefused_plain fits (by omega) (by omega)))

theorem dctrlClear_clears (fits : DctrlFits s reg al tag fl x) (code : reg.extractLsb' 12 4 = 5) :
    exec (.dctrlClearBphit reg) s = .next { s with dbg := { s.dbg with ir := 0x11, dr := reg.setWidth 168, result := 0, bphit := 0 } } := by
  have named : dcOp reg = 5 := by rw [dcOp_eq, code]; rfl
  exact congrArg Host.Outcome.next (dctrl_accepts fits.on_ named fits.enabled (dctrlRefused_plain fits (by omega) (by omega)))

end Rows

end Sys2Proof.Proofs
end

section
/-! Units that run again, the symbol boundary, the end of a step and of a session, and breakpoints (R618, R621 to R624, R628). -/

namespace Sys2Proof.Proofs

open Sys2Proof Sys2Proof.Machine Sys2Proof.Safety Sys2Proof.Laws

/-! ## Units that run again (R620, R621) -/

section Resumes

variable {s : State} {m : BitVec 16}

/-- The queue manager and the engine as they run again. -/
def unitsRunning (s : State) (on_ : BitVec 16) : State :=
  let s := if on_.toNat.testBit 2 then queuesResume s else s
  if on_.toNat.testBit 3 then engineResume s else s

theorem unitsRunning_alters (on_ : BitVec 16) : Alters [.streams, .engine] s (unitsRunning s on_) := by
  have queues : Alters [.streams, .engine] s (if on_.toNat.testBit 2 then queuesResume s else s) := by
    split
    · exact frame_queuesResume (by decide) (frame_refl _ s)
    · exact frame_refl _ s
  unfold unitsRunning
  dsimp only
  split
  · exact frame_engineResume (by decide) queues
  · exact queues

/-- The state with the units no longer halted, before the back ends run again. -/
def unitsMarked (s : State) (on_ : BitVec 16) : State :=
  (unitsRunning s on_).onDebug fun d => { d with halted := d.halted &&& ~~~on_, haltedAt := d.haltedAt.filter fun e => !on_.toNat.testBit e.1 }

theorem runUnits_eq : runUnits s m = if (m &&& s.dbg.halted).toNat.testBit 6 then
    (unitsMarked s (m &&& s.dbg.halted)).each (List.finRange 24) backEndResume else unitsMarked s (m &&& s.dbg.halted) := rfl

theorem backEnds_alters : Alters [.tables, .chans, .mem, .engine, .seat, .events] s (s.each (List.finRange 24) backEndResume) :=
  each_keeps (P := fun t => Alters [.tables, .chans, .mem, .engine, .seat, .events] s t) (fun _ _ kept => frame_backEndResume (List.Subset.refl _) kept)
    (frame_refl _ s)

theorem runUnits_dbg : ∃ ats, (runUnits s m).dbg = { s.dbg with halted := s.dbg.halted &&& ~~~(m &&& s.dbg.halted), haltedAt := ats } := by
  have marked : ∃ ats, (unitsMarked s (m &&& s.dbg.halted)).dbg =
      { s.dbg with halted := s.dbg.halted &&& ~~~(m &&& s.dbg.halted), haltedAt := ats } := by
    unfold unitsMarked
    rw [State.onDebug_dbg, same_dbg (unitsRunning_alters _) (by decide)]
    exact ⟨_, rfl⟩
  rw [runUnits_eq]
  split
  · rw [same_dbg backEnds_alters (by decide)]
    exact marked
  · exact marked

/-- Without the back ends among them, the units that run again leave the channels and the seat. -/
theorem runUnits_chans (other : m.getLsbD 6 = false) : (runUnits s m).chans = s.chans ∧ (runUnits s m).seat = s.seat := by
  have bit6 : ¬ (m &&& s.dbg.halted).toNat.testBit 6 = true := by
    rw [BitVec.testBit_toNat, BitVec.getLsbD_and, other]
    exact nofun
  have marked : Alters [.streams, .engine, .dbg] s (unitsMarked s (m &&& s.dbg.halted)) :=
    frame_State_onDebug (by decide) (frame_mono (by decide) (unitsRunning_alters _))
  rw [runUnits_eq, if_neg bit6]
  exact ⟨same_chans marked (by decide), same_seat marked (by decide)⟩

theorem and_not_and (x y : BitVec 16) : x &&& ~~~(y &&& x) = x &&& ~~~y := by
  ext i
  simp only [BitVec.getElem_and, BitVec.getElem_not]
  cases x[i] <;> cases y[i] <;> rfl

/-- A resume takes its units out of those halted and leaves the rest of the debug part but its own records. -/
theorem resumeUnits_dbg : ∃ ats, (resumeUnits s m).dbg = { s.dbg with halted := s.dbg.halted &&& ~~~m, haltedAt := ats } := by
  unfold resumeUnits
  dsimp only
  split
  · next none_ =>
    have same : s.dbg.halted &&& ~~~m = s.dbg.halted := by
      rw [← and_not_and, beq_iff_eq.mp none_]
      exact BitVec.and_allOnes
    exact ⟨s.dbg.haltedAt, by rw [same]⟩
  · obtain ⟨ats, dbg⟩ := runUnits_dbg (s := s) (m := m &&& s.dbg.halted)
    rw [raise_dbg, dbg, BitVec.and_assoc, BitVec.and_self, and_not_and]
    exact ⟨ats, rfl⟩

end Resumes

/-! ## DCTRL_STEP (R622) -/

section Step

variable {s : State} {reg : BitVec 64} {al tag : BitVec 16} {fl : BitVec 8} {x : Fin 16 × Tick}

theorem stepLength_eq (kind n : Nat) : stepLength kind n = if kind = 0 then (n + 1) / 2 * 2 else n := by
  unfold stepLength
  simp only [beq_iff_eq]

theorem dctrlStep_runs (fits : DctrlFits s reg al tag fl x) (code : reg.extractLsb' 12 4 = 3) (count : reg.extractLsb' 16 16 ≠ 0)
    (some_ : reg.extractLsb' 32 16 &&& s.dbg.halted ≠ 0) (idle : s.dbg.step = none)
    (queues : reg.extractLsb' 10 2 = 2 → reg.extractLsb' 32 16 &&& 0xFFF8 = 0)
    (engine : reg.extractLsb' 10 2 = 3 → reg.extractLsb' 32 16 &&& 0xFFF7 = 0) :
    let m := reg.extractLsb' 32 16
    ∃ t, exec (.dctrlStep reg) s = .next t ∧
      Alters [.tables, .streams, .chans, .mem, .engine, .seat, .events, .dbg] s t ∧
      t.dbg.halted = s.dbg.halted &&& ~~~(m &&& s.dbg.halted) ∧ t.dbg.result = 0 ∧
      t.dbg.step = some (m &&& s.dbg.halted, reg.extractLsb' 10 2,
        if reg.extractLsb' 10 2 = 0 then ((reg.extractLsb' 16 16).toNat + 1) / 2 * 2 else (reg.extractLsb' 16 16).toNat) ∧
      (m.getLsbD 6 = false → t.chans = s.chans ∧ t.seat = s.seat) := by
  intro m
  have named : dcOp reg = 3 := by rw [dcOp_eq, code]; rfl
  have kinds : stepBad (regField reg 10 2) m = false := by
    rw [← Bool.not_eq_true, stepBad_iff]
    rintro (⟨kind, out⟩ | ⟨kind, out⟩)
    · exact out (queues kind)
    · exact out (engine kind)
  let on_ := m &&& s.dbg.halted
  let u := dctrlTaken s reg
  let stepped := fun (d : Debug) =>
    let old := match d.step with
      | some (k, _, _) => k
      | none => 0
    { d with step := some (on_ ||| old, BitVec.ofNat 2 (regField reg 10 2), stepLength (regField reg 10 2) (regField reg 16 16)) }
  have run : exec (.dctrlStep reg) s = .next (dsResult ((runUnits u on_).onDebug stepped) 0) := by
    refine congrArg Host.Outcome.next ((dctrl_accepts fits.on_ named fits.enabled (dctrlRefused_step fits named count kinds)).trans ?_)
    have mask : dcMask reg &&& (dctrlTaken s reg).dbg.halted = on_ := by
      rw [dcMask, ofNat_regField]
      rfl
    dsimp only
    rw [mask]
    exact congrArg (dsResult · 0) (if_neg (by simpa using some_))
  obtain ⟨ats, dbg⟩ := runUnits_dbg (s := u) (m := on_)
  have taken : Alters [.dbg] s u := frame_State_onDebug (List.Subset.refl _) (frame_State_onDebug (List.Subset.refl _) (frame_refl _ s))
  have masked : on_ &&& u.dbg.halted = on_ := by
    change m &&& s.dbg.halted &&& s.dbg.halted = _
    rw [BitVec.and_assoc, BitVec.and_self]
  refine ⟨_, run, frame_State_onDebug (by decide) (frame_State_onDebug (by decide) (frame_runUnits (by decide) (frame_mono (by decide) taken))),
    ?_, rfl, ?_, fun other => ?_⟩
  · rw [dsResult, State.onDebug_dbg, State.onDebug_dbg]
    change (runUnits u on_).dbg.halted = _
    rw [dbg, masked]
    rfl
  · rw [dsResult, State.onDebug_dbg, State.onDebug_dbg]
    have none_ : (runUnits u on_).dbg.step = none := by rw [dbg]; exact idle
    have zero : (regField reg 10 2 = 0) = (reg.extractLsb' 10 2 = 0) := by
      rw [regField_eq]
      exact propext (toNat_eq_iff _ 0 (by decide))
    simp only [stepped, none_, ofNat_regField, stepLength_eq, zero, regField_eq reg 16 16]
    exact congrArg (fun k => some (k, _, _)) BitVec.or_zero
  · have plain : on_.getLsbD 6 = false := by
      rw [show on_ = m &&& s.dbg.halted from rfl, BitVec.getLsbD_and, other]
      rfl
    obtain ⟨chans, seat⟩ := runUnits_chans (s := u) plain
    exact ⟨chans.trans (same_chans taken (by decide)), seat.trans (same_seat taken (by decide))⟩

end Step

/-! ## The symbol boundary (R621) -/

section Boundary

variable {s : State} {m : BitVec 16}

theorem idleTick_dbg (s : State) : (idleTick s).dbg = s.dbg := by
  unfold idleTick
  split
  · rfl
  · split
    · dsimp only
      split <;> rfl
    · rfl

theorem idleTick_runs (s : State) : shellRuns (idleTick s) = shellRuns s := by
  unfold idleTick
  split
  · rfl
  · split
    · dsimp only
      split <;> rfl
    · rfl

theorem step_atSymbol (idle : s.pending = []) (runs : shellRuns s = true) (boundary : atSymbol (idleTick s) = true) (none_ : s.dbg.step = none) :
    step s = .next (haltDue (resumeDue (idleTick s))) := by
  have still : stepTick (idleTick s) = idleTick s := by
    unfold stepTick
    rw [idleTick_dbg, none_]
  unfold step
  rw [idle]
  dsimp only
  unfold debugTick
  rw [idleTick_runs, runs]
  dsimp only
  rw [still, if_neg nofun, if_pos boundary]

theorem resumeDue_none (none_ : s.dbg.resumeNext = none) : resumeDue s = s := by
  unfold resumeDue
  rw [none_]

theorem haltDue_none (none_ : s.dbg.haltNext = none) : haltDue s = s := by
  unfold haltDue
  rw [none_]

theorem boundary_halts (idle : s.pending = []) (runs : shellRuns s = true) (boundary : atSymbol (idleTick s) = true)
    (resume_ : s.dbg.resumeNext = none) (none_ : s.dbg.step = none) (halt : s.dbg.haltNext = some m) :
    ∃ t, step s = .next t ∧ t.dbg.halted = s.dbg.halted ||| m ∧ t.dbg.haltNext = none ∧ t.dbg.session = s.dbg.session ∧
      (m &&& ~~~s.dbg.halted ≠ 0 → Logs (idleTick s) t 0x1202 0x80 (beBytes 2 (s.dbg.halted ||| m).toNat ++ [1])) := by
  let v := (idleTick s).onDebug fun d => { d with haltNext := none }
  have due : haltDue (resumeDue (idleTick s)) = haltUnits v m 1 := by
    rw [resumeDue_none (by rw [idleTick_dbg]; exact resume_)]
    unfold haltDue
    rw [idleTick_dbg, halt]
  have halted : v.dbg.halted = s.dbg.halted := by
    rw [State.onDebug_dbg, idleTick_dbg]
  obtain ⟨ats, tier, dbg⟩ := haltUnits_dbg (s := v) (m := m) (cause := 1)
  refine ⟨_, (step_atSymbol idle runs boundary none_).trans (congrArg Host.Outcome.next due), ?_, ?_, ?_, fun some_ => ?_⟩
  · rw [dbg]
    exact congrArg (· ||| m) halted
  · rw [dbg, State.onDebug_dbg]
  · rw [dbg, State.onDebug_dbg, idleTick_dbg]
  · have logs := haltUnits_logs (s := v) (m := m) (cause := 1) (by rw [halted]; exact some_)
    rw [halted] at logs
    exact logs

theorem boundary_resumes (idle : s.pending = []) (runs : shellRuns s = true) (boundary : atSymbol (idleTick s) = true)
    (halt : s.dbg.haltNext = none) (none_ : s.dbg.step = none) (resume_ : s.dbg.resumeNext = some (m, none)) :
    ∃ t, step s = .next t ∧ t.dbg.halted = s.dbg.halted &&& ~~~m ∧ t.dbg.resumeNext = none ∧ t.dbg.session = s.dbg.session := by
  let v := (idleTick s).onDebug fun d => { d with resumeNext := none }
  have due : resumeDue (idleTick s) = resumeUnits v m := by
    unfold resumeDue
    rw [idleTick_dbg, resume_]
  obtain ⟨ats, dbg⟩ := resumeUnits_dbg (s := v) (m := m)
  have vdbg : v.dbg = { s.dbg with resumeNext := none } := by
    rw [State.onDebug_dbg, idleTick_dbg]
  rw [vdbg] at dbg
  have stays : haltDue (resumeUnits v m) = resumeUnits v m := haltDue_none (by rw [dbg]; exact halt)
  refine ⟨_, (step_atSymbol idle runs boundary none_).trans (congrArg Host.Outcome.next ((congrArg haltDue due).trans stays)), ?_, ?_, ?_⟩ <;> rw [dbg]

end Boundary

/-! ## STEP_END and SESSION_LIFETIME_END (R622, R618) -/

section Ends

variable {s : State} {m : BitVec 16} {k : BitVec 2}

theorem stepEnd_early (counts : ∀ m k, s.dbg.step ≠ some (m, k, 0)) : exec .stepEnd s = .next s := by
  change execStepEnd s = _
  unfold execStepEnd
  split
  · next m k done => exact absurd done (counts m k)
  · rfl

theorem stepEnd_halts (done : s.dbg.step = some (m, k, 0)) :
    ∃ t, exec .stepEnd s = .next t ∧ Alters [.chans, .events, .dbg] s t ∧ t.dbg.step = none ∧ t.dbg.halted = s.dbg.halted ||| m ∧
      (m &&& ~~~s.dbg.halted ≠ 0 → Logs s t 0x1202 0x80 (beBytes 2 (s.dbg.halted ||| m).toNat ++ [3])) := by
  let v := s.onDebug fun d => { d with step := none }
  have run : exec .stepEnd s = .next (haltUnits v m 3) := by
    change execStepEnd s = _
    unfold execStepEnd
    rw [done]
    rfl
  have taken : Alters [.dbg] s v := frame_State_onDebug (List.Subset.refl _) (frame_refl _ s)
  obtain ⟨ats, tier, dbg⟩ := haltUnits_dbg (s := v) (m := m) (cause := 3)
  refine ⟨_, run, frame_haltUnits (List.Subset.refl _) (frame_mono (by decide) taken), by rw [dbg]; rfl, by rw [dbg]; rfl, fun some_ => ?_⟩
  exact haltUnits_logs (s := v) (m := m) (cause := 3) some_

theorem sessionLifetimeEnd_early (lives : s.dbg.session = none ∨ ∃ a b c d e, s.dbg.session = some (a, b, c, d, e) ∧ s.clock.age.toNat < e.toNat) :
    exec .sessionLifetimeEnd s = .next s := by
  change execSessionLifetimeEnd s = _
  unfold execSessionLifetimeEnd
  rcases lives with none_ | ⟨a, b, c, d, e, session, early⟩
  · rw [none_]
  · rw [session]
    exact congrArg Host.Outcome.next (whenDue_neg (decide_eq_false (Nat.not_le.mpr early)))

/-- The debug part of a session that has ended. -/
def sessionEnded (d : Debug) : Debug :=
  { d with session := none, cmps := Vector.replicate 8 Cmp.off, haltNext := none, step := none,
           resumeNext := if d.halted == 0 then none else some (d.halted, none) }

theorem closeSession_some {cause : Nat} (some_ : s.dbg.session ≠ none) :
    closeSession s cause = raise (s.onDebug sessionEnded) 0x1205 0x80 (beBytes 1 cause) := by
  unfold closeSession
  rw [if_neg (by simpa using some_)]
  rfl

theorem sessionLifetimeEnd_ends {a : BitVec 16} {b : BitVec 8} {c : BitVec 16} {d : Fin 16} {e : Tick}
    (session : s.dbg.session = some (a, b, c, d, e)) (over_ : e.toNat ≤ s.clock.age.toNat) :
    ∃ t, exec .sessionLifetimeEnd s = .next t ∧ Alters [.events, .dbg] s t ∧ t.dbg.session = none ∧ t.dbg.halted = s.dbg.halted ∧
      (∀ n : Fin 8, t.dbg.cmps[n] = Cmp.off) ∧ t.dbg.step = none ∧ t.dbg.haltNext = none ∧
      t.dbg.resumeNext = (if s.dbg.halted = 0 then none else some (s.dbg.halted, none)) ∧ Logs s t 0x1205 0x80 [2] := by
  have run : exec .sessionLifetimeEnd s = .next (raise (s.onDebug sessionEnded) 0x1205 0x80 [2]) := by
    change execSessionLifetimeEnd s = _
    unfold execSessionLifetimeEnd
    rw [session]
    exact congrArg Host.Outcome.next ((whenDue_pos (decide_eq_true over_)).trans (closeSession_some (by rw [session]; exact nofun)))
  refine ⟨_, run, frame_raise (by decide) (frame_State_onDebug (by decide) (frame_refl _ s)), ?_, ?_, fun n => ?_, ?_, ?_, ?_,
    logs_at (raise_logs_plain (by decide) (by decide) (by decide) (by decide)) rfl⟩
  · rw [raise_dbg]
    rfl
  · rw [raise_dbg]
    rfl
  · rw [raise_dbg]
    exact Vector.getElem_replicate n.isLt
  · rw [raise_dbg]
    rfl
  · rw [raise_dbg]
    rfl
  · rw [raise_dbg]
    simp only [State.onDebug_dbg, sessionEnded, beq_iff_eq]

end Ends

/-! ## BREAKPOINT_FIRE (R623, R624) -/

section Breakpoints

variable {s : State} {n : Fin 8} {q : BitVec 64}

theorem breakpointFire_idle (idle : shellRuns s = false ∨ s.dbg.cmps[n].act = 0 ∨
      q &&& s.dbg.cmps[n].mask ≠ s.dbg.cmps[n].value &&& s.dbg.cmps[n].mask ∨
      (s.dbg.cmps[n].kind = 4 ∧ s.clock.counter.toNat < q.toNat)) : exec (.breakpointFire n q) s = .next s := by
  refine congrArg Host.Outcome.next (whenDue_neg ?_)
  unfold cmpMeets
  rcases idle with stopped | off | other | ⟨tick, early⟩
  · rw [stopped]
    rfl
  · rw [off]
    simp
  · rw [beq_eq_false_iff_ne.mpr other]
    simp
  · rw [tick, decide_eq_false (Nat.not_le.mpr early)]
    simp

theorem breakpointFire_meets (runs : shellRuns s = true) (armed : s.dbg.cmps[n].act ≠ 0)
    (same : q &&& s.dbg.cmps[n].mask = s.dbg.cmps[n].value &&& s.dbg.cmps[n].mask)
    (tick : s.dbg.cmps[n].kind = 4 → q.toNat ≤ s.clock.counter.toNat) : exec (.breakpointFire n q) s = .next
      (if s.dbg.cmps[n].count ≤ 1 then fire s n s.dbg.cmps[n] q
       else s.onDebug fun d => { d with cmps := d.cmps.set n { s.dbg.cmps[n] with count := s.dbg.cmps[n].count - 1 } }) := by
  refine congrArg Host.Outcome.next (whenDue_pos ?_)
  unfold cmpMeets
  rw [runs, beq_iff_eq.mpr same, bne_iff_ne.mpr armed]
  by_cases kind : s.dbg.cmps[n].kind = 4
  · rw [decide_eq_true (tick kind)]
    simp
  · rw [bne_iff_ne.mpr kind]
    rfl

/-- The comparator is off and its bit stands. -/
def hitMarked (s : State) (n : Fin 8) : State :=
  s.onDebug fun d => { d with cmps := d.cmps.set n Cmp.off, bphit := d.bphit ||| BitVec.ofNat 8 (2 ^ n.val) }

/-- The halt of a breakpoint whose action asks for it. -/
def hitHalted (s : State) (act : BitVec 2) : State := if act == 2 then haltUnits s (doAllow s) 2 else s

theorem fire_eq (c : Cmp) : fire s n c q = raise (hitHalted (hitMarked s n) c.act) 0x1204 0x80
    (beBytes 1 n.val ++ beBytes 1 c.kind.toNat ++ beBytes 8 q.toNat) := rfl

theorem hitHalted_alters (act : BitVec 2) : Alters [.chans, .events, .dbg] s (hitHalted s act) := by
  unfold hitHalted
  split
  · exact haltUnits_alters
  · exact frame_refl _ s

theorem hitHalted_dbg (act : BitVec 2) : ∃ h ats tier, (hitHalted s act).dbg = { s.dbg with halted := h, haltedAt := ats, haltTier := tier } := by
  unfold hitHalted
  split
  · obtain ⟨ats, tier, dbg⟩ := haltUnits_dbg (s := s) (m := doAllow s) (cause := 2)
    exact ⟨_, ats, tier, dbg⟩
  · exact ⟨_, _, _, rfl⟩

theorem breakpointFire_hits (runs : shellRuns s = true) (armed : s.dbg.cmps[n].act ≠ 0)
    (same : q &&& s.dbg.cmps[n].mask = s.dbg.cmps[n].value &&& s.dbg.cmps[n].mask)
    (tick : s.dbg.cmps[n].kind = 4 → q.toNat ≤ s.clock.counter.toNat) :
    ∃ t, exec (.breakpointFire n q) s = .next t ∧ Alters [.chans, .events, .dbg] s t ∧
      (∀ m, m ≠ n → t.dbg.cmps[m] = s.dbg.cmps[m]) ∧ t.dbg.session = s.dbg.session ∧
      (1 < s.dbg.cmps[n].count → t = { s with dbg := { s.dbg with cmps := t.dbg.cmps } } ∧
        t.dbg.cmps[n] = { s.dbg.cmps[n] with count := s.dbg.cmps[n].count - 1 }) ∧
      (s.dbg.cmps[n].count ≤ 1 → t.dbg.cmps[n] = Cmp.off ∧ t.dbg.bphit = s.dbg.bphit ||| BitVec.ofNat 8 (2 ^ n.val) ∧
        Logs s t 0x1204 0x80 (beBytes 1 n.val ++ beBytes 1 s.dbg.cmps[n].kind.toNat ++ beBytes 8 q.toNat) ∧
        (s.dbg.cmps[n].act = 1 → t.dbg.halted = s.dbg.halted ∧ t.chans = s.chans) ∧
        (s.dbg.cmps[n].act = 2 → ∀ al x, s.dbg.session = some (al, x) → t.dbg.halted = s.dbg.halted ||| al)) := by
  have run := breakpointFire_meets runs armed same tick
  have set_own : ∀ c, (s.dbg.cmps.set n c)[n] = c := fun c => Vector.getElem_set_self n.isLt
  have set_other : ∀ c, ∀ m : Fin 8, m ≠ n → (s.dbg.cmps.set n c)[m] = s.dbg.cmps[m] := fun c m other =>
    Vector.getElem_set_ne n.isLt m.isLt fun e => other (Fin.ext e.symm)
  by_cases last : s.dbg.cmps[n].count ≤ 1
  · rw [if_pos last, fire_eq] at run
    generalize s.dbg.cmps[n] = c at run last
    obtain ⟨h, ats, tier, dbg⟩ := hitHalted_dbg (s := hitMarked s n) c.act
    have halts : Alters [.chans, .events, .dbg] (hitMarked s n) (hitHalted (hitMarked s n) c.act) := hitHalted_alters _
    have marked : Alters [.dbg] s (hitMarked s n) := frame_State_onDebug (List.Subset.refl _) (frame_refl _ s)
    refine ⟨_, run, frame_raise (by decide) (frame_trans (frame_mono (by decide) marked) halts), fun m other => ?_, ?_, fun more => by omega,
      fun _ => ⟨?_, ?_, ?_, fun event => ?_, fun halt al x session => ?_⟩⟩
    · rw [raise_dbg, dbg]
      exact set_other _ m other
    · rw [raise_dbg, dbg]
      rfl
    · rw [raise_dbg, dbg]
      exact set_own _
    · rw [raise_dbg, dbg]
      rfl
    · exact logs_at (raise_logs_plain (by decide) (by decide) (by decide) (by decide)) (congrArg (fun k => k.counter) (same_clock halts (by decide)))
    · have still : hitHalted (hitMarked s n) c.act = hitMarked s n := by
        unfold hitHalted
        rw [event]
        rfl
      rw [raise_dbg, raise_chans, still]
      exact ⟨rfl, rfl⟩
    · have halted : hitHalted (hitMarked s n) c.act = haltUnits (hitMarked s n) al 2 := by
        have allowed : doAllow (hitMarked s n) = al := by
          unfold doAllow
          rw [show (hitMarked s n).dbg.session = some (al, x) from session]
        unfold hitHalted
        rw [halt, allowed]
        rfl
      obtain ⟨ats', tier', dbg'⟩ := haltUnits_dbg (s := hitMarked s n) (m := al) (cause := 2)
      rw [raise_dbg, halted, dbg']
      rfl
  · rw [if_neg last] at run
    refine ⟨_, run, frame_State_onDebug (by decide) (frame_refl _ s), fun m other => set_other _ m other, rfl, fun _ => ⟨rfl, set_own _⟩,
      fun few => absurd few last⟩

end Breakpoints

/-- Settles O60: a DCTRL is refused by its fields in their order; halts and resumes change the halted units alone, at their boundary. -/
theorem debugControlHaltsStepsAndEnds : Obligations.DebugControlHaltsStepsAndEnds := by
  refine ⟨fun reg s op c row named => dctrl_refusals row named, ?_, fun s m idle runs boundary resume_ none_ halt =>
      boundary_halts idle runs boundary resume_ none_ halt,
    fun s m idle runs boundary halt none_ resume_ => boundary_resumes idle runs boundary halt none_ resume_,
    fun s counts => stepEnd_early counts, fun s m k done => stepEnd_halts done, fun s lives => sessionLifetimeEnd_early lives,
    fun s a b c d e session over_ => sessionLifetimeEnd_ends session over_, fun n q s idle => breakpointFire_idle idle,
    fun n q s runs armed same tick => breakpointFire_hits runs armed same tick⟩
  intro reg s al fl tag h e on_ enabled session tagged allowed plain m d
  have fits : DctrlFits s reg al tag fl (h, e) := ⟨on_, enabled, session, tagged, allowed, plain⟩
  exact ⟨fun code idle free => dctrlHalt_waits fits code idle free, fun u k n code runs => dctrlHalt_ends fits code runs,
    fun code halt resume_ => dctrlResume_waits fits code halt resume_, fun code => dctrlClose_waits fits code,
    fun code => dctrlClear_clears fits code,
    fun code count some_ idle queues engine => dctrlStep_runs fits code count some_ idle queues engine⟩

end Sys2Proof.Proofs
end

section
/-! The debug port's registers: the TAP rows and DSTATUS, the comparators DBRK writes, one word of memory by DMEM (21_debug_port.md, R611
to R627). -/

namespace Sys2Proof.Proofs

open Sys2Proof Sys2Proof.Machine Sys2Proof.Safety Sys2Proof.Laws

/-! ## Fields of a register built as a sum -/

section Packed

variable {w lo n v f : Nat}

theorem pow_split (fits : lo + n ≤ w) : 2 ^ w = 2 ^ lo * (2 ^ n * 2 ^ (w - (lo + n))) := by
  rw [← Nat.pow_add, ← Nat.pow_add]
  congr 1
  omega

/-- A field of a register is the number's digit that stands there. -/
theorem packed_field (fits : lo + n ≤ w) (digit : v / 2 ^ lo % 2 ^ n = f) : ((BitVec.ofNat w v).extractLsb' lo n).toNat = f := by
  rw [BitVec.extractLsb'_toNat, BitVec.toNat_ofNat, Nat.shiftRight_eq_div_pow, pow_split fits, Nat.mod_mul_right_div_self,
    Nat.mod_mod_of_dvd _ (Nat.dvd_mul_right _ _)]
  exact digit

theorem packed_bits {f : BitVec n} (fits : lo + n ≤ w) (digit : v / 2 ^ lo % 2 ^ n = f.toNat) : (BitVec.ofNat w v).extractLsb' lo n = f :=
  BitVec.eq_of_toNat_eq (packed_field fits digit)

theorem packed_bit {b : Bool} (fits : lo < w) (digit : v / 2 ^ lo % 2 = b2n b) : (BitVec.ofNat w v).getLsbD lo = b := by
  rw [BitVec.getLsbD_ofNat, decide_eq_true fits, Bool.true_and, Nat.testBit_eq_decide_div_mod_eq, digit]
  cases b <;> rfl

end Packed

/-! ## The TAP (R613 to R616) -/

section Tap

variable {s : State}

theorem tapReset_off (off : tapWorks s = false) : exec .tapReset s = .next s := congrArg Host.Outcome.next (whenDue_neg off)

theorem tapWrites_off (off : tapWorks s = false) {i : Byte} {b : BitVec 168} : exec (.tapRegisterWrite i b) s = .next s :=
  congrArg Host.Outcome.next (whenDue_neg off)

theorem dmem_off {r : BitVec 104} {op : Nat} {f : State → State} (off : tapWorks s = false) : dmem s r op f = s := by
  unfold dmem
  rw [off]
  rfl

theorem tapWrites {i : Byte} {b : BitVec 168} (on_ : tapWorks s = true) : exec (.tapRegisterWrite i b) s = .next (tapUpdate s i b) :=
  congrArg Host.Outcome.next (whenDue_pos on_)

/-- Every code outside the list selects the bypass register. -/
theorem tapUpdate_unlisted {i : Byte} {b : BitVec 168} (unlisted : i ∉ [(0x00 : Byte), 0x01, 0x02, 0x03, 0x04, 0x10, 0x11, 0x12, 0x13]) :
    tapUpdate s i b = { s with dbg := { s.dbg with ir := i, dr := 0 } } := by
  have apart : ∀ k : Nat, k < 256 → i ≠ BitVec.ofNat 8 k → i.toNat ≠ k := fun k small other same => other ((toNat_eq_iff i k small).mp same)
  simp only [List.mem_cons, List.not_mem_nil, or_false, not_or] at unlisted
  obtain ⟨c0, c1, c2, c3, c4, c10, c11, c12, c13⟩ := unlisted
  unfold tapUpdate
  dsimp only
  split
  next same => exact absurd same (apart 0x00 (by decide) c0)
  next same => exact absurd same (apart 0x01 (by decide) c1)
  next same => exact absurd same (apart 0x03 (by decide) c3)
  next same => exact absurd same (apart 0x04 (by decide) c4)
  next same => exact absurd same (apart 0x12 (by decide) c12)
  next same => exact absurd same (apart 0x02 (by decide) c2)
  next same => exact absurd same (apart 0x10 (by decide) c10)
  next same => exact absurd same (apart 0x11 (by decide) c11)
  next same => exact absurd same (apart 0x13 (by decide) c13)
  next => rfl

theorem tierCap_lt (s : State) : tierCap s < 256 := by
  have a := b2n_le (reqTier s != .full)
  have b := b2n_le s.tiers.capStrap
  have c := b2n_le s.tiers.stranger
  have d := b2n_le s.tiers.capVault
  have e := b2n_le (s.dbg.halted != 0)
  unfold tierCap
  omega

theorem haltCode_lt (h : Option KindleFail) : haltCode h < 4 := by
  cases h with
  | none => decide
  | some k => cases k <;> decide

theorem rank_lt (t : Tier) : t.rank < 8 := by cases t <;> decide

/-- DSTATUS (Table 21.10): every field has its place. -/
theorem dstatus_fields (s : State) (enabled : s.straps.dbgEn = true) :
    let r : BitVec 168 := (dstatus s).setWidth 168
    r.extractLsb' 48 16 = s.dbg.halted ∧ r.extractLsb' 24 8 = s.dbg.bphit ∧
    (r.extractLsb' 21 3).toNat = s.tiers.tier.rank ∧ r.getLsbD 20 = s.dbg.session.isSome ∧ r.getLsbD 19 = true ∧
    r.getLsbD 18 = s.dbg.step.isSome ∧ r.extractLsb' 16 2 = s.dbg.result ∧ (r.extractLsb' 0 8).toNat = tierCap s ∧
    r.extractLsb' 32 16 = doAllow s := by
  intro r
  have h1 := s.dbg.halted.isLt
  have h2 := (doAllow s).isLt
  have h3 := s.dbg.bphit.isLt
  have h4 := rank_lt s.tiers.tier
  have h5 := b2n_le s.dbg.session.isSome
  have h6 := b2n_le true
  have h7 := b2n_le s.dbg.step.isSome
  have h8 := s.dbg.result.isLt
  have h9 := haltCode_lt s.supply.haltReason
  have h10 := tierCap_lt s
  have h11 : min s.supply.attempts 3 ≤ 3 := Nat.min_le_right _ _
  have wide : ∃ v, r = BitVec.ofNat 168 v ∧ v = s.dbg.halted.toNat * 2 ^ 48 + (doAllow s).toNat * 2 ^ 32
      + s.dbg.bphit.toNat * 2 ^ 24 + s.tiers.tier.rank * 2 ^ 21 + b2n s.dbg.session.isSome * 2 ^ 20 + b2n true * 2 ^ 19
      + b2n s.dbg.step.isSome * 2 ^ 18 + s.dbg.result.toNat * 2 ^ 16 + min s.supply.attempts 3 * 2 ^ 14
      + haltCode s.supply.haltReason * 2 ^ 8 + tierCap s := by
    refine ⟨_, ?_, rfl⟩
    refine BitVec.eq_of_toNat_eq ?_
    change ((dstatus s).setWidth 168).toNat = _
    unfold dstatus
    rw [enabled]
    dsimp only
    rw [BitVec.toNat_setWidth, BitVec.toNat_ofNat, BitVec.toNat_ofNat]
    generalize min s.supply.attempts 3 = attempts at *
    rw [Nat.mod_eq_of_lt (by omega), Nat.mod_eq_of_lt (by omega), Nat.mod_eq_of_lt (by omega)]
  obtain ⟨v, rv, packed⟩ := wide
  clear_value r
  generalize min s.supply.attempts 3 = attempts at *
  generalize haltCode s.supply.haltReason = code at *
  generalize tierCap s = cap at *
  subst rv
  exact ⟨packed_bits (by decide) (by omega), packed_bits (by decide) (by omega), packed_field (by decide) (by omega),
    packed_bit (by decide) (by omega), packed_bit (by decide) (by omega), packed_bit (by decide) (by omega), packed_bits (by decide) (by omega),
    packed_field (by decide) (by omega), packed_bits (by decide) (by omega)⟩

theorem tapUpdate_idcode {b : BitVec 168} : tapUpdate s 0x02 b = { s with dbg := { s.dbg with ir := 0x02, dr := 0x26024347 } } := by
  unfold tapUpdate
  rfl

theorem tapUpdate_status {b : BitVec 168} (enabled : s.straps.dbgEn = true) :
    tapUpdate s 0x10 b = { s with dbg := { s.dbg with ir := 0x10, dr := (dstatus s).setWidth 168 } } := by
  change s.onDebug (fun d => { d with ir := 0x10, dr := if s.straps.dbgEn then (dstatus s).setWidth 168 else 0 }) = _
  rw [enabled]
  rfl

theorem tapUpdate_status_closed {b : BitVec 168} (closed : s.straps.dbgEn = false) :
    tapUpdate s 0x10 b = { s with dbg := { s.dbg with ir := 0x10, dr := 0 } } := by
  change s.onDebug (fun d => { d with ir := 0x10, dr := if s.straps.dbgEn then (dstatus s).setWidth 168 else 0 }) = _
  rw [closed]
  rfl

end Tap

end Sys2Proof.Proofs
end

section
/-! The comparators DBRK writes and the words DMEM reads and writes (21_debug_port.md, R623, R625, R626). -/

namespace Sys2Proof.Proofs

open Sys2Proof Sys2Proof.Machine Sys2Proof.Safety Sys2Proof.Laws

/-! ## DBRK -/

section Comparators

variable {s : State} {r : BitVec 168}

theorem debug_alters {d : Debug} : Alters [.dbg] s { s with dbg := d } := frame_State_onDebug (f := fun _ => d) (List.Subset.refl _) (frame_refl _ s)

/-- The comparator a DBRK names. -/
def dbrkNumber (r : BitVec 168) : Fin 8 := Fin.ofNat 8 (regField r 165 3)

theorem dbrkNumber_eq : Fin.ofNat 8 (r.extractLsb' 165 3).toNat = dbrkNumber r := congrArg (Fin.ofNat 8) (regField_eq r 165 3).symm

theorem cmpImage_fields {n : Nat} {c : Cmp} (few : n < 8) (small : c.count < 65536) :
    ((cmpImage n c).extractLsb' 165 3).toNat = n ∧ (cmpImage n c).extractLsb' 161 4 = c.kind ∧ (cmpImage n c).extractLsb' 159 2 = c.act ∧
    (cmpImage n c).extractLsb' 151 8 = c.wher ∧ ((cmpImage n c).extractLsb' 135 16).toNat = c.count ∧
    (cmpImage n c).extractLsb' 64 64 = c.value ∧ (cmpImage n c).extractLsb' 0 64 = c.mask := by
  have h1 := c.kind.isLt
  have h2 := c.act.isLt
  have h3 := c.wher.isLt
  have h4 := c.value.isLt
  have h5 := c.mask.isLt
  unfold cmpImage
  exact ⟨packed_field (by decide) (by omega), packed_bits (by decide) (by omega), packed_bits (by decide) (by omega),
    packed_bits (by decide) (by omega), packed_field (by decide) (by omega), packed_bits (by decide) (by omega), packed_bits (by decide) (by omega)⟩

theorem cmpOf_reserved (reserved : r.extractLsb' 161 4 = 0 ∨ 5 < (r.extractLsb' 161 4).toNat ∨ r.extractLsb' 159 2 = 3) : cmpOf r = Cmp.off := by
  unfold cmpOf
  dsimp only
  rw [regField_eq r 161 4, regField_eq r 159 2, if_pos]
  simp only [Bool.or_eq_true, beq_iff_eq, decide_eq_true_eq]
  rcases reserved with none_ | large | act
  · exact .inl (.inl (congrArg BitVec.toNat none_))
  · exact .inl (.inr large)
  · exact .inr (congrArg BitVec.toNat act)

theorem cmpOf_armed (least : 1 ≤ (r.extractLsb' 161 4).toNat) (most : (r.extractLsb' 161 4).toNat ≤ 5) (act : r.extractLsb' 159 2 ≠ 3) :
    cmpOf r = { kind := r.extractLsb' 161 4, act := r.extractLsb' 159 2, wher := r.extractLsb' 151 8,
                count := max 1 (r.extractLsb' 135 16).toNat, value := r.extractLsb' 64 64, mask := r.extractLsb' 0 64 } := by
  unfold cmpOf
  dsimp only
  rw [if_neg]
  · rw [ofNat_regField, ofNat_regField, ofNat_regField, ofNat_regField, ofNat_regField, regField_eq]
  · simp only [Bool.or_eq_true, beq_iff_eq, decide_eq_true_eq, regField_eq]
    rintro ((none_ | large) | same)
    · omega
    · omega
    · exact act ((toNat_eq_iff _ 3 (by decide)).mp same)

theorem dbrkRefused_eq : dbrkRefused s r =
    if r.extractLsb' 159 2 = 2 ∧ s.dbg.session = none then 1 else if r.extractLsb' 128 7 ≠ 0 then 3 else 0 := by
  have halts : (r.extractLsb' 159 2).toNat = 2 ↔ r.extractLsb' 159 2 = 2 := toNat_eq_iff _ 2 (by decide)
  have reserved : (r.extractLsb' 128 7).toNat = 0 ↔ r.extractLsb' 128 7 = 0 := toNat_eq_iff _ 0 (by decide)
  unfold dbrkRefused
  simp only [regField_eq, Bool.and_eq_true, beq_iff_eq, bne_iff_ne, ne_eq, Option.isNone_iff_eq_none, halts, reserved]

theorem dbrk_off (off : tapWorks s = false) : exec (.dbrk r) s = .next s := congrArg Host.Outcome.next (whenDue_neg off)

theorem dbrk_closed (on_ : tapWorks s = true) (closed : s.straps.dbgEn = false) :
    exec (.dbrk r) s = .next { s with dbg := { s.dbg with ir := 0x12, dr := 0 } } := by
  refine congrArg Host.Outcome.next ((whenDue_pos on_).trans ?_)
  dsimp only
  rw [if_pos (by rw [State.onDebug_straps, closed]; rfl)]
  rfl

theorem dbrk_refused (on_ : tapWorks s = true) (enabled : s.straps.dbgEn = true) {k : Nat} (refused : dbrkRefused s r = k) (some_ : k ≠ 0) :
    exec (.dbrk r) s = .next { s with dbg := { s.dbg with
      ir := 0x12, dr := cmpImage (dbrkNumber r).val s.dbg.cmps[dbrkNumber r], result := BitVec.ofNat 2 k } } := by
  refine congrArg Host.Outcome.next ((whenDue_pos on_).trans ?_)
  dsimp only
  have same : dbrkRefused (s.onDebug fun d => { d with ir := 0x12 }) r = k := refused
  rw [if_neg (by rw [State.onDebug_straps, enabled]; exact nofun), same, if_neg (by simpa using some_)]
  rfl

theorem dbrk_taken (on_ : tapWorks s = true) (enabled : s.straps.dbgEn = true) (passes : dbrkRefused s r = 0) :
    exec (.dbrk r) s = .next { s with dbg := { s.dbg with
      ir := 0x12, dr := cmpImage (dbrkNumber r).val (s.dbg.cmps.set (dbrkNumber r) (cmpOf r))[dbrkNumber r],
      cmps := s.dbg.cmps.set (dbrkNumber r) (cmpOf r), result := 0 } } := by
  refine congrArg Host.Outcome.next ((whenDue_pos on_).trans ?_)
  dsimp only
  have same : dbrkRefused (s.onDebug fun d => { d with ir := 0x12 }) r = 0 := passes
  rw [if_neg (by rw [State.onDebug_straps, enabled]; exact nofun), same, if_pos (by decide)]
  rfl

/-- DBRK with `DBG_EN` high: refusals by the fields in their order, else the named comparator is written; the register reads as it stands. -/
theorem dbrk_row (on_ : tapWorks s = true) (enabled : s.straps.dbgEn = true) {n : Fin 8} (at_ : n = dbrkNumber r) :
    ∃ t, exec (.dbrk r) s = .next t ∧ Alters [.dbg] s t ∧ t.dbg.ir = 0x12 ∧
      (∀ m, m ≠ n → t.dbg.cmps[m] = s.dbg.cmps[m]) ∧ t.dbg.session = s.dbg.session ∧ t.dbg.halted = s.dbg.halted ∧
      t.dbg.bphit = s.dbg.bphit ∧
      (t.dbg.cmps[n].count < 65536 → (t.dbg.dr.extractLsb' 165 3).toNat = n.val ∧ t.dbg.dr.extractLsb' 161 4 = t.dbg.cmps[n].kind ∧
        t.dbg.dr.extractLsb' 159 2 = t.dbg.cmps[n].act ∧ t.dbg.dr.extractLsb' 151 8 = t.dbg.cmps[n].wher ∧
        (t.dbg.dr.extractLsb' 135 16).toNat = t.dbg.cmps[n].count ∧ t.dbg.dr.extractLsb' 64 64 = t.dbg.cmps[n].value ∧
        t.dbg.dr.extractLsb' 0 64 = t.dbg.cmps[n].mask) ∧
      (r.extractLsb' 159 2 = 2 → s.dbg.session = none → t.dbg.result = 1 ∧ t.dbg.cmps = s.dbg.cmps) ∧
      ((r.extractLsb' 159 2 ≠ 2 ∨ s.dbg.session ≠ none) → r.extractLsb' 128 7 ≠ 0 → t.dbg.result = 3 ∧ t.dbg.cmps = s.dbg.cmps) ∧
      ((r.extractLsb' 159 2 ≠ 2 ∨ s.dbg.session ≠ none) → r.extractLsb' 128 7 = 0 → t.dbg.result = 0 ∧
        ((r.extractLsb' 161 4 = 0 ∨ 5 < (r.extractLsb' 161 4).toNat ∨ r.extractLsb' 159 2 = 3) → t.dbg.cmps[n] = Cmp.off) ∧
        (1 ≤ (r.extractLsb' 161 4).toNat → (r.extractLsb' 161 4).toNat ≤ 5 → r.extractLsb' 159 2 ≠ 3 → t.dbg.cmps[n] =
          { kind := r.extractLsb' 161 4, act := r.extractLsb' 159 2, wher := r.extractLsb' 151 8,
            count := max 1 (r.extractLsb' 135 16).toNat, value := r.extractLsb' 64 64, mask := r.extractLsb' 0 64 })) := by
  subst at_
  have image := fun c => cmpImage_fields (n := (dbrkNumber r).val) (c := c) (dbrkNumber r).isLt
  have refuses : ∀ k : Nat, k ≠ 0 → dbrkRefused s r = k → ∃ t, exec (.dbrk r) s = .next t ∧ t = { s with dbg := { s.dbg with
      ir := 0x12, dr := cmpImage (dbrkNumber r).val s.dbg.cmps[dbrkNumber r], result := BitVec.ofNat 2 k } } := fun k some_ refused =>
    ⟨_, dbrk_refused on_ enabled refused some_, rfl⟩
  by_cases shut : r.extractLsb' 159 2 = 2 ∧ s.dbg.session = none
  · obtain ⟨act, none_⟩ := shut
    obtain ⟨t, run, rfl⟩ := refuses 1 (by decide) (by rw [dbrkRefused_eq, if_pos ⟨act, none_⟩])
    exact ⟨_, run, debug_alters, rfl, fun _ _ => rfl, rfl, rfl, rfl, fun small => image _ small, fun _ _ => ⟨rfl, rfl⟩,
      fun allowed => absurd allowed (by simp [act, none_]), fun allowed => absurd allowed (by simp [act, none_])⟩
  · have barred : ∀ {p : Prop}, r.extractLsb' 159 2 = 2 → s.dbg.session = none → p := fun act none_ => absurd ⟨act, none_⟩ shut
    by_cases reserved : r.extractLsb' 128 7 = 0
    · have run := dbrk_taken on_ enabled (show dbrkRefused s r = 0 by rw [dbrkRefused_eq, if_neg shut, if_neg (not_not_intro reserved)])
      have named : (s.dbg.cmps.set (dbrkNumber r) (cmpOf r))[dbrkNumber r] = cmpOf r := Vector.getElem_set_self _
      refine ⟨_, run, debug_alters, rfl, fun m other => ?_, rfl, rfl, rfl, fun small => image _ small, barred, fun _ some_ => absurd reserved some_,
        fun _ _ => ⟨rfl, fun off => named.trans (cmpOf_reserved off), fun least most act => named.trans (cmpOf_armed least most act)⟩⟩
      exact Vector.getElem_set_ne (dbrkNumber r).isLt m.isLt fun same => other (Fin.ext same.symm)
    · obtain ⟨t, run, rfl⟩ := refuses 3 (by decide) (by rw [dbrkRefused_eq, if_neg shut, if_pos reserved])
      exact ⟨_, run, debug_alters, rfl, fun _ _ => rfl, rfl, rfl, rfl, fun small => image _ small, barred, fun _ _ => ⟨rfl, rfl⟩,
        fun _ none_ => absurd none_ reserved⟩

end Comparators

/-! ## DMEM -/

section Words

variable {s : State} {r : BitVec 104} {op : Nat} {f : State → State}

/-- The debug part as a DMEM takes it up. -/
def dmemTaken (s : State) : State := s.onDebug fun d => { d with ir := 0x13 }

theorem dmem_refuses (on_ : tapWorks s = true) (named : dmOp r = op) (enabled : s.straps.dbgEn = true) {n : Nat} (refused : dmemRefused s r = n)
    (some_ : n ≠ 0) : dmem s r op f = { s with dbg := { s.dbg with ir := 0x13, dr := dmCapture r 6 0, result := BitVec.ofNat 2 n } } := by
  have same : dmemRefused (dmemTaken s) r = n := refused
  unfold dmem
  rw [on_, named, bne_self_eq_false]
  dsimp only
  rw [if_neg nofun, if_neg (by rw [State.onDebug_straps, enabled]; exact nofun)]
  change dsResult (if dmemRefused (dmemTaken s) r == 0 then f (dmemTaken s) else (dmemTaken s).onDebug fun d => { d with dr := dmCapture r 6 0 })
    (dmemRefused (dmemTaken s) r) = _
  rw [same, if_neg (by simpa using some_)]
  rfl

theorem dmem_accepts (on_ : tapWorks s = true) (named : dmOp r = op) (enabled : s.straps.dbgEn = true) (passes : dmemRefused s r = 0) :
    dmem s r op f = dsResult (f (dmemTaken s)) 0 := by
  have same : dmemRefused (dmemTaken s) r = 0 := passes
  unfold dmem
  rw [on_, named, bne_self_eq_false]
  dsimp only
  rw [if_neg nofun, if_neg (by rw [State.onDebug_straps, enabled]; exact nofun)]
  change dsResult (if dmemRefused (dmemTaken s) r == 0 then f (dmemTaken s) else (dmemTaken s).onDebug fun d => { d with dr := dmCapture r 6 0 })
    (dmemRefused (dmemTaken s) r) = _
  rw [same]
  rfl

/-- A register's status and address as captured (Table 21.9). -/
theorem dmCapture_fields {stat data : Nat} (small : stat < 8) : ((dmCapture r stat data).extractLsb' 90 3).toNat = stat ∧
    ((dmCapture r stat data).extractLsb' 0 64).toNat = data % 2 ^ 64 := by
  have h1 : regField r 93 11 < 2 ^ 11 := Nat.mod_lt _ (by decide)
  have h2 : dmAddr r < 2 ^ 24 := Nat.mod_lt _ (by decide)
  unfold dmCapture
  exact ⟨packed_field (by decide) (by omega), packed_field (by decide) (by omega)⟩

theorem dmCapture_stat (k : BitVec 3) {data : Nat} : (dmCapture r k.toNat data).extractLsb' 90 3 = k :=
  BitVec.eq_of_toNat_eq (dmCapture_fields k.isLt).1

theorem dmAddr_lt : dmAddr r < 2 ^ 24 := Nat.mod_lt _ (by decide)

theorem dmAddr_aligned (aligned : r.extractLsb' 64 3 = 0) : dmAddr r % 8 = 0 := by
  have digit : (r.extractLsb' 64 3).toNat = r.toNat / 2 ^ 64 % 2 ^ 3 := by
    rw [BitVec.extractLsb'_toNat, Nat.shiftRight_eq_div_pow]
  rw [aligned, show (0 : BitVec 3).toNat = 0 from rfl] at digit
  unfold dmAddr regField
  omega

theorem groupOf_dmAddr : groupOf (dmAddr r) = dmAddr r / 2 ^ 21 := by
  have small := dmAddr_lt (r := r)
  unfold groupOf
  omega

/-- What refuses a DMEM of the form Table 21.9 gives, by its operation, its session and its address. -/
theorem dmemRefused_read (named : dmOp r = 1) (reserved : r.extractLsb' 88 2 = 0) (aligned : r.extractLsb' 64 3 = 0) :
    dmemRefused s r = if dmReach s (dmAddr r) = true then 0 else 2 := by
  unfold dmemRefused
  rw [named, dmAddr_aligned aligned, regField_eq, reserved]
  cases dmReach s (dmAddr r) <;> rfl

theorem dmemRefused_write_none (named : dmOp r = 2) (reserved : r.extractLsb' 88 2 = 0) (aligned : r.extractLsb' 64 3 = 0)
    (none_ : s.dbg.session = none) : dmemRefused s r = 1 := by
  unfold dmemRefused
  rw [named, dmAddr_aligned aligned, regField_eq, reserved, none_]
  rfl

theorem dmemRefused_write {al : BitVec 16} {fl : BitVec 8} {x : BitVec 16 × Fin 16 × Tick} (named : dmOp r = 2) (reserved : r.extractLsb' 88 2 = 0)
    (aligned : r.extractLsb' 64 3 = 0) (session : s.dbg.session = some (al, fl, x)) :
    dmemRefused s r = if fl.getLsbD 0 = true then if dmReach s (dmAddr r) = true then 0 else 2 else 2 := by
  unfold dmemRefused
  rw [named, dmAddr_aligned aligned, regField_eq, reserved, session]
  dsimp only
  rw [BitVec.testBit_toNat]
  cases fl.getLsbD 0 <;> cases dmReach s (dmAddr r) <;> rfl

theorem dmReach_iff : dmReach s (dmAddr r) = true ↔ shellRuns s = true ∧ ¬ (0x330000 ≤ dmAddr r ∧ dmAddr r < 0x400000) ∧
    works s (.group (Fin.ofNat 8 (dmAddr r / 2 ^ 21))) = true := by
  unfold dmReach
  rw [groupOf_dmAddr]
  simp only [Bool.and_eq_true, Bool.not_eq_true', Bool.and_eq_false_iff, decide_eq_false_iff_not, not_and_or, and_assoc]

/-- The windows whose words are read from the cells. -/
theorem dmWord_cells {a : Nat} (cells : a < 0x200000 ∨ (0xC00000 ≤ a ∧ a < 0xF00000)) : dmWord s a = (beNat (s.mem.readN a 8), s) := by
  unfold dmWord
  rw [if_pos]
  simp only [Bool.or_eq_true, Bool.and_eq_true, decide_eq_true_eq]
  exact cells.elim (fun low => .inl (.inl low)) .inr

theorem dmemRead_refused {e : Ecc} (on_ : tapWorks s = true) (enabled : s.straps.dbgEn = true) (named : dmOp r = 1)
    (refused : dmemRefused s r = 2) :
    exec (.dmemRead r e) s = .next { s with dbg := { s.dbg with ir := 0x13, dr := dmCapture r 6 0, result := 2 } } :=
  congrArg Host.Outcome.next (dmem_refuses on_ named enabled refused (by decide))

theorem dmemRead_clean {e : Ecc} (on_ : tapWorks s = true) (enabled : s.straps.dbgEn = true) (named : dmOp r = 1)
    (passes : dmemRefused s r = 0) (cells : dmAddr r < 0x200000 ∨ (0xC00000 ≤ dmAddr r ∧ dmAddr r < 0xF00000))
    (fresh : dmAddr r ∉ e.poisoned) (clean : dmAddr r ∉ s.mem.poison) (right : dmAddr r ∉ e.corrected) :
    exec (.dmemRead r e) s = .next { s with dbg := { s.dbg with
      ir := 0x13, dr := dmCapture r 1 (beNat (s.mem.readN (dmAddr r) 8)), result := 0 } } := by
  refine congrArg Host.Outcome.next ((dmem_accepts on_ named enabled passes).trans ?_)
  have poisoned : (e.poisoned.contains (dmAddr r) || (dmemTaken s).mem.poison.contains (dmAddr r)) = false := by
    rw [Bool.or_eq_false_iff, List.contains_eq_mem, List.contains_eq_mem]
    exact ⟨decide_eq_false fresh, decide_eq_false clean⟩
  have corrected : e.corrected.contains (dmAddr r) = false := by
    rw [List.contains_eq_mem]
    exact decide_eq_false right
  dsimp only
  rw [poisoned, corrected, Bool.false_and, if_neg nofun, if_neg nofun, dmWord_cells cells]
  rfl

/-- A word that is already poisoned reads as zero; the read only counts. -/
theorem dmemRead_poisoned {e : Ecc} (on_ : tapWorks s = true) (enabled : s.straps.dbgEn = true) (named : dmOp r = 1)
    (passes : dmemRefused s r = 0) (cells : dmAddr r < 0x200000 ∨ (0xC00000 ≤ dmAddr r ∧ dmAddr r < 0xF00000))
    (poison : dmAddr r ∈ s.mem.poison) :
    ∃ t, exec (.dmemRead r e) s = .next t ∧ Alters [.dbg, .counters] s t ∧ t.dbg.result = 0 ∧ t.dbg.dr = dmCapture r 5 0 := by
  have poisoned : (e.poisoned.contains (dmAddr r) || (dmemTaken s).mem.poison.contains (dmAddr r)) = true := by
    rw [Bool.or_eq_true, List.contains_eq_mem (as := (dmemTaken s).mem.poison)]
    exact .inr (decide_eq_true poison)
  have counts : poisonedRead (dmemTaken s) (dmAddr r) true = bump (dmemTaken s) (0x40 + groupOf (dmAddr r)) 0 0x31 := by
    have still : (bump (dmemTaken s) (0x40 + groupOf (dmAddr r)) 0 0x31).mem = s.mem := (same_mem bump_alters (by decide)).trans rfl
    unfold poisonedRead
    dsimp only
    rw [still, List.contains_eq_mem, if_pos (decide_eq_true poison)]
  have run : exec (.dmemRead r e) s = .next (dsResult ((bump (dmemTaken s) (0x40 + groupOf (dmAddr r)) 0 0x31).onDebug fun d =>
      { d with dr := dmCapture r 5 0 }) 0) := by
    refine congrArg Host.Outcome.next ((dmem_accepts on_ named enabled passes).trans ?_)
    dsimp only
    rw [poisoned, Bool.not_true, Bool.and_false, if_neg nofun, if_pos rfl, counts, dmWord_cells cells]
    rfl
  have taken : Alters [.dbg] s (dmemTaken s) := frame_State_onDebug (List.Subset.refl _) (frame_refl _ s)
  exact ⟨_, run, frame_State_onDebug (by decide) (frame_State_onDebug (by decide) (frame_bump (by decide) (frame_mono (by decide) taken))), rfl, rfl⟩

end Words

/-! ## The lanes of a word (R343) -/

section Lanes

variable {m : Memory} {a lanes data : Nat}

/-- The first lanes of a word written one by one. -/
def lanesWritten (m : Memory) (a lanes data n : Nat) : Memory :=
  (List.range n).foldl (fun (m : Memory) k => if lanes.testBit k then m.write (a + 7 - k) (BitVec.ofNat 8 (data / 2 ^ (8 * k))) else m) m

theorem lanesWritten_succ (n : Nat) : lanesWritten m a lanes data (n + 1) =
    if lanes.testBit n then (lanesWritten m a lanes data n).write (a + 7 - n) (BitVec.ofNat 8 (data / 2 ^ (8 * n))) else lanesWritten m a lanes data n := by
  unfold lanesWritten
  rw [List.range_succ, List.foldl_append]
  rfl

/-- The first `n` lanes: the enabled ones read as their data byte, the well-formed memory is otherwise as before. -/
theorem lanesWritten_spec (wf : m.wf = true) (fits : a + 7 < 0x1000000) {n : Nat} (few : n ≤ 8) : (lanesWritten m a lanes data n).wf = true ∧
    (∀ k < n, lanes.testBit k = true → cellsRead (lanesWritten m a lanes data n).cells (a + 7 - k) = BitVec.ofNat 8 (data / 2 ^ (8 * k))) ∧
    (∀ b, (∀ k < n, lanes.testBit k = true → b ≠ a + 7 - k) → cellsRead (lanesWritten m a lanes data n).cells b = cellsRead m.cells b) := by
  induction n with
  | zero => exact ⟨wf, fun _ impossible => absurd impossible (Nat.not_lt_zero _), fun _ _ => rfl⟩
  | succ n ih =>
    obtain ⟨kept, written, others⟩ := ih (by omega)
    rw [lanesWritten_succ]
    split
    · next enabled =>
      refine ⟨write_wf kept, fun k below lane => ?_, fun b apart => ?_⟩
      · rw [read_write kept (by omega)]
        split
        · next same => rw [show k = n by omega]
        · next other => exact written k (by omega) lane
      · rw [read_write kept (by omega), if_neg (apart n (by omega) enabled)]
        exact others b fun k below => apart k (by omega)
    · next off =>
      refine ⟨kept, fun k below lane => ?_, fun b apart => others b fun k below => apart k (by omega)⟩
      have before : k ≠ n := fun same => off (same ▸ lane)
      exact written k (by omega) lane

end Lanes

section Write

variable {s : State} {r : BitVec 104}

theorem dmemWrite_refused (on_ : tapWorks s = true) (enabled : s.straps.dbgEn = true) (named : dmOp r = 2) {n : Nat}
    (refused : dmemRefused s r = n) (some_ : n ≠ 0) :
    exec (.dmemWrite r) s = .next { s with dbg := { s.dbg with ir := 0x13, dr := dmCapture r 6 0, result := BitVec.ofNat 2 n } } :=
  congrArg Host.Outcome.next (dmem_refuses on_ named enabled refused some_)

theorem dmemWrite_cells (on_ : tapWorks s = true) (enabled : s.straps.dbgEn = true) (named : dmOp r = 2) (passes : dmemRefused s r = 0)
    (cells : dmAddr r < 0x200000 ∨ 0x400000 ≤ dmAddr r) :
    exec (.dmemWrite r) s = .next { s with
      mem := writeLanes s.mem (dmAddr r) (dmLanes r) (dmData r),
      dbg := { s.dbg with ir := 0x13, dr := dmCapture r 1 (dmData r), result := 0 } } := by
  refine congrArg Host.Outcome.next ((dmem_accepts on_ named enabled passes).trans ?_)
  dsimp only
  have outside : ¬ (decide (0x200000 ≤ dmAddr r) && decide (dmAddr r < 0x300000)) = true := by
    rw [Bool.and_eq_true, decide_eq_true_eq, decide_eq_true_eq]
    omega
  rw [if_neg outside]
  rfl

theorem dmemWrite_alters {m : Memory} {d : Debug} : Alters [.mem, .dbg] s { s with mem := m, dbg := d } :=
  frame_State_onDebug (f := fun _ => d) (by decide) (frame_State_onMem (f := fun _ => m) (by decide) (frame_refl _ s))

theorem dmLanes_bit {k : Nat} (few : k < 8) : (dmLanes r).testBit k = r.getLsbD (93 + k) := by
  have small : decide (k < 8) = true := decide_eq_true few
  rw [dmLanes, regField_eq, BitVec.testBit_toNat, BitVec.getLsbD_extractLsb', small, Bool.true_and]

theorem dmData_lane {k : Nat} (few : k < 8) : BitVec.ofNat 8 (dmData r / 2 ^ (8 * k)) = r.extractLsb' (8 * k) 8 := by
  ext i below
  have inside : decide (8 * k + i < 64) = true := decide_eq_true (by omega)
  rw [← BitVec.getLsbD_eq_getElem, BitVec.getLsbD_ofNat, decide_eq_true below, BitVec.getElem_extractLsb', dmData, regField_eq,
    ← Nat.shiftRight_eq_div_pow, Nat.testBit_shiftRight, BitVec.testBit_toNat, BitVec.getLsbD_extractLsb', inside, Bool.true_and, Bool.true_and,
    Nat.zero_add]

theorem dmOp_of {k : BitVec 3} (op : r.extractLsb' 101 3 = k) : dmOp r = k.toNat := by
  rw [dmOp, regField_eq, op]

theorem dmAddr_eq : (r.extractLsb' 64 24).toNat = dmAddr r := (regField_eq r 64 24).symm

end Write

/-- Settles O59: the rows select and load their registers, DBRK and DMEM judge their fields in order, and a write changes its lanes alone. -/
theorem debugPortRegistersFollowTheirTables : Obligations.DebugPortRegistersFollowTheirTables := by
  unfold Obligations.DebugPortRegistersFollowTheirTables
  refine ⟨fun s off c row => ?_, fun x y r b i e s off c row => ?_, fun x y s on_ => ?_, fun b s on_ => ?_, fun r s on_ closed => dbrk_closed on_ closed,
    fun r s on_ enabled => ?_, fun r e s on_ enabled op reserved aligned runs => ?_, fun r s on_ enabled op reserved aligned => ?_⟩
  · simp only [List.mem_cons, List.not_mem_nil, or_false] at row
    rcases row with rfl | rfl | rfl
    · exact tapReset_off off
    · exact congrArg Host.Outcome.next (whenDue_neg off)
    · exact congrArg Host.Outcome.next (whenDue_neg off)
  · simp only [List.mem_cons, List.not_mem_nil, or_false] at row
    rcases row with rfl | rfl | rfl | rfl | rfl | rfl
    · exact congrArg Host.Outcome.next (whenDue_neg off)
    · exact congrArg Host.Outcome.next (whenDue_neg off)
    · exact tapWrites_off off
    · exact dbrk_off off
    · exact congrArg Host.Outcome.next (dmem_off off)
    · exact congrArg Host.Outcome.next (dmem_off off)
  · have row : ∀ f : Debug → Debug, whenDue (tapWorks s) (fun s => s.onDebug f) s = { s with dbg := f s.dbg } := fun f => whenDue_pos on_
    exact ⟨congrArg Host.Outcome.next (row _), congrArg Host.Outcome.next (row _), congrArg Host.Outcome.next (row _),
      congrArg Host.Outcome.next (row _), congrArg Host.Outcome.next (row _)⟩
  · refine ⟨(tapWrites on_).trans (congrArg Host.Outcome.next tapUpdate_idcode), fun i unlisted => ?_, fun closed => ?_, fun enabled => ?_⟩
    · rw [tapWrites on_, tapUpdate_unlisted unlisted]
    · rw [tapWrites on_, tapUpdate_status_closed closed]
    · obtain ⟨halted, hits, tier, session, level, step, result, cap, allow⟩ := dstatus_fields s enabled
      refine ⟨_, (tapWrites on_).trans (congrArg Host.Outcome.next (tapUpdate_status enabled)), rfl, halted, hits, tier, session, level, step, result,
        cap, fun a x some_ => allow.trans ?_, fun none_ => allow.trans ?_⟩
      · unfold doAllow
        rw [some_]
      · unfold doAllow
        rw [none_]
  · exact dbrk_row on_ enabled dbrkNumber_eq
  · intro a
    have named : dmOp r = 1 := dmOp_of op
    have at_ : a = dmAddr r := dmAddr_eq
    have judged := dmemRefused_read (s := s) named reserved aligned
    clear_value a
    subst at_
    have passes : (dmAddr r < 0x200000 ∨ (0xC00000 ≤ dmAddr r ∧ dmAddr r < 0xF00000)) →
        works s (.group (Fin.ofNat 8 (dmAddr r / 2 ^ 21))) = true → dmemRefused s r = 0 := fun cells good => by
      rw [judged, if_pos (dmReach_iff.mpr ⟨runs, by omega, good⟩)]
    refine ⟨fun barred => ?_, fun cells good fresh clean right => ?_, fun cells good poison => ?_⟩
    · have refused : dmemRefused s r = 2 := by
        rw [judged, if_neg]
        intro reach
        obtain ⟨-, range, good⟩ := dmReach_iff.mp reach
        rcases barred with inside | failed
        · exact range inside
        · exact Bool.noConfusion (failed.symm.trans good)
      exact ⟨_, dmemRead_refused on_ enabled named refused, rfl, dmCapture_stat 6⟩
    · refine ⟨_, dmemRead_clean on_ enabled named (passes cells good) cells fresh clean right, rfl, dmCapture_stat 1, ?_⟩
      refine (dmCapture_fields (by decide)).2.trans (Nat.mod_eq_of_lt ?_)
      have bound := beNat_lt (s.mem.readN (dmAddr r) 8)
      rw [readN_length] at bound
      exact bound
    · obtain ⟨t, run, keeps, result, dr⟩ := dmemRead_poisoned (e := e) on_ enabled named (passes cells good) cells poison
      refine ⟨t, run, keeps, result, by rw [dr]; exact dmCapture_stat 5, BitVec.eq_of_toNat_eq ?_⟩
      rw [dr]
      exact (dmCapture_fields (by decide)).2
  · intro a
    have named : dmOp r = 2 := dmOp_of op
    have at_ : a = dmAddr r := dmAddr_eq
    clear_value a
    subst at_
    refine ⟨fun none_ => ?_, fun al fl x session barred => ?_, fun al fl x session allowed runs wf cells good => ?_⟩
    · exact ⟨_, dmemWrite_refused on_ enabled named (dmemRefused_write_none named reserved aligned none_) (by decide), rfl, dmCapture_stat 6⟩
    · have refused : dmemRefused s r = 2 := by
        rw [dmemRefused_write named reserved aligned session, barred, if_neg nofun]
      exact ⟨_, dmemWrite_refused on_ enabled named refused (by decide), rfl, dmCapture_stat 6⟩
    · have passes : dmemRefused s r = 0 := by
        rw [dmemRefused_write named reserved aligned session, allowed, if_pos rfl, if_pos (dmReach_iff.mpr ⟨runs, by omega, good⟩)]
      have fits : dmAddr r + 7 < 0x1000000 := by
        have word := dmAddr_aligned aligned
        have small := dmAddr_lt (r := r)
        omega
      obtain ⟨-, written, others⟩ := lanesWritten_spec (lanes := dmLanes r) (data := dmData r) wf fits (Nat.le_refl 8)
      refine ⟨_, dmemWrite_cells on_ enabled named passes cells, dmemWrite_alters, rfl, rfl, fun k lane => ?_, fun k off => ?_, fun b outside => ?_⟩
      · rw [← dmData_lane k.isLt]
        exact written k.val k.isLt (by rw [dmLanes_bit k.isLt]; exact lane)
      · refine others _ fun j below lane same => ?_
        have same : j = k.val := by omega
        rw [dmLanes_bit below, same, off] at lane
        exact Bool.noConfusion lane
      · exact others b fun k below _ => by omega

end Sys2Proof.Proofs
end

section
/-! The seat frame as bytes: the scrambler undoes itself, and each field stands at its place (18_twin_seat.md, R551, Table 18.1). -/

namespace Sys2Proof.Proofs

open Sys2Proof Sys2Proof.Machine Sys2Proof.Safety Sys2Proof.Laws

/-! ## Bytes and their bits -/

section Bits

/-- The bits of one byte, the most significant first. -/
def byteBits (b : Byte) : List Bool := (List.range 8).map fun i => b.toNat.testBit (7 - i)

/-- The byte that a list of bits spells. -/
def bitsByte (bits : List Bool) : Byte := BitVec.ofNat 8 (bitsNat bits)

theorem byteBits_length (b : Byte) : (byteBits b).length = 8 := rfl

theorem bitsByte_byteBits : ∀ b : Byte, bitsByte (byteBits b) = b := by decide

theorem byteBits_bitsByte_cons : ∀ a b c d e f g h : Bool, byteBits (bitsByte [a, b, c, d, e, f, g, h]) = [a, b, c, d, e, f, g, h] := by decide

theorem byteBits_bitsByte {l : List Bool} (eight : l.length = 8) : byteBits (bitsByte l) = l := by
  match l, eight with
  | [a, b, c, d, e, f, g, h], _ => exact byteBits_bitsByte_cons a b c d e f g h

theorem bitsOf_cons (b : Byte) (l : List Byte) : bitsOf (b :: l) = byteBits b ++ bitsOf l := rfl

theorem bitsOf_length (l : List Byte) : (bitsOf l).length = 8 * l.length := by
  induction l with
  | nil => rfl
  | cons b l ih =>
    rw [bitsOf_cons, List.length_append, byteBits_length, ih, List.length_cons]
    omega

/-- The bytes that a string of bits spells, `n` of them. -/
def bytesOf (n : Nat) (bits : List Bool) : List Byte := (chunks 8 n bits).map bitsByte

theorem chunks_succ {n : Nat} {bits : List Bool} (some_ : bits.length = 8 * (n + 1)) :
    chunks 8 (n + 1) bits = bits.take 8 :: chunks 8 n (bits.drop 8) := by
  cases bits with
  | nil => simp at some_
  | cons x l => rfl

theorem bytesOf_succ {n : Nat} {bits : List Bool} (some_ : bits.length = 8 * (n + 1)) :
    bytesOf (n + 1) bits = bitsByte (bits.take 8) :: bytesOf n (bits.drop 8) := by
  unfold bytesOf
  rw [chunks_succ some_, List.map_cons]

theorem bytesOf_bitsOf (l : List Byte) : bytesOf l.length (bitsOf l) = l := by
  induction l with
  | nil => rfl
  | cons b l ih =>
    rw [List.length_cons, bytesOf_succ (bitsOf_length (b :: l)), bitsOf_cons, List.take_left' (byteBits_length b),
      List.drop_left' (byteBits_length b), bitsByte_byteBits, ih]

theorem bytesOf_spells {n : Nat} {bits : List Bool} (whole : bits.length = 8 * n) :
    (bytesOf n bits).length = n ∧ bitsOf (bytesOf n bits) = bits := by
  induction n generalizing bits with
  | zero => exact ⟨rfl, (List.length_eq_zero_iff.mp whole).symm⟩
  | succ n ih =>
    have rest : (bits.drop 8).length = 8 * n := by rw [List.length_drop, whole]; omega
    obtain ⟨len, spells⟩ := ih rest
    rw [bytesOf_succ whole]
    refine ⟨congrArg (· + 1) len, ?_⟩
    rw [bitsOf_cons, spells, byteBits_bitsByte (by rw [List.length_take, whole]; omega), List.take_append_drop]

end Bits

/-! ## The scrambler (R155) -/

section Scrambler

theorem scrambleFrom_length (n w : Nat) : (scrambleFrom n w).length = n := by
  induction n generalizing w with
  | zero => rfl
  | succ n ih => exact congrArg (· + 1) (ih _)

theorem scramble_length (n : Nat) : (scramble n).length = n := by
  unfold scramble
  rw [List.length_take, List.length_append, List.length_replicate, scrambleFrom_length]
  omega

/-- Bits flipped where the key has a set bit. -/
def flipped (bits key : List Bool) : List Bool := (bits.zip key).map fun e => e.1 != e.2

theorem flipped_length {bits key : List Bool} (same : key.length = bits.length) : (flipped bits key).length = bits.length := by
  unfold flipped
  rw [List.length_map, List.length_zip, same, Nat.min_self]

theorem flipped_twice {bits key : List Bool} (same : key.length = bits.length) : flipped (flipped bits key) key = bits := by
  induction bits generalizing key with
  | nil => rfl
  | cons b bits ih =>
    cases key with
    | nil => exact absurd same nofun
    | cons k key =>
      have rest : flipped (flipped bits key) key = bits := ih (Nat.succ.inj same)
      have first : ((b != k) != k) = b := by cases b <;> cases k <;> rfl
      exact congrArg₂ List.cons first rest

/-- The body of a frame, scrambled. -/
def scrambled (body : List Byte) : List Byte := bytesOf body.length (flipped (bitsOf body) (scramble (8 * body.length)))

theorem seatScramble_eq (bs : List Byte) : seatScramble bs = bs.take 4 ++ scrambled (bs.drop 4) := rfl

theorem key_length (body : List Byte) : (scramble (8 * body.length)).length = (bitsOf body).length := by
  rw [scramble_length, bitsOf_length]

theorem scrambled_twice (body : List Byte) : scrambled (scrambled body) = body := by
  have spells : bitsOf (scrambled body) = flipped (bitsOf body) (scramble (8 * body.length)) :=
    (bytesOf_spells (by rw [flipped_length (key_length body), bitsOf_length])).2
  unfold scrambled at spells ⊢
  rw [spells, (bytesOf_spells (by rw [flipped_length (key_length body), bitsOf_length])).1, flipped_twice (key_length body), bytesOf_bitsOf]

/-- The first four bytes are not scrambled. -/
theorem seatScramble_sync {bs : List Byte} : fieldAt (seatScramble bs) 0 4 = fieldAt bs 0 4 := by
  rw [seatScramble_eq]
  unfold fieldAt slice
  by_cases long : 4 ≤ bs.length
  · rw [List.drop_zero, List.drop_zero, List.take_left' (by rw [List.length_take]; omega)]
  · have short : bs.drop 4 = [] := List.drop_of_length_le (by omega)
    rw [short]
    simp [scrambled, bytesOf, chunks, List.take_take]

/-- Descrambling a scrambled frame gives it back. -/
theorem seatScramble_twice {bs : List Byte} (long : 4 ≤ bs.length) : seatScramble (seatScramble bs) = bs := by
  have four : (bs.take 4).length = 4 := by rw [List.length_take]; omega
  rw [seatScramble_eq (seatScramble bs), seatScramble_eq bs, List.take_left' four, List.drop_left' four, scrambled_twice, List.take_append_drop]

end Scrambler

/-! ## The fields (Table 18.1) -/

section Frame

variable {s : State} {banked : Bool} {ms : List Mirror}

/-- The outputs in a drive mode, as a frame shows them. -/
def driveMask (s : State) (d : Drive) : Nat := chanMask s fun c => isOutChan c && c.drive == d

/-- Bytes 4 to 571 of the seat frame before scrambling. -/
def seatBody (s : State) (banked : Bool) (ms : List Mirror) : List Byte :=
  beBytes 1 (16 + s.seat.state.code) ++ [s.seat.seq] ++ beBytes 8 s.dieId.toNat ++ beBytes 8 s.straps.digest.toNat
  ++ beBytes 1 (s.tiers.tier.rank * 32 + (twinOf s.straps.codes).getD 0) ++ beBytes 1 (seatFlags s banked)
  ++ beBytes 8 s.clock.counter.toNat ++ [s.clock.epoch] ++ beBytes 1 ((timeQ s).toNat * 16)
  ++ beBytes 3 (chanMask s fun c => isInChan c && c.active) ++ beBytes 3 (driveMask s .carrying) ++ beBytes 3 (driveMask s .sharing)
  ++ beBytes 3 (chanMask s fun c => c.forced) ++ [s.seat.mmAck] ++ [0]
  ++ (List.finRange 24).flatMap (fun n => seatRecord s n ++ beBytes 4 (slCalOf s n).toNat)
  ++ padTo 320 (ms.flatMap mirrorBytes) ++ zeros 12

/-- The seat frame before scrambling. -/
def seatPlain (s : State) (banked : Bool) (ms : List Mirror) : List Byte :=
  beBytes 4 0x3A5C96F1 ++ seatBody s banked ms ++ beBytes 4 (crc32 (seatBody s banked ms)).toNat

theorem seatFrame_eq : seatFrame s banked ms = seatScramble (seatPlain s banked ms) := rfl

theorem padTo_length (n : Nat) (bs : List Byte) : (padTo n bs).length = n := by
  unfold padTo zeros
  rw [List.length_append, List.length_take, List.length_replicate]
  omega

theorem seatRecord_length (n : Fin 24) : (seatRecord s n ++ beBytes 4 (slCalOf s n).toNat).length = 8 := by
  unfold seatRecord valueBytes
  rw [List.length_append, List.length_append, beBytes_length, beBytes_length, beBytes_length]

theorem seatBody_length : (seatBody s banked ms).length = 568 := by
  unfold seatBody
  simp only [List.length_append, beBytes_length, List.length_cons, List.length_nil, padTo_length, zeros, List.length_replicate,
    flatMap_length_of seatRecord_length, List.length_finRange]

theorem seatPlain_length : (seatPlain s banked ms).length = 576 := by
  unfold seatPlain
  rw [List.length_append, List.length_append, beBytes_length, beBytes_length, seatBody_length]

theorem seatFrame_plain : seatScramble (seatFrame s banked ms) = seatPlain s banked ms := by
  rw [seatFrame_eq, seatScramble_twice (by rw [seatPlain_length]; omega)]

theorem seatCode_lt (x : Seat) : x.code < 7 := by cases x <;> decide

theorem seatPlain_byte {k : Nat} (inside : k < 568) : byteAt (seatPlain s banked ms) (4 + k) = byteAt (seatBody s banked ms) k := by
  unfold seatPlain
  rw [byteAt_append_left (by rw [List.length_append, beBytes_length, seatBody_length]; omega),
    byteAt_append_right (by rw [beBytes_length]; omega), beBytes_length, Nat.add_sub_cancel_left]

theorem seatPlain_field {k n : Nat} (inside : k + n ≤ 568) : fieldAt (seatPlain s banked ms) (4 + k) n = fieldAt (seatBody s banked ms) k n := by
  unfold seatPlain
  rw [fieldAt_append_left (by rw [List.length_append, beBytes_length, seatBody_length]; omega),
    fieldAt_append_right (by rw [beBytes_length]; omega), beBytes_length, Nat.add_sub_cancel_left]

theorem seatBody_fields : byteAt (seatBody s banked ms) 0 = 16 + s.seat.state.code ∧ byteAt (seatBody s banked ms) 1 = s.seat.seq.toNat ∧
    fieldAt (seatBody s banked ms) 2 8 = s.dieId.toNat ∧ fieldAt (seatBody s banked ms) 10 8 = s.straps.digest.toNat ∧
    fieldAt (seatBody s banked ms) 20 8 = s.clock.counter.toNat ∧ byteAt (seatBody s banked ms) 28 = s.clock.epoch.toNat ∧
    byteAt (seatBody s banked ms) 42 = s.seat.mmAck.toNat := by
  have code := seatCode_lt s.seat.state
  have die : s.dieId.toNat < 256 ^ 8 := s.dieId.isLt
  have digest : s.straps.digest.toNat < 256 ^ 8 := s.straps.digest.isLt
  have counter : s.clock.counter.toNat < 256 ^ 8 := s.clock.counter.isLt
  unfold seatBody
  simp only [fieldAt_append_left, fieldAt_append_right, byteAt_append_left, byteAt_append_right, fieldAt_beBytes, byteAt_beBytes_one,
    byteAt_cons_zero, List.length_append, beBytes_length, List.length_cons, List.length_nil, Nat.reduceAdd, Nat.reduceLeDiff,
    Nat.reduceSub, Nat.reduceLT, Nat.reduceMul, flatMap_length_of seatRecord_length, List.length_finRange, padTo_length]
  exact ⟨Nat.mod_eq_of_lt (by omega), trivial, Nat.mod_eq_of_lt die, Nat.mod_eq_of_lt digest, Nat.mod_eq_of_lt counter, trivial, trivial⟩

theorem seatFrame_sync : fieldAt (seatFrame s banked ms) 0 4 = 0x3A5C96F1 := by
  rw [seatFrame_eq, seatScramble_sync]
  unfold seatPlain
  rw [fieldAt_append_left (by rw [List.length_append, beBytes_length, seatBody_length]; omega), fieldAt_append_left (by rw [beBytes_length])]
  rfl

theorem seatPlain_good : frameBad (seatPlain s banked ms) = false := by
  have code := seatCode_lt s.seat.state
  have version : byteAt (seatPlain s banked ms) 4 = 16 + s.seat.state.code := (seatPlain_byte (k := 0) (by decide)).trans seatBody_fields.1
  have sync : fieldAt (seatPlain s banked ms) 0 4 = 0x3A5C96F1 := seatScramble_sync.symm.trans (seatFrame_sync (s := s))
  have crc : fieldAt (seatPlain s banked ms) 572 4 = (crc32 (slice (seatPlain s banked ms) 4 568)).toNat := by
    have body : slice (seatPlain s banked ms) 4 568 = seatBody s banked ms := by
      unfold seatPlain
      rw [slice_append_left (by rw [List.length_append, beBytes_length, seatBody_length]), slice_append_right (by rw [beBytes_length]),
        beBytes_length]
      unfold slice
      rw [Nat.sub_self, List.drop_zero, List.take_of_length_le seatBody_length.le]
    rw [body]
    unfold seatPlain
    rw [fieldAt_append_right (by rw [List.length_append, beBytes_length, seatBody_length]), List.length_append, beBytes_length, seatBody_length,
      Nat.sub_self, fieldAt_beBytes]
    exact Nat.mod_eq_of_lt (crc32 _).isLt
  unfold frameBad
  rw [seatPlain_length, sync, crc, version]
  simp only [bne_self_eq_false, Bool.false_or, Bool.or_eq_false_iff, bne_eq_false_iff_eq, decide_eq_false_iff_not]
  omega

end Frame

end Sys2Proof.Proofs
end

section
/-! Drive modes and seat states (18_twin_seat.md, R555, R558). -/

namespace Sys2Proof.Proofs

open Sys2Proof Sys2Proof.Machine Sys2Proof.Safety Sys2Proof.Laws

/-! ## Drive modes -/

section Drives

variable {s : State} {n m : Fin 24} {d : Drive}

theorem setDrive_alters : Alters [.chans] s (setDrive s n d) := frame_setDrive (List.Subset.refl _) (frame_refl _ s)

theorem setDrive_chan_other (h : m ≠ n) : (setDrive s n d).chan m = s.chan m := by
  unfold setDrive
  dsimp only
  split
  · exact State.onChan_chan_other _ n m _ h
  · rw [State.onChan_chan_other _ n m _ h, State.onChan_chan_other _ n m _ h]

/-- A drive mode changes what is driven, and on the channel's record nothing else. -/
theorem setDrive_redrives : Redriven { s.chan n with drive := d } ((setDrive s n d).chan n) := by
  unfold setDrive
  dsimp only
  split
  · rw [State.onChan_chan]
    exact redriven_refl _
  · rw [State.onChan_chan, State.onChan_chan]
    exact driveValue_redrives ..

theorem setDrive_drive : ((setDrive s n d).chan n).drive = d := redriven_drive setDrive_redrives

/-- An output under the shell drives its part of the target at once. -/
theorem setDrive_drives (output : isOutChan (s.chan n) = true) (shell : (s.chan n).inControl = false) (part : drivePart d ≠ .none) :
    ((setDrive s n d).chan n).stageOn = true ∧ ((setDrive s n d).chan n).dac = partOf (drivePart d) ((trimOf s.vault n).code (s.chan n).target) := by
  have takes : ∀ (t : Trim) (now : Tick) (v : Int) (c : Chan), drivePart c.drive ≠ .none →
      (driveValue t now v c).stageOn = true ∧ (driveValue t now v c).dac = partOf (drivePart c.drive) (t.code v) := fun t now v c some_ => by
    unfold driveValue
    dsimp only
    split
    · next none_ => exact absurd none_ some_
    · exact ⟨rfl, rfl⟩
  have set_ : (s.onChan n fun c => { c with drive := d }).chan n = { s.chan n with drive := d } := State.onChan_chan ..
  have governed : ¬ (!isOutChan { s.chan n with drive := d } || (s.chan n).inControl) = true := by
    change ¬ (!isOutChan (s.chan n) || (s.chan n).inControl) = true
    rw [output, shell]
    exact nofun
  unfold setDrive
  dsimp only
  rw [set_, if_neg governed, State.onChan_chan, set_]
  exact takes _ _ _ _ part

end Drives

/-! ## Seat states -/

section Seats

variable {s : State} {new : Seat} {n : Fin 24}

/-- The state with its new seat state and the event of the change. -/
def seatMarked (s : State) (new : Seat) : State :=
  raise (s.onSeat fun t => { t with state := new, handback := [] }) 0x1101 0x22 (beBytes 1 s.seat.state.code ++ beBytes 1 new.code)

theorem seatMarked_alters : Alters [.seat, .events] s (seatMarked s new) :=
  frame_raise (by decide) (frame_State_onSeat (by decide) (frame_refl _ s))

theorem seatMarked_seat : (seatMarked s new).seat = { s.seat with state := new, handback := [] } := by
  unfold seatMarked
  rw [raise_seat]
  rfl

theorem seatMarked_chan : (seatMarked s new).chan n = s.chan n := same_chan seatMarked_alters (by decide) n

/-- A current output carries. -/
def carryOne (n : Fin 24) (s : State) : State := if isCurrent (s.chan n) then setDrive s n .carrying else s

/-- An output is out and an input listens. -/
def withdrawOne (n : Fin 24) (s : State) : State :=
  setFrontEnd ((setDrive s n .out).onChan n fun c => { c with active := false, roleStep := none }) n

theorem seatEnter_alone : seatEnter s .alone = (seatMarked s .alone).each (List.finRange 24) carryOne := rfl

theorem seatWithdrawn_eq : seatWithdrawn s = s.each (List.finRange 24) withdrawOne := rfl

theorem seatEnter_withdraws (withdraws : new ∉ [Seat.solo, .seated, .alone]) :
    seatEnter s new = (seatWithdrawn (seatMarked s new)).onSeat fun t => { t with lead := false } := by
  cases new with
  | solo | seated | alone => exact absurd (by decide) withdraws
  | unpaired | stranger | mirroring | released => rfl

theorem carryAll_alters : Alters [.chans] s (s.each (List.finRange 24) carryOne) := by
  refine each_keeps (P := fun t => Alters [.chans] s t) (fun k x kept => ?_) (frame_refl _ s)
  unfold carryOne
  split
  · exact frame_setDrive (List.Subset.refl _) kept
  · exact kept

theorem carryOne_chan_other {k : Fin 24} (x : State) (m : Fin 24) (h : m ≠ k) : (carryOne k x).chan m = x.chan m := by
  unfold carryOne
  split
  · exact setDrive_chan_other h
  · rfl

/-- Alone carries the current outputs and leaves the drive mode of the others. -/
theorem carryAll_drive : ((s.each (List.finRange 24) carryOne).chan n).drive = if isCurrent (s.chan n) then .carrying else (s.chan n).drive := by
  refine each_chans (I := fun _ => True) (R := fun _ c c' => c'.drive = if isCurrent c then .carrying else c.drive)
    (fun k x m h => carryOne_chan_other x m h) (fun _ _ _ => trivial) (fun k x _ => ?_) trivial n
  unfold carryOne
  split
  · exact setDrive_drive
  · rfl

theorem seatEnter_alone_drive :
    ((seatEnter s .alone).chan n).drive = if isCurrent (s.chan n) then .carrying else (s.chan n).drive := by
  rw [seatEnter_alone, carryAll_drive, seatMarked_chan]

theorem seatWithdrawn_alters : Alters [.chans] s (seatWithdrawn s) := frame_seatWithdrawn (List.Subset.refl _) (frame_refl _ s)

theorem seatWithdrawn_chan : ((seatWithdrawn s).chan n).drive = .out ∧ ((seatWithdrawn s).chan n).active = false ∧
    ((seatWithdrawn s).chan n).roleStep = none := by
  rw [seatWithdrawn_eq]
  refine each_chans (I := fun _ => True) (R := fun _ _ c' => c'.drive = .out ∧ c'.active = false ∧ c'.roleStep = none)
    (fun k x m h => ?_) (fun _ _ _ => trivial) (fun k x _ => ?_) trivial n
  · unfold withdrawOne
    rw [setFrontEnd_chan_other h, State.onChan_chan_other _ k m _ h, setDrive_chan_other h]
  · unfold withdrawOne
    rw [setFrontEnd_chan, State.onChan_chan]
    exact ⟨setDrive_drive, rfl, rfl⟩

theorem seatEnter_alters : Alters [.chans, .seat, .events] s (seatEnter s new) := frame_seatEnter (List.Subset.refl _) (frame_refl _ s)

/-- A seat state is entered with no handback running; Solo, Seated and Alone keep the lead. -/
theorem seatEnter_seat : (seatEnter s new).seat =
    { s.seat with state := new, handback := [], lead := if new ∈ [Seat.solo, .seated, .alone] then s.seat.lead else false } := by
  by_cases stays : new ∈ [Seat.solo, .seated, .alone]
  · rw [if_pos stays]
    simp only [List.mem_cons, List.not_mem_nil, or_false] at stays
    rcases stays with rfl | rfl | rfl
    · exact seatMarked_seat
    · exact seatMarked_seat
    · rw [seatEnter_alone, same_seat carryAll_alters (by decide), seatMarked_seat]
  · rw [if_neg stays, seatEnter_withdraws stays, State.onSeat_seat, same_seat seatWithdrawn_alters (by decide), seatMarked_seat]

theorem seatEnter_state : (seatEnter s new).seat.state = new := by rw [seatEnter_seat]

theorem seatEnter_events : (seatEnter s new).events = (seatMarked s new).events := by
  by_cases stays : new ∈ [Seat.solo, .seated, .alone]
  · simp only [List.mem_cons, List.not_mem_nil, or_false] at stays
    rcases stays with rfl | rfl | rfl
    · rfl
    · rfl
    · rw [seatEnter_alone, same_events carryAll_alters (by decide)]
  · rw [seatEnter_withdraws stays, State.onSeat_events, same_events seatWithdrawn_alters (by decide)]

theorem seatEnter_merge {e : Event} (mem : e ∈ s.events.merge) : e ∈ (seatEnter s new).events.merge := by
  rw [seatEnter_events]
  exact raise_merge_subset mem

theorem pushEvent_merge {code src rpt : Nat} {owner : Option Nat} {clear : Bool} {detail : List Byte} {e : Event}
    (mem : e ∈ (pushEvent s code src owner clear rpt detail).events.merge) : e ∈ s.events.merge ∨ e.code = BitVec.ofNat 16 code := by
  rcases mem_insertEvent.mp mem with rfl | old
  · exact .inr rfl
  · exact .inl old

/-- Entering a seat state logs its own event alone. -/
theorem seatEnter_logged {e : Event} (mem : e ∈ (seatEnter s new).events.merge) : e ∈ s.events.merge ∨ e.code = 0x1101 := by
  rw [seatEnter_events] at mem
  unfold seatMarked at mem
  rw [raise, if_neg (by decide), if_neg (by decide)] at mem
  have logged := pushEvent_merge mem
  exact logged

end Seats

end Sys2Proof.Proofs
end

section
/-! Seat frames sent and received, the loss of the heartbeat and the pairing window (18_twin_seat.md, R551 to R555, R570 to R572). -/

namespace Sys2Proof.Proofs

open Sys2Proof Sys2Proof.Machine Sys2Proof.Safety Sys2Proof.Laws

/-! ## SEAT_FRAME_SEND -/

section Send

variable {s : State}

/-- The chip sends a seat frame now. -/
def sendsSeat (s : State) : Bool := isTwin s && atSymbol s && (s.supply.kindle == .joining || s.supply.kindle == .up)

theorem seatFrameSend_waits (waits : sendsSeat s = false) : exec .seatFrameSend s = .next s := congrArg Host.Outcome.next (whenDue_neg waits)

theorem ackLast_alters : Alters [.seat] s (ackLast s) := frame_ackLast (List.Subset.refl _) (frame_refl _ s)

/-- The acknowledgement of block 41 is queued as a message; the frame's own fields stay. -/
theorem ackLast_seat : (ackLast s).seat.state = s.seat.state ∧ (ackLast s).seat.seq = s.seat.seq ∧ (ackLast s).seat.bad = s.seat.bad ∧
    (ackLast s).seat.mmAck = s.seat.mmAck := by
  unfold ackLast
  split
  · exact ⟨rfl, rfl, rfl, rfl⟩
  · exact ⟨rfl, rfl, rfl, rfl⟩

theorem mirrorGone_other (other : s.seat.state ≠ .mirroring) : mirrorGone s = s := by
  unfold mirrorGone
  dsimp only
  rw [if_neg]
  rw [beq_false_of_ne other]
  exact nofun

/-- The seat part with a frame sent. -/
def frameSent (s : State) : SeatState :=
  let t := s.seat
  let ms := mirrorFit 320 t.out
  { t with frame := seatFrame s false ms, seq := t.seq + 1,
           out := t.out.map fun (m : Mirror) => if ms.any (fun x => x.seq == m.seq) then { m with sent := some s.clock.line } else m,
           good := if t.bad != 0 && !t.locked then 0 else t.good, bad := min 16 (t.bad + 1) }

theorem seatFrameSend_sends (due : sendsSeat s = true) (other : s.seat.state ≠ .mirroring) :
    exec .seatFrameSend s = .next { ackLast s with seat := frameSent (ackLast s) } := by
  refine congrArg Host.Outcome.next ((whenDue_pos due).trans ?_)
  dsimp only
  rw [mirrorGone_other (by rw [ackLast_seat.1]; exact other)]
  rfl

theorem seatFrameSend_row (due : sendsSeat s = true) (other : s.seat.state ≠ .mirroring) :
    ∃ t, exec .seatFrameSend s = .next t ∧ Alters [.seat] s t ∧ t.seat.state = s.seat.state ∧ t.seat.seq = s.seat.seq + 1 ∧
      t.seat.bad = min 16 (s.seat.bad + 1) ∧ frameBad (seatScramble t.seat.frame) = false ∧
      fieldAt t.seat.frame 0 4 = 0x3A5C96F1 ∧ byteAt (seatScramble t.seat.frame) 4 = 16 + s.seat.state.code ∧
      byteAt (seatScramble t.seat.frame) 5 = s.seat.seq.toNat ∧ fieldAt (seatScramble t.seat.frame) 6 8 = s.dieId.toNat ∧
      fieldAt (seatScramble t.seat.frame) 14 8 = s.straps.digest.toNat ∧
      fieldAt (seatScramble t.seat.frame) 24 8 = s.clock.counter.toNat ∧ byteAt (seatScramble t.seat.frame) 32 = s.clock.epoch.toNat ∧
      byteAt (seatScramble t.seat.frame) 46 = s.seat.mmAck.toNat := by
  obtain ⟨state, seq, bad, ack⟩ := ackLast_seat (s := s)
  have keeps : Alters [.seat] s (ackLast s) := ackLast_alters
  have plain : seatScramble (frameSent (ackLast s)).frame = seatPlain (ackLast s) false (mirrorFit 320 (ackLast s).seat.out) := seatFrame_plain
  obtain ⟨code, number, die, digest, counter, epoch, acknowledged⟩ :=
    seatBody_fields (s := ackLast s) (banked := false) (ms := mirrorFit 320 (ackLast s).seat.out)
  refine ⟨_, seatFrameSend_sends due other, frame_State_onSeat (f := fun _ => frameSent (ackLast s)) (by decide) keeps, state,
    congrArg (· + 1) seq, congrArg (fun k => min 16 (k + 1)) bad, ?_⟩
  dsimp only
  rw [plain]
  refine ⟨seatPlain_good, seatFrame_sync, (seatPlain_byte (k := 0) (by decide)).trans ?_, (seatPlain_byte (k := 1) (by decide)).trans ?_,
    (seatPlain_field (k := 2) (by decide)).trans ?_, (seatPlain_field (k := 10) (by decide)).trans ?_,
    (seatPlain_field (k := 20) (by decide)).trans ?_, (seatPlain_byte (k := 28) (by decide)).trans ?_,
    (seatPlain_byte (k := 42) (by decide)).trans ?_⟩
  · rw [code, state]
  · rw [number, seq]
  · rw [die, same_dieId keeps (by decide)]
  · rw [digest, same_straps keeps (by decide)]
  · rw [counter, same_clock keeps (by decide)]
  · rw [epoch, same_clock keeps (by decide)]
  · rw [acknowledged, ack]

end Send

/-! ## SEAT_FRAME_RECEIVE -/

section Receive

variable {s : State} {b bytes : List Byte} {p : Partner}

/-- The seat part takes a good frame. -/
def frameTaken (s : State) (p : Partner) : State := s.onSeat fun t => { t with partner := some p, bad := 0, good := min 64 (t.good + 1) }

/-- What a locked link makes of a good frame: acknowledged messages leave, the others come in, and the partner's state is followed. -/
def frameFollowed (s : State) (p : Partner) (b : List Byte) : State :=
  followPartner (mirrorMessages 107 (slice b 240 320)
    (twinTime (s.onSeat fun t => { t with out := t.out.filter fun m => let d := (m.seq - p.mmAck).toNat; 1 ≤ d && d ≤ 128 }) p))

/-- The 64th good frame locks the link. -/
def frameLocked (s : State) : State := if !s.seat.locked && s.seat.good == 64 then lockLink s else s

/-- What a chip makes of a good frame. -/
def frameHandled (s : State) (p : Partner) (b : List Byte) : State := if !s.seat.locked then s else frameFollowed s p b

theorem seatFrameReceive_refused (refused : isTwin s = false ∨ frameBad (seatScramble bytes) = true) : exec (.seatFrameReceive bytes) s = .next s := by
  refine congrArg Host.Outcome.next (if_pos ?_)
  rcases refused with single | bad
  · rw [single]
    rfl
  · rw [bad, Bool.or_true]

theorem seatFrameReceive_takes (twin : isTwin s = true) (up : s.supply.kindle = .up) (good : frameBad (seatScramble bytes) = false) :
    exec (.seatFrameReceive bytes) s = .next
      (frameHandled (frameLocked (frameTaken s (readFrame (seatScramble bytes)))) (readFrame (seatScramble bytes)) (seatScramble bytes)) := by
  refine congrArg Host.Outcome.next (if_neg ?_)
  rw [twin, up, good]
  exact nofun

theorem seatFrameReceive_counts (twin : isTwin s = true) (up : s.supply.kindle = .up) (good : frameBad (seatScramble bytes) = false)
    (unlocked : s.seat.locked = false) (few : s.seat.good < 63) :
    exec (.seatFrameReceive bytes) s = .next
      { s with seat := { s.seat with partner := some (readFrame (seatScramble bytes)), bad := 0, good := s.seat.good + 1 } } := by
  have count : min 64 (s.seat.good + 1) = s.seat.good + 1 := by omega
  have stays : frameLocked (frameTaken s (readFrame (seatScramble bytes))) = frameTaken s (readFrame (seatScramble bytes)) := by
    refine if_neg ?_
    change ¬ (!s.seat.locked && min 64 (s.seat.good + 1) == 64) = true
    rw [unlocked, count, Bool.not_false, Bool.true_and, beq_iff_eq]
    omega
  have still : (!(frameTaken s (readFrame (seatScramble bytes))).seat.locked) = true := congrArg not unlocked
  rw [seatFrameReceive_takes twin up good, stays, frameHandled, if_pos still, ← count]
  rfl

theorem mirrorMessages_none (quiet : byteAt b 240 = 0) (fuel : Nat) : mirrorMessages (fuel + 1) (slice b 240 320) s = s := by
  have first : byteAt (slice b 240 320) 0 = byteAt b 240 := by
    unfold byteAt slice
    rw [List.getD_eq_getElem?_getD, List.getD_eq_getElem?_getD, List.getElem?_take, if_pos (by decide), List.getElem?_drop]
  unfold mirrorMessages
  rw [first, quiet]
  rfl

theorem twinTime_alters : Alters [.events] s (twinTime s p) := frame_twinTime (List.Subset.refl _) (frame_refl _ s)

/-- With no message in the frame the rest is to follow the partner. -/
theorem frameFollowed_quiet (quiet : byteAt b 240 = 0) : ∃ u out, Alters [.seat, .events] s u ∧ u.seat = { s.seat with out := out } ∧
    frameFollowed s p b = followPartner u := by
  refine ⟨_, s.seat.out.filter fun m => let d := (m.seq - p.mmAck).toNat; 1 ≤ d && d ≤ 128, ?_, ?_,
    congrArg followPartner (mirrorMessages_none quiet 106)⟩
  · exact frame_twinTime (by decide) (frame_State_onSeat (by decide) (frame_refl _ s))
  · exact (same_seat twinTime_alters (by decide)).trans rfl

/-- A link that has neither trained nor outlived its window locks without a relock. -/
theorem lockLink_untrained (untrained : s.seat.trained = false) (inWindow : s.seat.windowOver = false) :
    Alters [.seat, .events] s (lockLink s) ∧ ∃ seq out, (lockLink s).seat = { s.seat with locked := true, mmSeq := seq, out := out } := by
  have cleared : ∀ (u : State), (if recognised u then clearLatching u 0x1104 0x22 0 (beBytes 8 (partnerDie u).toNat) else u).seat = u.seat ∧
      Alters [.events] u (if recognised u then clearLatching u 0x1104 0x22 0 (beBytes 8 (partnerDie u).toNat) else u) := fun u => by
    split
    · exact ⟨clearLatching_seat, clearLatching_alters⟩
    · exact ⟨rfl, frame_refl _ u⟩
  unfold lockLink
  extract_lets ack numbered faults settled
  have seat : settled.seat = numbered.seat := by
    refine (cleared faults).1.trans ?_
    change (clearLatching (clearLatching _ _ _ _ _) _ _ _ _).seat = _
    rw [clearLatching_seat, clearLatching_seat]
  have fresh : ¬ (settled.seat.trained || settled.seat.windowOver) = true := by
    rw [seat]
    change ¬ (s.seat.trained || s.seat.windowOver) = true
    rw [untrained, inWindow]
    exact nofun
  rw [if_neg fresh]
  refine ⟨?_, _, _, seat⟩
  have number : Alters [.seat] s numbered := frame_State_onSeat (List.Subset.refl _) (frame_refl _ s)
  have faultless : Alters [.events] numbered faults :=
    frame_clearLatching (List.Subset.refl _) (frame_clearLatching (List.Subset.refl _) (frame_refl _ _))
  exact frame_trans (frame_mono (by decide) number) (frame_mono (by decide) (frame_trans faultless (cleared faults).2))

theorem namesYou_of (partner : s.seat.partner = some p) : namesYou s = true ↔ seatPartner s.vault = some p.die := by
  unfold namesYou
  rw [partner]
  cases seatPartner s.vault with
  | none => simp
  | some d =>
    simp only [beq_iff_eq, Option.some.injEq]
    exact eq_comm

theorem partnerFlag_of (partner : s.seat.partner = some p) (i : Nat) : partnerFlag s i = p.flags.toNat.testBit i := by
  unfold partnerFlag
  rw [partner]

/-- The link has trained. -/
def trainedSeat (s : State) : State := s.onSeat fun t => { t with trained := true }

theorem train_recognised (names : namesYou s = true) (known : s.tiers.stranger = false) :
    train s = seatEnter (trainedSeat s) (if partnerFlag s 7 then .seated else .alone) := by
  have judged : (recognised (trainedSeat s) && !(trainedSeat s).tiers.stranger) = true := by
    change (namesYou s && !s.tiers.stranger) = true
    rw [names, known]
    rfl
  exact if_pos judged

/-- The judgement of a partner that the seat record does not name. -/
def strangerFound (s : State) : State :=
  match seatPartner s.vault with
  | some d => makeStranger s 3 d (partnerDie s)
  | none => makeStranger s 2 0 (partnerDie s)

theorem strangerFound_alters : Alters [.tiers, .events] s (strangerFound s) := by
  unfold strangerFound
  split <;> exact frame_makeStranger (List.Subset.refl _) (frame_refl _ s)

theorem strangerFound_stranger : (strangerFound s).tiers.stranger = true := by
  unfold strangerFound
  split <;> exact congrArg TierState.stranger raise_tiers

theorem train_stranger (unnamed : namesYou s = false) (known : s.tiers.stranger = false) :
    train s = seatEnter (strangerFound (trainedSeat s)) .stranger := by
  have judged : ¬ (recognised (trainedSeat s) && !(trainedSeat s).tiers.stranger) = true := by
    change ¬ (namesYou s && !s.tiers.stranger) = true
    rw [unnamed]
    exact nofun
  have fresh : ¬ (trainedSeat s).tiers.stranger = true := by
    change ¬ s.tiers.stranger = true
    rw [known]
    exact nofun
  refine (if_neg judged).trans (congrArg (seatEnter · .stranger) ((if_neg fresh).trans ?_))
  unfold strangerFound
  rfl

/-- The first good frames that lock the link train it: the partner the seat record names is joined, another is a stranger. -/
theorem seatFrameReceive_trains (twin : isTwin s = true) (up : s.supply.kindle = .up) (good : frameBad (seatScramble bytes) = false)
    (quiet : byteAt (seatScramble bytes) 240 = 0) (unlocked : s.seat.locked = false) (last : s.seat.good = 63) (untrained : s.seat.trained = false)
    (inWindow : s.seat.windowOver = false) (unpaired : s.seat.state = .unpaired) :
    ∃ u, exec (.seatFrameReceive bytes) s = .next (followPartner u) ∧ Alters [.seat, .events] s u ∧
      u.seat.locked = true ∧ u.seat.trained = false ∧ u.seat.windowOver = false ∧ u.seat.state = .unpaired ∧
      u.seat.partner = some (readFrame (seatScramble bytes)) := by
  let v := frameTaken s (readFrame (seatScramble bytes))
  have taken : Alters [.seat] s v := frame_State_onSeat (List.Subset.refl _) (frame_refl _ s)
  obtain ⟨locks, seq, out, seat⟩ := lockLink_untrained (s := v) untrained inWindow
  obtain ⟨u, out', keeps, useat, follows⟩ := frameFollowed_quiet (s := lockLink v) (p := readFrame (seatScramble bytes)) quiet
  have locked : (lockLink v).seat.locked = true := by rw [seat]
  have locking : frameLocked v = lockLink v := by
    refine if_pos ?_
    change (!s.seat.locked && min 64 (s.seat.good + 1) == 64) = true
    rw [unlocked, last]
    rfl
  refine ⟨u, ?_, frame_trans (frame_mono (by decide) taken) (frame_trans locks keeps), ?_⟩
  · rw [seatFrameReceive_takes twin up good]
    change Host.Outcome.next (frameHandled (frameLocked v) _ _) = _
    rw [locking, frameHandled, if_neg (by rw [locked]; exact nofun)]
    exact congrArg Host.Outcome.next follows
  · rw [useat, seat]
    exact ⟨rfl, untrained, inWindow, unpaired, rfl⟩

/-- What a partner's state brings about once the link is judged (Table 18.2, R570, R571). -/
def followSettled (s : State) : State :=
  match s.seat.state with
  | .seated => if partnerFlag s 5 then seatEnter s .alone else s
  | .alone => if partnerFlag s 7 && !recognised s then s.onSeat fun t => { t with rewriteDue := true } else s
  | .mirroring =>
    if recognised s && !s.tiers.stranger && s.seat.mirrorGot && partnerFlag s 7 then
      (seatEnter s .seated).onSeat fun t => { t with blocks := [], mirrorAt := none }
    else s
  | _ => s

theorem followSettled_seated (state : s.seat.state = .seated) : followSettled s = if partnerFlag s 5 then seatEnter s .alone else s := by
  unfold followSettled
  rw [state]

theorem followSettled_alone (state : s.seat.state = .alone) : followSettled s =
    if partnerFlag s 7 && !recognised s then s.onSeat fun t => { t with rewriteDue := true } else s := by
  unfold followSettled
  rw [state]

theorem followSettled_stranger (state : s.seat.state = .stranger) : followSettled s = s := by
  unfold followSettled
  rw [state]

theorem followPartner_trains (untrained : s.seat.trained = false) (inWindow : s.seat.windowOver = false) (up : s.supply.kindle = .up)
    (unpaired : s.seat.state = .unpaired) : followPartner s = followSettled (train s) := by
  have trains : (!s.seat.trained && !s.seat.windowOver && s.supply.kindle == .up && s.seat.state == .unpaired) = true := by
    rw [untrained, inWindow, up, unpaired]
    rfl
  exact congrArg followSettled (if_pos trains)

theorem followPartner_judged (judged : s.seat.state ≠ .unpaired) : followPartner s = followSettled s := by
  have settled : ¬ (!s.seat.trained && !s.seat.windowOver && s.supply.kindle == .up && s.seat.state == .unpaired) = true := by
    rw [Bool.and_eq_true]
    exact fun both => judged (beq_iff_eq.mp both.2)
  exact congrArg followSettled (if_neg settled)

end Receive

end Sys2Proof.Proofs
end

section
/-! What a locked frame brings about, the loss of the heartbeat and the end of the pairing window (R552, R553, R555, R570, R572). -/

namespace Sys2Proof.Proofs

open Sys2Proof Sys2Proof.Machine Sys2Proof.Safety Sys2Proof.Laws

/-! ## Training -/

section Training

variable {s t u : State} {new : Seat} {bytes : List Byte} {p : Partner}

/-- The link's own record as it was, trained. -/
structure TrainedAs (s t : State) : Prop where
  locked : t.seat.locked = s.seat.locked
  trained : t.seat.trained = true
  partner : t.seat.partner = s.seat.partner

theorem seatEnter_link : (seatEnter s new).seat.locked = s.seat.locked ∧ (seatEnter s new).seat.trained = s.seat.trained ∧
    (seatEnter s new).seat.partner = s.seat.partner ∧ (seatEnter s new).seat.bad = s.seat.bad ∧ (seatEnter s new).seat.good = s.seat.good ∧
    (seatEnter s new).seat.windowOver = s.seat.windowOver := by
  rw [seatEnter_seat]
  exact ⟨rfl, rfl, rfl, rfl, rfl, rfl⟩

theorem trainedAs_seatEnter (trained : TrainedAs s t) : TrainedAs s (seatEnter t new) := by
  obtain ⟨locked, judged, partner, -⟩ := seatEnter_link (s := t) (new := new)
  exact ⟨locked.trans trained.locked, judged.trans trained.trained, partner.trans trained.partner⟩

theorem trainedAs_start : TrainedAs s (trainedSeat s) := ⟨rfl, rfl, rfl⟩

theorem trainedAs_stranger : TrainedAs s (strangerFound (trainedSeat s)) := by
  have same : (strangerFound (trainedSeat s)).seat = (trainedSeat s).seat := same_seat strangerFound_alters (by decide)
  exact ⟨by rw [same]; rfl, by rw [same]; rfl, by rw [same]; rfl⟩

/-- What following the partner makes of an unpaired chip in its pairing window (Table 18.2). -/
theorem followPartner_judges (untrained : s.seat.trained = false) (inWindow : s.seat.windowOver = false) (up : s.supply.kindle = .up)
    (unpaired : s.seat.state = .unpaired) (known : s.tiers.stranger = false) (partner : s.seat.partner = some p) :
    TrainedAs s (followPartner s) ∧
    (seatPartner s.vault = some p.die → (followPartner s).tiers.stranger = false ∧
      (p.flags.toNat.testBit 7 = true → p.flags.toNat.testBit 5 = false → (followPartner s).seat.state = .seated) ∧
      (p.flags.toNat.testBit 7 = false → (followPartner s).seat.state = .alone)) ∧
    (seatPartner s.vault ≠ some p.die → (followPartner s).seat.state = .stranger ∧ (followPartner s).tiers.stranger = true) := by
  have judged := followPartner_trains untrained inWindow up unpaired
  have entered : ∀ (x : State) (y : Seat), (seatEnter x y).tiers = x.tiers := fun x y => same_tiers seatEnter_alters (by decide)
  have flags : ∀ x : State, x.seat.partner = s.seat.partner → ∀ i, partnerFlag x i = p.flags.toNat.testBit i := fun x same i =>
    partnerFlag_of (same.trans partner) i
  by_cases named : seatPartner s.vault = some p.die
  · have names : namesYou s = true := (namesYou_of partner).mpr named
    have trains := train_recognised names known
    rw [flags s rfl] at trains
    cases seven : p.flags.toNat.testBit 7 with
    | true =>
      rw [seven, if_pos rfl] at trains
      have joined : TrainedAs s (train s) := trains ▸ trainedAs_seatEnter trainedAs_start
      have state : (train s).seat.state = .seated := trains ▸ seatEnter_state
      have tiers : (train s).tiers = s.tiers := trains ▸ entered _ _
      rw [followSettled_seated state, flags (train s) joined.partner] at judged
      cases five : p.flags.toNat.testBit 5 with
      | true =>
        rw [five, if_pos rfl] at judged
        rw [judged]
        exact ⟨trainedAs_seatEnter joined, fun _ => ⟨by rw [entered, tiers]; exact known, fun _ => nofun, nofun⟩, fun other => absurd named other⟩
      | false =>
        rw [five, if_neg nofun] at judged
        rw [judged]
        exact ⟨joined, fun _ => ⟨by rw [tiers]; exact known, fun _ _ => state, nofun⟩, fun other => absurd named other⟩
    | false =>
      rw [seven, if_neg nofun] at trains
      have joined : TrainedAs s (train s) := trains ▸ trainedAs_seatEnter trainedAs_start
      have state : (train s).seat.state = .alone := trains ▸ seatEnter_state
      have tiers : (train s).tiers = s.tiers := trains ▸ entered _ _
      rw [followSettled_alone state, flags (train s) joined.partner, seven, Bool.false_and, if_neg nofun] at judged
      rw [judged]
      exact ⟨joined, fun _ => ⟨by rw [tiers]; exact known, nofun, fun _ => state⟩, fun other => absurd named other⟩
  · have unnamed : namesYou s = false := Bool.eq_false_iff.mpr fun names => named ((namesYou_of partner).mp names)
    have trains := train_stranger unnamed known
    have state : (train s).seat.state = .stranger := trains ▸ seatEnter_state
    rw [followSettled_stranger state] at judged
    rw [judged]
    exact ⟨trains ▸ trainedAs_seatEnter trainedAs_stranger, fun same => absurd same named,
      fun _ => ⟨state, by rw [trains, entered]; exact strangerFound_stranger⟩⟩

theorem seatFrameReceive_judges (twin : isTwin s = true) (up : s.supply.kindle = .up) (good : frameBad (seatScramble bytes) = false)
    (quiet : byteAt (seatScramble bytes) 240 = 0) (unlocked : s.seat.locked = false) (last : s.seat.good = 63) (untrained : s.seat.trained = false)
    (inWindow : s.seat.windowOver = false) (unpaired : s.seat.state = .unpaired) (known : s.tiers.stranger = false) :
    let p := readFrame (seatScramble bytes)
    ∃ t, exec (.seatFrameReceive bytes) s = .next t ∧ Alters [.tiers, .chans, .seat, .events] s t ∧ t.seat.locked = true ∧
      t.seat.trained = true ∧ t.seat.partner = some p ∧
      (seatPartner s.vault = some p.die → t.tiers.stranger = false ∧
        (p.flags.toNat.testBit 7 = true → p.flags.toNat.testBit 5 = false → t.seat.state = .seated) ∧
        (p.flags.toNat.testBit 7 = false → t.seat.state = .alone)) ∧
      (seatPartner s.vault ≠ some p.die → t.seat.state = .stranger ∧ t.tiers.stranger = true) := by
  intro p
  obtain ⟨u, run, keeps, locked, utrained, uwindow, ustate, upartner⟩ :=
    seatFrameReceive_trains twin up good quiet unlocked last untrained inWindow unpaired
  obtain ⟨link, named, unnamed⟩ := followPartner_judges utrained uwindow (by rw [same_supply keeps (by decide)]; exact up) ustate
    (by rw [same_tiers keeps (by decide)]; exact known) upartner
  rw [same_vault keeps (by decide)] at named unnamed
  exact ⟨_, run, frame_followPartner (List.Subset.refl _) (frame_mono (by decide) keeps), link.locked.trans locked, link.trained,
    link.partner.trans upartner, named, unnamed⟩

end Training

/-! ## The partner's release (R571) -/

section Release

variable {s : State} {bytes : List Byte}

theorem seatFrameReceive_leaves (twin : isTwin s = true) (up : s.supply.kindle = .up) (good : frameBad (seatScramble bytes) = false)
    (quiet : byteAt (seatScramble bytes) 240 = 0) (locked : s.seat.locked = true) (seated : s.seat.state = .seated)
    (leaves : (readFrame (seatScramble bytes)).flags.toNat.testBit 5 = true) :
    ∃ t, exec (.seatFrameReceive bytes) s = .next t ∧ Alters [.chans, .seat, .events] s t ∧ t.seat.state = .alone ∧ t.seat.bad = 0 ∧
      ∀ n : Fin 24, (t.chan n).drive = if isCurrent (s.chan n) then .carrying else (s.chan n).drive := by
  let v := frameTaken s (readFrame (seatScramble bytes))
  have taken : Alters [.seat] s v := frame_State_onSeat (List.Subset.refl _) (frame_refl _ s)
  have vlocked : v.seat.locked = true := locked
  obtain ⟨u, out, keeps, seat, follows⟩ := frameFollowed_quiet (s := v) (p := readFrame (seatScramble bytes)) quiet
  have state : u.seat.state = .seated := by rw [seat]; exact seated
  have flag : partnerFlag u 5 = true := by
    rw [partnerFlag_of (p := readFrame (seatScramble bytes)) (by rw [seat]; rfl)]
    exact leaves
  have alone : followPartner u = seatEnter u .alone := by
    rw [followPartner_judged (by rw [state]; exact nofun), followSettled_seated state]
    exact if_pos flag
  have chan : ∀ n, u.chan n = s.chan n := fun n => (same_chan keeps (by decide) n).trans (same_chan taken (by decide) n)
  refine ⟨seatEnter u .alone, ?_, ?_, seatEnter_state, ?_, fun n => ?_⟩
  · have stays : frameLocked v = v := by
      refine if_neg ?_
      rw [vlocked]
      exact nofun
    rw [seatFrameReceive_takes twin up good]
    change Host.Outcome.next (frameHandled (frameLocked v) _ _) = _
    rw [stays, frameHandled, if_neg (by rw [vlocked]; exact nofun), follows, alone]
  · exact frame_seatEnter (List.Subset.refl _) (frame_mono (by decide) (frame_trans (frame_mono (by decide) taken) keeps))
  · obtain ⟨-, -, -, bad, -⟩ := seatEnter_link (s := u) (new := .alone)
    rw [bad, seat]
    rfl
  · rw [seatEnter_alone_drive, chan]

end Release

/-! ## HEARTBEAT_LOSS and PAIRING_WINDOW_END -/

section Losses

variable {s : State} {p : Partner}

/-- The heartbeat is lost. -/
def heartbeatLost (s : State) : Bool := isTwin s && shellRuns s && s.seat.locked && 16 ≤ s.seat.bad

theorem heartbeatLoss_waits (waits : heartbeatLost s = false) : exec .heartbeatLoss s = .next s := congrArg Host.Outcome.next (whenDue_neg waits)

theorem mirrorFails_idle (idle : ∀ x ∈ s.engine.ops, x.opcode ≠ 0x1001) : mirrorFails s = s.onSeat fun t => { t with mirrorAt := none } := by
  have ended : endOps s (fun o => o.opcode == 0x1001 && o.holds) .failed 0x27 = s := by
    unfold endOps
    rw [List.filter_eq_nil_iff.mpr, each_nil]
    intro x mem picked
    rw [Bool.and_eq_true, Bool.and_eq_true, Bool.and_eq_true] at picked
    exact idle x mem (beq_iff_eq.mp picked.1.2.1)
  unfold mirrorFails
  rw [ended]

/-- The seat part with its link lost. -/
def linkLost (s : State) : State := s.onSeat fun t => { t with mirrorAt := none, locked := false, good := 0, out := [] }

/-- The tier that the partner-lost event carries. -/
def lostTier (s : State) : Nat := if partnerFlag s 3 then Tier.banked.rank else s.seat.partner.elim 0 fun p => p.tier.toNat

theorem heartbeatLoss_seated (lost : heartbeatLost s = true) (seated : s.seat.state = .seated) (none_ : s.seat.release = none)
    (idle : ∀ x ∈ s.engine.ops, x.opcode ≠ 0x1001) :
    exec .heartbeatLoss s = .next (seatEnter
      (if partnerFlag s 4 then linkLost s else raise (linkLost s) 0x1102 0x22 (beBytes 1 (lostTier s))) .alone) := by
  have failed : releaseFails (mirrorFails s) = s.onSeat fun t => { t with mirrorAt := none } := by
    rw [mirrorFails_idle idle]
    unfold releaseFails
    rw [show (s.onSeat fun t => { t with mirrorAt := none }).seat.release = none from none_]
  refine congrArg Host.Outcome.next ((whenDue_pos lost).trans ?_)
  dsimp only
  rw [failed]
  change (match (linkLost s).seat.state with
    | .seated => seatEnter (if partnerFlag (linkLost s) 4 then linkLost s else raise (linkLost s) 0x1102 0x22 (beBytes 1 (lostTier (linkLost s)))) .alone
    | .mirroring => _
    | _ => _) = _
  rw [show (linkLost s).seat.state = .seated from seated]
  rfl

theorem heartbeatLoss_row (twin : isTwin s = true) (runs : shellRuns s = true) (locked : s.seat.locked = true) (many : 16 ≤ s.seat.bad)
    (seated : s.seat.state = .seated) (none_ : s.seat.release = none) (idle : ∀ x ∈ s.engine.ops, x.opcode ≠ 0x1001)
    (partner : s.seat.partner = some p) :
    ∃ t, exec .heartbeatLoss s = .next t ∧ Alters [.chans, .seat, .events] s t ∧ t.seat.state = .alone ∧ t.seat.locked = false ∧
      t.seat.good = 0 ∧ (∀ n : Fin 24, (t.chan n).drive = if isCurrent (s.chan n) then .carrying else (s.chan n).drive) ∧
      (p.flags.toNat.testBit 4 = false → latched s 0x1102 0x22 0 = false →
        Logs s t 0x1102 0x22 (beBytes 1 (if p.flags.toNat.testBit 3 then Tier.banked.rank else p.tier.toNat))) ∧
      (p.flags.toNat.testBit 4 = true → ∀ e ∈ t.events.merge, e.code = 0x1102 → e ∈ s.events.merge) := by
  have lost : heartbeatLost s = true := by
    unfold heartbeatLost
    rw [twin, runs, locked, decide_eq_true many]
    rfl
  have run := heartbeatLoss_seated lost seated none_ idle
  have tier : lostTier s = if p.flags.toNat.testBit 3 then Tier.banked.rank else p.tier.toNat := by
    unfold lostTier
    rw [partnerFlag_of partner, partner]
    rfl
  rw [partnerFlag_of partner, tier] at run
  let v := if p.flags.toNat.testBit 4 then linkLost s
    else raise (linkLost s) 0x1102 0x22 (beBytes 1 (if p.flags.toNat.testBit 3 then Tier.banked.rank else p.tier.toNat))
  have cut : Alters [.seat] s (linkLost s) := frame_State_onSeat (List.Subset.refl _) (frame_refl _ s)
  have logged : Alters [.seat, .events] s v ∧ v.seat = (linkLost s).seat := by
    dsimp only [v]
    split
    · exact ⟨frame_mono (by decide) cut, rfl⟩
    · exact ⟨frame_raise (by decide) (frame_mono (by decide) cut), raise_seat⟩
  obtain ⟨keeps, seat⟩ := logged
  obtain ⟨unlocked, -, -, -, good, -⟩ := seatEnter_link (s := v) (new := .alone)
  refine ⟨seatEnter v .alone, run, frame_seatEnter (List.Subset.refl _) (frame_mono (by decide) keeps), seatEnter_state, by rw [unlocked, seat]; rfl,
    by rw [good, seat]; rfl, fun n => ?_, fun four fresh => ?_, fun four e mem code => ?_⟩
  · rw [seatEnter_alone_drive, same_chan keeps (by decide) n]
  · have logs : Logs s v 0x1102 0x22 (beBytes 1 (if p.flags.toNat.testBit 3 then Tier.banked.rank else p.tier.toNat)) := by
      dsimp only [v]
      rw [four, if_neg nofun]
      exact logs_at (raise_logs_latching (s := linkLost s) (by decide) fresh (by decide) (by decide)) rfl
    exact logs_of_merge logs rfl fun _ => seatEnter_merge
  · have merge : v.events = s.events := by
      dsimp only [v]
      rw [four, if_pos rfl]
      rfl
    rcases seatEnter_logged mem with old | other
    · rw [merge] at old
      exact old
    · rw [code] at other
      exact absurd other (by decide)

/-- The pairing window ends without a link. -/
def windowEnds (s : State) : Bool :=
  isTwin s && s.supply.kindle == .up && ((s.seat.state == .unpaired && !s.seat.windowOver) || s.seat.state == .seated) && !s.seat.locked
    && 3000000000 ≤ since s s.seat.windowAt

theorem pairingWindowEnd_waits (waits : windowEnds s = false) : exec .pairingWindowEnd s = .next s := congrArg Host.Outcome.next (whenDue_neg waits)

theorem pairingWindowEnd_row (twin : isTwin s = true) (up : s.supply.kindle = .up) (unpaired : s.seat.state = .unpaired)
    (inWindow : s.seat.windowOver = false) (unlocked : s.seat.locked = false) (over_ : 3000000000 ≤ since s s.seat.windowAt) :
    ∃ t, exec .pairingWindowEnd s = .next t ∧ Alters [.chans, .seat, .events] s t ∧ t.seat.windowOver = true ∧
      (s.tiers.stranger = true → t = { s with seat := { s.seat with windowOver := true } }) ∧
      (s.tiers.stranger = false → t.seat.state = .alone ∧ (latched s 0x1103 0x22 0 = false → Logs s t 0x1103 0x22 [])) := by
  have ends : windowEnds s = true := by
    unfold windowEnds
    rw [twin, up, unpaired, inWindow, unlocked, decide_eq_true over_]
    rfl
  let v := s.onSeat fun t => { t with windowOver := true }
  have marked : Alters [.seat] s v := frame_State_onSeat (List.Subset.refl _) (frame_refl _ s)
  have run : exec .pairingWindowEnd s = .next (if s.tiers.stranger then v else seatEnter (raise v 0x1103 0x22 []) .alone) :=
    congrArg Host.Outcome.next (whenDue_pos ends)
  cases known : s.tiers.stranger with
  | true =>
    rw [known, if_pos rfl] at run
    exact ⟨v, run, frame_mono (by decide) marked, rfl, fun _ => rfl, nofun⟩
  | false =>
    rw [known, if_neg nofun] at run
    obtain ⟨-, -, -, -, -, window⟩ := seatEnter_link (s := raise v 0x1103 0x22 []) (new := .alone)
    refine ⟨_, run, frame_seatEnter (List.Subset.refl _) (frame_raise (by decide) (frame_mono (by decide) marked)), ?_, nofun,
      fun _ => ⟨seatEnter_state, fun fresh => ?_⟩⟩
    · rw [window, raise_seat]
      rfl
    · exact logs_of_merge (raise_logs_latching (s := v) (by decide) fresh (by decide) (by decide)) rfl fun _ => seatEnter_merge

end Losses

end Sys2Proof.Proofs
end

section
/-! The lead, the shunt catch, the takeover and the handback (18_twin_seat.md, R556 to R561, R575). -/

namespace Sys2Proof.Proofs

open Sys2Proof Sys2Proof.Machine Sys2Proof.Safety Sys2Proof.Laws

/-- A walk whose visits keep `I` reaches at its end what the visit of `a` brings from `I` and every visit keeps. -/
theorem each_reaches {α : Type} {s : State} {l : List α} {f : α → State → State} {I P : State → Prop} {a : α} (visited : a ∈ l)
    (keeps : ∀ b x, I x → I (f b x)) (brings : ∀ x, I x → P (f a x)) (after : ∀ b x, P x → P (f b x)) (start : I s) : P (s.each l f) := by
  induction l generalizing s with
  | nil => cases visited
  | cons b l ih =>
    rcases List.mem_cons.mp visited with rfl | later
    · exact each_keeps (l := l) after (brings s start)
    · exact ih later (keeps b s start)

/-! ## LEAD_CHANGE -/

section Lead

variable {s : State} {lead : Bool} {n : Fin 24}

/-- Both chips' frames show the new lead and no handback goes on. -/
def leadMoves (s : State) : Bool :=
  isTwin s && atTrick s && s.seat.lead != leadWanted s
    && (shownLead s == leadWanted s && (s.seat.state != .seated || !(leadWanted s && partnerFlag s 6))) && !inHandback s

/-- The seat with its new lead; what the listeners caught is forgotten. -/
def leadTaken (s : State) : State :=
  (s.onSeat fun t => { t with lead := leadWanted s }).mapChans fun _ c => { c with caught := false }

theorem leadChange_waits (waits : leadMoves s = false) : exec .leadChange s = .next s := congrArg Host.Outcome.next (whenDue_neg waits)

theorem leadChange_moves (moves : leadMoves s = true) : exec .leadChange s = .next (moveVoltage (leadTaken s) (leadWanted s)) :=
  congrArg Host.Outcome.next (whenDue_pos moves)

theorem leadTaken_chan : (leadTaken s).chan n = { s.chan n with caught := false } := State.mapChans_chan ..

/-- In Seated every voltage output without a forced alarm moves with the lead; nothing else does. -/
theorem moveVoltage_chan (seated : s.seat.state = .seated) :
    ((moveVoltage s lead).chan n).caught = (s.chan n).caught ∧
    ((isOutChan (s.chan n) = false ∨ isCurrent (s.chan n) = true) → (moveVoltage s lead).chan n = s.chan n) ∧
    (isOutChan (s.chan n) = true → isCurrent (s.chan n) = false → (s.chan n).forced = false →
      ((moveVoltage s lead).chan n).drive = if lead then .carrying else .out) := by
  have move : (s.seat.state == .seated || (lead && (partnerFlag s 5 || partnerFlag s 4))) = true := by
    rw [seated]
    rfl
  unfold moveVoltage
  dsimp only
  rw [move]
  refine each_chans (I := fun _ => True) (R := fun _ c c' => c'.caught = c.caught ∧ ((isOutChan c = false ∨ isCurrent c = true) → c' = c) ∧
    (isOutChan c = true → isCurrent c = false → c.forced = false → c'.drive = if lead then .carrying else .out))
    (fun k x m h => ?_) (fun _ _ _ => trivial) (fun k x _ => ?_) trivial n
  · split
    · exact setDrive_chan_other h
    · rfl
  · split
    · next moves =>
      simp only [Bool.true_and, Bool.and_eq_true, Bool.not_eq_true'] at moves
      obtain ⟨⟨output, voltage⟩, -⟩ := moves
      have drives := setDrive_redrives (s := x) (n := k) (d := if lead then .carrying else .out)
      refine ⟨by rw [drives.eta], fun other => ?_, fun _ _ _ => setDrive_drive⟩
      rcases other with input | current
      · exact Bool.noConfusion (input.symm.trans output)
      · exact Bool.noConfusion (voltage.symm.trans current)
    · next stays =>
      refine ⟨rfl, fun _ => rfl, fun output voltage free => absurd ?_ stays⟩
      rw [output, voltage, free]
      rfl

theorem leadChange_row (twin : isTwin s = true) (boundary : atTrick s = true) (changes : s.seat.lead ≠ leadWanted s)
    (shown : shownLead s = leadWanted s) (settled : inHandback s = false) (seated : s.seat.state = .seated)
    (alone : leadWanted s = true → partnerFlag s 6 = false) :
    ∃ t, exec .leadChange s = .next t ∧ Alters [.chans, .seat] s t ∧ t.seat = { s.seat with lead := leadWanted s } ∧
      ∀ n : Fin 24, (t.chan n).caught = false ∧
        ((isOutChan (s.chan n) = false ∨ isCurrent (s.chan n) = true) → t.chan n = { s.chan n with caught := false }) ∧
        (isOutChan (s.chan n) = true → isCurrent (s.chan n) = false → (s.chan n).forced = false →
          (t.chan n).drive = if leadWanted s then .carrying else .out) := by
  have moves : leadMoves s = true := by
    have free : (leadWanted s && partnerFlag s 6) = false := by
      cases wanted : leadWanted s with
      | true => exact alone wanted
      | false => rfl
    unfold leadMoves
    rw [twin, boundary, shown, settled, free, beq_self_eq_true, bne_iff_ne.mpr changes, Bool.not_false, Bool.or_true]
    rfl
  have moved : Alters [.chans] (leadTaken s) (moveVoltage (leadTaken s) (leadWanted s)) :=
    frame_moveVoltage (List.Subset.refl _) (frame_refl _ _)
  have taken : Alters [.chans, .seat] s (leadTaken s) :=
    frame_State_mapChans (by decide) (frame_State_onSeat (by decide) (frame_refl _ s))
  refine ⟨_, leadChange_moves moves, frame_trans taken (frame_mono (by decide) moved), (same_seat moved (by decide)).trans rfl, fun n => ?_⟩
  obtain ⟨caught, others, voltage⟩ := moveVoltage_chan (s := leadTaken s) (lead := leadWanted s) (n := n) seated
  rw [leadTaken_chan] at caught others voltage
  exact ⟨caught, others, voltage⟩

end Lead

/-! ## SHUNT_CATCH -/

section Shunt

variable {s : State} {n m : Fin 24} {p : BitVec 8}

theorem shuntCatch_waits (waits : isTwin s = false ∨ (s.chan n).active = true ∨ ∀ p, (s.chan n).profile = some p → 2 < cpaOf p) :
    exec (.shuntCatch n) s = .next s := by
  change execShuntCatch n s = _
  unfold execShuntCatch
  dsimp only
  split
  · rfl
  · next p profile =>
    refine congrArg Host.Outcome.next (whenDue_neg ?_)
    rcases waits with single | active | other
    · rw [single]
      rfl
    · rw [active, Bool.not_true, Bool.and_false]
    · rw [decide_eq_false (Nat.not_le.mpr (other p profile)), Bool.and_false]
      rfl

/-- The listener's record with its shunt caught. -/
def shuntCaught (now : Tick) (c : Chan) : Chan :=
  { c with active := true, caught := true, roleStep := none, stale := staleRecent now ((1, now - 1500, some now) :: c.stale) }

theorem shuntCatch_catches (twin : isTwin s = true) (runs : shellRuns s = true) (profile : (s.chan n).profile = some p) (current : cpaOf p ≤ 2)
    (listens : (s.chan n).active = false) :
    exec (.shuntCatch n) s = .next (setFrontEnd (s.onChan n (shuntCaught s.clock.counter)) n) := by
  change execShuntCatch n s = _
  unfold execShuntCatch
  dsimp only
  rw [profile]
  refine congrArg Host.Outcome.next (whenDue_pos ?_)
  rw [twin, runs, decide_eq_true current, listens]
  rfl

theorem shuntCatch_row (twin : isTwin s = true) (runs : shellRuns s = true) (profile : (s.chan n).profile = some p) (current : cpaOf p ≤ 2)
    (listens : (s.chan n).active = false) :
    ∃ t, exec (.shuntCatch n) s = .next t ∧ Alters [.chans] s t ∧ (∀ m, m ≠ n → t.chan m = s.chan m) ∧ (t.chan n).active = true ∧
      (t.chan n).caught = true ∧ (t.chan n).roleStep = none ∧
      (1, s.clock.counter - 1500, some s.clock.counter) ∈ (t.chan n).stale := by
  refine ⟨_, shuntCatch_catches twin runs profile current listens,
    frame_setFrontEnd (List.Subset.refl _) (frame_State_onChan (List.Subset.refl _) (frame_refl _ s)), fun m h => ?_, ?_⟩
  · rw [setFrontEnd_chan_other h, State.onChan_chan_other _ n m _ h]
  · rw [setFrontEnd_chan, State.onChan_chan]
    refine ⟨rfl, rfl, rfl, List.mem_filter.mpr ⟨List.mem_cons_self .., ?_⟩⟩
    exact decide_eq_true (Nat.lt_add_of_pos_right (by decide))

end Shunt

/-! ## TAKEOVER_TRIP -/

section Takeover

variable {s : State} {n : Fin 24}

theorem takeoverTrip_waits (waits : isTwin s = false ∨ shellRuns s = false ∨ (s.seat.state ≠ .seated ∧ s.seat.state ≠ .alone) ∨
      (s.chan n).forced = true ∨ (s.chan n).drive = .carrying ∨
      ((s.chan n).drive = .sharing ∧ ((s.chan n).pathBad = true ∨ (s.chan n).atLimit = true))) :
    exec (.takeoverTrip n) s = .next s := by
  refine congrArg Host.Outcome.next (whenDue_neg (Bool.eq_false_iff.mpr fun armed => ?_))
  unfold comparatorArmed at armed
  dsimp only at armed
  simp only [Bool.and_eq_true, Bool.or_eq_true, beq_iff_eq, Bool.not_eq_true'] at armed
  obtain ⟨⟨⟨⟨⟨⟨twin, runs⟩, state⟩, -⟩, free⟩, -⟩, drive⟩ := armed
  rcases waits with single | stopped | ⟨seated, alone⟩ | forced | carries | ⟨shares, fault⟩
  · exact Bool.noConfusion (single.symm.trans twin)
  · exact Bool.noConfusion (stopped.symm.trans runs)
  · exact state.elim seated alone
  · exact Bool.noConfusion (free.symm.trans forced)
  · rw [carries] at drive
    exact drive.elim nofun (fun half => nomatch half.1.1)
  · rw [shares] at drive
    rcases drive with out | ⟨⟨-, path⟩, limit⟩
    · exact nomatch out
    · exact fault.elim (fun bad => Bool.noConfusion (path.symm.trans bad)) (fun at_ => Bool.noConfusion (limit.symm.trans at_))

theorem takeoverTrip_row (twin : isTwin s = true) (runs : shellRuns s = true) (state : s.seat.state = .seated ∨ s.seat.state = .alone)
    (output : isOutChan (s.chan n) = true) (free : (s.chan n).forced = false)
    (armed : ∀ x, sparseGet s.seat.disarmed n.val = some x → x.toNat ≤ s.clock.age.toNat)
    (drive : (s.chan n).drive = .out ∨ ((s.chan n).drive = .sharing ∧ (s.chan n).pathBad = false ∧ (s.chan n).atLimit = false)) :
    ∃ t, exec (.takeoverTrip n) s = .next t ∧ Alters [.chans, .events] s t ∧ (∀ m, m ≠ n → t.chan m = s.chan m) ∧
      (t.chan n).drive = .carrying ∧
      ((s.chan n).inControl = false → (t.chan n).stageOn = true ∧ (t.chan n).dac = (trimOf s.vault n).code (s.chan n).target) ∧
      ((∀ q ∈ s.events.rates, q.code.toNat ≠ 0x1105 ∨ q.obj ≠ n.val) → Logs s t 0x1105 0x22 (beBytes 1 n.val)) := by
  have due : comparatorArmed s n = true := by
    unfold comparatorArmed
    dsimp only
    rw [twin, runs, output, free]
    simp only [Bool.and_eq_true, Bool.or_eq_true, beq_iff_eq, Bool.not_eq_true', Bool.not_false, true_and, and_true]
    refine ⟨⟨state, ?_⟩, drive.imp_right fun ⟨shares, path, limit⟩ => ⟨⟨shares, path⟩, limit⟩⟩
    split
    · next t found => exact decide_eq_false (Nat.not_lt.mpr (armed t found))
    · rfl
  have run : exec (.takeoverTrip n) s = .next (raise (setDrive s n .carrying) 0x1105 0x22 (beBytes 1 n.val) n.val) :=
    congrArg Host.Outcome.next (whenDue_pos due)
  refine ⟨_, run, frame_raise (by decide) (frame_setDrive (by decide) (frame_refl _ s)), fun m h => ?_, ?_, fun shell => ?_, fun fresh => ?_⟩
  · rw [raise_chan, setDrive_chan_other h]
  · rw [raise_chan, setDrive_drive]
  · rw [raise_chan]
    exact setDrive_drives output shell nofun
  · have events : (setDrive s n .carrying).events = s.events := same_events setDrive_alters (by decide)
    have clock : (setDrive s n .carrying).clock = s.clock := same_clock setDrive_alters (by decide)
    exact logs_at (raise_logs_counting (by decide) (by decide) (by rw [events]; exact fresh) (by decide) (by decide)) (by rw [clock])

end Takeover

/-! ## HANDBACK -/

section Handback

variable {s u x : State} {n k : Fin 24} {t : Tick}

theorem takeTarget_alters : Alters [.chans] x (takeTarget x n) := frame_takeTarget (List.Subset.refl _) (frame_refl _ x)

theorem takeTarget_chan_other {m : Fin 24} (h : m ≠ n) : (takeTarget x n).chan m = x.chan m := by
  unfold takeTarget
  split
  · rfl
  · split
    · split
      · rfl
      · exact State.onChan_chan_other _ n m _ h
    · rfl

theorem handbackOne_chan_other {m : Fin 24} (h : m ≠ k) : (handbackOne k x).chan m = x.chan m := by
  unfold handbackOne
  dsimp only
  split
  · rfl
  · split
    · rw [State.onChan_chan_other _ k m _ h, driveShell_chan_other h, State.onChan_chan_other _ k m _ h, takeTarget_chan_other h]
    · split
      · exact setDrive_chan_other h
      · rfl

theorem handbackOne_alters : Alters [.chans] x (handbackOne k x) := frame_handbackOne (List.Subset.refl _) (frame_refl _ x)

/-- An output that was out shares, its share ramping up from zero. -/
def rampedUp (n : Fin 24) (x : State) : State :=
  let u := driveShell ((takeTarget x n).onChan n fun c => { c with drive := .sharing }) n
  u.onChan n fun c => { c with rampFrom := 0, rampAt := u.clock.age }

theorem rampedUp_chan : ((rampedUp n x).chan n).drive = .sharing ∧ ((rampedUp n x).chan n).rampFrom = 0 ∧
    ((rampedUp n x).chan n).rampAt = x.clock.age := by
  have taken : Alters [.chans] x ((takeTarget x n).onChan n fun c => { c with drive := .sharing }) :=
    frame_State_onChan (List.Subset.refl _) takeTarget_alters
  have driven := frame_driveShell (L := [.chans]) (n := n) (List.Subset.refl _) taken
  unfold rampedUp
  dsimp only
  rw [State.onChan_chan]
  refine ⟨?_, rfl, ?_⟩
  · change ((driveShell _ n).chan n).drive = _
    rw [redriven_drive (driveShell_redrives _ n), State.onChan_chan]
  · change (driveShell _ n).clock.age = _
    rw [same_clock driven (by decide)]

/-- A current output without a forced alarm comes back by its drive mode (R561). -/
structure Returned (s : State) (n : Fin 24) (c c' : Chan) : Prop where
  others : isCurrent c = false → c' = c
  out : isCurrent c = true → c.forced = false → c.drive = .out → c'.drive = .sharing ∧ c'.rampFrom = 0 ∧ c'.rampAt = s.clock.age
  shared : isCurrent c = true → c.forced = false → c.drive = .carrying → partnerCarries s n = true → c'.drive = .sharing
  carries : isCurrent c = true → c.forced = false → c.drive = .carrying → partnerCarries s n = false → c' = c
  sharing : isCurrent c = true → c.forced = false → c.drive = .sharing → c' = c

theorem handbackOne_returns (clock : x.clock = s.clock) (partner : x.seat.partner = s.seat.partner) :
    Returned s k (x.chan k) ((handbackOne k x).chan k) := by
  have carries : partnerCarries x k = partnerCarries s k := by
    unfold partnerCarries
    rw [partner]
  by_cases away : isCurrent (x.chan k) = true ∧ (x.chan k).forced = false
  · obtain ⟨current, free⟩ := away
    have here : handbackOne k x =
        if (x.chan k).drive == .out then rampedUp k x
        else if (x.chan k).drive == .carrying && partnerCarries x k then setDrive x k .sharing else x := by
      unfold handbackOne
      dsimp only
      rw [current, free]
      rfl
    rw [here]
    have voltage : ∀ {p : Prop}, isCurrent (x.chan k) = false → p := fun other => Bool.noConfusion (other.symm.trans current)
    cases mode : (x.chan k).drive with
    | out =>
      refine ⟨voltage, fun _ _ _ => ?_, fun _ _ other => absurd (mode.symm.trans other) nofun, fun _ _ other => absurd (mode.symm.trans other) nofun,
        fun _ _ other => absurd (mode.symm.trans other) nofun⟩
      rw [if_pos (by decide), ← clock]
      exact rampedUp_chan
    | carrying =>
      refine ⟨voltage, fun _ _ other => absurd (mode.symm.trans other) nofun, fun _ _ _ both => ?_, fun _ _ _ alone => ?_,
        fun _ _ other => absurd (mode.symm.trans other) nofun⟩
      · rw [carries, both, if_neg nofun, if_pos (by decide)]
        exact setDrive_drive
      · rw [carries, alone, if_neg nofun, if_neg nofun]
    | sharing =>
      refine ⟨voltage, fun _ _ other => absurd (mode.symm.trans other) nofun, fun _ _ other => absurd (mode.symm.trans other) nofun,
        fun _ _ other => absurd (mode.symm.trans other) nofun, fun _ _ _ => ?_⟩
      rw [if_neg nofun, if_neg nofun]
  · have stays : handbackOne k x = x := by
      refine if_pos ?_
      rw [Bool.or_eq_true, Bool.not_eq_true']
      by_contra neither
      rw [not_or, Bool.not_eq_false, Bool.not_eq_true] at neither
      exact away neither
    rw [stays]
    exact ⟨fun _ => rfl, fun current free => absurd ⟨current, free⟩ away, fun current free => absurd ⟨current, free⟩ away,
      fun current free => absurd ⟨current, free⟩ away, fun current free => absurd ⟨current, free⟩ away⟩

theorem handbackOnes_returns : Returned s n (s.chan n) ((s.each (List.finRange 24) handbackOne).chan n) :=
  each_chans (I := fun x => x.clock = s.clock ∧ x.seat.partner = s.seat.partner) (R := fun k c c' => Returned s k c c')
    (fun _ _ _ h => handbackOne_chan_other h)
    (fun _ x ⟨clock, partner⟩ => ⟨(same_clock handbackOne_alters (by decide)).trans clock,
      (congrArg SeatState.partner (same_seat handbackOne_alters (by decide))).trans partner⟩)
    (fun _ _ ⟨clock, partner⟩ => handbackOne_returns clock partner) ⟨rfl, rfl⟩ n

/-! ### The shares that have settled -/

theorem handbackDone_alters : Alters [.chans, .seat] x (handbackDone k x) := frame_handbackDone (List.Subset.refl _) (frame_refl _ x)

/-- A visit changes its own output and its own watch alone, and of the seat nothing but the watches. -/
theorem handbackDone_others : (handbackDone k x).clock = x.clock ∧ (∃ hb, (handbackDone k x).seat = { x.seat with handback := hb }) ∧
    (∀ m, m ≠ k → (handbackDone k x).chan m = x.chan m ∧ sparseGet (handbackDone k x).seat.handback m.val = sparseGet x.seat.handback m.val) := by
  refine ⟨same_clock handbackDone_alters (by decide), ?_⟩
  unfold handbackDone
  split
  · split
    · have same : (setDrive (x.onSeat fun u => { u with handback := sparseDel u.handback k.val }) k .sharing).seat =
          { x.seat with handback := sparseDel x.seat.handback k.val } := (same_seat setDrive_alters (by decide)).trans rfl
      refine ⟨⟨_, same⟩, fun m h => ⟨setDrive_chan_other h, ?_⟩⟩
      rw [same]
      exact (sparseGet_sparseDel ..).trans (if_neg fun same => h (Fin.ext same))
    · exact ⟨⟨_, rfl⟩, fun _ _ => ⟨rfl, rfl⟩⟩
  · exact ⟨⟨_, rfl⟩, fun _ _ => ⟨rfl, rfl⟩⟩

theorem handbackDone_waits (waits : ∀ y, sparseGet x.seat.handback k.val = some (some y) → since x y < trickTicks) : handbackDone k x = x := by
  unfold handbackDone
  split
  · next y found => exact if_neg (Nat.not_le.mpr (waits y found))
  · rfl

theorem handbackDone_shares (found : sparseGet x.seat.handback k.val = some (some t)) (settled : trickTicks ≤ since x t) :
    ((handbackDone k x).chan k).drive = .sharing ∧ sparseGet (handbackDone k x).seat.handback k.val = none := by
  unfold handbackDone
  rw [found]
  dsimp only
  rw [if_pos settled, same_seat setDrive_alters (by decide)]
  exact ⟨setDrive_drive, (sparseGet_sparseDel ..).trans (if_pos rfl)⟩

/-- The outputs that are not watched, or not for a trick yet, stay. -/
theorem handbackDones_stays (waits : ∀ y, sparseGet s.seat.handback n.val = some (some y) → since s y < trickTicks) :
    (s.each (List.finRange 24) handbackDone).chan n = s.chan n := by
  refine (each_keeps (P := fun x => x.chan n = s.chan n ∧ x.clock = s.clock ∧ sparseGet x.seat.handback n.val = sparseGet s.seat.handback n.val)
    (fun k x kept => ?_) ⟨rfl, rfl, rfl⟩).1
  obtain ⟨chan, clock, watch⟩ := kept
  by_cases same : n = k
  · subst same
    rw [handbackDone_waits fun y found => by
      have early := waits y (watch.symm.trans found)
      unfold since at early ⊢
      rw [clock]
      exact early]
    exact ⟨chan, clock, watch⟩
  · obtain ⟨time, -, others⟩ := handbackDone_others (k := k) (x := x)
    obtain ⟨kept, watched⟩ := others n same
    exact ⟨kept.trans chan, time.trans clock, watched.trans watch⟩

/-- An output in Sharing that is no longer watched stays so. -/
theorem handbackDone_keeps (done : (x.chan n).drive = .sharing ∧ sparseGet x.seat.handback n.val = none) :
    ((handbackDone k x).chan n).drive = .sharing ∧ sparseGet (handbackDone k x).seat.handback n.val = none := by
  by_cases same : n = k
  · subst same
    rw [handbackDone_waits fun y found => absurd (done.2.symm.trans found) nofun]
    exact done
  · obtain ⟨-, -, others⟩ := handbackDone_others (k := k) (x := x)
    obtain ⟨kept, watched⟩ := others n same
    rw [kept, watched]
    exact done

theorem handbackDone_progress (settled : trickTicks ≤ since s t) (clock : x.clock = s.clock)
    (state : sparseGet x.seat.handback n.val = some (some t) ∨ ((x.chan n).drive = .sharing ∧ sparseGet x.seat.handback n.val = none)) :
    sparseGet (handbackDone k x).seat.handback n.val = some (some t) ∨
      (((handbackDone k x).chan n).drive = .sharing ∧ sparseGet (handbackDone k x).seat.handback n.val = none) := by
  rcases state with watched | done
  · by_cases same : n = k
    · subst same
      exact .inr (handbackDone_shares watched (by unfold since at settled ⊢; rw [clock]; exact settled))
    · obtain ⟨-, -, others⟩ := handbackDone_others (k := k) (x := x)
      exact .inl ((others n same).2.trans watched)
  · exact .inr (handbackDone_keeps done)

/-- An output that has shared for a trick is in Sharing. -/
theorem handbackDones_shares (found : sparseGet s.seat.handback n.val = some (some t)) (settled : trickTicks ≤ since s t) :
    ((s.each (List.finRange 24) handbackDone).chan n).drive = .sharing := by
  refine (each_reaches (a := n) (List.mem_finRange n)
    (I := fun x => x.clock = s.clock ∧ (sparseGet x.seat.handback n.val = some (some t) ∨
      ((x.chan n).drive = .sharing ∧ sparseGet x.seat.handback n.val = none)))
    (P := fun x => (x.chan n).drive = .sharing ∧ sparseGet x.seat.handback n.val = none)
    (fun k x kept => ?_) (fun x kept => ?_) (fun k x kept => ?_) ⟨rfl, .inl found⟩).1
  · exact ⟨handbackDone_others.1.trans kept.1, handbackDone_progress settled kept.1 kept.2⟩
  · rcases kept.2 with watched | done
    · exact handbackDone_shares watched (by unfold since at settled ⊢; rw [kept.1]; exact settled)
    · exact handbackDone_keeps done
  · exact handbackDone_keeps kept

/-- A handback goes on. -/
def handbackRuns (s : State) : Bool :=
  isTwin s && s.seat.state == .seated && s.seat.locked && partnerState s == some 4 && shellRuns s

/-- At a trick boundary every current output is visited. -/
def handedBack (u : State) : State := if atTrick u then u.each (List.finRange 24) handbackOne else u

theorem handback_waits (waits : isTwin s = false ∨ s.seat.state ≠ .seated ∨ s.seat.locked = false) : exec .handback s = .next s := by
  refine congrArg Host.Outcome.next (whenDue_neg (Bool.eq_false_iff.mpr fun runs => ?_))
  simp only [Bool.and_eq_true, beq_iff_eq] at runs
  obtain ⟨⟨⟨⟨twin, seated⟩, locked⟩, -⟩, -⟩ := runs
  rcases waits with single | other | unlocked
  · exact Bool.noConfusion (single.symm.trans twin)
  · exact other seated
  · exact Bool.noConfusion (unlocked.symm.trans locked)

theorem handbackDones_seat : Alters [.chans, .seat] s (s.each (List.finRange 24) handbackDone) ∧
    ∃ hb, (s.each (List.finRange 24) handbackDone).seat = { s.seat with handback := hb } := by
  refine each_keeps (P := fun x => Alters [.chans, .seat] s x ∧ ∃ hb, x.seat = { s.seat with handback := hb }) (fun k x kept => ?_)
    ⟨frame_refl _ s, s.seat.handback, rfl⟩
  obtain ⟨keeps, hb, seat⟩ := kept
  obtain ⟨-, ⟨hb', seat'⟩, -⟩ := handbackDone_others (k := k) (x := x)
  exact ⟨frame_handbackDone (List.Subset.refl _) keeps, hb', by rw [seat', seat]⟩

theorem handbackOnes_alters : Alters [.chans] s (s.each (List.finRange 24) handbackOne) :=
  each_keeps (P := fun x => Alters [.chans] s x) (fun _ _ kept => frame_handbackOne (List.Subset.refl _) kept) (frame_refl _ s)

theorem handback_row (twin : isTwin s = true) (seated : s.seat.state = .seated) (locked : s.seat.locked = true) (there : partnerState s = some 4)
    (runs : shellRuns s = true) :
    ∃ t, exec .handback s = .next t ∧ Alters [.chans, .seat] s t ∧ t.seat = { s.seat with handback := t.seat.handback } ∧
      ∀ n : Fin 24,
        (sparseGet s.seat.handback n.val = none → isCurrent (s.chan n) = false → t.chan n = s.chan n) ∧
        (sparseGet s.seat.handback n.val = none → atTrick s = false → t.chan n = s.chan n) ∧
        (sparseGet s.seat.handback n.val = none → atTrick s = true → isCurrent (s.chan n) = true → (s.chan n).forced = false →
          ((s.chan n).drive = .out → (t.chan n).drive = .sharing ∧ (t.chan n).rampFrom = 0 ∧ (t.chan n).rampAt = s.clock.age) ∧
          ((s.chan n).drive = .carrying → partnerCarries s n = true → (t.chan n).drive = .sharing) ∧
          ((s.chan n).drive = .carrying → partnerCarries s n = false → t.chan n = s.chan n) ∧
          ((s.chan n).drive = .sharing → t.chan n = s.chan n)) ∧
        (∀ x, sparseGet s.seat.handback n.val = some (some x) → atTrick s = false →
          (since s x < 589824 → t.chan n = s.chan n) ∧ (589824 ≤ since s x → (t.chan n).drive = .sharing)) := by
  obtain ⟨keeps, hb, seat⟩ := handbackDones_seat (s := s)
  have stays := fun n => handbackDones_stays (s := s) (n := n)
  have shares := fun n t => handbackDones_shares (s := s) (n := n) (t := t)
  have due : handbackRuns s = true := by
    unfold handbackRuns
    rw [twin, seated, locked, there, runs]
    rfl
  have boundary : atTrick (s.each (List.finRange 24) handbackDone) = atTrick s := by
    unfold atTrick
    rw [same_clock keeps (by decide)]
  have run : exec .handback s = .next (handedBack (s.each (List.finRange 24) handbackDone)) := congrArg Host.Outcome.next (whenDue_pos due)
  generalize s.each (List.finRange 24) handbackDone = u at *
  unfold handedBack at run
  rw [boundary] at run
  have unwatched : ∀ n : Fin 24, sparseGet s.seat.handback n.val = none → u.chan n = s.chan n := fun n none_ =>
    stays n fun y found => absurd (none_.symm.trans found) nofun
  cases trick : atTrick s with
  | false =>
    rw [trick, if_neg nofun] at run
    refine ⟨u, run, keeps, by rw [seat], fun n => ⟨fun none_ _ => unwatched n none_, fun none_ _ => unwatched n none_, fun _ => nofun,
      fun x found _ => ⟨fun early => ?_, fun settled => shares n x found settled⟩⟩⟩
    refine stays n fun y other => ?_
    rw [found] at other
    cases other
    exact early
  | true =>
    rw [trick, if_pos rfl] at run
    have same : (u.each (List.finRange 24) handbackOne).seat = u.seat := same_seat handbackOnes_alters (by decide)
    refine ⟨_, run, frame_trans keeps (frame_mono (by decide) handbackOnes_alters), by rw [same, seat], fun n => ?_⟩
    have returned := handbackOnes_returns (s := u) (n := n)
    have carries : partnerCarries u n = partnerCarries s n := by
      unfold partnerCarries
      rw [seat]
    refine ⟨fun none_ voltage => ?_, fun _ => nofun, fun none_ _ current free => ?_, fun _ _ => nofun⟩
    · rw [unwatched n none_] at returned
      exact returned.others voltage
    · rw [unwatched n none_] at returned
      refine ⟨fun out => ?_, fun mode both => returned.shared current free mode (carries.trans both),
        fun mode alone => returned.carries current free mode (carries.trans alone), returned.sharing current free⟩
      rw [← same_clock keeps (by decide)]
      exact returned.out current free out

end Handback

end Sys2Proof.Proofs
end

section
/-! Messages sent again, the seat record and the end of a release (18_twin_seat.md, R566, R570, R571). -/

namespace Sys2Proof.Proofs

open Sys2Proof Sys2Proof.Machine Sys2Proof.Safety Sys2Proof.Laws

/-! ## MIRROR_RESEND -/

section Resend

variable {s : State} {line : Tick} {l : List Mirror}

/-- A message's kind, number and body. -/
def content (m : Mirror) : BitVec 8 × BitVec 8 × List Byte := (m.kind, m.seq, m.body)

/-- The message has waited for less than four symbols, or is not sent. -/
def Fresh (line : Tick) (m : Mirror) : Prop := ∀ x, m.sent = some x → line.toNat < x.toNat + 36864

theorem resendFrom_content : (resendFrom line l).map content = l.map content := by
  induction l with
  | nil => rfl
  | cons m l ih =>
    unfold resendFrom
    split
    · split
      · rw [List.map_map]
        rfl
      · rw [List.map_cons, ih, List.map_cons]
    · rw [List.map_cons, ih, List.map_cons]

/-- From the first message that has waited four symbols on, none counts as sent. -/
theorem resendFrom_fresh : ∀ m ∈ resendFrom line l, Fresh line m := by
  induction l with
  | nil => exact nofun
  | cons m l ih =>
    unfold resendFrom
    split
    · next t sent =>
      split
      · intro x mem
        obtain ⟨y, -, rfl⟩ := List.mem_map.mp mem
        exact nofun
      · next early =>
        refine List.forall_mem_cons.mpr ⟨fun x same => ?_, ih⟩
        rw [sent] at same
        cases same
        exact Nat.not_le.mp early
    · next unsent =>
      refine List.forall_mem_cons.mpr ⟨fun x same => ?_, ih⟩
      rw [unsent] at same
      exact nomatch same

theorem resendFrom_same (fresh : ∀ m ∈ l, Fresh line m) : resendFrom line l = l := by
  induction l with
  | nil => rfl
  | cons m l ih =>
    obtain ⟨first, rest⟩ := List.forall_mem_cons.mp fresh
    unfold resendFrom
    split
    · next t sent => exact (if_neg (Nat.not_le.mpr (first t sent))).trans (congrArg (m :: ·) (ih rest))
    · rw [ih rest]

theorem mirrorOp_none (idle : ∀ x ∈ s.engine.ops, x.opcode ≠ 0x1001) : mirrorOp s = none := by
  unfold mirrorOp
  rw [List.find?_eq_none]
  intro x mem found
  rw [Bool.and_eq_true] at found
  exact idle x mem (beq_iff_eq.mp found.1)

theorem resendBlock_idle (idle : ∀ x ∈ s.engine.ops, x.opcode ≠ 0x1001) : resendBlock s = s := by
  refine if_neg ?_
  rw [mirrorOp_none idle]
  exact nofun

theorem mirrorResend_waits (waits : isTwin s = false ∨ s.seat.locked = false) : exec .mirrorResend s = .next s := by
  refine congrArg Host.Outcome.next (whenDue_neg ?_)
  rcases waits with single | unlocked
  · rw [single]
    rfl
  · rw [unlocked, Bool.and_false]

theorem mirrorResend_row (twin : isTwin s = true) (locked : s.seat.locked = true) (idle : ∀ x ∈ s.engine.ops, x.opcode ≠ 0x1001) :
    exec .mirrorResend s = .next { s with seat := { s.seat with out := resendFrom s.clock.line s.seat.out } } := by
  refine congrArg Host.Outcome.next ((whenDue_pos (by rw [twin, locked]; rfl)).trans ?_)
  exact resendBlock_idle idle

end Resend

/-! ## SEAT_RECORD_REWRITE -/

section Record

variable {s : State} {p : Partner}

theorem seatRecordRewrite_waits (waits : s.seat.rewriteDue = false ∨ s.seat.state ≠ .alone ∨ shortEnergy s ≠ none) :
    exec .seatRecordRewrite s = .next s := by
  refine congrArg Host.Outcome.next (whenDue_neg (Bool.eq_false_iff.mpr fun due => ?_))
  simp only [Bool.and_eq_true, beq_iff_eq, Bool.not_eq_true', Option.isNone_iff_eq_none] at due
  obtain ⟨⟨⟨⟨wanted, alone⟩, -⟩, energy⟩, -⟩ := due
  rcases waits with none_ | other | short
  · exact Bool.noConfusion (none_.symm.trans wanted)
  · exact other alone
  · exact short energy

theorem seatRecordRewrite_writes (wanted : s.seat.rewriteDue = true) (alone : s.seat.state = .alone) (partner : s.seat.partner = some p)
    (energy : shortEnergy s = none) (space : vaultFull s .protection = false) (idle : ∀ x ∈ s.vault.pulses, x.why ≠ .seatRecord) :
    exec .seatRecordRewrite s = .next { s with vault := { s.vault with pulses := s.vault.pulses ++ [{
      key := .protection, data := protectionBytes (vaultClaimed s.vault) ((storedDigest s.vault).getD s.straps.digest) (some p.die),
      why := .seatRecord }] } } := by
  have quiet : (s.vault.pulses.any fun p => p.why == .seatRecord) = false := by
    rw [List.any_eq_false]
    exact fun x mem same => idle x mem (beq_iff_eq.mp same)
  have due : (s.seat.rewriteDue && s.seat.state == .alone && !(s.vault.pulses.any fun p => p.why == .seatRecord) && (shortEnergy s).isNone
      && !vaultFull s .protection) = true := by
    rw [wanted, alone, quiet, energy, space]
    rfl
  have die : partnerDie s = p.die := by
    unfold partnerDie
    rw [partner]
    rfl
  refine congrArg Host.Outcome.next ((whenDue_pos due).trans ?_)
  dsimp only
  rw [die]
  rfl

end Record

/-! ## RELEASE_COMPLETE -/

section Release

variable {s : State} {f : CmdFrame}

theorem releaseComplete_waits (waits : s.seat.release = none ∨ s.seat.state ≠ .seated ∨ partnerState s ≠ some 5) :
    exec .releaseComplete s = .next s := by
  change execReleaseComplete s = _
  unfold execReleaseComplete
  split
  · rfl
  · next f asked =>
    refine congrArg Host.Outcome.next (whenDue_neg ?_)
    rcases waits with none_ | other | there
    · exact absurd (asked.symm.trans none_) nofun
    · rw [beq_false_of_ne other, Bool.false_and]
    · rw [beq_false_of_ne there, Bool.and_false]

/-- The chip released, before its final response. -/
def seatReleased (s : State) : State := seatEnter (s.onSeat fun t => { t with release := none }) .released

theorem releaseComplete_releases (asked : s.seat.release = some f) (seated : s.seat.state = .seated) (there : partnerState s = some 5) :
    exec .releaseComplete s = .next (finalResponse (seatReleased s) f (some (changeDigest (seatReleased s) f [])) 0 []) := by
  change execReleaseComplete s = _
  unfold execReleaseComplete
  rw [asked]
  exact congrArg Host.Outcome.next (whenDue_pos (by rw [seated, there]; rfl))

theorem seatReleased_alters : Alters [.chans, .seat, .events] s (seatReleased s) :=
  frame_seatEnter (List.Subset.refl _) (frame_State_onSeat (by decide) (frame_refl _ s))

theorem seatReleased_seat : (seatReleased s).seat.state = .released ∧ (seatReleased s).seat.release = none ∧ (seatReleased s).seat.lead = false := by
  unfold seatReleased
  rw [seatEnter_seat]
  exact ⟨rfl, rfl, rfl⟩

theorem seatReleased_chan (n : Fin 24) : ((seatReleased s).chan n).drive = .out ∧ ((seatReleased s).chan n).active = false ∧
    ((seatReleased s).chan n).roleStep = none := by
  unfold seatReleased
  rw [seatEnter_withdraws (new := .released) (by decide), State.onSeat_chan]
  exact seatWithdrawn_chan

theorem releaseComplete_row (asked : s.seat.release = some f) (seated : s.seat.state = .seated) (there : partnerState s = some 5) :
    ∃ t, exec .releaseComplete s = .next t ∧ Alters [.free, .queues, .chans, .engine, .seat, .events, .dbg] s t ∧
      t.seat.state = .released ∧ t.seat.release = none ∧ t.seat.lead = false ∧ t.engine.ops = s.engine.ops ∧ Responds s t f 0 2 [] ∧
      ∀ n : Fin 24, (t.chan n).drive = .out ∧ (t.chan n).active = false ∧ (t.chan n).roleStep = none := by
  obtain ⟨state, none_, lead⟩ := seatReleased_seat (s := s)
  have keeps : Alters [.chans, .seat, .events] s (seatReleased s) := seatReleased_alters
  have answered : Alters [.free, .queues, .engine, .dbg] (seatReleased s) (finalResponse (seatReleased s) f (some (changeDigest (seatReleased s) f [])) 0 []) :=
    finalResponse_alters
  have seat := same_seat answered (by decide)
  have chan := fun n => same_chan answered (by decide) n
  refine ⟨_, releaseComplete_releases asked seated there, frame_trans (frame_mono (by decide) keeps) (frame_mono (by decide) answered),
    by rw [seat]; exact state, by rw [seat]; exact none_, by rw [seat]; exact lead,
    finalResponse_ops.1.trans (congrArg Engine.ops (same_engine keeps (by decide))),
    finalResponse_responds (sameKeys_of_slots (same_dieId keeps (by decide)) (same_vault keeps (by decide))
      (congrArg Engine.slots (same_engine keeps (by decide)))), fun n => ?_⟩
  rw [chan n]
  exact seatReleased_chan n

end Release

/-- Settles O58: each row acts when it is due, on the seat and the channels it names, and leaves the state alone when it is not. -/
theorem seatFollowsItsTables : Obligations.SeatFollowsItsTables := by
  unfold Obligations.SeatFollowsItsTables
  refine ⟨fun s waits => seatFrameSend_waits ?_, fun s twin boundary power other => seatFrameSend_row ?_ other,
    fun bytes s refused => seatFrameReceive_refused refused,
    fun bytes s twin up good unlocked few => seatFrameReceive_counts twin up good unlocked few,
    fun bytes s twin up good quiet unlocked last untrained inWindow unpaired known =>
      seatFrameReceive_judges twin up good quiet unlocked last untrained inWindow unpaired known,
    fun bytes s twin up good quiet locked seated leaves => seatFrameReceive_leaves twin up good quiet locked seated leaves,
    fun s waits => heartbeatLoss_waits ?_,
    fun s p twin runs locked many seated none_ idle partner => heartbeatLoss_row twin runs locked many seated none_ idle partner,
    fun s waits => pairingWindowEnd_waits ?_,
    fun s twin up unpaired inWindow unlocked over_ => pairingWindowEnd_row twin up unpaired inWindow unlocked over_,
    fun s waits => leadChange_waits ?_,
    fun s twin boundary changes shown settled seated alone => leadChange_row twin boundary changes shown settled seated alone,
    fun n s waits => shuntCatch_waits waits,
    fun n p s twin runs profile current listens => shuntCatch_row twin runs profile current listens,
    fun n s waits => takeoverTrip_waits waits,
    fun n s twin runs state output free armed drive => takeoverTrip_row twin runs state output free armed drive,
    fun s waits => handback_waits waits,
    fun s twin seated locked there runs => handback_row twin seated locked there runs,
    fun s waits => mirrorResend_waits waits,
    fun s twin locked idle => ⟨_, mirrorResend_row twin locked idle, rfl, resendFrom_content, resendFrom_fresh, fun fresh => ?_⟩,
    fun s waits => seatRecordRewrite_waits waits,
    fun s p wanted alone partner energy space idle => seatRecordRewrite_writes wanted alone partner energy space idle,
    fun s waits => releaseComplete_waits waits,
    fun s f asked seated there _ => releaseComplete_row asked seated there⟩
  · unfold sendsSeat
    rcases waits with single | between | ⟨joining, up⟩
    · rw [single]
      rfl
    · rw [between, Bool.and_false]
      rfl
    · rw [beq_false_of_ne joining, beq_false_of_ne up, Bool.or_false, Bool.and_false]
  · unfold sendsSeat
    rw [twin, boundary]
    rcases power with joining | up
    · rw [joining]
      rfl
    · rw [up]
      rfl
  · unfold heartbeatLost
    rcases waits with single | unlocked | few
    · rw [single]
      rfl
    · rw [unlocked, Bool.and_false]
      rfl
    · rw [decide_eq_false (by omega), Bool.and_false]
  · unfold windowEnds
    rcases waits with single | locked | early
    · rw [single]
      rfl
    · rw [locked, Bool.not_true, Bool.and_false]
      rfl
    · rw [decide_eq_false (by omega), Bool.and_false]
  · unfold leadMoves
    rcases waits with single | between | same | handing | hidden
    · rw [single]
      rfl
    · rw [between, Bool.and_false]
      rfl
    · rw [same, bne_self_eq_false, Bool.and_false]
      rfl
    · rw [handing, Bool.not_true, Bool.and_false]
    · rw [beq_false_of_ne hidden, Bool.false_and, Bool.and_false]
      rfl
  · rw [resendFrom_same fresh]

end Sys2Proof.Proofs
end
